-- ==== Sys2Proof/Word.lean ====
section
/-!
DEFINITION. The words of the machine: the 72-bit data word, its 8-bit tag and the tagged word
(Table 0.4 of spec/00_scope.md), with the plainest helpers over them.
-/

namespace Sys2Proof

/-- The 72-bit data word D[71:0]. -/
abbrev Word := BitVec 72

/-- A byte of a byte-addressed structure; byte 0 is the least significant (R6). -/
abbrev Byte := BitVec 8

/-- A tagged word: data and the tag fields V, F, L, P and EP (Table 0.4). -/
structure TW where
  d : Word
  v : Bool
  f : Bool
  l : Bool
  p : Bool
  ep : BitVec 4
deriving DecidableEq, Repr

/-- The not-valid word: D = 0, T = 0x00 (Table 0.4). -/
abbrev TW.notValid : TW := ⟨0, false, false, false, false, 0⟩

/-- The word delivered for an uncorrectable read: D = 0, tag 0x90 (Table 18.2). -/
abbrev TW.poisoned : TW := ⟨0, true, false, false, true, 0⟩

/-- The word delivered for a refused or failed request: D = 0, tag 0x10 (Table 18.2). -/
abbrev TW.refusedWord : TW := ⟨0, false, false, false, true, 0⟩

/-- The tag byte T[7:0] = V, F, L, P, EP. -/
def TW.tag (t : TW) : BitVec 8 :=
  BitVec.ofNat 8 (t.v.toNat * 128 + t.f.toNat * 64 + t.l.toNat * 32 + t.p.toNat * 16 + t.ep.toNat)

/-- A tagged word from its data and its tag byte. -/
def TW.ofTag (d : Word) (tag : BitVec 8) : TW :=
  ⟨d, tag.getLsbD 7, tag.getLsbD 6, tag.getLsbD 5, tag.getLsbD 4, tag.extractLsb' 0 4⟩

/-- The 80-bit value of a tagged word, tag above data. -/
def TW.bits (t : TW) : BitVec 80 := t.tag ++ t.d

/-- A tagged word from its 80-bit value. -/
def TW.ofBits (b : BitVec 80) : TW := TW.ofTag (b.extractLsb' 0 72) (b.extractLsb' 72 8)

/-- A tagged word of plain data with tag 0x80, as trace records and summaries carry. -/
abbrev TW.data (d : Word) : TW := ⟨d, true, false, false, false, 0⟩

end Sys2Proof
end

