-- ==== Sys2Proof/Syntax.lean ====
section
/-!
DEFINITION. The commands of the block: ONE inductive with one constructor per row of
spec/opcode_table.json, and the types of their operands. An operand is either a choice of the
sender (an index, a written value) or an outcome the environment determines (the ECC outcome of a
read, measured temperatures, received bytes, straps).
-/

namespace Sys2Proof

/-- Outcome of a SECDED or RS check of a read: the memory cells' physical errors are not state. -/
inductive Ecc where
  | ok
  | corrected
  | uncorrectable
deriving DecidableEq, Repr

/-- The fields of a micro-instruction but for its opcode (Table 3.1, R69). -/
structure UStep where
  fmt : BitVec 4
  dst : BitVec 5
  srca : BitVec 5
  srcb : BitVec 5
  srcc : BitVec 5
  mod : BitVec 8
  imm : BitVec 16
  seq : BitVec 8
deriving DecidableEq, Repr

/-- A host access through BAR2 (R29, R31): offset, direction, length in bytes, the bytes written,
the EP bit of the TLP (Table 18.1) and the ECC outcome of the read it makes. -/
structure Bar2 where
  off : BitVec 36
  wr : Bool
  len : Nat
  data : List (BitVec 8)
  tlpEp : Bool
  ecc : Ecc
deriving DecidableEq, Repr

/-- What firmware finds on one DRAM channel at START-UP (R207, R208): a device fitted, LP5X to JESD209-5B, its banks and
bank groups, the channel's width in bits, its capacity in GiB, its ranks, its data rate in units of 0.1 MT/s, and the
training result. -/
structure DramChan where
  fitted : Bool
  lp5x : Bool
  banks : Nat
  groups : Nat
  width : Nat
  gib : Nat
  ranks : Nat
  rate : Nat
  trained : Bool
deriving DecidableEq, Repr

/-- The bytes a line write covers: first byte (0 to 59) and the bytes from there (R18, R211). -/
structure LineWrite where
  first : Nat
  bytes : List (BitVec 8)
deriving DecidableEq, Repr

/-- What a route flit carries of a request for another device (R261): the target device, `XL`, and the
destination router there. -/
structure RouteFlit where
  dev : BitVec 6
  xl : Bool
  rdst : Fin 40
deriving DecidableEq, Repr

/-- A NoC request flit: header fields and up to eight tagged words, more for the later flits of a block
write (R228 to R230), and the route flit before it when it goes to another device. -/
structure Flit where
  dst : Fin 40
  src : Fin 40
  cnt : BitVec 3
  rb : BitVec 5
  addr : BitVec 40
  words : List TW
  route : Option RouteFlit
deriving DecidableEq, Repr

/-- What a router on the way of a packet finds in the header check of one of its flits (R237). -/
structure Hop where
  router : Fin 40
  flit : Fin 8
  chk : Ecc
deriving DecidableEq, Repr

/-- How a packet comes through the network: what the routers' header checks find, which of its flits fail their CRC
(R237, R238), and whether it comes after the point of no return of a power-down at its destination (R241). -/
structure Passage where
  hops : List Hop
  bad : BitVec 8
  late : Bool
deriving DecidableEq, Repr

/-- A chain packet (R247, R248, Table 10.1): header fields and the data units' tagged words; `rsv` says that the packet
holds a reserved value in bits not kept here. -/
structure Pkt where
  tgt : BitVec 8
  sdev : BitVec 6
  seq : BitVec 8
  ackSeq : BitVec 8
  hops : BitVec 6
  clsB : Bool
  lccls : BitVec 3
  lccnt : BitVec 5
  op : BitVec 4
  cnt : BitVec 3
  src : Fin 40
  rb : BitVec 5
  xl : Bool
  arg : BitVec 40
  rstat : BitVec 8
  words : List TW
  rsv : Bool
deriving DecidableEq, Repr

/-- A host command that a chain REQ carries to another device's mailbox (R358). -/
structure FwdCmd where
  opcode : BitVec 16
  flags : BitVec 8
  params : List (BitVec 8)
deriving DecidableEq, Repr

/-- The answer of a forwarded command (R358, R359). -/
structure FwdAns where
  slot : Fin 16
  status : BitVec 16
  data : List (BitVec 8)
deriving DecidableEq, Repr

/-- A frame that the MAC receives: its bytes from the destination address to the end of the
payload, the FCS check, the positions of bytes with bad parity (R430) and the time stamp point. -/
structure RxFrame where
  bytes : List (BitVec 8)
  fcsOk : Bool
  badParity : List Nat
  room : Bool
deriving DecidableEq, Repr

/-- One record of the PTP timing ring (R313). -/
structure RingRec where
  kind : BitVec 8
  secs : BitVec 48
  ns : BitVec 32
  tsid : BitVec 16
  frame : List (BitVec 8)
deriving DecidableEq, Repr

/-- Why firmware re-plans a yard (R416). -/
inductive ReplanWhy where
  | daily
  | moved
  | commanded
  | startUp
deriving DecidableEq, Repr

/-- The result of one slack window during a re-plan (R412, R416). -/
structure SlackWin where
  near : BitVec 32
  trans : BitVec 32
deriving DecidableEq, Repr

/-- A hardware finding (R434): alarm code, record kind, address word, detail and source router. -/
structure Finding where
  code : BitVec 16
  kind : BitVec 16
  addr : BitVec 64
  detail : BitVec 32
  router : BitVec 8
deriving DecidableEq, Repr

/-- What checking a firmware image through steps 1 to 7 of Table 15.7 finds: the step that fails, 0 for none,
and the image's `SEQNO` (R455). -/
structure FwCheck where
  step : Nat
  seqno : BitVec 32
deriving DecidableEq, Repr

/-- The strap pins sampled at POR and RESET_N (R496). -/
structure Straps where
  bootsel : BitVec 2
  refsel : BitVec 2
  hostport : Bool
deriving DecidableEq, Repr

/-- An edge of a clock of the tack fabric (R327): of FCLK, of ACLK/4, or of the signal on block input i of
block b that a macrocell uses as its clock; rising or falling. -/
inductive FabClk where
  | fclk (rising : Bool)
  | aclk4 (rising : Bool)
  | clkin (b : Fin 256) (i : Fin 48) (rising : Bool)
deriving DecidableEq, Repr

/-- The commands of the block, one constructor per row of spec/opcode_table.json, in its order. What
the surroundings bring stands in the operands (DESIGN CHOICE, log 5); what only they can observe is left out
(DESIGN CHOICE, log 162). -/
inductive Instr where
  /-- DIAGNOSTIC_REGISTER_WRITE (R26): A write to a register that has no row of its own, through BAR2 or a diagnostic command, acts as its access type states. -/
  | diagnosticRegisterWrite (addr : BitVec 41) (wide : Bool) (v : BitVec 64)
  /-- COUNT_CLEAR (R113): Writing 1 to a WO CLR or CLRCNT bit clears the counts that the bit names. -/
  | countClear (addr : BitVec 41)
  /-- HOST_BAR2_ACCESS (R29): A host read or write through BAR2 is steered by its APn register to a device and local address and served there. -/
  | hostBar2Access (a : Bar2)
  /-- NOP (R82): The FU issues a step that does nothing. -/
  | nop (g : Fin 2048) (u : UStep)
  /-- MOV (R82): The FU copies operand A to the destination. -/
  | mov (g : Fin 2048) (u : UStep)
  /-- SELV (R84): The FU writes A if A is valid, else B. -/
  | selv (g : Fin 2048) (u : UStep)
  /-- SELNZ (R82): Per element the FU takes A where C is non-zero, else B. -/
  | selnz (g : Fin 2048) (u : UStep)
  /-- SELNEG (R82): Per element the FU takes A where C is negative, else B. -/
  | selneg (g : Fin 2048) (u : UStep)
  /-- LIXSET (R80): The step sets the loop index to IMM at the end of the round. -/
  | lixset (g : Fin 2048) (u : UStep)
  /-- ACCLR (R82): The step clears an accumulator, sets AE to -512 and clears ACCP. -/
  | acclr (g : Fin 2048) (u : UStep)
  /-- ADD (R83): The FU adds A and B per element with narrowing by SH. -/
  | add (g : Fin 2048) (u : UStep)
  /-- SUB (R83): The FU subtracts B from A per element. -/
  | sub (g : Fin 2048) (u : UStep)
  /-- NEG (R83): The FU negates A per element. -/
  | neg (g : Fin 2048) (u : UStep)
  /-- ABS (R82): The FU takes the absolute value of A per element. -/
  | abs (g : Fin 2048) (u : UStep)
  /-- MIN (R82): The FU takes the per-element minimum of A and B. -/
  | min (g : Fin 2048) (u : UStep)
  /-- MAX (R82): The FU takes the per-element maximum of A and B. -/
  | max (g : Fin 2048) (u : UStep)
  /-- CMPEQ (R82): Each element becomes 1 if A equals B, else 0. -/
  | cmpeq (g : Fin 2048) (u : UStep)
  /-- CMPGT (R82): Each element becomes 1 if A exceeds B, else 0. -/
  | cmpgt (g : Fin 2048) (u : UStep)
  /-- SHLA (R82): Each element is shifted left arithmetically by IMM[6:0] and range-limited. -/
  | shla (g : Fin 2048) (u : UStep)
  /-- SHRA (R51): Each element is narrowed with shift IMM[6:0]. -/
  | shra (g : Fin 2048) (u : UStep)
  /-- MUL (R82): The FU multiplies integer elements of A and B. -/
  | mul (g : Fin 2048) (u : UStep)
  /-- MAC (R45): The FU adds the products of A and B into an accumulator. -/
  | mac (g : Fin 2048) (u : UStep)
  /-- MSU (R45): The FU subtracts the products of A and B from an accumulator. -/
  | msu (g : Fin 2048) (u : UStep)
  /-- CMUL (R82): The FU multiplies complex samples of A and B. -/
  | cmul (g : Fin 2048) (u : UStep)
  /-- CMAC (R45): The FU adds complex products of A and B into an accumulator. -/
  | cmac (g : Fin 2048) (u : UStep)
  /-- CMSU (R45): The FU subtracts complex products of A and B from an accumulator. -/
  | cmsu (g : Fin 2048) (u : UStep)
  /-- CJMAC (R47): The FU adds conj(A) times B into an accumulator. -/
  | cjmac (g : Fin 2048) (u : UStep)
  /-- CMAG2 (R82): Each sample becomes its magnitude squared in I with Q zero. -/
  | cmag2 (g : Fin 2048) (u : UStep)
  /-- CMAGAC (R82): Each sample's magnitude squared is added into the I lane of an accumulator. -/
  | cmagac (g : Fin 2048) (u : UStep)
  /-- CSCL (R82): Each sample of A is scaled by the I component of the same sample of B. -/
  | cscl (g : Fin 2048) (u : UStep)
  /-- CROT (R82): Each sample of A is rotated by j^IMM[1:0]. -/
  | crot (g : Fin 2048) (u : UStep)
  /-- CCONJ (R82): Each sample of A is conjugated. -/
  | cconj (g : Fin 2048) (u : UStep)
  /-- BPACK (R54): A's four 18-bit fields are packed into B16x2 with exponent -17. -/
  | bpack (g : Fin 2048) (u : UStep)
  /-- BEXPD (R82): A B16x2 word is expanded into C18x2 fields. -/
  | bexpd (g : Fin 2048) (u : UStep)
  /-- BALIGN (R82): A's mantissas are realigned to B's exponent. -/
  | balign (g : Fin 2048) (u : UStep)
  /-- BRENORM (R54): A's mantissas are repacked with A's exponent. -/
  | brenorm (g : Fin 2048) (u : UStep)
  /-- BADD (R55): Two B16x2 words are aligned, added and packed. -/
  | badd (g : Fin 2048) (u : UStep)
  /-- BSUB (R55): Two B16x2 words are aligned, subtracted and packed. -/
  | bsub (g : Fin 2048) (u : UStep)
  /-- BMUL (R52): Two B16x2 words are multiplied and packed with the product exponent. -/
  | bmul (g : Fin 2048) (u : UStep)
  /-- BMAC (R53): A block-float product is aligned to the accumulator exponent and added. -/
  | bmac (g : Fin 2048) (u : UStep)
  /-- BEXPR (R82): A's exponent is written sign-extended into every I18x4 element. -/
  | bexpr (g : Fin 2048) (u : UStep)
  /-- BESET (R82): A is written with its exponent replaced by IMM[7:0]. -/
  | beset (g : Fin 2048) (u : UStep)
  /-- AND (R82): The FU forms A AND B over 72 bits. -/
  | and (g : Fin 2048) (u : UStep)
  /-- OR (R82): The FU forms A OR B over 72 bits. -/
  | or (g : Fin 2048) (u : UStep)
  /-- XOR (R82): The FU forms A XOR B over 72 bits. -/
  | xor (g : Fin 2048) (u : UStep)
  /-- ANDN (R82): The FU forms A AND NOT B over 72 bits. -/
  | andn (g : Fin 2048) (u : UStep)
  /-- NOT (R82): The FU forms NOT A over 72 bits. -/
  | not (g : Fin 2048) (u : UStep)
  /-- BITSEL (R82): Per bit the FU takes A where C is 1, else B. -/
  | bitsel (g : Fin 2048) (u : UStep)
  /-- LSL (R82): A is shifted left logically by IMM[6:0]. -/
  | lsl (g : Fin 2048) (u : UStep)
  /-- LSR (R82): A is shifted right logically by IMM[6:0]. -/
  | lsr (g : Fin 2048) (u : UStep)
  /-- ROL (R82): A is rotated left by IMM[6:0] modulo 72. -/
  | rol (g : Fin 2048) (u : UStep)
  /-- POPC (R82): The FU counts the 1 bits of A. -/
  | popc (g : Fin 2048) (u : UStep)
  /-- CLZ (R82): The FU counts the leading 0 bits of A. -/
  | clz (g : Fin 2048) (u : UStep)
  /-- EREV (R82): The elements of A are reversed. -/
  | erev (g : Fin 2048) (u : UStep)
  /-- EBCST (R82): One element of A is broadcast to every element. -/
  | ebcst (g : Fin 2048) (u : UStep)
  /-- EINS (R82): Element 0 of B is inserted into A at element IMM[2:0]. -/
  | eins (g : Fin 2048) (u : UStep)
  /-- EPICK (R82): Each element is taken from A or B as IMM selects. -/
  | epick (g : Fin 2048) (u : UStep)
  /-- IQSWAP (R82): I and Q of each sample are swapped. -/
  | iqswap (g : Fin 2048) (u : UStep)
  /-- ZIPLO (R82): The low halves of A and B are interleaved. -/
  | ziplo (g : Fin 2048) (u : UStep)
  /-- ZIPHI (R82): The high halves of A and B are interleaved. -/
  | ziphi (g : Fin 2048) (u : UStep)
  /-- PERM (R82): The elements of A are permuted by indices from B. -/
  | perm (g : Fin 2048) (u : UStep)
  /-- LOAD (R172): The FU reads a tagged word from its pen memory. -/
  | load (g : Fin 2048) (u : UStep) (ecc : Ecc)
  /-- STORE (R172): The FU writes B into its pen memory. -/
  | store (g : Fin 2048) (u : UStep)
  /-- PUSH (R188): The FU pushes A into its bound trough, or is refused when the trough is full. -/
  | push (g : Fin 2048) (u : UStep)
  /-- POP (R188): The FU takes the word at the read pointer of its bound trough, or gets not-valid or is refused when empty. -/
  | pop (g : Fin 2048) (u : UStep) (ecc : Ecc)
  /-- MARK (R188): The trough's mark takes the read pointer. -/
  | mark (g : Fin 2048) (u : UStep)
  /-- REWIND (R188): The trough's read pointer returns to the mark. -/
  | rewind (g : Fin 2048) (u : UStep)
  /-- RELEASE (R188): The release pointer advances by IMM words or to the read pointer. -/
  | release (g : Fin 2048) (u : UStep)
  /-- PKT_OPEN (R188): A length slot is reserved and a trough packet is opened. -/
  | pktOpen (g : Fin 2048) (u : UStep)
  /-- PKT_CLOSE (R192): The length word is written and the trough packet is committed. -/
  | pktClose (g : Fin 2048) (u : UStep)
  /-- PKT_ABORT (R188): The open trough packet is rolled back. -/
  | pktAbort (g : Fin 2048) (u : UStep)
  /-- SETFL (R82): A is passed on with F and L set from IMM. -/
  | setfl (g : Fin 2048) (u : UStep)
  /-- SETEP (R82): A is passed on with EP set to IMM[3:0]. -/
  | setep (g : Fin 2048) (u : UStep)
  /-- CLRP (R87): A is passed on with its poison bit cleared. -/
  | clrp (g : Fin 2048) (u : UStep)
  /-- TSTV (R87): The result is true if A is valid. -/
  | tstv (g : Fin 2048) (u : UStep)
  /-- TSTF (R87): The result is true if A is valid with F = 1. -/
  | tstf (g : Fin 2048) (u : UStep)
  /-- TSTL (R87): The result is true if A is valid with L = 1. -/
  | tstl (g : Fin 2048) (u : UStep)
  /-- TSTP (R87): The result is true if A is valid with P = 1. -/
  | tstp (g : Fin 2048) (u : UStep)
  /-- SIGNAL (R88): The step raises SIGNAL line IMM[5:0] of its yard in the next cycle if A is valid. -/
  | signal (g : Fin 2048) (u : UStep)
  /-- BFLY2 (R76): The FU forms a radix-2 butterfly A + B and A - B. -/
  | bfly2 (g : Fin 2048) (u : UStep)
  /-- BFLY4 (R91): The FU forms a radix-4 butterfly of four samples. -/
  | bfly4 (g : Fin 2048) (u : UStep)
  /-- TWMUL (R90): Samples of A are multiplied by entries of the pen twiddle table. -/
  | twmul (g : Fin 2048) (u : UStep)
  /-- UNDEFINED_OPCODE (R13): A reserved FMT, undefined or factory-test opcode reached by diagnostic write executes as a NOP writing not-valid and sets ERR.UNDEF. -/
  | undefinedOpcode (g : Fin 2048) (opc : BitVec 8) (u : UStep)
  /-- RESULT_LAND (R60): A result issued L cycles earlier lands in its destination, OUT port or trough position. -/
  | resultLand (g : Fin 2048)
  /-- YARD_CROSSING_DELIVERY (R108): A word taken by a yard crossing is presented at its fixed delivery edge of the receiving yard. -/
  | yardCrossingDelivery (g : Fin 2048) (t : Fin 12) (late : Bool)
  /-- YARD_DIVIDE_WRITE (R110): A write of YP_CTL.DIV requests a new divide for the yard, refused if it breaks the neighbour limits. -/
  | yardDivideWrite (y : Fin 16) (div : BitVec 2)
  /-- DIVIDE_CHANGE (R110): The new divide takes effect at the first index multiple of 4 after the write and crossings deliver under the new row. -/
  | divideChange (y : Fin 16)
  /-- BROADCAST_SWITCH (R127): In switch cycle D every FU of the pen abandons its round and takes the new context. -/
  | broadcastSwitch (n : Fin 128)
  /-- NOVICT_RETRY (R123): When no bank was eligible at D, the victim choice is made again at D + 5 and NOVICT is set. -/
  | novictRetry (n : Fin 128)
  /-- CONTEXT_RESTORE_COMPLETE (R131): Writeback, turnaround and restore of a non-resident switch end and step 0 of the incoming context issues. -/
  | contextRestoreComplete (n : Fin 128) (bad : List Nat)
  /-- EPOCH_SWITCH (R135): A valid word with a new permitted EP on the lead port switches the FU to that context in the same cycle. -/
  | epochSwitch (g : Fin 2048)
  /-- PEN_CTXLOAD (R124): Writing PEN_CTXLOAD with GO = 1 starts making a context resident without running it. -/
  | penCtxload (n : Fin 128) (ctx : BitVec 4)
  /-- CONTEXT_LOAD_DONE (R124): A context load finishes writeback and restore and sets DONE. -/
  | contextLoadDone (n : Fin 128) (bad : List Nat)
  /-- PEN_CTXKIND_WRITE (R145): A diagnostic write to PEN_CTXKIND takes effect field by field for parked contexts only. -/
  | penCtxkindWrite (n : Fin 128) (v : BitVec 64)
  /-- SCHEDULER_EVALUATION (R155): At an edge of its yard the scheduler processes retirements, completions, triggers and dispatch in order. -/
  | schedulerEvaluation (y : Fin 16)
  /-- GROUP_DISPATCH (R161): The coordinator dispatches a group in every member yard at once when every member could be dispatched. -/
  | groupDispatch (gr : Fin 16)
  /-- TASK_RETIRE (R151): A write to word 0 that clears only VALID retires the task at the next evaluation, or at once while EN = 0. -/
  | taskRetire (y : Fin 16) (t : Fin 64)
  /-- TASK_ENTRY_WRITE (R151): A write to a task entry takes effect only while EN = 0 or the entry is IDLE, else sets WRBUSY. -/
  | taskEntryWrite (y : Fin 16) (t : Fin 64) (word1 : Bool) (v : BitVec 64)
  /-- PRELOAD (R159): In the cycle after a dispatched task's step 0 first issues, each pen starts a load of PRELD. -/
  | preload (n : Fin 128)
  /-- SYNC (R164): When CRD_TICK[28:0] reaches 0 a SYNC record is written into every enabled ring. -/
  | sync
  /-- SCH_TRRD_WRITE (R167): The reader advances SCH_TRRD, and a write that would exceed the ring size is discarded and sets TRERR. -/
  | schTrrdWrite (y : Fin 16) (v : BitVec 32)
  /-- SCH_DBELL (R168): Writing 1 to bit i of SCH_DBELL raises event 0xF0 + i. -/
  | schDbell (y : Fin 16) (bits : BitVec 8)
  /-- CRD_LATCH (R169): Writing CRD_LATCH copies CRD_TICK and the time counter in one cycle. -/
  | crdLatch
  /-- TROUGH_BUFFER_TRANSFER (R175): A trough refills its head buffer or drains its tail buffer when a bank port is granted. -/
  | troughBufferTransfer (n : Fin 128) (k : Fin 8) (drain : Bool)
  /-- DMA_PORT_SERVICE (R176): The pen DMA port starts the request at the head of a queue once its bank port or trough room is available. -/
  | dmaPortService (mem : Fin 144) (eccs : List Ecc)
  /-- STARVATION (R180): The starvation monitor reaches 2^20 cycles without a grant, sets STARVED and raises MEM_STARVE. -/
  | starvation (mem : Fin 144)
  /-- STREAMER_TRANSFER (R178): A streamer moves one word between the loft and its trough when both sides allow. -/
  | streamerTransfer (n : Fin 128) (st : Fin 2) (ecc : Ecc)
  /-- STREAMER_ENABLE (R205): Setting PS_CTL.EN from 0 to 1 sets i to 0 and starts the streamer, or sets NOSIDE. -/
  | streamerEnable (n : Fin 128) (st : Fin 2)
  /-- FORWARDER_SEND (R185): The forwarder pops readable words and sends them as network pushes to the remote trough. -/
  | forwarderSend (n : Fin 128) (k : Fin 8) (ecc : Ecc)
  /-- FORWARDER_RELEASE (R185): Words the remote trough accepted are released from the next cycle. -/
  | forwarderRelease (n : Fin 128) (k : Fin 8) (count : Nat)
  /-- TRG_HWM_READ (R186): A read of TRG_HWM returns the largest occupied count and restarts the register. -/
  | trgHwmRead (n : Fin 128) (k : Fin 8)
  /-- TRG_CFG_WRITE (R203): A write of TRG_CFG is applied, restricted while enabled, with pointers reset on enabling. -/
  | trgCfgWrite (n : Fin 128) (k : Fin 8) (v : BitVec 64)
  /-- FLUSH (R188): Writing TRG_CMD.FLUSH rolls back an open packet and sets all pointers to the write pointer. -/
  | flush (n : Fin 128) (k : Fin 8)
  /-- MUCK_OUT_SEGMENT_START (R196): After PACE µs the engine takes its next segment into the save buffer. -/
  | muckOutSegmentStart (y : Fin 16) (saved : List Ecc)
  /-- MUCK_OUT_SEGMENT_COMPLETE (R199): The segment's test ends and its words are written back with findings applied. -/
  | muckOutSegmentComplete (y : Fin 16) (badRows : List Nat)
  /-- LEDGER_WRITE (R422): Firmware erases the older ledger slot and writes pages ending with a commit page. -/
  | ledgerWrite (cut : Option (Fin 257))
  /-- DRAM_CONFIG_CHECK (R208): At START-UP firmware checks the channels and training result and disables DRAM with DRAM_CONFIG when unsupported. -/
  | dramConfigCheck (chans : List DramChan)
  /-- DRAM_LINE_ACCESS (R211): A memory controller reads or writes a line, correcting up to two bytes or returning poisoned words. -/
  | dramLineAccess (line : BitVec 30) (wr : Option LineWrite) (err : List (Fin 32 × Fin 16))
  /-- DRAM_REFRESH (R215): A per-bank refresh command falls due at the channel's refresh interval. -/
  | dramRefresh (c : Fin 4)
  /-- MR4_READ (R215): Every 16 ms the controller reads mode register 4 of every die and classes the temperature. -/
  | mr4Read (c : Fin 4) (readings : List (BitVec 8))
  /-- HOTPOL_APPLY (R217): Firmware applies THROTTLE or STOP to the hot channel within 100 µs. -/
  | hotpolApply (c : Fin 4)
  /-- TRAINING_PAUSE_DUE (R219): The interval I since the last pause expires and a training pause falls due. -/
  | trainingPauseDue (c : Fin 4)
  /-- TRAINING_PAUSE_START (R220): A due pause starts, at once or in the cycle after the aligned gate strobe. -/
  | trainingPauseStart (c : Fin 4)
  /-- GRACE_EXPIRY (R220): No strobe came within GRACE, so the pause starts unaligned and DRAM_TRAIN_UNALIGNED is raised. -/
  | graceExpiry (c : Fin 4)
  /-- TRAINING_PAUSE_END (R219): A pause ends, delays are moved and the interval I adapts to the measured drift. -/
  | trainingPauseEnd (c : Fin 4) (drift : BitVec 8)
  /-- TRANSLATION_WALK (R221): The translation unit completes a walk of at most two entries and forwards the translated request. -/
  | translationWalk (va : BitVec 40) (wr : Bool) (src : Fin 40) (len : Nat) (eccs : List Ecc)
  /-- TU_INV (R224): Writing TU_INV.GO = 1 starts emptying the translation cache. -/
  | tuInv
  /-- INVALIDATION_COMPLETE (R224): The cache is empty and TU_INV.BUSY returns to 0. -/
  | invalidationComplete
  /-- NOC_REQUEST_SEND (R234): A requester sends a request once it holds credits at DST and response buffers. -/
  | nocRequestSend (op : BitVec 4) (f : Flit)
  /-- READ (R230): A READ request arrives at its destination and is served with RDATA. -/
  | read (f : Flit) (pass : Passage) (eccs : List Ecc)
  /-- WRITE (R230): A WRITE request arrives at its destination and is acknowledged. -/
  | write (f : Flit) (pass : Passage) (eccs : List Ecc)
  /-- WRMASK (R230): A masked byte write request arrives and is acknowledged. -/
  | wrmask (f : Flit) (pass : Passage) (eccs : List Ecc)
  /-- NOC_PUSH (R230): A network PUSH to a trough arrives and is acknowledged or waits for room. -/
  | nocPush (f : Flit) (pass : Passage)
  /-- PULL (R230): A network PULL takes readable words and releases them, or waits, or returns not-valid. -/
  | pull (f : Flit) (pass : Passage)
  /-- NOC_PKT_OPEN (R230): A network PKT_OPEN arrives at a trough. -/
  | nocPktOpen (f : Flit) (pass : Passage)
  /-- NOC_PKT_CLOSE (R192): A network PKT_CLOSE with its carried length word commits the packet. -/
  | nocPktClose (f : Flit) (pass : Passage)
  /-- NOC_PKT_ABORT (R230): A network PKT_ABORT rolls back the open packet. -/
  | nocPktAbort (f : Flit) (pass : Passage)
  /-- REGRD (R230): A register read request arrives at an endpoint. -/
  | regrd (f : Flit) (pass : Passage)
  /-- REGWR (R230): A register write request arrives at an endpoint. -/
  | regwr (f : Flit) (pass : Passage)
  /-- RDBLK (R230): A block read request arrives and is answered one RDATA per flit. -/
  | rdblk (f : Flit) (pass : Passage) (eccs : List Ecc)
  /-- WRBLK (R230): A block write request arrives and is acknowledged. -/
  | wrblk (f : Flit) (pass : Passage) (eccs : List Ecc)
  /-- RDATA (R239): A data response arrives at its requester, which checks its CRC and may request it again. -/
  | rdata (r : Fin 40) (rb : BitVec 5) (pass : Passage)
  /-- ACK (R239): An acknowledgement arrives and frees the requester's buffer and credit. -/
  | ack (r : Fin 40) (rb : BitVec 5) (pass : Passage)
  /-- NACK (R238): A NACK arrives and the requester resends the flit and later ones in order. -/
  | nack (r : Fin 40) (rb : BitVec 5) (pass : Passage)
  /-- YARD_WAKE_COMPLETE (R405): A yard's wake completes, its clock restarts, crossings reopen and waiting requests are served. -/
  | yardWakeComplete (y : Fin 16)
  /-- IDLE (R248): An IDLE chain packet arrives, reporting whether the neighbour is FROZEN. -/
  | idle (port : Fin 2) (p : Pkt) (crcOk : Bool)
  /-- REQ (R263): A chain REQ arrives and is issued on the NoC or passed through. -/
  | req (port : Fin 2) (p : Pkt) (crcOk : Bool) (cmd : Option FwdCmd)
  /-- RSP (R263): A chain RSP arrives and is delivered to its response buffer, or discarded if late. -/
  | rsp (port : Fin 2) (p : Pkt) (crcOk : Bool) (ans : Option FwdAns)
  /-- CHAIN_EVENT (R266): A chain EVENT arrives and named yards raise event line 0xFC + k. -/
  | chainEvent (port : Fin 2) (p : Pkt) (crcOk : Bool)
  /-- CHAIN_FREEZE (R267): A FREEZE chain packet arrives, freezing at once or arming a timed freeze, or requesting a resume. -/
  | chainFreeze (port : Fin 2) (p : Pkt) (crcOk : Bool) (low : Bool)
  /-- ROLL (R256): A ROLL packet arrives and the device takes the next address and forwards ROLL or sends ROLL_END. -/
  | roll (port : Fin 2) (p : Pkt) (crcOk : Bool)
  /-- ROLL_END (R257): ROLL_END reaches device 0, which completes roll call and records the count. -/
  | rollEnd (port : Fin 2) (p : Pkt) (crcOk : Bool)
  /-- HB (R269): A heartbeat arrives and is relayed and answered with HB_ACK. -/
  | hb (port : Fin 2) (p : Pkt) (crcOk : Bool)
  /-- HB_ACK (R268): A heartbeat acknowledgement reaches device 0 with the sender's state and firmware-ready bit. -/
  | hbAck (port : Fin 2) (p : Pkt) (crcOk : Bool)
  /-- DM (R270): A delay-measurement packet arrives; a reply lets the device compute offset and steer or step its counter. -/
  | dm (port : Fin 2) (p : Pkt) (crcOk : Bool) (t1 t2 t3 t4 : Int)
  /-- LINK (R259): A LINK packet arrives and updates CH_DIR and CH_REACH. -/
  | link (port : Fin 2) (p : Pkt) (crcOk : Bool)
  /-- CREDIT (R250): A CREDIT packet arrives and returns link credits. -/
  | credit (port : Fin 2) (p : Pkt) (crcOk : Bool)
  /-- NAK (R249): A NAK arrives and the sender resends from the named SEQ, taking the link down after 8 resends. -/
  | nak (port : Fin 2) (p : Pkt) (crcOk : Bool)
  /-- CHAIN_ALARM (R442): An ALARM summary reaches device 0, which logs a record and may send the class vector. -/
  | chainAlarm (port : Fin 2) (p : Pkt) (crcOk : Bool)
  /-- FW (R279): FW packets carry firmware bytes that listening devices store, relay and then authenticate. -/
  | fw (port : Fin 2) (p : Pkt) (crcOk : Bool) (check : Option FwCheck)
  /-- LINK_DOWN (R252): A lane loses block lock for 1 µs, or retries run out, and the lead link goes down. -/
  | linkDown (port : Fin 2)
  /-- LINK_UP (R252): A lead link finishes retraining and comes up. -/
  | linkUp (port : Fin 2)
  /-- LK_RETRAIN (R281): Writing LK_CTL.RETRAIN takes the link down and retrains it. -/
  | lkRetrain (port : Fin 2)
  /-- HEARTBEAT_SEND (R268): Every 100 µs device 0 sends HB and counts devices that missed three HB_ACKs. -/
  | heartbeatSend
  /-- HEARTBEAT_MISS (R269): The heartbeat watch counts a miss, and the third miss puts the device in ISOLATED. -/
  | heartbeatMiss
  /-- DM_EXCHANGE (R270): Every 1 ms a device sends a DM request to its upstream neighbour. -/
  | dmExchange (txPs : Int)
  /-- CHAIN_TIMEOUT (R264): An outstanding chain request reaches CH_TMO and completes FAULT. -/
  | chainTimeout (id : BitVec 8)
  /-- MUTE_HOLD (R276): HOLD ms after entering ISOLATED under CONTINUE-THEN-MUTE, transmit is muted. -/
  | muteHold
  /-- CH_EVSEND (R266): Writing CH_EVSEND.GO sends EVENT k to the target. -/
  | chEvsend (v : BitVec 64)
  /-- CHAIN_READY (R280): Device 0 reports chain-ready when every counted device reports firmware-ready. -/
  | chainReady
  /-- CHAIN_DEVICE_LATE (R280): A device not ready 250 ms after roll call is reported absent and the alarm is raised. -/
  | chainDeviceLate
  /-- SYSREF_EDGE (R287): A SYSREF rising edge is timestamped, aligns armed directions and is checked in continuous mode. -/
  | sysrefEdge
  /-- JL_ARM (R287): Writing ARM makes a direction take the next SYSREF edge. -/
  | jlArm (j : Fin 4) (tx : Bool)
  /-- JESD_DIRECTION_RESET (R306): Writing RXRST or TXRST re-establishes the direction. -/
  | jesdDirectionReset (j : Fin 4) (tx : Bool)
  /-- JESD_LINK_ESTABLISHED (R288): All lanes reach lock and the direction releases data. -/
  | jesdLinkEstablished (j : Fin 4) (tx : Bool) (ilasOk : Bool)
  /-- JESD_LANE_LOSS (R289): A lane loses lock or a 204B resynchronisation is requested and the direction goes down. -/
  | jesdLaneLoss (j : Fin 4) (tx : Bool) (lane : Fin 8)
  /-- JESD_BOUNDARY (R291): A receive or transmit boundary falls and raises its event. -/
  | jesdBoundary (j : Fin 4) (tx : Bool)
  /-- JESD_RX_DATA (R292): Received samples are mapped into tagged words and pushed to the receive trough. -/
  | jesdRxData (j : Fin 4) (samples : List (BitVec 32 × BitVec 32)) (badLanes : BitVec 8)
  /-- JESD_TX_PULL (R294): The transmit direction pulls words into its prefetch buffer when it has room. -/
  | jesdTxPull (j : Fin 4)
  /-- JESD_TX_SAMPLE (R294): In each sample slot the next word is sent, or zeros for gap, poison, alignment, mute or blank. -/
  | jesdTxSample (j : Fin 4)
  /-- ETH_FRAME_RECEIVE (R298): A received frame is checked and classified and its eCPRI payload committed or aborted as a trough packet. -/
  | ethFrameReceive (m : Fin 4) (sp : Fin 4) (fr : RxFrame)
  /-- ETH_FRAME_TRANSMIT (R300): The highest eligible class sends a frame built from its committed trough packet. -/
  | ethFrameTransmit (m : Fin 4) (sp : Fin 4) (parityBad : Bool) (eccs : List Ecc)
  /-- SHAPER_REFILL_TICK (R303): At each refill tick each class bucket gains RATE up to its burst. -/
  | shaperRefillTick
  /-- FORGIVE (R303): Writing FORGIVE sets a negative bucket to 0. -/
  | forgive (m : Fin 4) (sp : Fin 4) (c : Fin 8)
  /-- ETH_TSLO_READ (R307): A read of ETH_TSLO pops the oldest timestamp FIFO entry. -/
  | ethTsloRead (m : Fin 4) (sp : Fin 4)
  /-- RCLK_SQUELCH (R305): Loss of signal or lock on the recovered lane holds RCLK_OUT low and sets SQ. -/
  | rclkSquelch
  /-- RCLK_RESUME (R305): 10 ms after lock returns the recovered clock resumes. -/
  | rclkResume
  /-- ECPRI_DELAY_RESPONSE (R314): Firmware answers an eCPRI type 5 request with Response and Follow_Up within 1 ms. -/
  | ecpriDelayResponse (m : Fin 4) (sp : Fin 4) (req : List (BitVec 8)) (secs : BitVec 48) (ns : BitVec 32)
  /-- TIMING_RING_RECORD (R313): Firmware writes a timing ring record for a PTP frame, type 5 message or popped timestamp. -/
  | timingRingRecord (m : Fin 4) (sp : Fin 4) (rec : RingRec)
  /-- TB_INC_WRITE (R310): A write of TB_INC sets the increment from the next cycle, or is discarded if out of range or chain-owned. -/
  | tbIncWrite (v : BitVec 64)
  /-- TB_STEP (R310): Writing TB_STEP.GO adds OFS nanoseconds to the counter. -/
  | tbStep (v : BitVec 64)
  /-- TB_SET (R310): Writing TB_SET1.GO loads the counter with a new time. -/
  | tbSet (v : BitVec 64)
  /-- TB_TIME0_READ (R309): A read of TB_TIME0 returns FRAC and NS and latches SEC of the same cycle. -/
  | tbTime0Read
  /-- HOLDOVER_UPDATE (R312): Every 1 ms the holdover term h is recomputed from temperature and ageing. -/
  | holdoverUpdate (die : BitVec 13)
  /-- TIME_CAPTURE (R315): A selected edge on the capture pad copies the interpolated counter into TB_CAP. -/
  | timeCapture (falling : Bool) (half : Bool)
  /-- PPS_RISE (R316): The PPS pad rises at the first slot at or after NS = 0. -/
  | ppsRise
  /-- PPS_FALL (R316): The PPS pad falls WIDTH µs after its rise. -/
  | ppsFall
  /-- GS_CTL_COMMIT (R319): A write of GS_CTL commits the staged start, stop and period of an entry, or is refused. -/
  | gsCtlCommit (i : Fin 64) (v : BitVec 64)
  /-- GATE_START (R320): An armed entry's start time is reached: the start strobe and window open. -/
  | gateStart (i : Fin 64)
  /-- GATE_STOP (R320): The stop time is reached: the window closes, the stop strobe fires and the next occurrence is set. -/
  | gateStop (i : Fin 64)
  /-- FABRIC_EVENT_WIRE (R335): A fabric event wire rising raises event 0xE0 + k of its yard. -/
  | fabricEventWire (y : Fin 16) (k : Fin 16)
  /-- FABRIC_CHAIN_EVENT_WIRE (R335): A fabric chain event wire rising sends chain EVENT k. -/
  | fabricChainEventWire (k : Fin 4)
  /-- FIO_BANK_LEVEL_CHANGE (R337): A write of V33 changes the bank level, or sets VLOW when VIN is too low. -/
  | fioBankLevelChange (b : Fin 4) (v33 : Bool) (mv : BitVec 16)
  /-- FIO_BANK_LOW (R337): VIN falls below 3.55 V with a bank at 3.3 V and the bank turns off. -/
  | fioBankLow (b : Fin 4)
  /-- FCLAIM (R344): A write of FCLAIM = 1 claims the pad for the fabric under the owner table. -/
  | fclaim (p : Fin 64) (claim : Bool)
  /-- RESOURCE_RELEASE (R479): A holder releases a resource and it passes to the highest standing claim. -/
  | resourceRelease (p : Fin 64)
  /-- CAP_ARM (R340): Writing CAP_CTL.ARM arms one capture. -/
  | capArm (mode : BitVec 2)
  /-- CAP_CANCEL (R340): Writing CAP_CTL.CANCEL disarms the capture. -/
  | capCancel
  /-- CAPTURE (R341): At the capture edge every shadow register takes its value and SEQ advances. -/
  | capture
  /-- PERST_N (R347): PERST_N resets the endpoint, BAR0, apertures and mailboxes. -/
  | perstN (level : Bool)
  /-- FUNCTION_LEVEL_RESET (R347): A Function Level Reset resets the endpoint, BAR0, apertures and mailboxes. -/
  | functionLevelReset
  /-- MAILBOX_REQUEST_WRITE (R352): A write to a slot is accepted while FREE, else discarded with MBWR. -/
  | mailboxRequestWrite (off : BitVec 14) (bytes : List (BitVec 8))
  /-- HI_DBELL (R351): Writing a doorbell bit posts its FREE slot, else sets DBERR. -/
  | hiDbell (v : BitVec 64)
  /-- SLOT_TAKEN (R353): Firmware takes a POSTED slot and checks the command in order. -/
  | slotTaken (sl : Fin 48) (uce : Bool)
  /-- FORWARD_TIMEOUT (R359): A forwarded command with no answer in 100 ms completes NO_TARGET. -/
  | forwardTimeout (sl : Fin 48)
  /-- LONG_COMMAND_COMPLETE (R351): A RUNNING long command ends and its slot becomes DONE with the final status. -/
  | longCommandComplete (sl : Fin 48) (hwFault : Bool)
  /-- PROGRESS_UPDATE (R357): While RUNNING, PROGRESS, POSITION and TOTAL are updated at least every 10 ms. -/
  | progressUpdate (sl : Fin 48) (pos : BitVec 64) (total : BitVec 64)
  /-- HI_DONE_CLEAR (R351): Writing 1 to a DONE slot's HI_DONE bit frees the slot. -/
  | hiDoneClear (v : BitVec 64)
  /-- HI_ABORT (R356): Writing HI_ABORT asks for a slot to be aborted. -/
  | hiAbort (v : BitVec 64)
  /-- MSIX_HOLD_EXPIRY (R349): A vector's 100 µs interval ends and a held cause sends its message. -/
  | msixHoldExpiry (v : Fin 64)
  /-- DEV_INFO (R366): The command returns identity, versions, state and DRAM size. -/
  | devInfo (sl : Fin 48)
  /-- HEALTH (R366): The command returns supply, power, temperatures and active alarms. -/
  | health (sl : Fin 48)
  /-- DOMAIN_RESET (R462): The command resets one domain while the rest of the device runs. -/
  | domainReset (sl : Fin 48)
  /-- DOMAIN_RESET_END (R463): The domain's reset ends, clearing its counts and status, and it requests reopening. -/
  | domainResetEnd
  /-- CROSSING_REOPEN (R466): A quarantined crossing reopens by handshake at an edge multiple of 4. -/
  | crossingReopen (code : BitVec 8) (discard : Nat)
  /-- STATE_SET (R467): The command enters TEST or returns to RUN when permitted. -/
  | stateSet (sl : Fin 48)
  /-- CHAIN_INFO (R366): The command returns CH_ID, CH_REACH, CH_DIR and CH_PART. -/
  | chainInfo (sl : Fin 48)
  /-- ROLL_CALL (R256): The command runs roll call from device 0. -/
  | rollCall (sl : Fin 48)
  /-- PART_POLICY (R276): The command sets the partition policy and hold time. -/
  | partPolicy (sl : Fin 48)
  /-- RESUME (R277): The command returns an ISOLATED device to RUN and lifts the mute. -/
  | resume (sl : Fin 48)
  /-- CHAIN_POOL (R262): The command sets the chain credit pools of each source device. -/
  | chainPool (sl : Fin 48)
  /-- LINK_RETRAIN (R366): The command retrains the LU or LD link. -/
  | linkRetrain (sl : Fin 48)
  /-- CHAIN_HEALTH (R366): The command returns each device's state, readiness and time lock. -/
  | chainHealth (sl : Fin 48)
  /-- IMAGE_LOAD (R383): The command stages an image, checks it and applies it in the mode given. -/
  | imageLoad (sl : Fin 48) (stageOk : Bool) (remote : List (BitVec 8))
  /-- IMAGE_CHECK (R382): The staged image is checked in order and rejected at the first failure with IMAGE_REJECT. -/
  | imageCheck (sl : Fin 48)
  /-- IMAGE_APPLICATION (R383): A checked image is applied under write locks in the fixed order. -/
  | imageApplication (sl : Fin 48) (fails : Option (Fin 3))
  /-- IMAGE_VERIFY (R387): The command recomputes readback digests and reports the first differing chunk. -/
  | imageVerify (sl : Fin 48)
  /-- KEY_OWNER (R373): The command programs an owner key hash into a fuse slot. -/
  | keyOwner (sl : Fin 48) (blowOk : Bool)
  /-- KEY_REVOKE (R374): The command blows a revocation bit. -/
  | keyRevoke (sl : Fin 48) (blowOk : Bool)
  /-- KEY_AES (R373): The command programs the owner AES key. -/
  | keyAes (sl : Fin 48) (blowOk : Bool)
  /-- KEY_STATUS (R366): The command returns which keys are present and the revocation bits. -/
  | keyStatus (sl : Fin 48)
  /-- FW_STORE (R386): The command authenticates MP firmware and writes it to the inactive flash copy. -/
  | fwStore (sl : Fin 48) (stageOk : Bool) (remote : List (BitVec 8))
  /-- FUNC_STOP (R363): The command stops a function by clearing its enables. -/
  | funcStop (sl : Fin 48)
  /-- FUNC_CONFIG (R365): The command checks and applies masked register records to a function, all or none. -/
  | funcConfig (sl : Fin 48)
  /-- FUNC_START (R363): The command restores a function's enables and starts it. -/
  | funcStart (sl : Fin 48)
  /-- FUNC_STATUS (R363): The command returns a function's state and stop cause. -/
  | funcStatus (sl : Fin 48)
  /-- CTX_LOAD (R124): The command loads a context into a pen. -/
  | ctxLoad (sl : Fin 48)
  /-- CTX_STATUS (R366): The command returns a pen's context registers. -/
  | ctxStatus (sl : Fin 48)
  /-- TASK_SET (R366): The command writes a task entry of a stopped scheduler. -/
  | taskSet (sl : Fin 48)
  /-- TASK_STATE (R366): The command returns task and pen states of a yard. -/
  | taskState (sl : Fin 48)
  /-- SCH_DOORBELL (R366): The command writes SCH_DBELL of one or all yards. -/
  | schDoorbell (sl : Fin 48)
  /-- EV_TO_HOST (R366): The command assigns a scheduler event as source of a host vector. -/
  | evToHost (sl : Fin 48)
  /-- EV_HOST_CLR (R366): The command removes the source of a host vector. -/
  | evHostClr (sl : Fin 48)
  /-- HOST_EVENT_VECTOR (R349): An occurrence of an assigned scheduler event sends its host vector. -/
  | hostEventVector (v : Fin 64)
  /-- PORT_STATUS (R366): The command returns a port's status and counters. -/
  | portStatus (sl : Fin 48)
  /-- PORT_CNTCLR (R366): The command clears a port's counters. -/
  | portCntclr (sl : Fin 48)
  /-- SHAPER_SET (R303): The command sets rate, burst or forgive of a class as a live setting. -/
  | shaperSet (sl : Fin 48)
  /-- SYSREF_ARM (R287): The command writes ARM for the named link directions. -/
  | sysrefArm (sl : Fin 48)
  /-- TIME_GET (R309): The command returns time and CRD_TICK latched in one cycle. -/
  | timeGet (sl : Fin 48)
  /-- TIME_STEER (R310): The command sets the increment, steps or sets the time counter. -/
  | timeSteer (sl : Fin 48)
  /-- HOLDOVER_SET (R312): The command writes the whole holdover set between two updates. -/
  | holdoverSet (sl : Fin 48)
  /-- GATE_SET (R319): The command writes and commits one gate-schedule entry. -/
  | gateSet (sl : Fin 48)
  /-- GATE_GET (R366): The command returns the occurrence in force and GS_STAT of an entry. -/
  | gateGet (sl : Fin 48)
  /-- PTP_ASSIST (R313): The command enables or disables PTP assist on a sub-port with its timing ring. -/
  | ptpAssist (sl : Fin 48)
  /-- MUCK_SET (R366): The command sets MO_CTL.EN and PACE. -/
  | muckSet (sl : Fin 48)
  /-- MEM_TEST (R202): The command runs one muck-out pass at PACE 0 in TEST. -/
  | memTest (sl : Fin 48)
  /-- MEM_STATUS (R366): The command returns muck-out status and findings. -/
  | memStatus (sl : Fin 48)
  /-- REPAIR_READ (R366): The command returns a bank's repair record. -/
  | repairRead (sl : Fin 48)
  /-- TROUGH_READ (R186): The command returns a trough's registers and restarts TRG_HWM. -/
  | troughRead (sl : Fin 48)
  /-- YARD_VOLT (R407): The command sets a yard voltage and floor within the neighbour limits. -/
  | yardVolt (sl : Fin 48)
  /-- YARD_MODE (R407): The command sets a yard's power mode and divide. -/
  | yardMode (sl : Fin 48)
  /-- DRAM_POLICY (R217): The command sets HOTPOL of all channels. -/
  | dramPolicy (sl : Fin 48)
  /-- AGE_REPORT (R421): The command returns life consumed, projected life and yard plans. -/
  | ageReport (sl : Fin 48)
  /-- REPLAN (R415): The command re-plans the yards in its mask. -/
  | replan (sl : Fin 48)
  /-- CLOCK_STATUS (R366): The command returns reference loss, hold and dead-source status. -/
  | clockStatus (sl : Fin 48)
  /-- CAPTURE_ARM (R340): The command arms a capture. -/
  | captureArm (sl : Fin 48)
  /-- FREEZE (R267): The command sends a FREEZE chain message at once or for a time. -/
  | freeze (sl : Fin 48)
  /-- PROBE_SET (R242): The command sets one NoC probe filter. -/
  | probeSet (sl : Fin 48)
  /-- TRACE_SET (R366): The command sets a yard's trace ring. -/
  | traceSet (sl : Fin 48)
  /-- ALARM_READ (R440): The command returns alarm-table entries. -/
  | alarmRead (sl : Fin 48)
  /-- LOG_READ (R436): The command returns event-log records or a kept first record. -/
  | logRead (sl : Fin 48)
  /-- ALARM_CLEAR (R440): The command clears the count and first record of a code or all codes. -/
  | alarmClear (sl : Fin 48)
  /-- FREEZE_READOUT (R447): The readout engine fills the shadow pages with the frozen state. -/
  | freezeReadout (sl : Fin 48)
  /-- FREEZE_RESUME (R449): The readout engine resumes the frozen device. -/
  | freezeResume (sl : Fin 48) (low : Bool)
  /-- REG_READ (R366): The command returns consecutive registers. -/
  | regRead (sl : Fin 48)
  /-- REG_WRITE (R366): The command applies masked diagnostic register writes in order. -/
  | regWrite (sl : Fin 48)
  /-- REFCLK_LOST (R394): The missing-pulse detector declares the reference lost and every PLL holds. -/
  | refclkLost
  /-- DEAD_SOURCE_SWITCH (R398): A multiplexer whose old clock shows no edge for 8 cycles switches at once. -/
  | deadSourceSwitch (mux : BitVec 5)
  /-- REFCLK_PRESENT (R396): After 1 ms of edges the reference is declared present and relock may start. -/
  | refclkPresent
  /-- RELOCK (R396): Writing CLK_CTL.RELOCK starts a relock if the reference is present. -/
  | relock
  /-- RELOCK_COMPLETE (R396): The PLLs relock, hold bits clear and the witness returns to REFCLK. -/
  | relockComplete
  /-- PLL_UNLOCK (R397): A root or DRAM PLL loses lock with the reference present, raising a FATAL alarm. -/
  | pllUnlock (dram : Bool)
  /-- RAIL_FAULT (R400): A rail out of range or a regulator at current limit for 1 µs raises a FATAL alarm. -/
  | railFault (rail : Fin 25) (ocp : Bool)
  /-- VIN_LOW (R401): VIN below 2.7 V for 10 µs sets VINLOW and raises its alarm. -/
  | vinLow (mv : BitVec 16)
  /-- VIN_HIGH (R401): VIN above 5.5 V for 10 µs sets VINHIGH and raises its alarm. -/
  | vinHigh (mv : BitVec 16)
  /-- YP_VOLT_WRITE (R402): A change of YP_VOLT.CODE starts a rail slew, or is refused beyond neighbour limits. -/
  | ypVoltWrite (y : Fin 16) (code : BitVec 8)
  /-- RAIL_SLEW_COMPLETE (R402): A yard rail reaches its target code. -/
  | railSlewComplete (y : Fin 16)
  /-- YARD_POWER_DOWN_REQUEST (R404): A MODE write of SLEEP or DEEP-SLEEP requests a power-down, which waits until ready. -/
  | yardPowerDownRequest (y : Fin 16) (deep : Bool)
  /-- YARD_CLOCK_STOP (R404): The yard clock stops, crossings close and the yard reaches SLEEP or begins retention. -/
  | yardClockStop (y : Fin 16)
  /-- RAIL_RETENTION (R404): The DEEP-SLEEP rail settles at 0.55 V. -/
  | railRetention (y : Fin 16)
  /-- YARD_WAKE_REQUEST (R405): A MODE write of RUN starts a wake. -/
  | yardWakeRequest (y : Fin 16)
  /-- YARD_TEMP_SPREAD (R408): Two neighbours in RUN differ by more than 25 °C and the alarm is raised. -/
  | yardTempSpread (a : Fin 16) (b : Fin 16) (ta : BitVec 13) (tb : BitVec 13)
  /-- WINGO (R412): Writing WINGO starts a 1 ms slack window. -/
  | wingo (y : Fin 16)
  /-- SLACK_WINDOW_END (R412): The slack window ends with its near-miss and transition counts. -/
  | slackWindowEnd (y : Fin 16) (near : BitVec 32) (trans : BitVec 32) (map : BitVec 32)
  /-- ROGO (R413): Writing ROGO starts a ring-oscillator measurement. -/
  | rogo (y : Fin 16)
  /-- RO_MEASUREMENT_END (R413): After 16,384 PCLK cycles the pair counts are available. -/
  | roMeasurementEnd (y : Fin 16) (counts : List (BitVec 32 × BitVec 32))
  /-- EM_UPDATE (R414): Every 10 s the electromigration monitor updates AG_EM.PPM. -/
  | emUpdate (y : Fin 16) (ppm : BitVec 32)
  /-- YARD_REPLAN (R416): Firmware re-plans a yard's voltage by slack windows, daily, on temperature move, command or start-up. -/
  | yardReplan (y : Fin 16) (why : ReplanWhy) (windows : List SlackWin)
  /-- RATE_REFERENCE (R421): Every 2,160 service hours firmware records life consumed as the rate reference. -/
  | rateReference (hours : BitVec 32)
  /-- FINDING_POST (R434): A hardware finding posts a record to the queue and increments its code's counter and latch. -/
  | findingPost (f : Finding)
  /-- RECORD_DRAIN (R434): Firmware drains a queued record into the log and raises its alarm. -/
  | recordDrain
  /-- FINDING_COUNTER_TRANSFER (R435): Firmware moves latched first records and adds finding counters into the alarm table. -/
  | findingCounterTransfer (code : BitVec 9)
  /-- ALARM_SUMMARY_SEND (R442): A device sends an ALARM summary to device 0 at first occurrence and at most every 10 ms after. -/
  | alarmSummarySend (code : BitVec 9)
  /-- FREEZE_N_FALL (R444): A falling edge of FREEZE_N requests a freeze. -/
  | freezeNFall
  /-- HI_FRZ_FREEZE (R444): Writing HI_FRZ.FRZ freezes the device at once. -/
  | hiFrzFreeze
  /-- HI_FRZ_RESUME (R449): Writing HI_FRZ.RESUME requests a resume. -/
  | hiFrzResume (low : Bool)
  /-- FREEZE_STOP (R444): Once DRAM is in self-refresh every state-advancing clock stops on one REFCLK edge and the device is FROZEN. -/
  | freezeStop
  /-- TARM (R446): Writing FR_CTL.TARM arms a timed freeze. -/
  | tarm
  /-- TCANCEL (R446): Writing FR_CTL.TCANCEL disarms the timed freeze. -/
  | tcancel
  /-- TIMED_FREEZE_START (R446): 1 µs before the freeze time, DRAM self-refresh entry starts. -/
  | timedFreezeStart
  /-- SELF_REFRESH_RETURN (R447): A controller out for readout returns to self-refresh 10 µs after its last read. -/
  | selfRefreshReturn (c : Fin 4)
  /-- FRZ_ADDR (R448): The TAP selects a local address for frozen readout. -/
  | frzAddr (a : BitVec 48)
  /-- FRZ_DATA (R448): The TAP loads 8 bytes at the address with status and advances the address. -/
  | frzData
  /-- TAP_RESUME (R448): FRZ_CTL written with 0b01 resumes the device. -/
  | tapResume (low : Bool)
  /-- TAP_READOUT (R448): FRZ_CTL written with 0b10 starts FREEZE_READOUT. -/
  | tapReadout
  /-- RESUME_COMPLETE (R449): After a training pause every stopped clock restarts on one edge and the device returns to its previous state. -/
  | resumeComplete (linksDropped : Bool) (drifts : List (BitVec 8))
  /-- POR (R456): VIN below 2.45 V for 2 µs asserts POR and turns everything off. -/
  | por
  /-- THERMAL_TRIP (R482): A yard sensor at 140 °C for 100 µs asserts POR. -/
  | thermalTrip
  /-- VIN_GOOD (R456): VIN stays at 2.60 V for 100 µs and the rails start in order. `hot`: a yard sensor still reads
  115 °C or more (R482). -/
  | vinGood (st : Straps) (mv : BitVec 16) (hot : Bool)
  /-- PLL_LOCK (R389): The root and DRAM PLLs lock and the MP runs the boot ROM. -/
  | pllLock
  /-- FIRMWARE_BOOT (R455): The boot ROM checks both firmware copies and starts the passing one with the higher SEQNO. -/
  | firmwareBoot (a b : Option FwCheck)
  /-- FIRMWARE_START (R457): Firmware reads the ledger, sets repairs, voltages, pools and twiddle tables, and trains the DRAM. -/
  | firmwareStart (chans : List DramChan) (differ : List (Fin 2))
  /-- FIRMWARE_READY (R457): Firmware releases the yards, sets FWRDY, sends vector 19 and starts roll call on device 0. -/
  | firmwareReady
  /-- RESET_N_ASSERT (R460): RESET_N held low resets the items of its column. -/
  | resetNAssert (taken : Bool)
  /-- RESET_N_RELEASE (R460): RESET_N rises and the device runs steps 2 to 6 of the power-on sequence. -/
  | resetNRelease (st : Straps)
  /-- RECOVERY_ACTION_END (R468): The recovery action ends and the device restarts its functions or stays in RECOVERY per AUTORUN. -/
  | recoveryActionEnd (present : Bool) (failed : List (BitVec 16))
  /-- FABRIC_CLOCK_EDGE (R327): At each active clock edge (FCLK, ACLK/4 or a CLKIN input) the tack-fabric macrocells update, registered segments and port-out wires advance, pad slots are serialised and deserialised, and trough taps and window wires are sampled. -/
  | fabricClockEdge (clk : FabClk) (pads : List (Nat × BitVec 8))
  /-- ETH_LINK_CHANGE (R307): An Ethernet sub-port's link comes up or goes down, updating ETH_PSTAT.LINK and setting LINKCHG. -/
  | ethLinkChange (m : Fin 4) (sp : Fin 4) (up : Bool)
  /-- MP_UCE (R428): MP SRAM returns an uncorrectable error, raising the FATAL alarm MP_UCE, restarting firmware and putting the device into RECOVERY, while correctable errors count in AL_STAT.MPCE. -/
  | mpUce (correctable : Bool)
deriving DecidableEq, Repr

end Sys2Proof
end

