-- ==== Sys2Proof/Config.lean ====
section
/-!
DEFINITION. What an implementation fixes and the values the spec leaves open. Each open value is an
opaque constant with no body, applied to the operands it depends on or to the free-value counter of
the state; nothing can be proved of its value.
-/

namespace Sys2Proof

/-- A tagged word whose value the spec leaves open (the time stamps' layout in a delay-measurement packet): applied to the counter `State.hw.free`.
(DESIGN CHOICE, log 15) -/
opaque Config.freeWord : Nat → BitVec 80

/-- The word on a wire whose path breaks R99, in one cycle of its yard: applied to the wire (32 × tile + IN port, + 4 + outgoing
track or + 16 + incoming track) and to the ACLK index of the cycle's edge (R101). (DESIGN CHOICE, log 15) -/
opaque Config.brokenWire : Nat → Nat → BitVec 80

/-- A number whose value the spec leaves open, applied to the free-value counter. -/
opaque Config.freeNat : Nat → Nat

/-- The pool of chain credits that destination device `d` gives this device (R262): it stands in a register
of that device. (DESIGN CHOICE, log 59) -/
opaque Config.remotePool : Nat → Nat

/-- How many crossings join the domain of a code of Table 19.5 to others, as `DV_XQ.QCNT` counts them.
(DESIGN CHOICE, log 152) -/
opaque Config.crossingsOf : Nat → Nat

end Sys2Proof
end

