-- ==== Sys2Proof/Machine/Sparse.lean ====
section
/-!
DEFINITION. Sparse tables: lists of (key, value) pairs in ONE canonical form (keys strictly rising, no
entry equal to what an unlisted key reads as), so that equal tables are equal data.
-/

namespace Sys2Proof.Machine

/-- A sparse table. -/
abbrev Sparse (α : Type) := List (Nat × α)

/-- The entry listed at a key. -/
def lookup {α : Type} : Sparse α → Nat → Option α
  | [], _ => none
  | (k, v) :: m, a => if k = a then some v else lookup m a

/-- The table with a value listed at a key, in rising order. -/
def insertAt {α : Type} : Sparse α → Nat → α → Sparse α
  | [], a, x => [(a, x)]
  | (k, v) :: m, a, x =>
    if a < k then (a, x) :: (k, v) :: m
    else if k = a then (a, x) :: m
    else (k, v) :: insertAt m a x

/-- The table with no entry at a key. -/
def removeAt {α : Type} : Sparse α → Nat → Sparse α
  | [], _ => []
  | (k, v) :: m, a => if k = a then removeAt m a else (k, v) :: removeAt m a

/-- The value at a key, `d` where none is listed. -/
def getD {α : Type} (d : α) (m : Sparse α) (a : Nat) : α := (lookup m a).getD d

/-- The table with a value at a key; a value equal to the default is not listed. -/
def setD {α : Type} [DecidableEq α] (d : α) (m : Sparse α) (a : Nat) (x : α) : Sparse α :=
  if x = d then removeAt m a else insertAt m a x

/-- Keys strictly rising from a lower bound. -/
def rising {α : Type} (lo : Nat) : Sparse α → Bool
  | [] => true
  | (k, _) :: m => lo ≤ k && rising (k + 1) m

/-- No entry equal to the default of its key. -/
def noDefault {α : Type} [DecidableEq α] (d : Nat → α) (m : Sparse α) : Bool :=
  m.all fun e => decide (e.2 ≠ d e.1)

/-- The canonical form of a table with default `d`. -/
def sparseWf {α : Type} [DecidableEq α] (d : Nat → α) (m : Sparse α) : Bool :=
  rising 0 m && noDefault d m

end Sys2Proof.Machine
end

