-- ==== Sys2Proof/Machine/Flags.lean ====
section
/-!
DEFINITION. Narrowing, rounding, saturation, block-float packing and the flags they raise
(R43, R47, R50, R51, R54; Tables 2.7 and 2.14).
-/

namespace Sys2Proof.Machine

/-- The arithmetic flags of Table 2.14 that one step raises. -/
structure Flags where
  ovf : Bool
  satd : Bool
  accovf : Bool
  eovf : Bool
  eunf : Bool
deriving DecidableEq, Repr

/-- No flag. -/
abbrev Flags.none : Flags := ⟨false, false, false, false, false⟩

/-- The flags that either of two parts of a step raises. -/
def Flags.or (a b : Flags) : Flags :=
  ⟨a.ovf || b.ovf, a.satd || b.satd, a.accovf || b.accovf, a.eovf || b.eovf, a.eunf || b.eunf⟩

/-- The rounding modes of `RND` (Table 2.7); the reserved 0b11 executes as truncate (R48). -/
inductive Rnd where
  | truncate
  | halfUp
  | convergent
deriving DecidableEq, Repr

/-- `RND` of a MOD field. -/
def rndOf (bits : Nat) : Rnd :=
  match bits with
  | 1 => .halfUp
  | 2 => .convergent
  | _ => .truncate

/-- The rounded value t of R51 for a shift s ≥ 0. -/
def roundShift (rnd : Rnd) (s : Nat) (v : Int) : Int :=
  if s = 0 then v
  else
    let q := v / (2 ^ s : Int)
    let r := v % (2 ^ s : Int)
    let h : Int := 2 ^ (s - 1)
    match rnd with
    | .truncate => q
    | .halfUp => if h ≤ r then q + 1 else q
    | .convergent => if h < r ∨ (r = h ∧ q % 2 = 1) then q + 1 else q

/-- Least value of a signed width. -/
def minOf (w : Nat) : Int := -(2 ^ (w - 1) : Int)
/-- Greatest value of a signed width. -/
def maxOf (w : Nat) : Int := (2 ^ (w - 1) : Int) - 1

/-- The value read back from the low w bits as two's complement. -/
def wrapTo (w : Nat) (v : Int) : Int :=
  let m := v % (2 ^ w : Int)
  if m ≤ maxOf w then m else m - (2 ^ w : Int)

/-- Range-limiting to a signed width (R51): the value, and whether it had left the range. -/
def limitTo (sat : Bool) (w : Nat) (t : Int) : Int × Bool :=
  if t < minOf w ∨ maxOf w < t then
    (if sat then (if t < 0 then minOf w else maxOf w) else wrapTo w t, true)
  else (t, false)

/-- One element narrowed under R51. -/
def narrow (rnd : Rnd) (sat : Bool) (s w : Nat) (v : Int) : Int × Flags :=
  let r := limitTo sat w (roundShift rnd s v)
  (r.1, { Flags.none with ovf := r.2, satd := r.2 && sat })

/-- Every element of a list narrowed, with the flags together. -/
def narrowAll (rnd : Rnd) (sat : Bool) (s w : Nat) (vs : List Int) : List Int × Flags :=
  (vs.map fun v => (narrow rnd sat s w v).1,
   vs.foldl (fun f v => f.or (narrow rnd sat s w v).2) Flags.none)

/-- A component negated as a conjugate: the most negative value gives the most positive, with `OVF`
and `SATD`, whatever `SAT` (R47). -/
def negClamp (w : Nat) (v : Int) : Int × Flags :=
  if v = minOf w then (maxOf w, { Flags.none with ovf := true, satd := true })
  else (-v, Flags.none)

/-- The smallest signed width that holds a value (R54 step 2). -/
def widthOf (v : Int) : Nat :=
  let u := (if v < 0 then -v - 1 else v).toNat
  if u = 0 then 1 else Nat.log2 u + 2

/-- A value shifted right by s and rounded; a negative s shifts left exactly (R54 step 3). -/
def shiftRound (rnd : Rnd) (s : Int) (v : Int) : Int :=
  if 0 ≤ s then roundShift rnd s.toNat v else v * (2 ^ (-s).toNat : Int)

/-- R54 step 3: the mantissas and the shift at which they fit 16 bits; one repetition is enough,
because a rounded mantissa exceeds its range by at most one unit. -/
def packAt (rnd : Rnd) (s : Int) (vs : List Int) : List Int × Int :=
  let m := vs.map (shiftRound rnd s)
  if m.all fun x => minOf 16 ≤ x && x ≤ maxOf 16 then (m, s)
  else (vs.map (shiftRound rnd (s + 1)), s + 1)

/-- The pack of R54: mantissas, exponent and flags from lane values, exponent and `SH`. -/
def pack (rnd : Rnd) (sh : Nat) (vs : List Int) (a : Int) : List Int × Int × Flags :=
  if vs.all (· = 0) then (vs, 0, Flags.none)
  else
    let n := vs.foldl (fun n v => max n (widthOf v)) 0
    let p0 := packAt rnd ((n : Int) - 16 + sh) vs
    let e0 := a + p0.2
    let low := e0 < -128
    let p := if low then packAt rnd (p0.2 + (-128 - e0)) vs else p0
    let e := a + p.2
    if 127 < e then
      (vs.map (fun v => if v = 0 then 0 else if 0 < v then maxOf 16 else minOf 16), 127,
       { Flags.none with eovf := true, eunf := low })
    else (p.1, e, { Flags.none with eunf := low })

end Sys2Proof.Machine
end

