-- ==== Sys2Proof/Machine/Operands.lean ====
section
/-!
DEFINITION. The word formats, constant operands and accumulator lanes of an FU
(R33, R34, R41, R42, R44; Tables 2.1, 2.2, 2.5, 2.6 and 3.6).
-/

namespace Sys2Proof.Machine

/-- Formats by their FMT value (Table 2.1). -/
abbrev fI72 : Nat := 0
abbrev fI36 : Nat := 1
abbrev fI18 : Nat := 2
abbrev fI9 : Nat := 3
abbrev fC36 : Nat := 4
abbrev fC18 : Nat := 5
abbrev fB16 : Nat := 6
abbrev fU72 : Nat := 7

/-- Width of one component of a format; U72 as its 9-bit raw fields. -/
def compWidth : Nat → Nat
  | 0 => 72
  | 1 => 36
  | 2 => 18
  | 3 => 9
  | 4 => 36
  | 5 => 18
  | 6 => 16
  | _ => 9

/-- Components of a word in a format. -/
def compCount : Nat → Nat
  | 0 => 1
  | 1 => 2
  | 2 => 4
  | 3 => 8
  | 4 => 2
  | 5 => 4
  | 6 => 4
  | _ => 8

/-- Components per element: a sample has I and Q (Table 3.6). -/
def compsPerElem (fmt : Nat) : Nat := if fmt = 4 ∨ fmt = 5 ∨ fmt = 6 then 2 else 1

/-- Elements e of a word in a format (Table 3.6). -/
def elemCount (fmt : Nat) : Nat := compCount fmt / compsPerElem fmt

/-- Fields of a word of a format are I, Q pairs of complex samples. -/
def isComplex (fmt : Nat) : Bool := fmt == 4 || fmt == 5

/-- Product point FB (Table 2.6). -/
def productPoint : Nat → Nat
  | 4 => 35
  | 5 => 17
  | _ => 0

/-- The n fields of width w of a number, most significant first, as raw values. -/
def splitRaw (w n x : Nat) : List Nat :=
  (List.range n).map fun k => x / 2 ^ (w * (n - 1 - k)) % 2 ^ w

/-- A raw field read as two's complement. -/
def signed (w : Nat) (x : Nat) : Int := wrapTo w (x : Int)

/-- The low w bits of an integer. -/
def rawOf (w : Nat) (v : Int) : Nat := (v % (2 ^ w : Int)).toNat

/-- Fields of width w joined, first field most significant. -/
def joinRaw (w : Nat) (xs : List Nat) : Nat := xs.foldl (fun acc x => acc * 2 ^ w + x % 2 ^ w) 0

/-- The components of a word in a format, element 0 first (R33). -/
def comps (fmt : Nat) (d : Word) : List Int :=
  let x := if fmt = 6 then d.toNat / 256 else d.toNat
  (splitRaw (compWidth fmt) (compCount fmt) x).map (signed (compWidth fmt))

/-- The signed exponent of a B16x2 word. -/
def expOf (d : Word) : Int := signed 8 (d.toNat % 256)

/-- The word that holds components in a format; `e` is the exponent of a B16x2 word. -/
def compose (fmt : Nat) (vs : List Int) (e : Int) : Word :=
  let body := joinRaw (compWidth fmt) (vs.map (rawOf (compWidth fmt)))
  BitVec.ofNat 72 (if fmt = 6 then body * 256 + rawOf 8 e else body)

/-- The elements of a word as groups of components. -/
def chunk : Nat → Nat → List Int → List (List Int)
  | 0, _, _ => []
  | n + 1, k, vs => vs.take k :: chunk n k (vs.drop k)

/-- The elements of a word, element 0 first. -/
def elems (fmt : Nat) (d : Word) : List (List Int) :=
  chunk (elemCount fmt) (compsPerElem fmt) (comps fmt d)

/-- The word of a list of elements, with the exponent of `keep` in B16x2 (R83, Table 3.12). -/
def ofElems (fmt : Nat) (es : List (List Int)) (keep : Word) : Word :=
  compose fmt es.flatten (expOf keep)

/-- Data of a constant formed from a 16-bit value (Table 2.2); `sx` is IMM's sign extension. -/
def constData (fmt : Nat) (sx : Bool) (x : Nat) : Word :=
  let v : Int := if sx then signed 16 x else (x : Int)
  match fmt with
  | 0 => BitVec.ofInt 72 v
  | 1 => compose 1 [v, v] 0
  | 2 => compose 2 [v, v, v, v] 0
  | 3 => compose 3 (List.replicate 8 (x : Int)) 0
  | 4 => compose 4 [v, 0] 0
  | 5 => compose 5 [v, 0, v, 0] 0
  | 6 => compose 6 [(x : Int), 0, (x : Int), 0] 0
  | _ => BitVec.ofNat 72 ((x % 256) * 2 ^ 64 + x * 0x0001000100010001)

/-- A valid constant word of a context (R34). -/
def constWord (d : Word) (ctx : Nat) : TW := ⟨d, true, false, false, false, BitVec.ofNat 4 ctx⟩

/-- An accumulator: 192 bits, exponent AE and poison ACCP (Table 2.3). -/
structure Accum where
  v : BitVec 192
  ae : Int
  p : Bool
deriving DecidableEq, Repr

/-- A cleared accumulator (ACCLR; Table 5.2). -/
abbrev Accum.zero : Accum := ⟨0, -512, false⟩

/-- Lane width of an accumulator in a format (Table 2.5). -/
def laneWidth : Nat → Nat
  | 0 => 192
  | 1 => 96
  | 3 => 24
  | 4 => 96
  | 7 => 192
  | _ => 48

/-- Lanes of an accumulator in a format. -/
def laneCount (fmt : Nat) : Nat := 192 / laneWidth fmt

/-- The signed lanes, lane 0 most significant (R41). -/
def lanes (fmt : Nat) (v : BitVec 192) : List Int :=
  (splitRaw (laneWidth fmt) (laneCount fmt) v.toNat).map (signed (laneWidth fmt))

/-- The accumulator value of a list of lanes. -/
def ofLanes (fmt : Nat) (vs : List Int) : BitVec 192 :=
  BitVec.ofNat 192 (joinRaw (laneWidth fmt) (vs.map (rawOf (laneWidth fmt))))

/-- A word written into an accumulator (R42, R44, R75). -/
def Accum.ofWord (fmt : Nat) (t : TW) : Accum :=
  if fmt = 7 then ⟨BitVec.ofNat 192 t.d.toNat, -512, t.p⟩
  else
    let vs := comps fmt t.d
    let ae := if fmt = 6 ∧ ¬ vs.all (· = 0) then expOf t.d else -512
    ⟨ofLanes fmt (vs.map (· * (2 ^ productPoint fmt : Int))), ae, t.p⟩

/-- A product written into an accumulator unshifted (R42; BMUL of Table 3.10). -/
def Accum.ofProduct (fmt : Nat) (vs : List Int) (pe : Int) (p : Bool) : Accum :=
  ⟨ofLanes fmt vs, if fmt = 6 ∧ ¬ vs.all (· = 0) then pe else -512, p⟩

/-- A narrowed accumulator read (R50, R72): the data and its flags. -/
def Accum.read (a : Accum) (fmt sh : Nat) (rnd : Rnd) (sat : Bool) : Word × Flags :=
  if fmt = 7 then (BitVec.ofNat 72 a.v.toNat, Flags.none)
  else if fmt = 6 then
    let r := pack rnd sh (lanes 6 a.v) a.ae
    (compose 6 r.1 r.2.1, r.2.2)
  else
    let r := narrowAll rnd sat (productPoint fmt + sh) (compWidth fmt) (lanes fmt a.v)
    (compose fmt r.1 0, r.2)

/-- Lane sums of an accumulation, limited under R43: the lanes and whether one left its range. -/
def addLanes (sat : Bool) (w : Nat) : List Int → List Int → List Int × Bool
  | x :: xs, y :: ys =>
    let r := limitTo sat w (x + y)
    let rest := addLanes sat w xs ys
    (r.1 :: rest.1, r.2 || rest.2)
  | xs, [] => (xs, false)
  | [], _ => ([], false)

/-- A full-precision result added into an accumulator (R43, R45; R52, R53 in B16x2), with its
`ACCOVF`. -/
def Accum.accumulate (a : Accum) (fmt : Nat) (vs : List Int) (pe : Int) (rnd : Rnd) (sat p : Bool) :
    Accum × Bool :=
  let w := laneWidth fmt
  let ls := lanes fmt a.v
  if fmt = 6 then
    if vs.all (· = 0) then ({ a with p := a.p || p }, false)
    else
      let d := pe - a.ae
      let ls' := if 0 < d then ls.map (roundShift rnd d.toNat) else ls
      let vs' := if 0 < d then vs else vs.map (roundShift rnd (-d).toNat)
      let r := addLanes sat w ls' vs'
      (⟨ofLanes fmt r.1, if 0 < d then pe else a.ae, a.p || p⟩, r.2)
  else
    let r := addLanes sat w ls vs
    (⟨ofLanes fmt r.1, a.ae, a.p || p⟩, r.2)

end Sys2Proof.Machine
end

