-- ==== Sys2Proof/Machine/Regs.lean ====
section
/-!
DEFINITION. The register map: every register block of Table 1.7, BAR0 (Table 1.8) and every register
and field that the chapters' register tables give, with access type, reset value and reserved values
(Table 0.5, R7 to R10, R15, R25). A field's constant is named f<register>_<field>, a register's address
function a<register>.
-/

namespace Sys2Proof.Machine

/-- Access types of Table 0.5; bits outside every field are RSV. -/
inductive Acc where
  | rw
  | ro
  | w1c
  | wo
deriving DecidableEq, Repr

/-- Which values of an enumerated field are not reserved (R10). -/
inductive Lim where
  | any
  | le (n : Nat)
  | ge (n : Nat)
  | range (a b : Nat)
  /-- a mask without bit i -/
  | without (i : Nat)
  /-- an event number outside 0xF9 to 0xFB (R150) -/
  | event
  /-- a chain target of Table 10.4 that an EVENT may name (R266) -/
  | target
deriving DecidableEq, Repr

/-- The values a field accepts. -/
def limOk : Lim → Nat → Bool
  | .any, _ => true
  | .le n, v => v ≤ n
  | .ge n, v => n ≤ v
  | .range a b, v => a ≤ v && v ≤ b
  | .without i, v => !(v.testBit i)
  | .event, v => v < 0xF9 || 0xFB < v
  | .target, v => v ≤ 63 || v == 0xFE || v == 0xFF

/-- One field of a register. -/
structure Fld where
  lo : Nat
  w : Nat
  acc : Acc
  reset : Nat
  lim : Lim
deriving DecidableEq, Repr

/-- One register, or an array of `count` registers `stride` bytes apart. `flds i` are the fields of
element i. -/
structure RegDesc where
  off : Nat
  count : Nat
  stride : Nat
  flds : Nat → List Fld

/-- The register blocks of Table 1.7; `ethp` is the sub-port part of an Ethernet MAC block, `ch` the
chain registers in the block of lead port LU, and `hi` is BAR0. -/
inductive Blk where
  | pen
  | fu
  | sch
  | loft
  | yp
  | ag
  | dv
  | crd
  | tb
  | gs
  | tf
  | clk
  | pw
  | net
  | dc
  | tu
  | jl
  | eth
  | ethp
  | lk
  | ch
  | al
  | mo
  | fr
  | hi
deriving DecidableEq, Repr

/-- BAR0 is a space of its own (Table 1.8); the model places it above the 40-bit local space. -/
abbrev bar0Base : Nat := 0x10000000000
/-- First byte of the register region (Table 1.5). -/
abbrev regionBase : Nat := 0x1008000000
abbrev yardBase (y : Nat) : Nat := regionBase + y * 0x100000
/-- Block of pen n = 8 y + p (R19, Table 1.7). -/
abbrev penBase (n : Nat) : Nat := yardBase (n / 8) + (n % 8) * 0x10000
/-- FU window of FU g = 16 n + f (R65). -/
abbrev fuBase (g : Nat) : Nat := penBase (g / 16) + 0x8000 + (g % 16) * 0x400

/-- Register `TRG_CFG`k of pen n (R203). -/
def aTRG_CFG (n k : Nat) : Nat := penBase n + 0x6000 + 128 * k
def fTRG_CFG_EN : Fld := ⟨0, 1, .rw, 0, .any⟩
def fTRG_CFG_STRICT : Fld := ⟨1, 1, .rw, 0, .any⟩
def fTRG_CFG_PSIDE : Fld := ⟨2, 2, .rw, 0, .any⟩
def fTRG_CFG_CSIDE : Fld := ⟨4, 3, .rw, 0, (.le 4)⟩
def fTRG_CFG_LOG2D : Fld := ⟨8, 4, .rw, 4, (.range 4 13)⟩
def fTRG_CFG_BASE : Fld := ⟨16, 11, .rw, 0, .any⟩

/-- Register `TRG_PTR`k of pen n (R203). -/
def aTRG_PTR (n k : Nat) : Nat := penBase n + 0x6008 + 128 * k
def fTRG_PTR_WP : Fld := ⟨0, 14, .ro, 0, .any⟩
def fTRG_PTR_RP : Fld := ⟨16, 14, .ro, 0, .any⟩
def fTRG_PTR_RL : Fld := ⟨32, 14, .ro, 0, .any⟩
def fTRG_PTR_MK : Fld := ⟨48, 14, .ro, 0, .any⟩

/-- Register `TRG_CNT`k of pen n (R203). -/
def aTRG_CNT (n k : Nat) : Nat := penBase n + 0x6010 + 128 * k
def fTRG_CNT_READABLE : Fld := ⟨0, 14, .ro, 0, .any⟩
def fTRG_CNT_OCCUP : Fld := ⟨16, 14, .ro, 0, .any⟩
def fTRG_CNT_SLOT : Fld := ⟨32, 14, .ro, 0, .any⟩
def fTRG_CNT_OPEN : Fld := ⟨48, 1, .ro, 0, .any⟩
def fTRG_CNT_OVFD : Fld := ⟨49, 1, .ro, 0, .any⟩

/-- Register `TRG_HWM`k of pen n (R186). -/
def aTRG_HWM (n k : Nat) : Nat := penBase n + 0x6018 + 128 * k
def fTRG_HWM_HWM : Fld := ⟨0, 14, .ro, 0, .any⟩

/-- Register `TRG_STAT`k of pen n (R203). -/
def aTRG_STAT (n k : Nat) : Nat := penBase n + 0x6020 + 128 * k
def fTRG_STAT_RSVVAL : Fld := ⟨0, 1, .w1c, 0, .any⟩
def fTRG_STAT_CFGBUSY : Fld := ⟨1, 1, .w1c, 0, .any⟩
def fTRG_STAT_RELCLAMP : Fld := ⟨2, 1, .w1c, 0, .any⟩
def fTRG_STAT_MARKLOST : Fld := ⟨3, 1, .w1c, 0, .any⟩
def fTRG_STAT_PKTSEQ : Fld := ⟨4, 1, .w1c, 0, .any⟩
def fTRG_STAT_PKTOVF : Fld := ⟨5, 1, .w1c, 0, .any⟩
def fTRG_STAT_DISOP : Fld := ⟨6, 1, .w1c, 0, .any⟩
def fTRG_STAT_COLL : Fld := ⟨7, 1, .w1c, 0, .any⟩
def fTRG_STAT_UCE : Fld := ⟨8, 1, .w1c, 0, .any⟩
def fTRG_STAT_ABTCNT : Fld := ⟨16, 16, .ro, 0, .any⟩
def fTRG_STAT_REFCNT : Fld := ⟨32, 32, .ro, 0, .any⟩

/-- Register `TRG_ECC`k of pen n (R203). -/
def aTRG_ECC (n k : Nat) : Nat := penBase n + 0x6028 + 128 * k
def fTRG_ECC_CECNT : Fld := ⟨0, 16, .ro, 0, .any⟩
def fTRG_ECC_UECNT : Fld := ⟨16, 16, .ro, 0, .any⟩
def fTRG_ECC_CLR : Fld := ⟨63, 1, .wo, 0, .any⟩

/-- Register `TRG_FWD`k of pen n (R203). -/
def aTRG_FWD (n k : Nat) : Nat := penBase n + 0x6030 + 128 * k
def fTRG_FWD_PEN : Fld := ⟨0, 7, .rw, 0, .any⟩
def fTRG_FWD_TRG : Fld := ⟨7, 3, .rw, 0, .any⟩
def fTRG_FWD_DEV : Fld := ⟨10, 6, .rw, 0, .any⟩

/-- Register `TRG_CMD`k of pen n (R203). -/
def aTRG_CMD (n k : Nat) : Nat := penBase n + 0x6038 + 128 * k
def fTRG_CMD_FLUSH : Fld := ⟨0, 1, .wo, 0, .any⟩
def fTRG_CMD_CLRCNT : Fld := ⟨1, 1, .wo, 0, .any⟩

/-- Register `PM_STAT` of pen n (R204). -/
def aPM_STAT (n : Nat) : Nat := penBase n + 0x6400
def fPM_STAT_CONFL : Fld := ⟨0, 1, .w1c, 0, .any⟩
def fPM_STAT_STARVED : Fld := ⟨1, 1, .w1c, 0, .any⟩
def fPM_STAT_UCE : Fld := ⟨2, 1, .w1c, 0, .any⟩
def fPM_STAT_CONFLCNT : Fld := ⟨16, 16, .ro, 0, .any⟩
def fPM_STAT_RUN : Fld := ⟨32, 21, .ro, 0, .any⟩
def fPM_STAT_STARVCNT : Fld := ⟨53, 11, .ro, 0, .any⟩

/-- Register `PM_ECC` of pen n (R204). -/
def aPM_ECC (n : Nat) : Nat := penBase n + 0x6408
def fPM_ECC_CE (k : Nat) : Fld := ⟨0 + 8 * k, 8, .ro, 0, .any⟩

/-- Register `PM_CLR` of pen n (R204). -/
def aPM_CLR (n : Nat) : Nat := penBase n + 0x6410
def fPM_CLR_CLR : Fld := ⟨0, 1, .wo, 0, .any⟩

/-- Register `PS_CTL`k of pen n (R205). -/
def aPS_CTL (n k : Nat) : Nat := penBase n + 0x6500 + 32 * k
def fPS_CTL_EN : Fld := ⟨0, 1, .rw, 0, .any⟩
def fPS_CTL_DIR : Fld := ⟨1, 1, .rw, 0, .any⟩
def fPS_CTL_REPEAT : Fld := ⟨2, 1, .rw, 0, .any⟩
def fPS_CTL_TRG : Fld := ⟨3, 3, .rw, 0, .any⟩
def fPS_CTL_DONE : Fld := ⟨6, 1, .w1c, 0, .any⟩
def fPS_CTL_NOSIDE : Fld := ⟨7, 1, .w1c, 0, .any⟩
def fPS_CTL_CFGBUSY : Fld := ⟨8, 1, .w1c, 0, .any⟩

/-- Register `PS_ADDR`k of pen n (R205). -/
def aPS_ADDR (n k : Nat) : Nat := penBase n + 0x6508 + 32 * k
def fPS_ADDR_BASE : Fld := ⟨0, 17, .rw, 0, .any⟩
def fPS_ADDR_STRIDE : Fld := ⟨32, 17, .rw, 0, .any⟩

/-- Register `PS_CNT`k of pen n (R205). -/
def aPS_CNT (n k : Nat) : Nat := penBase n + 0x6510 + 32 * k
def fPS_CNT_COUNT : Fld := ⟨0, 17, .rw, 0, .any⟩
def fPS_CNT_POS : Fld := ⟨32, 17, .ro, 0, .any⟩

/-- Register `PEN_CTXRES` of pen n (R145). -/
def aPEN_CTXRES (n : Nat) : Nat := penBase n + 0x7000
def fPEN_CTXRES_CTX (k : Nat) : Fld := ⟨0 + 16 * k, 4, .ro, 0, .any⟩
def fPEN_CTXRES_VLD (k : Nat) : Fld := ⟨4 + 16 * k, 1, .ro, 0, .any⟩
def fPEN_CTXRES_PIN (k : Nat) : Fld := ⟨5 + 16 * k, 1, .ro, 0, .any⟩
def fPEN_CTXRES_DIRTY (k : Nat) : Fld := ⟨6 + 16 * k, 5, .ro, 0, .any⟩

/-- Register `PEN_CTXKIND` of pen n (R145). -/
def aPEN_CTXKIND (n : Nat) : Nat := penBase n + 0x7008
def fPEN_CTXKIND_KIND (k : Nat) : Fld := ⟨0 + 2 * k, 2, .rw, 0, (.le 2)⟩
def fPEN_CTXKIND_SAVED (k : Nat) : Fld := ⟨32 + 1 * k, 1, .ro, 0, .any⟩

/-- Register `PEN_CTXSTAT` of pen n (R145). -/
def aPEN_CTXSTAT (n : Nat) : Nat := penBase n + 0x7010
def fPEN_CTXSTAT_LASTCTX : Fld := ⟨0, 4, .ro, 0, .any⟩
def fPEN_CTXSTAT_LASTVICTIM : Fld := ⟨4, 4, .ro, 0, .any⟩
def fPEN_CTXSTAT_LASTNRES : Fld := ⟨8, 1, .ro, 0, .any⟩
def fPEN_CTXSTAT_LASTW : Fld := ⟨16, 6, .ro, 0, .any⟩
def fPEN_CTXSTAT_LASTR : Fld := ⟨22, 6, .ro, 0, .any⟩
def fPEN_CTXSTAT_WRINUSE : Fld := ⟨32, 1, .w1c, 0, .any⟩
def fPEN_CTXSTAT_RSTPSN : Fld := ⟨33, 1, .w1c, 0, .any⟩
def fPEN_CTXSTAT_RSVVAL : Fld := ⟨34, 1, .w1c, 0, .any⟩
def fPEN_CTXSTAT_NOVICT : Fld := ⟨35, 1, .w1c, 0, .any⟩
def fPEN_CTXSTAT_NRESCNT : Fld := ⟨48, 16, .ro, 0, .any⟩

/-- Register `PEN_CTXLOAD` of pen n (R145). -/
def aPEN_CTXLOAD (n : Nat) : Nat := penBase n + 0x7018
def fPEN_CTXLOAD_CTX : Fld := ⟨0, 4, .rw, 0, .any⟩
def fPEN_CTXLOAD_GO : Fld := ⟨4, 1, .wo, 0, .any⟩
def fPEN_CTXLOAD_BUSY : Fld := ⟨5, 1, .ro, 0, .any⟩
def fPEN_CTXLOAD_DONE : Fld := ⟨6, 1, .w1c, 0, .any⟩
def fPEN_CTXLOAD_FAIL : Fld := ⟨7, 1, .w1c, 0, .any⟩

/-- Register `PEN_SPILL`k of pen n (R145). -/
def aPEN_SPILL (n k : Nat) : Nat := penBase n + 0x7040 + 8 * k
def fPEN_SPILL_BASE : Fld := ⟨0, 11, .rw, 0, .any⟩

/-- Register `PEN_STALL` of pen n (R113). -/
def aPEN_STALL (n : Nat) : Nat := penBase n + 0xC000
def fPEN_STALL_STALLCNT : Fld := ⟨0, 48, .ro, 0, .any⟩
def fPEN_STALL_LASTTRG : Fld := ⟨48, 3, .ro, 0, .any⟩
def fPEN_STALL_LASTKIND : Fld := ⟨51, 1, .ro, 0, .any⟩
def fPEN_STALL_CLR : Fld := ⟨63, 1, .wo, 0, .any⟩

/-- Register `PEN_XLOST` of pen n (R113). -/
def aPEN_XLOST (n : Nat) : Nat := penBase n + 0xC008
def fPEN_XLOST_XLOST : Fld := ⟨0, 32, .ro, 0, .any⟩
def fPEN_XLOST_XCLOST : Fld := ⟨32, 16, .ro, 0, .any⟩
def fPEN_XLOST_XCLATE : Fld := ⟨48, 12, .ro, 0, .any⟩
def fPEN_XLOST_CLR : Fld := ⟨63, 1, .wo, 0, .any⟩

/-- Register `PEN_XCSTAT` of pen n (R113). -/
def aPEN_XCSTAT (n : Nat) : Nat := penBase n + 0xC010
def fPEN_XCSTAT_YB : Fld := ⟨0, 4, .ro, 0, .any⟩
def fPEN_XCSTAT_LATE : Fld := ⟨4, 4, .w1c, 0, .any⟩
def fPEN_XCSTAT_CLOSED : Fld := ⟨8, 4, .ro, 0, .any⟩
def fPEN_XCSTAT_RSVVAL : Fld := ⟨12, 1, .w1c, 0, .any⟩

/-- Register `FU_CST`k of FU g (R66). -/
def aFU_CST (g k : Nat) : Nat := fuBase g + 8 * k
def fFU_CST_OVF : Fld := ⟨0, 1, .w1c, 0, .any⟩
def fFU_CST_SATD : Fld := ⟨1, 1, .w1c, 0, .any⟩
def fFU_CST_ACCOVF : Fld := ⟨2, 1, .w1c, 0, .any⟩
def fFU_CST_EOVF : Fld := ⟨3, 1, .w1c, 0, .any⟩
def fFU_CST_EUNF : Fld := ⟨4, 1, .w1c, 0, .any⟩
def fFU_CST_PSN : Fld := ⟨5, 1, .w1c, 0, .any⟩
def fFU_CST_UNDEF : Fld := ⟨8, 1, .w1c, 0, .any⟩
def fFU_CST_RSVFLD : Fld := ⟨9, 1, .w1c, 0, .any⟩
def fFU_CST_PSNCNT : Fld := ⟨16, 16, .ro, 0, .any⟩
def fFU_CST_CLRCNT : Fld := ⟨63, 1, .wo, 0, .any⟩

/-- Register `FU_ERRMASK` of FU g (R66). -/
def aFU_ERRMASK (g : Nat) : Nat := fuBase g + 0x100
def fFU_ERRMASK_EVEN : Fld := ⟨0, 6, .rw, 0, .any⟩

/-- Register `FU_RUN` of FU g (R146). -/
def aFU_RUN (g : Nat) : Nat := fuBase g + 0x108
def fFU_RUN_CTX : Fld := ⟨0, 4, .ro, 0, .any⟩
def fFU_RUN_BANK : Fld := ⟨4, 2, .ro, 0, .any⟩
def fFU_RUN_BYEP : Fld := ⟨6, 1, .ro, 0, .any⟩
def fFU_RUN_PREVCTX : Fld := ⟨8, 4, .ro, 0, .any⟩

/-- Register `FU_EPOCH` of FU g (R146). -/
def aFU_EPOCH (g : Nat) : Nat := fuBase g + 0x110
def fFU_EPOCH_SKEWCNT : Fld := ⟨0, 32, .ro, 0, .any⟩
def fFU_EPOCH_REJCNT : Fld := ⟨32, 16, .ro, 0, .any⟩
def fFU_EPOCH_REJ : Fld := ⟨48, 1, .w1c, 0, .any⟩
def fFU_EPOCH_CLR : Fld := ⟨63, 1, .wo, 0, .any⟩

/-- Register `FU_CTXCTL`k of FU g (R146). -/
def aFU_CTXCTL (g k : Nat) : Nat := fuBase g + 0x200 + 8 * k
def fFU_CTXCTL_FOLLOW : Fld := ⟨0, 1, .rw, 0, .any⟩
def fFU_CTXCTL_TRGEN : Fld := ⟨1, 1, .rw, 0, .any⟩
def fFU_CTXCTL_TRG : Fld := ⟨2, 3, .rw, 0, .any⟩
def fFU_CTXCTL_FSET : Fld := ⟨8, 16, .rw, 0, .any⟩

/-- Register `SCH_CTL` of yard y (R168). -/
def aSCH_CTL (y : Nat) : Nat := yardBase y + 0x80000
def fSCH_CTL_EN : Fld := ⟨0, 1, .rw, 0, .any⟩
def fSCH_CTL_TREN : Fld := ⟨1, 1, .rw, 0, .any⟩
def fSCH_CTL_TRDRAM : Fld := ⟨2, 1, .rw, 0, .any⟩

/-- Register `SCH_STAT` of yard y (R168). -/
def aSCH_STAT (y : Nat) : Nat := yardBase y + 0x80000 + 0x8
def fSCH_STAT_RSVVAL : Fld := ⟨0, 1, .w1c, 0, .any⟩
def fSCH_STAT_WRBUSY : Fld := ⟨1, 1, .w1c, 0, .any⟩
def fSCH_STAT_OVR : Fld := ⟨2, 1, .w1c, 0, .any⟩
def fSCH_STAT_TRERR : Fld := ⟨3, 1, .w1c, 0, .any⟩
def fSCH_STAT_OVRCNT : Fld := ⟨16, 16, .ro, 0, .any⟩
def fSCH_STAT_DISPCNT : Fld := ⟨32, 32, .ro, 0, .any⟩

/-- Register `SCH_PENSTAT` of yard y (R168). -/
def aSCH_PENSTAT (y : Nat) : Nat := yardBase y + 0x80000 + 0x10
def fSCH_PENSTAT_TASK (k : Nat) : Fld := ⟨0 + 8 * k, 6, .ro, 0, .any⟩
def fSCH_PENSTAT_HELD (k : Nat) : Fld := ⟨6 + 8 * k, 1, .ro, 0, .any⟩

/-- Register `SCH_DBELL` of yard y (R168). -/
def aSCH_DBELL (y : Nat) : Nat := yardBase y + 0x80000 + 0x18
def fSCH_DBELL_BELL : Fld := ⟨0, 8, .wo, 0, .any⟩

/-- Register `SCH_TSTATE`k of yard y (R168). -/
def aSCH_TSTATE (y k : Nat) : Nat := yardBase y + 0x80000 + 0x20 + 8 * k
def fSCH_TSTATE_TS (k : Nat) : Fld := ⟨0 + 2 * k, 2, .ro, 0, .any⟩

/-- Register `SCH_EVSEEN`k of yard y (R168). -/
def aSCH_EVSEEN (y k : Nat) : Nat := yardBase y + 0x80000 + 0x40 + 8 * k
def fSCH_EVSEEN_SEEN : Fld := ⟨0, 64, .w1c, 0, .any⟩

/-- Register `SCH_TRBASE` of yard y (R168). -/
def aSCH_TRBASE (y : Nat) : Nat := yardBase y + 0x80000 + 0x80
def fSCH_TRBASE_BASE : Fld := ⟨0, 40, .rw, 0, .any⟩

/-- Register `SCH_TRSIZE` of yard y (R168). -/
def aSCH_TRSIZE (y : Nat) : Nat := yardBase y + 0x80000 + 0x88
def fSCH_TRSIZE_LOG2 : Fld := ⟨0, 5, .rw, 4, (.range 4 20)⟩

/-- Register `SCH_TRWR` of yard y (R168). -/
def aSCH_TRWR (y : Nat) : Nat := yardBase y + 0x80000 + 0x90
def fSCH_TRWR_WR : Fld := ⟨0, 32, .ro, 0, .any⟩

/-- Register `SCH_TRRD` of yard y (R168). -/
def aSCH_TRRD (y : Nat) : Nat := yardBase y + 0x80000 + 0x98
def fSCH_TRRD_RD : Fld := ⟨0, 32, .rw, 0, .any⟩

/-- Register `SCH_TRDROP` of yard y (R168). -/
def aSCH_TRDROP (y : Nat) : Nat := yardBase y + 0x80000 + 0xA0
def fSCH_TRDROP_DROP : Fld := ⟨0, 32, .ro, 0, .any⟩

/-- Register `SCH_TASK0`k of yard y (R149). -/
def aSCH_TASK0 (y k : Nat) : Nat := yardBase y + 0x80000 + 0x100 + 16 * k
def fSCH_TASK0_VALID : Fld := ⟨0, 1, .rw, 0, .any⟩
def fSCH_TASK0_CTX : Fld := ⟨1, 4, .rw, 0, .any⟩
def fSCH_TASK0_PENMASK : Fld := ⟨5, 8, .rw, 0, .any⟩
def fSCH_TASK0_PRIO : Fld := ⟨13, 3, .rw, 0, .any⟩
def fSCH_TASK0_PREEMPT : Fld := ⟨16, 1, .rw, 0, .any⟩
def fSCH_TASK0_ALL : Fld := ⟨17, 1, .rw, 0, .any⟩
def fSCH_TASK0_TRGEN : Fld := ⟨18, 4, .rw, 0, .any⟩
def fSCH_TASK0_DONEEN : Fld := ⟨22, 1, .rw, 0, .any⟩
def fSCH_TASK0_PRELDEN : Fld := ⟨23, 1, .rw, 0, .any⟩
def fSCH_TASK0_PRELD : Fld := ⟨24, 4, .rw, 0, .any⟩
def fSCH_TASK0_GROUP : Fld := ⟨28, 4, .rw, 0, .any⟩
def fSCH_TASK0_GRPEN : Fld := ⟨32, 1, .rw, 0, .any⟩

/-- Register `SCH_TASK1`k of yard y (R149). -/
def aSCH_TASK1 (y k : Nat) : Nat := yardBase y + 0x80000 + 0x108 + 16 * k
def fSCH_TASK1_TRG (k : Nat) : Fld := ⟨0 + 8 * k, 8, .rw, 0, .event⟩
def fSCH_TASK1_DONEEV : Fld := ⟨32, 8, .rw, 0, .event⟩

/-- Register `LOFT_STAT` of yard y (R204). -/
def aLOFT_STAT (y : Nat) : Nat := yardBase y + 0x90000
def fLOFT_STAT_CONFL : Fld := ⟨0, 1, .w1c, 0, .any⟩
def fLOFT_STAT_STARVED : Fld := ⟨1, 1, .w1c, 0, .any⟩
def fLOFT_STAT_UCE : Fld := ⟨2, 1, .w1c, 0, .any⟩
def fLOFT_STAT_CONFLCNT : Fld := ⟨16, 16, .ro, 0, .any⟩
def fLOFT_STAT_RUN : Fld := ⟨32, 21, .ro, 0, .any⟩
def fLOFT_STAT_STARVCNT : Fld := ⟨53, 11, .ro, 0, .any⟩

/-- Register `LOFT_ECC` of yard y (R204). -/
def aLOFT_ECC (y : Nat) : Nat := yardBase y + 0x90000 + 0x8
def fLOFT_ECC_CE (k : Nat) : Fld := ⟨0 + 4 * k, 4, .ro, 0, .any⟩

/-- Register `LOFT_CLR` of yard y (R204). -/
def aLOFT_CLR (y : Nat) : Nat := yardBase y + 0x90000 + 0x10
def fLOFT_CLR_CLR : Fld := ⟨0, 1, .wo, 0, .any⟩

/-- Register `YP_CTL` of yard y (R410). -/
def aYP_CTL (y : Nat) : Nat := yardBase y + 0xA0000
def fYP_CTL_MODE : Fld := ⟨0, 2, .rw, 0, (.le 2)⟩
def fYP_CTL_DIV : Fld := ⟨2, 2, .rw, 0, (.le 2)⟩

/-- Register `YP_VOLT` of yard y (R410). -/
def aYP_VOLT (y : Nat) : Nat := yardBase y + 0xA0000 + 0x8
def fYP_VOLT_CODE : Fld := ⟨0, 8, .rw, 56, (.le 56)⟩
def fYP_VOLT_ACT : Fld := ⟨16, 8, .ro, 56, .any⟩

/-- Register `YP_CLKEN` of yard y (R410). -/
def aYP_CLKEN (y : Nat) : Nat := yardBase y + 0xA0000 + 0x10
def fYP_CLKEN_RUNMUCK : Fld := ⟨3, 1, .rw, 1, .any⟩
def fYP_CLKEN_RUNMON : Fld := ⟨4, 1, .rw, 1, .any⟩
def fYP_CLKEN_SLPMUCK : Fld := ⟨11, 1, .rw, 1, .any⟩
def fYP_CLKEN_SLPMON : Fld := ⟨12, 1, .rw, 0, .any⟩
def fYP_CLKEN_DEEPMON : Fld := ⟨20, 1, .rw, 0, .any⟩
def fYP_CLKEN_RUNARRAY : Fld := ⟨0, 1, .ro, 1, .any⟩
def fYP_CLKEN_RUNMEM : Fld := ⟨1, 1, .ro, 1, .any⟩
def fYP_CLKEN_RUNSCHED : Fld := ⟨2, 1, .ro, 1, .any⟩
def fYP_CLKEN_RUNSENS : Fld := ⟨5, 1, .ro, 1, .any⟩
def fYP_CLKEN_SLPSENS : Fld := ⟨13, 1, .ro, 1, .any⟩
def fYP_CLKEN_DEEPSENS : Fld := ⟨21, 1, .ro, 1, .any⟩

/-- Register `YP_STAT` of yard y (R410). -/
def aYP_STAT (y : Nat) : Nat := yardBase y + 0xA0000 + 0x18
def fYP_STAT_MODE : Fld := ⟨0, 2, .ro, 0, .any⟩
def fYP_STAT_DIV : Fld := ⟨2, 2, .ro, 0, .any⟩
def fYP_STAT_TRANS : Fld := ⟨4, 1, .ro, 0, .any⟩
def fYP_STAT_REFUSED : Fld := ⟨5, 1, .w1c, 0, .any⟩
def fYP_STAT_RSVVAL : Fld := ⟨6, 1, .w1c, 0, .any⟩
def fYP_STAT_PDABORT : Fld := ⟨7, 1, .w1c, 0, .any⟩
def fYP_STAT_TEMP : Fld := ⟨16, 13, .ro, 0, .any⟩

/-- Register `AG_CTL` of yard y (R427). -/
def aAG_CTL (y : Nat) : Nat := yardBase y + 0xB0000
def fAG_CTL_WINGO : Fld := ⟨0, 1, .wo, 0, .any⟩
def fAG_CTL_ROGO : Fld := ⟨1, 1, .wo, 0, .any⟩
def fAG_CTL_GUARD : Fld := ⟨8, 8, .rw, 12, (.ge 1)⟩

/-- Register `AG_SLACK` of yard y (R427). -/
def aAG_SLACK (y : Nat) : Nat := yardBase y + 0xB0000 + 0x8
def fAG_SLACK_NEARCNT : Fld := ⟨0, 32, .ro, 0, .any⟩
def fAG_SLACK_TRANSCNT : Fld := ⟨32, 32, .ro, 0, .any⟩

/-- Register `AG_SLACKMAP` of yard y (R427). -/
def aAG_SLACKMAP (y : Nat) : Nat := yardBase y + 0xB0000 + 0x10
def fAG_SLACKMAP_MAP : Fld := ⟨0, 32, .ro, 0, .any⟩
def fAG_SLACKMAP_BUSY : Fld := ⟨32, 1, .ro, 0, .any⟩

/-- Register `AG_RO`k of yard y (R427). -/
def aAG_RO (y k : Nat) : Nat := yardBase y + 0xB0000 + 0x20 + 8 * k
def fAG_RO_SCNT : Fld := ⟨0, 32, .ro, 0, .any⟩
def fAG_RO_UCNT : Fld := ⟨32, 32, .ro, 0, .any⟩

/-- Register `AG_EM` of yard y (R427). -/
def aAG_EM (y : Nat) : Nat := yardBase y + 0xB0000 + 0x40
def fAG_EM_PPM : Fld := ⟨0, 32, .ro, 0, .any⟩

/-- Register `AG_STAT` of yard y (R427). -/
def aAG_STAT (y : Nat) : Nat := yardBase y + 0xB0000 + 0x48
def fAG_STAT_ROBUSY : Fld := ⟨0, 1, .ro, 0, .any⟩
def fAG_STAT_RSVVAL : Fld := ⟨1, 1, .w1c, 0, .any⟩

/-- Register `DV_BOOT` (R470). -/
def aDV_BOOT : Nat := 0x1009000000
def fDV_BOOT_BOOTSEL : Fld := ⟨0, 2, .ro, 0, .any⟩
def fDV_BOOT_REFSEL : Fld := ⟨2, 2, .ro, 0, .any⟩
def fDV_BOOT_HOSTPORT : Fld := ⟨4, 1, .ro, 0, .any⟩
def fDV_BOOT_STAGE : Fld := ⟨8, 3, .ro, 0, .any⟩
def fDV_BOOT_COPY : Fld := ⟨11, 1, .ro, 0, .any⟩
def fDV_BOOT_AFAIL : Fld := ⟨12, 1, .ro, 0, .any⟩
def fDV_BOOT_BFAIL : Fld := ⟨13, 1, .ro, 0, .any⟩
def fDV_BOOT_FAILSTEP : Fld := ⟨16, 4, .ro, 0, .any⟩
def fDV_BOOT_SEQNO : Fld := ⟨32, 32, .ro, 0, .any⟩

/-- Register `DV_RST` (R470). -/
def aDV_RST : Nat := 0x1009000000 + 0x8
def fDV_RST_CAUSE : Fld := ⟨0, 2, .ro, 1, .any⟩
def fDV_RST_LASTDOM : Fld := ⟨8, 8, .ro, 0, .any⟩
def fDV_RST_DRSTCNT : Fld := ⟨16, 16, .ro, 0, .any⟩

/-- Register `DV_XQ` (R470). -/
def aDV_XQ : Nat := 0x1009000000 + 0x10
def fDV_XQ_QCNT : Fld := ⟨0, 8, .ro, 0, .any⟩
def fDV_XQ_XDISC : Fld := ⟨16, 32, .ro, 0, .any⟩
def fDV_XQ_CLR : Fld := ⟨63, 1, .wo, 0, .any⟩

/-- Register `DV_CTL` (R470). -/
def aDV_CTL : Nat := 0x1009000000 + 0x18
def fDV_CTL_AUTORUN : Fld := ⟨0, 1, .rw, 0, .any⟩
def fDV_CTL_RSVVAL : Fld := ⟨1, 1, .w1c, 0, .any⟩

/-- Register `CRD_GRP`k (R160). -/
def aCRD_GRP (k : Nat) : Nat := 0x1009010000 + 8 * k
def fCRD_GRP_YARDS : Fld := ⟨0, 16, .rw, 0, .any⟩
def fCRD_GRP_EN : Fld := ⟨16, 1, .rw, 0, .any⟩

/-- Register `CRD_TICK` (R169). -/
def aCRD_TICK : Nat := 0x1009010000 + 0x100
def fCRD_TICK_TICK : Fld := ⟨0, 64, .ro, 0, .any⟩

/-- Register `CRD_LATCH` (R169). -/
def aCRD_LATCH : Nat := 0x1009010000 + 0x108
def fCRD_LATCH_LATCH : Fld := ⟨0, 1, .wo, 0, .any⟩

/-- Register `CRD_TICKL` (R169). -/
def aCRD_TICKL : Nat := 0x1009010000 + 0x110
def fCRD_TICKL_TICKL : Fld := ⟨0, 64, .ro, 0, .any⟩

/-- Register `TB_CTL` (R324). -/
def aTB_CTL : Nat := 0x1009020000
def fTB_CTL_HOEN : Fld := ⟨0, 1, .rw, 0, .any⟩
def fTB_CTL_TSRC : Fld := ⟨1, 1, .rw, 0, .any⟩
def fTB_CTL_RSVVAL : Fld := ⟨2, 1, .w1c, 0, .any⟩
def fTB_CTL_INCLIM : Fld := ⟨3, 1, .w1c, 0, .any⟩
def fTB_CTL_CHOWN : Fld := ⟨4, 1, .w1c, 0, .any⟩
def fTB_CTL_STEPPED : Fld := ⟨5, 1, .w1c, 0, .any⟩

/-- Register `TB_INC` (R324). -/
def aTB_INC : Nat := 0x1009020000 + 0x8
def fTB_INC_INC : Fld := ⟨0, 64, .rw, 3495253333, .any⟩

/-- Register `TB_HO` (R324). -/
def aTB_HO : Nat := 0x1009020000 + 0x10
def fTB_HO_H : Fld := ⟨0, 32, .ro, 0, .any⟩
def fTB_HO_EFF : Fld := ⟨32, 32, .ro, 3495253333, .any⟩

/-- Register `TB_STEP` (R324). -/
def aTB_STEP : Nat := 0x1009020000 + 0x18
def fTB_STEP_OFS : Fld := ⟨0, 48, .rw, 0, .any⟩
def fTB_STEP_GO : Fld := ⟨63, 1, .wo, 0, .any⟩

/-- Register `TB_SET0` (R324). -/
def aTB_SET0 : Nat := 0x1009020000 + 0x20
def fTB_SET0_SEC : Fld := ⟨0, 48, .rw, 0, .any⟩

/-- Register `TB_SET1` (R324). -/
def aTB_SET1 : Nat := 0x1009020000 + 0x28
def fTB_SET1_NS : Fld := ⟨0, 30, .rw, 0, .any⟩
def fTB_SET1_GO : Fld := ⟨63, 1, .wo, 0, .any⟩

/-- Register `TB_TIME0` (R324). -/
def aTB_TIME0 : Nat := 0x1009020000 + 0x30
def fTB_TIME0_FRAC : Fld := ⟨0, 32, .ro, 0, .any⟩
def fTB_TIME0_NS : Fld := ⟨32, 30, .ro, 0, .any⟩

/-- Register `TB_TIME1` (R324). -/
def aTB_TIME1 : Nat := 0x1009020000 + 0x38
def fTB_TIME1_SEC : Fld := ⟨0, 48, .ro, 0, .any⟩

/-- Register `TB_LAT0` (R324). -/
def aTB_LAT0 : Nat := 0x1009020000 + 0x40
def fTB_LAT0_FRAC : Fld := ⟨0, 32, .ro, 0, .any⟩
def fTB_LAT0_NS : Fld := ⟨32, 30, .ro, 0, .any⟩

/-- Register `TB_LAT1` (R324). -/
def aTB_LAT1 : Nat := 0x1009020000 + 0x48
def fTB_LAT1_SEC : Fld := ⟨0, 48, .ro, 0, .any⟩

/-- Register `TB_CAPIN` (R324). -/
def aTB_CAPIN : Nat := 0x1009020000 + 0x50
def fTB_CAPIN_EN : Fld := ⟨0, 1, .rw, 0, .any⟩
def fTB_CAPIN_PAD : Fld := ⟨1, 6, .rw, 0, .any⟩
def fTB_CAPIN_EDGE : Fld := ⟨7, 1, .rw, 0, .any⟩
def fTB_CAPIN_VALID : Fld := ⟨8, 1, .w1c, 0, .any⟩
def fTB_CAPIN_OVR : Fld := ⟨9, 1, .w1c, 0, .any⟩

/-- Register `TB_CAP0` (R324). -/
def aTB_CAP0 : Nat := 0x1009020000 + 0x58
def fTB_CAP0_FRAC : Fld := ⟨0, 32, .ro, 0, .any⟩
def fTB_CAP0_NS : Fld := ⟨32, 30, .ro, 0, .any⟩

/-- Register `TB_CAP1` (R324). -/
def aTB_CAP1 : Nat := 0x1009020000 + 0x60
def fTB_CAP1_SEC : Fld := ⟨0, 48, .ro, 0, .any⟩

/-- Register `TB_PPS` (R324). -/
def aTB_PPS : Nat := 0x1009020000 + 0x68
def fTB_PPS_EN : Fld := ⟨0, 1, .rw, 0, .any⟩
def fTB_PPS_PAD : Fld := ⟨1, 6, .rw, 0, .any⟩
def fTB_PPS_WIDTH : Fld := ⟨8, 24, .rw, 100000, (.range 1 999999)⟩

/-- Register `TB_TEMP` (R324). -/
def aTB_TEMP : Nat := 0x1009020000 + 0x70
def fTB_TEMP_TEMP : Fld := ⟨0, 13, .rw, 0, .any⟩
def fTB_TEMP_DIE : Fld := ⟨16, 13, .ro, 0, .any⟩

/-- Register `TB_TCCFG` (R324). -/
def aTB_TCCFG : Nat := 0x1009020000 + 0x78
def fTB_TCCFG_BASE : Fld := ⟨0, 13, .rw, 7552, .any⟩
def fTB_TCCFG_STEP : Fld := ⟨16, 8, .rw, 88, (.ge 1)⟩

/-- Register `TB_AGERATE` (R324). -/
def aTB_AGERATE : Nat := 0x1009020000 + 0x80
def fTB_AGERATE_RATE : Fld := ⟨0, 32, .rw, 0, .any⟩

/-- Register `TB_AGEACC` (R324). -/
def aTB_AGEACC : Nat := 0x1009020000 + 0x88
def fTB_AGEACC_AG : Fld := ⟨0, 64, .rw, 0, .any⟩

/-- Register `TB_TCTAB`k (R324). -/
def aTB_TCTAB (k : Nat) : Nat := 0x1009020000 + 0x100 + 8 * k
def fTB_TCTAB_CORR : Fld := ⟨0, 24, .rw, 0, .any⟩

/-- Register `GS_CTL`k (R325). -/
def aGS_CTL (k : Nat) : Nat := 0x1009030000 + 64 * k
def fGS_CTL_ARM : Fld := ⟨0, 1, .rw, 0, .any⟩
def fGS_CTL_PINEN : Fld := ⟨1, 1, .rw, 0, .any⟩
def fGS_CTL_EVMODE : Fld := ⟨2, 2, .rw, 0, .any⟩
def fGS_CTL_PAD : Fld := ⟨4, 6, .rw, 0, .any⟩
def fGS_CTL_POL : Fld := ⟨10, 1, .rw, 0, .any⟩

/-- Register `GS_STARTS`k (R325). -/
def aGS_STARTS (k : Nat) : Nat := 0x1009030000 + 0x8 + 64 * k
def fGS_STARTS_SEC : Fld := ⟨0, 48, .rw, 0, .any⟩

/-- Register `GS_STARTN`k (R325). -/
def aGS_STARTN (k : Nat) : Nat := 0x1009030000 + 0x10 + 64 * k
def fGS_STARTN_NS : Fld := ⟨0, 30, .rw, 0, (.le 999999999)⟩
def fGS_STARTN_SUB : Fld := ⟨32, 8, .rw, 0, .any⟩

/-- Register `GS_STOPS`k (R325). -/
def aGS_STOPS (k : Nat) : Nat := 0x1009030000 + 0x18 + 64 * k
def fGS_STOPS_SEC : Fld := ⟨0, 48, .rw, 0, .any⟩

/-- Register `GS_STOPN`k (R325). -/
def aGS_STOPN (k : Nat) : Nat := 0x1009030000 + 0x20 + 64 * k
def fGS_STOPN_NS : Fld := ⟨0, 30, .rw, 0, (.le 999999999)⟩
def fGS_STOPN_SUB : Fld := ⟨32, 8, .rw, 0, .any⟩

/-- Register `GS_PERIOD`k (R325). -/
def aGS_PERIOD (k : Nat) : Nat := 0x1009030000 + 0x28 + 64 * k
def fGS_PERIOD_PERIOD : Fld := ⟨0, 40, .rw, 0, .any⟩
def fGS_PERIOD_SUB : Fld := ⟨40, 8, .rw, 0, .any⟩
def fGS_PERIOD_COUNT : Fld := ⟨48, 16, .rw, 0, .any⟩

/-- Register `GS_STAT`k (R325). -/
def aGS_STAT (k : Nat) : Nat := 0x1009030000 + 0x30 + 64 * k
def fGS_STAT_OPEN : Fld := ⟨0, 1, .ro, 0, .any⟩
def fGS_STAT_NOPAD : Fld := ⟨1, 1, .ro, 0, .any⟩
def fGS_STAT_INVWR : Fld := ⟨2, 1, .w1c, 0, .any⟩
def fGS_STAT_RSVVAL : Fld := ⟨3, 1, .w1c, 0, .any⟩
def fGS_STAT_LATECNT : Fld := ⟨16, 16, .ro, 0, .any⟩
def fGS_STAT_EMPTYCNT : Fld := ⟨32, 16, .ro, 0, .any⟩
def fGS_STAT_FIRECNT : Fld := ⟨48, 16, .ro, 0, .any⟩

/-- Register `GS_CLR` (R325). -/
def aGS_CLR : Nat := 0x1009030000 + 0x1000
def fGS_CLR_CLR : Fld := ⟨0, 1, .wo, 0, .any⟩

/-- Register `TF_CTL` (R343). -/
def aTF_CTL : Nat := 0x1009040000
def fTF_CTL_EN : Fld := ⟨0, 1, .rw, 0, .any⟩
def fTF_CTL_RSVVAL : Fld := ⟨1, 1, .w1c, 0, .any⟩
def fTF_CTL_CFGBUSY : Fld := ⟨2, 1, .w1c, 0, .any⟩

/-- Register `TF_FCNT` (R343). -/
def aTF_FCNT : Nat := 0x1009040000 + 0x8
def fTF_FCNT_FCNT : Fld := ⟨0, 64, .ro, 0, .any⟩

/-- Register `TF_TAP`k (R343). -/
def aTF_TAP (k : Nat) : Nat := 0x1009040000 + 0x100 + 8 * k
def fTF_TAP_PEN : Fld := ⟨0, 7, .rw, 0, .any⟩
def fTF_TAP_TRG : Fld := ⟨7, 3, .rw, 0, .any⟩
def fTF_TAP_KIND : Fld := ⟨10, 1, .rw, 0, .any⟩
def fTF_TAP_EN : Fld := ⟨11, 1, .rw, 0, .any⟩

/-- Register `FIO_BANK`k (R343). -/
def aFIO_BANK (k : Nat) : Nat := 0x1009040000 + 0x400 + 8 * k
def fFIO_BANK_V33 : Fld := ⟨0, 1, .rw, 0, .any⟩
def fFIO_BANK_ACT33 : Fld := ⟨1, 1, .ro, 0, .any⟩
def fFIO_BANK_OFF : Fld := ⟨2, 1, .ro, 0, .any⟩
def fFIO_BANK_VLOW : Fld := ⟨3, 1, .w1c, 0, .any⟩

/-- Register `FIO_PAD`k (R343). -/
def aFIO_PAD (k : Nat) : Nat := 0x1009040000 + 0x800 + 8 * k
def fFIO_PAD_DRV : Fld := ⟨0, 2, .rw, 0, (.le 2)⟩
def fFIO_PAD_PULL : Fld := ⟨2, 2, .rw, 1, .any⟩
def fFIO_PAD_FCLAIM : Fld := ⟨4, 1, .rw, 0, .any⟩
def fFIO_PAD_OWNER : Fld := ⟨5, 3, .ro, 0, .any⟩
def fFIO_PAD_LOST : Fld := ⟨8, 1, .w1c, 0, .any⟩
def fFIO_PAD_IN : Fld := ⟨16, 8, .ro, 0, .any⟩

/-- Register `CAP_CTL` (R343). -/
def aCAP_CTL : Nat := 0x1009040000 + 0x1000
def fCAP_CTL_MODE : Fld := ⟨0, 2, .rw, 0, .any⟩
def fCAP_CTL_ARM : Fld := ⟨2, 1, .wo, 0, .any⟩
def fCAP_CTL_CANCEL : Fld := ⟨3, 1, .wo, 0, .any⟩

/-- Register `CAP_EDGE` (R343). -/
def aCAP_EDGE : Nat := 0x1009040000 + 0x1008
def fCAP_EDGE_EDGE : Fld := ⟨0, 64, .rw, 0, .any⟩

/-- Register `CAP_TSEC` (R343). -/
def aCAP_TSEC : Nat := 0x1009040000 + 0x1010
def fCAP_TSEC_SEC : Fld := ⟨0, 48, .rw, 0, .any⟩

/-- Register `CAP_TNS` (R343). -/
def aCAP_TNS : Nat := 0x1009040000 + 0x1018
def fCAP_TNS_NS : Fld := ⟨0, 30, .rw, 0, (.le 999999999)⟩

/-- Register `CAP_STAT` (R343). -/
def aCAP_STAT : Nat := 0x1009040000 + 0x1020
def fCAP_STAT_BUSY : Fld := ⟨0, 1, .ro, 0, .any⟩
def fCAP_STAT_DONE : Fld := ⟨1, 1, .w1c, 0, .any⟩
def fCAP_STAT_LATE : Fld := ⟨2, 1, .w1c, 0, .any⟩
def fCAP_STAT_RSVVAL : Fld := ⟨3, 1, .w1c, 0, .any⟩
def fCAP_STAT_SEQ : Fld := ⟨16, 16, .ro, 0, .any⟩

/-- Register `CAP_PAGE` (R343). -/
def aCAP_PAGE : Nat := 0x1009040000 + 0x1028
def fCAP_PAGE_PAGE : Fld := ⟨0, 6, .rw, 0, (.le 32)⟩

/-- Register `CLK_CTL` (R409). -/
def aCLK_CTL : Nat := 0x1009050000
def fCLK_CTL_AUTORELOCK : Fld := ⟨0, 1, .rw, 1, .any⟩
def fCLK_CTL_RELOCK : Fld := ⟨1, 1, .wo, 0, .any⟩

/-- Register `CLK_STAT` (R409). -/
def aCLK_STAT : Nat := 0x1009050000 + 0x8
def fCLK_STAT_REFPRES : Fld := ⟨0, 1, .ro, 0, .any⟩
def fCLK_STAT_REFLOST : Fld := ⟨1, 1, .w1c, 0, .any⟩
def fCLK_STAT_ROOTHOLD : Fld := ⟨2, 1, .ro, 0, .any⟩
def fCLK_STAT_DRAMHOLD : Fld := ⟨3, 1, .ro, 0, .any⟩
def fCLK_STAT_XCVRHOLD : Fld := ⟨4, 1, .ro, 0, .any⟩
def fCLK_STAT_RELOCKING : Fld := ⟨5, 1, .ro, 0, .any⟩
def fCLK_STAT_DEADSW : Fld := ⟨6, 1, .w1c, 0, .any⟩
def fCLK_STAT_UNLOCK : Fld := ⟨7, 1, .w1c, 0, .any⟩
def fCLK_STAT_REFSEL : Fld := ⟨8, 2, .ro, 0, .any⟩
def fCLK_STAT_RSVVAL : Fld := ⟨10, 1, .w1c, 0, .any⟩
def fCLK_STAT_DEADCNT : Fld := ⟨16, 16, .ro, 0, .any⟩

/-- Register `CLK_LOSSTICK` (R409). -/
def aCLK_LOSSTICK : Nat := 0x1009050000 + 0x10
def fCLK_LOSSTICK_TICK : Fld := ⟨0, 64, .ro, 0, .any⟩

/-- Register `CLK_DEADSRC` (R409). -/
def aCLK_DEADSRC : Nat := 0x1009050000 + 0x18
def fCLK_DEADSRC_MUX : Fld := ⟨0, 5, .ro, 0, .any⟩

/-- Register `PW_VIN` (R411). -/
def aPW_VIN : Nat := 0x1009060000
def fPW_VIN_MV : Fld := ⟨0, 16, .ro, 0, .any⟩
def fPW_VIN_CUR : Fld := ⟨16, 16, .ro, 0, .any⟩
def fPW_VIN_MW : Fld := ⟨32, 16, .ro, 0, .any⟩

/-- Register `PW_STAT` (R411). -/
def aPW_STAT : Nat := 0x1009060000 + 0x8
def fPW_STAT_VINLOW : Fld := ⟨0, 1, .w1c, 0, .any⟩
def fPW_STAT_VINHIGH : Fld := ⟨1, 1, .w1c, 0, .any⟩
def fPW_STAT_RAILFLT : Fld := ⟨2, 1, .w1c, 0, .any⟩
def fPW_STAT_OCP : Fld := ⟨3, 1, .w1c, 0, .any⟩
def fPW_STAT_FLTRAIL : Fld := ⟨16, 5, .ro, 0, .any⟩

/-- Register `PW_RAIL`k (R411). -/
def aPW_RAIL (k : Nat) : Nat := 0x1009060000 + 0x100 + 8 * k
def fPW_RAIL_MV : Fld := ⟨0, 16, .ro, 0, .any⟩
def fPW_RAIL_CUR : Fld := ⟨16, 16, .ro, 0, .any⟩
def fPW_RAIL_OK : Fld := ⟨32, 1, .ro, 0, .any⟩

/-- Register `NR_STAT`k (R244). -/
def aNR_STAT (k : Nat) : Nat := 0x1009070000 + 8 * k
def fNR_STAT_CRCCNT : Fld := ⟨0, 16, .ro, 0, .any⟩
def fNR_STAT_PSNCNT : Fld := ⟨16, 16, .ro, 0, .any⟩
def fNR_STAT_HDRCE : Fld := ⟨32, 8, .ro, 0, .any⟩
def fNR_STAT_HDRUE : Fld := ⟨40, 1, .w1c, 0, .any⟩
def fNR_STAT_NOCRED : Fld := ⟨41, 1, .w1c, 0, .any⟩
def fNR_STAT_RSVVAL : Fld := ⟨42, 1, .w1c, 0, .any⟩
def fNR_STAT_WAITBUF : Fld := ⟨48, 6, .ro, 0, .any⟩
def fNR_STAT_CLR : Fld := ⟨63, 1, .wo, 0, .any⟩

/-- Register `NY_WAKE`k (R244). -/
def aNY_WAKE (k : Nat) : Nat := 0x1009070000 + 0x200 + 8 * k
def fNY_WAKE_WAKECNT : Fld := ⟨0, 16, .ro, 0, .any⟩
def fNY_WAKE_ABORTCNT : Fld := ⟨16, 16, .ro, 0, .any⟩
def fNY_WAKE_WAITING : Fld := ⟨32, 1, .ro, 0, .any⟩
def fNY_WAKE_CLR : Fld := ⟨63, 1, .wo, 0, .any⟩

/-- Register `NC_POOL0`k (R244). -/
def aNC_POOL0 (k : Nat) : Nat := 0x1009070000 + 0x1000 + 32 * k
def fNC_POOL0_POOL (k : Nat) : Fld := ⟨0 + 4 * k, 4, .rw, 0, .any⟩

/-- Register `NC_POOL1`k (R244). -/
def aNC_POOL1 (k : Nat) : Nat := 0x1009070000 + 0x1008 + 32 * k
def fNC_POOL1_POOL (k : Nat) : Fld := ⟨0 + 4 * k, 4, .rw, 0, .any⟩

/-- Register `NC_POOL2`k (R244). -/
def aNC_POOL2 (k : Nat) : Nat := 0x1009070000 + 0x1010 + 32 * k
def fNC_POOL2_POOL (k : Nat) : Fld := ⟨0 + 4 * k, 4, .rw, 0, .any⟩

/-- Register `NP_CTL`k (R244). -/
def aNP_CTL (k : Nat) : Nat := 0x1009070000 + 0x2000 + 64 * k
def fNP_CTL_EN : Fld := ⟨0, 1, .rw, 0, .any⟩
def fNP_CTL_TREN : Fld := ⟨1, 1, .rw, 0, .any⟩
def fNP_CTL_TRDRAM : Fld := ⟨2, 1, .rw, 0, .any⟩
def fNP_CTL_POINT : Fld := ⟨3, 1, .rw, 0, .any⟩
def fNP_CTL_ROUTER : Fld := ⟨4, 6, .rw, 0, (.le 39)⟩
def fNP_CTL_OPMASK : Fld := ⟨12, 16, .rw, 0, .any⟩
def fNP_CTL_ADREN : Fld := ⟨28, 1, .rw, 0, .any⟩
def fNP_CTL_LOG2 : Fld := ⟨32, 5, .rw, 4, (.range 4 20)⟩
def fNP_CTL_DROPCNT : Fld := ⟨37, 27, .ro, 0, .any⟩

/-- Register `NP_MATCH`k (R244). -/
def aNP_MATCH (k : Nat) : Nat := 0x1009070000 + 0x2008 + 64 * k
def fNP_MATCH_SRC : Fld := ⟨0, 6, .rw, 0, .any⟩
def fNP_MATCH_SRCMSK : Fld := ⟨6, 6, .rw, 0, .any⟩
def fNP_MATCH_DST : Fld := ⟨12, 6, .rw, 0, .any⟩
def fNP_MATCH_DSTMSK : Fld := ⟨18, 6, .rw, 0, .any⟩

/-- Register `NP_ALO`k (R244). -/
def aNP_ALO (k : Nat) : Nat := 0x1009070000 + 0x2010 + 64 * k
def fNP_ALO_ADDR : Fld := ⟨0, 40, .rw, 0, .any⟩

/-- Register `NP_AHI`k (R244). -/
def aNP_AHI (k : Nat) : Nat := 0x1009070000 + 0x2018 + 64 * k
def fNP_AHI_ADDR : Fld := ⟨0, 40, .rw, 0, .any⟩

/-- Register `NP_CNT`k (R244). -/
def aNP_CNT (k : Nat) : Nat := 0x1009070000 + 0x2020 + 64 * k
def fNP_CNT_COUNT : Fld := ⟨0, 48, .ro, 0, .any⟩
def fNP_CNT_CLR : Fld := ⟨63, 1, .wo, 0, .any⟩

/-- Register `NP_WCNT`k (R244). -/
def aNP_WCNT (k : Nat) : Nat := 0x1009070000 + 0x2028 + 64 * k
def fNP_WCNT_COUNT : Fld := ⟨0, 48, .ro, 0, .any⟩
def fNP_WCNT_CLR : Fld := ⟨63, 1, .wo, 0, .any⟩

/-- Register `NP_TRBASE`k (R244). -/
def aNP_TRBASE (k : Nat) : Nat := 0x1009070000 + 0x2030 + 64 * k
def fNP_TRBASE_BASE : Fld := ⟨0, 40, .rw, 0, .any⟩

/-- Register `NP_TRPTR`k (R244). -/
def aNP_TRPTR (k : Nat) : Nat := 0x1009070000 + 0x2038 + 64 * k
def fNP_TRPTR_TRWR : Fld := ⟨0, 32, .ro, 0, .any⟩
def fNP_TRPTR_TRRD : Fld := ⟨32, 32, .rw, 0, .any⟩

/-- Register `DC_CFG` of channel c (R225). -/
def aDC_CFG (c : Nat) : Nat := 0x1009080000 + c * 0x10000
def fDC_CFG_EN : Fld := ⟨0, 1, .rw, 0, .any⟩
def fDC_CFG_CAP : Fld := ⟨1, 2, .rw, 0, (.ge 1)⟩
def fDC_CFG_RANKS : Fld := ⟨3, 1, .rw, 0, .any⟩
def fDC_CFG_HOTPOL : Fld := ⟨4, 2, .rw, 0, (.le 1)⟩

/-- Register `DC_STAT` of channel c (R225). -/
def aDC_STAT (c : Nat) : Nat := 0x1009080000 + c * 0x10000 + 0x8
def fDC_STAT_RSVVAL : Fld := ⟨0, 1, .w1c, 0, .any⟩
def fDC_STAT_HOT2X : Fld := ⟨1, 1, .ro, 0, .any⟩
def fDC_STAT_HOTLIM : Fld := ⟨2, 1, .ro, 0, .any⟩
def fDC_STAT_THROT : Fld := ⟨3, 1, .ro, 0, .any⟩
def fDC_STAT_STOPPED : Fld := ⟨4, 1, .ro, 0, .any⟩
def fDC_STAT_UCE : Fld := ⟨5, 1, .w1c, 0, .any⟩
def fDC_STAT_MR4 : Fld := ⟨16, 8, .ro, 0, .any⟩
def fDC_STAT_DROPCNT : Fld := ⟨32, 32, .ro, 0, .any⟩

/-- Register `DC_ECC` of channel c (R225). -/
def aDC_ECC (c : Nat) : Nat := 0x1009080000 + c * 0x10000 + 0x10
def fDC_ECC_CE : Fld := ⟨0, 32, .ro, 0, .any⟩
def fDC_ECC_UE : Fld := ⟨32, 16, .ro, 0, .any⟩
def fDC_ECC_CLR : Fld := ⟨63, 1, .wo, 0, .any⟩

/-- Register `DC_TRAIN` of channel c (R225). -/
def aDC_TRAIN (c : Nat) : Nat := 0x1009080000 + c * 0x10000 + 0x20
def fDC_TRAIN_IVL : Fld := ⟨0, 13, .ro, 250, .any⟩
def fDC_TRAIN_PAUSECNT : Fld := ⟨16, 16, .ro, 0, .any⟩
def fDC_TRAIN_UNALCNT : Fld := ⟨32, 16, .ro, 0, .any⟩
def fDC_TRAIN_DRIFT : Fld := ⟨48, 8, .ro, 0, .any⟩

/-- Register `DC_TRALIGN` of channel c (R225). -/
def aDC_TRALIGN (c : Nat) : Nat := 0x1009080000 + c * 0x10000 + 0x28
def fDC_TRALIGN_EN : Fld := ⟨0, 1, .rw, 0, .any⟩
def fDC_TRALIGN_ENTRY : Fld := ⟨1, 6, .rw, 0, .any⟩
def fDC_TRALIGN_GRACE : Fld := ⟨8, 10, .rw, 250, (.le 1000)⟩

/-- Register `TU_CTL` (R226). -/
def aTU_CTL : Nat := 0x10090C0000
def fTU_CTL_EN : Fld := ⟨0, 1, .rw, 0, .any⟩
def fTU_CTL_RSVVAL : Fld := ⟨1, 1, .w1c, 0, .any⟩

/-- Register `TU_ROOT` (R226). -/
def aTU_ROOT : Nat := 0x10090C0000 + 0x8
def fTU_ROOT_BASE : Fld := ⟨0, 40, .rw, 0, .any⟩
def fTU_ROOT_LOG2N : Fld := ⟨40, 5, .rw, 0, (.le 19)⟩

/-- Register `TU_INV` (R226). -/
def aTU_INV : Nat := 0x10090C0000 + 0x10
def fTU_INV_GO : Fld := ⟨0, 1, .wo, 0, .any⟩
def fTU_INV_BUSY : Fld := ⟨1, 1, .ro, 0, .any⟩

/-- Register `TU_FAULT` (R226). -/
def aTU_FAULT : Nat := 0x10090C0000 + 0x18
def fTU_FAULT_VA : Fld := ⟨0, 40, .ro, 0, .any⟩
def fTU_FAULT_KIND : Fld := ⟨40, 3, .ro, 0, .any⟩
def fTU_FAULT_LEVEL : Fld := ⟨43, 1, .ro, 0, .any⟩
def fTU_FAULT_WRITE : Fld := ⟨44, 1, .ro, 0, .any⟩
def fTU_FAULT_SRC : Fld := ⟨48, 6, .ro, 0, .any⟩
def fTU_FAULT_CLR : Fld := ⟨63, 1, .wo, 0, .any⟩

/-- Register `TU_STAT` (R226). -/
def aTU_STAT : Nat := 0x10090C0000 + 0x20
def fTU_STAT_FLTCNT : Fld := ⟨0, 32, .ro, 0, .any⟩
def fTU_STAT_WALKCNT : Fld := ⟨32, 32, .ro, 0, .any⟩

/-- Register `JL_CTL` of link j (R306). -/
def aJL_CTL (j : Nat) : Nat := 0x1009100000 + j * 0x10000
def fJL_CTL_RXRST : Fld := ⟨0, 1, .wo, 0, .any⟩
def fJL_CTL_TXRST : Fld := ⟨1, 1, .wo, 0, .any⟩
def fJL_CTL_RXSYNCPAD : Fld := ⟨8, 6, .rw, 0, .any⟩
def fJL_CTL_TXSYNCPAD : Fld := ⟨16, 6, .rw, 0, .any⟩

/-- Register `JL_RXCFG` of link j (R306). -/
def aJL_RXCFG (j : Nat) : Nat := 0x1009100000 + j * 0x10000 + 0x8
def fJL_RXCFG_EN : Fld := ⟨0, 1, .rw, 0, .any⟩
def fJL_RXCFG_STD : Fld := ⟨1, 1, .rw, 0, .any⟩
def fJL_RXCFG_LOG2L : Fld := ⟨2, 2, .rw, 0, .any⟩
def fJL_RXCFG_LOG2M : Fld := ⟨4, 3, .rw, 1, (.range 1 4)⟩
def fJL_RXCFG_LOG2S : Fld := ⟨7, 2, .rw, 0, (.le 2)⟩
def fJL_RXCFG_NP : Fld := ⟨9, 1, .rw, 0, .any⟩
def fJL_RXCFG_N : Fld := ⟨10, 6, .rw, 16, (.range 8 32)⟩
def fJL_RXCFG_MAP : Fld := ⟨16, 2, .rw, 0, (.le 2)⟩
def fJL_RXCFG_KE : Fld := ⟨18, 5, .rw, 0, .any⟩
def fJL_RXCFG_CRC : Fld := ⟨23, 1, .rw, 0, .any⟩
def fJL_RXCFG_SCR : Fld := ⟨24, 1, .rw, 0, .any⟩
def fJL_RXCFG_EP : Fld := ⟨25, 4, .rw, 0, .any⟩
def fJL_RXCFG_BLKLEN : Fld := ⟨29, 13, .rw, 0, .any⟩
def fJL_RXCFG_ALIGN : Fld := ⟨42, 1, .rw, 0, .any⟩

/-- Register `JL_TXCFG` of link j (R306). -/
def aJL_TXCFG (j : Nat) : Nat := 0x1009100000 + j * 0x10000 + 0x10
def fJL_TXCFG_EN : Fld := ⟨0, 1, .rw, 0, .any⟩
def fJL_TXCFG_STD : Fld := ⟨1, 1, .rw, 0, .any⟩
def fJL_TXCFG_LOG2L : Fld := ⟨2, 2, .rw, 0, .any⟩
def fJL_TXCFG_LOG2M : Fld := ⟨4, 3, .rw, 1, (.range 1 4)⟩
def fJL_TXCFG_LOG2S : Fld := ⟨7, 2, .rw, 0, (.le 2)⟩
def fJL_TXCFG_NP : Fld := ⟨9, 1, .rw, 0, .any⟩
def fJL_TXCFG_N : Fld := ⟨10, 6, .rw, 16, (.range 8 32)⟩
def fJL_TXCFG_MAP : Fld := ⟨16, 2, .rw, 0, (.le 2)⟩
def fJL_TXCFG_KE : Fld := ⟨18, 5, .rw, 0, .any⟩
def fJL_TXCFG_CRC : Fld := ⟨23, 1, .rw, 0, .any⟩
def fJL_TXCFG_SCR : Fld := ⟨24, 1, .rw, 0, .any⟩
def fJL_TXCFG_EP : Fld := ⟨25, 4, .rw, 0, .any⟩
def fJL_TXCFG_BLKLEN : Fld := ⟨29, 13, .rw, 0, .any⟩
def fJL_TXCFG_ALIGN : Fld := ⟨42, 1, .rw, 0, .any⟩

/-- Register `JL_LANE` of link j (R306). -/
def aJL_LANE (j : Nat) : Nat := 0x1009100000 + j * 0x10000 + 0x18
def fJL_LANE_RXMAP (k : Nat) : Fld := ⟨0 + 3 * k, 3, .rw, k, .any⟩
def fJL_LANE_TXMAP (k : Nat) : Fld := ⟨24 + 3 * k, 3, .rw, k, .any⟩
def fJL_LANE_RXPOL (k : Nat) : Fld := ⟨48 + 1 * k, 1, .rw, 0, .any⟩
def fJL_LANE_TXPOL (k : Nat) : Fld := ⟨56 + 1 * k, 1, .rw, 0, .any⟩

/-- Register `JL_RATE` of link j (R306). -/
def aJL_RATE (j : Nat) : Nat := 0x1009100000 + j * 0x10000 + 0x20
def fJL_RATE_RXRATE : Fld := ⟨0, 32, .rw, 0, .any⟩
def fJL_RATE_TXRATE : Fld := ⟨32, 32, .rw, 0, .any⟩

/-- Register `JL_RXSR` of link j (R306). -/
def aJL_RXSR (j : Nat) : Nat := 0x1009100000 + j * 0x10000 + 0x28
def fJL_RXSR_MODE : Fld := ⟨0, 1, .rw, 0, .any⟩
def fJL_RXSR_ARM : Fld := ⟨1, 1, .wo, 0, .any⟩
def fJL_RXSR_REALIGN : Fld := ⟨2, 1, .rw, 0, .any⟩
def fJL_RXSR_TOL : Fld := ⟨8, 4, .rw, 1, .any⟩
def fJL_RXSR_OFS : Fld := ⟨16, 16, .rw, 0, .any⟩
def fJL_RXSR_RBD : Fld := ⟨32, 16, .rw, 0, .any⟩

/-- Register `JL_TXSR` of link j (R306). -/
def aJL_TXSR (j : Nat) : Nat := 0x1009100000 + j * 0x10000 + 0x30
def fJL_TXSR_MODE : Fld := ⟨0, 1, .rw, 0, .any⟩
def fJL_TXSR_ARM : Fld := ⟨1, 1, .wo, 0, .any⟩
def fJL_TXSR_REALIGN : Fld := ⟨2, 1, .rw, 0, .any⟩
def fJL_TXSR_TOL : Fld := ⟨8, 4, .rw, 1, .any⟩
def fJL_TXSR_OFS : Fld := ⟨16, 16, .rw, 0, .any⟩
def fJL_TXSR_RBD : Fld := ⟨32, 16, .rw, 0, .any⟩

/-- Register `JL_TRG` of link j (R306). -/
def aJL_TRG (j : Nat) : Nat := 0x1009100000 + j * 0x10000 + 0x38
def fJL_TRG_RXPEN : Fld := ⟨0, 7, .rw, 0, .any⟩
def fJL_TRG_RXTRG : Fld := ⟨7, 3, .rw, 0, .any⟩
def fJL_TRG_TXPEN : Fld := ⟨16, 7, .rw, 0, .any⟩
def fJL_TRG_TXTRG : Fld := ⟨23, 3, .rw, 0, .any⟩

/-- Register `JL_STAT` of link j (R306). -/
def aJL_STAT (j : Nat) : Nat := 0x1009100000 + j * 0x10000 + 0x40
def fJL_STAT_RXUP : Fld := ⟨0, 1, .ro, 0, .any⟩
def fJL_STAT_TXUP : Fld := ⟨1, 1, .ro, 0, .any⟩
def fJL_STAT_RXSRLK : Fld := ⟨2, 1, .ro, 0, .any⟩
def fJL_STAT_TXSRLK : Fld := ⟨3, 1, .ro, 0, .any⟩
def fJL_STAT_SRMISS : Fld := ⟨4, 1, .w1c, 0, .any⟩
def fJL_STAT_PSNTX : Fld := ⟨5, 1, .w1c, 0, .any⟩
def fJL_STAT_CRCERR : Fld := ⟨6, 1, .w1c, 0, .any⟩
def fJL_STAT_RXOVF : Fld := ⟨7, 1, .w1c, 0, .any⟩
def fJL_STAT_TXGAP : Fld := ⟨8, 1, .w1c, 0, .any⟩
def fJL_STAT_CFGERR : Fld := ⟨9, 1, .w1c, 0, .any⟩
def fJL_STAT_CFGBUSY : Fld := ⟨10, 1, .w1c, 0, .any⟩
def fJL_STAT_ILASERR : Fld := ⟨11, 1, .w1c, 0, .any⟩
def fJL_STAT_RSVVAL : Fld := ⟨12, 1, .w1c, 0, .any⟩
def fJL_STAT_MUTED : Fld := ⟨13, 1, .ro, 0, .any⟩
def fJL_STAT_RXLOCK : Fld := ⟨16, 8, .ro, 0, .any⟩

/-- Register `JL_CNT` of link j (R306). -/
def aJL_CNT (j : Nat) : Nat := 0x1009100000 + j * 0x10000 + 0x48
def fJL_CNT_POISON_TX : Fld := ⟨0, 32, .ro, 0, .any⟩
def fJL_CNT_CRCCNT : Fld := ⟨32, 16, .ro, 0, .any⟩
def fJL_CNT_CGERR : Fld := ⟨48, 16, .ro, 0, .any⟩

/-- Register `JL_CNT2` of link j (R306). -/
def aJL_CNT2 (j : Nat) : Nat := 0x1009100000 + j * 0x10000 + 0x50
def fJL_CNT2_TXGAPCNT : Fld := ⟨0, 32, .ro, 0, .any⟩
def fJL_CNT2_RXOVFCNT : Fld := ⟨32, 16, .ro, 0, .any⟩
def fJL_CNT2_SRMISSCNT : Fld := ⟨48, 15, .ro, 0, .any⟩
def fJL_CNT2_CLR : Fld := ⟨63, 1, .wo, 0, .any⟩

/-- Register `JL_SRTS` of link j (R306). -/
def aJL_SRTS (j : Nat) : Nat := 0x1009100000 + j * 0x10000 + 0x58
def fJL_SRTS_NS : Fld := ⟨0, 32, .ro, 0, .any⟩
def fJL_SRTS_SEC : Fld := ⟨32, 32, .ro, 0, .any⟩

/-- Register `ETH_MODE` of MAC m (R307). -/
def aETH_MODE (m : Nat) : Nat := 0x1009140000 + m * 0x10000
def fETH_MODE_MODE : Fld := ⟨0, 2, .rw, 0, (.le 2)⟩
def fETH_MODE_FEC : Fld := ⟨2, 2, .rw, 0, (.le 2)⟩
def fETH_MODE_RSVVAL : Fld := ⟨4, 1, .w1c, 0, .any⟩

/-- Register `ETH_RCLK` of MAC m (R307). -/
def aETH_RCLK (m : Nat) : Nat := 0x1009140000 + m * 0x10000 + 0x10
def fETH_RCLK_EN : Fld := ⟨0, 1, .rw, 0, .any⟩
def fETH_RCLK_LANE : Fld := ⟨1, 4, .rw, 0, .any⟩
def fETH_RCLK_FREQ : Fld := ⟨5, 1, .rw, 0, .any⟩
def fETH_RCLK_SQ : Fld := ⟨6, 1, .ro, 0, .any⟩
def fETH_RCLK_SQCHG : Fld := ⟨7, 1, .w1c, 0, .any⟩

/-- Register `ETH_RXFLOW0`k of MAC m (R307). -/
def aETH_RXFLOW0 (m k : Nat) : Nat := 0x1009140000 + m * 0x10000 + 0x800 + 16 * k
def fETH_RXFLOW0_VALID : Fld := ⟨0, 1, .rw, 0, .any⟩
def fETH_RXFLOW0_TYPE : Fld := ⟨1, 1, .rw, 0, .any⟩
def fETH_RXFLOW0_VIDEN : Fld := ⟨2, 1, .rw, 0, .any⟩
def fETH_RXFLOW0_VID : Fld := ⟨3, 12, .rw, 0, .any⟩
def fETH_RXFLOW0_ID : Fld := ⟨15, 16, .rw, 0, .any⟩
def fETH_RXFLOW0_SUB : Fld := ⟨31, 2, .rw, 0, .any⟩

/-- Register `ETH_RXFLOW1`k of MAC m (R307). -/
def aETH_RXFLOW1 (m k : Nat) : Nat := 0x1009140000 + m * 0x10000 + 0x808 + 16 * k
def fETH_RXFLOW1_PEN : Fld := ⟨0, 7, .rw, 0, .any⟩
def fETH_RXFLOW1_TRG : Fld := ⟨7, 3, .rw, 0, .any⟩
def fETH_RXFLOW1_EP : Fld := ⟨10, 4, .rw, 0, .any⟩
def fETH_RXFLOW1_WF : Fld := ⟨14, 2, .rw, 0, (.le 2)⟩
def fETH_RXFLOW1_BLK : Fld := ⟨16, 4, .rw, 0, .any⟩

/-- Register `ETH_TXFLOW0`k of MAC m (R307). -/
def aETH_TXFLOW0 (m k : Nat) : Nat := 0x1009140000 + m * 0x10000 + 0xC00 + 16 * k
def fETH_TXFLOW0_DA : Fld := ⟨0, 48, .rw, 0, .any⟩
def fETH_TXFLOW0_SUB : Fld := ⟨48, 2, .rw, 0, .any⟩
def fETH_TXFLOW0_NTAG : Fld := ⟨50, 2, .rw, 0, (.le 2)⟩
def fETH_TXFLOW0_TYPE : Fld := ⟨52, 1, .rw, 0, .any⟩
def fETH_TXFLOW0_WF : Fld := ⟨53, 2, .rw, 0, (.le 2)⟩
def fETH_TXFLOW0_BLK : Fld := ⟨55, 4, .rw, 0, .any⟩

/-- Register `ETH_TXFLOW1`k of MAC m (R307). -/
def aETH_TXFLOW1 (m k : Nat) : Nat := 0x1009140000 + m * 0x10000 + 0xC08 + 16 * k
def fETH_TXFLOW1_ID : Fld := ⟨0, 16, .rw, 0, .any⟩
def fETH_TXFLOW1_TCI1 : Fld := ⟨16, 16, .rw, 0, .any⟩
def fETH_TXFLOW1_TCI2 : Fld := ⟨32, 16, .rw, 0, .any⟩
def fETH_TXFLOW1_STAG : Fld := ⟨48, 1, .rw, 0, .any⟩

/-- Register `ETH_PCTL` of sub-port i % 4 of MAC i / 4 (R307). -/
def aETH_PCTL (i : Nat) : Nat := 0x1009140000 + (i / 4) * 0x10000 + (i % 4 + 1) * 0x1000
def fETH_PCTL_EN : Fld := ⟨0, 1, .rw, 0, .any⟩
def fETH_PCTL_PROMISC : Fld := ⟨1, 1, .rw, 0, .any⟩
def fETH_PCTL_EXC : Fld := ⟨2, 1, .rw, 0, .any⟩
def fETH_PCTL_MTU : Fld := ⟨16, 14, .rw, 1518, (.range 1518 9216)⟩

/-- Register `ETH_MAC` of sub-port i % 4 of MAC i / 4 (R307). -/
def aETH_MAC (i : Nat) : Nat := 0x1009140000 + (i / 4) * 0x10000 + (i % 4 + 1) * 0x1000 + 0x8
def fETH_MAC_ADDR : Fld := ⟨0, 48, .rw, 0, .any⟩

/-- Register `ETH_TSLAT` of sub-port i % 4 of MAC i / 4 (R307). -/
def aETH_TSLAT (i : Nat) : Nat := 0x1009140000 + (i / 4) * 0x10000 + (i % 4 + 1) * 0x1000 + 0x10
def fETH_TSLAT_RXLAT : Fld := ⟨0, 16, .rw, 0, .any⟩
def fETH_TSLAT_TXLAT : Fld := ⟨16, 16, .rw, 0, .any⟩

/-- Register `ETH_PSTAT` of sub-port i % 4 of MAC i / 4 (R307). -/
def aETH_PSTAT (i : Nat) : Nat := 0x1009140000 + (i / 4) * 0x10000 + (i % 4 + 1) * 0x1000 + 0x18
def fETH_PSTAT_LINK : Fld := ⟨0, 1, .ro, 0, .any⟩
def fETH_PSTAT_LINKCHG : Fld := ⟨1, 1, .w1c, 0, .any⟩
def fETH_PSTAT_RSVVAL : Fld := ⟨2, 1, .w1c, 0, .any⟩
def fETH_PSTAT_CFGBUSY : Fld := ⟨3, 1, .w1c, 0, .any⟩
def fETH_PSTAT_MUTED : Fld := ⟨4, 1, .ro, 0, .any⟩
def fETH_PSTAT_TSOVF : Fld := ⟨5, 1, .w1c, 0, .any⟩

/-- Register `ETH_TC`k of sub-port i % 4 of MAC i / 4 (R307). -/
def aETH_TC (i k : Nat) : Nat := 0x1009140000 + (i / 4) * 0x10000 + (i % 4 + 1) * 0x1000 + 0x100 + 8 * k
def fETH_TC_EN : Fld := ⟨0, 1, .rw, 0, .any⟩
def fETH_TC_SHEN : Fld := ⟨1, 1, .rw, 0, .any⟩
def fETH_TC_FORGIVE : Fld := ⟨2, 1, .wo, 0, .any⟩
def fETH_TC_PEN : Fld := ⟨3, 7, .rw, 0, .any⟩
def fETH_TC_TRG : Fld := ⟨10, 3, .rw, 0, .any⟩
def fETH_TC_RATE : Fld := ⟨16, 20, .rw, 0, .any⟩
def fETH_TC_BURST : Fld := ⟨36, 16, .rw, 0, .any⟩
def fETH_TC_OVH : Fld := ⟨52, 8, .rw, 20, .any⟩

/-- Register `ETH_TCBKT`k of sub-port i % 4 of MAC i / 4 (R307). -/
def aETH_TCBKT (i k : Nat) : Nat := 0x1009140000 + (i / 4) * 0x10000 + (i % 4 + 1) * 0x1000 + 0x140 + 8 * k
def fETH_TCBKT_BKT : Fld := ⟨0, 36, .ro, 0, .any⟩

/-- Register `ETH_CNT`k of sub-port i % 4 of MAC i / 4 (R307). -/
def aETH_CNT (i k : Nat) : Nat := 0x1009140000 + (i / 4) * 0x10000 + (i % 4 + 1) * 0x1000 + 0x200 + 8 * k
def fETH_CNT_COUNT : Fld := ⟨0, 48, .ro, 0, .any⟩

/-- Register `ETH_CNTCLR` of sub-port i % 4 of MAC i / 4 (R307). -/
def aETH_CNTCLR (i : Nat) : Nat := 0x1009140000 + (i / 4) * 0x10000 + (i % 4 + 1) * 0x1000 + 0x2F8
def fETH_CNTCLR_CLR : Fld := ⟨0, 1, .wo, 0, .any⟩

/-- Register `ETH_TSLO` of sub-port i % 4 of MAC i / 4 (R307). -/
def aETH_TSLO (i : Nat) : Nat := 0x1009140000 + (i / 4) * 0x10000 + (i % 4 + 1) * 0x1000 + 0x300
def fETH_TSLO_NS : Fld := ⟨0, 32, .ro, 0, .any⟩
def fETH_TSLO_TSID : Fld := ⟨32, 16, .ro, 0, .any⟩
def fETH_TSLO_VALID : Fld := ⟨48, 1, .ro, 0, .any⟩

/-- Register `ETH_TSHI` of sub-port i % 4 of MAC i / 4 (R307). -/
def aETH_TSHI (i : Nat) : Nat := 0x1009140000 + (i / 4) * 0x10000 + (i % 4 + 1) * 0x1000 + 0x308
def fETH_TSHI_SEC : Fld := ⟨0, 48, .ro, 0, .any⟩

/-- Register `LK_CTL` of port i (0 LU, 1 LD) (R281). -/
def aLK_CTL (i : Nat) : Nat := 0x1009180000 + i * 0x10000
def fLK_CTL_EN : Fld := ⟨0, 1, .rw, 1, .any⟩
def fLK_CTL_RETRAIN : Fld := ⟨1, 1, .wo, 0, .any⟩
def fLK_CTL_ASYM : Fld := ⟨8, 10, .rw, 0, .any⟩

/-- Register `LK_STAT` of port i (0 LU, 1 LD) (R281). -/
def aLK_STAT (i : Nat) : Nat := 0x1009180000 + i * 0x10000 + 0x8
def fLK_STAT_UP : Fld := ⟨0, 1, .ro, 0, .any⟩
def fLK_STAT_NBFRZ : Fld := ⟨1, 1, .ro, 0, .any⟩
def fLK_STAT_DOWNEV : Fld := ⟨2, 1, .w1c, 0, .any⟩
def fLK_STAT_RSVVAL : Fld := ⟨3, 1, .w1c, 0, .any⟩
def fLK_STAT_LOCK : Fld := ⟨8, 8, .ro, 0, .any⟩
def fLK_STAT_DOWNCNT : Fld := ⟨16, 16, .ro, 0, .any⟩

/-- Register `LK_ERR` of port i (0 LU, 1 LD) (R281). -/
def aLK_ERR (i : Nat) : Nat := 0x1009180000 + i * 0x10000 + 0x10
def fLK_ERR_CRCCNT : Fld := ⟨0, 16, .ro, 0, .any⟩
def fLK_ERR_REPLAYCNT : Fld := ⟨16, 16, .ro, 0, .any⟩
def fLK_ERR_LOSTCNT : Fld := ⟨32, 16, .ro, 0, .any⟩
def fLK_ERR_CLR : Fld := ⟨63, 1, .wo, 0, .any⟩

/-- Register `LK_DM` of port i (0 LU, 1 LD) (R281). -/
def aLK_DM (i : Nat) : Nat := 0x1009180000 + i * 0x10000 + 0x18
def fLK_DM_DELAY : Fld := ⟨0, 24, .ro, 0, .any⟩
def fLK_DM_OFFSET : Fld := ⟨24, 16, .ro, 0, .any⟩

/-- Register `CH_ID` (R282). -/
def aCH_ID : Nat := 0x1009180000 + 0x8000
def fCH_ID_ADDR : Fld := ⟨0, 6, .ro, 0, .any⟩
def fCH_ID_AVLD : Fld := ⟨6, 1, .ro, 0, .any⟩
def fCH_ID_DEV0 : Fld := ⟨7, 1, .ro, 0, .any⟩
def fCH_ID_COUNT : Fld := ⟨8, 7, .ro, 0, .any⟩
def fCH_ID_RING : Fld := ⟨15, 1, .ro, 0, .any⟩
def fCH_ID_CLOSED : Fld := ⟨16, 1, .ro, 0, .any⟩
def fCH_ID_MOVED : Fld := ⟨17, 1, .w1c, 0, .any⟩
def fCH_ID_OVER : Fld := ⟨18, 1, .w1c, 0, .any⟩

/-- Register `CH_DIR` (R282). -/
def aCH_DIR : Nat := 0x1009180000 + 0x8008
def fCH_DIR_DIR : Fld := ⟨0, 64, .ro, 0, .any⟩

/-- Register `CH_REACH` (R282). -/
def aCH_REACH : Nat := 0x1009180000 + 0x8010
def fCH_REACH_REACH : Fld := ⟨0, 64, .ro, 0, .any⟩

/-- Register `CH_PART` (R282). -/
def aCH_PART : Nat := 0x1009180000 + 0x8018
def fCH_PART_POL : Fld := ⟨0, 2, .rw, 0, (.le 2)⟩
def fCH_PART_HOLD : Fld := ⟨8, 16, .rw, 250, .any⟩
def fCH_PART_ISOL : Fld := ⟨32, 1, .ro, 0, .any⟩
def fCH_PART_MUTED : Fld := ⟨33, 1, .ro, 0, .any⟩
def fCH_PART_RECON : Fld := ⟨34, 1, .w1c, 0, .any⟩
def fCH_PART_BEHINDFRZ : Fld := ⟨35, 1, .ro, 0, .any⟩

/-- Register `CH_HB` (R282). -/
def aCH_HB : Nat := 0x1009180000 + 0x8020
def fCH_HB_MISSCNT : Fld := ⟨0, 16, .ro, 0, .any⟩
def fCH_HB_HBAGE : Fld := ⟨16, 16, .ro, 0, .any⟩
def fCH_HB_HBSEQ : Fld := ⟨32, 32, .ro, 0, .any⟩

/-- Register `CH_TA` (R282). -/
def aCH_TA : Nat := 0x1009180000 + 0x8028
def fCH_TA_EN : Fld := ⟨0, 1, .rw, 1, .any⟩
def fCH_TA_LOCK : Fld := ⟨1, 1, .ro, 0, .any⟩
def fCH_TA_UPPORT : Fld := ⟨2, 1, .ro, 0, .any⟩
def fCH_TA_STEP : Fld := ⟨3, 1, .w1c, 0, .any⟩
def fCH_TA_OFFSET : Fld := ⟨16, 16, .ro, 0, .any⟩

/-- Register `CH_TMO` (R282). -/
def aCH_TMO : Nat := 0x1009180000 + 0x8030
def fCH_TMO_TMO : Fld := ⟨0, 17, .rw, 1000, (.ge 100)⟩
def fCH_TMO_TMOCNT : Fld := ⟨32, 16, .ro, 0, .any⟩
def fCH_TMO_LATECNT : Fld := ⟨48, 16, .ro, 0, .any⟩

/-- Register `CH_EVSEND` (R282). -/
def aCH_EVSEND : Nat := 0x1009180000 + 0x8038
def fCH_EVSEND_K : Fld := ⟨0, 2, .rw, 0, .any⟩
def fCH_EVSEND_TGT : Fld := ⟨2, 8, .rw, 0, .target⟩
def fCH_EVSEND_YARDS : Fld := ⟨10, 16, .rw, 0, .any⟩
def fCH_EVSEND_GO : Fld := ⟨63, 1, .wo, 0, .any⟩

/-- Register `CH_CNT` (R282). -/
def aCH_CNT : Nat := 0x1009180000 + 0x8040
def fCH_CNT_HOPDROP : Fld := ⟨0, 16, .ro, 0, .any⟩
def fCH_CNT_NOROUTE : Fld := ⟨16, 16, .ro, 0, .any⟩
def fCH_CNT_POOLOVF : Fld := ⟨32, 16, .ro, 0, .any⟩
def fCH_CNT_CLR : Fld := ⟨63, 1, .wo, 0, .any⟩

/-- Register `CH_POOL`k (R282). -/
def aCH_POOL (k : Nat) : Nat := 0x1009180000 + 0x8100 + 8 * k
def fCH_POOL_POOL (k : Nat) : Fld := ⟨0 + 8 * k, 8, .rw, 0, .any⟩

/-- Register `LOG_CTL` (R450). -/
def aLOG_CTL : Nat := 0x10091C0000
def fLOG_CTL_SPILL : Fld := ⟨0, 1, .rw, 0, .any⟩
def fLOG_CTL_LOG2 : Fld := ⟨1, 5, .rw, 8, (.range 8 24)⟩

/-- Register `LOG_SPBASE` (R450). -/
def aLOG_SPBASE : Nat := 0x10091C0000 + 0x8
def fLOG_SPBASE_BASE : Fld := ⟨0, 40, .rw, 0, .any⟩

/-- Register `LOG_SPRD` (R450). -/
def aLOG_SPRD : Nat := 0x10091C0000 + 0x10
def fLOG_SPRD_RD : Fld := ⟨0, 32, .rw, 0, .any⟩

/-- Register `AL_STAT` (R450). -/
def aAL_STAT : Nat := 0x10091C0000 + 0x18
def fAL_STAT_WRIDX : Fld := ⟨0, 32, .ro, 0, .any⟩
def fAL_STAT_QDROP : Fld := ⟨32, 16, .ro, 0, .any⟩
def fAL_STAT_SPDROP : Fld := ⟨48, 8, .ro, 0, .any⟩
def fAL_STAT_MPCE : Fld := ⟨56, 8, .ro, 0, .any⟩

/-- Register `MO_CTL` (R206). -/
def aMO_CTL : Nat := 0x10091D0000
def fMO_CTL_EN : Fld := ⟨0, 1, .rw, 0, .any⟩
def fMO_CTL_PACE : Fld := ⟨16, 16, .rw, 16000, .any⟩

/-- Register `MO_STAT` (R206). -/
def aMO_STAT : Nat := 0x10091D0000 + 0x8
def fMO_STAT_ACTIVE : Fld := ⟨0, 1, .ro, 0, .any⟩
def fMO_STAT_PROG : Fld := ⟨16, 14, .ro, 0, .any⟩
def fMO_STAT_PASSCNT : Fld := ⟨32, 32, .ro, 0, .any⟩

/-- Register `MO_FIND` (R206). -/
def aMO_FIND : Nat := 0x10091D0000 + 0x10
def fMO_FIND_CE : Fld := ⟨0, 16, .ro, 0, .any⟩
def fMO_FIND_PSN : Fld := ⟨16, 16, .ro, 0, .any⟩
def fMO_FIND_RPR : Fld := ⟨32, 16, .ro, 0, .any⟩
def fMO_FIND_DEGR : Fld := ⟨48, 16, .ro, 0, .any⟩

/-- Register `MO_CLR` (R206). -/
def aMO_CLR : Nat := 0x10091D0000 + 0x18
def fMO_CLR_CLR : Fld := ⟨0, 1, .wo, 0, .any⟩

/-- Register `MO_POS`k (R206). -/
def aMO_POS (k : Nat) : Nat := 0x10091D0000 + 0x100 + 8 * k
def fMO_POS_MEM : Fld := ⟨0, 4, .ro, 0, .any⟩
def fMO_POS_BANK : Fld := ⟨4, 4, .ro, 0, .any⟩
def fMO_POS_ROW : Fld := ⟨8, 13, .ro, 0, .any⟩
def fMO_POS_SPARE : Fld := ⟨21, 1, .ro, 0, .any⟩
def fMO_POS_WAIT : Fld := ⟨22, 1, .ro, 0, .any⟩
def fMO_POS_PROG : Fld := ⟨32, 14, .ro, 0, .any⟩

/-- Register `RPR_BANK`k (R206). -/
def aRPR_BANK (k : Nat) : Nat := 0x10091D0000 + 0x1000 + 8 * k
def fRPR_BANK_ROW (k : Nat) : Fld := ⟨0 + 16 * k, 13, .ro, 0, .any⟩
def fRPR_BANK_USED (k : Nat) : Fld := ⟨13 + 16 * k, 1, .ro, 0, .any⟩
def fRPR_BANK_FAILED (k : Nat) : Fld := ⟨14 + 16 * k, 1, .ro, 0, .any⟩

/-- Register `RPR_DEGR`k (R206). -/
def aRPR_DEGR (k : Nat) : Nat := 0x10091D0000 + 0x3800 + 8 * k
def fRPR_DEGR_DEG : Fld := ⟨0, 64, .ro, 0, .any⟩

/-- Register `RPR_BAD`k (R206). -/
def aRPR_BAD (k : Nat) : Nat := 0x10091D0000 + 0x4000 + 8 * k
def fRPR_BAD_BANK : Fld := ⟨0, 11, .ro, 0, .any⟩
def fRPR_BAD_ROW : Fld := ⟨11, 13, .ro, 0, .any⟩
def fRPR_BAD_VALID : Fld := ⟨24, 1, .ro, 0, .any⟩

/-- Register `FR_CTL` (R450). -/
def aFR_CTL : Nat := 0x10091E0000
def fFR_CTL_PROP : Fld := ⟨0, 1, .rw, 0, .any⟩
def fFR_CTL_RPROP : Fld := ⟨1, 1, .rw, 0, .any⟩
def fFR_CTL_DRAMRD : Fld := ⟨2, 1, .rw, 0, .any⟩
def fFR_CTL_TARM : Fld := ⟨3, 1, .wo, 0, .any⟩
def fFR_CTL_TCANCEL : Fld := ⟨4, 1, .wo, 0, .any⟩

/-- Register `FR_STAT` (R450). -/
def aFR_STAT : Nat := 0x10091E0000 + 0x8
def fFR_STAT_LATE : Fld := ⟨0, 1, .w1c, 0, .any⟩
def fFR_STAT_TPEND : Fld := ⟨1, 1, .ro, 0, .any⟩
def fFR_STAT_DRAMOUT : Fld := ⟨2, 1, .ro, 0, .any⟩
def fFR_STAT_FRZCNT : Fld := ⟨32, 32, .ro, 0, .any⟩

/-- Register `FR_TSEC` (R450). -/
def aFR_TSEC : Nat := 0x10091E0000 + 0x10
def fFR_TSEC_SEC : Fld := ⟨0, 48, .rw, 0, .any⟩

/-- Register `FR_TNS` (R450). -/
def aFR_TNS : Nat := 0x10091E0000 + 0x18
def fFR_TNS_NS : Fld := ⟨0, 30, .rw, 0, (.le 999999999)⟩

/-- Register `HI_ID` (R348). -/
def aHI_ID : Nat := bar0Base
def fHI_ID_FAMILY : Fld := ⟨0, 8, .ro, 72, .any⟩
def fHI_ID_PART : Fld := ⟨8, 8, .ro, 114, .any⟩
def fHI_ID_MINOR : Fld := ⟨16, 4, .ro, 0, .any⟩
def fHI_ID_MAJOR : Fld := ⟨20, 4, .ro, 0, .any⟩

/-- Register `HI_UID`k (R348). -/
def aHI_UID (k : Nat) : Nat := bar0Base + 0x8 + 8 * k
def fHI_UID_UID : Fld := ⟨0, 64, .ro, 0, .any⟩

/-- Register `HI_STAT` (R348). -/
def aHI_STAT : Nat := bar0Base + 0x18
def fHI_STAT_STATE : Fld := ⟨0, 3, .ro, 0, .any⟩
def fHI_STAT_FWRDY : Fld := ⟨3, 1, .ro, 0, .any⟩
def fHI_STAT_CHRDY : Fld := ⟨4, 1, .ro, 0, .any⟩
def fHI_STAT_DEV0 : Fld := ⟨5, 1, .ro, 0, .any⟩
def fHI_STAT_LSPD : Fld := ⟨8, 4, .ro, 0, .any⟩
def fHI_STAT_LWID : Fld := ⟨12, 4, .ro, 0, .any⟩
def fHI_STAT_DBERR : Fld := ⟨16, 1, .w1c, 0, .any⟩
def fHI_STAT_MBWR : Fld := ⟨17, 1, .w1c, 0, .any⟩
def fHI_STAT_MBUCE : Fld := ⟨18, 1, .w1c, 0, .any⟩

/-- Register `HI_DBELL` (R348). -/
def aHI_DBELL : Nat := bar0Base + 0x20
def fHI_DBELL_POST : Fld := ⟨0, 16, .wo, 0, .any⟩

/-- Register `HI_DONE` (R348). -/
def aHI_DONE : Nat := bar0Base + 0x28
def fHI_DONE_DONE : Fld := ⟨0, 16, .w1c, 0, .any⟩
def fHI_DONE_BUSY : Fld := ⟨16, 16, .ro, 0, .any⟩

/-- Register `HI_ABORT` (R348). -/
def aHI_ABORT : Nat := bar0Base + 0x30
def fHI_ABORT_ABORT : Fld := ⟨0, 16, .wo, 0, .any⟩

/-- Register `HI_FRZ` (R348). -/
def aHI_FRZ : Nat := bar0Base + 0x38
def fHI_FRZ_FRZ : Fld := ⟨0, 1, .wo, 0, .any⟩
def fHI_FRZ_RESUME : Fld := ⟨1, 1, .wo, 0, .any⟩
def fHI_FRZ_FROZEN : Fld := ⟨2, 1, .ro, 0, .any⟩
def fHI_FRZ_DRAMSR : Fld := ⟨3, 1, .ro, 0, .any⟩
def fHI_FRZ_LINKRT : Fld := ⟨4, 1, .w1c, 0, .any⟩
def fHI_FRZ_CAUSE : Fld := ⟨5, 3, .ro, 0, .any⟩

/-- Register `HI_ALSUM` (R348). -/
def aHI_ALSUM : Nat := bar0Base + 0x40
def fHI_ALSUM_CLS : Fld := ⟨0, 4, .w1c, 0, .any⟩
def fHI_ALSUM_ALCNT : Fld := ⟨32, 32, .ro, 0, .any⟩

/-- Register `HI_DROP` (R348). -/
def aHI_DROP : Nat := bar0Base + 0x48
def fHI_DROP_DROPCNT : Fld := ⟨0, 32, .ro, 0, .any⟩
def fHI_DROP_CLR : Fld := ⟨63, 1, .wo, 0, .any⟩

/-- Register `HI_SCRATCH` (R348). -/
def aHI_SCRATCH : Nat := bar0Base + 0x50
def fHI_SCRATCH_SCR : Fld := ⟨0, 64, .rw, 0, .any⟩

/-- Register `MSIX_ADDR`k (R348). -/
def aMSIX_ADDR (k : Nat) : Nat := bar0Base + 0x800 + 16 * k
def fMSIX_ADDR_ADDR : Fld := ⟨0, 64, .rw, 0, .any⟩

/-- Register `MSIX_CTL`k (R348). -/
def aMSIX_CTL (k : Nat) : Nat := bar0Base + 0x808 + 16 * k
def fMSIX_CTL_DATA : Fld := ⟨0, 32, .rw, 0, .any⟩
def fMSIX_CTL_MASK : Fld := ⟨32, 1, .rw, 1, .any⟩

/-- Register `MSIX_PBA` (R348). -/
def aMSIX_PBA : Nat := bar0Base + 0xC00
def fMSIX_PBA_PEND : Fld := ⟨0, 64, .ro, 0, .any⟩

/-- Register `AP`k (R28). -/
def aAP (k : Nat) : Nat := bar0Base + 0x1000 + 8 * k
def fAP_EN : Fld := ⟨0, 1, .rw, 0, .any⟩
def fAP_VIEW : Fld := ⟨1, 1, .rw, 0, .any⟩
def fAP_DEV (k : Nat) : Fld := ⟨8, 6, .rw, k, .any⟩
def fAP_BASE : Fld := ⟨16, 10, .rw, 0, .any⟩

/-- The registers of block PEN. -/
def regsPEN : List RegDesc :=
  [⟨0x6000, 8, 128, fun _ => [fTRG_CFG_EN, fTRG_CFG_STRICT, fTRG_CFG_PSIDE, fTRG_CFG_CSIDE, fTRG_CFG_LOG2D, fTRG_CFG_BASE]⟩,
   ⟨0x6008, 8, 128, fun _ => [fTRG_PTR_WP, fTRG_PTR_RP, fTRG_PTR_RL, fTRG_PTR_MK]⟩,
   ⟨0x6010, 8, 128, fun _ => [fTRG_CNT_READABLE, fTRG_CNT_OCCUP, fTRG_CNT_SLOT, fTRG_CNT_OPEN, fTRG_CNT_OVFD]⟩,
   ⟨0x6018, 8, 128, fun _ => [fTRG_HWM_HWM]⟩,
   ⟨0x6020, 8, 128, fun _ => [fTRG_STAT_RSVVAL, fTRG_STAT_CFGBUSY, fTRG_STAT_RELCLAMP, fTRG_STAT_MARKLOST, fTRG_STAT_PKTSEQ, fTRG_STAT_PKTOVF, fTRG_STAT_DISOP, fTRG_STAT_COLL, fTRG_STAT_UCE, fTRG_STAT_ABTCNT, fTRG_STAT_REFCNT]⟩,
   ⟨0x6028, 8, 128, fun _ => [fTRG_ECC_CECNT, fTRG_ECC_UECNT, fTRG_ECC_CLR]⟩,
   ⟨0x6030, 8, 128, fun _ => [fTRG_FWD_PEN, fTRG_FWD_TRG, fTRG_FWD_DEV]⟩,
   ⟨0x6038, 8, 128, fun _ => [fTRG_CMD_FLUSH, fTRG_CMD_CLRCNT]⟩,
   ⟨0x6400, 1, 8, fun _ => [fPM_STAT_CONFL, fPM_STAT_STARVED, fPM_STAT_UCE, fPM_STAT_CONFLCNT, fPM_STAT_RUN, fPM_STAT_STARVCNT]⟩,
   ⟨0x6408, 1, 8, fun _ => (List.range 8).map fPM_ECC_CE⟩,
   ⟨0x6410, 1, 8, fun _ => [fPM_CLR_CLR]⟩,
   ⟨0x6500, 2, 32, fun _ => [fPS_CTL_EN, fPS_CTL_DIR, fPS_CTL_REPEAT, fPS_CTL_TRG, fPS_CTL_DONE, fPS_CTL_NOSIDE, fPS_CTL_CFGBUSY]⟩,
   ⟨0x6508, 2, 32, fun _ => [fPS_ADDR_BASE, fPS_ADDR_STRIDE]⟩,
   ⟨0x6510, 2, 32, fun _ => [fPS_CNT_COUNT, fPS_CNT_POS]⟩,
   ⟨0x7000, 1, 8, fun _ => (List.range 4).map fPEN_CTXRES_CTX ++ (List.range 4).map fPEN_CTXRES_VLD ++ (List.range 4).map fPEN_CTXRES_PIN ++ (List.range 4).map fPEN_CTXRES_DIRTY⟩,
   ⟨0x7008, 1, 8, fun _ => (List.range 16).map fPEN_CTXKIND_KIND ++ (List.range 16).map fPEN_CTXKIND_SAVED⟩,
   ⟨0x7010, 1, 8, fun _ => [fPEN_CTXSTAT_LASTCTX, fPEN_CTXSTAT_LASTVICTIM, fPEN_CTXSTAT_LASTNRES, fPEN_CTXSTAT_LASTW, fPEN_CTXSTAT_LASTR, fPEN_CTXSTAT_WRINUSE, fPEN_CTXSTAT_RSTPSN, fPEN_CTXSTAT_RSVVAL, fPEN_CTXSTAT_NOVICT, fPEN_CTXSTAT_NRESCNT]⟩,
   ⟨0x7018, 1, 8, fun _ => [fPEN_CTXLOAD_CTX, fPEN_CTXLOAD_GO, fPEN_CTXLOAD_BUSY, fPEN_CTXLOAD_DONE, fPEN_CTXLOAD_FAIL]⟩,
   ⟨0x7040, 16, 8, fun _ => [fPEN_SPILL_BASE]⟩,
   ⟨0xC000, 1, 8, fun _ => [fPEN_STALL_STALLCNT, fPEN_STALL_LASTTRG, fPEN_STALL_LASTKIND, fPEN_STALL_CLR]⟩,
   ⟨0xC008, 1, 8, fun _ => [fPEN_XLOST_XLOST, fPEN_XLOST_XCLOST, fPEN_XLOST_XCLATE, fPEN_XLOST_CLR]⟩,
   ⟨0xC010, 1, 8, fun _ => [fPEN_XCSTAT_YB, fPEN_XCSTAT_LATE, fPEN_XCSTAT_CLOSED, fPEN_XCSTAT_RSVVAL]⟩]

/-- The registers of block FU. -/
def regsFU : List RegDesc :=
  [⟨0x0, 16, 8, fun _ => [fFU_CST_OVF, fFU_CST_SATD, fFU_CST_ACCOVF, fFU_CST_EOVF, fFU_CST_EUNF, fFU_CST_PSN, fFU_CST_UNDEF, fFU_CST_RSVFLD, fFU_CST_PSNCNT, fFU_CST_CLRCNT]⟩,
   ⟨0x100, 1, 8, fun _ => [fFU_ERRMASK_EVEN]⟩,
   ⟨0x108, 1, 8, fun _ => [fFU_RUN_CTX, fFU_RUN_BANK, fFU_RUN_BYEP, fFU_RUN_PREVCTX]⟩,
   ⟨0x110, 1, 8, fun _ => [fFU_EPOCH_SKEWCNT, fFU_EPOCH_REJCNT, fFU_EPOCH_REJ, fFU_EPOCH_CLR]⟩,
   ⟨0x200, 16, 8, fun c => [fFU_CTXCTL_FOLLOW, fFU_CTXCTL_TRGEN, fFU_CTXCTL_TRG, { fFU_CTXCTL_FSET with lim := .without c }]⟩]

/-- The registers of block SCH. -/
def regsSCH : List RegDesc :=
  [⟨0x0, 1, 8, fun _ => [fSCH_CTL_EN, fSCH_CTL_TREN, fSCH_CTL_TRDRAM]⟩,
   ⟨0x8, 1, 8, fun _ => [fSCH_STAT_RSVVAL, fSCH_STAT_WRBUSY, fSCH_STAT_OVR, fSCH_STAT_TRERR, fSCH_STAT_OVRCNT, fSCH_STAT_DISPCNT]⟩,
   ⟨0x10, 1, 8, fun _ => (List.range 8).map fSCH_PENSTAT_TASK ++ (List.range 8).map fSCH_PENSTAT_HELD⟩,
   ⟨0x18, 1, 8, fun _ => [fSCH_DBELL_BELL]⟩,
   ⟨0x20, 2, 8, fun _ => (List.range 32).map fSCH_TSTATE_TS⟩,
   ⟨0x40, 4, 8, fun _ => [fSCH_EVSEEN_SEEN]⟩,
   ⟨0x80, 1, 8, fun _ => [fSCH_TRBASE_BASE]⟩,
   ⟨0x88, 1, 8, fun _ => [fSCH_TRSIZE_LOG2]⟩,
   ⟨0x90, 1, 8, fun _ => [fSCH_TRWR_WR]⟩,
   ⟨0x98, 1, 8, fun _ => [fSCH_TRRD_RD]⟩,
   ⟨0xA0, 1, 8, fun _ => [fSCH_TRDROP_DROP]⟩,
   ⟨0x100, 64, 16, fun _ => [fSCH_TASK0_VALID, fSCH_TASK0_CTX, fSCH_TASK0_PENMASK, fSCH_TASK0_PRIO, fSCH_TASK0_PREEMPT, fSCH_TASK0_ALL, fSCH_TASK0_TRGEN, fSCH_TASK0_DONEEN, fSCH_TASK0_PRELDEN, fSCH_TASK0_PRELD, fSCH_TASK0_GROUP, fSCH_TASK0_GRPEN]⟩,
   ⟨0x108, 64, 16, fun _ => (List.range 4).map fSCH_TASK1_TRG ++ [fSCH_TASK1_DONEEV]⟩]

/-- The registers of block LOFT. -/
def regsLOFT : List RegDesc :=
  [⟨0x0, 1, 8, fun _ => [fLOFT_STAT_CONFL, fLOFT_STAT_STARVED, fLOFT_STAT_UCE, fLOFT_STAT_CONFLCNT, fLOFT_STAT_RUN, fLOFT_STAT_STARVCNT]⟩,
   ⟨0x8, 1, 8, fun _ => (List.range 16).map fLOFT_ECC_CE⟩,
   ⟨0x10, 1, 8, fun _ => [fLOFT_CLR_CLR]⟩]

/-- The registers of block YP. -/
def regsYP : List RegDesc :=
  [⟨0x0, 1, 8, fun _ => [fYP_CTL_MODE, fYP_CTL_DIV]⟩,
   ⟨0x8, 1, 8, fun _ => [fYP_VOLT_CODE, fYP_VOLT_ACT]⟩,
   ⟨0x10, 1, 8, fun _ => [fYP_CLKEN_RUNMUCK, fYP_CLKEN_RUNMON, fYP_CLKEN_SLPMUCK, fYP_CLKEN_SLPMON, fYP_CLKEN_DEEPMON, fYP_CLKEN_RUNARRAY, fYP_CLKEN_RUNMEM, fYP_CLKEN_RUNSCHED, fYP_CLKEN_RUNSENS, fYP_CLKEN_SLPSENS, fYP_CLKEN_DEEPSENS]⟩,
   ⟨0x18, 1, 8, fun _ => [fYP_STAT_MODE, fYP_STAT_DIV, fYP_STAT_TRANS, fYP_STAT_REFUSED, fYP_STAT_RSVVAL, fYP_STAT_PDABORT, fYP_STAT_TEMP]⟩]

/-- The registers of block AG. -/
def regsAG : List RegDesc :=
  [⟨0x0, 1, 8, fun _ => [fAG_CTL_WINGO, fAG_CTL_ROGO, fAG_CTL_GUARD]⟩,
   ⟨0x8, 1, 8, fun _ => [fAG_SLACK_NEARCNT, fAG_SLACK_TRANSCNT]⟩,
   ⟨0x10, 1, 8, fun _ => [fAG_SLACKMAP_MAP, fAG_SLACKMAP_BUSY]⟩,
   ⟨0x20, 4, 8, fun _ => [fAG_RO_SCNT, fAG_RO_UCNT]⟩,
   ⟨0x40, 1, 8, fun _ => [fAG_EM_PPM]⟩,
   ⟨0x48, 1, 8, fun _ => [fAG_STAT_ROBUSY, fAG_STAT_RSVVAL]⟩]

/-- The registers of block DV. -/
def regsDV : List RegDesc :=
  [⟨0x0, 1, 8, fun _ => [fDV_BOOT_BOOTSEL, fDV_BOOT_REFSEL, fDV_BOOT_HOSTPORT, fDV_BOOT_STAGE, fDV_BOOT_COPY, fDV_BOOT_AFAIL, fDV_BOOT_BFAIL, fDV_BOOT_FAILSTEP, fDV_BOOT_SEQNO]⟩,
   ⟨0x8, 1, 8, fun _ => [fDV_RST_CAUSE, fDV_RST_LASTDOM, fDV_RST_DRSTCNT]⟩,
   ⟨0x10, 1, 8, fun _ => [fDV_XQ_QCNT, fDV_XQ_XDISC, fDV_XQ_CLR]⟩,
   ⟨0x18, 1, 8, fun _ => [fDV_CTL_AUTORUN, fDV_CTL_RSVVAL]⟩]

/-- The registers of block CRD. -/
def regsCRD : List RegDesc :=
  [⟨0x0, 16, 8, fun _ => [fCRD_GRP_YARDS, fCRD_GRP_EN]⟩,
   ⟨0x100, 1, 8, fun _ => [fCRD_TICK_TICK]⟩,
   ⟨0x108, 1, 8, fun _ => [fCRD_LATCH_LATCH]⟩,
   ⟨0x110, 1, 8, fun _ => [fCRD_TICKL_TICKL]⟩]

/-- The registers of block TB. -/
def regsTB : List RegDesc :=
  [⟨0x0, 1, 8, fun _ => [fTB_CTL_HOEN, fTB_CTL_TSRC, fTB_CTL_RSVVAL, fTB_CTL_INCLIM, fTB_CTL_CHOWN, fTB_CTL_STEPPED]⟩,
   ⟨0x8, 1, 8, fun _ => [fTB_INC_INC]⟩,
   ⟨0x10, 1, 8, fun _ => [fTB_HO_H, fTB_HO_EFF]⟩,
   ⟨0x18, 1, 8, fun _ => [fTB_STEP_OFS, fTB_STEP_GO]⟩,
   ⟨0x20, 1, 8, fun _ => [fTB_SET0_SEC]⟩,
   ⟨0x28, 1, 8, fun _ => [fTB_SET1_NS, fTB_SET1_GO]⟩,
   ⟨0x30, 1, 8, fun _ => [fTB_TIME0_FRAC, fTB_TIME0_NS]⟩,
   ⟨0x38, 1, 8, fun _ => [fTB_TIME1_SEC]⟩,
   ⟨0x40, 1, 8, fun _ => [fTB_LAT0_FRAC, fTB_LAT0_NS]⟩,
   ⟨0x48, 1, 8, fun _ => [fTB_LAT1_SEC]⟩,
   ⟨0x50, 1, 8, fun _ => [fTB_CAPIN_EN, fTB_CAPIN_PAD, fTB_CAPIN_EDGE, fTB_CAPIN_VALID, fTB_CAPIN_OVR]⟩,
   ⟨0x58, 1, 8, fun _ => [fTB_CAP0_FRAC, fTB_CAP0_NS]⟩,
   ⟨0x60, 1, 8, fun _ => [fTB_CAP1_SEC]⟩,
   ⟨0x68, 1, 8, fun _ => [fTB_PPS_EN, fTB_PPS_PAD, fTB_PPS_WIDTH]⟩,
   ⟨0x70, 1, 8, fun _ => [fTB_TEMP_TEMP, fTB_TEMP_DIE]⟩,
   ⟨0x78, 1, 8, fun _ => [fTB_TCCFG_BASE, fTB_TCCFG_STEP]⟩,
   ⟨0x80, 1, 8, fun _ => [fTB_AGERATE_RATE]⟩,
   ⟨0x88, 1, 8, fun _ => [fTB_AGEACC_AG]⟩,
   ⟨0x100, 32, 8, fun _ => [fTB_TCTAB_CORR]⟩]

/-- The registers of block GS. -/
def regsGS : List RegDesc :=
  [⟨0x0, 64, 64, fun _ => [fGS_CTL_ARM, fGS_CTL_PINEN, fGS_CTL_EVMODE, fGS_CTL_PAD, fGS_CTL_POL]⟩,
   ⟨0x8, 64, 64, fun _ => [fGS_STARTS_SEC]⟩,
   ⟨0x10, 64, 64, fun _ => [fGS_STARTN_NS, fGS_STARTN_SUB]⟩,
   ⟨0x18, 64, 64, fun _ => [fGS_STOPS_SEC]⟩,
   ⟨0x20, 64, 64, fun _ => [fGS_STOPN_NS, fGS_STOPN_SUB]⟩,
   ⟨0x28, 64, 64, fun _ => [fGS_PERIOD_PERIOD, fGS_PERIOD_SUB, fGS_PERIOD_COUNT]⟩,
   ⟨0x30, 64, 64, fun _ => [fGS_STAT_OPEN, fGS_STAT_NOPAD, fGS_STAT_INVWR, fGS_STAT_RSVVAL, fGS_STAT_LATECNT, fGS_STAT_EMPTYCNT, fGS_STAT_FIRECNT]⟩,
   ⟨0x1000, 1, 8, fun _ => [fGS_CLR_CLR]⟩]

/-- The registers of block TF. -/
def regsTF : List RegDesc :=
  [⟨0x0, 1, 8, fun _ => [fTF_CTL_EN, fTF_CTL_RSVVAL, fTF_CTL_CFGBUSY]⟩,
   ⟨0x8, 1, 8, fun _ => [fTF_FCNT_FCNT]⟩,
   ⟨0x100, 16, 8, fun _ => [fTF_TAP_PEN, fTF_TAP_TRG, fTF_TAP_KIND, fTF_TAP_EN]⟩,
   ⟨0x400, 4, 8, fun _ => [fFIO_BANK_V33, fFIO_BANK_ACT33, fFIO_BANK_OFF, fFIO_BANK_VLOW]⟩,
   ⟨0x800, 64, 8, fun _ => [fFIO_PAD_DRV, fFIO_PAD_PULL, fFIO_PAD_FCLAIM, fFIO_PAD_OWNER, fFIO_PAD_LOST, fFIO_PAD_IN]⟩,
   ⟨0x1000, 1, 8, fun _ => [fCAP_CTL_MODE, fCAP_CTL_ARM, fCAP_CTL_CANCEL]⟩,
   ⟨0x1008, 1, 8, fun _ => [fCAP_EDGE_EDGE]⟩,
   ⟨0x1010, 1, 8, fun _ => [fCAP_TSEC_SEC]⟩,
   ⟨0x1018, 1, 8, fun _ => [fCAP_TNS_NS]⟩,
   ⟨0x1020, 1, 8, fun _ => [fCAP_STAT_BUSY, fCAP_STAT_DONE, fCAP_STAT_LATE, fCAP_STAT_RSVVAL, fCAP_STAT_SEQ]⟩,
   ⟨0x1028, 1, 8, fun _ => [fCAP_PAGE_PAGE]⟩]

/-- The registers of block CLK. -/
def regsCLK : List RegDesc :=
  [⟨0x0, 1, 8, fun _ => [fCLK_CTL_AUTORELOCK, fCLK_CTL_RELOCK]⟩,
   ⟨0x8, 1, 8, fun _ => [fCLK_STAT_REFPRES, fCLK_STAT_REFLOST, fCLK_STAT_ROOTHOLD, fCLK_STAT_DRAMHOLD, fCLK_STAT_XCVRHOLD, fCLK_STAT_RELOCKING, fCLK_STAT_DEADSW, fCLK_STAT_UNLOCK, fCLK_STAT_REFSEL, fCLK_STAT_RSVVAL, fCLK_STAT_DEADCNT]⟩,
   ⟨0x10, 1, 8, fun _ => [fCLK_LOSSTICK_TICK]⟩,
   ⟨0x18, 1, 8, fun _ => [fCLK_DEADSRC_MUX]⟩]

/-- The registers of block PW. -/
def regsPW : List RegDesc :=
  [⟨0x0, 1, 8, fun _ => [fPW_VIN_MV, fPW_VIN_CUR, fPW_VIN_MW]⟩,
   ⟨0x8, 1, 8, fun _ => [fPW_STAT_VINLOW, fPW_STAT_VINHIGH, fPW_STAT_RAILFLT, fPW_STAT_OCP, fPW_STAT_FLTRAIL]⟩,
   ⟨0x100, 25, 8, fun _ => [fPW_RAIL_MV, fPW_RAIL_CUR, fPW_RAIL_OK]⟩]

/-- The registers of block NET. -/
def regsNET : List RegDesc :=
  [⟨0x0, 40, 8, fun _ => [fNR_STAT_CRCCNT, fNR_STAT_PSNCNT, fNR_STAT_HDRCE, fNR_STAT_HDRUE, fNR_STAT_NOCRED, fNR_STAT_RSVVAL, fNR_STAT_WAITBUF, fNR_STAT_CLR]⟩,
   ⟨0x200, 16, 8, fun _ => [fNY_WAKE_WAKECNT, fNY_WAKE_ABORTCNT, fNY_WAKE_WAITING, fNY_WAKE_CLR]⟩,
   ⟨0x1000, 40, 32, fun _ => (List.range 16).map fNC_POOL0_POOL⟩,
   ⟨0x1008, 40, 32, fun _ => (List.range 16).map fNC_POOL1_POOL⟩,
   ⟨0x1010, 40, 32, fun _ => (List.range 8).map fNC_POOL2_POOL⟩,
   ⟨0x2000, 16, 64, fun _ => [fNP_CTL_EN, fNP_CTL_TREN, fNP_CTL_TRDRAM, fNP_CTL_POINT, fNP_CTL_ROUTER, fNP_CTL_OPMASK, fNP_CTL_ADREN, fNP_CTL_LOG2, fNP_CTL_DROPCNT]⟩,
   ⟨0x2008, 16, 64, fun _ => [fNP_MATCH_SRC, fNP_MATCH_SRCMSK, fNP_MATCH_DST, fNP_MATCH_DSTMSK]⟩,
   ⟨0x2010, 16, 64, fun _ => [fNP_ALO_ADDR]⟩,
   ⟨0x2018, 16, 64, fun _ => [fNP_AHI_ADDR]⟩,
   ⟨0x2020, 16, 64, fun _ => [fNP_CNT_COUNT, fNP_CNT_CLR]⟩,
   ⟨0x2028, 16, 64, fun _ => [fNP_WCNT_COUNT, fNP_WCNT_CLR]⟩,
   ⟨0x2030, 16, 64, fun _ => [fNP_TRBASE_BASE]⟩,
   ⟨0x2038, 16, 64, fun _ => [fNP_TRPTR_TRWR, fNP_TRPTR_TRRD]⟩]

/-- The registers of block DC. -/
def regsDC : List RegDesc :=
  [⟨0x0, 1, 8, fun _ => [fDC_CFG_EN, fDC_CFG_CAP, fDC_CFG_RANKS, fDC_CFG_HOTPOL]⟩,
   ⟨0x8, 1, 8, fun _ => [fDC_STAT_RSVVAL, fDC_STAT_HOT2X, fDC_STAT_HOTLIM, fDC_STAT_THROT, fDC_STAT_STOPPED, fDC_STAT_UCE, fDC_STAT_MR4, fDC_STAT_DROPCNT]⟩,
   ⟨0x10, 1, 8, fun _ => [fDC_ECC_CE, fDC_ECC_UE, fDC_ECC_CLR]⟩,
   ⟨0x20, 1, 8, fun _ => [fDC_TRAIN_IVL, fDC_TRAIN_PAUSECNT, fDC_TRAIN_UNALCNT, fDC_TRAIN_DRIFT]⟩,
   ⟨0x28, 1, 8, fun _ => [fDC_TRALIGN_EN, fDC_TRALIGN_ENTRY, fDC_TRALIGN_GRACE]⟩]

/-- The registers of block TU. -/
def regsTU : List RegDesc :=
  [⟨0x0, 1, 8, fun _ => [fTU_CTL_EN, fTU_CTL_RSVVAL]⟩,
   ⟨0x8, 1, 8, fun _ => [fTU_ROOT_BASE, fTU_ROOT_LOG2N]⟩,
   ⟨0x10, 1, 8, fun _ => [fTU_INV_GO, fTU_INV_BUSY]⟩,
   ⟨0x18, 1, 8, fun _ => [fTU_FAULT_VA, fTU_FAULT_KIND, fTU_FAULT_LEVEL, fTU_FAULT_WRITE, fTU_FAULT_SRC, fTU_FAULT_CLR]⟩,
   ⟨0x20, 1, 8, fun _ => [fTU_STAT_FLTCNT, fTU_STAT_WALKCNT]⟩]

/-- The registers of block JL. -/
def regsJL : List RegDesc :=
  [⟨0x0, 1, 8, fun _ => [fJL_CTL_RXRST, fJL_CTL_TXRST, fJL_CTL_RXSYNCPAD, fJL_CTL_TXSYNCPAD]⟩,
   ⟨0x8, 1, 8, fun _ => [fJL_RXCFG_EN, fJL_RXCFG_STD, fJL_RXCFG_LOG2L, fJL_RXCFG_LOG2M, fJL_RXCFG_LOG2S, fJL_RXCFG_NP, fJL_RXCFG_N, fJL_RXCFG_MAP, fJL_RXCFG_KE, fJL_RXCFG_CRC, fJL_RXCFG_SCR, fJL_RXCFG_EP, fJL_RXCFG_BLKLEN, fJL_RXCFG_ALIGN]⟩,
   ⟨0x10, 1, 8, fun _ => [fJL_TXCFG_EN, fJL_TXCFG_STD, fJL_TXCFG_LOG2L, fJL_TXCFG_LOG2M, fJL_TXCFG_LOG2S, fJL_TXCFG_NP, fJL_TXCFG_N, fJL_TXCFG_MAP, fJL_TXCFG_KE, fJL_TXCFG_CRC, fJL_TXCFG_SCR, fJL_TXCFG_EP, fJL_TXCFG_BLKLEN, fJL_TXCFG_ALIGN]⟩,
   ⟨0x18, 1, 8, fun _ => (List.range 8).map fJL_LANE_RXMAP ++ (List.range 8).map fJL_LANE_TXMAP ++ (List.range 8).map fJL_LANE_RXPOL ++ (List.range 8).map fJL_LANE_TXPOL⟩,
   ⟨0x20, 1, 8, fun _ => [fJL_RATE_RXRATE, fJL_RATE_TXRATE]⟩,
   ⟨0x28, 1, 8, fun _ => [fJL_RXSR_MODE, fJL_RXSR_ARM, fJL_RXSR_REALIGN, fJL_RXSR_TOL, fJL_RXSR_OFS, fJL_RXSR_RBD]⟩,
   ⟨0x30, 1, 8, fun _ => [fJL_TXSR_MODE, fJL_TXSR_ARM, fJL_TXSR_REALIGN, fJL_TXSR_TOL, fJL_TXSR_OFS, fJL_TXSR_RBD]⟩,
   ⟨0x38, 1, 8, fun _ => [fJL_TRG_RXPEN, fJL_TRG_RXTRG, fJL_TRG_TXPEN, fJL_TRG_TXTRG]⟩,
   ⟨0x40, 1, 8, fun _ => [fJL_STAT_RXUP, fJL_STAT_TXUP, fJL_STAT_RXSRLK, fJL_STAT_TXSRLK, fJL_STAT_SRMISS, fJL_STAT_PSNTX, fJL_STAT_CRCERR, fJL_STAT_RXOVF, fJL_STAT_TXGAP, fJL_STAT_CFGERR, fJL_STAT_CFGBUSY, fJL_STAT_ILASERR, fJL_STAT_RSVVAL, fJL_STAT_MUTED, fJL_STAT_RXLOCK]⟩,
   ⟨0x48, 1, 8, fun _ => [fJL_CNT_POISON_TX, fJL_CNT_CRCCNT, fJL_CNT_CGERR]⟩,
   ⟨0x50, 1, 8, fun _ => [fJL_CNT2_TXGAPCNT, fJL_CNT2_RXOVFCNT, fJL_CNT2_SRMISSCNT, fJL_CNT2_CLR]⟩,
   ⟨0x58, 1, 8, fun _ => [fJL_SRTS_NS, fJL_SRTS_SEC]⟩]

/-- The registers of block ETH. -/
def regsETH : List RegDesc :=
  [⟨0x0, 1, 8, fun _ => [fETH_MODE_MODE, fETH_MODE_FEC, fETH_MODE_RSVVAL]⟩,
   ⟨0x10, 1, 8, fun _ => [fETH_RCLK_EN, fETH_RCLK_LANE, fETH_RCLK_FREQ, fETH_RCLK_SQ, fETH_RCLK_SQCHG]⟩,
   ⟨0x800, 64, 16, fun _ => [fETH_RXFLOW0_VALID, fETH_RXFLOW0_TYPE, fETH_RXFLOW0_VIDEN, fETH_RXFLOW0_VID, fETH_RXFLOW0_ID, fETH_RXFLOW0_SUB]⟩,
   ⟨0x808, 64, 16, fun _ => [fETH_RXFLOW1_PEN, fETH_RXFLOW1_TRG, fETH_RXFLOW1_EP, fETH_RXFLOW1_WF, fETH_RXFLOW1_BLK]⟩,
   ⟨0xC00, 64, 16, fun _ => [fETH_TXFLOW0_DA, fETH_TXFLOW0_SUB, fETH_TXFLOW0_NTAG, fETH_TXFLOW0_TYPE, fETH_TXFLOW0_WF, fETH_TXFLOW0_BLK]⟩,
   ⟨0xC08, 64, 16, fun _ => [fETH_TXFLOW1_ID, fETH_TXFLOW1_TCI1, fETH_TXFLOW1_TCI2, fETH_TXFLOW1_STAG]⟩]

/-- The registers of block ETHP. -/
def regsETHP : List RegDesc :=
  [⟨0x0, 1, 8, fun _ => [fETH_PCTL_EN, fETH_PCTL_PROMISC, fETH_PCTL_EXC, fETH_PCTL_MTU]⟩,
   ⟨0x8, 1, 8, fun _ => [fETH_MAC_ADDR]⟩,
   ⟨0x10, 1, 8, fun _ => [fETH_TSLAT_RXLAT, fETH_TSLAT_TXLAT]⟩,
   ⟨0x18, 1, 8, fun _ => [fETH_PSTAT_LINK, fETH_PSTAT_LINKCHG, fETH_PSTAT_RSVVAL, fETH_PSTAT_CFGBUSY, fETH_PSTAT_MUTED, fETH_PSTAT_TSOVF]⟩,
   ⟨0x100, 8, 8, fun _ => [fETH_TC_EN, fETH_TC_SHEN, fETH_TC_FORGIVE, fETH_TC_PEN, fETH_TC_TRG, fETH_TC_RATE, fETH_TC_BURST, fETH_TC_OVH]⟩,
   ⟨0x140, 8, 8, fun _ => [fETH_TCBKT_BKT]⟩,
   ⟨0x200, 22, 8, fun _ => [fETH_CNT_COUNT]⟩,
   ⟨0x2F8, 1, 8, fun _ => [fETH_CNTCLR_CLR]⟩,
   ⟨0x300, 1, 8, fun _ => [fETH_TSLO_NS, fETH_TSLO_TSID, fETH_TSLO_VALID]⟩,
   ⟨0x308, 1, 8, fun _ => [fETH_TSHI_SEC]⟩]

/-- The registers of block LK. -/
def regsLK : List RegDesc :=
  [⟨0x0, 1, 8, fun _ => [fLK_CTL_EN, fLK_CTL_RETRAIN, fLK_CTL_ASYM]⟩,
   ⟨0x8, 1, 8, fun _ => [fLK_STAT_UP, fLK_STAT_NBFRZ, fLK_STAT_DOWNEV, fLK_STAT_RSVVAL, fLK_STAT_LOCK, fLK_STAT_DOWNCNT]⟩,
   ⟨0x10, 1, 8, fun _ => [fLK_ERR_CRCCNT, fLK_ERR_REPLAYCNT, fLK_ERR_LOSTCNT, fLK_ERR_CLR]⟩,
   ⟨0x18, 1, 8, fun _ => [fLK_DM_DELAY, fLK_DM_OFFSET]⟩]

/-- The registers of block CH. -/
def regsCH : List RegDesc :=
  [⟨0x8000, 1, 8, fun _ => [fCH_ID_ADDR, fCH_ID_AVLD, fCH_ID_DEV0, fCH_ID_COUNT, fCH_ID_RING, fCH_ID_CLOSED, fCH_ID_MOVED, fCH_ID_OVER]⟩,
   ⟨0x8008, 1, 8, fun _ => [fCH_DIR_DIR]⟩,
   ⟨0x8010, 1, 8, fun _ => [fCH_REACH_REACH]⟩,
   ⟨0x8018, 1, 8, fun _ => [fCH_PART_POL, fCH_PART_HOLD, fCH_PART_ISOL, fCH_PART_MUTED, fCH_PART_RECON, fCH_PART_BEHINDFRZ]⟩,
   ⟨0x8020, 1, 8, fun _ => [fCH_HB_MISSCNT, fCH_HB_HBAGE, fCH_HB_HBSEQ]⟩,
   ⟨0x8028, 1, 8, fun _ => [fCH_TA_EN, fCH_TA_LOCK, fCH_TA_UPPORT, fCH_TA_STEP, fCH_TA_OFFSET]⟩,
   ⟨0x8030, 1, 8, fun _ => [fCH_TMO_TMO, fCH_TMO_TMOCNT, fCH_TMO_LATECNT]⟩,
   ⟨0x8038, 1, 8, fun _ => [fCH_EVSEND_K, fCH_EVSEND_TGT, fCH_EVSEND_YARDS, fCH_EVSEND_GO]⟩,
   ⟨0x8040, 1, 8, fun _ => [fCH_CNT_HOPDROP, fCH_CNT_NOROUTE, fCH_CNT_POOLOVF, fCH_CNT_CLR]⟩,
   ⟨0x8100, 8, 8, fun _ => (List.range 8).map fCH_POOL_POOL⟩]

/-- The registers of block AL. -/
def regsAL : List RegDesc :=
  [⟨0x0, 1, 8, fun _ => [fLOG_CTL_SPILL, fLOG_CTL_LOG2]⟩,
   ⟨0x8, 1, 8, fun _ => [fLOG_SPBASE_BASE]⟩,
   ⟨0x10, 1, 8, fun _ => [fLOG_SPRD_RD]⟩,
   ⟨0x18, 1, 8, fun _ => [fAL_STAT_WRIDX, fAL_STAT_QDROP, fAL_STAT_SPDROP, fAL_STAT_MPCE]⟩]

/-- The registers of block MO. -/
def regsMO : List RegDesc :=
  [⟨0x0, 1, 8, fun _ => [fMO_CTL_EN, fMO_CTL_PACE]⟩,
   ⟨0x8, 1, 8, fun _ => [fMO_STAT_ACTIVE, fMO_STAT_PROG, fMO_STAT_PASSCNT]⟩,
   ⟨0x10, 1, 8, fun _ => [fMO_FIND_CE, fMO_FIND_PSN, fMO_FIND_RPR, fMO_FIND_DEGR]⟩,
   ⟨0x18, 1, 8, fun _ => [fMO_CLR_CLR]⟩,
   ⟨0x100, 16, 8, fun _ => [fMO_POS_MEM, fMO_POS_BANK, fMO_POS_ROW, fMO_POS_SPARE, fMO_POS_WAIT, fMO_POS_PROG]⟩,
   ⟨0x1000, 1280, 8, fun _ => (List.range 4).map fRPR_BANK_ROW ++ (List.range 4).map fRPR_BANK_USED ++ (List.range 4).map fRPR_BANK_FAILED⟩,
   ⟨0x3800, 20, 8, fun _ => [fRPR_DEGR_DEG]⟩,
   ⟨0x4000, 64, 8, fun _ => [fRPR_BAD_BANK, fRPR_BAD_ROW, fRPR_BAD_VALID]⟩]

/-- The registers of block FR. -/
def regsFR : List RegDesc :=
  [⟨0x0, 1, 8, fun _ => [fFR_CTL_PROP, fFR_CTL_RPROP, fFR_CTL_DRAMRD, fFR_CTL_TARM, fFR_CTL_TCANCEL]⟩,
   ⟨0x8, 1, 8, fun _ => [fFR_STAT_LATE, fFR_STAT_TPEND, fFR_STAT_DRAMOUT, fFR_STAT_FRZCNT]⟩,
   ⟨0x10, 1, 8, fun _ => [fFR_TSEC_SEC]⟩,
   ⟨0x18, 1, 8, fun _ => [fFR_TNS_NS]⟩]

/-- The registers of block HI. -/
def regsHI : List RegDesc :=
  [⟨0x0, 1, 8, fun _ => [fHI_ID_FAMILY, fHI_ID_PART, fHI_ID_MINOR, fHI_ID_MAJOR]⟩,
   ⟨0x8, 2, 8, fun _ => [fHI_UID_UID]⟩,
   ⟨0x18, 1, 8, fun _ => [fHI_STAT_STATE, fHI_STAT_FWRDY, fHI_STAT_CHRDY, fHI_STAT_DEV0, fHI_STAT_LSPD, fHI_STAT_LWID, fHI_STAT_DBERR, fHI_STAT_MBWR, fHI_STAT_MBUCE]⟩,
   ⟨0x20, 1, 8, fun _ => [fHI_DBELL_POST]⟩,
   ⟨0x28, 1, 8, fun _ => [fHI_DONE_DONE, fHI_DONE_BUSY]⟩,
   ⟨0x30, 1, 8, fun _ => [fHI_ABORT_ABORT]⟩,
   ⟨0x38, 1, 8, fun _ => [fHI_FRZ_FRZ, fHI_FRZ_RESUME, fHI_FRZ_FROZEN, fHI_FRZ_DRAMSR, fHI_FRZ_LINKRT, fHI_FRZ_CAUSE]⟩,
   ⟨0x40, 1, 8, fun _ => [fHI_ALSUM_CLS, fHI_ALSUM_ALCNT]⟩,
   ⟨0x48, 1, 8, fun _ => [fHI_DROP_DROPCNT, fHI_DROP_CLR]⟩,
   ⟨0x50, 1, 8, fun _ => [fHI_SCRATCH_SCR]⟩,
   ⟨0x800, 64, 16, fun _ => [fMSIX_ADDR_ADDR]⟩,
   ⟨0x808, 64, 16, fun _ => [fMSIX_CTL_DATA, fMSIX_CTL_MASK]⟩,
   ⟨0xC00, 1, 8, fun _ => [fMSIX_PBA_PEND]⟩,
   ⟨0x1000, 64, 8, fun i => [fAP_EN, fAP_VIEW, fAP_DEV i, fAP_BASE]⟩]

/-- The registers of each block. -/
def blkRegs : Blk → List RegDesc
  | .pen => regsPEN
  | .fu => regsFU
  | .sch => regsSCH
  | .loft => regsLOFT
  | .yp => regsYP
  | .ag => regsAG
  | .dv => regsDV
  | .crd => regsCRD
  | .tb => regsTB
  | .gs => regsGS
  | .tf => regsTF
  | .clk => regsCLK
  | .pw => regsPW
  | .net => regsNET
  | .dc => regsDC
  | .tu => regsTU
  | .jl => regsJL
  | .eth => regsETH
  | .ethp => regsETHP
  | .lk => regsLK
  | .ch => regsCH
  | .al => regsAL
  | .mo => regsMO
  | .fr => regsFR
  | .hi => regsHI

/-- The registers of each block with a field whose reset value is not 0. -/
def resetRegs : Blk → List RegDesc
  | .pen => [⟨0x6000, 8, 128, fun _ => [fTRG_CFG_EN, fTRG_CFG_STRICT, fTRG_CFG_PSIDE, fTRG_CFG_CSIDE, fTRG_CFG_LOG2D, fTRG_CFG_BASE]⟩]
  | .fu => []
  | .sch => [⟨0x88, 1, 8, fun _ => [fSCH_TRSIZE_LOG2]⟩]
  | .loft => []
  | .yp => [⟨0x8, 1, 8, fun _ => [fYP_VOLT_CODE, fYP_VOLT_ACT]⟩, ⟨0x10, 1, 8, fun _ => [fYP_CLKEN_RUNMUCK, fYP_CLKEN_RUNMON, fYP_CLKEN_SLPMUCK, fYP_CLKEN_SLPMON, fYP_CLKEN_DEEPMON, fYP_CLKEN_RUNARRAY, fYP_CLKEN_RUNMEM, fYP_CLKEN_RUNSCHED, fYP_CLKEN_RUNSENS, fYP_CLKEN_SLPSENS, fYP_CLKEN_DEEPSENS]⟩]
  | .ag => [⟨0x0, 1, 8, fun _ => [fAG_CTL_WINGO, fAG_CTL_ROGO, fAG_CTL_GUARD]⟩]
  | .dv => [⟨0x8, 1, 8, fun _ => [fDV_RST_CAUSE, fDV_RST_LASTDOM, fDV_RST_DRSTCNT]⟩]
  | .crd => []
  | .tb => [⟨0x8, 1, 8, fun _ => [fTB_INC_INC]⟩, ⟨0x10, 1, 8, fun _ => [fTB_HO_H, fTB_HO_EFF]⟩, ⟨0x68, 1, 8, fun _ => [fTB_PPS_EN, fTB_PPS_PAD, fTB_PPS_WIDTH]⟩, ⟨0x78, 1, 8, fun _ => [fTB_TCCFG_BASE, fTB_TCCFG_STEP]⟩]
  | .gs => []
  | .tf => [⟨0x800, 64, 8, fun _ => [fFIO_PAD_DRV, fFIO_PAD_PULL, fFIO_PAD_FCLAIM, fFIO_PAD_OWNER, fFIO_PAD_LOST, fFIO_PAD_IN]⟩]
  | .clk => [⟨0x0, 1, 8, fun _ => [fCLK_CTL_AUTORELOCK, fCLK_CTL_RELOCK]⟩]
  | .pw => []
  | .net => [⟨0x2000, 16, 64, fun _ => [fNP_CTL_EN, fNP_CTL_TREN, fNP_CTL_TRDRAM, fNP_CTL_POINT, fNP_CTL_ROUTER, fNP_CTL_OPMASK, fNP_CTL_ADREN, fNP_CTL_LOG2, fNP_CTL_DROPCNT]⟩]
  | .dc => [⟨0x20, 1, 8, fun _ => [fDC_TRAIN_IVL, fDC_TRAIN_PAUSECNT, fDC_TRAIN_UNALCNT, fDC_TRAIN_DRIFT]⟩, ⟨0x28, 1, 8, fun _ => [fDC_TRALIGN_EN, fDC_TRALIGN_ENTRY, fDC_TRALIGN_GRACE]⟩]
  | .tu => []
  | .jl => [⟨0x8, 1, 8, fun _ => [fJL_RXCFG_EN, fJL_RXCFG_STD, fJL_RXCFG_LOG2L, fJL_RXCFG_LOG2M, fJL_RXCFG_LOG2S, fJL_RXCFG_NP, fJL_RXCFG_N, fJL_RXCFG_MAP, fJL_RXCFG_KE, fJL_RXCFG_CRC, fJL_RXCFG_SCR, fJL_RXCFG_EP, fJL_RXCFG_BLKLEN, fJL_RXCFG_ALIGN]⟩, ⟨0x10, 1, 8, fun _ => [fJL_TXCFG_EN, fJL_TXCFG_STD, fJL_TXCFG_LOG2L, fJL_TXCFG_LOG2M, fJL_TXCFG_LOG2S, fJL_TXCFG_NP, fJL_TXCFG_N, fJL_TXCFG_MAP, fJL_TXCFG_KE, fJL_TXCFG_CRC, fJL_TXCFG_SCR, fJL_TXCFG_EP, fJL_TXCFG_BLKLEN, fJL_TXCFG_ALIGN]⟩, ⟨0x18, 1, 8, fun _ => (List.range 8).map fJL_LANE_RXMAP ++ (List.range 8).map fJL_LANE_TXMAP ++ (List.range 8).map fJL_LANE_RXPOL ++ (List.range 8).map fJL_LANE_TXPOL⟩, ⟨0x28, 1, 8, fun _ => [fJL_RXSR_MODE, fJL_RXSR_ARM, fJL_RXSR_REALIGN, fJL_RXSR_TOL, fJL_RXSR_OFS, fJL_RXSR_RBD]⟩, ⟨0x30, 1, 8, fun _ => [fJL_TXSR_MODE, fJL_TXSR_ARM, fJL_TXSR_REALIGN, fJL_TXSR_TOL, fJL_TXSR_OFS, fJL_TXSR_RBD]⟩]
  | .eth => []
  | .ethp => [⟨0x0, 1, 8, fun _ => [fETH_PCTL_EN, fETH_PCTL_PROMISC, fETH_PCTL_EXC, fETH_PCTL_MTU]⟩, ⟨0x100, 8, 8, fun _ => [fETH_TC_EN, fETH_TC_SHEN, fETH_TC_FORGIVE, fETH_TC_PEN, fETH_TC_TRG, fETH_TC_RATE, fETH_TC_BURST, fETH_TC_OVH]⟩]
  | .lk => [⟨0x0, 1, 8, fun _ => [fLK_CTL_EN, fLK_CTL_RETRAIN, fLK_CTL_ASYM]⟩]
  | .ch => [⟨0x8018, 1, 8, fun _ => [fCH_PART_POL, fCH_PART_HOLD, fCH_PART_ISOL, fCH_PART_MUTED, fCH_PART_RECON, fCH_PART_BEHINDFRZ]⟩, ⟨0x8028, 1, 8, fun _ => [fCH_TA_EN, fCH_TA_LOCK, fCH_TA_UPPORT, fCH_TA_STEP, fCH_TA_OFFSET]⟩, ⟨0x8030, 1, 8, fun _ => [fCH_TMO_TMO, fCH_TMO_TMOCNT, fCH_TMO_LATECNT]⟩]
  | .al => [⟨0x0, 1, 8, fun _ => [fLOG_CTL_SPILL, fLOG_CTL_LOG2]⟩]
  | .mo => [⟨0x0, 1, 8, fun _ => [fMO_CTL_EN, fMO_CTL_PACE]⟩]
  | .fr => []
  | .hi => [⟨0x0, 1, 8, fun _ => [fHI_ID_FAMILY, fHI_ID_PART, fHI_ID_MINOR, fHI_ID_MAJOR]⟩, ⟨0x808, 64, 16, fun _ => [fMSIX_CTL_DATA, fMSIX_CTL_MASK]⟩, ⟨0x1000, 64, 8, fun i => [fAP_EN, fAP_VIEW, fAP_DEV i, fAP_BASE]⟩]

/-- The block, instance and offset of a register address, or none for a hole of the region (R25). -/
def locate (a : Nat) : Option (Blk × Nat × Nat) :=
  if bar0Base ≤ a then
    if a < bar0Base + 0x100000 then some (.hi, 0, a - bar0Base) else none
  else if a < regionBase then none
  else if a < regionBase + 0x1000000 then
    let r := a - regionBase
    let y := r / 0x100000
    let o := r % 0x100000
    if o < 0x80000 then
      let n := 8 * y + o / 0x10000
      let po := o % 0x10000
      if 0x8000 ≤ po && po < 0xC000 then some (.fu, 16 * n + (po - 0x8000) / 0x400, po % 0x400)
      else some (.pen, n, po)
    else if o < 0x90000 then some (.sch, y, o - 0x80000)
    else if o < 0xA0000 then some (.loft, y, o - 0x90000)
    else if o < 0xB0000 then some (.yp, y, o - 0xA0000)
    else if o < 0xC0000 then some (.ag, y, o - 0xB0000)
    else none
  else
    let r := a - 0x1009000000
    let o := r % 0x10000
    match r / 0x10000 with
    | 0x00 => some (.dv, 0, o)
    | 0x01 => some (.crd, 0, o)
    | 0x02 => some (.tb, 0, o)
    | 0x03 => some (.gs, 0, o)
    | 0x04 => some (.tf, 0, o)
    | 0x05 => some (.clk, 0, o)
    | 0x06 => some (.pw, 0, o)
    | 0x07 => some (.net, 0, o)
    | 0x08 => some (.dc, 0, o)
    | 0x09 => some (.dc, 1, o)
    | 0x0A => some (.dc, 2, o)
    | 0x0B => some (.dc, 3, o)
    | 0x0C => some (.tu, 0, o)
    | 0x10 => some (.jl, 0, o)
    | 0x11 => some (.jl, 1, o)
    | 0x12 => some (.jl, 2, o)
    | 0x13 => some (.jl, 3, o)
    | 0x14 => some (ethSplit 0 o)
    | 0x15 => some (ethSplit 1 o)
    | 0x16 => some (ethSplit 2 o)
    | 0x17 => some (ethSplit 3 o)
    | 0x18 => if 0x8000 ≤ o then some (.ch, 0, o) else some (.lk, 0, o)
    | 0x19 => some (.lk, 1, o)
    | 0x1C => some (.al, 0, o)
    | 0x1D => some (.mo, 0, o)
    | 0x1E => some (.fr, 0, o)
    | _ => none
where
  /-- MAC block or sub-port block of an Ethernet address. -/
  ethSplit (m o : Nat) : Blk × Nat × Nat :=
    if 0x1000 ≤ o && o < 0x5000 then (.ethp, 4 * m + (o / 0x1000 - 1), o % 0x1000) else (.eth, m, o)

/-- The description and array index of the register at an offset of a block. -/
def findReg : List RegDesc → Nat → Option (RegDesc × Nat)
  | [], _ => none
  | d :: ds, o =>
    if d.off ≤ o ∧ o < d.off + d.count * d.stride ∧ (o - d.off) % d.stride = 0 then
      some (d, (o - d.off) / d.stride)
    else findReg ds o

/-- The fields of the 64-bit register at an address; none where no register stands. -/
def fieldsAt (a : Nat) : Option (List Fld) :=
  match locate a with
  | none => none
  | some (b, _, o) =>
    match findReg (blkRegs b) o with
    | none => none
    | some (d, i) => some (d.flds i)

/-- The value a list of fields gives a register at reset (R8). -/
def resetOf (fs : List Fld) : Nat := fs.foldl (fun acc f => acc + f.reset * 2 ^ f.lo) 0

/-- The reset value of the register at an address; addresses that hold no register read 0. (DEDUCED, log 13, 14) -/
def resetAt (a : Nat) : BitVec 64 :=
  match locate a with
  | none => 0
  | some (b, _, o) =>
    match findReg (resetRegs b) o with
    | none => 0
    | some (d, i) => BitVec.ofNat 64 (resetOf (d.flds i))

end Sys2Proof.Machine
end

