-- ==== Sys2Proof/Machine/Types.lean ====
section
/-!
DEFINITION. The parts that the state is made of, as plain data: function units, pens, troughs,
schedulers, queues, buffers, alarms and modes.
-/

namespace Sys2Proof.Machine

/-! ## Function units (chapters 2, 3 and 5) -/

/-- One resident bank of an FU: W0 to W15, the accumulators, the loop index and the dirty bits of G0
to G4 (R116, Table 5.1). -/
structure Bank where
  w : Sparse TW
  acc0 : Accum
  acc1 : Accum
  lix : BitVec 16
  dirty : BitVec 5
deriving DecidableEq, Repr

/-- A zeroed bank (Table 5.2). -/
abbrev Bank.zero : Bank := ⟨[], Accum.zero, Accum.zero, 0, 0⟩

/-- An OUT port: the word that landed last and the array cycle it is presented in (R36). -/
structure OutPort where
  tw : TW
  cyc : Nat
deriving DecidableEq, Repr

/-- One FU: its banks, what it runs (`FU_RUN`, Table 5.12), its sequencer (R77 to R81) and its OUT
ports. -/
structure Fu where
  banks : Sparse Bank
  ctx : Nat
  bank : Nat
  byEp : Bool
  prev : Nat
  /-- position of the step that issues next in the round, and its issues so far (R78) -/
  step : Nat
  rep : Nat
  /-- the round is the first since switch-in (R81) -/
  first : Bool
  /-- LIXSET's value for the end of this round (R80) -/
  lixNext : Option (BitVec 16)
  /-- first ACLK index at which the next issue slot stands (R37, R59) -/
  nextSlot : Nat
  /-- a two-slot ending step has issued: its round ends when that slot comes (R78, R80) -/
  ending : Bool
  /-- ACLK index + 1 of the latest broadcast switch (R139) -/
  bsw : Nat
  out0 : OutPort
  out1 : OutPort
deriving DecidableEq, Repr

/-- An FU after reset. -/
abbrev Fu.reset : Fu :=
  ⟨[], 0, 0, false, 0, 0, 0, true, none, 0, false, 0, ⟨TW.notValid, 0⟩, ⟨TW.notValid, 0⟩⟩

/-- Where a result in flight lands. -/
inductive Dest where
  | w (k : Nat)
  | acc (k : Nat)
  | out (k : Nat)
  /-- position of trough key 8 n + k -/
  | trough (key pos : Nat)
  /-- word of the pen memory of pen n -/
  | store (n word : Nat)
deriving DecidableEq, Repr

/-- What has become of a LOAD's bank access (R172, R174). -/
inductive LoadRead where
  | waiting
  | lost
  | got (t : TW)
deriving DecidableEq, Repr

/-- What lands. -/
inductive Payload where
  | word (t : TW)
  | setAcc (a : Accum)
  | addAcc (fmt : Nat) (vs : List Int) (pe : Int) (rnd : Rnd) (sat p : Bool)
  /-- a LOAD of word w of pen n, whose bank is read with ECC outcome e in the cycle after issue (R172, R174);
  fmt is the format of an accumulator destination -/
  | load (n w fmt : Nat) (e : Ecc) (r : LoadRead)
deriving DecidableEq, Repr

/-- A result in flight (R60): issuing FU, bank and context, the ACLK index it lands at, destination and
value. -/
structure Flight where
  g : Nat
  bank : Nat
  ctx : Nat
  due : Nat
  dest : Dest
  pay : Payload
deriving DecidableEq, Repr

/-! ## Pens (chapters 4, 5 and 7) -/

/-- A switch order on its way to a pen (R127, R158): the context, or none for a halt, the switch cycle
D and the context to preload after the dispatch (R159). -/
structure SwitchOrder where
  ctx : Option Nat
  d : Nat
  preload : Option Nat
  task : Nat
deriving DecidableEq, Repr

/-- A non-resident switch between D and step 0 (R131, R132): incoming context, bank, the ACLK index of
step 0 or of the next victim choice, whether the victim choice waits for D + 5 (R123), what the order asked for
besides, the cycles of its phases so far, and the words that each pen-memory bank is written and read in them. -/
structure NonRes where
  ctx : Nat
  bank : Nat
  ready : Nat
  retry : Bool
  preload : Option Nat
  task : Nat
  phase : Nat
  writes : List Nat
  reads : List Nat
deriving DecidableEq, Repr

/-- A context load in progress (R124): context, bank, the victim that the bank held, the task that preloads it
(R159), and the words that each pen-memory bank is still to be written and read. -/
structure CtxLoad where
  ctx : Nat
  bank : Nat
  victim : Option Nat
  preloadOf : Option Nat
  writes : List Nat
  reads : List Nat
deriving DecidableEq, Repr

/-- A preload that waits for the task's step 0 (R159): the context to load, the task, the context that the task runs,
and the ACLK index of its switch cycle. -/
structure Preload where
  ctx : Nat
  task : Nat
  runs : Nat
  since : Nat
deriving DecidableEq, Repr

/-- A request waiting at a DMA port (R176): the NoC request it serves, how many of its words or slots are
done, the words read for its answer, and the word that a partial slot write has read and not yet written back
(R21). -/
structure DmaReq where
  kind : Nat
  f : Flit
  pos : Nat
  got : List TW
  old : Option TW
deriving DecidableEq, Repr

/-- A request that has not started. -/
abbrev DmaReq.of (kind : Nat) (f : Flit) : DmaReq := ⟨kind, f, 0, [], none⟩

/-- What holds a bank port in the current cycle of its yard (Table 7.3): the class, the number of the trough, FU
or streamer within it, and whether the access has been made. -/
structure Claim where
  cls : Nat
  num : Nat
  used : Bool
deriving DecidableEq, Repr

/-- One pen. -/
structure Pen where
  /-- context held by each bank; an unlisted bank is empty (R118) -/
  held : Sparse Nat
  /-- last use of each bank, as ACLK index + 1 (R122) -/
  lastUse : Sparse Nat
  /-- ACLK index + 1 at which some FU last issued a step of each context (R122) -/
  issued : Sparse Nat
  halted : Bool
  orders : List SwitchOrder
  nonres : Option NonRes
  load : Option CtxLoad
  /-- how the load ended that a `CTX_LOAD` started, none while it is in progress (Table 14.11) -/
  loadRes : Option Bool
  /-- the preload that starts in the cycle after step 0 first issues (R159) -/
  preload : Option Preload
  /-- contexts that a diagnostic write made pinned while they held no bank (R145) -/
  diagPin : BitVec 16
  /-- write locks of the configuration engine (R142) -/
  locks : BitVec 16
  /-- ACLK index + 1 of the latest stall cycle (R104) -/
  stallAt : Nat
  /-- edge + 1 of the latest cycle in which it was decided whether the pen stalls (R104) -/
  judged : Nat
  dmaTrough : List DmaReq
  dmaOther : List DmaReq
  /-- the DMA port's latest grant served the trough queue (R176) -/
  dmaLastTrough : Bool
  /-- edge + 1 of the latest cycle in which the DMA port started or went on with a request (R176) -/
  dmaAt : Nat
  /-- edge + 1 of the latest cycle in which each streamer moved a word (R178) -/
  psAt : Sparse Nat
deriving DecidableEq, Repr

/-- A pen after reset: halted, no context resident. -/
abbrev Pen.reset : Pen :=
  ⟨[], [], [], true, [], none, none, none, none, 0, 0, 0, 0, [], [], false, 0, []⟩

/-- One trough (R182 to R193): pointers modulo 2 × depth, packet state, positions reserved and not yet
landed, the tail and head buffers, the high-water mark, and the pointers as they stood at the start of
the current cycle with who acted on each side in it: an FU, or 2048 for the network, a streamer or the forwarder
(R188, R194, R203). -/
structure Trough where
  wp : Nat
  rp : Nat
  rl : Nat
  mark : Nat
  slot : Nat
  isOpen : Bool
  ovf : Bool
  unlanded : List Nat
  tail : List (Nat × TW)
  head : List (Nat × TW)
  hwm : Nat
  cyc : Nat
  lf0 : Nat
  rp0 : Nat
  rl0 : Nat
  prodFu : Option Nat
  consFu : Option Nat
  /-- positions that hold committed length words (R192) -/
  lens : List Nat
  /-- payload words of the packet that the forwarder is sending and has not popped, and its length word (R185) -/
  fwdPkt : Option (Nat × TW)
  /-- words that the forwarder has popped and not sent (R185) -/
  fwdBuf : List TW
  /-- words that the remote trough has accepted and the forwarder has not released (R185) -/
  fwdAcc : Nat
  /-- router of the requester that opened the latest packet, where the network did (R465) -/
  opener : Option Nat
deriving DecidableEq, Repr

/-- A trough after reset. -/
abbrev Trough.reset : Trough :=
  ⟨0, 0, 0, 0, 0, false, false, [], [], [], 0, 0, 0, 0, 0, none, none, [], none, [], 0, none⟩

/-- A word inside a yard crossing: track key, word and due ACLK index (R108). -/
structure XWord where
  key : Nat
  tw : TW
  due : Nat
deriving DecidableEq, Repr

/-- A muck-out engine: number of the segment it holds or takes next in its pass, and whether it holds it
(R196, R202). -/
structure Muck where
  seg : Nat
  holding : Bool
deriving DecidableEq, Repr

/-- An engine at the start of its pass. -/
abbrev Muck.reset : Muck := ⟨0, false⟩

/-! ## Yard schedulers (chapter 6) -/

/-- States of a task (Table 6.4). -/
inductive TaskState where
  | idle
  | ready
  | running
  | pending
deriving DecidableEq, Repr

/-- What a scheduler keeps of a task besides its table entry. -/
structure Task where
  st : TaskState
  seen : BitVec 4
  /-- latest event that readied it -/
  why : Nat
  /-- event of its pending trigger -/
  next : Nat
  /-- WAIT records written for this readiness: bit 0 for reason 0x01 or 0x02, bit 1 for 0x03, bit 2 for 0x04
  (R154, R156, R161) -/
  waits : BitVec 3
  /-- a retirement is due at the next evaluation (R151) -/
  retire : Bool
deriving DecidableEq, Repr

/-- A task after reset. -/
abbrev Task.reset : Task := ⟨.idle, 0, 0, 0, 0, false⟩

/-- One scheduler. -/
structure Sched where
  tasks : Sparse Task
  /-- round-robin start of each priority (R156) -/
  rr : Sparse Nat
  /-- events latched since the last evaluation, with the ACLK index of each (R147) -/
  latched : List (Nat × Nat)
  /-- trace records staged and not written to the ring (R166) -/
  staging : List (BitVec 64)
  /-- records lost since the last one written -/
  lost : Nat
  /-- group members that reported they could be dispatched in the evaluation just made (R161) -/
  offers : List Nat
  /-- event cycle e of that evaluation (R162) -/
  offerE : Nat
deriving DecidableEq, Repr

/-- A scheduler after reset. -/
abbrev Sched.reset : Sched := ⟨[], [], [], [], 0, [], 0⟩

/-! ## Alarms, log and device states (chapters 1, 14, 18 and 19) -/

/-- The device states of Table 1.3. -/
inductive DevState where
  | startUp
  | run
  | test
  | recovery
  | isolated
  | frozen
deriving DecidableEq, Repr

/-- An event-log record (Table 18.3) but for its index, which is its place. -/
structure LogRec where
  kind : Nat
  code : Nat
  tick : Nat
  cls : Nat
  dev : Nat
  router : Nat
  addr : Nat
  detail : Nat
deriving DecidableEq, Repr

/-- A first-finding latch with its occurrence counter and last occurrence (R435). -/
structure FindCnt where
  count : Nat
  latch : Option LogRec
  lastTick : Nat
  lastRouter : Nat
deriving DecidableEq, Repr

/-- No finding of a code. -/
abbrev FindCnt.zero : FindCnt := ⟨0, none, 0, 0⟩

/-- One alarm-table entry (R438, R440). -/
structure AlarmEntry where
  raised : Bool
  present : Bool
  count : Nat
  first : Nat
  last : Nat
  router : Nat
  firstRec : Option LogRec
  /-- index of the kept first record, where it stands in the log -/
  firstIdx : Option Nat
deriving DecidableEq, Repr

/-- An entry never raised. -/
abbrev AlarmEntry.zero : AlarmEntry := ⟨false, false, 0, 0, 0, 0, none, none⟩

/-- An alarm summary waiting to be sent to device 0 (R442): first occurrence or not. -/
structure Summary where
  first : Bool
deriving DecidableEq, Repr

/-- One MSI-X vector: its 100 µs interval runs, its pending bit, and the messages sent (R349). -/
structure Msix where
  busy : Bool
  pend : Bool
  sent : Nat
deriving DecidableEq, Repr

/-- A vector after reset. -/
abbrev Msix.zero : Msix := ⟨false, false, 0⟩

/-- A function of Table 14.9: running or stopped, the cause of the stop, the enables its stop cleared,
and whether its scheduler was stopped on its own (R363, R364). -/
structure Fn where
  running : Bool
  cause : Nat
  saved : List (Nat × Fld × Nat)
deriving DecidableEq, Repr

/-- A function after reset. -/
abbrev Fn.zero : Fn := ⟨false, 0, []⟩

/-! ## DRAM controllers (chapter 8) -/

/-- One controller: the refresh rate that its latest reading asks for (R216), its runs of consecutive
readings, its training pause and the delay that it has followed in ps (R218 to R220), refresh commands that wait for the
end of a pause, and self-refresh (R217, R445). -/
structure DramCh where
  hotNext : Bool
  coolRun : Nat
  inRangeRun : Nat
  due : Bool
  strobed : Bool
  paused : Bool
  delay : Int
  waiting : Nat
  selfRefresh : Bool
deriving DecidableEq, Repr

/-- A controller after reset. -/
abbrev DramCh.reset : DramCh := ⟨false, 0, 0, false, false, false, 0, 0, false⟩

/-- A completed translation held by the translation unit (R224): virtual page, page size 4 KiB or 2 MiB,
its permissions and local address. -/
structure Xlat where
  vpage : Nat
  big : Bool
  w : Bool
  r : Bool
  addr : Nat
deriving DecidableEq, Repr

/-! ## On-chip network (chapter 9) -/

/-- On whose behalf a request was sent. -/
inductive Origin where
  | own
  /-- a flit of an answer that is requested once more: its response buffer stays the one it has (R239) -/
  | again
  /-- a REQ of device `dev`, with the requester router and response buffer there (R263) -/
  | chain (dev src rb : Nat)
  /-- the forwarder of trough 8 n + k, with the words of the trough that the request carries (R185) -/
  | forwarder (key count : Nat)
  /-- a part of a host access or of a translated request: its number, where its bytes stand in the whole, the first byte
  and the number of bytes that are asked of its answer, and whether its words are 16-byte slots -/
  | part (id off skip len : Nat) (slots : Bool)
  /-- a trace record of probe k (R243) -/
  | probe (k : Nat)
  /-- a trace record of the scheduler of yard y (R165) -/
  | sched (y : Nat)
deriving DecidableEq, Repr

/-- A request waiting at its requester (R234). -/
structure NocReq where
  op : Nat
  f : Flit
  origin : Origin
deriving DecidableEq, Repr

/-- A request sent and not yet delivered its answer: its copy (R238), the response buffers it reserves, the credits it
still holds, its flits that have not reached the destination, the answer flits delivered, those requested again, the
status that the answer carries, and whether part of it was poisoned (R239). -/
structure NocOut where
  req : NocReq
  k : Nat
  cred : Nat
  need : List Nat
  got : Sparse (List TW)
  asked : List Nat
  status : Nat
  bad : Bool
deriving DecidableEq, Repr

/-- A request on its way: the flits that are, and whether they are sent again. -/
structure NocFly where
  req : NocReq
  flits : List Nat
  resent : Bool
deriving DecidableEq, Repr

/-- A flit on the response channel: requester, response buffer, the answering router, RDATA (0xC), ACK (0xD) or NACK
(0xE), the count of its header, `RSTAT`, words, and whether no probe sees it (R242). -/
structure NocResp where
  r : Nat
  rb : Nat
  from_ : Nat
  op : Nat
  cnt : Nat
  status : Nat
  words : List TW
  hidden : Bool
deriving DecidableEq, Repr

/-- Who waits for the parts of an access: the host, for a write or for so many bytes from a local address of a device; or
a requester of the translation unit (R29, R230). -/
inductive Asker where
  | host (wr : Bool) (len : Nat)
  | tu (op : Nat) (f : Flit) (hidden : Bool)
deriving DecidableEq, Repr

/-- An access that is carried out in parts: those not yet answered, the bytes that have come, the first status that is
not OK, and whether another device answered that the address is a hole (R31). -/
structure Whole where
  asker : Asker
  left : Nat
  bytes : Sparse Byte
  status : Nat
  hole : Bool
deriving DecidableEq, Repr

/-- The network. -/
structure Noc where
  queued : Sparse (List NocReq)
  out : Sparse (List NocOut)
  /-- requests on their way, in the order sent -/
  wire : List NocFly
  /-- answers on their way, in the order sent -/
  resp : List NocResp
  /-- by 40 × destination + source: response buffers of the flits whose first check failed (R238) -/
  nacked : Sparse (List Nat)
  /-- requests in the request buffers of sleeping yards (R240) -/
  asleep : Sparse (List DmaReq)
  /-- requests at a DRAM controller whose channel pauses, with the outcomes of their lines' checks (R218) -/
  held : Sparse (List (DmaReq × List Ecc))
  /-- requests for other devices that wait at a lead router, in arrival order (R262) -/
  leads : List DmaReq
  /-- requests waiting for their walk in the translation unit -/
  walks : List DmaReq
  /-- accesses carried out in parts, by number -/
  wholes : Sparse Whole
  /-- completed translations, oldest first (R224) -/
  cache : List Xlat
  /-- status and words of the answer delivered last -/
  status : Nat
  words : List TW
  /-- probe records staged for memory, and records lost, by probe (R243) -/
  probeStage : Sparse (List (TW × TW))
  probeLost : Sparse Nat
deriving DecidableEq, Repr

/-- The network after reset. -/
abbrev Noc.reset : Noc := ⟨[], [], [], [], [], [], [], [], [], [], [], 0, [], [], []⟩

/-! ## Lead chain (chapter 10) -/

/-- A chain packet with its kind (Table 10.2), and the command that a REQ to an MP carries (R358). -/
structure CPkt where
  kind : Nat
  p : Pkt
  cmd : Option FwdCmd
  ans : Option FwdAns
  /-- it comes from this device, not from its other lead port -/
  own : Bool
deriving DecidableEq, Repr

/-- One lead link, both directions of this end (R249, R250): packets not yet sent, the replay buffer with
the resends of each packet, sequence numbers, whether a NAK was sent since the last accepted packet,
credits in use by class, the latest unreliable packet sent of each kind, the place among RSP, REQ and FW of the kind of
these sent last, and those of them whose latest packet was this device's own (R253). -/
structure LinkSt where
  txq : List CPkt
  replay : List (CPkt × Nat)
  txSeq : BitVec 8
  rxSeq : BitVec 8
  nakSent : Bool
  used : Sparse Nat
  last : Sparse CPkt
  turn : Nat
  ownLast : List Nat
deriving DecidableEq, Repr

/-- A link after training. (DEDUCED, log 66) -/
abbrev LinkSt.reset : LinkSt := ⟨[], [], 0, 0, false, [], [], 0, []⟩

/-- An outstanding chain request (R262): its target, the NoC request it answers, or the mailbox slot whose
command it forwards (R358). -/
structure ChOut where
  dev : Nat
  op : Nat
  req : Option Flit
  slot : Option Nat
deriving DecidableEq, Repr

/-- What device 0 knows of a device from its HB_ACKs (R268, R280): state, firmware-ready, whether an
acknowledgement came since the last HB, and misses in a row. -/
structure Peer where
  state : Nat
  ready : Bool
  heard : Bool
  misses : Nat
deriving DecidableEq, Repr

/-- A device not heard of. -/
abbrev Peer.zero : Peer := ⟨0, false, false, 0⟩

/-- The chain. -/
structure Chain where
  links : Sparse LinkSt
  /-- latest LINK report of port 2 d + p: up (R259) -/
  reports : Sparse Bool
  out : Sparse ChOut
  /-- REQs of each source device that occupy its pool here (R262) -/
  poolUsed : Sparse Nat
  /-- pools that this device set for itself at other devices (R262) -/
  pools : Sparse Nat
  /-- addresses given up, whose packets in flight are discarded (R258) -/
  old : List Nat
  peers : Sparse Peer
  /-- the heartbeat watch is armed, and misses in a row (R269) -/
  armed : Bool
  misses : Nat
  /-- the next exchange steps the counter (R270), and offsets within ±50 ps in a row -/
  stepNext : Bool
  inLock : Nat
  /-- a roll call runs from this device -/
  rolling : Bool
  /-- firmware bytes received on LU, and the byte offset that device 0 sends next (R279) -/
  fw : Sparse Byte
  fwOut : Option Nat
deriving DecidableEq, Repr

/-- The chain after reset. -/
abbrev Chain.reset : Chain := ⟨[], [], [], [], [], [], [], false, 0, true, 0, false, [], none⟩

/-! ## Mailboxes (chapter 14) -/

/-- States of a slot (Table 14.5). -/
inductive SlotState where
  | free
  | posted
  | taken
  | running
  | done
deriving DecidableEq, Repr

/-- A mailbox slot as firmware holds it. Slots 0 to 15 are those of Table 14.4; slots 16 to 31 hold
commands that another device forwarded to this one (R358), with the device and response buffer to answer;
slot 32 + s holds a command of slot s that executes on after a PCIe reset (R347). `left` are the devices whose
answer to a command has not come, `okMask` and `failMask` those that completed, `lowFail` the lowest failing
device with its status, `ran` says that the command ran on some device (R360). -/
structure Slot where
  st : SlotState
  opc : Nat
  tgt : Nat
  irq : Bool
  rtag : Nat
  pay : List Byte
  status : Nat
  resp : List Byte
  pos : Nat
  total : Nat
  left : Nat
  okMask : Nat
  failMask : Nat
  lowFail : Option (Nat × Nat)
  abort : Bool
  origin : Option (Nat × Nat × Nat)
  ran : Bool
deriving DecidableEq, Repr

/-- A free slot. -/
abbrev Slot.free : Slot := ⟨.free, 0, 0, false, 0, [], 0, [], 0, 0, 0, 0, 0, none, false, none, false⟩

/-! ## Power and ageing of a yard (chapters 16 and 17) -/

/-- Power transitions of a yard: the power-down requested and not yet begun by stopping the clock, whether its point of
no return has passed (R241), whether the clock is stopped, the rail on its way to retention, a return from DEEP-SLEEP to SLEEP, a wake asked
for and whether a network request asked, a slewing rail, and a divide not yet in force (R110, R402, R404,
R405). -/
structure YardPw where
  want : Option Nat
  past : Bool
  stopped : Bool
  settling : Bool
  toSleep : Bool
  wake : Bool
  byReq : Bool
  slewing : Bool
  /-- ACLK index of the write of a divide not yet in force -/
  divDue : Option Nat
  /-- ACLK index of the latest write of the branch enables and the enables until then (R392) -/
  enWas : Option (Nat × BitVec 64)
deriving DecidableEq, Repr

/-- A yard's power after reset. -/
abbrev YardPw.reset : YardPw := ⟨none, false, false, false, false, false, false, false, none, none⟩

/-- What firmware keeps of a yard's margin: the floor of `YARD_VOLT`, its place in the fall-back mask, the
largest pair shift at its last valid plan in ppm, the temperature of its last re-plan, a re-plan owed when
it returns to RUN, and a code that a `YARD_VOLT` left for its end (R415 to R419). -/
structure YardAge where
  floor : Option Nat
  fallback : Bool
  shiftValid : Nat
  lastTemp : BitVec 13
  owed : Bool
deriving DecidableEq, Repr

/-- A yard without history. -/
abbrev YardAge.zero : YardAge := ⟨none, false, 0, 0, false⟩

/-! ## Timebase and gate schedule (chapter 12) -/

/-- What a write asks of the time counter in the next cycle (R310, R270): a step in ns, a step in units of
2^-32 ns, or a set. -/
inductive TbOp where
  | step (ns : Int)
  | shift (x : Int)
  | set (sec ns : Nat)
deriving DecidableEq, Repr

/-- The time counter (R308): the increment and the holdover term in use, the term computed last, and what
was asked of the counter in this cycle; ACLK index + 1 of the latest 1 ms update. -/
structure Timebase where
  sec : Nat
  ns : Nat
  frac : Nat
  inc : Nat
  h : Int
  hUse : Int
  ops : List TbOp
  hoAt : Nat
deriving DecidableEq, Repr

/-- The counter at POR. -/
abbrev Timebase.reset : Timebase := ⟨0, 0, 0, 0xD0555555, 0, 0, [], 0⟩

/-- A gate-schedule entry as committed (R319 to R323): start, stop and period of the occurrence in force in
1/256 ns, occurrences left, the window, whether the next occurrence is late for strobes and for pins, the
ACLK index A, the slot + 1 (two slots a cycle) of the latest rise and fall of the window and of the first that a
commit to the open window lets close it, the ACLK index + 1
of the latest strobe, the time and cycle of a forward step over the open window, and whether a GATE_SET
armed the entry (R477). -/
structure Gate where
  start : Nat
  stop : Nat
  per : Nat
  cnt : Nat
  isOpen : Bool
  evLate : Bool
  pinLate : Bool
  armA : Nat
  rise : Nat
  fall : Nat
  closeAt : Nat
  strobeAt : Nat
  skip : Option (Nat × Nat)
  bySet : Bool
  /-- start and period of the occurrence in force, where a commit within its open window wrote others (R322, R325) -/
  inForce : Option (Nat × Nat)
deriving DecidableEq, Repr

/-- An entry after reset. -/
abbrev Gate.reset : Gate := ⟨0, 0, 0, 0, false, false, false, 0, 0, 0, 0, 0, none, false, none⟩

/-! ## Ports (chapter 11) -/

/-- One direction of a JESD link: waiting for a SYSREF edge, the ACLK index of its first boundary since that edge, the
prefetch buffer, the sample that waits for the second of its word and whether its check failed, words of the block so
far, the place of the next complex sample in its frame, the ACLK index at which the link was established, a boundary
whose first sample slot has not come, and the wire samples sent last (R287, R288, R290, R291, R293, R294). -/
structure JDir where
  armed : Bool
  bnd : Option Nat
  buf : List TW
  half : Option ((Int × Int) × Bool)
  blk : Nat
  place : Nat
  since : Nat
  go : Bool
  sent : List (Int × Int)
  /-- its SYNC~ bank turned off, and the direction was not reset since (R289) -/
  held : Bool
deriving DecidableEq, Repr

/-- A direction after reset. -/
abbrev JDir.reset : JDir := ⟨false, none, [], none, 0, 0, 0, false, [], false⟩

/-- A frame sent: its bytes without the FCS, and whether the FCS was complemented. -/
structure TxFrame where
  bytes : List Byte
  stomped : Bool
deriving DecidableEq, Repr

/-- PTP assist of a sub-port (R313, R367): ring address and length, and the compensation value. -/
structure PtpRing where
  base : Nat
  len : Nat
  comp : Nat
deriving DecidableEq, Repr

/-- The Ethernet side: the last SEQ_ID byte received and the transmit counter of each flow by 64 m + i,
timestamp FIFOs as (seconds, nanoseconds, TSID) and latest frames by 4 m + s, which sub-ports (bits 0 to 15)
stomped a frame and which links (bits 16 to 19) sent poison (R432), PTP assist, and the ACLK index + 1 of the latest
refill tick (R303). -/
structure Eth where
  rxSeq : Sparse (BitVec 8)
  txSeq : Sparse (BitVec 8)
  fifo : Sparse (List (Nat × Nat × Nat))
  sent : Sparse TxFrame
  firstPsn : BitVec 20
  ptp : Sparse PtpRing
  refillAt : Nat
deriving DecidableEq, Repr

/-- The Ethernet side after reset. -/
abbrev Eth.reset : Eth := ⟨[], [], [], [], 0, [], 0⟩

/-! ## Tack fabric (chapter 13) -/

/-- The fabric: by block, Q XOR `RV` of each flop and latch, segment and port-out registers and port-in
wires; pad samples on their way in; serialiser words (data in bits 0 to 7, enables in 8 to 15) on their way
out and driven; link boundaries since the last FCLK edge; trough counts sampled; output wires of the cycle
before; events raised and not delivered; transmit blanks of the next cycle and of this one; ACLK index + 1 of
the latest edge processed, and by macrocell of the latest change on a user clock. -/
structure Fab where
  q : Sparse (BitVec 16)
  seg : Sparse (BitVec 32)
  port : Sparse (BitVec 16)
  ins : Sparse (BitVec 16)
  padIn : Sparse (BitVec 8)
  ser : Sparse (BitVec 16)
  drive : Sparse (BitVec 16)
  bnd : BitVec 8
  taps : Sparse Nat
  prev : Sparse (BitVec 16)
  evs : List Nat
  chEvs : List Nat
  blank1 : BitVec 4
  blank : BitVec 4
  edge : Nat
  userAt : Sparse Nat
deriving DecidableEq, Repr

/-- The fabric after reset. (DESIGN CHOICE, log 16) -/
abbrev Fab.reset : Fab := ⟨[], [], [], [], [], [], [], 0, [], [], [], [], 0, 0, 0, []⟩

/-- An armed capture (R340): its mode, the edge due for modes 0 and 1, and whether it was past when armed. -/
structure CapArm where
  mode : Nat
  due : Option Nat
  late : Bool
deriving DecidableEq, Repr

/-- The shadow registers (R341, R342): the FUs, the pens, the yards in DEEP-SLEEP, and bytes 0 to 9 of each
block's entry on page 32. -/
structure Shadow where
  fus : Sparse Fu
  pens : Sparse Pen
  deep : BitVec 16
  blocks : Sparse Nat
deriving DecidableEq, Repr

/-- The shadow before any capture. -/
abbrev Shadow.reset : Shadow := ⟨[], [], 0, []⟩

/-! ## Freeze, start-up, images and keys (chapters 15, 18 and 19) -/

/-- The freeze sequencer: the cause of a freeze at once that waits for its stop edge, a timed freeze as
cause, seconds and nanoseconds, whether its self-refresh entry has begun, whether its time had passed when it was accepted (R267), controllers out of self-refresh
for readout, a resume in progress, the address that FRZ_ADDR selected and what FRZ_DATA loaded last as
value and status, and alarms raised while firmware does not run, as code, router, address and detail (R444
to R449, R469). -/
structure Frz where
  req : Option Nat
  timed : Option (Nat × Nat × Nat)
  entering : Bool
  past : Bool
  out : BitVec 4
  resuming : Bool
  tapAddr : BitVec 40
  tapData : Nat × Nat
  deferred : List (Nat × Nat × Nat × Nat)
deriving DecidableEq, Repr

/-- The sequencer after reset. -/
abbrev Frz.reset : Frz := ⟨none, none, false, false, 0, false, 0, (0, 0), []⟩

/-- An owner key slot: the hash bits blown and the provisioned bit (Table 15.3). -/
structure KeySlot where
  bits : BitVec 384
  prov : Bool
deriving DecidableEq, Repr

/-- Fuses and boot flash: they survive every reset (Tables 15.3 and 19.2). An unlisted flash byte is
erased. -/
structure Nv where
  flash : Sparse Byte
  root : BitVec 384
  slot1 : KeySlot
  slot2 : KeySlot
  revoked : BitVec 32
  aes : BitVec 256
  aesOk : Bool
  /-- ledger slot whose write a power loss cut: 0 in the erase, p + 1 in page p (R425) -/
  torn : Option (Nat × Nat)
deriving DecidableEq, Repr

/-- Where an image load stands: staged, checked (with the decrypted body in the staging area), or applied. -/
inductive LoadPhase where
  | staged
  | checked
deriving DecidableEq, Repr

/-- An `IMAGE_LOAD` that runs: its slot, image length, mode, phase, digest, and where its staged bytes stand:
the base of the staging area, or the yards whose lofts hold them (R379, R380). -/
structure Load where
  sl : Nat
  len : Nat
  mode : Nat
  phase : LoadPhase
  digest : List Byte
  base : Option Nat
  yards : List Nat
deriving DecidableEq, Repr

/-- A `FW_STORE` that runs: its slot and the image bytes (R386). -/
structure FwLoad where
  sl : Nat
  bytes : List Byte
deriving DecidableEq, Repr

/-- A `MEM_TEST` that runs (R202): segments still to test by yard, and the findings counted before it. -/
structure MemTest where
  left : Sparse Nat
  ce : Nat
  psn : Nat
  rpr : Nat
  degr : Nat
deriving DecidableEq, Repr

/-- Steps of the power-on sequence (Table 19.3) that are complete. -/
inductive Phase where
  /-- POR is asserted -/
  | por
  /-- RESET_N is asserted -/
  | reset
  /-- rails are up and straps sampled: step 1 -/
  | rails
  /-- PLLs are locked and the boot ROM runs: steps 2 and 3 -/
  | rom
  /-- the boot ROM listens on LU (R279) -/
  | listen
  /-- the boot ROM has given up (R452, R455) -/
  | failed
  /-- firmware runs: step 4 -/
  | firmware
  /-- the ledger is read, pools and twiddle tables are set and the DRAM is trained: step 5 -/
  | started
  /-- step 6 -/
  | ready
deriving DecidableEq, Repr

end Sys2Proof.Machine
end

