-- ==== Sys2Proof/Machine/State.lean ====
section
/-!
DEFINITION. The state of the block as plain data: every register, memory, buffer, queue and mode the
spec gives it, and the queue of waiting commands. Registers are one sparse table keyed by address;
bytes of addressed memories are one canonical list of cells.
-/

namespace Sys2Proof.Machine

/-- The array: FUs, results in flight, pens, troughs, interconnect and schedulers. -/
structure Arr where
  /-- FUs by g = 16 n + f -/
  fus : Sparse Fu
  flights : List Flight
  /-- pens by n = 8 y + p -/
  pens : Sparse Pen
  /-- troughs by 8 n + k -/
  troughs : Sparse Trough
  /-- contents of track registers by 12 g + t (R98) -/
  tracks : Sparse TW
  /-- words inside yard crossings, oldest first (R108) -/
  xq : List XWord
  /-- words that crossings present, by track key (R108) -/
  xout : Sparse OutPort
  /-- twiddle entries that an image replaced, by 4096 n + i, as I and Q (R89) -/
  twiddle : Sparse (BitVec 18 × BitVec 18)
  scheds : Sparse Sched
  mucks : Sparse Muck
  /-- who holds each bank port in the current cycle of its yard, by 2 × bank index, + 1 for the write port (R173,
  R177) -/
  ports : Sparse Claim
  /-- streamer last served by each loft bank port (R177) -/
  loftLast : Sparse Nat
  /-- event lines to be raised at an ACLK index: yard, event and index (R88, R266) -/
  signals : List (Nat × Nat × Nat)
deriving DecidableEq, Repr

/-- The array after reset. -/
abbrev Arr.reset : Arr := ⟨[], [], [], [], [], [], [], [], [], [], [], [], []⟩

/-- Alarms, the event log and MSI-X (chapters 14 and 18). -/
structure Obs where
  /-- the device-wide record queue of R434 -/
  queue : List LogRec
  /-- records lost at the queue since the last one written (R434) -/
  qLost : Nat
  finds : Sparse FindCnt
  alarms : Sparse AlarmEntry
  /-- the log ring by ring position (R436) -/
  log : Sparse LogRec
  summaries : Sparse Summary
  msix : Sparse Msix
  /-- the spill: index of the record to copy next, copies written, and copies lost since the last one (R437) -/
  spNext : Nat
  spWr : Nat
  spLost : Nat
  /-- sources of host vectors as yard and event, by vector, and vectors whose event occurred (R349, R366) -/
  evHost : Sparse (Nat × Nat)
  evHit : List Nat
deriving DecidableEq, Repr

/-- Alarms and log after reset. -/
abbrev Obs.reset : Obs := ⟨[], 0, [], [], [], [], [], 0, 0, 0, [], []⟩

/-- Everything the commands act on but the byte memories, the non-volatile stores and the queue. -/
structure Hw where
  /-- index of the current ACLK cycle (R108) -/
  aclk : Nat
  /-- free-value counter: the model's own field -/
  free : Nat
  /-- registers by address; an unlisted register holds its reset value -/
  regs : Sparse (BitVec 64)
  /-- W1C bits that the hardware has set in the current ACLK cycle, by address and bit (R68) -/
  justSet : List (Nat × Nat)
  arr : Arr
  obs : Obs
  /-- the yards are released from reset (R457 step 6) -/
  yardsUp : Bool
  /-- domains whose crossings are in quarantine, by domain code of Table 19.5 (R464) -/
  quarantined : BitVec 64
  mode : DevState
  /-- state held before FROZEN (R449) -/
  before : DevState
  /-- FATAL alarm whose recovery action runs (R468, R469) -/
  recovering : Option Nat
  /-- functions that were RUNNING on entering RECOVERY (R468) -/
  recorded : List Nat
  fns : Sparse Fn
  /-- the bad-row table as (bank index, row), shown in `RPR_BAD` (R200, R206) -/
  badRows : List (Nat × Nat)
  /-- requests waiting at the DMA port of each loft, in arrival order (R177) -/
  loftDma : Sparse (List DmaReq)
  /-- GiB of physical memory on each of the four channels; 0 on a device without DRAM (R207, R208) -/
  dramGib : Nat
  dram : Sparse DramCh
  noc : Noc
  /-- the device's clocks run: from PLL lock until a power loss or reset (R388, R456) -/
  clocked : Bool
  chain : Chain
  /-- request areas of the mailbox slots by 512 × slot + offset (R350) -/
  mbox : Sparse Byte
  slots : Sparse Slot
  /-- slots posted, in the order of their doorbells (R353) -/
  posted : List Nat
  pw : Sparse YardPw
  age : Sparse YardAge
  /-- service hours, and the rate reference as life consumed and hours (R421) -/
  hours : Nat
  rateRef : Option (Nat × Nat)
  /-- slot and sequence number of the newest valid ledger (R422, R424) -/
  ledger : Option (Nat × Nat)
  /-- an image load holds the staging area (R379) -/
  staging : Bool
  tb : Timebase
  gates : Sparse Gate
  /-- the PPS output is high, and the slot + 1 of its latest edge (R316) -/
  ppsHigh : Bool
  ppsSlot : Nat
  /-- JESD directions by 2 j + (1 for transmit) -/
  jesd : Sparse JDir
  eth : Eth
  /-- by pad: the 204B direction, as 2 j + (1 for transmit), that holds it (R477) -/
  padSync : Sparse Nat
  padDue : List Nat
  fab : Fab
  cap : Option CapArm
  capEnd : Option Nat
  shadow : Shadow
  /-- bytes and completion status (0 data, 1 Unsupported Request, 2 poisoned) of the latest read -/
  rdata : List Byte
  rstatus : Nat
  phase : Phase
  /-- RESET_N is low -/
  rstLow : Bool
  /-- the device drives Mc_RESET_N low (R485) -/
  mcReset : Bool
  /-- POR was asserted by a thermal trip, and stays until every yard sensor reads below 115 °C (R482) -/
  tripped : Bool
  /-- the root PLL has locked and its rails are on: the time counter counts (R460) -/
  locked : Bool
  frz : Frz
  /-- domains in reset, oldest first, by code of Table 19.5 (R462) -/
  inDom : List Nat
  /-- an image load that runs, and a firmware store that runs -/
  load : Option Load
  fwLoad : Option FwLoad
  memTest : Option MemTest
  /-- reference digests of the 56 readback chunks, none before the first application (R387) -/
  refs : Option (List (List Byte))
  /-- memories, 0 to 127 for pens and 128 to 143 for lofts, whose DMA port a bank port was granted to in the current
  cycle of their yard (R180) -/
  granted : List Nat
deriving DecidableEq, Repr

/-- The block. -/
structure State where
  hw : Hw
  /-- bytes by local address: DRAM data space, pen-memory and loft slots, configuration store -/
  mem : Sparse Byte
  nv : Nv
  /-- commands waiting, first in, first out -/
  pending : List Instr
deriving DecidableEq, Repr

/-- What stops the block with a fault: nothing. The spec gives every command an effect in every state, so no
meaning raises one; safe. (DEDUCED, log 9) -/
inductive Fault
deriving DecidableEq, Repr

/-- Why a step is refused. -/
inductive Refusal where
  /-- raised by `exec` for a command whose meaning is not written; safe: the run stops there -/
  | notModelled (mnemonic : String)
deriving DecidableEq, Repr

/-- The hardware right after POR is asserted: no clock runs, every register, buffer and queue is at its reset
value (R8, R451, R459, Table 19.2). (DEDUCED, log 10) -/
def Hw.reset : Hw where
  aclk := 0
  free := 0
  regs := []
  justSet := []
  arr := Arr.reset
  obs := Obs.reset
  yardsUp := false
  quarantined := 0
  mode := .startUp
  before := .startUp
  recovering := none
  recorded := []
  fns := []
  badRows := []
  loftDma := []
  dramGib := 0
  dram := []
  noc := Noc.reset
  clocked := false
  chain := Chain.reset
  mbox := []
  slots := []
  posted := []
  pw := []
  age := []
  hours := 0
  rateRef := none
  ledger := none
  staging := false
  tb := Timebase.reset
  gates := []
  ppsHigh := false
  ppsSlot := 0
  jesd := []
  eth := Eth.reset
  padSync := []
  padDue := []
  fab := Fab.reset
  cap := none
  capEnd := none
  shadow := Shadow.reset
  rdata := []
  rstatus := 0
  phase := .por
  rstLow := false
  mcReset := true
  tripped := false
  locked := false
  frz := Frz.reset
  inDom := []
  load := none
  fwLoad := none
  memTest := none
  refs := none
  granted := []

/-- Fuses and flash as they leave the factory without keys: nothing blown, the flash erased. (DESIGN CHOICE, log 12) -/
abbrev Nv.reset : Nv := ⟨[], 0, ⟨0, false⟩, ⟨0, false⟩, 0, 0, false, none⟩

/-- The block right after POR is asserted, with no command waiting. (DESIGN CHOICE, log 2) -/
def State.reset : State := ⟨Hw.reset, [], Nv.reset, []⟩

end Sys2Proof.Machine
end

