-- ==== Sys2Proof/Machine/Ops.lean ====
section
/-!
DEFINITION. The named operations over registers, memories and parts of the state that every family of
commands shares.
-/

namespace Sys2Proof.Machine

/-! ## Registers (R7 to R10) -/

/-- The value a register holds. -/
def reg (h : Hw) (a : Nat) : BitVec 64 := (lookup h.regs a).getD (resetAt a)

/-- A register set to a value; a value equal to the reset value is not listed. -/
def setReg (h : Hw) (a : Nat) (v : BitVec 64) : Hw :=
  { h with regs := if v = resetAt a then removeAt h.regs a else insertAt h.regs a v }

/-- The field of a register value. -/
def fieldOf (f : Fld) (v : Nat) : Nat := v / 2 ^ f.lo % 2 ^ f.w

/-- A register value with a field replaced. -/
def putField (f : Fld) (v x : Nat) : Nat :=
  v - fieldOf f v * 2 ^ f.lo + (x % 2 ^ f.w) * 2 ^ f.lo

/-- A field of a register. -/
def getF (h : Hw) (a : Nat) (f : Fld) : Nat := fieldOf f (reg h a).toNat

/-- A field of a register set, whatever its access type: what the hardware itself does to it. -/
def setF (h : Hw) (a : Nat) (f : Fld) (x : Nat) : Hw :=
  setReg h a (BitVec.ofNat 64 (putField f (reg h a).toNat x))

/-- A one-bit field is 1. -/
def isSet (h : Hw) (a : Nat) (f : Fld) : Bool := getF h a f != 0

/-- A count increased, saturating at its all-ones value. (DESIGN CHOICE, log 160) -/
def bump (h : Hw) (a : Nat) (f : Fld) (n : Nat) : Hw :=
  setF h a f (min (getF h a f + n) (2 ^ f.w - 1))

/-- A status bit set; a W1C clear in the same cycle leaves it at 1 (R68). -/
def raiseBit (h : Hw) (a : Nat) (f : Fld) : Hw :=
  { setF h a f 1 with justSet := if f.acc = .w1c ∧ ¬ h.justSet.contains (a, f.lo) then (a, f.lo) :: h.justSet else h.justSet }

/-- One bit of a status field set in the same way. -/
def raiseIn (h : Hw) (a : Nat) (f : Fld) (i : Nat) : Hw :=
  { setF h a f (getF h a f ||| 2 ^ i) with
    justSet := if f.acc = .w1c ∧ ¬ h.justSet.contains (a, f.lo + i) then (a, f.lo + i) :: h.justSet else h.justSet }

/-- A list of updates applied in order. -/
def applyAll {α : Type} (f : Hw → α → Hw) (h : Hw) (xs : List α) : Hw := xs.foldl f h

/-! ## Byte memories (R5, R6, R16, R19, R20) -/

/-- A byte of memory; an unlisted byte reads 0. (DESIGN CHOICE, log 11) -/
def readByte (m : Sparse Byte) (a : Nat) : Byte := getD 0 m a

/-- A byte of memory written. -/
def writeByte (m : Sparse Byte) (a : Nat) (b : Byte) : Sparse Byte := setD 0 m a b

/-- n bytes from an address. -/
def readBytes (m : Sparse Byte) (a n : Nat) : List Byte := (List.range n).map fun i => readByte m (a + i)

/-- Bytes written from an address on. -/
def writeBytes (m : Sparse Byte) (a : Nat) : List Byte → Sparse Byte
  | [] => m
  | b :: bs => writeBytes (writeByte m a b) (a + 1) bs

/-- The little-endian value of a list of bytes (R6). -/
def leNat : List Byte → Nat
  | [] => 0
  | b :: bs => b.toNat + 256 * leNat bs

/-- n little-endian bytes of a value (R6). -/
def leBytes : Nat → Nat → List Byte
  | 0, _ => []
  | n + 1, x => BitVec.ofNat 8 x :: leBytes n (x / 256)

/-- The tagged word at an address: nine data bytes and a tag byte (R16, R20). -/
def readWord (m : Sparse Byte) (a : Nat) : TW :=
  TW.ofTag (BitVec.ofNat 72 (leNat (readBytes m a 9))) (readByte m (a + 9))

/-- A tagged word written at an address. -/
def writeWord (m : Sparse Byte) (a : Nat) (t : TW) : Sparse Byte :=
  writeBytes m a (leBytes 9 t.d.toNat ++ [t.tag])

/-- Slot of word w of the pen memory of pen n (R19). -/
abbrev penWord (n w : Nat) : Nat := 0x1000000000 + n * 0x40000 + 16 * w

/-- Slot of word w of the loft of yard y (R19). -/
abbrev loftWord (y w : Nat) : Nat := 0x1002000000 + y * 0x200000 + 16 * w

/-- Step s of the round of context c of FU g in the configuration store (R115, Table 1.6). -/
abbrev roundAddr (g c s : Nat) : Nat := 0x1004000000 + 64 * (16 * g + c) + 8 * s

/-- Tile record of FU f in pen-switch context c of pen n (R102, Table 1.6). -/
abbrev tileAddr (n c f : Nat) : Nat := 0x1004200000 + (16 * n + c) * 256 + 10 * f

/-- The 64-bit micro-instruction of a step in the configuration store. -/
def storedStep (m : Sparse Byte) (g c s : Nat) : Nat := leNat (readBytes m (roundAddr g c s) 8)

/-- The opcode and the fields of a 64-bit micro-instruction (Table 3.1, R69). -/
def stepOfBits (x : Nat) : Nat × UStep :=
  let f (lo w : Nat) : BitVec w := BitVec.ofNat w (x / 2 ^ lo)
  ((f 56 8).toNat, ⟨f 52 4, f 47 5, f 42 5, f 37 5, f 32 5, f 24 8, f 8 16, f 0 8⟩)

/-! ## Parts of the array -/

def fu (h : Hw) (g : Nat) : Fu := getD Fu.reset h.arr.fus g
def setFu (h : Hw) (g : Nat) (x : Fu) : Hw := { h with arr.fus := setD Fu.reset h.arr.fus g x }
def pen (h : Hw) (n : Nat) : Pen := getD Pen.reset h.arr.pens n
def setPen (h : Hw) (n : Nat) (x : Pen) : Hw := { h with arr.pens := setD Pen.reset h.arr.pens n x }
/-- Trough with key 8 n + k. -/
def trough (h : Hw) (key : Nat) : Trough := getD Trough.reset h.arr.troughs key
def setTrough (h : Hw) (key : Nat) (x : Trough) : Hw :=
  { h with arr.troughs := setD Trough.reset h.arr.troughs key x }
def sched (h : Hw) (y : Nat) : Sched := getD Sched.reset h.arr.scheds y
def setSched (h : Hw) (y : Nat) (x : Sched) : Hw :=
  { h with arr.scheds := setD Sched.reset h.arr.scheds y x }
def task (h : Hw) (y t : Nat) : Task := getD Task.reset (sched h y).tasks t
def setTask (h : Hw) (y t : Nat) (x : Task) : Hw :=
  setSched h y { sched h y with tasks := setD Task.reset (sched h y).tasks t x }
def bankOf (f : Fu) (b : Nat) : Bank := getD Bank.zero f.banks b
def setBank (f : Fu) (b : Nat) (x : Bank) : Fu := { f with banks := setD Bank.zero f.banks b x }

/-! ## Clocks and power of a yard -/

/-- log2 of the divide of a yard now in force (Table 16.x, `YP_STAT.DIV`). -/
def yardShift (h : Hw) (y : Nat) : Nat := getF h (aYP_STAT y) fYP_STAT_DIV

/-- The yard is in RUN and its clock runs: neither in SLEEP nor in DEEP-SLEEP, nor on the way from its clock
stop to DEEP-SLEEP (R403, R404). -/
def yardRuns (h : Hw) (y : Nat) : Bool :=
  getF h (aYP_STAT y) fYP_STAT_MODE == 0 && !(getD YardPw.reset h.pw y).stopped

/-- Number of the current cycle of a yard's array clock (R108). -/
def yardCycle (h : Hw) (y : Nat) : Nat := h.aclk / 2 ^ yardShift h y

/-- ACLK index L yard cycles after the current one. -/
def dueIn (h : Hw) (y l : Nat) : Nat := (yardCycle h y + l) * 2 ^ yardShift h y

/-- ACLK index of the edge at which the current cycle of a yard began. -/
def edgeOf (h : Hw) (y : Nat) : Nat := yardCycle h y * 2 ^ yardShift h y

/-- First edge of a yard at or after an ACLK index (R108). -/
def edgeFrom (h : Hw) (y a : Nat) : Nat :=
  let d := 2 ^ yardShift h y
  (a + d - 1) / d * d

/-- The yard's clock has an edge in this cycle (R108). -/
def onEdge (h : Hw) (y : Nat) : Bool := h.aclk % 2 ^ yardShift h y == 0

/-- The current ACLK cycle is the last of a cycle of the yard's clock. -/
def cycleEnds (h : Hw) (y : Nat) : Bool := (h.aclk + 1) % 2 ^ yardShift h y == 0

/-- An ACLK index, kept + 1 and 0 for none, lies in the current cycle of a yard. -/
def inCycle (h : Hw) (y at1 : Nat) : Bool := at1 != 0 && edgeOf h y < at1

/-- `CRD_TICK`: ACLK/8 ticks since POR (R169). -/
def crdTick (h : Hw) : Nat := h.aclk / 8

/-! ## Free values -/

/-- A tagged word that the spec leaves open. -/
def freshWord (h : Hw) : TW × Hw := (TW.ofBits (Config.freeWord h.free), { h with free := h.free + 1 })

/-- A number that the spec leaves open. -/
def freshNat (h : Hw) : Nat × Hw := (Config.freeNat h.free, { h with free := h.free + 1 })

/-! ## Events (R147) -/

/-- Which events are reserved and never occur (Table 6.1). -/
def eventReserved (e : Nat) : Bool := 0xF9 ≤ e && e ≤ 0xFB

/-- An event raised in a yard: recorded in `SCH_EVSEEN` while the yard is in RUN, and latched for the
next evaluation while the scheduler is enabled (R147, Tables 6.8, 6.9). An occurrence that is the source
of a host vector is noted for it (R349). -/
def raiseEventAt (h : Hw) (y e cyc : Nat) : Hw :=
  if ¬ yardRuns h y ∨ eventReserved e then h
  else
    let a := aSCH_EVSEEN y (e / 64)
    let hits := (h.obs.evHost.filter fun x => x.2 == (y, e)).map (·.1)
    let h1 := setReg { h with obs.evHit := h.obs.evHit ++ hits } a (reg h a ||| BitVec.ofNat 64 (2 ^ (e % 64)))
    if isSet h1 (aSCH_CTL y) fSCH_CTL_EN then
      let s := sched h1 y
      setSched h1 y { s with latched := s.latched ++ [(e, cyc)] }
    else h1

/-- An event line to be raised at an ACLK index; it is raised once however often it is asked for in a cycle (R88,
R266). -/
def raiseLater (h : Hw) (y e at_ : Nat) : Hw :=
  if h.arr.signals.contains (y, e, at_) then h else { h with arr.signals := h.arr.signals ++ [(y, e, at_)] }

/-- An event raised in this cycle. -/
def raiseEvent (h : Hw) (y e : Nat) : Hw := raiseEventAt h y e h.aclk

/-- An event raised in every yard. -/
def raiseEventAll (h : Hw) (e : Nat) : Hw := applyAll (fun h y => raiseEvent h y e) h (List.range 16)

/-! ## Context status (R66, R67) -/

/-- A flag of `FU_CST` set; its change from 0 to 1 raises the context-error event for an `ERR` bit or
where `FU_ERRMASK` enables it. -/
def setCst (h : Hw) (g c : Nat) (f : Fld) : Hw :=
  let a := aFU_CST g c
  if isSet h a f then raiseBit h a f
  else
    let h1 := raiseBit h a f
    let armed := 8 ≤ f.lo || (reg h1 (aFU_ERRMASK g)).getLsbD f.lo
    if armed then raiseEvent h1 (g / 128) 0xF8 else h1

/-- A flag set where a condition holds. -/
def setCstIf (h : Hw) (g c : Nat) (f : Fld) (b : Bool) : Hw := if b then setCst h g c f else h

/-- The arithmetic flags of a step recorded in the context status. (DEDUCED, log 19) -/
def setFlags (h : Hw) (g c : Nat) (fl : Flags) : Hw :=
  let h := setCstIf h g c fFU_CST_OVF fl.ovf
  let h := setCstIf h g c fFU_CST_SATD fl.satd
  let h := setCstIf h g c fFU_CST_ACCOVF fl.accovf
  let h := setCstIf h g c fFU_CST_EOVF fl.eovf
  setCstIf h g c fFU_CST_EUNF fl.eunf

/-- Poisoned results recorded: `PSN` and `PSNCNT` (R56). (DEDUCED, log 23) -/
def countPoison (h : Hw) (g c k : Nat) : Hw :=
  bump (setCst h g c fFU_CST_PSN) (aFU_CST g c) fFU_CST_PSNCNT k

/-! ## Outcomes -/

/-- A command that changes the hardware only. -/
def onHw (s : State) (f : Hw → Hw) : State := { s with hw := f s.hw }

/-- A command that changes the hardware and the byte memories. -/
def onMem (s : State) (f : Sparse Byte → Hw → Sparse Byte × Hw) : State :=
  { s with mem := (f s.mem s.hw).1, hw := (f s.mem s.hw).2 }

/-- Every state-advancing clock is stopped, or the device is not powered (R444, R456): only the witness
domain acts. -/
def frozen (h : Hw) : Bool := h.mode == .frozen || !h.clocked

/-- The array of a yard runs: released from reset, not FROZEN, in RUN, not in a domain reset (R403, R444, R457,
R462). -/
def arrayRuns (h : Hw) (y : Nat) : Bool := h.yardsUp && !frozen h && yardRuns h y && !(h.inDom.contains y)

end Sys2Proof.Machine
end

