-- ==== Sys2Proof/Machine/Links.lean ====
section
/-!
DEFINITION. The two directions of a JESD link as registers and state: what configuration, status and stop
share (R291, R306, Table 14.9). Direction d of link j is 2 j, or 2 j + 1 for transmit.
-/

namespace Sys2Proof.Machine

/-! ## Directions of JESD links (d = 2 j + 1 for transmit) -/

def jdir (h : Hw) (d : Nat) : JDir := getD JDir.reset h.jesd d
def setJdir (h : Hw) (d : Nat) (x : JDir) : Hw := { h with jesd := setD JDir.reset h.jesd d x }

/-- Configuration register of a direction; `JL_TXCFG` has the layout of `JL_RXCFG` (R306). -/
def aJcfg (d : Nat) : Nat := if d % 2 = 0 then aJL_RXCFG (d / 2) else aJL_TXCFG (d / 2)

/-- SYSREF register of a direction; `JL_TXSR` has the layout of `JL_RXSR` (R306). -/
def aJsr (d : Nat) : Nat := if d % 2 = 0 then aJL_RXSR (d / 2) else aJL_TXSR (d / 2)

def jField (h : Hw) (d : Nat) (f : Fld) : Nat := getF h (aJcfg d) f
def jEn (h : Hw) (d : Nat) : Bool := jField h d fJL_RXCFG_EN == 1
def jIsB (h : Hw) (d : Nat) : Bool := jField h d fJL_RXCFG_STD == 1
def upFld (d : Nat) : Fld := if d % 2 = 0 then fJL_STAT_RXUP else fJL_STAT_TXUP
def srlkFld (d : Nat) : Fld := if d % 2 = 0 then fJL_STAT_RXSRLK else fJL_STAT_TXSRLK
def jUp (h : Hw) (d : Nat) : Bool := isSet h (aJL_STAT (d / 2)) (upFld d)

/-- A W1C bit of `JL_STAT` set; its change from 0 to 1 raises the link's status event (R291). -/
def jRaise (h : Hw) (j : Nat) (f : Fld) : Hw :=
  if isSet h (aJL_STAT j) f then raiseBit h (aJL_STAT j) f else raiseEventAll (raiseBit h (aJL_STAT j) f) (0xC3 + 4 * j)

/-- `RXUP` or `TXUP` set or cleared; a change raises the link's status event (R291). -/
def jSetUp (h : Hw) (d : Nat) (on : Bool) : Hw :=
  if jUp h d = on then h
  else raiseEventAll (setF h (aJL_STAT (d / 2)) (upFld d) on.toNat) (0xC3 + 4 * (d / 2))

/-- A direction whose `EN` is cleared: its lanes stop (R363). -/
def jStop (h : Hw) (d : Nat) : Hw :=
  let h1 := if d % 2 = 0 then setF h (aJL_STAT (d / 2)) fJL_STAT_RXLOCK 0 else h
  setJdir (jSetUp h1 d false) d { jdir h1 d with buf := [], half := none, blk := 0, place := 0 }

end Sys2Proof.Machine
end

