-- ==== Sys2Proof/Machine/Route.lean ====
section
/-!
DEFINITION. The array interconnect: tile coordinates, tracks, switch points, track registers and the
words that IN ports and tracks carry (R95 to R113).
-/

namespace Sys2Proof.Machine

/-! ## Geometry (R95) -/

def tileRow (g : Nat) : Nat :=
  let y := g / 128
  let p := g / 16 % 8
  8 * (y / 4) + 4 * (p / 4) + g % 16 / 4
def tileCol (g : Nat) : Nat :=
  let y := g / 128
  let p := g / 16 % 8
  16 * (y % 4) + 4 * (p % 4) + g % 4

/-- The FU of a tile. -/
def fuAt (row col : Nat) : Nat :=
  let y := 4 * (row / 8) + col / 16
  let p := 4 * (row % 8 / 4) + col % 16 / 4
  16 * (8 * y + p) + 4 * (row % 4) + col % 4

/-- The tile `len` pitches away in direction d: 0 east, 1 north, 2 west, 3 south; none outside the
array. -/
def tileTo (g d len : Nat) : Option Nat :=
  let r := tileRow g
  let c := tileCol g
  match d with
  | 0 => if c + len < 64 then some (fuAt r (c + len)) else none
  | 1 => if len ≤ r then some (fuAt (r - len) c) else none
  | 2 => if len ≤ c then some (fuAt r (c - len)) else none
  | _ => if r + len < 32 then some (fuAt (r + len) c) else none

/-- Length of a track of kind k (R96). -/
def trackLen (k : Nat) : Nat := if k = 2 then 4 else 1

/-- Far end of outgoing track t of a tile. -/
def farEnd (g t : Nat) : Option Nat := tileTo g (t / 3) (trackLen (t % 3))

/-- The tile and outgoing track that arrive as incoming track t (R96). -/
def driverOf (g t : Nat) : Option (Nat × Nat) :=
  match tileTo g (t / 3) (trackLen (t % 3)) with
  | some g' => some (g', 3 * ((t / 3 + 2) % 4) + t % 3)
  | none => none

/-! ## Tile records (R102, Table 4.3) -/

/-- The record that the switch point of a tile uses: that of the context its FU runs (R114, R138). -/
def tileRecord (m : Sparse Byte) (h : Hw) (g : Nat) : Nat :=
  leNat (readBytes m (tileAddr (g / 16) (fu h g).ctx (g % 16)) 10)

def inSel (rec k : Nat) : Nat := rec / 2 ^ (4 * k) % 16
def outSel (rec t : Nat) : Nat := rec / 2 ^ (16 + 4 * t) % 16
def regBit (rec t : Nat) : Bool := rec.testBit (64 + t)

/-- Track t of tile g crosses into another yard (R98). -/
def crosses (g t : Nat) : Bool :=
  match farEnd g t with
  | some g' => g' / 128 != g / 128
  | none => false

/-- The register of track t is in use (R98). -/
def registered (rec g t : Nat) : Bool :=
  match farEnd g t with
  | none => false
  | some g' => !(crosses g t) && (t % 3 == 2 || g' / 16 != g / 16 || regBit rec t)

/-- A word with V = 0 is the not-valid word to an FU (R38). -/
def asSeen (t : TW) : TW := if t.v then t else TW.notValid

/-- The word an OUT port presents in a cycle of its yard (R36). -/
def outWord (h : Hw) (g k : Nat) : TW :=
  let o := if k = 0 then (fu h g).out0 else (fu h g).out1
  if o.cyc = yardCycle h (g / 128) then o.tw else TW.notValid

/-- The pen is in a stall cycle (R104). -/
def stalled (h : Hw) (n : Nat) : Bool :=
  (pen h n).stallAt != 0 && ((pen h n).stallAt - 1) / 2 ^ yardShift h (n / 8) == yardCycle h (n / 8)

/-- What a wire carries: a word, or a path that breaks R99 and settles to a value the spec leaves open
(R101). -/
inductive Wire where
  | word (t : TW)
  | broken
deriving DecidableEq, Repr

/-- The word that a select of a tile carries in this cycle, followed back to a timing point: an OUT port,
a track register in use or a crossing's output. `points` switch points and `pitch` tile pitches remain, and `tooLong`
says that the wire is already longer than R99 allows; a select of 0xE carries the not-valid word and 0xF acts as 0xE
(R101). In a stall cycle of its pen, a track without a crossing presents the not-valid word outside the pen, and a
crossing goes on to present what it took before (R106). (DEDUCED, log 165) -/
def traceBack (m : Sparse Byte) (h : Hw) : Nat → Bool → Nat → Nat → Nat → Nat → Wire
  | 0, _, _, _, _, _ => .broken
  | fuel + 1, tooLong, points, pitch, g, sel =>
    let tooLong := tooLong || points == 0
    if sel = 12 then (if tooLong then .broken else .word (outWord h g 0))
    else if sel = 13 then (if tooLong then .broken else .word (outWord h g 1))
    else if 14 ≤ sel then .word TW.notValid
    else
      match driverOf g sel with
      | none => .word TW.notValid
      | some (g', t') =>
        let tooLong := tooLong || pitch < trackLen (t' % 3)
        if crosses g' t' then
          let o := getD ⟨TW.notValid, 0⟩ h.arr.xout (12 * g' + t')
          if tooLong then .broken else .word (if o.cyc = yardCycle h (g / 128) then o.tw else TW.notValid)
        else if registered (tileRecord m h g') g' t' then
          if tooLong then .broken
          else if g' / 16 ≠ g / 16 ∧ stalled h (g' / 16) then .word TW.notValid
          else .word (getD TW.notValid h.arr.tracks (12 * g' + t'))
        else
          let sel' := outSel (tileRecord m h g') t'
          let uTurn := sel' < 12 && sel' / 3 == t' / 3
          traceBack m h fuel tooLong (points - 1) (pitch - trackLen (t' % 3)) g' (if uTurn then 14 else sel')

/-- Tracks of a pen: a wire without a timing point stays in one pen, and one that meets more tracks than these runs in
a ring. -/
abbrev wireFuel : Nat := 193

/-- The word that a wire carries: on a path that breaks R99 one value that the spec leaves open, the same to all that
look at the wire in one cycle (R35, R101). -/
def wireWord (h : Hw) (wire y : Nat) : Wire → TW
  | .word t => t
  | .broken => TW.ofBits (Config.brokenWire wire (edgeOf h y))

/-- The word on port INk of an FU, before the FU looks at its V bit (R35, R101). (DEDUCED, log 29) -/
def inWord (m : Sparse Byte) (h : Hw) (g k : Nat) : TW :=
  wireWord h (32 * g + k) (g / 128) (traceBack m h wireFuel false 3 4 g (inSel (tileRecord m h g) k))

/-- The word at the source of outgoing track t, which its register takes at the end of the cycle, or its crossing at
the cycle's edge. -/
def trackSource (m : Sparse Byte) (h : Hw) (g t : Nat) : TW :=
  let sel := outSel (tileRecord m h g) t
  if sel < 12 && sel / 3 == t / 3 then TW.notValid
  else wireWord h (32 * g + 4 + t) (g / 128) (traceBack m h wireFuel false 3 4 g sel)

/-- Some word of the interconnect is valid, so that a cycle moves something. -/
def arrayBusy (h : Hw) : Bool :=
  h.arr.tracks.any (fun e => e.2.v) || h.arr.xout.any (fun e => e.2.tw.v) ||
    h.arr.fus.any fun e => (e.2.out0.tw.v && e.2.out0.cyc == yardCycle h (e.1 / 128)) ||
      (e.2.out1.tw.v && e.2.out1.cyc == yardCycle h (e.1 / 128))

/-- The crossing of a track is closed because its receiving yard sleeps (R112). -/
def crossClosed (h : Hw) (g t : Nat) : Bool :=
  match farEnd g t with
  | some g' => !(yardRuns h (g' / 128))
  | none => false

/-- A crossing takes the word at its input on an edge of the sending yard, with the due cycle of R108; the not-valid
word in a stall cycle of its pen (R106); a closed crossing discards it (R112). -/
def takeCrossing (m : Sparse Byte) (h0 h : Hw) (g t : Nat) : Hw :=
  match farEnd g t with
  | none => h
  | some g' =>
    let w := if stalled h0 (g / 16) then TW.notValid else trackSource m h0 g t
    if ¬ w.v then h
    else if h.quarantined.getLsbD (g / 128) ∨ h.quarantined.getLsbD (g' / 128) then
      bump h aDV_XQ fDV_XQ_XDISC 1
    else if crossClosed h0 g t then bump h (aPEN_XLOST (g / 16)) fPEN_XLOST_XCLOST 1
    else { h with arr.xq := h.arr.xq ++ [⟨12 * g + t, w, edgeFrom h0 (g' / 128) (h0.aclk + 3)⟩] }

/-- A track register in use takes the word at its input at the end of a cycle in which its pen does not stall (R98,
R105). -/
def takeRegister (m : Sparse Byte) (h0 h : Hw) (g t : Nat) : Hw :=
  if stalled h0 (g / 16) ∨ ¬ registered (tileRecord m h0 g) g t then h
  else { h with arr.tracks := setD TW.notValid h.arr.tracks (12 * g + t) (trackSource m h0 g t) }

/-- Every crossing whose sending yard has an edge at this index, and every register whose yard's cycle ends with it
(R98, R103, R105, R108). -/
def advanceTracks (m : Sparse Byte) (h : Hw) : Hw :=
  if arrayBusy h then
    applyAll (fun h' i =>
        let g := i / 12
        let y := g / 128
        if ¬ arrayRuns h y then h'
        else if crosses g (i % 12) then (if onEdge h y then takeCrossing m h h' g (i % 12) else h')
        else if cycleEnds h y then takeRegister m h h' g (i % 12) else h')
      h (List.range (2048 * 12))
  else h

/-- Valid words that arrive on entering tracks of a pen and that its tiles route to an IN port or an
outgoing track (R107). -/
def arrivingValid (m : Sparse Byte) (h : Hw) (n : Nat) : Nat :=
  (List.range (16 * 12)).countP fun i =>
    let g := 16 * n + i / 12
    let t := i % 12
    match driverOf g t with
    | none => false
    | some (g', _) =>
      let rec' := tileRecord m h g
      g' / 16 != n &&
        ((List.range 4).any (fun k => inSel rec' k == t) || (List.range 12).any fun o => outSel rec' o == t) &&
        (wireWord h (32 * g + 16 + t) (g / 128) (traceBack m h wireFuel false 3 4 g t)).v

/-- The valid words that a stall cycle loses, counted at the edge of the cycle when every pen's stall in it is known
(R106, R107). -/
def countLost (m : Sparse Byte) (h : Hw) : Hw :=
  applyAll (fun h e => if stalled h e.1 ∧ onEdge h (e.1 / 8) ∧ arrayRuns h (e.1 / 8) then
      bump h (aPEN_XLOST e.1) fPEN_XLOST_XLOST (arrivingValid m h e.1) else h) h h.arr.pens

/-- A stall cycle of a pen (R64, R104, R105, R113): its results in flight and its OUT ports hold, and its FUs' next
issue slots come one cycle later. `trg` is the lowest-numbered trough that refuses. -/
def stallPen (h : Hw) (n : Nat) (trg : Nat) (popKind : Bool) : Hw :=
  let a := aPEN_STALL n
  let y := n / 8
  let d := 2 ^ yardShift h y
  let hold (o : OutPort) : OutPort := if o.cyc + 1 = yardCycle h y then { o with cyc := yardCycle h y } else o
  let h1 := bump h a fPEN_STALL_STALLCNT 1
  let h2 := setF (setF h1 a fPEN_STALL_LASTTRG trg) a fPEN_STALL_LASTKIND popKind.toNat
  { h2 with
    arr.fus := h2.arr.fus.map (fun e =>
      if e.1 / 16 = n then
        (e.1, { e.2 with out0 := hold e.2.out0, out1 := hold e.2.out1,
                         nextSlot := if h.aclk < e.2.nextSlot then e.2.nextSlot + d else e.2.nextSlot })
      else e)
    arr.flights := h2.arr.flights.map (fun f =>
      if f.g / 16 = n then { f with due := f.due + d } else f)
    arr.pens := setD Pen.reset h2.arr.pens n { pen h2 n with stallAt := h2.aclk + 1 } }

end Sys2Proof.Machine
end

