-- ==== Sys2Proof/Machine/Troughs.lean ====
section
/-!
DEFINITION. Trough operations as one procedure over the pointers, the packet state and the buffers of a
trough (R182 to R194), shared by FU steps, network requests, streamers and the forwarder.
-/

namespace Sys2Proof.Machine

/-- Pen, trough number and configuration of a trough key 8 n + k. -/
abbrev aCfg (key : Nat) : Nat := aTRG_CFG (key / 8) (key % 8)
abbrev aTst (key : Nat) : Nat := aTRG_STAT (key / 8) (key % 8)

/-- Depth 2^`LOG2D` (R182). -/
def depth (h : Hw) (key : Nat) : Nat := 2 ^ getF h (aCfg key) fTRG_CFG_LOG2D

/-- Difference of two pointers modulo 2 × depth. -/
def ptrSub (n a b : Nat) : Nat := (a + 2 * n - b % (2 * n)) % (2 * n)

/-- A pointer moved on modulo 2 × depth. -/
def ptrAdd (n a k : Nat) : Nat := (a + k) % (2 * n)

/-- The position is one of those from `a` up to before `b`. -/
def inRange (n a b pos : Nat) : Bool := ptrSub n pos a < ptrSub n b a

/-- The landed frontier lf: the first position not yet landed, or the slot of an open packet (R183). -/
def landedFrontier (n : Nat) (t : Trough) : Nat :=
  let cands := (if t.isOpen then [t.slot] else []) ++ t.unlanded
  cands.foldl (fun best p => if ptrSub n p t.rp < ptrSub n best t.rp then p else best) t.wp

def readable (n : Nat) (t : Trough) : Nat := ptrSub n (landedFrontier n t) t.rp
def occupied (n : Nat) (t : Trough) : Nat := ptrSub n t.wp t.rl

/-- The trough with the pointers of the start of the cycle kept, its occupied count taken into the high-water
mark, and no FU counted in it yet (R186, R188). -/
def beginCycle (n cyc : Nat) (t : Trough) : Trough :=
  if t.cyc = cyc then t
  else { t with cyc := cyc, lf0 := landedFrontier n t, rp0 := t.rp, rl0 := t.rl, prodFu := none, consFu := none,
                hwm := max t.hwm (occupied n t) }

/-- A trough as an operation of this cycle meets it. -/
def troughNow (h : Hw) (key : Nat) : Trough :=
  beginCycle (depth h key) (yardCycle h (key / 64)) (trough h key)

/-- A result in flight to a position of the trough that no longer waits for a word: its position was rolled
back, and the result is discarded when it lands (R188). -/
def givenUp (key : Nat) (t : Trough) (f : Flight) : Bool :=
  match f.dest with
  | .trough k pos => k == key && !t.unlanded.contains pos
  | _ => false

/-- A trough stored back; results on their way to positions that it has given up are discarded (R188). -/
def putTrough (h : Hw) (key : Nat) (t : Trough) : Hw :=
  let h1 := setTrough h key t
  { h1 with arr.flights := h1.arr.flights.filter fun f => !givenUp key t f }

/-- The stored word of a position: in the tail or head buffer, or in its bank (R175, R182). -/
def troughWord (m : Sparse Byte) (h : Hw) (key : Nat) (t : Trough) (pos : Nat) : TW :=
  let n := depth h key
  match lookup t.tail (pos % (2 * n)), lookup t.head (pos % (2 * n)) with
  | some w, _ => w
  | none, some w => w
  | none, none => readWord m (penWord (key / 8) (8 * getF h (aCfg key) fTRG_CFG_BASE + pos % n))

/-- A word placed in the tail buffer at a position, replacing what stood there. -/
def placeWord (t : Trough) (pos : Nat) (w : TW) : Trough :=
  { t with tail := (t.tail.filter fun e => e.1 ≠ pos) ++ [(pos, w)],
           head := t.head.filter fun e => e.1 ≠ pos,
           unlanded := t.unlanded.filter fun p => p ≠ pos }

/-- A roll-back of the write pointer to the slot: the positions given up hold nothing any more. -/
def rollBack (n : Nat) (t : Trough) : Trough :=
  let keep (p : Nat) : Bool := !(inRange n t.slot t.wp p)
  { t with wp := t.slot, isOpen := false, unlanded := t.unlanded.filter keep,
           tail := t.tail.filter fun e => keep e.1 }

/-- Outcome of a producer step on an enabled trough. -/
inductive Produced where
  | refused
  | discarded (t : Trough)
  | at (t : Trough) (pos : Nat)
deriving DecidableEq, Repr

/-- The producer procedure of R188 (push, result with DST 0x16, PKT_OPEN), with the status bits it sets:
packets rolled back, `PKTSEQ` and `PKTOVF`. -/
def produce (n : Nat) (isOpenStep : Bool) (t : Trough) : Produced × Nat × Bool × Bool :=
  if t.ovf then (.discarded t, 0, false, false)
  else
    let unclosed := isOpenStep && t.isOpen
    let t1 := if unclosed then rollBack n t else t
    let ab := if unclosed then 1 else 0
    if ptrSub n t1.wp t1.rl0 = n then
      if t1.isOpen ∧ t1.rl0 = t1.slot then
        (.discarded { rollBack n t1 with ovf := true }, ab + 1, unclosed, true)
      else if unclosed then (.discarded t1, ab, unclosed, false)
      else (.refused, 0, false, false)
    else
      let pos := t1.wp
      let t2 := { t1 with wp := ptrAdd n pos 1, unlanded := t1.unlanded ++ [pos] }
      (.at (if isOpenStep then { t2 with slot := pos, isOpen := true, opener := none,
                                         unlanded := t1.unlanded } else t2) pos, ab, unclosed, false)

/-- The status of a trough with the results of a producer step. -/
def notePackets (h : Hw) (key aborts : Nat) (pktseq pktovf : Bool) : Hw :=
  let a := aTst key
  let h := if aborts = 0 then h else bump h a fTRG_STAT_ABTCNT aborts
  let h := if pktseq then raiseBit h a fTRG_STAT_PKTSEQ else h
  if pktovf then raiseBit h a fTRG_STAT_PKTOVF else h

/-- The length word of Table 7.4. -/
def lengthWord (words bytes pstat : Nat) (ep : BitVec 4) : TW :=
  ⟨BitVec.ofNat 72 (words % 2 ^ 14 + (bytes % 2 ^ 18) * 2 ^ 14 + (pstat % 256) * 2 ^ 32),
    true, false, false, false, ep⟩

/-- `EP` of a position: of its word in flight while that has not landed, else of the stored word. -/
def positionEp (m : Sparse Byte) (h : Hw) (key : Nat) (t : Trough) (pos : Nat) : BitVec 4 :=
  let onWay := h.arr.flights.findSome? fun f =>
    match f.dest, f.pay with
    | .trough k p, .word w => if k = key ∧ p = pos then some w.ep else none
    | _, _ => none
  if t.unlanded.contains pos then onWay.getD 0 else (troughWord m h key t pos).ep

/-- PKT_CLOSE of R188 and R192: `bytes` is 9 × the word count for the array, or the port's count. -/
def closePacket (m : Sparse Byte) (h : Hw) (key : Nat) (t : Trough) (bytes : Option Nat) (pstat : Nat) :
    Hw :=
  let n := depth h key
  if t.ovf then putTrough h key { t with ovf := false }
  else if ¬ t.isOpen then raiseBit (putTrough h key t) (aTst key) fTRG_STAT_PKTSEQ
  else
    let words := ptrSub n t.wp t.slot - 1
    if words = 0 then raiseBit (putTrough h key (rollBack n t)) (aTst key) fTRG_STAT_PKTSEQ
    else
      let ep := positionEp m h key t (ptrAdd n t.slot 1)
      let w := lengthWord words (bytes.getD (9 * words)) pstat ep
      putTrough h key (placeWord { t with isOpen := false, lens := t.lens ++ [t.slot % (2 * n)] } t.slot w)

/-- PKT_ABORT of R188. -/
def abortPacket (h : Hw) (key : Nat) (t : Trough) : Hw :=
  if t.ovf then putTrough h key { t with ovf := false }
  else if t.isOpen then
    bump (putTrough h key (rollBack (depth h key) t)) (aTst key) fTRG_STAT_ABTCNT 1
  else putTrough h key t

/-- Words readable to a consumer of this cycle: up to the frontier as it stood at its start. -/
def readableNow (n : Nat) (t : Trough) : Nat :=
  if ptrSub n t.lf0 t.rl0 < ptrSub n t.rp t.rl0 then 0 else ptrSub n t.lf0 t.rp

/-- The read pointer moved past the word it stands at. -/
def popOne (n : Nat) (t : Trough) : Trough :=
  { t with rp := ptrAdd n t.rp 1, head := t.head.filter fun e => e.1 ≠ t.rp }

/-- RELEASE of R188: `k` words, or up to the read pointer. -/
def releaseWords (h : Hw) (key : Nat) (t : Trough) (k : Nat) : Hw :=
  let n := depth h key
  let avail := ptrSub n t.rp t.rl
  let k' := if k = 0 ∨ avail < k then avail else k
  let rl := ptrAdd n t.rl k'
  let lost := ptrSub n t.rp rl < ptrSub n t.mark rl
  let h1 := putTrough h key { t with rl := rl, mark := if lost then rl else t.mark,
                                     lens := t.lens.filter fun p => inRange n rl t.wp p }
  let h2 := if avail < k then raiseBit h1 (aTst key) fTRG_STAT_RELCLAMP else h1
  if lost then raiseBit h2 (aTst key) fTRG_STAT_MARKLOST else h2

/-- FLUSH of R188. -/
def flushTrough (h : Hw) (key : Nat) : Hw :=
  let t := troughNow h key
  let n := depth h key
  let t1 := if t.isOpen then rollBack n t else t
  let h1 := if t.isOpen then bump h (aTst key) fTRG_STAT_ABTCNT 1 else h
  putTrough h1 key { t1 with ovf := false, rp := t1.wp, rl := t1.wp, mark := t1.wp, lf0 := t1.wp,
                             rp0 := t1.wp, rl0 := t1.wp, unlanded := [], tail := [], head := [], lens := [] }

/-- A pop or pull of an empty trough waits or is refused in these states (R14, R188, R190). -/
def emptyRefuses (h : Hw) (key : Nat) : Bool :=
  isSet h (aCfg key) fTRG_CFG_STRICT || h.mode == .startUp || h.mode == .test || h.mode == .recovery

/-- Setting `EN` from 0 to 1: pointers 0, packet state and high-water mark cleared (R191). -/
def restartTrough (h : Hw) (key : Nat) : Hw := putTrough h key Trough.reset

/-- A word that landed late in a position given up is discarded; otherwise it takes its place. -/
def landWord (h : Hw) (key pos : Nat) (w : TW) : Hw :=
  let t := trough h key
  if t.unlanded.contains pos then setTrough h key (placeWord t pos w) else h

/-- The ECC outcome of a trough word read from its bank: corrected words and uncorrectable words count,
and an uncorrectable word reads as D = 0, tag 0x90 (R195). Words still in the tail buffer have met no
bank. -/
def troughEcc (h : Hw) (key : Nat) (inTail : Bool) (w : TW) (e : Ecc) : TW × Hw × Bool :=
  if inTail then (w, h, false)
  else
    match e with
    | .ok => (w, h, false)
    | .corrected => (w, bump h (aTRG_ECC (key / 8) (key % 8)) fTRG_ECC_CECNT 1, false)
    | .uncorrectable =>
      (TW.poisoned,
        raiseBit (bump h (aTRG_ECC (key / 8) (key % 8)) fTRG_ECC_UECNT 1) (aTst key) fTRG_STAT_UCE, true)

end Sys2Proof.Machine
end

