-- ==== Sys2Proof/Machine/SchedOps.lean ====
section
/-!
DEFINITION. Parts of the scheduler that other families share: trace records, switch orders, halting pens
and retiring a task at once (R127, R151, R158, R163, R166).
-/

namespace Sys2Proof.Machine

/-- Fields of a task-table entry (Tables 6.2 and 6.3). -/
def taskCtx (h : Hw) (y t : Nat) : Nat := getF h (aSCH_TASK0 y t) fSCH_TASK0_CTX
def taskMask (h : Hw) (y t : Nat) : Nat := getF h (aSCH_TASK0 y t) fSCH_TASK0_PENMASK
def taskPrio (h : Hw) (y t : Nat) : Nat := getF h (aSCH_TASK0 y t) fSCH_TASK0_PRIO
def taskValid (h : Hw) (y t : Nat) : Bool := isSet h (aSCH_TASK0 y t) fSCH_TASK0_VALID

/-- The trace record of Table 6.6. -/
def traceRecord (h : Hw) (y kind task ctx mask reason : Nat) : BitVec 64 :=
  BitVec.ofNat 64 (reason % 256 + mask % 256 * 2 ^ 8 + ctx % 16 * 2 ^ 16 + task % 64 * 2 ^ 20 +
    kind % 16 * 2 ^ 26 + y % 16 * 2 ^ 30 + crdTick h % 2 ^ 30 * 2 ^ 34)

/-- The DROP record: bits [25:0] hold the number of records lost (Table 6.7). -/
def dropRecord (h : Hw) (y lost : Nat) : BitVec 64 :=
  BitVec.ofNat 64 (min lost 0x3FFFFFF + 15 * 2 ^ 26 + y % 16 * 2 ^ 30 + crdTick h % 2 ^ 30 * 2 ^ 34)

/-- Records that fit in the ring besides those staged (R166). -/
def ringRoom (h : Hw) (y : Nat) : Nat :=
  let used := (getF h (aSCH_TRWR y) fSCH_TRWR_WR + 2 ^ 32 - getF h (aSCH_TRRD y) fSCH_TRRD_RD) % 2 ^ 32
  2 ^ getF h (aSCH_TRSIZE y) fSCH_TRSIZE_LOG2 - used - (sched h y).staging.length

/-- A record staged for the ring, preceded by a DROP record after a loss, or lost (R165, R166). -/
def stageRecord (h : Hw) (y : Nat) (r : BitVec 64) : Hw :=
  if ¬ isSet h (aSCH_CTL y) fSCH_CTL_TREN then h
  else
    let s := sched h y
    let recs := if s.lost = 0 then [r] else [dropRecord h y s.lost, r]
    if recs.length ≤ ringRoom h y ∧ s.staging.length + recs.length ≤ 16 then
      setSched h y { s with staging := s.staging ++ recs, lost := 0 }
    else bump (setSched h y { s with lost := s.lost + 1 }) (aSCH_TRDROP y) fSCH_TRDROP_DROP 1

/-- A decision recorded for a task (R163). -/
def record (h : Hw) (y kind t mask reason : Nat) : Hw :=
  stageRecord h y (traceRecord h y kind t (taskCtx h y t) mask reason)

/-- The switch cycle D of a decision (R127): e is the event's cycle and v the decision's. -/
def switchCycle (h : Hw) (y e v : Nat) : Nat :=
  let cands := [e + 6, e + 5, e + 4, e + 3].filter fun a =>
    a % 2 ^ yardShift h y == 0 && v + 4 ≤ a
  cands.headD (edgeFrom h y (v + 4))

/-- A switch order sent to a pen. -/
def orderPen (h : Hw) (n : Nat) (o : SwitchOrder) : Hw :=
  setPen h n { pen h n with orders := (pen h n).orders ++ [o] }

/-- The pens of a mask, as pen numbers of a yard. -/
def pensOf (mask : Nat) : List Nat := (List.range 8).filter fun p => mask.testBit p

/-- Halt orders for the pens of a mask, with their registers (R158). -/
def haltPens (h : Hw) (y mask e v t : Nat) : Hw :=
  applyAll (fun h p =>
      orderPen (setF h (aSCH_PENSTAT y) (fSCH_PENSTAT_HELD p) 0) (8 * y + p)
        ⟨none, switchCycle h y e v, none, t⟩)
    h (pensOf mask)

/-- A task retired while no evaluation runs (R151): IDLE, seen bits cleared, and for a RUNNING or PENDING
task a COMPLETE record and its pens halted, with the cycle of the write as e and as v. (DESIGN CHOICE, log 178) -/
def retireNow (h : Hw) (y t : Nat) : Hw :=
  let k := task h y t
  match k.st with
  | .idle => setTask h y t { k with seen := 0, retire := false }
  | .ready => setTask h y t Task.reset
  | .running | .pending =>
    let h1 := record (setTask h y t Task.reset) y 3 t (taskMask h y t) 0xFF
    haltPens h1 y (taskMask h y t) h.aclk h.aclk t

/-! ## Functions (R363, R364; Table 14.9) -/

/-- Identifier of a function. -/
abbrev fnId (kind inst : Nat) : Nat := kind * 256 + inst

def fnOf (h : Hw) (id : Nat) : Fn := getD Fn.zero h.fns id
def setFn (h : Hw) (id : Nat) (f : Fn) : Hw := { h with fns := setD Fn.zero h.fns id f }
def fnRunning (h : Hw) (id : Nat) : Bool := (fnOf h id).running

/-- The functions of Table 14.9. -/
def fnValid (id : Nat) : Bool :=
  let i := id % 256
  match id / 256 with
  | 1 => i < 4
  | 2 => i < 16
  | 3 => i < 16
  | 4 => i < 16
  | 5 => i == 0
  | 6 => i == 0
  | 7 => i == 0
  | _ => false

/-- All functions. -/
def allFns : List Nat :=
  (List.range 4).map (fnId 1) ++ (List.range 16).map (fnId 2) ++ (List.range 16).map (fnId 3) ++
    (List.range 16).map (fnId 4) ++ [fnId 5 0, fnId 6 0, fnId 7 0]

/-- The enables that `FUNC_STOP` of a function clears (Table 14.9). -/
def fnEnables (id : Nat) : List (Nat × Fld) :=
  let i := id % 256
  match id / 256 with
  | 1 => [(aJL_RXCFG i, fJL_RXCFG_EN), (aJL_TXCFG i, fJL_TXCFG_EN)]
  | 2 => (aETH_PCTL i, fETH_PCTL_EN) :: (List.range 8).map fun c => (aETH_TC i c, fETH_TC_EN)
  | 3 => ((List.range 8).map fun p => (List.range 2).map fun st => (aPS_CTL (8 * i + p) st, fPS_CTL_EN)).flatten
  | 4 => [(aSCH_CTL i, fSCH_CTL_EN)]
  | 5 => [(aTB_PPS, fTB_PPS_EN), (aTB_CAPIN, fTB_CAPIN_EN)]
  | 6 => (List.range 64).map fun k => (aGS_CTL k, fGS_CTL_ARM)
  | 7 => [(aTF_CTL, fTF_CTL_EN)]
  | _ => []

/-- Enables cleared. -/
def clearEnables (h : Hw) (es : List (Nat × Fld)) : Hw := applyAll (fun h e => setF h e.1 e.2 0) h es

/-- The enables of a function that are set, with their values, kept for `FUNC_START`. -/
def setEnables (h : Hw) (id : Nat) : List (Nat × Fld × Nat) :=
  (fnEnables id).filterMap fun e => if getF h e.1 e.2 = 0 then none else some (e.1, e.2, getF h e.1 e.2)

/-- What else clearing a function's enables does: JESD directions go down (R363), and the fabric clears its
flops, latches and wires (R334). -/
def afterStop (h : Hw) (id : Nat) : Hw :=
  if id / 256 = 1 then jStop (jStop h (2 * (id % 256))) (2 * (id % 256) + 1)
  else if id / 256 = 7 then { h with fab.q := [], fab.seg := [], fab.port := [], fab.prev := [] }
  else h

/-- A running function stopped with a cause, its set enables kept and cleared. (DEDUCED, log 80) -/
def stopOne (h : Hw) (id cause : Nat) : Hw :=
  let saved := setEnables h id
  setFn (afterStop (clearEnables h (fnEnables id)) id) id ⟨false, cause, saved⟩

/-- A function stopped with a cause (R363). The stop of a yard program also stops its scheduler, remembers
that it did (R364), retires every valid task and halts the pens. (DEDUCED, log 133) -/
def stopFn (h : Hw) (id cause : Nat) : Hw :=
  if ¬ fnRunning h id then h
  else
    let h1 := stopOne h id cause
    if id / 256 = 3 then
      let y := id % 256
      let sid := fnId 4 y
      let h2 := if fnRunning h1 sid then
          setFn (stopOne h1 sid cause) id { fnOf h1 id with saved := (fnOf h1 id).saved ++ [(aSCH_CTL y, fSCH_CTL_EN, 1)] }
        else h1
      let h3 := applyAll (fun h t => if taskValid h y t then retireNow h y t else h) h2 (List.range 64)
      applyAll (fun h p => if (pen h (8 * y + p)).halted then h
        else orderPen h (8 * y + p) ⟨none, switchCycle h y h.aclk h.aclk, none, 0⟩) h3 (List.range 8)
    else h1

end Sys2Proof.Machine
end

