-- ==== Sys2Proof/Machine/Alarms.lean ====
section
/-!
DEFINITION. The record path and the alarm table: MSI-X causes, log records, first occurrences and
repeats, hardware findings, and the entry into RECOVERY (R349, R434 to R442, R468, R469).
-/

namespace Sys2Proof.Machine

/-! ## MSI-X (R349) -/

def msix (h : Hw) (v : Nat) : Msix := getD Msix.zero h.obs.msix v
def setMsix (h : Hw) (v : Nat) (x : Msix) : Hw := { h with obs.msix := setD Msix.zero h.obs.msix v x }

/-- The mask bit of the vector's table entry (R348, R349). -/
def vecMasked (h : Hw) (v : Nat) : Bool := isSet h (aMSIX_CTL v) fMSIX_CTL_MASK

/-- A cause of a vector: a message at once, or the pending bit while the vector's interval runs or its
entry is masked. -/
def sendVector (h : Hw) (v : Nat) : Hw :=
  let x := msix h v
  if x.busy ∨ vecMasked h v then setMsix h v { x with pend := true }
  else setMsix h v { x with busy := true, sent := x.sent + 1 }

/-! ## The event log (R436 to R438) -/

/-- Device address for records and summaries: 0xFF before roll call. -/
def recDevice (h : Hw) : Nat :=
  if isSet h aCH_ID fCH_ID_AVLD then getF h aCH_ID fCH_ID_ADDR else 0xFF

/-- The device is device 0: its HOSTPORT strap is high (Table 0.4). -/
def isDev0 (h : Hw) : Bool := isSet h aDV_BOOT fDV_BOOT_HOSTPORT

/-- One record appended to the ring. -/
def appendLog (h : Hw) (r : LogRec) : Hw :=
  let i := getF h aAL_STAT fAL_STAT_WRIDX
  let h1 := { h with obs.log := insertAt h.obs.log (i % 8192) r }
  setF h1 aAL_STAT fAL_STAT_WRIDX (i + 1)

/-- A record written to the log, preceded by a drop marker after losses at the queue (R434). -/
def writeLog (h : Hw) (r : LogRec) : Hw :=
  let h1 := if h.obs.qLost = 0 then h
    else appendLog { h with obs.qLost := 0 }
      ⟨0x000A, 0xFFFF, crdTick h, 0xFF, recDevice h, 0xFF, 0, h.obs.qLost⟩
  appendLog h1 r

/-- A record of the present moment. -/
def recNow (h : Hw) (kind code cls router addr detail : Nat) : LogRec :=
  ⟨kind, code, crdTick h, cls, recDevice h, router, addr, detail⟩

/-! ## The alarm table (R438 to R441) -/

/-- Class of an alarm code: 0 FATAL, 1 MAJOR, 2 MINOR, 3 INFO; none for a reserved code (Table 18.4). (DEDUCED, log 95) -/
def alarmClass : Nat → Option Nat
  | 0x001 => some 0
  | 0x002 => some 1
  | 0x003 => some 2
  | 0x008 => some 0
  | 0x009 => some 1
  | 0x00A => some 1
  | 0x00B => some 1
  | 0x010 => some 1
  | 0x011 => some 1
  | 0x012 => some 2
  | 0x013 => some 1
  | 0x014 => some 1
  | 0x018 => some 0
  | 0x040 => some 2
  | 0x041 => some 2
  | 0x042 => some 2
  | 0x043 => some 1
  | 0x044 => some 1
  | 0x045 => some 2
  | 0x046 => some 1
  | 0x080 => some 1
  | 0x081 => some 1
  | 0x082 => some 2
  | 0x083 => some 3
  | 0x084 => some 2
  | 0x0C0 => some 0
  | 0x0C1 => some 2
  | 0x100 => some 2
  | 0x101 => some 1
  | 0x102 => some 1
  | 0x103 => some 1
  | 0x104 => some 1
  | 0x105 => some 1
  | 0x106 => some 2
  | 0x140 => some 1
  | 0x141 => some 2
  | 0x142 => some 2
  | 0x143 => some 2
  | 0x180 => some 3
  | 0x181 => some 3
  | _ => none

/-- MSI-X vector of a class (R439). -/
def classVector (cls : Nat) : Nat := if cls = 0 then 16 else if cls = 1 then 17 else 18

def alarm (h : Hw) (code : Nat) : AlarmEntry := getD AlarmEntry.zero h.obs.alarms code
def setAlarm (h : Hw) (code : Nat) (x : AlarmEntry) : Hw :=
  { h with obs.alarms := setD AlarmEntry.zero h.obs.alarms code x }

/-- A change of device state: recorded, and vector 19 sent (Tables 14.3, 18.3 kind 0x0007). -/
def setMode (h : Hw) (m : DevState) : Hw :=
  if h.mode = m then h
  else sendVector (writeLog { h with mode := m } (recNow h 0x0007 0xFFFF 0xFF 0xFF 0 0)) 19

/-- A FATAL alarm's effect on the device state (R439, R468, R469): into RECOVERY with every function
stopped with cause 4 and the running ones recorded, or a recovery action restarted, or taken within
START-UP. -/
def fatalEffect (h : Hw) (code : Nat) : Hw :=
  match h.mode with
  | .run | .test | .isolated =>
    let running := allFns.filter fun id => fnRunning h id
    let h0 := applyAll (fun h id => stopFn h id 4) h running
    let h1 := applyAll (fun h id => setFn h id { fnOf h id with cause := 4 }) h0 allFns
    setMode { h1 with recorded := running, recovering := some code } .recovery
  | .recovery => { h with recovering := some code }
  | .startUp => { h with recovering := some code }
  | .frozen => { h with recovering := some code }

/-- `k` occurrences of an alarm entered in the table: the first is kept whole with its record, further
ones count and move the last time and source; each counts in `HI_ALSUM` (R438, R439, R442). -/
def occur (h : Hw) (code k tick router : Nat) (first : LogRec) : Hw :=
  match alarmClass code with
  | none => h
  | some cls =>
    let a := alarm h code
    let a1 : AlarmEntry :=
      if a.count = 0 then
        { a with raised := true, count := min k 0xFFFFFFFF, first := first.tick, last := tick, router := router, firstRec := some first,
                 firstIdx := if lookup h.obs.log ((getF h aAL_STAT fAL_STAT_WRIDX + 8191) % 8192) = some first then
                   some (getF h aAL_STAT fAL_STAT_WRIDX - 1) else none }
      else { a with raised := true, count := min (a.count + k) 0xFFFFFFFF, last := tick, router := router }
    let h1 := setAlarm h code a1
    let h2 := bump h1 aHI_ALSUM fHI_ALSUM_ALCNT k
    let h3 := setF h2 aHI_ALSUM fHI_ALSUM_CLS (getF h2 aHI_ALSUM fHI_ALSUM_CLS ||| 2 ^ cls)
    let h4 := if a.count = 0 then sendVector h3 (classVector cls) else h3
    let waiting := match lookup h4.obs.summaries code with
      | some s => s.first
      | none => false
    let sum : Summary := ⟨a.count == 0 || waiting⟩
    let h5 := if isDev0 h4 then h4
      else { h4 with obs.summaries := insertAt h4.obs.summaries code sum }
    if cls = 0 then fatalEffect h5 code else h5

/-- Firmware runs and can raise alarms (R445, R457, R469). -/
def fwRuns (h : Hw) : Bool :=
  h.mode != .frozen && (h.phase == .firmware || h.phase == .started || h.phase == .ready)

/-- An alarm raised by firmware: its record in the log and its occurrence in the table. While firmware does
not run the alarm waits for it; the boot ROM takes the recovery action of a FATAL one at once (R445, R469).
(DEDUCED, log 94) -/
def raiseAlarm (h : Hw) (code router addr detail : Nat) : Hw :=
  match alarmClass code with
  | none => h
  | some cls =>
    if ¬ fwRuns h then
      let h1 := { h with frz.deferred := h.frz.deferred ++ [(code, router, addr, detail)] }
      if cls = 0 ∧ h.mode = .startUp then { h1 with recovering := some code } else h1
    else
    let r := recNow h 0x0001 code cls router addr detail
    occur (writeLog h r) code 1 (crdTick h) router r

/-- A condition alarm raised at the onset of its condition (R439). -/
def raiseCondition (h : Hw) (code router addr detail : Nat) : Hw :=
  if (alarm h code).present then h
  else
    let h1 := raiseAlarm h code router addr detail
    setAlarm h1 code { alarm h1 code with present := true }

/-- A condition that has ended. -/
def endCondition (h : Hw) (code : Nat) : Hw := setAlarm h code { alarm h code with present := false }

/-! ## Hardware findings (R434, R435) -/

/-- The alarm codes that findings of R434 raise. -/
def findingCodes : List Nat := [0x040, 0x041, 0x042, 0x043, 0x082, 0x084, 0x0C1, 0x106, 0x143]

def findCnt (h : Hw) (code : Nat) : FindCnt := getD FindCnt.zero h.obs.finds code

/-- A finding: its counter and latch, and its record in the queue of 256, or `QDROP` (R434, R435). (DEDUCED, log 97) -/
def postFinding (h : Hw) (kind code router addr detail : Nat) : Hw :=
  let r := recNow h kind code ((alarmClass code).getD 0xFF) router addr detail
  let c := findCnt h code
  let c1 : FindCnt := ⟨min (c.count + 1) 0xFFFFFFFF, some (c.latch.getD r), r.tick, router⟩
  let h1 := { h with obs.finds := setD FindCnt.zero h.obs.finds code c1 }
  if h1.obs.queue.length < 256 then { h1 with obs.queue := h1.obs.queue ++ [r] }
  else bump { h1 with obs.qLost := h1.obs.qLost + 1 } aAL_STAT fAL_STAT_QDROP 1

/-- An uncorrectable read of a pen-memory, loft or trough word (R22, R195): record kind 0x0002. -/
def uncorrectable (h : Hw) (addr : Nat) : Hw := postFinding h 0x0002 0x040 0xFF addr 0

/-- Firmware moves a code's latched first record and counter into the alarm table (R435). -/
def transferFinding (h : Hw) (code : Nat) : Hw :=
  let c := findCnt h code
  if ¬ fwRuns h ∨ c.count = 0 then h
  else
    let r := c.latch.getD (recNow h 0x0001 code ((alarmClass code).getD 0xFF) c.lastRouter 0 0)
    occur { h with obs.finds := setD FindCnt.zero h.obs.finds code FindCnt.zero } code c.count c.lastTick c.lastRouter r

/-- Firmware drains the oldest queued record into the log and raises its alarm, which the code's counter
counts (R434, R435). (DEDUCED, log 93) -/
def drainRecord (h : Hw) : Hw :=
  match h.obs.queue with
  | [] => h
  | r :: rest => if fwRuns h then transferFinding (writeLog { h with obs.queue := rest } r) r.code else h

/-- A vector's 100 µs interval ends: a held cause sends its message (R349). -/
def vectorInterval (h : Hw) (v : Nat) : Hw :=
  let x := msix h v
  if ¬ x.busy then h
  else
    let h1 := setMsix h v { x with busy := false }
    if x.pend ∧ ¬ vecMasked h v then sendVector (setMsix h1 v { x with busy := false, pend := false }) v else h1

/-- An occurrence of a scheduler event assigned to a host vector sends it (R349, R366). (DEDUCED, log 129) -/
def hostEvent (h : Hw) (v : Nat) : Hw :=
  if h.obs.evHit.contains v then sendVector { h with obs.evHit := h.obs.evHit.erase v } v else h

end Sys2Proof.Machine
end

