-- ==== Sys2Proof/Machine/Arith.lean ====
section
/-!
DEFINITION. What the FU opcodes compute: one specification per opcode of Tables 3.7 to 3.15, over the
shared formats and flag computations.
-/

namespace Sys2Proof.Machine

/-- What a step's computation reads: format, MOD subfields, IMM, operand words (with the second words of
BFLY4 in C36, R91) and the pen's twiddle table (R89). -/
structure StepIn where
  fmt : Nat
  sh : Nat
  rnd : Rnd
  sat : Bool
  cl : Bool
  imm : Nat
  a : TW
  b : TW
  c : TW
  a2 : TW
  b2 : TW
  twiddle : Nat → Int × Int

/-- What a step's computation forms: result words, a full-precision product (narrowed or packed where it
is written to W, OUT or a trough, entered unshifted into an accumulator, R42, R50), or an addend of an
accumulator (R45). -/
inductive StepOut where
  | words (ds : List Word) (fl : Flags)
  | product (vs : List Int) (pe : Int) (fl : Flags)
  | addend (vs : List Int) (pe : Int) (fl : Flags)
deriving DecidableEq, Repr

/-- Which destinations an opcode's row allows (R76, R85, R93; Tables 3.7, 3.13). -/
inductive DstClass where
  /-- any destination of Table 3.3 -/
  | any
  /-- an accumulator only -/
  | acc
  /-- discard (0x17) only -/
  | discard
  /-- W pair or OUT pair -/
  | pair
  /-- the destination is unused (NOP) -/
  | unused
deriving DecidableEq, Repr

/-- When a step fires (R39, R84, R87). -/
inductive Firing where
  | allValid
  | either
  | always
deriving DecidableEq, Repr

/-- How a result is tagged (R40, R84, R87; Table 3.14). -/
inductive Tagging where
  | standard
  /-- F, L and P of the operand SELV chose -/
  | chosen
  /-- F and L from IMM where IMM enables them -/
  | setFL
  | setEP
  | clearP
  /-- a fresh constant -/
  | test
deriving DecidableEq, Repr

/-- The row of an opcode: formats allowed, operands and MOD subfields used (Table 3.21), format of its
result, destination class, firing, tagging, latency and slots (in the narrow and the C36 case) and
operation. -/
structure OpSpec where
  fmts : List Nat
  useA : Bool
  useB : Bool
  useC : Bool
  useMod : Bool
  useCl : Bool
  outFmt : Nat → Nat
  dst : DstClass
  firing : Firing
  tagging : Tagging
  lat : Nat
  latC36 : Nat
  slotsC36 : Nat
  /-- reserved IMM values of R93 that the step holds -/
  immReserved : Nat → Nat → Bool
  op : StepIn → StepOut

abbrev fmtsAny : List Nat := [0, 1, 2, 3, 4, 5, 6, 7]
abbrev fmtsI : List Nat := [0, 1, 2, 3]
abbrev fmtsIm : List Nat := [1, 2, 3]
abbrev fmtsC : List Nat := [4, 5]
abbrev fmtsIC : List Nat := [0, 1, 2, 3, 4, 5]
abbrev fmtsB : List Nat := [6]
abbrev fmtsU : List Nat := [7]

/-- A row with the common properties: one result word, one slot, no IMM restriction. -/
def row (fmts : List Nat) (useA useB useC useMod useCl : Bool) (lat : Nat) (op : StepIn → StepOut) :
    OpSpec :=
  ⟨fmts, useA, useB, useC, useMod, useCl, id, .any, .allValid, .standard, lat, lat, 1,
    fun _ _ => false, op⟩

/-- One result word without flags. -/
def plain (d : Word) : StepOut := .words [d] Flags.none

/-- B's components with `CL` applied: conjugated in complex and block-float formats, in reverse element
order in I36x2, I18x4 and I9x8 (R46, R47). -/
def compsB (x : StepIn) : List Int × Flags :=
  let vs := comps x.fmt x.b.d
  if ¬ x.cl then (vs, Flags.none)
  else if x.fmt = 4 ∨ x.fmt = 5 ∨ x.fmt = 6 then conjComps (compWidth x.fmt) vs
  else (vs.reverse, Flags.none)
where
  /-- Every Q component negated under R47. -/
  conjComps (w : Nat) : List Int → List Int × Flags
    | i :: q :: rest =>
      let n := negClamp w q
      let r := conjComps w rest
      (i :: n.1 :: r.1, n.2.or r.2)
    | vs => (vs, Flags.none)

/-- A's components with every Q negated under R47. -/
def conjA (x : StepIn) : List Int × Flags := compsB.conjComps (compWidth x.fmt) (comps x.fmt x.a.d)

/-- Complex products sample by sample, I then Q. -/
def complexMul : List Int → List Int → List Int
  | ai :: aq :: xs, bi :: bq :: ys => (ai * bi - aq * bq) :: (ai * bq + aq * bi) :: complexMul xs ys
  | _, _ => []

/-- Magnitudes squared sample by sample: I² + Q², then 0. -/
def magSquared : List Int → List Int
  | i :: q :: xs => (i * i + q * q) :: 0 :: magSquared xs
  | _ => []

/-- Every component of a sample scaled by the I component of the same sample of B. -/
def scaleByI : List Int → List Int → List Int
  | ai :: aq :: xs, bi :: _ :: ys => (ai * bi) :: (aq * bi) :: scaleByI xs ys
  | _, _ => []

/-- A component-wise result narrowed with shift s (R50, R51). -/
def narrowed (x : StepIn) (s : Nat) (vs : List Int) (fl : Flags) : StepOut :=
  let r := narrowAll x.rnd x.sat s (compWidth x.fmt) vs
  .words [compose x.fmt r.1 0] (fl.or r.2)

/-- Elements combined one by one. -/
def perElem (x : StepIn) (f : List Int → List Int → List Int) : StepOut :=
  plain (ofElems x.fmt (List.zipWith f (elems x.fmt x.a.d) (elems x.fmt x.b.d)) x.a.d)

/-- Elements chosen between A and B by a test of C's element (SELNZ, SELNEG). -/
def selectBy (x : StepIn) (test : List Int → Bool) : StepOut :=
  let pairs := List.zip (elems x.fmt x.c.d) (List.zip (elems x.fmt x.a.d) (elems x.fmt x.b.d))
  plain (ofElems x.fmt (pairs.map fun t => if test t.1 then t.2.1 else t.2.2) x.a.d)

/-- Integer components compared or chosen one by one, B under `CL`. -/
def perComp (x : StepIn) (f : Int → Int → Int) : StepOut :=
  let b := compsB x
  .words [compose x.fmt (List.zipWith f (comps x.fmt x.a.d) b.1) 0] b.2

/-! Moves and selects, Table 3.7. -/

def opNop : OpSpec := { row fmtsAny false false false false false 1 (fun _ => .words [] Flags.none) with
    dst := .unused, firing := .always }
def opMov : OpSpec := row fmtsAny true false false false false 1 fun x => plain x.a.d
def opSelv : OpSpec :=
  { row fmtsAny true true false false false 1 (fun x => plain (if x.a.v then x.a.d else x.b.d)) with
    firing := .either, tagging := .chosen }
def opSelnz : OpSpec := row fmtsIC true true true false false 1 fun x => selectBy x fun c => c.any (· ≠ 0)
def opSelneg : OpSpec := row fmtsIC true true true false false 1 fun x => selectBy x fun c => c.headD 0 < 0
def opLixset : OpSpec :=
  { row fmtsAny false false false false false 1 (fun _ => .words [] Flags.none) with
    dst := .discard, firing := .always }
def opAcclr : OpSpec :=
  { row fmtsAny false false false false false 1 (fun _ => .product [] 0 Flags.none) with
    dst := .acc, firing := .always }

/-! Integer arithmetic, Table 3.8. -/

def opAdd : OpSpec := row fmtsIC true true false true true 1 fun x =>
  let b := compsB x
  narrowed x x.sh (List.zipWith (· + ·) (comps x.fmt x.a.d) b.1) b.2
def opSub : OpSpec := row fmtsIC true true false true true 1 fun x =>
  let b := compsB x
  narrowed x x.sh (List.zipWith (· - ·) (comps x.fmt x.a.d) b.1) b.2
def opNeg : OpSpec := row fmtsIC true false false true false 1 fun x =>
  narrowed x 0 ((comps x.fmt x.a.d).map (- ·)) Flags.none
def opAbs : OpSpec := row fmtsI true false false true false 1 fun x =>
  narrowed x 0 ((comps x.fmt x.a.d).map fun v => if v < 0 then -v else v) Flags.none
def opMin : OpSpec := row fmtsI true true false false true 1 fun x => perComp x min
def opMax : OpSpec := row fmtsI true true false false true 1 fun x => perComp x max
def opCmpeq : OpSpec := row fmtsI true true false false true 1 fun x => perComp x fun a b => if a = b then 1 else 0
def opCmpgt : OpSpec := row fmtsI true true false false true 1 fun x => perComp x fun a b => if b < a then 1 else 0
def opShla : OpSpec := row fmtsI true false false true false 1 fun x =>
  narrowed x 0 ((comps x.fmt x.a.d).map (· * (2 ^ (x.imm % 128) : Int))) Flags.none
def opShra : OpSpec := row fmtsI true false false true false 1 fun x =>
  narrowed x (x.imm % 128) (comps x.fmt x.a.d) Flags.none

/-- Element products of A and B (MUL, MAC, MSU). -/
def intProducts (x : StepIn) : List Int × Flags :=
  let b := compsB x
  (List.zipWith (· * ·) (comps x.fmt x.a.d) b.1, b.2)

def opMul : OpSpec := row fmtsIm true true false true true 3 fun x =>
  .product (intProducts x).1 0 (intProducts x).2
def opMac : OpSpec := { row fmtsIm true true false true true 3 (fun x =>
  .addend (intProducts x).1 0 (intProducts x).2) with dst := .acc }
def opMsu : OpSpec := { row fmtsIm true true false true true 3 (fun x =>
  .addend ((intProducts x).1.map (- ·)) 0 (intProducts x).2) with dst := .acc }

/-! Complex arithmetic, Table 3.9: latency 3 or 4, one slot or two. -/

/-- A complex multiply-class row. -/
def cRow (useB useCl : Bool) (dst : DstClass) (op : StepIn → StepOut) : OpSpec :=
  { row fmtsC true useB false true useCl 3 op with dst := dst, latC36 := 4, slotsC36 := 2 }

/-- Complex products of A and B, with the flags of `CL`. -/
def cProducts (x : StepIn) : List Int × Flags :=
  let b := compsB x
  (complexMul (comps x.fmt x.a.d) b.1, b.2)

def opCmul : OpSpec := cRow true true .any fun x => .product (cProducts x).1 0 (cProducts x).2
def opCmac : OpSpec := cRow true true .acc fun x => .addend (cProducts x).1 0 (cProducts x).2
def opCmsu : OpSpec := cRow true true .acc fun x => .addend ((cProducts x).1.map (- ·)) 0 (cProducts x).2
def opCjmac : OpSpec := cRow true true .acc fun x =>
  let a := conjA x
  let b := compsB x
  .addend (complexMul a.1 b.1) 0 (a.2.or b.2)
def opCmag2 : OpSpec := cRow false false .any fun x => .product (magSquared (comps x.fmt x.a.d)) 0 Flags.none
def opCmagac : OpSpec := cRow false false .acc fun x => .addend (magSquared (comps x.fmt x.a.d)) 0 Flags.none
def opCscl : OpSpec := cRow true true .any fun x =>
  let b := compsB x
  .product (scaleByI (comps x.fmt x.a.d) b.1) 0 b.2

/-- Every sample multiplied by j^k, negating under R47 (CROT). -/
def rotate (w k : Nat) : List Int → List Int × Flags
  | i :: q :: rest =>
    let r := rotate w k rest
    let ni := negClamp w i
    let nq := negClamp w q
    match k with
    | 0 => (i :: q :: r.1, r.2)
    | 1 => (nq.1 :: i :: r.1, nq.2.or r.2)
    | 2 => (ni.1 :: nq.1 :: r.1, (ni.2.or nq.2).or r.2)
    | _ => (q :: ni.1 :: r.1, ni.2.or r.2)
  | vs => (vs, Flags.none)

def opCrot : OpSpec := row fmtsC true false false false false 1 fun x =>
  let r := rotate (compWidth x.fmt) (x.imm % 4) (comps x.fmt x.a.d)
  .words [compose x.fmt r.1 0] r.2
def opCconj : OpSpec := row fmtsC true false false false false 1 fun x =>
  .words [compose x.fmt (conjA x).1 0] (conjA x).2

/-! Block-float arithmetic, Table 3.10. -/

/-- A pack of lane values as a result word (R54). -/
def packed (x : StepIn) (vs : List Int) (a : Int) (fl : Flags) : StepOut :=
  let r := pack x.rnd x.sh vs a
  .words [compose 6 r.1 r.2.1] (fl.or r.2.2)

def opBpack : OpSpec := row fmtsB true false false true false 2 fun x =>
  packed x (comps 5 x.a.d) (-17) Flags.none

/-- A mantissa scaled by a power of two: up and limited, or narrowed down (BEXPD, BALIGN). -/
def scalePow (x : StepIn) (w : Nat) (k : Int) (m : Int) : Int × Flags :=
  if 0 ≤ k then narrow x.rnd x.sat 0 w (m * (2 ^ k.toNat : Int))
  else narrow x.rnd x.sat (-k).toNat w m

/-- Every mantissa scaled, with the flags together. -/
def scaleAll (x : StepIn) (w : Nat) (k : Int) (ms : List Int) : List Int × Flags :=
  (ms.map fun m => (scalePow x w k m).1, ms.foldl (fun f m => f.or (scalePow x w k m).2) Flags.none)

/-- BEXPD (R82). (DEDUCED, log 22) -/
def opBexpd : OpSpec := { row fmtsB true false false true false 2 (fun x =>
  let r := scaleAll x 18 (expOf x.a.d + 17 - x.sh) (comps 6 x.a.d)
  .words [compose 5 r.1 0] r.2) with outFmt := fun _ => 5 }
def opBalign : OpSpec := row fmtsB true true false true false 2 fun x =>
  let r := scaleAll x 16 (expOf x.a.d - expOf x.b.d) (comps 6 x.a.d)
  .words [compose 6 r.1 (expOf x.b.d)] r.2
def opBrenorm : OpSpec := row fmtsB true false false true false 2 fun x =>
  packed x (comps 6 x.a.d) (expOf x.a.d) Flags.none

/-- R55: the operand of smaller exponent aligned to the larger by a rounded right shift. -/
def blockSum (x : StepIn) (f : Int → Int → Int) : StepOut :=
  let ea := expOf x.a.d
  let eb := expOf x.b.d
  let e := max ea eb
  let b := compsB x
  let va := (comps 6 x.a.d).map (roundShift x.rnd (e - ea).toNat)
  let vb := b.1.map (roundShift x.rnd (e - eb).toNat)
  packed x (List.zipWith f va vb) e b.2

def opBadd : OpSpec := row fmtsB true true false true true 2 fun x => blockSum x (· + ·)
def opBsub : OpSpec := row fmtsB true true false true true 2 fun x => blockSum x (· - ·)
def opBmul : OpSpec := row fmtsB true true false true true 4 fun x =>
  .product (cProducts x).1 (expOf x.a.d + expOf x.b.d) (cProducts x).2
def opBmac : OpSpec := { row fmtsB true true false true true 4 (fun x =>
  .addend (cProducts x).1 (expOf x.a.d + expOf x.b.d) (cProducts x).2) with dst := .acc }
/-- BEXPR (R82). (DEDUCED, log 22) -/
def opBexpr : OpSpec := { row fmtsB true false false false false 2 (fun x =>
  plain (compose 2 (List.replicate 4 (expOf x.a.d)) 0)) with outFmt := fun _ => 2 }
def opBeset : OpSpec := row fmtsB true false false false false 2 fun x =>
  plain (BitVec.ofNat 72 (x.a.d.toNat / 256 * 256 + x.imm % 256))

/-! Logic and bit operations, Table 3.11. -/

def opAnd : OpSpec := row fmtsAny true true false false false 1 fun x => plain (x.a.d &&& x.b.d)
def opOr : OpSpec := row fmtsAny true true false false false 1 fun x => plain (x.a.d ||| x.b.d)
def opXor : OpSpec := row fmtsAny true true false false false 1 fun x => plain (x.a.d ^^^ x.b.d)
def opAndn : OpSpec := row fmtsAny true true false false false 1 fun x => plain (x.a.d &&& ~~~ x.b.d)
def opNot : OpSpec := row fmtsAny true false false false false 1 fun x => plain (~~~ x.a.d)
def opBitsel : OpSpec := row fmtsAny true true true false false 1 fun x =>
  plain ((x.a.d &&& x.c.d) ||| (x.b.d &&& ~~~ x.c.d))
def opLsl : OpSpec := row fmtsU true false false false false 1 fun x => plain (x.a.d <<< (x.imm % 128))
def opLsr : OpSpec := row fmtsU true false false false false 1 fun x => plain (x.a.d >>> (x.imm % 128))
def opRol : OpSpec := row fmtsU true false false false false 1 fun x => plain (x.a.d.rotateLeft (x.imm % 128 % 72))
def opPopc : OpSpec := row fmtsU true false false false false 1 fun x =>
  plain (BitVec.ofNat 72 ((List.range 72).countP fun i => x.a.d.getLsbD i))
def opClz : OpSpec := row fmtsU true false false false false 1 fun x =>
  plain (BitVec.ofNat 72 (if x.a.d = 0 then 72 else 71 - Nat.log2 x.a.d.toNat))

/-! Shuffles and permutes, Table 3.12. U72 words are permuted as eight raw fields. -/

/-- Element k of a list of elements. -/
def elemAt (es : List (List Int)) (k : Nat) : List Int := es.getD k []

/-- An element index of e or more is reserved and taken mod e (R93). -/
def idxReserved (fmt imm : Nat) : Bool := elemCount fmt ≤ imm % 8

def opErev : OpSpec := row fmtsAny true false false false false 1 fun x =>
  plain (ofElems x.fmt (elems x.fmt x.a.d).reverse x.a.d)
def opEbcst : OpSpec := { row fmtsAny true false false false false 1 (fun x =>
  let e := elemCount x.fmt
  plain (ofElems x.fmt (List.replicate e (elemAt (elems x.fmt x.a.d) (x.imm % 8 % e))) x.a.d)) with
  immReserved := idxReserved }
def opEins : OpSpec := { row fmtsAny true true false false false 1 (fun x =>
  let e := elemCount x.fmt
  plain (ofElems x.fmt ((elems x.fmt x.a.d).set (x.imm % 8 % e) (elemAt (elems x.fmt x.b.d) 0)) x.a.d)) with
  immReserved := idxReserved }
def opEpick : OpSpec := row fmtsAny true true false false false 1 fun x =>
  let pairs := List.zip (List.range (elemCount x.fmt)) (List.zip (elems x.fmt x.a.d) (elems x.fmt x.b.d))
  plain (ofElems x.fmt (pairs.map fun t => if x.imm.testBit t.1 then t.2.2 else t.2.1) x.a.d)
def opIqswap : OpSpec := row [4, 5, 6] true false false false false 1 fun x =>
  plain (ofElems x.fmt ((elems x.fmt x.a.d).map List.reverse) x.a.d)

/-- Halves of A and B interleaved from an element on (ZIPLO, ZIPHI). -/
def zipFrom (x : StepIn) (start : Nat) : StepOut :=
  let e := elemCount x.fmt
  let as := ((elems x.fmt x.a.d).drop start).take (e / 2)
  let bs := ((elems x.fmt x.b.d).drop start).take (e / 2)
  plain (ofElems x.fmt ((List.zip as bs).map fun t => [t.1, t.2]).flatten x.a.d)

def opZiplo : OpSpec := row [1, 2, 3, 5, 6, 7] true true false false false 1 fun x => zipFrom x 0
def opZiphi : OpSpec := row [1, 2, 3, 5, 6, 7] true true false false false 1 fun x => zipFrom x (elemCount x.fmt / 2)
def opPerm : OpSpec := row fmtsAny true true false false false 1 fun x =>
  let e := elemCount x.fmt
  plain (ofElems x.fmt ((List.range e).map fun k =>
    elemAt (elems x.fmt x.a.d) (x.b.d.toNat / 2 ^ (3 * k) % 8 % e)) x.a.d)

/-! Stream and tag operations, Table 3.14. -/

def opSetfl : OpSpec := { row fmtsAny true false false false false 1 (fun x => plain x.a.d) with tagging := .setFL }
def opSetep : OpSpec := { row fmtsAny true false false false false 1 (fun x => plain x.a.d) with tagging := .setEP }
def opClrp : OpSpec := { row fmtsAny true false false false false 1 (fun x => plain x.a.d) with tagging := .clearP }

/-- A tag test: the constant 1 or the zero word (R87). -/
def testRow (t : TW → Bool) : OpSpec :=
  { row fmtsAny true false false false false 1
      (fun x => plain (if x.a.v && t x.a then constData x.fmt true 1 else 0)) with
    firing := .always, tagging := .test }

def opTstv : OpSpec := testRow fun _ => true
def opTstf : OpSpec := testRow fun a => a.f
def opTstl : OpSpec := testRow fun a => a.l
def opTstp : OpSpec := testRow fun a => a.p
def opSignal : OpSpec :=
  { row fmtsAny true false false false false 1 (fun _ => .words [] Flags.none) with dst := .discard }

/-! Transform helpers, Table 3.15. -/

def opBfly2 : OpSpec := { row fmtsC true true false true true 3 (fun x =>
  let b := compsB x
  let a := comps x.fmt x.a.d
  let w := compWidth x.fmt
  let s := narrowAll x.rnd x.sat x.sh w (List.zipWith (· + ·) a b.1)
  let d := narrowAll x.rnd x.sat x.sh w (List.zipWith (· - ·) a b.1)
  .words [compose x.fmt s.1 0, compose x.fmt d.1 0] (b.2.or (s.2.or d.2))) with
  dst := .pair, latC36 := 4, slotsC36 := 2 }

/-- The radix-4 sums y0 to y3 of R91 from four samples; `inv` replaces j by −j. -/
def radix4 (inv : Bool) (x0 x1 x2 x3 : Int × Int) : List (List Int) :=
  let j (z : Int × Int) : Int × Int := if inv then (z.2, -z.1) else (-z.2, z.1)
  let add (p q : Int × Int) : Int × Int := (p.1 + q.1, p.2 + q.2)
  let sub (p q : Int × Int) : Int × Int := (p.1 - q.1, p.2 - q.2)
  let y0 := add (add x0 x1) (add x2 x3)
  let y1 := add (sub (sub x0 (j x1)) x2) (j x3)
  let y2 := sub (add (sub x0 x1) x2) x3
  let y3 := sub (sub (add x0 (j x1)) x2) (j x3)
  [[y0.1, y0.2], [y1.1, y1.2], [y2.1, y2.2], [y3.1, y3.2]]

/-- Sample k of a component list. -/
def sampleAt (vs : List Int) (k : Nat) : Int × Int := (vs.getD (2 * k) 0, vs.getD (2 * k + 1) 0)

def opBfly4 : OpSpec := { row fmtsC true true false true true 4 (fun x =>
  let a := comps x.fmt x.a.d
  let b := comps x.fmt x.b.d
  let ys :=
    if x.fmt = 4 then
      radix4 x.cl (sampleAt a 0) (sampleAt (comps 4 x.a2.d) 0) (sampleAt b 0) (sampleAt (comps 4 x.b2.d) 0)
    else radix4 x.cl (sampleAt a 0) (sampleAt a 1) (sampleAt b 0) (sampleAt b 1)
  let n := ys.map fun y => narrowAll x.rnd x.sat x.sh (compWidth x.fmt) y
  let fl := n.foldl (fun f r => f.or r.2) Flags.none
  let y k := (n.getD k ([], Flags.none)).1
  if x.fmt = 4 then .words [compose 4 (y 0) 0, compose 4 (y 1) 0, compose 4 (y 2) 0, compose 4 (y 3) 0] fl
  else .words [compose 5 (y 0 ++ y 1) 0, compose 5 (y 2 ++ y 3) 0] fl) with
  dst := .pair, latC36 := 5, slotsC36 := 2 }

/-- The twiddle entry of sample s as components of the format, conjugated under `CL` (R90). The entry is scaled to the
format before its negation is clamped. (DESIGN CHOICE, log 202) -/
def twiddleOf (x : StepIn) (m : Nat) : (Int × Int) × Flags :=
  let w := compWidth x.fmt
  let j := x.b.d.toNat / 2 ^ (if x.fmt = 4 then 36 else 54) % 4096
  let sh := min (x.imm / 256 % 16) 11
  let t := x.twiddle (m * j * 2 ^ sh % 4096)
  let k : Int := if x.fmt = 4 then 2 ^ 18 else 1
  let i := t.1 * k
  let q := t.2 * k
  if x.cl then
    let n := negClamp w q
    ((i, n.1), n.2)
  else ((i, q), Flags.none)

def opTwmul : OpSpec := { row fmtsC true true false true true 4 (fun x =>
  let t0 := twiddleOf x (x.imm % 16)
  let a := comps x.fmt x.a.d
  if x.fmt = 4 then .product (complexMul a [t0.1.1, t0.1.2]) 0 t0.2
  else
    let t1 := twiddleOf x (x.imm / 16 % 16)
    .product (complexMul a [t0.1.1, t0.1.2, t1.1.1, t1.1.2]) 0 (t0.2.or t1.2)) with
  latC36 := 5, slotsC36 := 2, immReserved := fun _ imm => 12 ≤ imm / 256 % 16 }

/-! Memory and trough operations, Table 3.13, and all rows. -/

/-- The row of a memory or trough step: any format, operands only (Table 3.13). -/
def memRow (useA useB : Bool) (dst : DstClass) : OpSpec :=
  { row fmtsAny useA useB false false false 1 (fun _ => .words [] Flags.none) with dst := dst }

/-- The row of an opcode (Tables 3.7 to 3.15); none for an undefined opcode. Memory and trough rows take any
format. -/
def opRow : Nat → Option OpSpec
  | 0x00 => some opNop | 0x01 => some opMov | 0x02 => some opSelv | 0x03 => some opSelnz | 0x04 => some opSelneg
  | 0x05 => some opLixset | 0x06 => some opAcclr
  | 0x10 => some opAdd | 0x11 => some opSub | 0x12 => some opNeg | 0x13 => some opAbs | 0x14 => some opMin
  | 0x15 => some opMax | 0x16 => some opCmpeq | 0x17 => some opCmpgt | 0x18 => some opShla | 0x19 => some opShra
  | 0x1A => some opMul | 0x1B => some opMac | 0x1C => some opMsu
  | 0x30 => some opCmul | 0x31 => some opCmac | 0x32 => some opCmsu | 0x33 => some opCjmac | 0x34 => some opCmag2
  | 0x35 => some opCmagac | 0x36 => some opCscl | 0x37 => some opCrot | 0x38 => some opCconj
  | 0x50 => some opBpack | 0x51 => some opBexpd | 0x52 => some opBalign | 0x53 => some opBrenorm | 0x54 => some opBadd
  | 0x55 => some opBsub | 0x56 => some opBmul | 0x57 => some opBmac | 0x58 => some opBexpr | 0x59 => some opBeset
  | 0x60 => some opAnd | 0x61 => some opOr | 0x62 => some opXor | 0x63 => some opAndn | 0x64 => some opNot
  | 0x65 => some opBitsel | 0x66 => some opLsl | 0x67 => some opLsr | 0x68 => some opRol | 0x69 => some opPopc
  | 0x6A => some opClz
  | 0x70 => some opErev | 0x71 => some opEbcst | 0x72 => some opEins | 0x73 => some opEpick | 0x74 => some opIqswap
  | 0x75 => some opZiplo | 0x76 => some opZiphi | 0x77 => some opPerm
  | 0x80 => some (memRow true false .any) | 0x81 => some (memRow true true .discard)
  | 0x82 => some (memRow true false .discard) | 0x83 => some (memRow false false .any)
  | 0x84 => some (memRow true false .discard) | 0x85 => some (memRow true false .discard)
  | 0x86 => some (memRow true false .discard) | 0x87 => some (memRow true false .discard)
  | 0x88 => some (memRow true false .discard) | 0x89 => some (memRow true false .discard)
  | 0x90 => some opSetfl | 0x91 => some opSetep | 0x92 => some opClrp | 0x93 => some opTstv | 0x94 => some opTstf
  | 0x95 => some opTstl | 0x96 => some opTstp | 0x97 => some opSignal
  | 0xA0 => some opBfly2 | 0xA1 => some opBfly4 | 0xA2 => some opTwmul
  | _ => none

end Sys2Proof.Machine
end

