-- ==== Sys2Proof/Machine/Twiddle.lean ====
section
/-!
DEFINITION. The standard contents of the pen twiddle tables (R89), computed in fixed point: one quarter
period by a Taylor series with 2^60 scaling, the rest by symmetry.
-/

namespace Sys2Proof.Machine

/-- π × 2^60, rounded. -/
def piScaled : Int := 3622009729038561421

/-- sin and cos of an angle x × 2^−60 from 0 to π/4, scaled by 2^60: Taylor terms by Horner's rule. -/
def sinScaled (x : Int) : Int :=
  let x2 := x * x / 2 ^ 60
  let t (k acc : Int) : Int := 2 ^ 60 - x2 * acc / 2 ^ 60 / k
  x * t 6 (t 20 (t 42 (t 72 (t 110 (t 156 (2 ^ 60)))))) / 2 ^ 60
def cosScaled (x : Int) : Int :=
  let x2 := x * x / 2 ^ 60
  let t (k acc : Int) : Int := 2 ^ 60 - x2 * acc / 2 ^ 60 / k
  t 2 (t 12 (t 30 (t 56 (t 90 (t 132 (2 ^ 60))))))

/-- 2^17 × v rounded to the nearest integer and limited to 18 bits, for v scaled by 2^60. -/
def toFrac (v : Int) : Int := min 131071 (max (-131072) ((v + 2 ^ 42) / 2 ^ 43))

/-- cos and sin of 2π i / 4,096 for i from 0 to 1,023, scaled by 2^60. -/
def quarter (i : Nat) : Int × Int :=
  let ang (k : Nat) : Int := piScaled * (k : Int) / 2048
  if i ≤ 512 then (cosScaled (ang i), sinScaled (ang i))
  else (sinScaled (ang (1024 - i)), cosScaled (ang (1024 - i)))

/-- Thizan's standard entry T[i] = (round(2^17 cos), round(−2^17 sin)) (R89). (DEDUCED, log 28) -/
def stdTwiddle (i : Nat) : Int × Int :=
  let q := quarter (i % 1024)
  let cs : Int × Int :=
    match i / 1024 % 4 with
    | 0 => (q.1, q.2)
    | 1 => (-q.2, q.1)
    | 2 => (-q.1, -q.2)
    | _ => (q.2, -q.1)
  (toFrac cs.1, toFrac (-cs.2))

/-- Entry i of the twiddle table of pen n: the standard contents, or what an image loaded (R89). -/
def twiddleAt (h : Hw) (n i : Nat) : Int × Int :=
  match lookup h.arr.twiddle (4096 * n + i) with
  | some e => (e.1.toInt, e.2.toInt)
  | none => stdTwiddle i

end Sys2Proof.Machine
end

