-- ==== Sys2Proof/Machine/Fu.lean ====
section
/-!
DEFINITION. The issue of one FU step: gates and rounds, refusals and stalls, operands, epoch checks,
firing, tags, flags and results in flight (R35 to R40, R56 to R64, R71 to R81, R92, R93, R104, R134 to
R140, R172, R188, R203). Every opcode's meaning is one call of it.
-/

namespace Sys2Proof.Machine

/-! ## What a context binds (R73, R134, Table 5.14) -/

def follows (h : Hw) (g c : Nat) : Bool := isSet h (aFU_CTXCTL g c) fFU_CTXCTL_FOLLOW

/-- Key of the trough bound to a context of an FU. -/
def boundTrough (h : Hw) (g c : Nat) : Option Nat :=
  if isSet h (aFU_CTXCTL g c) fFU_CTXCTL_TRGEN then
    some (8 * (g / 16) + getF h (aFU_CTXCTL g c) fFU_CTXCTL_TRG)
  else none

/-- The lead port of a context: the IN port that SRCA of its step 0 selects (R134). -/
def leadPort (m : Sparse Byte) (g c : Nat) : Option Nat :=
  let a := (stepOfBits (storedStep m g c 0)).2.srca.toNat
  if 0x10 ≤ a ∧ a ≤ 0x13 then some (a - 0x10) else none

/-- The bank that holds a context in a pen (R118). -/
def bankHolding (p : Pen) (c : Nat) : Option Nat :=
  (List.range 4).find? fun b => lookup p.held b == some c

/-- R135: an epoch switch from context a to b is allowed: b is in the follow set, resident and not
write-locked. -/
def mayFollow (h : Hw) (g a b : Nat) : Bool :=
  (getF h (aFU_CTXCTL g a) fFU_CTXCTL_FSET).testBit b &&
    (bankHolding (pen h (g / 16)) b).isSome && !((pen h (g / 16)).locks.getLsbD b)

/-- This cycle is the FU's broadcast switch cycle (R139). -/
def inSwitchCycle (h : Hw) (g : Nat) : Bool := inCycle h (g / 128) (fu h g).bsw

/-- The word on a port as the FU sees it: V = 0 is the not-valid word (R35, R38). -/
def portWord (m : Sparse Byte) (h : Hw) (g k : Nat) : TW := asSeen (inWord m h g k)

/-- A switch order of a pen has reached its cycle D and is not yet applied (R127). -/
def orderDue (h : Hw) (n : Nat) : Bool := (pen h n).orders.any fun o => o.d ≤ h.aclk

/-- The FU of a pen runs: its yard's clock runs, the pen is not halted, no non-resident switch is in
progress and no switch order waits to be applied (R127, R132, R158). -/
def fuRuns (h : Hw) (g : Nat) : Bool :=
  arrayRuns h (g / 128) && !(pen h (g / 16)).halted && (pen h (g / 16)).nonres.isNone && !(orderDue h (g / 16))

/-- The epoch on the lead port that the running context may follow in this cycle (R135, R139). -/
def epochTarget (m : Sparse Byte) (h : Hw) (g : Nat) : Option Nat :=
  let c := (fu h g).ctx
  if ¬ fuRuns h g ∨ ¬ follows h g c ∨ stalled h (g / 16) ∨ inSwitchCycle h g then none
  else
    match leadPort m g c with
    | none => none
    | some k =>
      let w := portWord m h g k
      if w.v ∧ w.ep.toNat ≠ c ∧ mayFollow h g c w.ep.toNat then some w.ep.toNat else none

/-- A step issues in this cycle: the FU runs, its pen does not stall, its next issue slot has come, and no
epoch switch takes the cycle first (R59, R64, R135). (DESIGN CHOICE, log 3) -/
def canIssue (m : Sparse Byte) (h : Hw) (g : Nat) : Bool :=
  fuRuns h g && !(stalled h (g / 16)) && (fu h g).nextSlot ≤ h.aclk && (epochTarget m h g).isNone

/-- The opcode and fields of the step at which an FU's sequencer stands: the stored step of the running context at its
position (R77, R78). -/
def stepAt (m : Sparse Byte) (h : Hw) (g : Nat) : Nat × UStep :=
  stepOfBits (storedStep m g (fu h g).ctx (fu h g).step)

/-! ## Gates and rounds (R77 to R81) -/

/-- Table 3.5; 0xF acts as 0x0 (R93). -/
def gateOpen (gate lix : Nat) (first : Bool) : Bool :=
  if gate = 1 then first
  else if gate = 14 then !first
  else if 2 ≤ gate ∧ gate ≤ 7 then lix % 2 ^ (gate - 1) == 0
  else if 8 ≤ gate ∧ gate ≤ 13 then lix % 2 ^ (gate - 7) == 2 ^ (gate - 7) - 1
  else true

def gateOf (u : UStep) : Nat := u.seq.toNat % 16
def repOf (u : UStep) : Nat := u.seq.toNat / 16 % 8
def endOf (u : UStep) : Bool := u.seq.getLsbD 7

/-- The end of a round: the loop index moves on, or takes LIXSET's value, with G4 dirty, and the rounds from now on
are not the first since switch-in (R80, R81, R117). -/
def endRound (f : Fu) : Fu :=
  let b := bankOf f f.bank
  { setBank f f.bank { b with lix := f.lixNext.getD (b.lix + 1), dirty := b.dirty ||| 16 } with
    first := false, lixNext := none, ending := false }

/-- A round whose ending step took two slots has ended once its last slot is over (R78, R80). -/
def settleFu (aclk : Nat) (f : Fu) : Fu := if f.ending ∧ f.nextSlot ≤ aclk then endRound f else f

/-- The FU with a round ended that ends before this cycle. -/
def settleRound (h : Hw) (g : Nat) : Hw := setFu h g (settleFu h.aclk (fu h g))

/-- The sequencer after an issue of `slots` slots: a repeat, the next step, or the ending step's last issue. A round
that ends with this slot ends now; one whose ending step takes a second slot ends with that (R78, R80). -/
def advance (f : Fu) (u : UStep) (slots next : Nat) : Fu :=
  let f := { f with nextSlot := next }
  if f.rep < repOf u then { f with rep := f.rep + 1 }
  else if endOf u || f.step == 7 then
    let f := { f with rep := 0, step := 0 }
    if slots = 1 then endRound f else { f with ending := true }
  else { f with rep := 0, step := f.step + 1 }

/-- The pen notes that a context issued, for the choice of victims (R122). -/
def noteIssue (h : Hw) (g : Nat) : Hw :=
  let n := g / 16
  let p := pen h n
  let f := fu h g
  setPen h n { p with issued := insertAt p.issued f.ctx (h.aclk + 1),
                      lastUse := insertAt p.lastUse f.bank (h.aclk + 1) }

/-- The issue slot used: sequencer and victim bookkeeping. -/
def finishIssue (h : Hw) (g : Nat) (u : UStep) (slots : Nat) : Hw :=
  noteIssue (setFu h g (advance (fu h g) u slots (dueIn h (g / 128) slots))) g

/-! ## Operands (R71, R72, R134 to R139) -/

/-- What reading operands has found: values, flags and counts so far. -/
structure Reading where
  h : Hw
  fl : Flags
  rsv : Bool
  /-- tag source of R40 -/
  src : Option TW
  /-- ports whose skew has been counted -/
  skewed : List Nat

/-- An IN port read by a step: a lead word rejected, or a word whose epoch does not match, is the
not-valid word; skew counts once per word (R136, R137, R139). -/
def readPort (m : Sparse Byte) (r : Reading) (g k : Nat) : TW × Reading :=
  let h := r.h
  let c := (fu h g).ctx
  let w := portWord m h g k
  let mismatch := follows h g c && w.v && w.ep.toNat != c
  if ¬ mismatch then (w, r)
  else if leadPort m g c = some k ∧ ¬ inSwitchCycle h g then (TW.notValid, r)
  else if r.skewed.contains k then (TW.notValid, r)
  else (TW.notValid, { r with h := bump r.h (aFU_EPOCH g) fFU_EPOCH_SKEWCNT 1, skewed := k :: r.skewed })

/-- The first tagged W or IN operand gives F and L (R40). -/
def noteSource (r : Reading) (w : TW) : Reading :=
  { r with src := match r.src with
      | some t => some t
      | none => some w }

/-- One operand by its select: the word, and whether it is a tagged operand (Table 3.2, R34, R39, R93). (DEDUCED, log 20) -/
def readOperand (m : Sparse Byte) (r : Reading) (g : Nat) (u : UStep) (sel : Nat) : TW × Bool × Reading :=
  let f := fu r.h g
  let fmt := u.fmt.toNat
  let b := bankOf f f.bank
  if sel < 0x10 then
    let w := asSeen (getD TW.notValid b.w sel)
    (w, true, noteSource r w)
  else if sel < 0x14 then
    let x := readPort m r g (sel - 0x10)
    (x.1, true, noteSource x.2 x.1)
  else if sel < 0x16 then
    let acc := if sel = 0x14 then b.acc0 else b.acc1
    let x := acc.read fmt (u.mod.toNat / 16) (rndOf (u.mod.toNat % 4)) (u.mod.getLsbD 2)
    (⟨x.1, true, false, false, acc.p, BitVec.ofNat 4 f.ctx⟩, true,
      { r with fl := r.fl.or x.2, rsv := r.rsv || u.mod.toNat % 4 == 3 })
  else if sel = 0x16 then (constWord (constData fmt true u.imm.toNat) f.ctx, false, r)
  else if sel = 0x17 then (constWord 0 f.ctx, false, r)
  else if sel = 0x18 then (constWord (constData fmt false b.lix.toNat) f.ctx, false, r)
  else if sel = 0x19 then
    match boundTrough r.h g f.ctx with
    | some key =>
      let t := troughNow r.h key
      (constWord (constData fmt false (readableNow (depth r.h key) t)) f.ctx, false, r)
    | none => (constWord (constData fmt false 0) f.ctx, false, { r with rsv := true })
  else (TW.notValid, true, { r with rsv := true })

/-- The operands of a step. -/
structure Operands where
  a : TW
  b : TW
  c : TW
  a2 : TW
  b2 : TW
  /-- the tagged words read, for firing and poison -/
  tagged : List TW
  r : Reading

/-- Operands A, B and C where the row uses them; BFLY4 in C36 reads register pairs, of which W15's second word is W0
(DESIGN CHOICE, log 201), and any other select there lies outside its class (R91, R93).
(DEDUCED, log 30; DESIGN CHOICE, log 201) -/
def readOperands (m : Sparse Byte) (h : Hw) (g : Nat) (u : UStep) (op : OpSpec) (pairs : Bool) : Operands :=
  let r0 : Reading := ⟨h, Flags.none, false, none, []⟩
  let one (r : Reading) (use : Bool) (sel : Nat) : TW × List TW × Reading :=
    if use then
      let x := readOperand m r g u (if pairs ∧ 0x10 ≤ sel then 0x1F else sel)
      (x.1, if x.2.1 then [x.1] else [], x.2.2)
    else (TW.notValid, [], r)
  let pairOf (sel : Nat) : TW :=
    if pairs ∧ sel < 0x10 then
      asSeen (getD TW.notValid (bankOf (fu h g) (fu h g).bank).w ((sel + 1) % 16))
    else TW.notValid
  let a := one r0 op.useA u.srca.toNat
  let b := one a.2.2 op.useB u.srcb.toNat
  let c := one b.2.2 op.useC u.srcc.toNat
  let a2 := pairOf u.srca.toNat
  let b2 := pairOf u.srcb.toNat
  ⟨a.1, b.1, c.1, a2, b2, a.2.1 ++ b.2.1 ++ c.2.1 ++ (if pairs then [a2, b2] else []), c.2.2⟩

/-! ## The bound trough (R104, R188, R191, R203) -/

/-- How an FU's trough step meets its trough. -/
inductive Access where
  | unbound
  | disabled
  | wrongSide
  | collision
  | ok (key : Nat)
deriving DecidableEq, Repr

/-- The access of a producer or consumer step of an FU. -/
def accessOf (h : Hw) (g : Nat) (producer : Bool) : Access :=
  match boundTrough h g (fu h g).ctx with
  | none => .unbound
  | some key =>
    if ¬ isSet h (aCfg key) fTRG_CFG_EN then .disabled
    else if (if producer then getF h (aCfg key) fTRG_CFG_PSIDE else getF h (aCfg key) fTRG_CFG_CSIDE) ≠ 0 then
      .wrongSide
    else
      let t := troughNow h key
      match (if producer then t.prodFu else t.consFu) with
      | some g' => if g' = g then .ok key else .collision
      | none => .ok key

/-- What a step that does not reach its trough leaves: a reserved use, `DISOP` or `COLL`. -/
def noteAccess (h : Hw) (g : Nat) : Access → Hw
  | .ok _ => h
  | .unbound => setCst h g (fu h g).ctx fFU_CST_RSVFLD
  | .collision =>
    match boundTrough h g (fu h g).ctx with
    | some key => raiseBit h (aTst key) fTRG_STAT_COLL
    | none => h
  | _ =>
    match boundTrough h g (fu h g).ctx with
    | some key => raiseBit h (aTst key) fTRG_STAT_DISOP
    | none => h

/-- A producer step would be refused: it meets a full trough whose space is not the open packet's own
(R188, R104). -/
def producerRefused (h : Hw) (key : Nat) (isOpenStep : Bool) : Bool :=
  match (produce (depth h key) isOpenStep (troughNow h key)).1 with
  | .refused => true
  | _ => false

/-- A position reserved for a word that lands L cycles later; a discarded word takes none. -/
def reserve (h : Hw) (g key : Nat) (p : Payload) (l : Nat) : Hw :=
  let n := depth h key
  let r := produce n false (troughNow h key)
  let h := notePackets h key r.2.1 r.2.2.1 r.2.2.2
  match r.1 with
  | .refused => h
  | .discarded t => putTrough h key { t with prodFu := some g }
  | .at t pos =>
    let h := putTrough h key { t with prodFu := some g }
    { h with arr.flights := h.arr.flights ++
        [⟨g, (fu h g).bank, (fu h g).ctx, dueIn h (g / 128) l, .trough key pos, p⟩] }

/-! ## Results (R40, R60, R74 to R76) -/

/-- One result put in flight. -/
def launch (h : Hw) (g l : Nat) (d : Dest) (p : Payload) : Hw :=
  { h with arr.flights := h.arr.flights ++
      [⟨g, (fu h g).bank, (fu h g).ctx, dueIn h (g / 128) l, d, p⟩] }

/-- Whether DST lies in the row's class (Table 3.3, R76, R85, R93); `quad` is BFLY4 in C36. -/
def dstOk (cls : DstClass) (quad : Bool) (d : Nat) : Bool :=
  match cls with
  | .unused => true
  | .discard => d == 0x17
  | .acc => d == 0x14 || d == 0x15
  | .pair => d < 0x10 || (d == 0x12 && !quad)
  | .any => d != 0x13 && d < 0x18

/-- The tagged word of a result (R40, R84, R87; Table 3.14). -/
def resultTag (op : OpSpec) (u : UStep) (x : StepIn) (ctx : Nat) (o : Operands) (d : Word) : TW :=
  let src := o.r.src.getD TW.notValid
  let p := o.tagged.any (·.p)
  let std : TW := ⟨d, true, src.f, src.l, p, BitVec.ofNat 4 ctx⟩
  match op.tagging with
  | .standard => std
  | .chosen =>
    let w := if x.a.v then x.a else x.b
    { std with f := w.f, l := w.l, p := w.p }
  | .setFL =>
    { std with f := if u.imm.getLsbD 9 then u.imm.getLsbD 1 else std.f,
               l := if u.imm.getLsbD 8 then u.imm.getLsbD 0 else std.l }
  | .setEP => { std with ep := u.imm.extractLsb' 0 4 }
  | .clearP => { std with p := false }
  | .test => constWord d ctx

/-- Where the results of a step go: one word to one or both OUT ports, or several to consecutive W
registers or to OUT0 and OUT1 (R75, R76). Trough positions are reserved; other results fly. (DEDUCED, log 21) -/
def deliver (h : Hw) (g l fmt d : Nat) (ws : List TW) : Hw :=
  match ws with
  | [] => h
  | w :: rest =>
    if d < 0x10 then
      applyAll (fun h k => launch h g l (.w ((d + k) % 16)) (.word (ws.getD k TW.notValid))) h
        (List.range ws.length)
    else if d = 0x10 then launch h g l (.out 0) (.word w)
    else if d = 0x11 then launch h g l (.out 1) (.word w)
    else if d = 0x12 then
      launch (launch h g l (.out 0) (.word w)) g l (.out 1) (.word (rest.headD w))
    else if d = 0x14 ∨ d = 0x15 then
      if w.v then launch h g l (.acc (d - 0x14)) (.setAcc (Accum.ofWord fmt w)) else h
    else if d = 0x16 then
      match accessOf h g true with
      | .ok key => if w.v then reserve h g key (.word w) l else h
      | a => noteAccess h g a
    else h

/-- A step that does not fire, or an undefined one: its W or OUT destinations receive the not-valid word
(R13, R39). -/
def deliverNothing (h : Hw) (g l d k : Nat) : Hw :=
  if d < 0x13 then deliver h g l 0 d (List.replicate k TW.notValid) else h

/-- A lead word that names no context allowed is rejected and counted, whether or not a step issues in the cycle; the
first sets `REJ` with the context-error event (R135, R136). In a stall cycle it triggers nothing (R140).
(DEDUCED, log 27) -/
def rejectLead (m : Sparse Byte) (h : Hw) (g : Nat) : Hw :=
  let c := (fu h g).ctx
  match leadPort m g c with
  | none => h
  | some k =>
    let w := portWord m h g k
    if follows h g c ∧ fuRuns h g ∧ ¬ stalled h (g / 16) ∧ ¬ inSwitchCycle h g ∧ w.v ∧ w.ep.toNat ≠ c ∧
        ¬ mayFollow h g c w.ep.toNat then
      let h := bump h (aFU_EPOCH g) fFU_EPOCH_REJCNT 1
      if isSet h (aFU_EPOCH g) fFU_EPOCH_REJ then h
      else raiseEvent (raiseBit h (aFU_EPOCH g) fFU_EPOCH_REJ) (g / 128) 0xF8
    else h

/-- A reserved field of the step was met (R48, R93). -/
def reservedField (h : Hw) (g : Nat) (b : Bool) : Hw := setCstIf h g (fu h g).ctx fFU_CST_RSVFLD b

/-- Undefined steps: a NOP that writes a not-valid word to its destination and sets `ERR.UNDEF` (R13).
(DEDUCED, log 24; DESIGN CHOICE, log 25) -/
def undefinedStep (h : Hw) (g : Nat) (u : UStep) : Hw :=
  setCst (reservedField (deliverNothing h g 1 u.dst.toNat 1) g (gateOf u == 15)) g (fu h g).ctx fFU_CST_UNDEF

/-- The values of a step's MOD field; reserved values act as truncate and as `CL` = 0 (R48). -/
def stepIn (h : Hw) (g : Nat) (u : UStep) (op : OpSpec) (o : Operands) : StepIn :=
  let fmt := u.fmt.toNat
  ⟨fmt, u.mod.toNat / 16, rndOf (u.mod.toNat % 4), u.mod.getLsbD 2,
    op.useCl && u.mod.getLsbD 3 && fmt != 0 && fmt != 7, u.imm.toNat, o.a, o.b, o.c, o.a2, o.b2,
    twiddleAt h (g / 16)⟩

/-- A reserved value of MOD, IMM or `GATE`: `CL` in I72 and U72 is one whatever the opcode (R48, R93, R503). -/
def modReserved (u : UStep) (op : OpSpec) : Bool :=
  (op.useMod && u.mod.toNat % 4 == 3) ||
    (u.mod.getLsbD 3 && (u.fmt.toNat == 0 || u.fmt.toNat == 7)) ||
    op.immReserved u.fmt.toNat u.imm.toNat || gateOf u == 15

/-- Whether the step fires (R39, R84, R87). -/
def fires (op : OpSpec) (o : Operands) : Bool :=
  match op.firing with
  | .always => true
  | .either => o.a.v || o.b.v
  | .allValid => o.tagged.all (·.v)

/-- Issue slots and latency of a step. -/
def slotsOf (op : OpSpec) (u : UStep) : Nat := if u.fmt.toNat = 4 then op.slotsC36 else 1
def latOf (op : OpSpec) (u : UStep) : Nat := if u.fmt.toNat = 4 then op.latC36 else op.lat

/-- The number of result words of a step, for the not-valid words of one that does not fire. -/
def resultCount (op : OpSpec) (u : UStep) : Nat :=
  match op.dst with
  | .pair => if op.lat = 4 ∧ u.fmt.toNat = 4 then 4 else 2
  | .unused | .discard => 0
  | _ => 1

/-- The step pushes its result to the bound trough, and its context is bound to none (R93). -/
def pushUnbound (h : Hw) (g : Nat) (cls : DstClass) (d : Nat) : Bool :=
  cls == .any && d == 0x16 && (boundTrough h g (fu h g).ctx).isNone

/-- The effect of an active step whose opcode and format are defined: operands, firing, flags, results. A tag test
looks only at the tag of its operand and sets no flag (R87). -/
def runStep (m : Sparse Byte) (op : OpSpec) (g : Nat) (u : UStep) (onFire : StepIn → Hw → Hw) (h : Hw) : Hw :=
  let ctx := (fu h g).ctx
  let d := u.dst.toNat
  let quad := op.dst == .pair && op.lat == 4 && u.fmt.toNat == 4
  let o := readOperands m h g u op quad
  let x := stepIn o.r.h g u op o
  let dOk := dstOk op.dst quad d
  let h1 := reservedField o.r.h g (o.r.rsv || modReserved u op || !dOk || pushUnbound o.r.h g op.dst d)
  if ¬ fires op o then
    if dOk then deliverNothing h1 g (latOf op u) d (resultCount op u) else h1
  else
    let h2 := onFire x (if op.tagging = .test then h1 else setFlags h1 g ctx o.r.fl)
    let poison := o.tagged.any (·.p) && op.tagging != .clearP && op.tagging != .test
    match op.op x with
    | .words ds fl =>
      let ws := ds.map (resultTag op u x ctx o)
      let h3 := setFlags h2 g ctx fl
      let pc := (ws.countP fun w => w.p && op.tagging != .clearP)
      let h4 := if 0 < pc then countPoison h3 g ctx pc else h3
      if dOk then deliver h4 g (latOf op u) (op.outFmt u.fmt.toNat) d ws else h4
    | .product vs pe fl =>
      let h3 := setFlags h2 g ctx fl
      let h4 := if poison then countPoison h3 g ctx 1 else h3
      if ¬ dOk then h4
      else if d = 0x14 ∨ d = 0x15 then
        launch h4 g (latOf op u) (.acc (d - 0x14))
          (.setAcc (Accum.ofProduct x.fmt vs pe (o.tagged.any (·.p))))
      else
        let n : Word × Flags :=
          if x.fmt = 6 then
            let r := pack x.rnd x.sh vs pe
            (compose 6 r.1 r.2.1, r.2.2)
          else
            let r := narrowAll x.rnd x.sat (productPoint x.fmt + x.sh) (compWidth x.fmt) vs
            (compose x.fmt r.1 0, r.2)
        deliver (setFlags h4 g ctx n.2) g (latOf op u) x.fmt d [resultTag op u x ctx o n.1]
    | .addend vs pe fl =>
      let h3 := setFlags h2 g ctx fl
      let h4 := if poison then countPoison h3 g ctx 1 else h3
      if ¬ dOk then h4
      else launch h4 g (latOf op u) (.acc (d - 0x14))
        (.addAcc x.fmt vs pe x.rnd x.sat (o.tagged.any (·.p)))

/-! ## Refusals and stalls (R64, R104, R113, R189) -/

/-- The trough and kind of a refusal that a producer step would meet (R104). -/
def pushRefusal (g : Nat) (isOpenStep : Bool) (h : Hw) : Option (Nat × Bool) :=
  match accessOf h g true with
  | .ok key => if producerRefused h key isOpenStep then some (key, false) else none
  | _ => none

/-- The refusal that a pop would meet: an empty trough that is strict, or a device state that stalls
(R14, R188). -/
def popRefusal (g : Nat) (h : Hw) : Option (Nat × Bool) :=
  match accessOf h g false with
  | .ok key =>
    if readableNow (depth h key) (troughNow h key) = 0 ∧ emptyRefuses h key then some (key, true) else none
  | _ => none

/-- The refusal that a step meets, by its opcode and fields and the state of its trough, whatever its operands (R104):
PUSH and PKT_OPEN, POP, and every result that is pushed to the bound trough. -/
def refusalOf (h : Hw) (g opc : Nat) (u : UStep) : Option (Nat × Bool) :=
  let push := if u.dst.toNat = 0x16 then pushRefusal g false h else none
  match opRow opc with
  | none => none
  | some op =>
    if ¬ op.fmts.contains u.fmt.toNat then none
    else if opc = 0x82 then pushRefusal g false h
    else if opc = 0x87 then pushRefusal g true h
    else if opc = 0x83 then (popRefusal g h).or push
    else if op.dst = .any then push
    else none

/-- The state as the FUs of a pen would issue in it: the pen's results of this cycle landed in their registers and OUT
ports, and each FU turned by the epoch on its lead port and with its last round ended. Only what decides a refusal is
looked at in it (R104, R135). -/
def aboutToIssue (m : Sparse Byte) (h : Hw) (g : Nat) : Hw :=
  match epochTarget m h g with
  | none => settleRound h g
  | some b =>
    let k := (bankHolding (pen h (g / 16)) b).getD 0
    let f := fu h g
    let bk := if getF h (aPEN_CTXKIND (g / 16)) (fPEN_CTXKIND_KIND b) = 0 then setBank f k Bank.zero else f
    setFu h g { bk with ctx := b, bank := k, step := 0, rep := 0, first := true, nextSlot := h.aclk, ending := false }

/-- The refusal of the step that an FU is due to issue in this cycle with its gate open; none where it issues none. -/
def dueRefusal (m : Sparse Byte) (h : Hw) (g : Nat) : Option (Nat × Bool) :=
  let h' := aboutToIssue m h g
  let f := fu h' g
  let x := stepAt m h' g
  if fuRuns h g ∧ f.nextSlot ≤ h.aclk ∧ gateOpen (gateOf x.2) (bankOf f f.bank).lix.toNat f.first then refusalOf h' g x.1 x.2
  else none

/-- The OUT ports of an FU as its results of this cycle leave them. -/
def outsLanded (h : Hw) (g : Nat) : Hw :=
  applyAll (fun h x =>
      match x.dest, x.pay with
      | .out k, .word t =>
        let o : OutPort := ⟨t, yardCycle h (g / 128)⟩
        if x.g = g ∧ x.due ≤ h.aclk then
          setFu h g (if k = 0 then { fu h g with out0 := o } else { fu h g with out1 := o })
        else h
      | _, _ => h) h h.arr.flights

/-- FUs of a pen, by number. -/
def penFus (n : Nat) : List Nat := (List.range 16).map fun f => 16 * n + f

/-- The refusals that the FUs of a pen meet in this cycle: trough key and kind. -/
def penRefusals (m : Sparse Byte) (h : Hw) (n : Nat) : List (Nat × Bool) :=
  let h' := applyAll outsLanded h (penFus n)
  (penFus n).filterMap fun g => dueRefusal m h' g

/-- Refusals counted once each, and the pen stalled; the lowest-numbered trough is noted (R104, R113, R189). -/
def refuseAll (h : Hw) (n : Nat) (rs : List (Nat × Bool)) : Hw :=
  match rs with
  | [] => h
  | r :: rest =>
    let h1 := applyAll (fun h x => bump h (aTst x.1) fTRG_STAT_REFCNT 1) h rs
    let low := rest.foldl (fun best x => if x.1 < best.1 then x else best) r
    stallPen h1 n (low.1 % 8) low.2

/-- Whether a pen stalls is decided once in a cycle, on the state at its start, before any of its FUs issues and before
any of its results lands (R64, R104). (DESIGN CHOICE, log 8) -/
def judgePen (m : Sparse Byte) (h : Hw) (n : Nat) : Hw :=
  if ¬ arrayRuns h (n / 8) ∨ orderDue h n ∨ inCycle h (n / 8) (pen h n).judged then h
  else
    let h1 := setPen h n { pen h n with judged := edgeOf h (n / 8) + 1 }
    if (pen h1 n).halted then h1 else refuseAll h1 n (penRefusals m h1 n)

/-- The hardware in which an issue of FU g is decided: its pen judged for this cycle, and a round that ends before it
ended (R64, R80, R104). -/
def readyFu (m : Sparse Byte) (h : Hw) (g : Nat) : Hw := settleRound (judgePen m h (g / 16)) g

/-- What every step does first and last. The command's step issues where it is the stored step at which the FU's
sequencer stands (R77, R78); else the command has no effect of its own. A closed gate occupies its slots only (R79); a
refusal stalls the pen (R104). `body` is the step's own effect. -/
def issue (m : Sparse Byte) (g opc : Nat) (u : UStep) (slots : Nat) (body : Hw → Hw) (h0 : Hw) : Hw :=
  if ¬ arrayRuns h0 (g / 128) then h0
  else
  let h := readyFu m h0 g
  if ¬ canIssue m h g ∨ stepAt m h g ≠ (opc, u) then h
  else
    let f := fu h g
    if ¬ gateOpen (gateOf u) (bankOf f f.bank).lix.toNat f.first then
      finishIssue h g u slots
    else
      match refusalOf h g opc u with
      | some r => refuseAll h (g / 16) [r]
      | none => finishIssue (body h) g u slots

/-- One step of an opcode with a row: an FMT the row does not allow behaves as an undefined step (R92). (DEDUCED, log 7) -/
def fuStep (m : Sparse Byte) (opc : Nat) (op : OpSpec) (g : Nat) (u : UStep) (onFire : StepIn → Hw → Hw) (h : Hw) : Hw :=
  if op.fmts.contains u.fmt.toNat then issue m g opc u (slotsOf op u) (runStep m op g u onFire) h
  else issue m g opc u 1 (fun h => undefinedStep h g u) h

/-- A step that has no effect besides its results. -/
def noAction : StepIn → Hw → Hw := fun _ h => h

/-- LIXSET: the loop index takes IMM at the end of the round (R80). -/
def setLoopIndex (g : Nat) (x : StepIn) (h : Hw) : Hw :=
  setFu h g { fu h g with lixNext := some (BitVec.ofNat 16 x.imm) }

/-- SIGNAL: the yard's line is raised in the cycle after issue (R88). -/
def raiseSignal (g : Nat) (x : StepIn) (h : Hw) : Hw :=
  raiseLater h (g / 128) (x.imm % 64) (dueIn h (g / 128) 1)

end Sys2Proof.Machine
end

