-- ==== Sys2Proof/Machine/FuMem.lean ====
section
/-!
DEFINITION. Memory and trough steps of an FU (Table 3.13, R86, R171 to R174, R188 to R195) and the landing
of results (R60 to R63, R117).
-/

namespace Sys2Proof.Machine

/-- Bank index of word w of pen memory n, and its row (R170, R206). -/
def penBank (n w : Nat) : Nat × Nat := (8 * n + w % 8, w / 8)
/-- Bank index of word w of the loft of yard y, and its row. -/
def loftBank (y w : Nat) : Nat × Nat := (1024 + 16 * y + w % 16, w / 16)

/-- The row is in the bad-row table (R200). -/
def rowBad (h : Hw) (b : Nat × Nat) : Bool := h.badRows.contains b

/-- A word of a pen memory read under R22, R195 and R200: a bad row and an uncorrectable word read as
D = 0, tag 0x90. The count of a correction goes to the bank's `PM_ECC`. -/
def readPenWord (m : Sparse Byte) (h : Hw) (n w : Nat) (e : Ecc) : TW × Hw × Bool :=
  if rowBad h (penBank n w) then (TW.poisoned, h, false)
  else
    match e with
    | .ok => (readWord m (penWord n w), h, false)
    | .corrected => (readWord m (penWord n w), bump h (aPM_ECC n) (fPM_ECC_CE (w % 8)) 1, false)
    | .uncorrectable => (TW.poisoned, uncorrectable h (penWord n w), true)

/-- The bank word of a trough position. -/
def troughSlot (h : Hw) (key pos : Nat) : Nat :=
  (8 * getF h (aCfg key) fTRG_CFG_BASE + pos % depth h key) % 16384

/-- The word at the read pointer of a trough as a pop or pull takes it, with the ECC outcome of its bank word (R195,
R200); a word in the tail buffer has met no bank. -/
def popWord (m : Sparse Byte) (h : Hw) (key : Nat) (t : Trough) (e : Ecc) : TW × Hw :=
  let inTail := (lookup t.tail t.rp).isSome
  let n := key / 8
  let slot := troughSlot h key t.rp
  let r := troughEcc h key inTail (troughWord m h key t t.rp) e
  let h1 := if r.2.2 then uncorrectable r.2.1 (penWord n slot) else r.2.1
  (if ¬ inTail ∧ rowBad h (penBank n slot) then TW.poisoned else r.1,
    if e = .corrected ∧ ¬ inTail then bump h1 (aPM_ECC n) (fPM_ECC_CE (slot % 8)) 1 else h1)

/-- A LOAD or STORE that lost its port (R174). -/
def portLost (h : Hw) (n : Nat) : Hw :=
  bump (raiseBit h (aPM_STAT n) fPM_STAT_CONFL) (aPM_STAT n) fPM_STAT_CONFLCNT 1

/-- A trough step or a step whose result is pushed, of a context bound to no trough, is a reserved use whether or not
it fires (R93). -/
def usesUnbound (h : Hw) (g opc : Nat) (dst : DstClass) (u : UStep) : Bool :=
  (0x82 ≤ opc && (boundTrough h g (fu h g).ctx).isNone) || pushUnbound h g dst u.dst.toNat

/-- A memory or trough step: its operands are read, reserved fields noted, and `act` runs with the
operands where it fires; a step with a destination delivers the not-valid word where it does not. -/
def memStep (m : Sparse Byte) (opc : Nat) (useA useB : Bool) (dst : DstClass) (l : Nat) (g : Nat) (u : UStep)
    (act : Operands → Hw → Hw) (h : Hw) : Hw :=
  if 8 ≤ u.fmt.toNat then issue m g opc u 1 (fun h => undefinedStep h g u) h
  else
    issue m g opc u 1 (fun h =>
      let op := memRow useA useB dst
      let o := readOperands m h g u op false
      let dOk := dstOk dst false u.dst.toNat
      let h1 := reservedField o.r.h g (o.r.rsv || modReserved u op || !dOk || usesUnbound o.r.h g opc dst u)
      if fires op o then act o (setFlags h1 g (fu h g).ctx o.r.fl)
      else if dst = .any ∧ dOk then deliverNothing h1 g l u.dst.toNat 1
      else h1) h

/-- A stored word delivered unchanged to the destination (R86). -/
def deliverStored (h : Hw) (g l : Nat) (u : UStep) (w : TW) : Hw :=
  if dstOk .any false u.dst.toNat then
    if w.v ∨ u.dst.toNat < 0x13 then deliver h g l u.fmt.toNat u.dst.toNat [w] else h
  else h

/-- The pen-memory word a LOAD or STORE addresses. -/
def memWordOf (u : UStep) (a : TW) : Nat := (a.d.toNat % 2 ^ 14 + u.imm.toNat) % 16384

/-- Where the word of a LOAD goes (Table 3.3): one flight for each place, all of one bank access. A trough position is
reserved in the issue cycle (R172). -/
def launchLoad (h : Hw) (g d : Nat) (p : Payload) : Hw :=
  if d < 0x10 then launch h g 3 (.w d) p
  else if d = 0x10 then launch h g 3 (.out 0) p
  else if d = 0x11 then launch h g 3 (.out 1) p
  else if d = 0x12 then launch (launch h g 3 (.out 0) p) g 3 (.out 1) p
  else if d = 0x14 ∨ d = 0x15 then launch h g 3 (.acc (d - 0x14)) p
  else if d = 0x16 then
    match accessOf h g true with
    | .ok key => reserve h g key p 3
    | a => noteAccess h g a
  else h

/-- LOAD (R172, R174, R195): the bank is read in the next cycle. -/
def loadStep (m : Sparse Byte) (g : Nat) (u : UStep) (e : Ecc) (h : Hw) : Hw :=
  memStep m 0x80 true false .any 3 g u (fun o h =>
    if dstOk .any false u.dst.toNat then
      launchLoad h g u.dst.toNat (.load (g / 16) (memWordOf u o.a) u.fmt.toNat e .waiting)
    else h) h

/-- STORE (R172, R174): the bank is written in the next cycle. -/
def storeStep (m : Sparse Byte) (g : Nat) (u : UStep) (h : Hw) : Hw :=
  memStep m 0x81 true true .discard 1 g u (fun o h =>
    launch h g 1 (.store (g / 16) (memWordOf u o.a)) (.word o.b)) h

/-- PUSH: the word lands in the cycle of issue (Table 7.2). -/
def pushStep (m : Sparse Byte) (g : Nat) (u : UStep) (h : Hw) : Hw :=
  memStep m 0x82 true false .discard 1 g u (fun o h =>
    match accessOf h g true with
    | .ok key =>
      let r := produce (depth h key) false (troughNow h key)
      let h1 := notePackets h key r.2.1 r.2.2.1 r.2.2.2
      match r.1 with
      | .refused => h1
      | .discarded t => putTrough h1 key { t with prodFu := some g }
      | .at t pos => putTrough h1 key (placeWord { t with prodFu := some g } pos o.a)
    | a => noteAccess h g a) h

/-- POP: the word at the read pointer, or the not-valid word of an empty trough that does not refuse
(R188, R195). -/
def popStep (m : Sparse Byte) (g : Nat) (u : UStep) (e : Ecc) (h : Hw) : Hw :=
  memStep m 0x83 false false .any 2 g u (fun _ h =>
    match accessOf h g false with
    | .ok key =>
      let n := depth h key
      let t := troughNow h key
      if readableNow n t = 0 then
        deliverNothing (putTrough h key { t with consFu := some g }) g 2 u.dst.toNat 1
      else
        let r := popWord m h key t e
        deliverStored (putTrough r.2 key (popOne n { t with consFu := some g })) g 2 u r.1
    | a => deliverNothing (noteAccess h g a) g 2 u.dst.toNat 1) h

/-- A consumer control step: MARK, REWIND or RELEASE. -/
def consumerStep (m : Sparse Byte) (opc g : Nat) (u : UStep) (act : Nat → Trough → Hw → Hw) (h : Hw) : Hw :=
  memStep m opc true false .discard 1 g u (fun _ h =>
    match accessOf h g false with
    | .ok key => act key { troughNow h key with consFu := some g } h
    | a => noteAccess h g a) h

/-- A producer control step: PKT_CLOSE or PKT_ABORT. -/
def producerStep (m : Sparse Byte) (opc g : Nat) (u : UStep) (act : Nat → Trough → Hw → Hw) (h : Hw) : Hw :=
  memStep m opc true false .discard 1 g u (fun _ h =>
    match accessOf h g true with
    | .ok key => act key { troughNow h key with prodFu := some g } h
    | a => noteAccess h g a) h

def markStep (m : Sparse Byte) (g : Nat) (u : UStep) : Hw → Hw :=
  consumerStep m 0x84 g u fun key t h => putTrough h key { t with mark := t.rp }
def rewindStep (m : Sparse Byte) (g : Nat) (u : UStep) : Hw → Hw :=
  consumerStep m 0x85 g u fun key t h => putTrough h key { t with rp := t.mark, head := [] }
def releaseStep (m : Sparse Byte) (g : Nat) (u : UStep) : Hw → Hw :=
  consumerStep m 0x86 g u fun key t h => releaseWords h key t u.imm.toNat

/-- PKT_OPEN: a length slot reserved, refused on a full trough like a push. -/
def openStep (m : Sparse Byte) (g : Nat) (u : UStep) (h : Hw) : Hw :=
  memStep m 0x87 true false .discard 1 g u (fun _ h =>
    match accessOf h g true with
    | .ok key =>
      let r := produce (depth h key) true (troughNow h key)
      let h1 := notePackets h key r.2.1 r.2.2.1 r.2.2.2
      match r.1 with
      | .refused => h1
      | .discarded t => putTrough h1 key { t with prodFu := some g }
      | .at t _ => putTrough h1 key { t with prodFu := some g }
    | a => noteAccess h g a) h

def closeStep (m : Sparse Byte) (g : Nat) (u : UStep) : Hw → Hw :=
  producerStep m 0x88 g u fun key t h => closePacket m h key t none (u.imm.toNat % 256)
def abortStep (m : Sparse Byte) (g : Nat) (u : UStep) : Hw → Hw :=
  producerStep m 0x89 g u fun key t h => abortPacket h key t

/-! ## Bank accesses of LOAD and STORE (R172 to R174) -/

/-- Key of a bank port: the read port, or the write port, of a bank. -/
def portKey (bank : Nat) (wr : Bool) : Nat := 2 * bank + wr.toNat

/-- The access of a class and number holds a bank port in this cycle. -/
def holdsPort (h : Hw) (bank : Nat) (wr : Bool) (cls num : Nat) : Bool :=
  match lookup h.arr.ports (portKey bank wr) with
  | some c => c.cls == cls && c.num == num
  | none => false

/-- No access holds a bank port in this cycle. -/
def portIdle (h : Hw) (bank : Nat) (wr : Bool) : Bool := (lookup h.arr.ports (portKey bank wr)).isNone

/-- A bank port given to an access where no other holds it (R173). -/
def claimPort (h : Hw) (p cls num : Nat) : Hw :=
  if (lookup h.arr.ports p).isNone then { h with arr.ports := insertAt h.arr.ports p ⟨cls, num, false⟩ } else h

/-- What becomes of the bank access of a LOAD at the end of its bank cycle: read, or lost to another access (R174); and
the count of the word's ECC outcome. -/
def readLoad (m : Sparse Byte) (h : Hw) (g w : Nat) (e : Ecc) : LoadRead × Hw :=
  let n := g / 16
  if holdsPort h (penBank n w).1 false 3 g then
    let r := readPenWord m h n w e
    (.got r.1, if r.2.2 then raiseBit r.2.1 (aPM_STAT n) fPM_STAT_UCE else r.2.1)
  else (.lost, portLost h n)

/-- The LOAD of an FU whose bank cycle ends now: its flights, all of one access, take what was read. -/
def finishLoadOf (m : Sparse Byte) (h : Hw) (g : Nat) : Hw :=
  let now (x : Flight) : Bool := x.g == g && x.due ≤ dueIn h (g / 128) 2
  let found := h.arr.flights.findSome? fun x =>
    match x.pay with
    | .load _ w _ e .waiting => if now x then some (w, e) else none
    | _ => none
  match found with
  | none => h
  | some (w, e) =>
    let r := readLoad m h g w e
    { r.2 with arr.flights := r.2.arr.flights.map fun x =>
        match x.pay with
        | .load n w fmt e .waiting => if now x then { x with pay := .load n w fmt e r.1 } else x
        | _ => x }

/-- A STORE whose bank cycle ends now: its word written, or dropped where it lost the port (R174, R200). -/
def finishStore (s : Sparse Byte × Hw) (x : Flight) : Sparse Byte × Hw :=
  match x.dest, x.pay with
  | .store n w, .word t =>
    if ¬ holdsPort s.2 (penBank n w).1 true 3 x.g then (s.1, portLost s.2 n)
    else if rowBad s.2 (penBank n w) then s
    else (writeWord s.1 (penWord n w) t, s.2)
  | _, _ => s

/-- A flight is a STORE of a pen whose bank cycle has come. -/
def storeDue (h : Hw) (n : Nat) (x : Flight) : Bool :=
  match x.dest with
  | .store n' _ => n' == n && x.due ≤ h.aclk
  | _ => false

/-- The LOADs and STOREs of a pen whose bank cycle ends now: reads first, so that a LOAD sees no STORE issued with it
(Table 7.2). In a stall cycle they wait (R64). -/
def closeAccesses (m : Sparse Byte) (h : Hw) (n : Nat) : Sparse Byte × Hw :=
  if stalled h n then (m, h)
  else
    let h1 := applyAll (fun h g => finishLoadOf m h g) h (penFus n)
    let due := h1.arr.flights.filter fun x => storeDue h1 n x
    let h2 := { h1 with arr.flights := h1.arr.flights.filter fun x => !(storeDue h1 n x) }
    due.foldl finishStore (m, h2)

/-! ## Landing (R60 to R63, R117) -/

/-- A dirty bit of a bank set. -/
def markDirty (b : Bank) (grp : Nat) : Bank := { b with dirty := b.dirty ||| BitVec.ofNat 5 (2 ^ grp) }

/-- The word that a LOAD brings: the stored word, or the not-valid word where its access was lost (R174). -/
def loadWord : LoadRead → TW
  | .got t => t
  | _ => TW.notValid

/-- What a flight lands: a LOAD's word as what its destination takes. -/
def landing (fl : Flight) : Payload :=
  match fl.pay with
  | .load _ _ fmt _ r =>
    match fl.dest with
    | .acc _ => .setAcc (Accum.ofWord fmt (loadWord r))
    | _ => .word (loadWord r)
  | p => p

/-- A LOAD whose word is not valid brings an accumulator nothing. -/
def bringsNothing (fl : Flight) : Bool :=
  match fl.dest, fl.pay with
  | .acc _, .load _ _ _ _ r => !(loadWord r).v
  | _, _ => false

/-- One result landed in its destination: registers with their group's dirty bit, OUT ports for this
cycle, trough positions (R36, R60, R117). An accumulator lane that SAT clamps was saturated (R66, Table 2.14). -/
def landOne (h : Hw) (fl : Flight) : Hw :=
  let f := fu h fl.g
  let b := bankOf f fl.bank
  if bringsNothing fl then h
  else
  match fl.dest, landing fl with
  | .w k, .word t => setFu h fl.g (setBank f fl.bank (markDirty { b with w := setD TW.notValid b.w k t } (k / 4)))
  | .acc k, .setAcc a =>
    let b' := if k = 0 then { b with acc0 := a } else { b with acc1 := a }
    setFu h fl.g (setBank f fl.bank (markDirty b' 4))
  | .acc k, .addAcc fmt vs pe rnd sat p =>
    let r := (if k = 0 then b.acc0 else b.acc1).accumulate fmt vs pe rnd sat p
    let b' := if k = 0 then { b with acc0 := r.1 } else { b with acc1 := r.1 }
    let h1 := setFu h fl.g (setBank f fl.bank (markDirty b' 4))
    setFlags h1 fl.g fl.ctx { Flags.none with accovf := r.2, satd := r.2 && sat }
  | .out k, .word t =>
    let o : OutPort := ⟨t, yardCycle h (fl.g / 128)⟩
    setFu h fl.g (if k = 0 then { f with out0 := o } else { f with out1 := o })
  | .trough key pos, .word t => landWord h key pos t
  | _, _ => h

/-- A flight lands by RESULT_LAND: a STORE does not, its word goes to its bank (R172). -/
def landsNow (h : Hw) (g : Nat) (f : Flight) : Bool :=
  match f.dest with
  | .store _ _ => false
  | _ => f.g == g && f.due ≤ h.aclk

/-- The results of an FU that are due, less each whose destination a later-issued one takes in the same
cycle (R62). (DESIGN CHOICE, log 4) -/
def dueFlights (h : Hw) (g : Nat) : List Flight :=
  keepLast (h.arr.flights.filter (landsNow h g))
where
  /-- An earlier result of the same destination and cycle is lost. -/
  keepLast : List Flight → List Flight
    | [] => []
    | f :: fs =>
      if fs.any fun x => x.dest == f.dest && x.bank == f.bank && x.due == f.due then keepLast fs
      else f :: keepLast fs

/-- The results of an FU that are due land in issue order; in a stall cycle of its pen none is due (R64, R104). -/
def landResults (m : Sparse Byte) (h : Hw) (g : Nat) : Hw :=
  if ¬ arrayRuns h (g / 128) then h
  else
    let h := judgePen m h (g / 16)
    let due := dueFlights h g
    let h1 := { h with arr.flights := h.arr.flights.filter fun f => !(landsNow h g f) }
    applyAll landOne h1 due

/-- What a crossing presents at a delivery edge (R108 to R111): the latest word due; earlier ones of the
same edge are lost; a word not yet synchronised is presented at the next edge, unless a word taken later falls due
there (R111). -/
def deliverCrossing (h : Hw) (g t : Nat) (late : Bool) : Hw :=
  let key := 12 * g + t
  match farEnd g t with
  | none => h
  | some g' =>
    let y := g' / 128
    if ¬ (arrayRuns h y ∧ onEdge h y) then h
    else
      let due := h.arr.xq.filter fun x => x.key = key ∧ x.due ≤ h.aclk
      match due.getLast? with
      | none => h
      | some w =>
        let n := g / 16
        let lost := due.length - 1
        let h1 := if lost = 0 then h else bump h (aPEN_XLOST n) fPEN_XLOST_XCLOST lost
        let rest := h1.arr.xq.filter fun x => ¬ (x.key = key ∧ x.due ≤ h.aclk)
        if late then
          let n' := g' / 16
          let side := (t / 3 + 2) % 4
          let h2 := { h1 with arr.xq := { w with due := edgeFrom h y (h.aclk + 1) } :: rest }
          let h3 := bump h2 (aPEN_XLOST n') fPEN_XLOST_XCLATE 1
          let a := aPEN_XCSTAT n'
          let h4 := raiseIn h3 a fPEN_XCSTAT_LATE side
          if (getF h3 a fPEN_XCSTAT_LATE).testBit side then h4 else raiseAlarm h4 0x046 0xFF (a % 2 ^ 40) 0
        else
          { h1 with arr.xq := rest, arr.xout := insertAt h1.arr.xout key ⟨w.tw, yardCycle h y⟩ }

end Sys2Proof.Machine
end

