-- ==== Sys2Proof/Machine/Pens.lean ====
section
/-!
DEFINITION. Contexts of a pen: residency, victims, writeback and restore, broadcast switches and halts,
context loads, epoch switches and writes of the context registers (R114 to R146, R158, R159).
-/

namespace Sys2Proof.Machine

/-- Kind of a context (Table 5.2) and its `SAVED` bit. -/
def kindOf (h : Hw) (n c : Nat) : Nat := getF h (aPEN_CTXKIND n) (fPEN_CTXKIND_KIND c)
def savedOf (h : Hw) (n c : Nat) : Bool := isSet h (aPEN_CTXKIND n) (fPEN_CTXKIND_SAVED c)
def setSaved (h : Hw) (n c v : Nat) : Hw := setF h (aPEN_CTXKIND n) (fPEN_CTXKIND_SAVED c) v

/-- Pen-memory word of word i of the spill area of a context (R125, R126). -/
def spillWord (h : Hw) (n c i : Nat) : Nat := (8 * getF h (aPEN_SPILL n c) fPEN_SPILL_BASE + i) % 16384

/-! ## Parked contexts (R141) -/

/-- Contexts that a valid task of the yard names for this pen, or that an FU runs, or that a load names. -/
def directlyUsed (h : Hw) (n c : Nat) : Bool :=
  let y := n / 8
  let f := fnOf h (fnId 3 y)
  let stoppedProgram := !f.running && f.cause != 0
  let byTask := !stoppedProgram && (List.range 64).any fun t =>
    taskValid h y t && taskCtx h y t == c && (taskMask h y t).testBit (n % 8)
  let byFu := !(pen h n).halted && (penFus n).any fun g => (fu h g).ctx == c
  let byLoad := match (pen h n).load with
    | some l => l.ctx == c
    | none => false
  byTask || byFu || byLoad

/-- The contexts of a set with those that their follow sets name. -/
def withFollowers (h : Hw) (n : Nat) (cs : List Nat) : List Nat :=
  (List.range 16).filter fun b =>
    cs.contains b || cs.any fun a =>
      (penFus n).any fun g => (getF h (aFU_CTXCTL g a) fFU_CTXCTL_FSET).testBit b

/-- The closure of a set under follow sets. -/
def followClosure (h : Hw) (n : Nat) : Nat → List Nat → List Nat
  | 0, cs => cs
  | k + 1, cs =>
    let cs' := withFollowers h n cs
    if cs'.length = cs.length then cs else followClosure h n k cs'

/-- Context c of a pen is in use (R141). -/
def inUse (h : Hw) (n c : Nat) : Bool :=
  (followClosure h n 16 ((List.range 16).filter fun c => directlyUsed h n c)).contains c

/-! ## Spill records (R125, Table 5.3) -/

/-- The words of G4 of a bank, tagged 0x80 + c. -/
def packG4 (b : Bank) (c : Nat) : List TW :=
  let a0 := b.acc0.v.toNat
  let a1 := b.acc1.v.toNat
  let w21 := a1 / 2 ^ 168 + rawOf 10 b.acc0.ae * 2 ^ 24 + rawOf 10 b.acc1.ae * 2 ^ 34 +
    b.acc0.p.toNat * 2 ^ 44 + b.acc1.p.toNat * 2 ^ 45 + b.lix.toNat * 2 ^ 46
  ([a0 % 2 ^ 72, a0 / 2 ^ 72 % 2 ^ 72, a1 % 2 ^ 72, a1 / 2 ^ 72 % 2 ^ 72,
    a0 / 2 ^ 144 + a1 / 2 ^ 144 % 2 ^ 24 * 2 ^ 48, w21]).map fun x => constWord (BitVec.ofNat 72 x) c

/-- The words of an FU's record that a set of dirty groups writes: offset in the record and word. -/
def recordWords (b : Bank) (c : Nat) (dirty : BitVec 5) : List (Nat × TW) :=
  let ws := (List.range 16).filterMap fun k =>
    if dirty.getLsbD (k / 4) then some (k, getD TW.notValid b.w k) else none
  let gs := if dirty.getLsbD 4 then (List.zip (List.range 6) (packG4 b c)).map fun e => (16 + e.1, e.2) else []
  ws ++ gs

/-- A bank restored from the 22 words of its record (R133): poisoned words keep their data bits, set the
ACCP of the accumulators with bits in them, and go to W registers as read. -/
def unpackRecord (ws : List TW) : Bank :=
  let w (i : Nat) : TW := ws.getD i TW.notValid
  let d (i : Nat) : Nat := (w i).d.toNat
  let a0 := d 16 + d 17 * 2 ^ 72 + d 20 % 2 ^ 48 * 2 ^ 144
  let a1 := d 18 + d 19 * 2 ^ 72 + d 20 / 2 ^ 48 % 2 ^ 24 * 2 ^ 144 + d 21 % 2 ^ 24 * 2 ^ 168
  let both := (w 20).p || (w 21).p
  let ae (lo : Nat) : Int := signed 10 (d 21 / 2 ^ lo % 2 ^ 10)
  ⟨(List.range 16).foldl (fun m k => setD TW.notValid m k (w k)) [],
    ⟨BitVec.ofNat 192 a0, ae 24, (d 21).testBit 44 || both || (w 16).p || (w 17).p⟩,
    ⟨BitVec.ofNat 192 a1, ae 34, (d 21).testBit 45 || both || (w 18).p || (w 19).p⟩,
    BitVec.ofNat 16 (d 21 / 2 ^ 46), 0⟩

/-! ## Eviction and making resident (R119 to R124, R131 to R133) -/

/-- The bank that a load or a non-resident switch in progress has taken for its context (R124, R131). -/
def takenBank (p : Pen) : Option Nat :=
  match p.load, p.nonres with
  | some l, _ => some l.bank
  | none, some r => if r.retry then none else some r.bank
  | none, none => none

/-- The bank chosen for an incoming context at cycle D: the lowest empty one, else the eligible one least
recently used; none where no bank is eligible (R122, R123). A bank taken for a context on its way is neither. -/
def chooseVictim (h : Hw) (n : Nat) : Option Nat :=
  let p := pen h n
  let cyc (i : Nat) : Nat := (i - 1) / 2 ^ yardShift h (n / 8)
  match (List.range 4).find? fun b => (lookup p.held b).isNone && takenBank p != some b with
  | some b => some b
  | none =>
    let eligible := (List.range 4).filter fun b =>
      match lookup p.held b with
      | none => false
      | some c =>
        kindOf h n c != 2 &&
          (match lookup p.issued c with
           | none => true
           | some i => cyc i + 5 < yardCycle h (n / 8))
    match eligible with
    | [] => none
    | b :: bs =>
      some (bs.foldl (fun best b' => if getD 0 p.lastUse b' < getD 0 p.lastUse best then b' else best) b)

/-- The words that a writeback of a bank writes: pen-memory word and value, over the 16 FUs. -/
def writebackWords (h : Hw) (n b c : Nat) : List (Nat × TW) :=
  ((List.range 16).map fun f =>
    let bk := bankOf (fu h (16 * n + f)) b
    (recordWords bk c bk.dirty).map fun e => (spillWord h n c (22 * f + e.1), e.2)).flatten

/-- The number of words that each pen-memory bank receives. -/
def bankWords (ws : List (Nat × TW)) : List Nat := (List.range 8).map fun k => ws.countP fun e => e.1 % 8 == k

/-- W of R131: the largest number of words that one pen-memory bank receives. -/
def bankLoad (counts : List Nat) : Nat := counts.foldl max 0

/-- The dirty bits of a bank cleared in every FU. -/
def clearDirty (h : Hw) (n b : Nat) : Hw :=
  applyAll (fun h g => setFu h g (setBank (fu h g) b { bankOf (fu h g) b with dirty := 0 })) h (penFus n)

/-- A bank's context evicted: a spillable one is written back and marked `SAVED`; the bank is empty from
now on. Answers the memory, the state, the words written to each pen-memory bank and the victim. (DEDUCED, log 31) -/
def evict (m : Sparse Byte) (h : Hw) (n b : Nat) : Sparse Byte × Hw × List Nat × Option Nat :=
  match lookup (pen h n).held b with
  | none => (m, h, bankWords [], none)
  | some c =>
    let h := applyAll settleRound h (penFus n)
    let ws := if kindOf h n c = 1 then writebackWords h n b c else []
    let m' := ws.foldl (fun m e => if rowBad h (penBank n e.1) then m else writeWord m (penWord n e.1) e.2) m
    let h1 := if kindOf h n c = 1 then setSaved h n c 1 else h
    let h2 := clearDirty h1 n b
    let h3 := setPen h2 n { pen h2 n with held := removeAt (pen h2 n).held b }
    (m', setF h3 (aPEN_CTXSTAT n) fPEN_CTXSTAT_LASTVICTIM c, bankWords ws, some c)

/-- A context whose kind and `SAVED` bit ask for a restore from its spill area (Table 5.2, R145). -/
def restores (h : Hw) (n c : Nat) : Bool := kindOf h n c != 0 && savedOf h n c

/-- The words that a restore reads from each pen-memory bank: 352 words of consecutive banks (R131). -/
def restoreWords (h : Hw) (n c : Nat) : List Nat := List.replicate 8 (if restores h n c then 44 else 0)

/-- Bank b of an FU zeroed for a context; a spillable one gets every dirty bit (Table 5.2), and so does one that a
diagnostic write made pinned while it held no bank (R145). -/
def zeroBank (h : Hw) (n b c : Nat) : Hw :=
  let full := kindOf h n c = 1 ∨ (kindOf h n c = 2 ∧ (pen h n).diagPin.getLsbD c)
  let z : Bank := { Bank.zero with dirty := if full then 31 else 0 }
  applyAll (fun h g => setFu h g (setBank (fu h g) b z)) h (penFus n)

/-- Bank b filled from the spill area of a context; `bad` are the area words that read as uncorrectable
(R22, R133). -/
def restoreBank (m : Sparse Byte) (h : Hw) (n b c : Nat) (bad : List Nat) : Hw :=
  let word (i : Nat) : TW :=
    let w := spillWord h n c i
    if bad.contains i ∨ rowBad h (penBank n w) then TW.poisoned else readWord m (penWord n w)
  let h1 := applyAll (fun h f =>
      let g := 16 * n + f
      setFu h g (setBank (fu h g) b (unpackRecord ((List.range 22).map fun i => word (22 * f + i)))))
    h (List.range 16)
  let h2 := applyAll (fun h i => if i < 352 then uncorrectable h (penWord n (spillWord h n c i)) else h) h1 bad
  if (List.range 352).any fun i => (word i).p then
    raiseEvent (raiseBit h2 (aPEN_CTXSTAT n) fPEN_CTXSTAT_RSTPSN) (n / 8) 0xF8
  else h2

/-- The incoming context takes its bank: restored or zeroed, and resident from now on. -/
def takeBank (m : Sparse Byte) (h : Hw) (n b c : Nat) (bad : List Nat) : Hw :=
  let h1 := if restores h n c then restoreBank m h n b c bad else zeroBank h n b c
  setPen h1 n { pen h1 n with held := insertAt (pen h1 n).held b c,
                              lastUse := insertAt (pen h1 n).lastUse b (h.aclk + 1) }

/-! ## Switches (R127 to R132, R158) -/

/-- One FU turned to a context: its round abandoned, the first round since switch-in begun (R81, R128). -/
def turnFu (h : Hw) (c b : Nat) (byEp : Bool) (g : Nat) : Hw :=
  let f := settleFu h.aclk (fu h g)
  setFu h g { f with prev := f.ctx, ctx := c, bank := b, byEp := byEp, step := 0, rep := 0, first := true,
                     lixNext := none, nextSlot := h.aclk, ending := false, bsw := if byEp then f.bsw else h.aclk + 1 }

/-- Every FU of a pen turned to a resident context, a stateless one zeroed (R121, R128). -/
def switchResident (h : Hw) (n c b : Nat) (preload : Option Nat) (t : Nat) : Hw :=
  let h1 := if kindOf h n c = 0 then zeroBank h n b c else h
  let h2 := applyAll (fun h g => turnFu h c b false g) h1 (penFus n)
  let h3 := setPen h2 n { pen h2 n with halted := false, nonres := none,
                                        preload := preload.map fun x => ⟨x, t, c, h.aclk⟩ }
  setF h3 (aPEN_CTXSTAT n) fPEN_CTXSTAT_LASTCTX c

/-- A context load in progress stopped by a switch: `FAIL`; the victim keeps its bank, unless a restore word has been
read (R124); a preload that stops is recorded (R159). (DESIGN CHOICE, log 166) -/
def stopLoad (h : Hw) (n : Nat) : Hw :=
  match (pen h n).load with
  | none => h
  | some l =>
    let p := pen h n
    let lost := l.reads ≠ restoreWords h n l.ctx
    let held := match l.victim with
      | some c => if lost then p.held else insertAt p.held l.bank c
      | none => p.held
    let h1 := setPen h n { p with load := none, held := held, loadRes := some false }
    let a := aPEN_CTXLOAD n
    let h2 := setF (raiseBit h1 a fPEN_CTXLOAD_FAIL) a fPEN_CTXLOAD_BUSY 0
    match l.preloadOf with
    | some t => stageRecord h2 (n / 8) (traceRecord h2 (n / 8) 7 t (taskCtx h2 (n / 8) t) (2 ^ (n % 8)) l.ctx)
    | none => h2

/-- The bank ports that a non-resident switch uses in the current cycle of its phases: a bank takes its writebacks in
the first cycles of the writeback phase, and its restore reads in the first cycles of the restore phase (R131).
(DEDUCED, log 181) -/
def phasePorts (n : Nat) (r : NonRes) : List Nat :=
  let w := bankLoad r.writes
  let start := if w ≠ 0 ∧ bankLoad r.reads ≠ 0 then w + 1 else w
  ((List.range 8).filter fun k => r.phase < r.writes.getD k 0).map (fun k => portKey (8 * n + k) true) ++
    ((List.range 8).filter fun k => start ≤ r.phase ∧ r.phase < start + r.reads.getD k 0).map
      fun k => portKey (8 * n + k) false

/-- A switch takes its bank ports, class 1 of Table 7.3, whatever else asks for them in the cycle (R132, R173). -/
def takePorts (h : Hw) (n : Nat) : Hw :=
  match (pen h n).nonres with
  | some r => { h with arr.ports := (phasePorts n r).foldl (fun ps p => insertAt ps p ⟨1, 0, true⟩) h.arr.ports }
  | none => h

/-- Phases of a non-resident switch from cycle D, with the victim chosen: writeback now, step 0 after
W + T + R cycles (R131). -/
def startNonRes (m : Sparse Byte) (h : Hw) (n c b : Nat) (preload : Option Nat) (t : Nat) :
    Sparse Byte × Hw :=
  let e := evict m h n b
  let w := bankLoad e.2.2.1
  let r := if restores e.2.1 n c then 44 else 0
  let turn := if w ≠ 0 ∧ r ≠ 0 then 1 else 0
  let a := aPEN_CTXSTAT n
  let h1 := setF (setF e.2.1 a fPEN_CTXSTAT_LASTW w) a fPEN_CTXSTAT_LASTR r
  let p := pen h1 n
  (e.1, takePorts (setPen h1 n { p with halted := false,
                                        nonres := some ⟨c, b, dueIn h1 (n / 8) (w + turn + r), false, preload, t,
                                          0, e.2.2.1, restoreWords h1 n c⟩ }) n)

/-- A switch order applied in its cycle D (R128, R131, R158). -/
def applyOrder (m : Sparse Byte) (h : Hw) (n : Nat) (o : SwitchOrder) : Sparse Byte × Hw :=
  match o.ctx with
  | none =>
    let p := pen h n
    (m, setPen (applyAll (fun h g =>
        setFu h g { settleFu h.aclk (fu h g) with step := 0, rep := 0, first := true, lixNext := none, ending := false })
        h (penFus n)) n
      { p with halted := true, nonres := none, preload := none })
  | some c =>
    let h := stopLoad h n
    let a := aPEN_CTXSTAT n
    match bankHolding (pen h n) c with
    | some b => (m, setF (switchResident h n c b o.preload o.task) a fPEN_CTXSTAT_LASTNRES 0)
    | none =>
      -- tiles route under the incoming context from D on (R132)
      let h1 := applyAll (fun h g => turnFu h c (fu h g).bank false g) h (penFus n)
      let h2 := bump (setF (setF h1 a fPEN_CTXSTAT_LASTNRES 1) a fPEN_CTXSTAT_LASTCTX c) a fPEN_CTXSTAT_NRESCNT 1
      match chooseVictim h2 n with
      | some b => startNonRes m h2 n c b o.preload o.task
      | none =>
        (m, setPen (raiseBit h2 a fPEN_CTXSTAT_NOVICT) n
          { pen h2 n with halted := false, nonres := some ⟨c, 0, dueIn h2 (n / 8) 5, true, o.preload, o.task,
                                              0, [], []⟩ })

/-- The switch order of a pen that has reached its cycle D; none while a non-resident switch is in
progress (R132). -/
def broadcastSwitch (m : Sparse Byte) (h : Hw) (n : Nat) : Sparse Byte × Hw :=
  let p := pen h n
  match p.orders with
  | [] => (m, h)
  | o :: os =>
    if o.d ≤ h.aclk ∧ p.nonres.isNone ∧ arrayRuns h (n / 8) then
      applyOrder m (setPen h n { p with orders := os }) n o
    else (m, h)

/-- The victim choice made again at D + 5 (R123); where every bank is pinned even then, again five cycles later.
(DESIGN CHOICE, log 175) -/
def retryVictim (m : Sparse Byte) (h : Hw) (n : Nat) : Sparse Byte × Hw :=
  match (pen h n).nonres with
  | some r =>
    if r.retry ∧ r.ready ≤ h.aclk ∧ arrayRuns h (n / 8) then
      match chooseVictim h n with
      | some b => startNonRes m h n r.ctx b r.preload r.task
      | none => (m, setPen h n { pen h n with nonres := some { r with ready := dueIn h (n / 8) 5 } })
    else (m, h)
  | none => (m, h)

/-- The end of a non-resident switch: the context takes its bank and step 0 issues; a switch or halt that
fell due meanwhile is applied instead, the latest only (R131, R132). -/
def completeNonRes (m : Sparse Byte) (h : Hw) (n : Nat) (bad : List Nat) : Sparse Byte × Hw :=
  match (pen h n).nonres with
  | none => (m, h)
  | some r =>
    if r.retry ∨ h.aclk < r.ready ∨ ¬ arrayRuns h (n / 8) then (m, h)
    else
      let h1 := takeBank m h n r.bank r.ctx bad
      let h2 := setPen h1 n { pen h1 n with nonres := none }
      let due := (pen h2 n).orders.filter fun o => o.d ≤ h.aclk
      match due.getLast? with
      | some o =>
        applyOrder m (setPen h2 n { pen h2 n with orders := (pen h2 n).orders.filter fun o => h.aclk < o.d }) n o
      | none =>
        let h3 := applyAll (fun h g =>
          setFu h g { fu h g with bank := r.bank, step := 0, rep := 0, first := true, lixNext := none,
                                  nextSlot := h.aclk, ending := false }) h2 (penFus n)
        (m, setPen h3 n { pen h3 n with preload := r.preload.map fun x => ⟨x, r.task, r.ctx, h.aclk⟩ })

/-! ## Context loads (R124, R159) -/

/-- A load started: the state after it and whether it failed at once. One of a write-locked context fails, resident or
not (R124, R142). (DESIGN CHOICE, log 34) -/
def startLoad (m : Sparse Byte) (h : Hw) (n c : Nat) (preloadOf : Option Nat) : (Sparse Byte × Hw) × Bool :=
  let a := aPEN_CTXLOAD n
  let p := pen h n
  if p.load.isSome ∨ p.nonres.isSome then ((m, raiseBit h a fPEN_CTXLOAD_FAIL), true)
  else
    let h := setF h a fPEN_CTXLOAD_CTX c
    if p.locks.getLsbD c then ((m, raiseBit h a fPEN_CTXLOAD_FAIL), true)
    else if (bankHolding p c).isSome then ((m, raiseBit h a fPEN_CTXLOAD_DONE), false)
    else
      match chooseVictim h n with
      | none => ((m, raiseBit h a fPEN_CTXLOAD_FAIL), true)
      | some b =>
        let e := evict m h n b
        let h1 := setPen e.2.1 n { pen e.2.1 n with load := some ⟨c, b, e.2.2.2, preloadOf, e.2.2.1, restoreWords e.2.1 n c⟩ }
        ((e.1, setF h1 a fPEN_CTXLOAD_BUSY 1), false)

/-- Every word of a load has been written back and read (R124). -/
def CtxLoad.moved (l : CtxLoad) : Bool := l.writes.all (· == 0) && l.reads.all (· == 0)

/-- A load whose words have all been moved completes: the context takes its bank and `DONE` is set. -/
def finishLoad (m : Sparse Byte) (h : Hw) (n : Nat) (bad : List Nat) : Hw :=
  match (pen h n).load with
  | none => h
  | some l =>
    if ¬ arrayRuns h (n / 8) ∨ ¬ l.moved then h
    else
    let a := aPEN_CTXLOAD n
    let h1 := takeBank m (setPen h n { pen h n with load := none, loadRes := some true }) n l.bank l.ctx bad
    let h2 := setF (raiseBit h1 a fPEN_CTXLOAD_DONE) a fPEN_CTXLOAD_BUSY 0
    setF h2 (aPEN_CTXSTAT n) fPEN_CTXSTAT_LASTCTX l.ctx

/-- Step 0 of the task that a preload waits for has issued in the pen, in an earlier cycle (R159). -/
def preloadDue (h : Hw) (n : Nat) (p : Preload) : Bool :=
  match lookup (pen h n).issued p.runs with
  | some i => p.since < i && (i - 1) / 2 ^ yardShift h (n / 8) < yardCycle h (n / 8)
  | none => false

/-- The preload that follows a dispatch (R159). -/
def preloadPen (m : Sparse Byte) (h : Hw) (n : Nat) : Sparse Byte × Hw :=
  match (pen h n).preload with
  | none => (m, h)
  | some ⟨c, t, runs, since⟩ =>
    if ¬ (arrayRuns h (n / 8) ∧ preloadDue h n ⟨c, t, runs, since⟩) then (m, h)
    else
    let y := n / 8
    let r := startLoad m (setPen h n { pen h n with preload := none }) n c (some t)
    if r.2 then
      (r.1.1, stageRecord r.1.2 y (traceRecord r.1.2 y 7 t (taskCtx r.1.2 y t) (2 ^ (n % 8)) c))
    else r.1

/-! ## Epoch switches (R135) -/

/-- The switch of one FU to the epoch on its lead port. -/
def epochSwitch (m : Sparse Byte) (h : Hw) (g : Nat) : Hw :=
  match epochTarget m h g with
  | none => h
  | some b =>
    let n := g / 16
    match bankHolding (pen h n) b with
    | none => h
    | some k =>
      let h1 := if kindOf h n b = 0 then setFu h g (setBank (fu h g) k Bank.zero) else h
      turnFu h1 b k true g

/-! ## Context registers (R143, R145) -/

/-- A diagnostic write of `PEN_CTXKIND`, field by field. -/
def writeCtxKind (h : Hw) (n v : Nat) : Hw :=
  applyAll (fun h c =>
      let k := v / 2 ^ (2 * c) % 4
      let f := fPEN_CTXKIND_KIND c
      let a := aPEN_CTXSTAT n
      if k = getF h (aPEN_CTXKIND n) f then h
      else
        let h := if k = 3 then raiseBit h a fPEN_CTXSTAT_RSVVAL else h
        if inUse h n c || (pen h n).locks.getLsbD c then raiseBit h a fPEN_CTXSTAT_WRINUSE
        else if k = 3 then h
        else
          let p := pen h n
          let pin := BitVec.ofNat 16 (2 ^ c)
          let mark := if k = 2 ∧ (bankHolding p c).isNone then p.diagPin ||| pin else p.diagPin &&& ~~~pin
          setF (setPen h n { p with diagPin := mark }) (aPEN_CTXKIND n) f k)
    h (List.range 16)

/-- `PEN_CTXRES` as its banks stand (Table 5.7). -/
def ctxResView (h : Hw) (n : Nat) : Nat :=
  (List.range 4).foldl (fun acc b =>
    match lookup (pen h n).held b with
    | none => acc
    | some c =>
      let dirty := (penFus n).foldl (fun d g => d ||| (bankOf (fu h g) b).dirty) (0 : BitVec 5)
      acc + (c + 16 + (if kindOf h n c = 2 then 32 else 0) + dirty.toNat * 64) * 2 ^ (16 * b)) 0

end Sys2Proof.Machine
end

