-- ==== Sys2Proof/Machine/Schedulers.lean ====
section
/-!
DEFINITION. The yard schedulers and the coordinator: triggers, completions, dispatch, groups, retirement,
task-entry writes and trace records (R147 to R169).
-/

namespace Sys2Proof.Machine

/-! ## Groups (R160, R161) -/

def inGroup (h : Hw) (y t : Nat) : Bool := isSet h (aSCH_TASK0 y t) fSCH_TASK0_GRPEN
def groupOf (h : Hw) (y t : Nat) : Nat := getF h (aSCH_TASK0 y t) fSCH_TASK0_GROUP

/-- The member entries of a group: in each member yard, its valid entry of the group. -/
def groupMembers (h : Hw) (gr : Nat) : List (Nat × Nat) :=
  let ys := getF h (aCRD_GRP gr) fCRD_GRP_YARDS
  (List.range 16).filterMap fun y =>
    if ys.testBit y then
      ((List.range 64).find? fun t => taskValid h y t && inGroup h y t && groupOf h y t == gr).map fun t => (y, t)
    else none

/-- The member yards of a group, lowest first. -/
def memberYards (h : Hw) (gr : Nat) : List Nat :=
  (List.range 16).filter fun y => (getF h (aCRD_GRP gr) fCRD_GRP_YARDS).testBit y

/-- Every member yard of a group has its member entry. -/
def groupWhole (h : Hw) (gr : Nat) : Bool := (groupMembers h gr).map (·.1) == memberYards h gr

/-- The entries that move as one with a task. -/
def unitOf (h : Hw) (y t : Nat) : List (Nat × Nat) :=
  if inGroup h y t then groupMembers h (groupOf h y t) else [(y, t)]

/-- The entry's own triggers and `DONEEV` count: it is no group member, or it is the lead of an active
group, the entry in the lowest-numbered member yard (R160, R161). -/
def drives (h : Hw) (y t : Nat) : Bool :=
  if inGroup h y t then
    isSet h (aCRD_GRP (groupOf h y t)) fCRD_GRP_EN && (groupMembers h (groupOf h y t)).head? == some (y, t) &&
      (memberYards h (groupOf h y t)).head? == some y
  else true

/-- Every entry of a unit given a state. -/
def setUnit (h : Hw) (us : List (Nat × Nat)) (f : Task → Task) : Hw :=
  applyAll (fun h u => setTask h u.1 u.2 (f (task h u.1 u.2))) h us

/-! ## One evaluation (R155) -/

/-- The running part of an evaluation of yard y: state, event cycle e, decision cycle v, the tasks that gave up pens
in its first two steps with those pens, pens that preemptions gave up, pens kept for group offers, and the records
that come last (R163). -/
structure Eval where
  h : Hw
  y : Nat
  e : Nat
  v : Nat
  freed : List (Nat × Nat)
  /-- pens that preemptions gave up -/
  given : Nat
  kept : Nat
  late : List (BitVec 64)

/-- A task holds its pens. -/
def holds (k : Task) : Bool := k.st == .running || k.st == .pending

/-- The task that holds a pen of a yard. -/
def holderOf (h : Hw) (y p : Nat) : Option Nat :=
  (List.range 64).find? fun t => holds (task h y t) && (taskMask h y t).testBit p

/-- The HALT record of pens that a task gave up, if any: the task, and as reason the task whose dispatch or completion
caused it (R163, Table 6.12). (DEDUCED, log 35) -/
def recordHalt (h : Hw) (y t mask why : Nat) : Hw :=
  if mask = 0 then h else record h y 4 t mask why

/-- Pens of the other yards of a unit that halt when it gives them up, with their records; `why` is the task that
caused it, none where each member completed (R161). -/
def haltOthers (h : Hw) (y e v t : Nat) (why : Option Nat) (us : List (Nat × Nat)) : Hw :=
  applyAll (fun h u =>
    if u.1 = y then h
    else haltPens (recordHalt h u.1 u.2 (taskMask h u.1 u.2) (why.getD u.2)) u.1 (taskMask h u.1 u.2) e v t) h us

/-- Step 1: retirements asked for since the last evaluation (R151). A group member that retires leaves the other
members as they are. (DESIGN CHOICE, log 176) -/
def evalRetire (s : Eval) (t : Nat) : Eval :=
  let k := task s.h s.y t
  if ¬ k.retire then s
  else
    let h1 := record (setTask s.h s.y t Task.reset) s.y 3 t (taskMask s.h s.y t) 0xFF
    { s with h := h1, freed := s.freed ++ (if holds k then [(t, taskMask s.h s.y t)] else []) }

/-- Step 2: `DONEEV` of a task that occurred completes it; a pending trigger readies it again (Table 6.4, R161). -/
def evalDone (evs : List Nat) (s : Eval) (t : Nat) : Eval :=
  let h := s.h
  let a0 := aSCH_TASK0 s.y t
  let k := task h s.y t
  let ev := getF h (aSCH_TASK1 s.y t) fSCH_TASK1_DONEEV
  if taskValid h s.y t ∧ drives h s.y t ∧ isSet h a0 fSCH_TASK0_DONEEN ∧ holds k ∧ evs.contains ev then
    let us := unitOf h s.y t
    let h1 := applyAll (fun h u => record h u.1 3 u.2 (taskMask h u.1 u.2) ev) h us
    let h2 := setUnit h1 us fun k =>
      if k.st = .pending then { k with st := .ready, why := k.next, waits := 0 } else { k with st := .idle }
    let h3 := applyAll (fun h u => raiseEvent h u.1 (0x40 + u.2)) h2 us
    { s with h := haltOthers h3 s.y s.e s.v t none us, freed := s.freed ++ [(t, taskMask h s.y t)] }
  else s

/-- An overrun of an entry: counted in its yard (R153). -/
def countOverrun (h : Hw) (y : Nat) : Hw :=
  bump (raiseBit h (aSCH_STAT y) fSCH_STAT_OVR) (aSCH_STAT y) fSCH_STAT_OVRCNT 1

/-- The OVERRUN record of an entry. -/
def overrunRecord (h : Hw) (y t ev : Nat) : BitVec 64 := traceRecord h y 6 t (taskCtx h y t) (taskMask h y t) ev

/-- An overrun of a unit: every entry of it counts and records it (R153, R161). (DEDUCED, log 164) -/
def overrun (s : Eval) (us : List (Nat × Nat)) (ev : Nat) : Eval :=
  us.foldl (fun s u =>
    if u.1 = s.y then
      { s with h := countOverrun s.h u.1, late := s.late ++ [overrunRecord s.h u.1 u.2 ev] }
    else { s with h := stageRecord (countOverrun s.h u.1) u.1 (overrunRecord s.h u.1 u.2 ev) }) s

/-- A task receives a trigger (R152, Table 6.4). -/
def receive (s : Eval) (t ev : Nat) : Eval :=
  let us := unitOf s.h s.y t
  match (task s.h s.y t).st with
  | .idle => { s with h := setUnit s.h us fun k => { k with st := .ready, why := ev, waits := 0 } }
  | .running => { s with h := setUnit s.h us fun k => { k with st := .pending, next := ev } }
  | .ready | .pending => overrun s us ev

/-- Step 3: the triggers of a task among the events taken, which stand in the order of their cycles; the latest is the
one that readies it (R152, Table 6.7). Several events of one evaluation give one trigger. (DEDUCED, log 164) -/
def evalTrigger (evs : List Nat) (s : Eval) (t : Nat) : Eval :=
  let h := s.h
  let a0 := aSCH_TASK0 s.y t
  if ¬ (taskValid h s.y t ∧ drives h s.y t) then s
  else
    let en := getF h a0 fSCH_TASK0_TRGEN
    let trg (i : Nat) : Nat := getF h (aSCH_TASK1 s.y t) (fSCH_TASK1_TRG i)
    let hits := (List.range 4).filter fun i => en.testBit i && evs.contains (trg i)
    match evs.reverse.find? fun ev => hits.any fun i => trg i == ev with
    | none => s
    | some ev =>
      if isSet h a0 fSCH_TASK0_ALL then
        let k := task h s.y t
        let seen := hits.foldl (fun b i => b ||| BitVec.ofNat 4 (2 ^ i)) k.seen
        if seen.toNat &&& en = en then
          receive { s with h := setTask h s.y t { k with seen := 0 } } t ev
        else { s with h := setTask h s.y t { k with seen := seen } }
      else receive s t ev

/-- Some context that a task could run at once in a pen of its mask, its own or one of its follow set, is write-locked
(R142, R154). -/
def lockedOut (h : Hw) (y t : Nat) : Bool :=
  (pensOf (taskMask h y t)).any fun p =>
    let n := 8 * y + p
    (withFollowers h n [taskCtx h y t]).any fun c => (pen h n).locks.getLsbD c

/-- Which of the WAIT records of a readiness a reason is: 0x01 and 0x02 share one (R154, R156, R161). -/
def waitBit (reason : Nat) : Nat := if reason = 3 then 1 else if reason = 4 then 2 else 0

/-- WAIT written once for a readiness (R154, R156, R161). -/
def evalWait (s : Eval) (t reason : Nat) : Eval :=
  let k := task s.h s.y t
  if k.waits.getLsbD (waitBit reason) then s
  else
    { s with h := setTask s.h s.y t { k with waits := k.waits ||| BitVec.ofNat 3 (2 ^ waitBit reason) },
             late := s.late ++ [traceRecord s.h s.y 5 t (taskCtx s.h s.y t) (taskMask s.h s.y t) reason] }

/-- One task preempted: READY again on the readiness it was dispatched on, for which no WAIT is written; a pending
trigger counts as an overrun; the other entries of its unit are preempted with it and their pens halt (R157, R161,
Table 6.12). (DEDUCED, log 164) -/
def preempt (s : Eval) (t u : Nat) : Eval :=
  let h := s.h
  let us := unitOf h s.y u
  let k := task h s.y u
  let h1 := applyAll (fun h w => record h w.1 2 w.2 (taskMask h w.1 w.2) t) h us
  let h2 := setUnit h1 us fun k => { k with st := .ready, waits := 1 }
  let s1 := { s with h := haltOthers h2 s.y s.e s.v t (some t) us, given := s.given ||| taskMask h s.y u }
  if k.st = .pending then overrun s1 us k.next else s1

/-- A task dispatched on its pens: RUNNING, switch orders to every pen, DISPATCH record (R156, R158). -/
def dispatchTask (h : Hw) (y t e v : Nat) : Hw :=
  let mask := taskMask h y t
  let c := taskCtx h y t
  let nr := (pensOf mask).any fun p => (bankHolding (pen h (8 * y + p)) c).isNone
  let k := task h y t
  let h1 := record h y (if nr then 1 else 0) t mask k.why
  let h2 := setTask h1 y t { k with st := .running }
  let a0 := aSCH_TASK0 y t
  let pre := if isSet h a0 fSCH_TASK0_PRELDEN then some (getF h a0 fSCH_TASK0_PRELD) else none
  let h3 := applyAll (fun h p =>
      let h := setF h (aSCH_PENSTAT y) (fSCH_PENSTAT_TASK p) t
      orderPen (setF h (aSCH_PENSTAT y) (fSCH_PENSTAT_HELD p) 1) (8 * y + p)
        ⟨some c, switchCycle h y e v, pre, t⟩) h2 (pensOf mask)
  bump h3 (aSCH_STAT y) fSCH_STAT_DISPCNT 1

/-- The round-robin start of a priority moved past a task (R156). -/
def moveRr (h : Hw) (y p t : Nat) : Hw :=
  setSched h y { sched h y with rr := setD 0 (sched h y).rr p ((t + 1) % 64) }

/-- Pens of a mask outside another. -/
def outside (given mask : Nat) : Nat :=
  (List.range 8).foldl (fun m q => if given.testBit q && !(mask.testBit q) then m + 2 ^ q else m) 0

/-- A task dispatched after preempting others: their PREEMPT records, its DISPATCH record, and a HALT record for the
pens of each that it does not take (R157, R163). -/
def dispatchOver (s : Eval) (t : Nat) (us : List Nat) : Eval :=
  let y := s.y
  let mask := taskMask s.h y t
  let s1 := us.foldl (fun s u => preempt s t u) s
  let h2 := dispatchTask s1.h y t s.e s.v
  let h3 := applyAll (fun h u => recordHalt h y u (outside (taskMask h y u) mask) t) h2 us
  { s1 with h := moveRr h3 y (taskPrio h3 y t) t }

/-- Dispatch considered for one ready task of priority p (R156, R161). A task that only pens kept for a group's offer
block waits with reason 0x01. (DESIGN CHOICE, log 177) -/
def evalDispatch (s : Eval) (p t : Nat) : Eval :=
  let h := s.h
  let y := s.y
  if ¬ ((task h y t).st = .ready ∧ taskValid h y t ∧ taskPrio h y t = p) then s
  else if lockedOut h y t then evalWait s t 3
  else
    let mask := taskMask h y t
    let holders := (pensOf mask).filterMap fun q => holderOf h y q
    let keptHit := mask &&& s.kept ≠ 0
    let preemptible := holders.all fun u => taskPrio h y u < p && isSet h (aSCH_TASK0 y u) fSCH_TASK0_PREEMPT
    if keptHit ∨ ¬ preemptible then
      let hard := keptHit || holders.any fun u => p ≤ taskPrio h y u
      evalWait s t (if hard then 1 else 2)
    else if inGroup h y t then
      let extra := holders.foldl (fun m u => m ||| taskMask h y u) mask
      { s with h := setSched h y { sched h y with offers := (sched h y).offers ++ [t], offerE := s.e },
               kept := s.kept ||| extra }
    else dispatchOver s t holders.eraseDups

/-- Task identifiers in order from a start, wrapping at 64. -/
def fromStart (start : Nat) : List Nat := (List.range 64).map fun i => (start + i) % 64

/-- Step 4: every priority from 7 down (R156). -/
def evalDispatchAll (s : Eval) : Eval :=
  (List.range 8).foldl (fun s i =>
    let p := 7 - i
    (fromStart (getD 0 (sched s.h s.y).rr p)).foldl (fun s t => evalDispatch s p t) s) s

/-- An event put among others by the cycle it was raised in. -/
def byCycle (x : Nat × Nat) : List (Nat × Nat) → List (Nat × Nat)
  | [] => [x]
  | z :: zs => if x.2 ≤ z.2 then x :: z :: zs else z :: byCycle x zs

/-- The events that an evaluation takes: those of earlier cycles (R127, R147, Table 5.4). (DEDUCED, log 164) -/
def takenNow (h : Hw) (y : Nat) : List (Nat × Nat) :=
  ((sched h y).latched.filter fun x => x.2 < h.aclk).foldr byCycle []

/-- Their numbers in the order of their latest cycles; events that reach one line count as one (R147). -/
def eventsTaken (xs : List (Nat × Nat)) : List Nat := ((xs.map (·.1)).reverse.eraseDups).reverse

/-- The cycle e of an evaluation: that of the latest event taken that a valid task waits for, else the cycle before it
(R127, R158). -/
def eventCycle (h : Hw) (y : Nat) : Nat :=
  let used (ev : Nat) : Bool := (List.range 64).any fun t =>
    taskValid h y t && ((List.range 4).any (fun i =>
      (getF h (aSCH_TASK0 y t) fSCH_TASK0_TRGEN).testBit i && getF h (aSCH_TASK1 y t) (fSCH_TASK1_TRG i) == ev) ||
      (isSet h (aSCH_TASK0 y t) fSCH_TASK0_DONEEN && getF h (aSCH_TASK1 y t) fSCH_TASK1_DONEEV == ev))
  match ((takenNow h y).filter fun x => used x.1).map (·.2) with
  | [] => h.aclk - 1
  | c :: cs => cs.foldl max c

/-- An evaluation begins: the events of earlier cycles are taken (R155, R158). -/
def beginEvaluation (h : Hw) (y : Nat) : Eval :=
  ⟨setSched h y { sched h y with latched := (sched h y).latched.filter fun x => h.aclk ≤ x.2, offers := [] },
    y, eventCycle h y, h.aclk, [], 0, 0, []⟩

/-- Pens of a mask that no task holds. -/
def unheld (h : Hw) (y mask : Nat) : Nat :=
  (List.range 8).foldl (fun m q => if mask.testBit q && (holderOf h y q).isNone then m + 2 ^ q else m) 0

/-- An evaluation ends: pens given up and not taken halt, with a HALT record of the task that freed them, and the WAIT
and OVERRUN records come last (R158, R163). -/
def endEvaluation (x : Eval) : Hw :=
  let h1 := applyAll (fun h f => recordHalt h x.y f.1 (unheld x.h x.y f.2) f.1) x.h x.freed
  let gone := x.freed.foldl (fun m f => m ||| f.2) x.given
  let h2 := haltPens h1 x.y (unheld x.h x.y gone) x.e x.v ((x.freed.map (·.1)).headD 0)
  x.late.foldl (fun h r => stageRecord h x.y r) h2

/-- One evaluation of the scheduler of yard y at an edge (R155): retirements, completions, triggers, dispatch. -/
def evaluate (h : Hw) (y : Nat) : Hw :=
  if ¬ (arrayRuns h y ∧ onEdge h y ∧ isSet h (aSCH_CTL y) fSCH_CTL_EN) then h
  else
    let evs := eventsTaken (takenNow h y)
    let s1 := (List.range 64).foldl evalRetire (beginEvaluation h y)
    let s2 := (List.range 64).foldl (evalDone evs) s1
    endEvaluation (evalDispatchAll ((List.range 64).foldl (evalTrigger evs) s2))

/-- The coordinator's decision for a READY group: dispatched in every member yard at once where every member could be,
or a WAIT in each member. All members take the latest of their event cycles (R161, R162). (DEDUCED, log 164) -/
def dispatchGroup (h : Hw) (gr : Nat) : Hw :=
  let us := groupMembers h gr
  let offered (u : Nat × Nat) : Bool := (sched h u.1).offers.contains u.2
  let ready := us.all fun u => (task h u.1 u.2).st == .ready
  if us.isEmpty ∨ ¬ ready ∨ ¬ isSet h (aCRD_GRP gr) fCRD_GRP_EN ∨ frozen h then h
  else
    let clear (h : Hw) : Hw := applyAll (fun h u =>
      setSched h u.1 { sched h u.1 with offers := (sched h u.1).offers.filter fun t => t ≠ u.2 }) h us
    if us.all offered ∧ groupWhole h gr then
      let e := us.foldl (fun m u => max m (sched h u.1).offerE) 0
      clear (applyAll (fun h u =>
        let y := u.1
        let t := u.2
        let holders := ((pensOf (taskMask h y t)).filterMap fun q => holderOf h y q).eraseDups
        let s1 := dispatchOver ⟨h, y, e, h.aclk, [], 0, 0, []⟩ t holders
        let left := outside (holders.foldl (fun m w => m ||| taskMask h y w) 0) (taskMask h y t)
        s1.late.foldl (fun h r => stageRecord h y r) (haltPens s1.h y left e h.aclk t)) h us)
    else
      clear (applyAll (fun h u =>
        let s := evalWait ⟨h, u.1, 0, 0, [], 0, 0, []⟩ u.2 4
        s.late.foldl (fun h r => stageRecord h u.1 r) s.h) h us)

/-! ## Task entries (R149 to R151) -/

/-- Fields of a written value stored where they are not reserved; a reserved value keeps the field and is
reported by the answer's flag (R10). -/
def mergeFields (fs : List Fld) (old v : Nat) : Nat × Bool :=
  fs.foldl (fun acc f =>
    let x := fieldOf f v
    match f.acc with
    | .rw => if limOk f.lim x then (putField f acc.1 x, acc.2) else (acc.1, true)
    | .w1c => (putField f acc.1 (fieldOf f acc.1 - (fieldOf f acc.1 &&& x)), acc.2)
    | _ => acc) (old, false)

/-- The fields of a register address; none for a hole. -/
def fieldsOf (a : Nat) : List Fld := (fieldsAt a).getD []

/-- Retirement by a write that clears only `VALID` (R151): taken at the next evaluation, or at once while
no evaluation runs. -/
def retireTask (h : Hw) (y t : Nat) : Hw :=
  if ¬ taskValid h y t then h
  else
    let h1 := setF h (aSCH_TASK0 y t) fSCH_TASK0_VALID 0
    if (task h y t).st = .idle then h1
    else if isSet h (aSCH_CTL y) fSCH_CTL_EN then setTask h1 y t { task h1 y t with retire := true }
    else retireNow h1 y t

/-- A write to a word of a task entry (R150, R151). -/
def writeTaskEntry (h : Hw) (y t : Nat) (word1 : Bool) (v : Nat) : Hw :=
  let a := if word1 then aSCH_TASK1 y t else aSCH_TASK0 y t
  let old := (reg h a).toNat
  let r := mergeFields (fieldsOf a) old v
  let idle := (task h y t).st == .idle
  let enabled := isSet h (aSCH_CTL y) fSCH_CTL_EN
  let rsv (h : Hw) : Hw := if r.2 then raiseBit h (aSCH_STAT y) fSCH_STAT_RSVVAL else h
  let onlyClears := !word1 && taskValid h y t && r.1 == putField fSCH_TASK0_VALID old 0
  if onlyClears then rsv (retireTask h y t)
  else if idle then rsv (setReg h a (BitVec.ofNat 64 r.1))
  else if enabled then raiseBit h (aSCH_STAT y) fSCH_STAT_WRBUSY
  else
    let clears := !word1 && fieldOf fSCH_TASK0_VALID r.1 == 0
    let h1 := if clears then retireNow h y t else h
    rsv (setReg h1 a (BitVec.ofNat 64 r.1))

/-- The reader's advance of the trace ring (R167). -/
def writeTrrd (h : Hw) (y v : Nat) : Hw :=
  let wr := getF h (aSCH_TRWR y) fSCH_TRWR_WR
  if 2 ^ getF h (aSCH_TRSIZE y) fSCH_TRSIZE_LOG2 < (wr + 2 ^ 32 - v % 2 ^ 32) % 2 ^ 32 then
    raiseBit h (aSCH_STAT y) fSCH_STAT_TRERR
  else setF h (aSCH_TRRD y) fSCH_TRRD_RD v

/-- MP doorbells (R168): event 0xF0 + i for every bit written as 1. -/
def ringDoorbell (h : Hw) (y bits : Nat) : Hw :=
  applyAll (fun h i => if bits.testBit i then raiseEvent h y (0xF0 + i) else h) h (List.range 8)

/-- The SYNC record of every enabled ring (R164). -/
def syncRings (h : Hw) : Hw :=
  if crdTick h % 2 ^ 29 = 0 ∧ ¬ frozen h then
    applyAll (fun h y => stageRecord h y (traceRecord h y 0xE 0 0 0 (crdTick h / 2 ^ 30 % 256))) h (List.range 16)
  else h

/-- `SCH_TSTATE`r as the tasks stand (Table 6.8). -/
def taskStateCode : TaskState → Nat
  | .idle => 0
  | .ready => 1
  | .running => 2
  | .pending => 3

def tstateView (h : Hw) (y r : Nat) : Nat :=
  (List.range 32).foldl (fun acc i => acc + taskStateCode (task h y (32 * r + i)).st * 2 ^ (2 * i)) 0

end Sys2Proof.Machine
end

