-- ==== Sys2Proof/Machine/Memories.lean ====
section
/-!
DEFINITION. Pen memories, lofts and troughs beside the FU steps: buffer transfers, streamers, trough
registers, starvation, and the muck-out engines with repair (R170 to R206).
-/

namespace Sys2Proof.Machine

/-- The value a read returns: bytes and completion status. (DESIGN CHOICE, log 108) -/
def answerRead (h : Hw) (bytes : List Byte) : Hw := { h with rdata := bytes, rstatus := 0 }

/-! ## Trough buffers (R172, R175) -/

/-- The oldest word of the tail buffer goes to its bank; a bad row discards it (R200). -/
def drainTail (m : Sparse Byte) (h : Hw) (key : Nat) : Sparse Byte × Hw :=
  let t := trough h key
  match t.tail with
  | [] => (m, h)
  | (pos, w) :: rest =>
    let slot := troughSlot h key pos
    let n := key / 8
    (if rowBad h (penBank n slot) then m else writeWord m (penWord n slot) w,
      setTrough h key { t with tail := rest })

/-- The position that the head buffer, which holds four words, asks for next: the next readable word, where it lies in
its bank. -/
def refillPos (h : Hw) (key : Nat) : Option Nat :=
  let n := depth h key
  let t := trough h key
  if 4 ≤ t.head.length then none
  else
    let cands := (List.range (min 8 (readable n t))).map fun i => ptrAdd n t.rp i
    match cands.find? fun p => (lookup t.head p).isNone with
    | none => none
    | some p => if (lookup t.tail p).isSome then none else some p

/-- That word enters the head buffer. -/
def refillHead (m : Sparse Byte) (h : Hw) (key : Nat) : Hw :=
  match refillPos h key with
  | none => h
  | some p =>
    let slot := troughSlot h key p
    let w := if rowBad h (penBank (key / 8) slot) then TW.poisoned else readWord m (penWord (key / 8) slot)
    setTrough h key { trough h key with head := (trough h key).head ++ [(p, w)] }

/-- The bank port that the tail buffer, or the head buffer, of a trough asks for (R175). -/
def bufferPort (h : Hw) (key : Nat) (drain : Bool) : Option Nat :=
  if drain then ((trough h key).tail.head?).map fun e => portKey (penBank (key / 8) (troughSlot h key e.1)).1 true
  else (refillPos h key).map fun p => portKey (penBank (key / 8) (troughSlot h key p)).1 false

/-- One transfer between a buffer and a bank. -/
def bufferTransfer (m : Sparse Byte) (h : Hw) (key : Nat) (drain : Bool) : Sparse Byte × Hw :=
  if drain then drainTail m h key else (m, refillHead m h key)

/-- The class of Table 7.3 of a trough's buffer transfers, by its producer or consumer side: 2 for the array, 5 for a
streamer, 6 for the network and the forwarder, whose words go to the network. (DEDUCED, log 179) -/
def bufferClass (h : Hw) (key : Nat) (drain : Bool) : Nat :=
  if drain then
    match getF h (aCfg key) fTRG_CFG_PSIDE with
    | 0 => 2
    | 1 => 6
    | _ => 5
  else
    match getF h (aCfg key) fTRG_CFG_CSIDE with
    | 0 => 2
    | 3 | 4 => 5
    | _ => 6

/-- A transfer whose bank port has been granted in this cycle and not yet used (R173, R175). -/
def grantedTransfer (m : Sparse Byte) (h : Hw) (key : Nat) (drain : Bool) : Sparse Byte × Hw :=
  match bufferPort h key drain with
  | none => (m, h)
  | some p =>
    if lookup h.arr.ports p = some ⟨bufferClass h key drain, key % 8, false⟩ then
      let r := bufferTransfer m h key drain
      (r.1, { r.2 with arr.ports := insertAt r.2.arr.ports p ⟨bufferClass h key drain, key % 8, true⟩ })
    else (m, h)

/-- A read of `TRG_HWM`: the value, and the register restarts from the occupied count of the next cycle,
which that cycle takes in (R186). -/
def readHwm (h : Hw) (key : Nat) : Hw :=
  let t := troughNow h key
  setTrough (answerRead h (leBytes 8 t.hwm)) key { t with hwm := 0 }

/-- A write of `TRG_CFG` (R191, R203): while the trough operates, `EN` and `STRICT` alone are written, the rest is
discarded and `CFGBUSY` set. (DEDUCED, log 42) -/
def writeTrgCfg (h : Hw) (key v : Nat) : Hw :=
  let a := aCfg key
  let old := (reg h a).toNat
  let st := aTst key
  if isSet h a fTRG_CFG_EN then
    let keep := putField fTRG_CFG_STRICT (putField fTRG_CFG_EN old v) (fieldOf fTRG_CFG_STRICT v)
    raiseBit (setReg h a (BitVec.ofNat 64 keep)) st fTRG_STAT_CFGBUSY
  else
    let r := mergeFields (fieldsOf a) old v
    let both := fieldOf fTRG_CFG_PSIDE r.1 == 0 && fieldOf fTRG_CFG_CSIDE r.1 == 0
    let new := if both then
        putField fTRG_CFG_CSIDE (putField fTRG_CFG_PSIDE r.1 (fieldOf fTRG_CFG_PSIDE old)) (fieldOf fTRG_CFG_CSIDE old)
      else r.1
    let h1 := setReg h a (BitVec.ofNat 64 new)
    let h2 := if r.2 || both then raiseBit h1 st fTRG_STAT_RSVVAL else h1
    if fieldOf fTRG_CFG_EN new = 1 then restartTrough h2 key else h2

/-! ## Streamers (R178, R179, R205) -/

/-- Side code of streamer s as a producer and as a consumer (Table 7.9). -/
def sidesName (h : Hw) (n s : Nat) : Bool :=
  let ctl := aPS_CTL n s
  let key := 8 * n + getF h ctl fPS_CTL_TRG
  if isSet h ctl fPS_CTL_DIR then getF h (aCfg key) fTRG_CFG_CSIDE == 3 + s
  else getF h (aCfg key) fTRG_CFG_PSIDE == 2 + s

/-- `EN` of a streamer set from 0 to 1: i restarts; a trough that does not name it sets `NOSIDE`. -/
def enableStreamer (h : Hw) (n s : Nat) : Hw :=
  let a := aPS_CTL n s
  if isSet h a fPS_CTL_EN then h
  else
    let h1 := setF (raiseBit h a fPS_CTL_EN) (aPS_CNT n s) fPS_CNT_POS 0
    if sidesName h1 n s then h1 else raiseBit h1 a fPS_CTL_NOSIDE

/-- A write of `PS_CTL` (R205): `DIR` and `TRG` stand while the streamer runs. -/
def writePsCtl (h : Hw) (n s v : Nat) : Hw :=
  let a := aPS_CTL n s
  let old := (reg h a).toNat
  let w1c (x : Nat) : Nat := [fPS_CTL_DONE, fPS_CTL_NOSIDE, fPS_CTL_CFGBUSY].foldl
    (fun x f => if fieldOf f v = 1 then putField f x 0 else x) x
  if isSet h a fPS_CTL_EN then
    if fieldOf fPS_CTL_DIR v ≠ fieldOf fPS_CTL_DIR old ∨ fieldOf fPS_CTL_TRG v ≠ fieldOf fPS_CTL_TRG old then
      raiseBit h a fPS_CTL_CFGBUSY
    else
      setReg h a (BitVec.ofNat 64 (w1c (putField fPS_CTL_REPEAT
        (putField fPS_CTL_EN old (fieldOf fPS_CTL_EN v)) (fieldOf fPS_CTL_REPEAT v))))
  else
    let r := mergeFields (fieldsOf a) old v
    let h1 := setReg h a (BitVec.ofNat 64 (putField fPS_CTL_EN r.1 0))
    if fieldOf fPS_CTL_EN v = 1 then enableStreamer h1 n s else h1

/-- A write of `PS_ADDR` or `PS_CNT`, discarded while the streamer runs (R205). -/
def writePsParam (h : Hw) (n s a v : Nat) : Hw :=
  if isSet h (aPS_CTL n s) fPS_CTL_EN then raiseBit h (aPS_CTL n s) fPS_CTL_CFGBUSY
  else setReg h a (BitVec.ofNat 64 (mergeFields (fieldsOf a) (reg h a).toNat v).1)

/-- i moved on: at `COUNT` it wraps with `REPEAT`, else `DONE` and `EN` cleared (R178). -/
def stepStreamer (h : Hw) (n s : Nat) : Hw :=
  let c := aPS_CNT n s
  let count := if getF h c fPS_CNT_COUNT = 0 then 131072 else getF h c fPS_CNT_COUNT
  let i := getF h c fPS_CNT_POS + 1
  if i < count then setF h c fPS_CNT_POS i
  else if isSet h (aPS_CTL n s) fPS_CTL_REPEAT then setF h c fPS_CNT_POS 0
  else setF (raiseBit (setF h c fPS_CNT_POS i) (aPS_CTL n s) fPS_CTL_DONE) (aPS_CTL n s) fPS_CTL_EN 0

/-- A loft word read by a streamer or the network (R22, R200, R204). -/
def readLoftWord (m : Sparse Byte) (h : Hw) (y w : Nat) (e : Ecc) : TW × Hw :=
  if rowBad h (loftBank y w) then (TW.poisoned, h)
  else
    match e with
    | .ok => (readWord m (loftWord y w), h)
    | .corrected => (readWord m (loftWord y w), bump h (aLOFT_ECC y) (fLOFT_ECC_CE (w % 16)) 1)
    | .uncorrectable =>
      (TW.poisoned, uncorrectable (raiseBit h (aLOFT_STAT y) fLOFT_STAT_UCE) (loftWord y w))

/-- The network, a streamer or the forwarder has acted on a side of a trough in this cycle: each side takes one step a
cycle (R194). -/
abbrev otherSide : Nat := 2048

/-- A producer other than an FU may step in this cycle: no step has been taken on its side, its step would not be
refused, and the tail buffer, which holds four words, has room (R175, R188, R194). (DEDUCED, log 179) -/
def mayPush (h : Hw) (key : Nat) (isOpenStep : Bool) : Bool :=
  let t := troughNow h key
  t.prodFu.isNone && t.tail.length < 4 && !(producerRefused h key isOpenStep)

/-- A word written into a trough by a producer other than an FU, and whether it is done with: stored, discarded, or
waiting. -/
def pushFrom (h : Hw) (key : Nat) (w : TW) : Hw × Bool :=
  if ¬ isSet h (aCfg key) fTRG_CFG_EN then (raiseBit h (aTst key) fTRG_STAT_DISOP, true)
  else if ¬ mayPush h key false then (h, false)
  else
    let r := produce (depth h key) false (troughNow h key)
    let h1 := notePackets h key r.2.1 r.2.2.1 r.2.2.2
    match r.1 with
    | .refused => (h, false)
    | .discarded t => (putTrough h1 key { t with prodFu := some otherSide }, true)
    | .at t pos => (putTrough h1 key (placeWord { t with prodFu := some otherSide } pos w), true)

/-- The word at the read pointer stands in a buffer of the trough. -/
def atHand (t : Trough) : Bool := (lookup t.tail t.rp).isSome || (lookup t.head t.rp).isSome

/-- A consumer other than an FU may pop in this cycle: no step has been taken on its side and a readable word stands in
the head buffer, or in the tail buffer still (R175, R194). -/
def mayPop (h : Hw) (key : Nat) : Bool :=
  let t := troughNow h key
  t.consFu.isNone && readableNow (depth h key) t != 0 && atHand t

/-- The word at the read pointer taken by a consumer other than an FU, with its ECC outcome. -/
def popFrom (m : Sparse Byte) (h : Hw) (key : Nat) (e : Ecc) : TW × Hw :=
  let t := troughNow h key
  let r := popWord m h key t e
  (r.1, putTrough r.2 key { popOne (depth h key) t with consFu := some otherSide })

/-- The trough that a streamer moves words of. -/
def streamTrough (h : Hw) (n s : Nat) : Nat := 8 * n + getF h (aPS_CTL n s) fPS_CTL_TRG

/-- The loft word that a streamer visits next (R178). -/
def streamWord (h : Hw) (n s : Nat) : Nat :=
  (getF h (aPS_ADDR n s) fPS_ADDR_BASE +
    getF h (aPS_CNT n s) fPS_CNT_POS * getF h (aPS_ADDR n s) fPS_ADDR_STRIDE) % 131072

/-- Number of a streamer among those of its yard. -/
def streamNum (n s : Nat) : Nat := 2 * (n % 8) + s

/-- The loft port that a streamer needs for its next word. -/
def streamPort (h : Hw) (n s : Nat) : Nat :=
  portKey (loftBank (n / 8) (streamWord h n s)).1 (isSet h (aPS_CTL n s) fPS_CTL_DIR)

/-- A streamer has a word to move, and has moved none in this cycle (R178, R179). -/
def streamReady (h : Hw) (n s : Nat) : Bool :=
  let key := streamTrough h n s
  isSet h (aPS_CTL n s) fPS_CTL_EN && arrayRuns h (n / 8) && sidesName h n s &&
    !(inCycle h (n / 8) (getD 0 (pen h n).psAt s)) &&
    (if isSet h (aPS_CTL n s) fPS_CTL_DIR then isSet h (aCfg key) fTRG_CFG_EN && mayPop h key
     else !(isSet h (aCfg key) fTRG_CFG_EN) || mayPush h key false)

/-- A streamer has moved its word of the cycle: the port's rotating priority starts after it (R177, R178). -/
def streamed (h : Hw) (n s port : Nat) : Hw :=
  let h1 := setPen h n { pen h n with psAt := insertAt (pen h n).psAt s (edgeOf h (n / 8) + 1) }
  stepStreamer { h1 with arr.loftLast := insertAt h1.arr.loftLast port (streamNum n s) } n s

/-- One word moved by a streamer in a cycle in which it holds its loft port and both sides allow (R177 to R179). -/
def streamerTransfer (m : Sparse Byte) (h : Hw) (n s : Nat) (e : Ecc) : Sparse Byte × Hw :=
  let a := aPS_CTL n s
  let y := n / 8
  if ¬ (isSet h a fPS_CTL_EN ∧ arrayRuns h y) then (m, h)
  else if ¬ sidesName h n s then (m, raiseBit h a fPS_CTL_NOSIDE)
  else
    let port := streamPort h n s
    let key := streamTrough h n s
    let word := streamWord h n s
    if ¬ streamReady h n s ∨ ¬ holdsPort h (loftBank y word).1 (isSet h a fPS_CTL_DIR) 1 (streamNum n s) then (m, h)
    else if isSet h a fPS_CTL_DIR then
      let r := popFrom m h key e
      let m' := if rowBad h (loftBank y word) then m else writeWord m (loftWord y word) r.1
      (m', streamed (releaseWords r.2 key (troughNow r.2 key) 1) n s port)
    else
      let r := readLoftWord m h y word e
      if ¬ r.1.v then (m, streamed r.2 n s port)
      else
        let p := pushFrom r.2 key r.1
        (m, if p.2 then streamed p.1 n s port else p.1)

/-! ## Starvation (R180) -/

/-- A network request at the head of a pen's trough queue waits for a bank port: its trough is enabled and not refused,
and the tail buffer has no room, or the head buffer not yet its word. -/
def troughWaits (h : Hw) (n : Nat) : Bool :=
  match (pen h n).dmaTrough with
  | [] => false
  | r :: _ =>
    let key := 8 * n + r.f.addr.toNat % 8
    let t := troughNow h key
    isSet h (aCfg key) fTRG_CFG_EN &&
      (if r.kind = 3 then 4 ≤ t.tail.length && !(producerRefused h key false)
       else r.kind == 4 && readableNow (depth h key) t != 0 && !(atHand t))

/-- The DMA port of a pen memory (0 to 127) or loft (128 to 143) has a request that waits for a bank port (R180). -/
def portWaits (h : Hw) (mem : Nat) : Bool :=
  if mem < 128 then !(pen h mem).dmaOther.isEmpty || troughWaits h mem else !(getD [] h.loftDma (mem - 128)).isEmpty

/-- The starvation monitor of a pen memory (0 to 127) or loft (128 to 143) reaches 2^20: one more cycle without a grant
after 2^20 - 1 of them. (DEDUCED, log 43) -/
def starve (h : Hw) (mem : Nat) : Hw :=
  if ¬ arrayRuns h (if mem < 128 then mem / 8 else mem - 128) ∨ ¬ portWaits h mem ∨ h.granted.contains mem then h
  else if mem < 128 then
    if getF h (aPM_STAT mem) fPM_STAT_RUN ≠ 2 ^ 20 - 1 then h
    else
      let a := aPM_STAT mem
      raiseAlarm (bump (raiseBit (setF h a fPM_STAT_RUN (2 ^ 20)) a fPM_STAT_STARVED) a fPM_STAT_STARVCNT 1)
        0x045 0xFF (penWord mem 0) 0
  else
    let y := mem - 128
    let a := aLOFT_STAT y
    if getF h a fLOFT_STAT_RUN ≠ 2 ^ 20 - 1 then h
    else
      raiseAlarm (bump (raiseBit (setF h a fLOFT_STAT_RUN (2 ^ 20)) a fLOFT_STAT_STARVED) a fLOFT_STAT_STARVCNT 1)
        0x045 0xFF (loftWord y 0) 0

/-! ## Muck-out (R196 to R202) -/

def muck (h : Hw) (y : Nat) : Muck := getD Muck.reset h.arr.mucks y
def setMuck (h : Hw) (y : Nat) (x : Muck) : Hw := { h with arr.mucks := setD Muck.reset h.arr.mucks y x }

/-- `MO_STAT.ACTIVE`: at least one engine holds a segment (Table 7.16). -/
def showActive (h : Hw) : Hw :=
  setF h aMO_STAT fMO_STAT_ACTIVE ((List.range 16).any fun y => (muck h y).holding).toNat

/-- The engine writes the segment that it holds back before its yard goes to DEEP-SLEEP (R404); it takes the
segment again later. -/
def muckWriteBack (h : Hw) (y : Nat) : Hw := showActive (setMuck h y { muck h y with holding := false })

/-- The branch enables in force: a write changes them at the next edge with a ≡ 0 mod 4 (R392). -/
def enablesNow (h : Hw) (y : Nat) : BitVec 64 :=
  match (getD YardPw.reset h.pw y).enWas with
  | some (a, v) => if h.aclk / 4 = a / 4 then v else reg h (aYP_CLKEN y)
  | none => reg h (aYP_CLKEN y)

/-- A branch enable in force. -/
def enabledNow (h : Hw) (y : Nat) (f : Fld) : Bool := fieldOf f (enablesNow h y).toNat == 1

/-- A write of the branch enables begins: those in force stay so until the edge. -/
def noteEnables (h : Hw) (y : Nat) : Hw :=
  { h with pw := setD YardPw.reset h.pw y { getD YardPw.reset h.pw y with enWas := some (h.aclk, enablesNow h y) } }

/-- The engine's branch has its clock: the MUCK enable of the mode of the yard, none in DEEP-SLEEP or on the
way there (R393, Table 16.3). -/
def muckClocked (h : Hw) (y : Nat) : Bool :=
  !(getD YardPw.reset h.pw y).settling &&
    (match getF h (aYP_STAT y) fYP_STAT_MODE with
     | 0 => enabledNow h y fYP_CLKEN_RUNMUCK
     | 1 => enabledNow h y fYP_CLKEN_SLPMUCK
     | _ => false)

/-- Segments of one yard's pass (R196). (DEDUCED, log 44) -/
abbrev passSegs : Nat := 32848

/-- Memory (0 to 7 pen memories, 8 the loft), bank, first row and spare flag of a segment number. -/
def segPlace (seg : Nat) : Nat × Nat × Nat × Bool :=
  if seg < 16448 then
    let r := seg % 2056
    let i := r % 257
    (seg / 2056, r / 257, if i = 256 then 0 else 8 * i, i == 256)
  else
    let r := seg - 16448
    let i := r % 1025
    (8, r / 1025, if i = 1024 then 0 else 8 * i, i == 1024)

/-- Bank index of R206 for a memory and bank of a yard. -/
def bankIndex (y mem b : Nat) : Nat := if mem < 8 then 8 * (8 * y + mem) + b else 1024 + 16 * y + b

/-- Address of the slot of a row of a bank. -/
def rowAddr (y mem b row : Nat) : Nat :=
  if mem < 8 then penWord (8 * y + mem) (8 * row + b) else loftWord y (16 * row + b)

/-- A `MEM_TEST` still tests the yard (R202). -/
def memTesting (h : Hw) (y : Nat) : Bool :=
  match h.memTest with
  | some t => getD 0 t.left y != 0
  | none => false

/-- A segment of a `MEM_TEST` is done. -/
def memTested (h : Hw) (y : Nat) : Hw :=
  match h.memTest with
  | some t => { h with memTest := some { t with left := setD 0 t.left y (getD 0 t.left y - 1) } }
  | none => h

/-- The lowest spare row of a bank neither in use nor failed. -/
def freeSpare (h : Hw) (i : Nat) : Option Nat :=
  (List.range 4).find? fun j =>
    !(isSet h (aRPR_BANK i) (fRPR_BANK_USED j)) && !(isSet h (aRPR_BANK i) (fRPR_BANK_FAILED j))

/-- A row of a bank that a spare replaces. -/
def spareOf (h : Hw) (i row : Nat) : Option Nat :=
  (List.range 4).find? fun j =>
    isSet h (aRPR_BANK i) (fRPR_BANK_USED j) && !(isSet h (aRPR_BANK i) (fRPR_BANK_FAILED j)) &&
      getF h (aRPR_BANK i) (fRPR_BANK_ROW j) == row

/-- A failing row: a free spare takes it, or it becomes bad, or the bad-row table is full (Table 7.7,
R200). -/
def repairRow (h : Hw) (i row addr : Nat) : Hw :=
  match freeSpare h i with
  | some j =>
    let h1 := setF (raiseBit h (aRPR_BANK i) (fRPR_BANK_USED j)) (aRPR_BANK i) (fRPR_BANK_ROW j) row
    postFinding (bump h1 aMO_FIND fMO_FIND_RPR 1) 0x0005 0x042 0xFF (addr % 2 ^ 40 + i % 256 * 2 ^ 40) 0
  | none =>
    if h.badRows.contains (i, row) then h
    else
      let a := aRPR_DEGR (i / 64)
      let place := addr % 2 ^ 40 + i % 256 * 2 ^ 40
      let h1 := setReg h a (reg h a ||| BitVec.ofNat 64 (2 ^ (i % 64)))
      let h2 := postFinding (bump h1 aMO_FIND fMO_FIND_DEGR 1) 0x0005 0x043 0xFF place 0
      if 64 ≤ h.badRows.length then raiseAlarm h2 0x044 0xFF place 0
      else { h2 with badRows := h.badRows ++ [(i, row)] }

/-- The save read of one word of a row (Table 7.7): a correction counts, an uncorrectable word is poisoned, in the save
buffer and so for every access from now on (R198). `serves` is false for a spare row that replaces no row: it holds
nobody's word. -/
def scrubWord (m : Sparse Byte) (h : Hw) (y mem b row : Nat) (serves : Bool) (e : Ecc) : Sparse Byte × Hw :=
  match e with
  | .ok => (m, h)
  | .corrected =>
    let h1 := bump h aMO_FIND fMO_FIND_CE 1
    (m, if mem < 8 then bump h1 (aPM_ECC (8 * y + mem)) (fPM_ECC_CE b) 1
        else bump h1 (aLOFT_ECC y) (fLOFT_ECC_CE b) 1)
  | .uncorrectable =>
    (if serves then writeWord m (rowAddr y mem b row) TW.poisoned else m,
      postFinding (bump h aMO_FIND fMO_FIND_PSN 1) 0x0005 0x041 0xFF
        (rowAddr y mem b row + bankIndex y mem b % 256 * 2 ^ 40) 0)

/-- The save read of word j of a segment: of a row, unless it is bad, or of a spare row, for the row that it serves
(R199). A spare row in nobody's use is named by row 0. (DESIGN CHOICE, log 180) -/
def scrubAt (m : Sparse Byte) (h : Hw) (y seg j : Nat) (e : Ecc) : Sparse Byte × Hw :=
  let p := segPlace seg
  let i := bankIndex y p.1 p.2.1
  if p.2.2.2 then
    let serves := isSet h (aRPR_BANK i) (fRPR_BANK_USED j) && !(isSet h (aRPR_BANK i) (fRPR_BANK_FAILED j))
    if 4 ≤ j then (m, h)
    else scrubWord m h y p.1 p.2.1 (if serves then getF h (aRPR_BANK i) (fRPR_BANK_ROW j) else 0) serves e
  else if h.badRows.contains (i, p.2.2.1 + j) then (m, h)
  else scrubWord m h y p.1 p.2.1 (p.2.2.1 + j) true e

/-- The engine takes its next segment while its branch has its clock, and saves its words; `saved` are the ECC outcomes
of the save reads in row order (R196 to R199, R202, R393). (DEDUCED, log 45) -/
def muckStart (m : Sparse Byte) (h : Hw) (y : Nat) (saved : List Ecc) : Sparse Byte × Hw :=
  if (isSet h aMO_CTL fMO_CTL_EN ∨ memTesting h y) ∧ ¬ (muck h y).holding ∧ h.yardsUp ∧ muckClocked h y ∧ ¬ frozen h then
    let h1 := setF (setMuck h y { muck h y with holding := true }) aMO_STAT fMO_STAT_ACTIVE 1
    (List.zip (List.range 8) saved).foldl (fun s e => scrubAt s.1 s.2 y (muck h y).seg e.1 e.2) (m, h1)
  else (m, h)

/-- A failing spare: marked `FAILED`; the row it served is repaired again (R200). -/
def spareFails (h : Hw) (y mem b j : Nat) : Hw :=
  let i := bankIndex y mem b
  if isSet h (aRPR_BANK i) (fRPR_BANK_FAILED j) then h
  else
    let used := isSet h (aRPR_BANK i) (fRPR_BANK_USED j)
    let row := getF h (aRPR_BANK i) (fRPR_BANK_ROW j)
    let h1 := raiseBit h (aRPR_BANK i) (fRPR_BANK_FAILED j)
    if used then repairRow h1 i row (rowAddr y mem b row) else h1

/-- The end of a segment: the test's findings applied, words written back, the walk moved on (R197, R199 to R202).
`bad` are the rows (or spares) of the segment that the test found failing. -/
def muckComplete (h : Hw) (y : Nat) (bad : List Nat) : Hw :=
  let k := muck h y
  if ¬ k.holding ∨ ¬ muckClocked h y ∨ frozen h then h
  else
    let p := segPlace k.seg
    let mem := p.1
    let b := p.2.1
    let i := bankIndex y mem b
    let r :=
      if p.2.2.2 then
        applyAll (fun h j => if bad.contains j then spareFails h y mem b j else h) h (List.range 4)
      else
        applyAll (fun h j =>
          let row := p.2.2.1 + j
          if bad.contains j ∧ (spareOf h i row).isNone ∧ ¬ h.badRows.contains (i, row) then
            repairRow h i row (rowAddr y mem b row)
          else h) h (List.range 8)
    let wrap := k.seg + 1 = passSegs
    let h1 := setMuck r y ⟨if wrap then 0 else k.seg + 1, false⟩
    let h2 := if wrap then bump h1 aMO_STAT fMO_STAT_PASSCNT 1 else h1
    memTested (showActive h2) y

/-- Progress of a yard and of the device in 1/100 % (R202). -/
def muckProg (h : Hw) (y : Nat) : Nat := 10000 * (muck h y).seg / passSegs
def deviceProg (h : Hw) : Nat :=
  10000 * ((List.range 16).foldl (fun acc y => acc + (muck h y).seg) 0) / 525568

/-- The engine waits for bank cycles: it holds a segment, and another access holds a port of its bank (Table 7.16). -/
def muckWaits (h : Hw) (y : Nat) : Bool :=
  let p := segPlace (muck h y).seg
  let i := bankIndex y p.1 p.2.1
  (muck h y).holding && !(portIdle h i false && portIdle h i true)

/-- `MO_POS`y (Table 7.16). (DEDUCED, log 167) -/
def moPosView (h : Hw) (y : Nat) : Nat :=
  let p := segPlace (muck h y).seg
  p.1 + p.2.1 * 16 + p.2.2.1 * 256 + p.2.2.2.toNat * 2 ^ 21 + (muckWaits h y).toNat * 2 ^ 22 + muckProg h y * 2 ^ 32

/-- `RPR_BAD`j (Table 7.16). -/
def rprBadView (h : Hw) (j : Nat) : Nat :=
  match h.badRows[j]? with
  | some e => e.1 + e.2 * 2 ^ 11 + 2 ^ 24
  | none => 0

end Sys2Proof.Machine
end

