-- ==== Sys2Proof/Machine/Dram.lean ====
section
/-!
DEFINITION. The four LP5X memory controllers and the translation unit: populated memory, lines and
their RS(64,60) code, refresh and temperature, training pauses, and two-level translation (R207 to R226).
-/

namespace Sys2Proof.Machine

/-! ## The RS(64,60) code (R209, R211) -/

/-- Product in GF(2^8) with x^8 + x^4 + x^3 + x^2 + 1. -/
def gfMul (a b : Nat) : Nat :=
  ((List.range 8).foldl (fun (s : Nat × Nat) i =>
    let acc := if b.testBit i then s.1 ^^^ s.2 else s.1
    let d := 2 * s.2
    (acc, if 256 ≤ d then d ^^^ 0x11D else d)) (0, a)).1

/-- α^k, α = 0x02. -/
def gfPow : Nat → Nat
  | 0 => 1
  | k + 1 => gfMul (gfPow k) 2

/-- Multiplicative inverse, a^254. -/
def gfInv (a : Nat) : Nat := (List.range 253).foldl (fun x _ => gfMul x a) a

/-- Value at x of the polynomial whose first coefficient is that of the highest power. -/
def gfEval (cs : List Nat) (x : Nat) : Nat := cs.foldl (fun acc c => gfMul acc x ^^^ c) 0

/-- The four syndromes of a 64-byte line. -/
def syndromes (line : List Nat) : List Nat := (List.range 4).map fun j => gfEval line (gfPow j)

/-- Remainder of the 60 data bytes times x^4 by the generator polynomial (x + α^0)…(x + α^3), whose
coefficients below x^4 are 0x0F, 0x36, 0x78, 0x40. -/
def rsCheck (dat : List Nat) : List Nat :=
  dat.foldl (fun r d =>
    match r with
    | [r0, r1, r2, r3] =>
      let q := d ^^^ r0
      [r1 ^^^ gfMul q 0x0F, r2 ^^^ gfMul q 0x36, r3 ^^^ gfMul q 0x78, gfMul q 0x40]
    | _ => r) [0, 0, 0, 0]

/-- A line with the byte at coefficient x^p changed by e. -/
def rsFix (line : List Nat) (p e : Nat) : List Nat :=
  (List.zip (List.range 64) line).map fun x => if x.1 = 63 - p then x.2 ^^^ e else x.2

/-- The decoder of R211: the line as it stands, corrected in one or two bytes, or none where it lies more
than two bytes from every codeword. The Boolean says that bytes were corrected. -/
def rsDecode (line : List Nat) : Option (List Nat × Bool) :=
  match syndromes line with
  | [s0, s1, s2, s3] =>
    if s0 = 0 ∧ s1 = 0 ∧ s2 = 0 ∧ s3 = 0 then some (line, false)
    else
      let det := gfMul s1 s1 ^^^ gfMul s0 s2
      if det = 0 then
        if s0 = 0 ∨ s1 = 0 then none
        else
          let x := gfMul s1 (gfInv s0)
          if gfMul s1 x = s2 ∧ gfMul s2 x = s3 then
            match (List.range 64).find? fun p => gfPow p == x with
            | some p => some (rsFix line p s0, true)
            | none => none
          else none
      else
        let di := gfInv det
        let a1 := gfMul (gfMul s1 s2 ^^^ gfMul s0 s3) di
        let a0 := gfMul (gfMul s2 s2 ^^^ gfMul s1 s3) di
        match (List.range 64).filter fun p =>
            let x := gfPow p
            gfMul x x ^^^ gfMul a1 x ^^^ a0 == 0 with
        | [p, q] =>
          let x := gfPow p
          let y := gfPow q
          let f := gfMul (s1 ^^^ gfMul s0 x) (gfInv (x ^^^ y))
          some (rsFix (rsFix line p (s0 ^^^ f)) q f, true)
        | _ => none
  | _ => none

/-! ## The data space (R16, R17, R213) -/

/-- D of R17: 15/16 of the installed physical capacity. -/
def dramEnd (h : Hw) : Nat := 15 * (4 * h.dramGib * 2 ^ 30) / 16

/-- Channel of a line (R213). -/
def lineChannel (l : Nat) : Nat := ((l ^^^ (l / 2 ^ 8)) ^^^ ((l / 2 ^ 16) ^^^ (l / 2 ^ 24))) % 4

/-- Place of a line: rank, bank group, bank, row and column burst within its channel (R213). -/
structure LinePlace where
  chan : Nat
  rank : Nat
  group : Nat
  bank : Nat
  row : Nat
  col : Nat
deriving DecidableEq, Repr

/-- The mapping of R213 for a line. -/
def linePlace (twoRanks : Bool) (l : Nat) : LinePlace :=
  let m := l / 4
  let row := if twoRanks then m / 2048 else m / 1024
  ⟨lineChannel l, if twoRanks then m / 1024 % 2 else 0, m % 4, (m / 4 % 4) ^^^ (row % 4), row, m / 16 % 64⟩

def dramCh (h : Hw) (c : Nat) : DramCh := getD DramCh.reset h.dram c
def setDramCh (h : Hw) (c : Nat) (x : DramCh) : Hw := { h with dram := setD DramCh.reset h.dram c x }

/-- Router of a DRAM controller (Table 9.1). -/
def dcRouter (c : Nat) : Nat := if c = 0 then 8 else if c = 1 then 16 else if c = 2 then 15 else 23

/-- The channel serves requests: enabled and not under STOP (R217, R225). -/
def chanServes (h : Hw) (c : Nat) : Bool :=
  isSet h (aDC_CFG c) fDC_CFG_EN && !(isSet h (aDC_STAT c) fDC_STAT_STOPPED)

/-- Six words of D = 0 with tag 0x90: how an unserved or uncorrectable line reads (R211, R217). -/
def poisonLine : List Byte := ((List.range 6).map fun _ => leBytes 9 0 ++ [0x90#8]).flatten

/-- First byte of a line. -/
abbrev lineByte (l : Nat) : Nat := 60 * l

/-- An uncorrectable line read: counted, `UCE`, and logged as R22 gives (R211). -/
def lineUncorrectable (h : Hw) (l : Nat) : Hw :=
  let c := lineChannel l
  let h1 := raiseBit (bump h (aDC_ECC c) fDC_ECC_UE 1) (aDC_STAT c) fDC_STAT_UCE
  postFinding h1 0x0002 0x082 (dcRouter c) (lineByte l) 0

/-- One line read with the outcome of its check. -/
def lineRead (m : Sparse Byte) (h : Hw) (l : Nat) (e : Ecc) : List Byte × Hw :=
  if ¬ chanServes h (lineChannel l) then (poisonLine, h)
  else
    match e with
    | .ok => (readBytes m (lineByte l) 60, h)
    | .corrected => (readBytes m (lineByte l) 60, bump h (aDC_ECC (lineChannel l)) fDC_ECC_CE 1)
    | .uncorrectable => (poisonLine, lineUncorrectable h l)

/-- Lines that n bytes from an address touch. -/
def linesOf (a n : Nat) : List Nat :=
  if n = 0 then [] else (List.range ((a + n - 1) / 60 - a / 60 + 1)).map fun i => a / 60 + i

/-- A request that finds channels unserved counts once in `DROPCNT` of each (R217, R225). -/
def countDrops (h : Hw) (ls : List Nat) : Hw :=
  applyAll (fun h c =>
    if (ls.any fun l => lineChannel l == c) ∧ ¬ chanServes h c then bump h (aDC_STAT c) fDC_STAT_DROPCNT 1 else h)
    h (List.range 4)

/-- Bytes of the data space read; `es` are the outcomes of the lines' checks, in order. -/
def dramRead (m : Sparse Byte) (h : Hw) (a n : Nat) (es : List Ecc) : List Byte × Hw :=
  let ls := linesOf a n
  let r := (List.zip (List.range ls.length) ls).foldl (fun (s : List Byte × Hw) l =>
    let x := lineRead m s.2 l.2 (es.getD l.1 .ok)
    (s.1 ++ x.1, x.2)) ([], countDrops h ls)
  ((r.1.drop (a % 60)).take n, r.2)

/-- Bytes of one line written, as (address, byte): a write of all 60 replaces the line, any other is merged (R18). Into an
uncorrectable line, the words that are not covered whole are written as D = 0 with tag 0x90 (R212). (DEDUCED, log 47) -/
def lineMask (m : Sparse Byte) (h : Hw) (l : Nat) (bs : List (Nat × Byte)) (e : Ecc) : Sparse Byte × Hw :=
  let c := lineChannel l
  let here := bs.filter fun b => b.1 / 60 == l
  let put (m : Sparse Byte) (bs : List (Nat × Byte)) : Sparse Byte := bs.foldl (fun m b => writeByte m b.1 b.2) m
  let covered (a : Nat) : Bool := here.any fun b => b.1 == a
  if here.isEmpty ∨ ¬ chanServes h c then (m, h)
  else if (List.range 60).all fun i => covered (lineByte l + i) then (put m here, h)
  else
    match e with
    | .ok => (put m here, h)
    | .corrected => (put m here, bump h (aDC_ECC c) fDC_ECC_CE 1)
    | .uncorrectable =>
      (put (writeBytes m (lineByte l) poisonLine) (here.filter fun b => (List.range 10).all fun i => covered (b.1 / 10 * 10 + i)),
        bump h (aDC_ECC c) fDC_ECC_UE 1)

/-- Addresses of consecutive bytes beside them. -/
def placeBytes (a : Nat) (bytes : List Byte) : List (Nat × Byte) := List.zip ((List.range bytes.length).map (a + ·)) bytes

/-- Bytes written into some lines; `es` are the outcomes of the reads that their merges make, line by line. -/
def dramMask (m : Sparse Byte) (h : Hw) (ls : List Nat) (bs : List (Nat × Byte)) (es : List Ecc) : Sparse Byte × Hw :=
  (List.zip (List.range ls.length) ls).foldl (fun s l => lineMask s.1 s.2 l.2 bs (es.getD l.1 .ok)) (m, countDrops h ls)

/-- Bytes of the data space written, line by line. -/
def dramWrite (m : Sparse Byte) (h : Hw) (a : Nat) (bytes : List Byte) (es : List Ecc) : Sparse Byte × Hw :=
  dramMask m h (linesOf a bytes.length) (placeBytes a bytes) es

/-- A write touches the staging area while a load runs (R379). -/
def hitsStaging (h : Hw) (a n : Nat) : Bool :=
  h.staging && (dramEnd h < a + n + 0x4000000) && (a < dramEnd h)

/-- The line byte and the bit in it that travel on a data pin in a beat of the burst (R210). -/
def burstBit (pin beat : Nat) : Nat × Nat := (2 * pin + beat / 8, beat % 8)

/-- A byte of the codeword as read, with the bits of the burst that arrive changed. -/
def burstByte (err : List (Fin 32 × Fin 16)) (k v : Nat) : Nat :=
  err.foldl (fun v e => if (burstBit e.1.val e.2.val).1 = k then v ^^^ 2 ^ (burstBit e.1.val e.2.val).2 else v) v

/-- A freeze has been accepted and the controllers enter self-refresh: they start no new command (R444). -/
def entersRefresh (h : Hw) : Bool := h.frz.req.isSome || h.frz.entering

/-- The channel issues no read or write now: a training pause runs, or self-refresh is being entered (R218, R444). -/
def chanHolds (h : Hw) (c : Nat) : Bool := (dramCh h c).paused || entersRefresh h

/-- A line read or written with its physical errors: `err` lists the pins and beats of the burst that arrive changed
(R209 to R212). In a training pause and while self-refresh is entered the channel issues none (R218, R444). -/
def dramLineAccess (m : Sparse Byte) (h : Hw) (l : Nat) (wr : Option LineWrite) (err : List (Fin 32 × Fin 16)) :
    Sparse Byte × Hw :=
  if frozen h ∨ dramEnd h ≤ lineByte l ∨ chanHolds h (lineChannel l) then (m, h)
  else
    let c := lineChannel l
    let dat := (readBytes m (lineByte l) 60).map BitVec.toNat
    let code := (List.zip (List.range 64) (dat ++ rsCheck dat)).map fun x => burstByte err x.1 x.2
    let dec := rsDecode code
    let bytesOf (xs : List Nat) : List Byte := (xs.take 60).map (BitVec.ofNat 8)
    match wr with
    | none =>
      if ¬ chanServes h c then (m, answerRead (countDrops h [l]) poisonLine)
      else
        match dec with
        | none => (m, answerRead (lineUncorrectable h l) poisonLine)
        | some (xs, fixed) =>
          (writeBytes m (lineByte l) (bytesOf xs),
            answerRead (if fixed then bump h (aDC_ECC c) fDC_ECC_CE 1 else h) (bytesOf xs))
    | some w =>
      let bytes := w.bytes.take (60 - w.first)
      let bs := placeBytes (lineByte l + w.first) bytes
      if bytes.length = 60 ∨ ¬ chanServes h c then dramMask m h [l] bs []
      else
        match dec with
        | none => dramMask m h [l] bs [.uncorrectable]
        | some (xs, fixed) => dramMask (writeBytes m (lineByte l) (bytesOf xs)) h [l] bs [if fixed then .corrected else .ok]

/-! ## Configuration (R207, R208) -/

/-- The channels are those of Table 8.1, alike and trained. `rate` is in units of 0.1 MT/s. -/
def dramSupported (chans : List DramChan) : Bool :=
  match chans with
  | [a, b, c, d] =>
    [a, b, c, d].all fun x =>
      x.fitted && x.lp5x && x.banks == 16 && x.groups == 4 && x.width == 32 && x.trained && (x.gib == 4 || x.gib == 8 || x.gib == 16) && (x.ranks == 1 || x.ranks == 2) &&
        75000 ≤ x.rate && x.gib == a.gib && x.ranks == a.ranks
  | _ => false

/-- Firmware's check at START-UP: the channels enabled, or disabled with `DRAM_CONFIG` (R208). (DEDUCED, log 46) -/
def dramConfigCheck (h : Hw) (chans : List DramChan) : Hw :=
  if h.mode ≠ .startUp ∨ frozen h then h
  else if dramSupported chans then
    let a := chans.headD ⟨false, false, 0, 0, 0, 0, 0, 0, false⟩
    let cap := if a.gib = 4 then 1 else if a.gib = 8 then 2 else 3
    applyAll (fun h c =>
      setF (setF (setF h (aDC_CFG c) fDC_CFG_CAP cap) (aDC_CFG c) fDC_CFG_RANKS (a.ranks - 1)) (aDC_CFG c) fDC_CFG_EN 1)
      { h with dramGib := a.gib } (List.range 4)
  else
    raiseAlarm (applyAll (fun h c => setF h (aDC_CFG c) fDC_CFG_EN 0) { h with dramGib := 0 } (List.range 4))
      0x080 0xFF 0 0

/-! ## Refresh, temperature and training (R215 to R220) -/

/-- The controller of a populated channel acts: the device is clocked and the channel enabled. -/
def chanLive (h : Hw) (c : Nat) : Bool := !frozen h && isSet h (aDC_CFG c) fDC_CFG_EN

/-- A refresh command issued: the rate that the latest reading asked for takes effect (R216). -/
def issueRefresh (h : Hw) (c : Nat) : Hw := setF h (aDC_STAT c) fDC_STAT_HOT2X (dramCh h c).hotNext.toNat

/-- A refresh command falls due: it is issued, or in a training pause waits for its end (R216, R218). -/
def dramRefresh (h : Hw) (c : Nat) : Hw :=
  if ¬ chanLive h c then h
  else if (dramCh h c).paused then setDramCh h c { dramCh h c with waiting := (dramCh h c).waiting + 1 }
  else issueRefresh h c

/-- The three bands of R215. -/
inductive Band where
  | normal
  | hot
  | limit
deriving DecidableEq, Repr

/-- The refresh-rate field of a mode register 4 reading: bits [4:0]; a greater code is a hotter die. (PRESUMED, log 182) -/
def refreshRate (v : BitVec 8) : Nat := v.toNat % 32

/-- The band of a reading: up to the code of the 85 °C point, above it, or the code for the end of the rated range
(R215). (PRESUMED, log 182) -/
def bandOf (v : BitVec 8) : Band :=
  if refreshRate v = 31 then .limit else if 9 < refreshRate v then .hot else .normal

/-- The reading of the hottest die. -/
def hottest (rs : List (BitVec 8)) : Option (BitVec 8) :=
  rs.foldl (fun best r =>
    match best with
    | none => some r
    | some b => if refreshRate b < refreshRate r then some r else some b) none

/-- THROTTLE or STOP ended (Table 8.3). -/
def endPolicy (h : Hw) (c : Nat) : Hw :=
  let h1 := setF (setF h (aDC_STAT c) fDC_STAT_THROT 0) (aDC_STAT c) fDC_STAT_STOPPED 0
  setDramCh h1 c { dramCh h1 c with selfRefresh := false }

/-- A mode register 4 reading of a channel (Table 8.3). (DEDUCED, log 49) -/
def mr4Read (h : Hw) (c : Nat) (rs : List (BitVec 8)) : Hw :=
  if ¬ chanLive h c then h
  else
    match hottest rs with
    | none => h
    | some v =>
      let band := bandOf v
      let h := setF h (aDC_STAT c) fDC_STAT_MR4 v.toNat
      let x := dramCh h c
      let lim := isSet h (aDC_STAT c) fDC_STAT_HOTLIM
      match band with
      | .limit =>
        let h1 := setDramCh h c { x with hotNext := true, coolRun := 0, inRangeRun := 0 }
        let h2 := raiseBit h1 (aDC_STAT c) fDC_STAT_HOTLIM
        if lim then h2 else raiseCondition h2 0x081 (dcRouter c) 0 c
      | _ =>
        if lim then
          if x.inRangeRun + 1 < 3 then setDramCh h c { x with inRangeRun := x.inRangeRun + 1, hotNext := true }
          else
            let h1 := setDramCh h c { x with inRangeRun := 0, coolRun := 0, hotNext := true }
            let h2 := endPolicy (setF h1 (aDC_STAT c) fDC_STAT_HOTLIM 0) c
            if (List.range 4).any fun c => isSet h2 (aDC_STAT c) fDC_STAT_HOTLIM then h2 else endCondition h2 0x081
        else if band = .hot then setDramCh h c { x with hotNext := true, coolRun := 0 }
        else if x.hotNext then
          if x.coolRun + 1 < 2 then setDramCh h c { x with coolRun := x.coolRun + 1 }
          else setDramCh h c { x with coolRun := 0, hotNext := false }
        else h

/-- Firmware applies `HOTPOL` to a hot channel (R217). -/
def hotpolApply (h : Hw) (c : Nat) : Hw :=
  if ¬ (chanLive h c ∧ isSet h (aDC_STAT c) fDC_STAT_HOTLIM) then h
  else if getF h (aDC_CFG c) fDC_CFG_HOTPOL = 0 then raiseBit h (aDC_STAT c) fDC_STAT_THROT
  else setDramCh (raiseBit h (aDC_STAT c) fDC_STAT_STOPPED) c { dramCh h c with selfRefresh := true }

/-- The interval I has run: a pause falls due (R219). -/
def pauseDue (h : Hw) (c : Nat) : Hw :=
  let x := dramCh h c
  if chanLive h c ∧ ¬ x.due ∧ ¬ x.paused then setDramCh h c { x with due := true, strobed := false } else h

/-- A pause starts. -/
def startPause (h : Hw) (c : Nat) : Hw :=
  bump (setDramCh h c { dramCh h c with due := false, strobed := false, paused := true })
    (aDC_TRAIN c) fDC_TRAIN_PAUSECNT 1

/-- A due pause starts at once, or with `DC_TRALIGN.EN` = 1 after a strobe of the entry (R220). -/
def pauseStart (h : Hw) (c : Nat) : Hw :=
  let x := dramCh h c
  if chanLive h c ∧ x.due ∧ (¬ isSet h (aDC_TRALIGN c) fDC_TRALIGN_EN ∨ x.strobed) then startPause h c else h

/-- The grace time ends without a strobe (R220). -/
def graceExpiry (h : Hw) (c : Nat) : Hw :=
  let x := dramCh h c
  if chanLive h c ∧ x.due ∧ isSet h (aDC_TRALIGN c) fDC_TRALIGN_EN ∧ ¬ x.strobed then
    raiseAlarm (bump (startPause h c) (aDC_TRAIN c) fDC_TRAIN_UNALCNT 1) 0x083 (dcRouter c) 0 c
  else h

/-- A strobe of gate entry i: due pauses that wait for it may start (R220). -/
def gateStrobe (h : Hw) (i : Nat) : Hw :=
  applyAll (fun h c =>
    let x := dramCh h c
    if isSet h (aDC_TRALIGN c) fDC_TRALIGN_EN ∧ getF h (aDC_TRALIGN c) fDC_TRALIGN_ENTRY = i ∧ x.due then
      setDramCh h c { x with strobed := true }
    else h) h (List.range 4)

/-- A pause ends: the delays moved, the drift recorded, the interval adapted and the refresh commands that waited issued
(R218, R219). (DEDUCED, log 48) -/
def pauseEnd (h : Hw) (c : Nat) (drift : BitVec 8) : Hw :=
  if ¬ ((dramCh h c).paused ∧ ¬ frozen h) then h
  else
    let d := drift.toInt.natAbs
    let i := getF h (aDC_TRAIN c) fDC_TRAIN_IVL
    let i' := if 4 < d then max (i / 2) 250 else if d < 1 then min (2 * i) 4000 else i
    let x := dramCh h c
    let h1 := setDramCh h c { x with paused := false, delay := x.delay + drift.toInt, waiting := 0 }
    let h2 := if x.waiting = 0 then h1 else issueRefresh h1 c
    setF (setF h2 (aDC_TRAIN c) fDC_TRAIN_DRIFT drift.toNat) (aDC_TRAIN c) fDC_TRAIN_IVL i'

/-! ## Translation (R221 to R224) -/

/-- Latches, counts and logs a translation fault (R223, R226). -/
def xlatFault (h : Hw) (va kind level : Nat) (wr : Bool) (src : Nat) : Hw :=
  let h1 := if getF h aTU_FAULT fTU_FAULT_KIND ≠ 0 then h
    else setReg h aTU_FAULT (BitVec.ofNat 64 (va % 2 ^ 40 + kind * 2 ^ 40 + level * 2 ^ 43 + wr.toNat * 2 ^ 44 + src * 2 ^ 48))
  postFinding (bump h1 aTU_STAT fTU_STAT_FLTCNT 1) 0x0003 0x084 src va kind

/-- Outcome of a translation: the mapping, or `KIND` and level of the fault. -/
inductive Walked where
  | page (x : Xlat)
  | fault (kind level : Nat)
deriving DecidableEq, Repr

/-- One entry read, with the outcome of its line's check, and its fields checked: fault kind, or the entry (Tables 8.4,
8.5). -/
def readEntry (m : Sparse Byte) (h : Hw) (a : Nat) (e : Ecc) : (Nat ⊕ Nat) × Hw :=
  let c := lineChannel (a / 60)
  if ¬ isSet h (aDC_CFG c) fDC_CFG_EN then (.inl 6, countDrops h [a / 60])
  else
    let r := dramRead m h a 10 [e]
    let v := leNat r.1
    let tag := v / 2 ^ 72
    if ¬ (tag.testBit 7 ∧ ¬ tag.testBit 4) then (.inl 2, r.2)
    else if ¬ v.testBit 0 ∨ v / 2 ^ 4 % 16 ≠ 0 ∨ v / 2 ^ 48 % 2 ^ 24 ≠ 0 then (.inl 1, r.2)
    else (.inr (v % 2 ^ 48), r.2)

/-- A walk for one virtual address, counted unless translation is off (R221, R226, Table 8.9). `es` are the outcomes of
its entries' checks, level by level. (DEDUCED, log 169) -/
def walk (m : Sparse Byte) (h : Hw) (va : Nat) (es : List Ecc) : Walked × Hw :=
  let base := getF h aTU_ROOT fTU_ROOT_BASE
  let n := getF h aTU_ROOT fTU_ROOT_LOG2N
  let d := dramEnd h
  let i1 := va / 2 ^ 21 % 2 ^ 19
  if ¬ isSet h aTU_CTL fTU_CTL_EN ∨ h.dramGib = 0 then (.fault 6 0, h)
  else
  let h := bump h aTU_STAT fTU_STAT_WALKCNT 1
  if base % 10 ≠ 0 then (.fault 1 0, h)
  else if 2 ^ n ≤ i1 then (.fault 4 0, h)
  else if d < base + 10 * 2 ^ n then (.fault 3 0, h)
  else
    match readEntry m h (base + 10 * i1) (es.getD 0 .ok) with
    | (.inl k, h1) => (.fault k 0, h1)
    | (.inr e, h1) =>
      let addr := e / 2 ^ 8
      if e.testBit 1 then
        if addr % 2 ^ 21 ≠ 0 then (.fault 1 0, h1)
        else if d < addr + 2 ^ 21 then (.fault 3 0, h1)
        else (.page ⟨va / 2 ^ 21, true, e.testBit 2, e.testBit 3, addr⟩, h1)
      else if addr % 10 ≠ 0 then (.fault 1 0, h1)
      else if d < addr + 5120 then (.fault 3 0, h1)
      else
        match readEntry m h1 (addr + 10 * (va / 2 ^ 12 % 512)) (es.getD 1 .ok) with
        | (.inl k, h2) => (.fault k 1, h2)
        | (.inr e2, h2) =>
          let page := e2 / 2 ^ 8
          if ¬ e2.testBit 1 ∨ page % 2 ^ 12 ≠ 0 then (.fault 1 1, h2)
          else if d < page + 2 ^ 12 then (.fault 3 1, h2)
          else (.page ⟨va / 2 ^ 12, false, e2.testBit 2, e2.testBit 3, page⟩, h2)

/-- The bytes of a page that an access may use: the local address of a virtual address. -/
def Xlat.place (x : Xlat) (va : Nat) : Nat := if x.big then x.addr + va % 2 ^ 21 else x.addr + va % 2 ^ 12

/-- The mapping covers a virtual address. -/
def Xlat.covers (x : Xlat) (va : Nat) : Bool :=
  if x.big then x.vpage == va / 2 ^ 21 else x.vpage == va / 2 ^ 12

/-- A completed translation kept, the oldest of 1,024 given up (R224). (DESIGN CHOICE, log 50) -/
def keepXlat (h : Hw) (x : Xlat) : Hw :=
  let c := (h.noc.cache.filter fun e => e ≠ x) ++ [x]
  { h with noc.cache := if 1024 < c.length then c.drop 1 else c }

/-- One virtual address translated: from the cache where `useCache` and a translation is held, else by a
walk; then the permission is checked (R221, R223, R224). -/
def translateOne (m : Sparse Byte) (h : Hw) (useCache : Bool) (va : Nat) (wr : Bool) (es : List Ecc) :
    Walked × Hw :=
  let held := if useCache then h.noc.cache.find? fun x => x.covers va else none
  let r : Walked × Hw :=
    match held with
    | some x => if isSet h aTU_CTL fTU_CTL_EN then (.page x, h) else (.fault 6 0, h)
    | none =>
      match walk m h va es with
      | (.page x, h1) => (.page x, keepXlat h1 x)
      | (.fault k l, h1) => (.fault k l, h1)
  match r with
  | (.page x, h1) =>
    if (wr && !x.w) || (!wr && !x.r) then (.fault 5 (if x.big then 0 else 1), h1) else (.page x, h1)
  | (.fault k l, h1) => (.fault k l, h1)

/-- An access of n bytes translated part by part, page by page (R222): the local parts, or none after a
fault that has been latched, counted and logged. `es` are the outcomes of the checks of the first walk's two entries,
then of the second's. -/
def translate (m : Sparse Byte) (h : Hw) (useCache : Bool) (va n : Nat) (wr : Bool) (src : Nat) (es : List Ecc) :
    Option (List (Nat × Nat)) × Hw :=
  match translateOne m h useCache va wr es with
  | (.fault k l, h1) => (none, xlatFault h1 va k l wr src)
  | (.page x, h1) =>
    let room := if x.big then 2 ^ 21 - va % 2 ^ 21 else 2 ^ 12 - va % 2 ^ 12
    if n ≤ room then (some [(x.place va, n)], h1)
    else
      match translateOne m h1 useCache (va + room) wr (es.drop 2) with
      | (.fault k l, h2) => (none, xlatFault h2 (va + room) k l wr src)
      | (.page y, h2) => (some [(x.place va, room), (y.place (va + room), n - room)], h2)

/-- Words of ten bytes each (R16). -/
def wordsOfBytes : Nat → List Byte → List TW
  | 0, _ => []
  | n + 1, bs =>
    TW.ofTag (BitVec.ofNat 72 (leNat (bs.take 9))) ((bs.drop 9).headD 0) :: wordsOfBytes n (bs.drop 10)

def bytesOfWords (ws : List TW) : List Byte := (ws.map fun t => leBytes 9 t.d.toNat ++ [t.tag]).flatten

/-- `TU_INV.GO`: invalidation starts. -/
def invStart (h : Hw) : Hw := setF h aTU_INV fTU_INV_BUSY 1

/-- The cache is empty. -/
def invDone (h : Hw) : Hw :=
  if isSet h aTU_INV fTU_INV_BUSY ∧ ¬ frozen h then setF { h with noc.cache := [] } aTU_INV fTU_INV_BUSY 0 else h

end Sys2Proof.Machine
end

