-- ==== Sys2Proof/Machine/Power.lean ====
section
/-!
DEFINITION. Clocks, rails and yard power modes: loss of the reference and relock, dead sources, rail and
supply faults, voltage and divide changes under the neighbour limits, power-downs and wakes (R388 to R411,
R110).
-/

namespace Sys2Proof.Machine

/-! ## Reference and PLLs (R394 to R398) -/

/-- The missing-pulse detector declares the reference lost: every PLL holds (R394). Before the first lock there
is no tuning word to hold, and the device waits for the reference to return (R391). (DEDUCED, log 171) -/
def refLost (h : Hw) : Hw :=
  if ¬ isSet h aCLK_STAT fCLK_STAT_REFPRES then h
  else
    let h1 := setF h aCLK_STAT fCLK_STAT_REFPRES 0
    let h2 := applyAll (fun h f => setF h aCLK_STAT f 1) h1
      (if h.locked then [fCLK_STAT_REFLOST, fCLK_STAT_ROOTHOLD, fCLK_STAT_DRAMHOLD, fCLK_STAT_XCVRHOLD]
       else [fCLK_STAT_REFLOST])
    let h3 := setReg (setF h2 aCLK_STAT fCLK_STAT_RELOCKING 0) aCLK_LOSSTICK (BitVec.ofNat 64 (crdTick h))
    raiseAlarm h3 0x002 0xFF 0 0

/-- A forced switch of a clock multiplexer (R398). -/
def deadSwitch (h : Hw) (mux : Nat) : Hw :=
  let h1 := raiseBit (bump h aCLK_STAT fCLK_STAT_DEADCNT 1) aCLK_STAT fCLK_STAT_DEADSW
  raiseAlarm (setF h1 aCLK_DEADSRC fCLK_DEADSRC_MUX mux) 0x003 0xFF 0 mux

/-- Every PLL is in hold because the reference was lost. -/
def inHold (h : Hw) : Bool := isSet h aCLK_STAT fCLK_STAT_ROOTHOLD

/-- The reference is declared present; with `AUTORELOCK` = 1 a relock starts (R396). -/
def refPresent (h : Hw) : Hw :=
  let h1 := raiseBit h aCLK_STAT fCLK_STAT_REFPRES
  if inHold h ∧ isSet h aCLK_CTL fCLK_CTL_AUTORELOCK then setF h1 aCLK_STAT fCLK_STAT_RELOCKING 1 else h1

/-- A write of `CLK_CTL.RELOCK` (R396, Table 16.8). -/
def relock (h : Hw) : Hw :=
  if inHold h ∧ isSet h aCLK_STAT fCLK_STAT_REFPRES then setF h aCLK_STAT fCLK_STAT_RELOCKING 1 else h

/-- The PLLs have locked again: the hold bits and `RELOCKING` clear (R396). -/
def relockDone (h : Hw) : Hw :=
  if isSet h aCLK_STAT fCLK_STAT_RELOCKING then
    applyAll (fun h f => setF h aCLK_STAT f 0) h
      [fCLK_STAT_RELOCKING, fCLK_STAT_ROOTHOLD, fCLK_STAT_DRAMHOLD, fCLK_STAT_XCVRHOLD]
  else h

/-- A root or DRAM PLL loses lock with the reference present (R397). -/
def pllUnlock (h : Hw) (isDram : Bool) : Hw :=
  if isSet h aCLK_STAT fCLK_STAT_REFPRES then
    raiseAlarm (raiseBit h aCLK_STAT fCLK_STAT_UNLOCK) 0x001 0xFF 0 isDram.toNat
  else h

/-! ## Rails and supply (R400, R401) -/

/-- A rail out of range, or a regulator at its current limit (R400). -/
def railFault (h : Hw) (rail : Nat) (ocp : Bool) : Hw :=
  let h1 := setF (raiseBit h aPW_STAT (if ocp then fPW_STAT_OCP else fPW_STAT_RAILFLT)) aPW_STAT fPW_STAT_FLTRAIL rail
  let h2 := if ocp then h1 else setF h1 (aPW_RAIL rail) fPW_RAIL_OK 0
  raiseAlarm h2 0x008 0xFF 0 rail

def vinLow (h : Hw) (mv : Nat) : Hw :=
  if mv < 2700 then raiseAlarm (raiseBit (setF h aPW_VIN fPW_VIN_MV mv) aPW_STAT fPW_STAT_VINLOW) 0x009 0xFF 0 mv
  else h

def vinHigh (h : Hw) (mv : Nat) : Hw :=
  if 5500 < mv then raiseAlarm (raiseBit (setF h aPW_VIN fPW_VIN_MV mv) aPW_STAT fPW_STAT_VINHIGH) 0x00A 0xFF 0 mv
  else h

/-- Set point of a rail in mV (Table 16.5): a yard's by its code, 550 in DEEP-SLEEP. -/
def railTarget (h : Hw) (r : Nat) : Nat :=
  if r < 16 then
    if getF h (aYP_STAT r) fYP_STAT_MODE = 2 then 550 else 620 + 5 * getF h (aYP_VOLT r) fYP_VOLT_ACT
  else [750, 800, 800, 850, 1200, 1800, 3300, 750, 500].getD (r - 16) 0

/-! ## Neighbours (R406 to R408) -/

/-- Yards that differ by one in exactly one of yard row and column (R406). -/
def neighbours (y : Nat) : List Nat :=
  (List.range 16).filter fun z =>
    let dr := max (y / 4) (z / 4) - min (y / 4) (z / 4)
    let dc := max (y % 4) (z % 4) - min (y % 4) (z % 4)
    dr + dc == 1

def yardCode (h : Hw) (y : Nat) : Nat := getF h (aYP_VOLT y) fYP_VOLT_CODE
def yardDiv (h : Hw) (y : Nat) : Nat := getF h (aYP_CTL y) fYP_CTL_DIV

/-- A code keeps the voltage limit with every neighbour. -/
def codeFits (h : Hw) (y code : Nat) : Bool :=
  (neighbours y).all fun z => code ≤ yardCode h z + 30 && yardCode h z ≤ code + 30

/-- A divide keeps the divide limit with every neighbour. -/
def divFits (h : Hw) (y d : Nat) : Bool :=
  (neighbours y).all fun z => d ≤ yardDiv h z + 1 && yardDiv h z ≤ d + 1

def yardPw (h : Hw) (y : Nat) : YardPw := getD YardPw.reset h.pw y
def setYardPw (h : Hw) (y : Nat) (x : YardPw) : Hw := { h with pw := setD YardPw.reset h.pw y x }

/-- The code that the rail of a yard has reached while it slews: open between the codes it comes from and goes
to, and never back (R402). (DESIGN CHOICE, log 170) -/
def slewOn (h : Hw) (y : Nat) : Hw :=
  if ¬ (yardPw h y).slewing then h
  else
    let x := freshNat h
    let act := getF h (aYP_VOLT y) fYP_VOLT_ACT
    let code := yardCode h y
    let d := x.1 % (max act code - min act code + 1)
    setF x.2 (aYP_VOLT y) fYP_VOLT_ACT (if act ≤ code then act + d else act - d)

/-- A measured rail voltage: within 30 mV of the set point, or of the code that a slew has reached, while the rail is good
(R400); open on the way to or from the retention voltage, and where the rail is not good. (DESIGN CHOICE, log 87) -/
def railReading (h : Hw) (r : Nat) : Nat × Hw :=
  let h := slewOn h r
  let x := freshNat h
  let moves := decide (r < 16) && ((yardPw h r).settling || (yardPw h r).toSleep)
  (if isSet h (aPW_RAIL r) fPW_RAIL_OK ∧ ¬ moves then railTarget h r - 30 + x.1 % 61 else x.1, x.2)

/-- A new code: the rail slews to it, from the code reached (R402). -/
def setCode (h : Hw) (y code : Nat) : Hw :=
  let h1 := setF (slewOn h y) (aYP_VOLT y) fYP_VOLT_CODE code
  setYardPw h1 y { yardPw h1 y with slewing := (yardPw h1 y).slewing || getF h (aYP_VOLT y) fYP_VOLT_ACT != code }

/-- A write of `YP_VOLT.CODE`: reserved codes are discarded, a code outside the neighbour limits is refused
whole (R10, R402, R407). -/
def writeVolt (h : Hw) (y code : Nat) : Hw :=
  if 56 < code then raiseBit h (aYP_STAT y) fYP_STAT_RSVVAL
  else if ¬ codeFits h y code then raiseBit h (aYP_STAT y) fYP_STAT_REFUSED
  else setCode h y code

/-- The rail of a yard stands at its code. -/
def railAtCode (h : Hw) (y : Nat) : Hw :=
  setYardPw (setF h (aYP_VOLT y) fYP_VOLT_ACT (yardCode h y)) y { yardPw h y with slewing := false }

/-- The rail has reached its code, or the voltage of SLEEP (R402). -/
def slewDone (h : Hw) (y : Nat) : Hw :=
  let x := yardPw h y
  if x.toSleep then
    setYardPw (setF (setF (railAtCode h y) (aYP_STAT y) fYP_STAT_MODE 1) (aYP_STAT y) fYP_STAT_TRANS x.wake.toNat) y
      { x with toSleep := false, slewing := false }
  else if x.slewing then railAtCode h y
  else h

/-- A write of `YP_CTL.DIV`: in force later under R110 (R407). -/
def writeDiv (h : Hw) (y d : Nat) : Hw :=
  if 2 < d then raiseBit h (aYP_STAT y) fYP_STAT_RSVVAL
  else if ¬ divFits h y d then raiseBit h (aYP_STAT y) fYP_STAT_REFUSED
  else
    let h1 := setF h (aYP_CTL y) fYP_CTL_DIV d
    setYardPw h1 y { yardPw h1 y with divDue := some h.aclk }

/-- An ACLK index to come, as many cycles ahead as it was, with a cycle of `old` ACLK cycles before and `new` after a
change of the divide at `now` (R59, R60, R110). -/
def aheadAt (now old new a : Nat) : Nat := if a ≤ now then a else now + (a - now) / old * new

/-- An ACLK index of an earlier cycle, as many cycles back as it was. -/
def backAt (now old new a : Nat) : Nat := if now ≤ a then a else now - (now - a + old - 1) / old * new

/-- What a pen notes by ACLK index, carried over a change of the divide. -/
def Pen.redivide (now old new : Nat) (p : Pen) : Pen :=
  { p with
    issued := p.issued.map fun e => (e.1, backAt now old new (e.2 - 1) + 1)
    preload := p.preload.map fun x => { x with since := backAt now old new x.since }
    nonres := p.nonres.map fun r => { r with ready := aheadAt now old new r.ready } }

/-- The divide of a yard in force from this cycle on. Latencies, issue slots and phases go on in cycles of the new
divide, and what the model records by cycle number is carried over (R59, R60, R110). -/
def setYardDiv (h : Hw) (y d : Nat) : Hw :=
  let old := yardCycle h y
  let len := 2 ^ yardShift h y
  let h1 := setF h (aYP_STAT y) fYP_STAT_DIV d
  let new := yardCycle h1 y
  let ahead := aheadAt (edgeOf h y) len (2 ^ yardShift h1 y)
  let port (o : OutPort) : OutPort :=
    if o.cyc = old then { o with cyc := new }
    else if o.cyc + 1 = old then { o with cyc := new - 1 }
    else ⟨TW.notValid, 0⟩
  { h1 with
    arr.fus := h1.arr.fus.map (fun e =>
      if e.1 / 128 = y then
        (e.1, { e.2 with out0 := port e.2.out0, out1 := port e.2.out1, nextSlot := ahead e.2.nextSlot })
      else e)
    arr.flights := h1.arr.flights.map (fun f => if f.g / 128 = y then { f with due := ahead f.due } else f)
    arr.pens := h1.arr.pens.map (fun e =>
      if e.1 / 8 = y then (e.1, e.2.redivide (edgeOf h y) len (2 ^ yardShift h1 y)) else e)
    arr.signals := h1.arr.signals.map (fun x =>
      if x.1 = y ∧ x.2.2 = edgeOf h y + len then (x.1, x.2.1, ahead x.2.2) else x)
    arr.xout := h1.arr.xout.map (fun e =>
      match farEnd (e.1 / 12) (e.1 % 12) with
      | some g' => if g' / 128 = y then (e.1, port e.2) else e
      | none => e)
    arr.troughs := h1.arr.troughs.map (fun e =>
      if e.1 / 64 = y then (e.1, beginCycle (depth h1 e.1) new { e.2 with cyc := new + 1 }) else e) }

/-- The new divide takes effect at the first multiple of 4 after the write (R110). -/
def divideChange (h : Hw) (y : Nat) : Hw :=
  match (yardPw h y).divDue with
  | none => h
  | some a =>
    if frozen h ∨ h.aclk % 4 ≠ 0 ∨ h.aclk ≤ a then h
    else
      let h1 := setYardPw h y { yardPw h y with divDue := none }
      if (yardPw h y).stopped then h1 else setYardDiv h1 y (yardDiv h y)

/-- Neighbours in RUN differ by more than 25 °C (R408). Temperatures are in 1/16 °C. -/
def tempSpread (h : Hw) (a b : Nat) (ta tb : BitVec 13) : Hw :=
  let h1 := setF (setF h (aYP_STAT a) fYP_STAT_TEMP ta.toNat) (aYP_STAT b) fYP_STAT_TEMP tb.toNat
  if (neighbours a).contains b ∧ yardRuns h a ∧ yardRuns h b ∧ 400 < (ta.toInt - tb.toInt).natAbs then
    raiseAlarm h1 0x00B 0xFF (aYP_STAT a) (a + 256 * b)
  else h1

/-! ## Power-down and wake (R403 to R405) -/

/-- Router of a yard (R227). -/
abbrev yardRouter (y : Nat) : Nat := 10 + 8 * (y / 4) + y % 4

/-- Some pen of the yard is held by a task. -/
def anyHeld (h : Hw) (y : Nat) : Bool :=
  (List.range 8).any fun p => isSet h (aSCH_PENSTAT y) (fSCH_PENSTAT_HELD p)

/-- A context load or a non-resident switch is in progress in the yard. -/
def anyLoad (h : Hw) (y : Nat) : Bool :=
  (List.range 8).any fun p => (pen h (8 * y + p)).load.isSome || (pen h (8 * y + p)).nonres.isSome

/-- A write of `YP_CTL.MODE` to SLEEP (1) or DEEP-SLEEP (2). (DEDUCED, log 88) -/
def powerDownRequest (h : Hw) (y target : Nat) : Hw :=
  let x := yardPw h y
  if anyHeld h y then raiseBit h (aYP_STAT y) fYP_STAT_REFUSED
  else
    let h1 := setF h (aYP_CTL y) fYP_CTL_MODE target
    let now := getF h (aYP_STAT y) fYP_STAT_MODE
    if now = target ∧ ¬ x.stopped then h1
    else
      let trans (h : Hw) : Hw := setF h (aYP_STAT y) fYP_STAT_TRANS 1
      if now = 0 ∧ ¬ x.stopped then setYardPw (trans h1) y { x with want := some target }
      else if now = target then h1
      else if target = 2 then muckWriteBack (setYardPw (trans h1) y { x with settling := true }) y
      else setYardPw (trans h1) y { x with toSleep := true }

/-- A request that reaches the yard before the point of no return aborts its power-down (R241, R404). -/
def abortPowerDown (h : Hw) (y : Nat) : Hw :=
  let x := yardPw h y
  if x.want.isSome then
    let h1 := setYardPw h y { x with want := none, past := false }
    let h2 := setF (setF h1 (aYP_STAT y) fYP_STAT_TRANS 0) (aYP_CTL y) fYP_CTL_MODE 0
    bump (raiseBit h2 (aYP_STAT y) fYP_STAT_PDABORT) (aNY_WAKE y) fNY_WAKE_ABORTCNT 1
  else h

/-- Words inside the crossings into a yard when they close are lost and counted (R112). -/
def closeCrossings (h : Hw) (y : Nat) : Hw :=
  let into (x : XWord) : Bool :=
    match farEnd (x.key / 12) (x.key % 12) with
    | some g' => g' / 128 == y
    | none => false
  let gone := h.arr.xq.filter into
  let h1 := applyAll (fun h x => if x.tw.v then bump h (aPEN_XLOST (x.key / 192)) fPEN_XLOST_XCLOST 1 else h) h gone
  { h1 with arr.xq := h1.arr.xq.filter fun x => !(into x) }

/-- None of the yard's requests is outstanding: each was answered, and its answer delivered (R240). -/
def noRequests (h : Hw) (y : Nat) : Bool :=
  (getD [] h.noc.out (yardRouter y)).isEmpty && (getD [] h.noc.queued (yardRouter y)).isEmpty

/-- The power-down of a yard starts: nothing that it waits for is left, and the yard issues no new request (R404). -/
def powerDownStarts (h : Hw) (y : Nat) : Bool :=
  (yardPw h y).want.isSome && !(anyHeld h y) && !(anyLoad h y) && noRequests h y

/-- The yard's clock stops at an edge with a ≡ 0 mod 4 (R404); a waiting request then asks for a wake. (DEDUCED, log 172) -/
def clockStop (h : Hw) (y : Nat) : Hw :=
  let x := yardPw h y
  match x.want with
  | none => h
  | some t =>
    if frozen h ∨ h.aclk % 4 ≠ 0 ∨ ¬ powerDownStarts h y then h
    else
      let h1 := closeCrossings (setYardPw h y { x with want := none, past := false, stopped := true, settling := decide (t = 2) }) y
      if t = 1 then setF (setF h1 (aYP_STAT y) fYP_STAT_MODE 1) (aYP_STAT y) fYP_STAT_TRANS x.wake.toNat
      else muckWriteBack h1 y

/-- The rail has settled at retention: DEEP-SLEEP is reached (R404). -/
def retention (h : Hw) (y : Nat) : Hw :=
  let x := yardPw h y
  if x.settling ∧ ¬ frozen h then
    setF (setF (setYardPw h y { x with settling := false }) (aYP_STAT y) fYP_STAT_MODE 2) (aYP_STAT y) fYP_STAT_TRANS x.wake.toNat
  else h

/-- A write of `YP_CTL.MODE` to RUN: a wake, which waits while a power-down is in progress (R405). -/
def wakeRequest (h : Hw) (y : Nat) : Hw :=
  let x := yardPw h y
  let h1 := setF h (aYP_CTL y) fYP_CTL_MODE 0
  if x.stopped ∨ x.want.isSome then
    setF (setYardPw h1 y { x with wake := true }) (aYP_STAT y) fYP_STAT_TRANS 1
  else h1

/-- The wake completes at an edge with a ≡ 0 mod 4: rail at its code, clock restarted with its divide,
crossings open (R405). The
requests that waited are served by the network. -/
def wakeDone (h : Hw) (y : Nat) : Hw :=
  let x := yardPw h y
  if ¬ (x.wake ∧ x.stopped ∧ ¬ x.settling) ∨ h.aclk % 4 ≠ 0 ∨ frozen h then h
  else
    let h0 := if getF h (aYP_STAT y) fYP_STAT_MODE = 2 then railAtCode h y else h
    let h1 := setYardPw h0 y
      { yardPw h0 y with wake := false, byReq := false, stopped := false, toSleep := false, divDue := none }
    let h2 := setF (setF h1 (aYP_STAT y) fYP_STAT_MODE 0) (aYP_STAT y) fYP_STAT_TRANS 0
    let h3 := setF (setYardDiv h2 y (yardDiv h y)) (aYP_CTL y) fYP_CTL_MODE 0
    let h4 := setF h3 (aNY_WAKE y) fNY_WAKE_WAITING 0
    if x.byReq then bump h4 (aNY_WAKE y) fNY_WAKE_WAKECNT 1 else h4

end Sys2Proof.Machine
end

