-- ==== Sys2Proof/Machine/Banks.lean ====
section
/-!
DEFINITION. Who holds each bank port in a cycle of a yard (Table 7.3, R173 to R177), and what a cycle does at its
start and at its end whatever is commanded (R175, R189, R136).
-/

namespace Sys2Proof.Machine

/-! ## The ports at the start of a cycle (R173, R177) -/

/-- Bank ports of a yard: those of its pen memories and of its loft. -/
def portOf (y p : Nat) : Bool :=
  let i := p / 2
  if i < 1024 then i / 64 == y else (i - 1024) / 16 == y

/-- Class 1: the switches of a yard go on with their phases. -/
def claimSwitch (h : Hw) (n : Nat) : Hw :=
  match (pen h n).nonres with
  | some r => takePorts (setPen h n { pen h n with nonres := some { r with phase := r.phase + 1 } }) n
  | none => h

/-- Classes 2, 5 and 6: a buffer transfer of a trough asks for its port in the class of its side. -/
def claimBuffer (cls : Nat) (h : Hw) (key : Nat) : Hw :=
  [true, false].foldl (fun h drain =>
    match bufferPort h key drain with
    | some p => if bufferClass h key drain = cls then claimPort h p cls (key % 8) else h
    | none => h) h

/-- The bank port that the access of a flight needs in this cycle: that of a LOAD of the cycle before, or of a STORE
(Table 7.2). -/
def accessPort (h : Hw) (x : Flight) : Option Nat :=
  match x.dest, x.pay with
  | .store n w, _ => if x.due ≤ h.aclk then some (portKey (penBank n w).1 true) else none
  | _, .load n w _ _ .waiting => if x.due ≤ dueIn h (n / 8) 2 then some (portKey (penBank n w).1 false) else none
  | _, _ => none

/-- Class 3: LOAD and STORE, the lowest FU first. -/
def claimAccess (h : Hw) (g : Nat) : Hw :=
  applyAll (fun h p => claimPort h p 3 g) h ((h.arr.flights.filter fun x => x.g == g).filterMap fun x => accessPort h x)

/-- One bank's part of a context load: the next word of the victim written, or, when all are, the next word read. -/
def moveLoadWord (n k : Nat) (written : Bool) (h : Hw) (l : CtxLoad) : Hw × CtxLoad :=
  let words := if written then l.reads.getD k 0 else l.writes.getD k 0
  if words = 0 ∨ ¬ portIdle h (8 * n + k) (!written) then (h, l)
  else
    ({ h with arr.ports := insertAt h.arr.ports (portKey (8 * n + k) (!written)) ⟨4, 0, true⟩ },
      if written then { l with reads := l.reads.set k (words - 1) } else { l with writes := l.writes.set k (words - 1) })

/-- Class 4: a context load moves words through the ports that are left (R124). -/
def claimCtxLoad (h : Hw) (n : Nat) : Hw :=
  match (pen h n).load with
  | none => h
  | some l =>
    let r := (List.range 8).foldl (fun s k => moveLoadWord n k (l.writes.all (· == 0)) s.1 s.2) (h, l)
    setPen r.1 n { pen r.1 n with load := some r.2 }

/-- A loft port's streamers, in turn: of those that need it, the first after the one served last (R177). -/
def claimLoft (h : Hw) (y p : Nat) : Hw :=
  let last := (lookup h.arr.loftLast p).getD 15
  let wants (i : Nat) : Bool := streamReady h (8 * y + i / 2) (i % 2) && streamPort h (8 * y + i / 2) (i % 2) == p
  match ((List.range 16).map fun k => (last + 1 + k) % 16).find? wants with
  | some i => claimPort h p 1 i
  | none => h

/-- The ports of a yard at the start of a cycle, class by class, the lowest trough and the lowest FU first within a class
(R173, R177). -/
def openCycle (h : Hw) (y : Nat) : Hw :=
  let pens := (List.range 8).map fun p => 8 * y + p
  let keys := (h.arr.troughs.map (·.1)).filter fun k => k / 64 == y
  let fus := (h.arr.flights.map (·.g)).filter fun g => g / 128 == y
  let h0 := { h with arr.ports := h.arr.ports.filter fun e => !(portOf y e.1) }
  let h1 := applyAll claimSwitch h0 pens
  let h2 := applyAll (claimBuffer 2) h1 keys
  let h3 := applyAll claimAccess h2 ((List.range 128).filterMap fun f =>
    if fus.contains (128 * y + f) then some (128 * y + f) else none)
  let h4 := applyAll claimCtxLoad h3 pens
  let h6 := applyAll (claimBuffer 6) (applyAll (claimBuffer 5) h4 keys) keys
  applyAll (fun h k => claimLoft h y k) h6 ((List.range 32).map fun k => 2048 + 32 * y + k)

/-! ## The end of a cycle (R64, R136, R175, R189) -/

/-- A buffer transfer that was granted its port and not made yet (R175). -/
def endTransfer (s : Sparse Byte × Hw) (e : Nat × Claim) : Sparse Byte × Hw :=
  let wr := e.1 % 2 == 1
  if e.1 / 2 < 1024 ∧ ¬ e.2.used ∧ (e.2.cls = 2 ∨ e.2.cls = 5 ∨ e.2.cls = 6) then
    grantedTransfer s.1 s.2 (8 * (e.1 / 16) + e.2.num) wr
  else s

/-- A step of a side other than the array's was refused in this cycle: none was taken, and the trough is full, or is
empty and makes a pop wait (R188 to R190). -/
def sideRefused (h : Hw) (key : Nat) (push : Bool) : Bool :=
  let t := troughNow h key
  isSet h (aCfg key) fTRG_CFG_EN &&
    (if push then t.prodFu.isNone && producerRefused h key false
     else t.consFu.isNone && readableNow (depth h key) t == 0 && emptyRefuses h key)

/-- The request at the head of a pen's trough queue: its trough, and whether it pushes. -/
def headStep (h : Hw) (n : Nat) : Option (Nat × Bool) :=
  match (pen h n).dmaTrough with
  | [] => none
  | r :: _ =>
    if r.kind = 3 then some (8 * n + r.f.addr.toNat % 8, true)
    else if r.kind = 4 then some (8 * n + r.f.addr.toNat % 8, false)
    else none

/-- The trough steps that the network, the streamers and the forwarders of a pen wait with. -/
def otherSteps (h : Hw) (n : Nat) : List (Nat × Bool) :=
  (headStep h n).toList ++
    ((List.range 2).filterMap fun s =>
      if isSet h (aPS_CTL n s) fPS_CTL_EN && sidesName h n s then
        some (streamTrough h n s, !(isSet h (aPS_CTL n s) fPS_CTL_DIR))
      else none) ++
    (List.range 8).filterMap fun k => if getF h (aCfg (8 * n + k)) fTRG_CFG_CSIDE = 2 then some (8 * n + k, false) else none

/-- Their refusals, counted once a cycle each (R189). -/
def countRefused (h : Hw) (n : Nat) : Hw :=
  applyAll (fun h x => if sideRefused h x.1 x.2 then bump h (aTst x.1) fTRG_STAT_REFCNT 1 else h) h (otherSteps h n)

/-- The end of a cycle of a yard: bank accesses, buffer transfers, refusals and rejected lead words. -/
def closeCycle (m : Sparse Byte) (h : Hw) (y : Nat) : Sparse Byte × Hw :=
  let pens := (List.range 8).map fun p => 8 * y + p
  let h0 := applyAll countRefused h pens
  let h1 := applyAll (fun h g => if follows h g (fu h g).ctx then rejectLead m h g else h) h0
    ((List.range 128).map fun f => 128 * y + f)
  let s := pens.foldl (fun s n => closeAccesses s.1 s.2 n) (m, h1)
  (s.2.arr.ports.filter fun e => portOf y e.1).foldl endTransfer s

end Sys2Proof.Machine
end

