-- ==== Sys2Proof/Machine/Noc.lean ====
section
/-!
DEFINITION. The on-chip network: endpoints, routes, credits and response buffers, probes, the flits on their way with
their checks and retry, and the windows that its requests address (R227 to R239, R242 to R244, R19 to R22).
-/

namespace Sys2Proof.Machine

/-! ## Routers (R227, Table 9.1) -/

/-- What stands at a router. -/
inductive Endpoint where
  | jesd (j : Nat)
  | mac (m : Nat)
  | dc (c : Nat)
  | yard (y : Nat)
  | tu
  | lead (p : Nat)
  | cfg
  | pcie
  | mp
  | transit
deriving DecidableEq, Repr

/-- Table 9.1. (DEDUCED, log 52) -/
def endpointOf (r : Nat) : Endpoint :=
  if 10 ≤ r ∧ r ≤ 37 ∧ 2 ≤ r % 8 ∧ r % 8 ≤ 5 then .yard (4 * (r / 8 - 1) + (r % 8 - 2))
  else match r with
    | 0 => .jesd 0
    | 1 => .jesd 1
    | 2 => .mac 0
    | 3 => .mac 1
    | 4 => .mac 2
    | 5 => .mac 3
    | 6 => .jesd 2
    | 7 => .jesd 3
    | 8 => .dc 0
    | 15 => .dc 2
    | 16 => .dc 1
    | 23 => .dc 3
    | 17 => .tu
    | 24 => .lead 0
    | 31 => .lead 1
    | 25 => .cfg
    | 33 => .pcie
    | 38 => .mp
    | _ => .transit

/-- Domain code of an endpoint that a domain reset can quarantine (Table 19.5). -/
def domainOf : Endpoint → Option Nat
  | .yard y => some y
  | .jesd j => some (0x10 + j)
  | .mac m => some (0x14 + m)
  | .lead p => some (0x18 + p)
  | .dc c => some (0x1C + c)
  | .tu => some 0x20
  | _ => none

/-- The crossing to an endpoint is in quarantine and refuses requests (R464); those to a memory controller wait (R463). -/
def quarantinedAt (h : Hw) (r : Nat) : Bool :=
  match endpointOf r with
  | .dc _ => false
  | ep =>
    match domainOf ep with
    | some c => h.quarantined.getLsbD c
    | none => false

/-- A requester whose requests R32 restricts: array DMA and remote requests. -/
def restricted (src : Nat) : Bool :=
  match endpointOf src with
  | .yard _ | .lead _ => true
  | _ => false

/-! ## Routes (R231) -/

/-- The numbers from one to another, both ends included. -/
def fromTo (a b : Nat) : List Nat :=
  if a ≤ b then (List.range (b + 1 - a)).map (a + ·) else (List.range (a + 1 - b)).map (a - ·)

/-- The routers that a flit visits: along the row of its source to the column of its destination, then along that
column (R231). -/
def routeOf (src dst : Nat) : List Nat :=
  (fromTo (src % 8) (dst % 8)).map (8 * (src / 8) + ·) ++
    ((fromTo (src / 8) (dst / 8)).drop 1).map fun r => 8 * r + dst % 8

/-! ## Credits (R233 to R235) -/

/-- Pool of a requester at a destination: `NC_POOL`d (Table 9.8). -/
def poolOf (h : Hw) (d s : Nat) : Nat :=
  let a := (if s < 16 then aNC_POOL0 d else if s < 32 then aNC_POOL1 d else aNC_POOL2 d)
  (reg h a).toNat / 2 ^ (4 * (s % 16)) % 16

def setPool (h : Hw) (d s v : Nat) : Hw :=
  let a := (if s < 16 then aNC_POOL0 d else if s < 32 then aNC_POOL1 d else aNC_POOL2 d)
  setReg h a (BitVec.ofNat 64 (putField ⟨4 * (s % 16), 4, .rw, 0, .any⟩ (reg h a).toNat v))

/-- The default division of a destination's request buffers (Table 9.10). -/
def defaultPool (d s : Nat) : Nat :=
  match endpointOf d with
  | .yard _ =>
    match endpointOf s with
    | .pcie => 3
    | .mp => 2
    | .lead _ => 2
    | .jesd _ | .mac _ => 1
    | .yard _ => if s = d then 0 else 1
    | _ => 0
  | .dc _ =>
    match endpointOf s with
    | .tu => 15
    | .pcie => 11
    | .mp => 2
    | .lead _ => 2
    | _ => 0
  | .tu =>
    match endpointOf s with
    | .yard _ => 1
    | .pcie => 2
    | .mp => 10
    | .lead _ => 2
    | _ => 0
  | .transit => 0
  | _ =>
    match endpointOf s with
    | .pcie => 14
    | .mp => 14
    | .lead _ => 2
    | _ => 0

/-- The default division of every destination set (step 5 of Table 19.3). -/
def setDefaultPools (h : Hw) : Hw :=
  applyAll (fun h i => let v := defaultPool (i / 40) (i % 40)
    if v = 0 then h else setPool h (i / 40) (i % 40) v) h (List.range 1600)

/-- A division keeps the sum of 32 and the two minima (R233). (DEDUCED, log 51) -/
def poolsLegal (h : Hw) (d : Nat) : Bool :=
  let sum := (List.range 40).foldl (fun acc s => acc + poolOf h d s) 0
  let lead := match endpointOf d with
    | .yard _ | .dc _ | .tu => 2 ≤ poolOf h d 24 && 2 ≤ poolOf h d 31
    | _ => true
  sum ≤ 32 && 2 ≤ poolOf h d 33 && 2 ≤ poolOf h d 38 && lead

def outOf (h : Hw) (r : Nat) : List NocOut := getD [] h.noc.out r
def setOut (h : Hw) (r : Nat) (os : List NocOut) : Hw := { h with noc.out := setD [] h.noc.out r os }
def queueOf (h : Hw) (r : Nat) : List NocReq := getD [] h.noc.queued r
def setQueue (h : Hw) (r : Nat) (qs : List NocReq) : Hw := { h with noc.queued := setD [] h.noc.queued r qs }

/-- Credits of a requester in use at a destination. -/
def creditsUsed (h : Hw) (d s : Nat) : Nat :=
  (outOf h s).foldl (fun acc o => if o.req.f.dst.val = d then acc + o.cred else acc) 0

/-- Response buffers of a requester in use. -/
def buffersUsed (h : Hw) (s : Nat) : Nat := (outOf h s).foldl (fun acc o => acc + o.k) 0

/-- Flits of a request but for its route flit (Table 9.3). -/
def flitsOf (op : Nat) (f : Flit) : Nat := if op = 0xA ∨ op = 0xB then f.cnt.toNat + 1 else 1

/-- Credits that a request takes at its destination: one for each flit, and one for the route flit before it
(R234, R261). -/
def creditsOf (op : Nat) (f : Flit) : Nat := flitsOf op f + f.route.isSome.toNat

/-- Words that a request asks for or carries. -/
def wordsAsked (op : Nat) (f : Flit) : Nat := if op = 0xA ∨ op = 0xB then 8 * (f.cnt.toNat + 1) else f.cnt.toNat + 1

/-- Response buffers `RB` to `RB` + k − 1 hold no other request of the requester. -/
def buffersFree (h : Hw) (s rb k : Nat) : Bool :=
  (outOf h s).all fun o => (List.range k).all fun i =>
    let b := (rb + i) % 32
    !((List.range o.k).any fun j => (o.req.f.rb.toNat + j) % 32 == b)

def isRead (op : Nat) : Bool := op == 0 || op == 4 || op == 8 || op == 0xA

/-- The entry of a requester whose buffers hold `rb`, with the flit index. -/
def outAt (h : Hw) (r rb : Nat) : Option (NocOut × Nat) :=
  match (outOf h r).find? fun o => (rb + 32 - o.req.f.rb.toNat) % 32 < o.k with
  | some o => some (o, (rb + 32 - o.req.f.rb.toNat) % 32)
  | none => none

/-- The entry of a requester whose buffers hold `rb`, changed. -/
def setOutAt (h : Hw) (r rb : Nat) (f : NocOut → NocOut) : Hw :=
  setOut h r ((outOf h r).map fun o => if (rb + 32 - o.req.f.rb.toNat) % 32 < o.k then f o else o)

/-- Requests that wait in the request buffers of an endpoint: all of their flits have come, and no answer has freed
them (R236, `NR_STAT.WAITBUF`). -/
def waitingAt (h : Hw) (r : Nat) : Nat :=
  (List.range 40).foldl (fun acc s => acc + (outOf h s).countP fun o => o.req.f.dst.val == r && o.need.isEmpty && o.cred != 0) 0

/-! ## Probes (R242, R243) -/

/-- The 64-bit header of a flit (Table 9.2). -/
def flitHeader (dst src op cnt rb addr : Nat) : Nat :=
  dst + src * 2 ^ 6 + op * 2 ^ 12 + cnt * 2 ^ 16 + rb * 2 ^ 19 + addr * 2 ^ 24

/-- A word of a trace record: 72 bits of data and tag 0x80. -/
def traceWord (d : Nat) : TW := TW.ofTag (BitVec.ofNat 72 d) 0x80

/-- A probe record staged for its ring, after a drop marker where records were lost, or lost (R243). -/
def probeRecord (h : Hw) (k : Nat) (rec : TW × TW) : Hw :=
  let a := aNP_CTL k
  let staged := getD [] h.noc.probeStage k
  let lost := getD 0 h.noc.probeLost k
  let used := (getF h (aNP_TRPTR k) fNP_TRPTR_TRWR + 2 ^ 32 - getF h (aNP_TRPTR k) fNP_TRPTR_TRRD) % 2 ^ 32
  let room := 2 ^ getF h a fNP_CTL_LOG2 - used - staged.length
  let marker : TW × TW := (traceWord (min lost 0xFFFFFFFF + 2 ^ 65), traceWord (crdTick h % 2 ^ 64))
  let recs := if lost = 0 then [rec] else [marker, rec]
  if recs.length ≤ room ∧ staged.length + recs.length ≤ 16 then
    { h with noc.probeStage := setD [] h.noc.probeStage k (staged ++ recs), noc.probeLost := setD 0 h.noc.probeLost k 0 }
  else bump { h with noc.probeLost := setD 0 h.noc.probeLost k (lost + 1) } a fNP_CTL_DROPCNT 1

/-- A flit that enters (`inject`) or leaves the network at a router, seen by the probes that watch it: `EN` counts it,
`TREN` records it. -/
def probesSee (h : Hw) (inject : Bool) (router dst src op cnt rb addr : Nat) (ws : List TW) (resent : Bool) : Hw :=
  applyAll (fun h k =>
    let c := aNP_CTL k
    let mt := aNP_MATCH k
    let sm := getF h mt fNP_MATCH_SRCMSK
    let dm := getF h mt fNP_MATCH_DSTMSK
    let hit := getF h c fNP_CTL_POINT == inject.toNat && getF h c fNP_CTL_ROUTER == router &&
      (src &&& sm) == (getF h mt fNP_MATCH_SRC &&& sm) && (dst &&& dm) == (getF h mt fNP_MATCH_DST &&& dm) &&
      (getF h c fNP_CTL_OPMASK).testBit op &&
      (!(isSet h c fNP_CTL_ADREN) || (op < 0xC && getF h (aNP_ALO k) fNP_ALO_ADDR ≤ addr && addr ≤ getF h (aNP_AHI k) fNP_AHI_ADDR))
    if ¬ hit then h
    else
      let h1 := if isSet h c fNP_CTL_EN then
          bump (bump h (aNP_CNT k) fNP_CNT_COUNT 1) (aNP_WCNT k) fNP_WCNT_COUNT (ws.countP fun w => w.v)
        else h
      if isSet h1 c fNP_CTL_TREN then
        probeRecord h1 k (traceWord (flitHeader dst src op cnt rb addr + resent.toNat * 2 ^ 64), traceWord (crdTick h1 % 2 ^ 64))
      else h1) h (List.range 16)

/-- The words of flit j of a request. -/
def flitWords (op j : Nat) (f : Flit) : List TW := if op = 0xB then (f.words.drop (8 * j)).take 8 else f.words.take 8

/-- A request is, or is on behalf of, a probe's own trace write (R242). (DEDUCED, log 54) -/
def hiddenReq (h : Hw) (q : NocReq) : Bool :=
  match q.origin with
  | .probe _ => true
  | .part id _ _ _ _ =>
    match lookup h.noc.wholes id with
    | some ⟨.tu _ _ hidden, _, _, _, _⟩ => hidden
    | _ => false
  | _ => false

/-- Some flits of a request passing the source's router or the destination's. Each flit repeats the header (R232).
(DEDUCED, log 54) -/
def probeReq (h : Hw) (inject : Bool) (q : NocReq) (flits : List Nat) (resent : Bool) : Hw :=
  if hiddenReq h q then h
  else
    applyAll (fun h j =>
        probesSee h inject (if inject then q.f.src.val else q.f.dst.val) q.f.dst.val q.f.src.val q.op q.f.cnt.toNat
          q.f.rb.toNat q.f.addr.toNat (flitWords q.op j q.f) resent) h flits

/-- A flit of the response channel passing the answering router or the requester's. -/
def probeResp (h : Hw) (inject : Bool) (x : NocResp) : Hw :=
  if x.hidden then h
  else probesSee h inject (if inject then x.from_ else x.r) x.r x.from_ x.op x.cnt x.rb x.status x.words false

/-- The route flit before a request passing a router: it carries the request's `OP` and `RB`, and one word (R261).
(DEDUCED, log 183) -/
def probeRoute (h : Hw) (inject : Bool) (q : NocReq) : Hw :=
  match q.f.route with
  | none => h
  | some r =>
    probesSee h inject (if inject then q.f.src.val else q.f.dst.val) q.f.dst.val q.f.src.val q.op q.f.cnt.toNat
      q.f.rb.toNat q.f.addr.toNat [TW.data (BitVec.ofNat 72 (r.dev.toNat + r.xl.toNat * 2 ^ 6))] false

/-! ## Sending (R234, R235) -/

/-- A request put where its requester waits to send it. -/
def queueRequest (h : Hw) (r : NocReq) : Hw := setQueue h r.f.src.val (queueOf h r.f.src.val ++ [r])

/-- The response buffers that a request still needs are not to be had: too few are free, or none in a row. -/
def lacksBuffers (h : Hw) (q : NocReq) : Bool :=
  let s := q.f.src.val
  let k := flitsOf q.op q.f
  q.origin != .again &&
    (decide (32 < buffersUsed h s + k) || (List.range 32).all fun rb => !(buffersFree h s rb k))

/-- A request may be sent past those queued before it: none of them goes to its destination, and none of them waits for
response buffers (R234). -/
def mayPass (h : Hw) (before : List NocReq) (q : NocReq) : Bool :=
  before.all fun b => b.f.dst != q.f.dst && !(lacksBuffers h b)

/-- The requester holds the credits and the response buffers that a request needs (R234). -/
def holdsRoom (h : Hw) (q : NocReq) : Bool :=
  let s := q.f.src.val
  let k := flitsOf q.op q.f
  decide (creditsUsed h q.f.dst.val s + creditsOf q.op q.f ≤ poolOf h q.f.dst.val s) &&
    (q.origin == .again || (decide (buffersUsed h s + k ≤ 32) && buffersFree h s q.f.rb.toNat k))

/-- A request leaves its requester: its flits are on the way, and its copy is kept until it is answered (R234, R238). A
flit requested again takes a credit for its request, and keeps its response buffer (R239). -/
def launchReq (h : Hw) (q : NocReq) : Hw :=
  let s := q.f.src.val
  let k := flitsOf q.op q.f
  let h1 := match q.origin with
    | .again => setOutAt h s q.f.rb.toNat fun o =>
        { o with cred := o.cred + creditsOf q.op q.f, need := [(q.f.rb.toNat + 32 - o.req.f.rb.toNat) % 32] }
    | _ => setOut h s (outOf h s ++ [NocOut.mk q k (creditsOf q.op q.f) (List.range k) [] [] 0 false])
  let h2 := { h1 with noc.wire := h1.noc.wire ++ [NocFly.mk q (List.range k) false] }
  probeReq (probeRoute h2 true q) true q (List.range k) false

/-- A queued request is the one that the requester sends: the same but for the response buffer, which is chosen now. -/
def sameReq (op : Nat) (f : Flit) (r : NocReq) : Bool :=
  r.op == op && r.f.dst == f.dst && r.f.cnt == f.cnt && r.f.addr == f.addr && r.f.words == f.words && r.f.route == f.route &&
    (r.origin != .again || r.f.rb == f.rb)

/-- A request taken out of its requester's queue: those before it, the request, and those behind it. One that is not
queued is the requester's own, and issued now. (DESIGN CHOICE, log 55) -/
def takeQueued (h : Hw) (op : Nat) (f : Flit) : List NocReq × NocReq × List NocReq :=
  let q := queueOf h f.src.val
  match q.findIdx? (sameReq op f) with
  | some i => (q.take i, ⟨op, f, ((q[i]?).map (·.origin)).getD .own⟩, q.drop (i + 1))
  | none => (q, ⟨op, f, .own⟩, [])

/-- A request sent, once its credits and response buffers are available and no request that must go first waits; else
it waits in its requester's queue (R234). -/
def sendRequest (h : Hw) (op : Nat) (f : Flit) : Hw :=
  let x := takeQueued h op f
  let s := f.src.val
  if mayPass h x.1 x.2.1 ∧ holdsRoom h x.2.1 then launchReq (setQueue h s (x.1 ++ x.2.2)) x.2.1
  else if x.2.2.isEmpty ∧ x.1.length = (queueOf h s).length then queueRequest h x.2.1
  else h

/-- The requester has no pool at the destination: the request is taken from its queue and completes at once as FAULT
(R235). -/
def noCredit (h : Hw) (op : Nat) (f : Flit) : Hw :=
  let x := takeQueued h op f
  let h1 := raiseBit (setQueue h f.src.val (x.1 ++ x.2.2)) (aNR_STAT f.src.val) fNR_STAT_NOCRED
  { h1 with noc.status := 1, noc.words := if isRead op then List.replicate (wordsAsked op f) TW.refusedWord else [] }

/-! ## Answers -/

/-- The words cut into flits of eight. -/
def cutWords : Nat → List TW → List (List TW)
  | 0, _ => []
  | n + 1, ws => ws.take 8 :: cutWords n (ws.drop 8)

/-- Flits on the response channel, in order. -/
def putResps (h : Hw) (rs : List NocResp) : Hw :=
  applyAll (fun h r => probeResp { h with noc.resp := h.noc.resp ++ [r] } true r) h rs

/-- The destination answers: the response is on its way, the request's credits return (R230, R234). -/
def respond (h : Hw) (op : Nat) (f : Flit) (status : Nat) (ws : List TW) : Hw :=
  let s := f.src.val
  let k := flitsOf op f
  let rb := f.rb.toNat
  let hid := match outAt h s rb with
    | some o => hiddenReq h o.1.req
    | none => false
  let parts := if op = 0xA then cutWords k ws else [ws]
  let h1 := setOutAt h s rb fun o => { o with cred := if k = o.k then 0 else o.cred - k }
  let resps : List NocResp := (List.zip (List.range parts.length) parts).map fun p =>
    ⟨s, (rb + p.1) % 32, f.dst.val, if isRead op then 0xC else 0xD, f.cnt.toNat, status, p.2, hid⟩
  putResps h1 resps

/-- An answer of poisoned not-valid words, or of a write discarded. -/
def refuseReq (h : Hw) (op : Nat) (f : Flit) (status : Nat) : Hw :=
  respond h op f status (if isRead op then List.replicate (wordsAsked op f) TW.refusedWord else [])

/-- A request outstanding at its source was made by the host of another device (R29): its accesses are not
those that R32 restricts. -/
def fromHost (h : Hw) (f : Flit) : Bool :=
  match outAt h f.src.val f.rb.toNat with
  | some o =>
    match o.1.req.origin with
    | .chain _ src _ => src == 33
    | _ => false
  | none => false

/-- A request that R32 restricts. -/
def restrictedReq (h : Hw) (f : Flit) : Bool := restricted f.src.val && !(fromHost h f)

/-- A request that R32 refuses: answered FAULT, with a fault record for the requesters it names. (DEDUCED, log 39) -/
def refuseLogged (h : Hw) (op : Nat) (f : Flit) : Hw :=
  let h1 := if restrictedReq h f then postFinding h 0x0003 0x084 f.src.val f.addr.toNat 3 else h
  refuseReq h1 op f 1

/-- A poisoned completion counted and logged (R239). -/
def poisonedAt (h : Hw) (r : Nat) (addr : Nat) : Hw :=
  postFinding (bump h (aNR_STAT r) fNR_STAT_PSNCNT 1) 0x0004 0x0C1 r addr 0

/-! ## The way through the routers (R232, R237) -/

/-- A header check that a router on the way makes: a correction counts; an uncorrectable error discards the flit, and its
access never completes. -/
def hopCheck (way : List Nat) (opSrc dst : Nat) (op : Nat) (s : Bool × Hw) (x : Hop) : Bool × Hw :=
  if ¬ s.1 ∨ ¬ way.contains x.router.val then s
  else
    match x.chk with
    | .ok => s
    | .corrected => (true, bump s.2 (aNR_STAT x.router.val) fNR_STAT_HDRCE 1)
    | .uncorrectable =>
      (false, raiseAlarm (raiseBit s.2 (aNR_STAT x.router.val) fNR_STAT_HDRUE) 0x0C0 x.router.val 0
        (op + 16 * opSrc + 1024 * dst))

/-- Flit j of a packet goes from one router to another: whether it arrives. -/
def flitPasses (h : Hw) (from_ to_ op j : Nat) (hops : List Hop) : Bool × Hw :=
  (hops.filter fun x => x.flit.val == j).foldl (hopCheck (routeOf from_ to_) from_ to_ op) (true, h)

/-- The flits of a packet that arrive. -/
def flitsPass (h : Hw) (from_ to_ op : Nat) (flits : List Nat) (hops : List Hop) : List Nat × Hw :=
  flits.foldl (fun s j =>
    let r := flitPasses s.2 from_ to_ op j hops
    (if r.1 then s.1 ++ [j] else s.1, r.2)) ([], h)

/-- The next request packet from a source to a destination leaves the network, where it is the one named: packets between
two routers arrive in the order they were sent (R232). -/
def takeWire (h : Hw) (op : Nat) (f : Flit) : Option (NocFly × Hw) :=
  match h.noc.wire.find? fun w => w.req.f.src == f.src && w.req.f.dst == f.dst with
  | none => none
  | some w => if w.req.op = op ∧ w.req.f = f then some (w, { h with noc.wire := h.noc.wire.erase w }) else none

/-- The next flit of the response channel from a router to a requester leaves the network, where it answers `rb` with the
operation named. -/
def takeResp (h : Hw) (r rb op : Nat) (hops : List Hop) : Option (NocResp × Bool × Hw) :=
  match h.noc.resp.find? fun x => x.r == r && x.rb == rb && x.op == op with
  | none => none
  | some x =>
    match h.noc.resp.find? fun y => y.r == r && y.from_ == x.from_ with
    | none => none
    | some y =>
      if x ≠ y then none
      else
        let p := flitPasses { h with noc.resp := h.noc.resp.erase x } x.from_ r op 0 hops
        some (x, p.1, if p.1 then probeResp p.2 false x else p.2)

/-! ## Checks and retry of requests (R238) -/

/-- Flits awaited at a destination from a source, since their first check failed. -/
def awaited (h : Hw) (d s : Nat) : List Nat := getD [] h.noc.nacked (40 * d + s)
def setAwaited (h : Hw) (d s : Nat) (l : List Nat) : Hw :=
  { h with noc.nacked := setD [] h.noc.nacked (40 * d + s) l }

/-- A NACK for a flit of a request. -/
def sendNack (h : Hw) (f : Flit) (rb : Nat) : Hw :=
  putResps h [⟨f.src.val, rb, f.dst.val, 0xE, f.cnt.toNat, 0, [], false⟩]

/-- Flit j of a request is checked at its destination. It is taken in; or answered with a NACK, because its check fails for
the first time or because an earlier request of the same source is awaited again; or, resent and failing again, the whole
request is answered POISON. -/
def checkFlit (bad : BitVec 8) (q : NocReq) (h : Hw) (j : Nat) : Hw :=
  let f := q.f
  let d := f.dst.val
  let s := f.src.val
  let rb := (f.rb.toNat + j) % 32
  let ok := !(bad.getLsbD j)
  let fail (h : Hw) : Hw := bump h (aNR_STAT d) fNR_STAT_CRCCNT 1
  match outAt h s rb with
  | none => h
  | some (o, i) =>
    let mine (b : Nat) : Bool := (b + 32 - o.req.f.rb.toNat) % 32 < o.k
    let takeIn (h : Hw) : Hw := setOutAt h s rb fun o => { o with need := o.need.erase i }
    let l := awaited h d s
    if o.cred = 0 then h
    else if l.contains rb then
      if ok then takeIn (setAwaited h d s (l.erase rb))
      else refuseReq (poisonedAt (fail (setAwaited h d s (l.filter fun b => !mine b))) d f.addr.toNat) q.op f 2
    else if l.any fun b => !mine b then sendNack (if ok then h else fail h) f rb
    else if ok then takeIn h
    else sendNack (fail (setAwaited h d s (l ++ [rb]))) f rb

/-- A request's header reaches a yard: it aborts a power-down, or comes after the point of no return, from which on every
request waits (R241). -/
def headerAt (h : Hw) (d : Nat) (late : Bool) : Hw :=
  match endpointOf d with
  | .yard y =>
    let x := yardPw h y
    if x.want.isNone then h
    else if late ∨ x.past then setYardPw h y { x with past := true }
    else abortPowerDown h y
  | _ => h

/-- A request packet arrives: its header checks, its flits' CRC, and the request where all of its flits have come (R237,
R238, R241). -/
def arrivePacket (h : Hw) (op : Nat) (f : Flit) (pass : Passage) : Option NocReq × Hw :=
  if frozen h then (none, h)
  else
    match takeWire h op f with
    | none => (none, h)
    | some (w, h1) =>
      let p := flitsPass h1 f.src.val f.dst.val op w.flits pass.hops
      if p.1.isEmpty then (none, p.2)
      else
        let h2 := probeReq (if w.resent then p.2 else probeRoute p.2 false w.req) false w.req p.1 w.resent
        let h3 := p.1.foldl (checkFlit pass.bad w.req) (headerAt h2 f.dst.val pass.late)
        match outAt h3 f.src.val f.rb.toNat with
        | none => (none, h3)
        | some (o, _) => (if o.need.isEmpty ∧ o.cred ≠ 0 then some w.req else none, h3)

/-- The request for flit i of an answer once more: the words of that flit, into its response buffer (R239).
(DEDUCED, log 184) -/
def againReq (q : NocReq) (i : Nat) : NocReq :=
  let f := q.f
  let dram := f.dst.val == 17 || (f.route.map (·.xl)) == some true || decide (f.addr.toNat < 0x1000000000)
  let word := if dram then 10 else 16
  if q.op = 0xA then
    ⟨q.op, { f with cnt := 0, rb := BitVec.ofNat 5 (f.rb.toNat + i), addr := BitVec.ofNat 40 (f.addr.toNat + 8 * i * word) }, .again⟩
  else { q with origin := .again }

/-- A NACK arrives: the requester sends the flit again (R238). -/
def deliverNack (h : Hw) (r rb : Nat) (pass : Passage) : Hw :=
  if frozen h then h
  else
    match takeResp h r rb 0xE pass.hops with
    | none => h
    | some (_, false, h1) => h1
    | some (_, true, h1) =>
      match outAt h1 r rb with
      | none => h1
      | some (o, i) =>
        let w : NocFly := if o.asked.contains i then ⟨againReq o.req i, [0], true⟩ else ⟨o.req, [i], true⟩
        probeReq { h1 with noc.wire := h1.noc.wire ++ [w] } true w.req w.flits true

/-! ## Windows (R19 to R23) -/

/-- A slot of a window: pen (below 128) or loft (128 + yard), and word. -/
def slotOf (a : Nat) : Option (Nat × Nat) :=
  if 0x1000000000 ≤ a ∧ a < 0x1002000000 then some ((a - 0x1000000000) / 0x40000, (a - 0x1000000000) % 0x40000 / 16)
  else if 0x1002000000 ≤ a ∧ a < 0x1004000000 then
    some (128 + (a - 0x1002000000) / 0x200000, (a - 0x1002000000) % 0x200000 / 16)
  else none

/-- Router of link j (Table 9.1). -/
def jesdRouter (j : Nat) : Nat := if j < 2 then j else j + 4

/-- Yard of a window. -/
def slotYard (mem : Nat) : Nat := if mem < 128 then mem / 8 else mem - 128

/-- First byte of a slot. -/
def slotByte (mem w : Nat) : Nat := if mem < 128 then penWord mem w else loftWord (mem - 128) w

/-- Bank and row of a slot. -/
def slotBank (mem w : Nat) : Nat × Nat := if mem < 128 then penBank mem w else loftBank (mem - 128) w

/-- The yard that serves an address, for windows and yard register blocks. -/
def yardOf (a : Nat) : Option Nat :=
  match slotOf a with
  | some (mem, _) => some (slotYard mem)
  | none => if regionBase ≤ a ∧ a < regionBase + 0x1000000 then some ((a - regionBase) / 0x100000) else none

/-- The router at which an address is served (Table 9.1). (DEDUCED, log 188) -/
def routerOf (a : Nat) : Nat :=
  match yardOf a with
  | some y => yardRouter y
  | none =>
    if a < 0x1000000000 then dcRouter (lineChannel (a / 60))
    else if 0x1004000000 ≤ a ∧ a < 0x1004400000 then 25
    else
      match locate a with
      | some (.dc, c, _) => dcRouter c
      | some (.tu, _, _) => 17
      | some (.jl, j, _) => jesdRouter j
      | some (.eth, m, _) => 2 + m
      | some (.ethp, i, _) => 2 + i / 4
      | some (.lk, p, _) => if p = 0 then 24 else 31
      | some (.ch, _, _) => 24
      | _ => 38

/-- A window word read with its check (R22, R200, R428). -/
def windowRead (m : Sparse Byte) (h : Hw) (mem w : Nat) (e : Ecc) : TW × Hw :=
  if 128 ≤ mem then readLoftWord m h (mem - 128) w e
  else
    let r := readPenWord m h mem w e
    (r.1, r.2.1)

/-- A window word written whole. -/
def windowWrite (m : Sparse Byte) (h : Hw) (mem w : Nat) (t : TW) : Sparse Byte :=
  if rowBad h (slotBank mem w) then m else writeWord m (slotByte mem w) t

/-- A word with some of its ten bytes replaced: `bs` are (byte of the slot, value); bytes 10 to 15 are ignored (R20, R21). -/
def mergeSlot (old : TW) (bs : List (Nat × Byte)) : TW :=
  let bytes := (List.zip (List.range 10) (leBytes 9 old.d.toNat ++ [old.tag])).map fun x =>
    match bs.find? fun b => b.1 == x.1 with
    | some b => b.2
    | none => x.2
  TW.ofTag (BitVec.ofNat 72 (leNat (bytes.take 9))) (bytes.getD 9 0)

/-- A write covers bytes 0 to 9 of a slot. -/
def coversSlot (bs : List (Nat × Byte)) : Bool := (List.range 10).all fun i => bs.any fun b => b.1 == i

/-- Slots of a window that a request addresses, all in one memory; none where the address is refused. -/
def windowSlots (op : Nat) (f : Flit) : Option (Nat × List Nat) :=
  let a := f.addr.toNat
  match slotOf a with
  | none => none
  | some (mem, w) =>
    let size := if mem < 128 then 16384 else 131072
    let n := wordsAsked op f
    if a % 16 ≠ 0 ∨ size < w + n then none else some (mem, (List.range n).map fun i => w + i)

/-- The byte enables and bytes of a WRMASK as (address, byte). -/
def maskedBytes (f : Flit) : List (Nat × Byte) :=
  let en := (f.words.drop 7).headD TW.notValid
  let bytes := bytesOfWords (f.words.take 7)
  ((List.zip (List.range 70) bytes).filter fun x => en.d.getLsbD x.1).map fun x => (f.addr.toNat + x.1, x.2)

/-- Slots that a WRMASK touches, with the bytes of each: (slot number, bytes). -/
def maskedSlots (f : Flit) : List (Nat × List (Nat × Byte)) :=
  let bs := maskedBytes f
  ((List.range 6).map fun i =>
    let sl := f.addr.toNat / 16 + i
    (sl, ((bs.filter fun b => b.1 / 16 == sl).map fun b => (b.1 % 16, b.2)).filter fun b => b.1 < 10)).filter
      fun x => !x.2.isEmpty

end Sys2Proof.Machine
end

