-- ==== Sys2Proof/Machine/Farrier.lean ====
section
/-!
DEFINITION. Ageing measurement, margin re-planning, the life report and the ledger in the boot flash
(R412 to R427, R201).
-/

namespace Sys2Proof.Machine

def yardAge (h : Hw) (y : Nat) : YardAge := getD YardAge.zero h.age y
def setYardAge (h : Hw) (y : Nat) (x : YardAge) : Hw := { h with age := setD YardAge.zero h.age y x }

/-! ## Monitors (R412 to R414, R427) -/

/-- The MON enable of the mode a yard is in (Table 16.3). -/
def monOn (h : Hw) (y : Nat) : Bool :=
  match getF h (aYP_STAT y) fYP_STAT_MODE with
  | 0 => enabledNow h y fYP_CLKEN_RUNMON
  | 1 => enabledNow h y fYP_CLKEN_SLPMON
  | _ => enabledNow h y fYP_CLKEN_DEEPMON

/-- A slack window starts (R412); a write while one runs is ignored. -/
def windowStart (h : Hw) (y : Nat) : Hw :=
  if isSet h (aAG_SLACKMAP y) fAG_SLACKMAP_BUSY ∨ frozen h then h
  else
    let h1 := setReg h (aAG_SLACK y) 0
    raiseBit (setReg h1 (aAG_SLACKMAP y) 0) (aAG_SLACKMAP y) fAG_SLACKMAP_BUSY

/-- The window ends with its counts; outside RUN the monitors were idle. -/
def windowEnd (h : Hw) (y near trans map : Nat) : Hw :=
  if ¬ isSet h (aAG_SLACKMAP y) fAG_SLACKMAP_BUSY ∨ frozen h then h
  else if ¬ (yardRuns h y ∧ monOn h y) then setF h (aAG_SLACKMAP y) fAG_SLACKMAP_BUSY 0
  else
    let h1 := setReg h (aAG_SLACK y) (BitVec.ofNat 64 (near % 2 ^ 32 + trans % 2 ^ 32 * 2 ^ 32))
    setReg h1 (aAG_SLACKMAP y) (BitVec.ofNat 64 (map % 2 ^ 32))

/-- An oscillator measurement starts (R413). -/
def roStart (h : Hw) (y : Nat) : Hw :=
  if isSet h (aAG_STAT y) fAG_STAT_ROBUSY ∨ ¬ monOn h y ∨ frozen h then h else raiseBit h (aAG_STAT y) fAG_STAT_ROBUSY

/-- Shift of pair k: (1 − `SCNT` / `UCNT`) × 10^6 ppm. (DEDUCED, log 215) -/
def pairShift (h : Hw) (y k : Nat) : Nat :=
  let s := getF h (aAG_RO y k) fAG_RO_SCNT
  let u := getF h (aAG_RO y k) fAG_RO_UCNT
  if u = 0 then 0 else (u - s) * 1000000 / u

def largestShift (h : Hw) (y : Nat) : Nat := (List.range 4).foldl (fun acc k => max acc (pairShift h y k)) 0

/-! ## Life (R420, R421) -/

/-- Life consumed by a yard in 1/100 %. -/
def yardLife (h : Hw) (y : Nat) : Nat :=
  min 65535 (max (10000 * largestShift h y / 60000) (10000 * getF h (aAG_EM y) fAG_EM_PPM / 100000))

def deviceLife (h : Hw) : Nat := (List.range 16).foldl (fun acc y => max acc (yardLife h y)) 0

/-- `LIFE_WARN` and `LIFE_END` at 8,000 and 10,000. -/
def lifeAlarms (h : Hw) : Hw :=
  let l := deviceLife h
  let h1 := if 8000 ≤ l then raiseCondition h 0x012 0xFF 0 l else h
  if 10000 ≤ l then raiseCondition h1 0x013 0xFF 0 l else h1

/-- The measurement ends: counts of the four pairs. -/
def roEnd (h : Hw) (y : Nat) (counts : List (BitVec 32 × BitVec 32)) : Hw :=
  if ¬ isSet h (aAG_STAT y) fAG_STAT_ROBUSY ∨ frozen h then h
  else
    let h1 := applyAll (fun h c => setReg h (aAG_RO y c.1) (BitVec.ofNat 64 (c.2.1.toNat + c.2.2.toNat * 2 ^ 32)))
      h (List.zip (List.range 4) counts)
    lifeAlarms (setF h1 (aAG_STAT y) fAG_STAT_ROBUSY 0)

/-- The electromigration monitor updates (R414). -/
def emUpdate (h : Hw) (y ppm : Nat) : Hw :=
  if frozen h then h else lifeAlarms (setF h (aAG_EM y) fAG_EM_PPM ppm)

/-- The rate reference (R421). -/
def rateReference (h : Hw) (hours : Nat) : Hw :=
  if frozen h then h else lifeAlarms { h with hours := hours, rateRef := some (deviceLife h, hours) }

/-- Projected remaining life in 1/100 years, as `AGE_REPORT` returns it. (DEDUCED, log 215) -/
def projectedLife (h : Hw) : Nat :=
  let l := deviceLife h
  match h.rateRef with
  | none => if 10000 ≤ l then 0 else 0xFFFF
  | some (lr, hr) =>
    if 10000 ≤ l then 0
    else if l ≤ lr then 0xFFFF
    else min 0xFFFE (100 * (10000 - l) * (h.hours - hr) / ((l - lr) * 8766))

/-! ## Re-planning (R415 to R419) -/

/-- A rail moved to a code and settled; before a raise, neighbours more than 30 below are raised (R416). -/
def stepTo (h : Hw) (y x : Nat) : Hw :=
  let put (h : Hw) (z c : Nat) : Hw := setF (setF h (aYP_VOLT z) fYP_VOLT_CODE c) (aYP_VOLT z) fYP_VOLT_ACT c
  let h1 := applyAll (fun h z => if yardCode h z + 30 < x then put h z (x - 30) else h) h (neighbours y)
  put h1 y x

/-- The lowest code a plan may reach. -/
def planFloor (h : Hw) (y : Nat) : Nat :=
  max ((yardAge h y).floor.getD 0) ((neighbours y).foldl (fun acc z => max acc (yardCode h z - 30)) 0)

/-- A window is valid, and clear (R412). -/
def winValid (w : SlackWin) : Bool := 65536 ≤ w.trans.toNat
def winClear (w : SlackWin) : Bool := winValid w && w.near == 0

/-- One step of margin, and the plan is valid. (DEDUCED, log 90) -/
def planMargin (h : Hw) (y c : Nat) : Hw :=
  let h1 := stepTo h y (min (c + 1) 56)
  setYardAge h1 y { yardAge h1 y with shiftValid := largestShift h1 y }

/-- The lowering of a daily re-plan: one code at a time while its window is clear. -/
def planLower (h : Hw) (y lo : Nat) : Nat → List SlackWin → Hw
  | c, w :: ws =>
    if c ≤ lo then planMargin h y c
    else if winClear w then planLower (stepTo h y (c - 1)) y lo (c - 1) ws
    else planMargin (stepTo (stepTo h y (c - 1)) y c) y c
  | c, [] => if c ≤ lo then planMargin h y c else stepTo h y c

/-- How the raising part of a re-plan ends: with a clear window and the windows left, with none at code 56, or
with no further window known. -/
inductive Raised where
  | clear (left : List SlackWin)
  | noMargin
  | unknown
deriving DecidableEq, Repr

/-- The raising part: windows from code c on until one is clear. -/
def planRaise (h : Hw) (y c : Nat) : List SlackWin → Hw × Nat × Raised
  | [] => (h, c, .unknown)
  | w :: ws =>
    if winClear w then (h, c, .clear ws)
    else if c = 56 then (h, c, .noMargin)
    else planRaise (stepTo h y (c + 1)) y (c + 1) ws

/-- Temperatures of two neighbours of the yard, or of the yard and one, differ by more than 25 °C. -/
def spread (h : Hw) (y : Nat) : Bool :=
  let t (z : Nat) : Int := (BitVec.ofNat 13 (getF h (aYP_STAT z) fYP_STAT_TEMP)).toInt
  (neighbours y).any fun z => 400 < (t y - t z).natAbs

/-- The body of R416 at the divide in force; false where the fall-back applies. -/
def planBody (h : Hw) (y : Nat) (lowering : Bool) (ws : List SlackWin) : Hw × Bool × List SlackWin :=
  let lo := planFloor h y
  let c := min 56 (max (yardCode h y) lo)
  match ws with
  | [] => (h, true, [])
  | w :: rest =>
    if ¬ winValid w then
      let c' := min 56 (c + (largestShift h y - (yardAge h y).shiftValid + 1999) / 2000)
      (stepTo h y c', true, rest)
    else
      let h0 := if yardCode h y < c then stepTo h y c else h
      let r := planRaise h0 y c (w :: rest)
      match r.2.2 with
      | .noMargin => (r.1, false, (w :: rest).drop (57 - c))
      | .unknown => (r.1, true, [])
      | .clear ws' =>
        if lowering ∧ ¬ spread h y then (planLower r.1 y lo r.2.1 ws', true, [])
        else (planMargin r.1 y r.2.1, true, [])

/-- The fall-back of R417. (DEDUCED, log 91) -/
def fallBack (h : Hw) (y : Nat) (ws : List SlackWin) : Hw :=
  if yardDiv h y = 0 then
    let h1 := setF h (aYP_CTL y) fYP_CTL_DIV 1
    let h2 := setYardPw h1 y { yardPw h1 y with divDue := some h1.aclk }
    let h3 := setYardAge h2 y { yardAge h2 y with fallback := true }
    let h4 := raiseAlarm h3 0x010 0xFF (aYP_STAT y) y
    let r := planBody h4 y true ws
    if r.2.1 then r.1 else raiseAlarm r.1 0x011 0xFF (aYP_STAT y) y
  else raiseAlarm h 0x011 0xFF (aYP_STAT y) y

/-- The re-plan proper, with its fall-back (R416, R417). -/
def planYard (h : Hw) (y : Nat) (daily : Bool) (ws : List SlackWin) : Hw :=
  let r := planBody h y daily ws
  if r.2.1 then r.1 else fallBack r.1 y r.2.2

/-- A commanded re-plan of a yard in fall-back whose program is STOPPED first tries ACLK/1 at code 56, and goes
on at the divide that results (R418). (DEDUCED, log 174) -/
def tryFullRate (h : Hw) (y : Nat) : List SlackWin → Hw
  | [] => h
  | w :: rest =>
    let h1 := stepTo h y 56
    if winClear w then
      let h2 := setF h1 (aYP_CTL y) fYP_CTL_DIV 0
      let h3 := setYardPw h2 y { yardPw h2 y with divDue := some h2.aclk }
      planYard (setYardAge h3 y { yardAge h3 y with fallback := false }) y false rest
    else planYard h1 y false rest

/-- A re-plan of a yard, with the windows it meets in order (R415 to R418). -/
def replanYard (h : Hw) (y : Nat) (why : ReplanWhy) (ws : List SlackWin) : Hw :=
  let t := BitVec.ofNat 13 (getF h (aYP_STAT y) fYP_STAT_TEMP)
  if frozen h then h
  else if why = .moved ∧ ¬ (yardAge h y).owed ∧ (t.toInt - (yardAge h y).lastTemp.toInt).natAbs ≤ 160 then h
  else if ¬ yardRuns h y then setYardAge h y { yardAge h y with owed := true }
  else
    let far (z : Nat) : Bool := 400 < (t.toInt - (BitVec.ofNat 13 (getF h (aYP_STAT z) fYP_STAT_TEMP)).toInt).natAbs
    let h := setYardAge h y { yardAge h y with lastTemp := t, owed := false }
    -- a move of one of two neighbours that differ by more than 25 °C has both re-planned (R415)
    let h := if why = .moved then
        applyAll (fun h z => setYardAge h z { yardAge h z with owed := true }) h ((neighbours y).filter far)
      else h
    if why = .commanded ∧ (yardAge h y).fallback ∧ ¬ fnRunning h (fnId 3 y) ∧ divFits h y 0 then tryFullRate h y ws
    else planYard h y (why == .daily) ws

/-! ## The ledger (R422 to R426) -/

/-- CRC-32 of R247: polynomial 0x04C1_1DB7 over the bits in ascending order, initial value 0xFFFF_FFFF,
result complemented. -/
def crc32 (bs : List Byte) : Nat :=
  let step (c : Nat) : Nat := if c.testBit 0 then (c / 2) ^^^ 0xEDB88320 else c / 2
  (bs.foldl (fun c b => (List.range 8).foldl (fun c _ => step c) (c ^^^ b.toNat)) 0xFFFFFFFF) ^^^ 0xFFFFFFFF

/-- First flash byte of a ledger slot (Table 19.2). -/
abbrev ledgerBase (slot : Nat) : Nat := if slot = 0 then 0x00010000 else 0x00020000

/-- A page of Table 17.2. -/
def ledgerPage (seq kind idx : Nat) (payload : List Byte) : List Byte :=
  let body := [0x4C#8, 0x44#8, 0x47#8, 0x52#8] ++ leBytes 4 seq ++ leBytes 1 kind ++ leBytes 1 idx ++ leBytes 2 0 ++
    ((payload ++ List.replicate 240 0).take 240)
  body ++ leBytes 4 (crc32 body)

/-- A list cut into pieces of at most n. -/
def chunks {α : Type} (n : Nat) : Nat → List α → List (List α)
  | 0, _ => []
  | fuel + 1, xs => if xs.isEmpty then [] else xs.take n :: chunks n fuel (xs.drop n)

/-- The spare rows in use or failed, as (bank, spare). -/
def repairEntries (h : Hw) : List (Nat × Nat) :=
  ((List.range 1280).filter fun i => reg h (aRPR_BANK i) ≠ 0).flatMap fun i =>
    ((List.range 4).filter fun j => isSet h (aRPR_BANK i) (fRPR_BANK_USED j) || isSet h (aRPR_BANK i) (fRPR_BANK_FAILED j)).map
      fun j => (i, j)

/-- The pages of a ledger, kind and payload, from the directory to the commit page (Table 17.3). -/
def ledgerPages (h : Hw) (uid : Nat) : List (Nat × List Byte) :=
  let repair := (chunks 40 200 (repairEntries h)).map fun es =>
    (0x02, (es.map fun e =>
      leBytes 2 e.1 ++ leBytes 1 (e.2 + 4 * getF h (aRPR_BANK e.1) (fRPR_BANK_USED e.2) + 8 * getF h (aRPR_BANK e.1) (fRPR_BANK_FAILED e.2)) ++
        leBytes 1 0 ++ leBytes 2 (getF h (aRPR_BANK e.1) (fRPR_BANK_ROW e.2))).flatten)
  let bad := (chunks 60 4 h.badRows).map fun es => (0x03, (es.map fun e => leBytes 4 (e.1 + e.2 * 2 ^ 11)).flatten)
  let degr := [(0x04, ((List.range 20).map fun j => leBytes 8 (reg h (aRPR_DEGR j)).toNat).flatten)]
  let age := (List.range 2).map fun i =>
    (0x05, ((List.range 8).map fun k =>
      let y := 8 * i + k
      leBytes 2 (yardLife h y) ++ leBytes 4 (largestShift h y) ++ leBytes 4 (getF h (aAG_EM y) fAG_EM_PPM) ++
        leBytes 4 (yardAge h y).shiftValid ++ leBytes 16 0).flatten)
  let plan := [(0x06, ((List.range 16).map fun y =>
      leBytes 1 (yardCode h y) ++ leBytes 1 (yardDiv h y) ++ leBytes 1 ((yardAge h y).floor.getD 0xFF) ++
        leBytes 1 (yardAge h y).fallback.toNat).flatten ++
      leBytes 2 ((h.rateRef.getD (0, 0)).1) ++ leBytes 4 ((h.rateRef.getD (0, 0)).2))]
  let mid := repair ++ bad ++ degr ++ age ++ plan
  let n := mid.length + 2
  (0x01, leBytes 2 n ++ leBytes 16 uid ++ leBytes 4 h.hours) :: mid ++ [(0xFF, leBytes 2 n)]

/-- Flash bytes: an erased byte reads 0xFF. -/
def flashByte (fl : Sparse Byte) (a : Nat) : Byte := getD 0xFF fl a
def flashBytes (fl : Sparse Byte) (a n : Nat) : List Byte := (List.range n).map fun i => flashByte fl (a + i)

/-- Bytes programmed into erased flash. -/
def programFlash (fl : Sparse Byte) (a : Nat) : List Byte → Sparse Byte
  | [] => fl
  | b :: bs => programFlash (setD 0xFF fl a b) (a + 1) bs

/-- An erase of n bytes. -/
def eraseFlash (fl : Sparse Byte) (a n : Nat) : Sparse Byte := fl.filter fun e => e.1 < a || a + n ≤ e.1

/-- A ledger write into the slot that does not hold the newest valid ledger (R422). (PRESUMED, log 92) -/
def ledgerWrite (nv : Nv) (h : Hw) (uid : Nat) (cut : Option Nat) : Nv × Hw :=
  let slot := match h.ledger with
    | some (s, _) => 1 - s
    | none => 0
  let seq := match h.ledger with
    | some (_, q) => (q + 1) % 2 ^ 32
    | none => 1
  let pages := ledgerPages h uid
  let put (n : Nat) : Sparse Byte := programFlash (eraseFlash nv.flash (ledgerBase slot) 0x10000) (ledgerBase slot)
    ((List.zip (List.range n) (pages.take n)).map fun p => ledgerPage seq p.2.1 p.1 p.2.2).flatten
  let torn := if nv.torn.any (·.1 == slot) then none else nv.torn
  match cut with
  | some k =>
    if k ≤ pages.length then ({ nv with flash := put k, torn := some (slot, k) }, h)
    else ({ nv with flash := put pages.length, torn := torn }, { h with ledger := some (slot, seq) })
  | none => ({ nv with flash := put pages.length, torn := torn }, { h with ledger := some (slot, seq) })

/-- The bytes of a page as one read gives them: in a page whose write was cut, every bit meant to be 0 is open, with
`noise` the open values of this read (R425). -/
def pageBytes (nv : Nv) (noise slot i : Nat) : List Byte :=
  let p := flashBytes nv.flash (ledgerBase slot + 256 * i) 256
  if nv.torn = some (slot, i + 1) then
    (List.zip (List.range 256) p).map fun b => b.2 ||| BitVec.ofNat 8 (Config.freeNat (noise + b.1))
  else p

/-- A page of a slot read twice: sequence, kind, index and payload where both reads agree and magic and CRC are right
(R424). -/
def readPage (nv : Nv) (noise slot i : Nat) : Option (Nat × Nat × Nat × List Byte) :=
  let p := pageBytes nv noise slot i
  if p ≠ pageBytes nv (noise + 256) slot i then none
  else if leNat (p.take 4) = 0x5247444C ∧ leNat (p.drop 252) = crc32 (p.take 252) then
    some (leNat ((p.drop 4).take 4), (p.getD 8 0).toNat, (p.getD 9 0).toNat, (p.drop 12).take 240)
  else none

/-- The pages of a valid slot with its sequence number; one whose erase was cut has no commit page (R424, R425). -/
def readSlot (nv : Nv) (noise slot : Nat) : Option (Nat × List (Nat × List Byte)) :=
  if nv.torn = some (slot, 0) then none
  else
  match readPage nv noise slot 0 with
  | none => none
  | some (seq, kind, _, pay) =>
    let n := leNat (pay.take 2)
    let pages := (List.range n).filterMap fun i => readPage nv noise slot i
    let good := kind == 1 && 2 ≤ n && n ≤ 256 && pages.length == n && pages.all (fun p => p.1 == seq) &&
      (match pages.getLast? with
       | some p => p.2.1 == 0xFF
       | none => false)
    if good then some (seq, pages.map fun p => (p.2.1, p.2.2.2)) else none

/-- The slot that firmware loads: the valid one with the higher sequence number modulo 2^32 (R424). -/
def chooseSlot (nv : Nv) (noise : Nat) (differ : List (Fin 2)) : Option (Nat × Nat × List (Nat × List Byte)) :=
  let slot (k : Fin 2) := if k ∈ differ then none else readSlot nv noise k.val
  match slot 0, slot 1 with
  | some a, some b => if (b.1 + 2 ^ 32 - a.1) % 2 ^ 32 < 2 ^ 31 ∧ b.1 ≠ a.1 then some (1, b) else some (0, a)
  | some a, none => some (0, a)
  | none, some b => some (1, b)
  | none, none => none

/-- Repairs, bad rows, degraded banks, ageing and the margin plan taken from a page. (DEDUCED, log 215) -/
def loadPage (h : Hw) (ages : Nat) (kind : Nat) (p : List Byte) : Hw :=
  let at16 (o : Nat) : Nat := leNat ((p.drop o).take 2)
  let at32 (o : Nat) : Nat := leNat ((p.drop o).take 4)
  let at8 (o : Nat) : Nat := (p.getD o 0).toNat
  match kind with
  | 0x01 => { h with hours := at32 18 }
  | 0x02 =>
    applyAll (fun h e =>
      let fl := at8 (6 * e + 2)
      let i := at16 (6 * e)
      let j := fl % 4
      if fl / 4 % 4 = 0 then h
      else
        setF (setF (setF h (aRPR_BANK i) (fRPR_BANK_USED j) (fl / 4 % 2)) (aRPR_BANK i) (fRPR_BANK_FAILED j) (fl / 8 % 2))
          (aRPR_BANK i) (fRPR_BANK_ROW j) (at16 (6 * e + 4))) h (List.range 40)
  | 0x03 =>
    applyAll (fun h e =>
      let v := at32 (4 * e)
      if v = 0 then h else { h with badRows := h.badRows ++ [(v % 2 ^ 11, v / 2 ^ 11 % 2 ^ 13)] }) h (List.range 60)
  | 0x04 =>
    applyAll (fun h j => setReg h (aRPR_DEGR j) (BitVec.ofNat 64 (leNat ((p.drop (8 * j)).take 8)))) h (List.range 20)
  | 0x05 =>
    applyAll (fun h k =>
      let y := 8 * ages + k
      setYardAge h y { yardAge h y with shiftValid := at32 (30 * k + 10) }) h (List.range 8)
  | 0x06 =>
    let h1 := applyAll (fun h y =>
      let c := min (at8 (4 * y)) 56
      let h1 := setF (setF h (aYP_VOLT y) fYP_VOLT_CODE c) (aYP_VOLT y) fYP_VOLT_ACT c
      let d := min (at8 (4 * y + 1)) 2
      let h2 := setF (setF h1 (aYP_CTL y) fYP_CTL_DIV d) (aYP_STAT y) fYP_STAT_DIV d
      let f := at8 (4 * y + 2)
      setYardAge h2 y { yardAge h2 y with floor := if f = 0xFF then none else some f,
                                          fallback := at8 (4 * y + 3) % 2 == 1 }) h (List.range 16)
    if at32 66 = 0 ∧ at16 64 = 0 then h1 else { h1 with rateRef := some (at16 64, at32 66) }
  | _ => h

/-- The ageing page of yards 8i to 8i + 7 is the i-th of its kind. -/
def loadPages (h : Hw) : Nat → List (Nat × List Byte) → Hw
  | _, [] => h
  | ages, (k, p) :: ps => loadPages (loadPage h ages k p) (if k = 0x05 then ages + 1 else ages) ps

/-- Firmware reads the ledger at boot (R424, R426). `differ` names slots of which some page did not read the same both
times, though no write of it was cut. -/
def ledgerRead (nv : Nv) (h : Hw) (differ : List (Fin 2)) : Hw :=
  let noise := h.free
  let h := { h with free := h.free + 512 }
  match chooseSlot nv noise differ with
  | some (slot, seq, pages) => loadPages { h with ledger := some (slot, seq) } 0 pages
  | none => raiseAlarm { h with ledger := none } 0x014 0xFF 0 0

end Sys2Proof.Machine
end

