-- ==== Sys2Proof/Machine/NocServe.lean ====
section
/-!
DEFINITION. What the endpoints of the on-chip network do with the requests that reach them: DMA ports of the pen
memories and lofts, memory controllers, the translation unit, sleeping yards; the answers as they are delivered; and the
forwarders (R176, R177, R185, R190, R221, R230, R235, R239, R240).
-/

namespace Sys2Proof.Machine

/-! ## Trough requests at a DMA port (R176, R188 to R192, R230) -/

/-- The trough that a request addresses, as key 8 n + k. -/
def troughKey (y : Nat) (f : Flit) : Nat := 8 * (8 * y + f.addr.toNat / 8 % 8) + f.addr.toNat % 8

/-- The trough's side that the operation needs is the network. -/
def netSide (h : Hw) (key op : Nat) : Bool :=
  if op = 4 then getF h (aCfg key) fTRG_CFG_CSIDE == 1 else getF h (aCfg key) fTRG_CFG_PSIDE == 1

/-- A bank port used by the DMA port of a memory: no other access gets it in this cycle (R173, R177, R180). -/
def useBank (h : Hw) (mem p : Nat) : Hw :=
  { h with arr.ports := insertAt h.arr.ports p ⟨if mem < 128 then 6 else 2, 16, true⟩,
           granted := if h.granted.contains mem then h.granted else mem :: h.granted }

/-- The bank port that a pull needs for the word i places on: none where the word stands in a buffer. -/
def pullPort (h : Hw) (key i : Nat) : Option Nat :=
  let t := troughNow h key
  let pos := ptrAdd (depth h key) t.rp i
  if (lookup t.tail pos).isSome || (lookup t.head pos).isSome then none
  else some (portKey (penBank (key / 8) (troughSlot h key pos)).1 false)

/-- The words that a pull of n words takes now (R230). -/
def pullCount (h : Hw) (key n : Nat) : Nat := min n (readableNow (depth h key) (troughNow h key))

/-- Every word that a pull takes stands in a buffer, or its bank's read port is idle. -/
def pullable (h : Hw) (key n : Nat) : Bool :=
  (List.range (pullCount h key n)).all fun i =>
    match pullPort h key i with
    | none => true
    | some p => (lookup h.arr.ports p).isNone

/-- n words pulled and released, with the outcomes of their checks (R195, R230). -/
def pullWords (m : Sparse Byte) (key : Nat) : Nat → List Ecc → Hw → List TW × Hw
  | 0, _, h => ([], h)
  | n + 1, es, h =>
    let h0 := match pullPort h key 0 with
      | some p => useBank h (key / 8) p
      | none => h
    let r := popFrom m h0 key (es.headD .ok)
    let rest := pullWords m key n (es.drop 1) (releaseWords r.2 key (troughNow r.2 key) 1)
    (r.1 :: rest.1, rest.2)

/-- The index of the next valid word of a push. -/
def nextValid (r : DmaReq) : Option Nat :=
  (List.range (r.f.cnt.toNat + 1)).find? fun i => r.pos ≤ i && ((r.f.words[i]?).map (·.v)).getD false

/-- The request at the head of a trough queue can take a step in this cycle: no step was taken on its side, and it would
not be refused (R176, R188, R190, R194). -/
def troughReady (h : Hw) (key : Nat) (r : DmaReq) : Bool :=
  let t := troughNow h key
  if ¬ isSet h (aCfg key) fTRG_CFG_EN then true
  else if r.kind = 3 then (nextValid r).isNone || mayPush h key false
  else if r.kind = 5 then t.prodFu.isNone && !(producerRefused h key true)
  else if r.kind = 4 then
    t.consFu.isNone &&
      (if readableNow (depth h key) t = 0 then !(emptyRefuses h key) else pullable h key (r.f.cnt.toNat + 1))
  else t.prodFu.isNone

/-- Outcome of a step of a request at a DMA port: done with an answer, or more of it is to come. -/
inductive Served where
  | done (status : Nat) (ws : List TW)
  | more (r : DmaReq)
deriving DecidableEq, Repr

/-- One step of a trough request that can take one. -/
def serveTrough (m : Sparse Byte) (h : Hw) (key : Nat) (r : DmaReq) (es : List Ecc) : Served × Hw :=
  let n := r.f.cnt.toNat + 1
  let t := troughNow h key
  if ¬ isSet h (aCfg key) fTRG_CFG_EN then
    (.done 0 (if r.kind = 4 then List.replicate n TW.notValid else []), raiseBit h (aTst key) fTRG_STAT_DISOP)
  else if r.kind = 3 then
    match nextValid r with
    | none => (.done 0 [], h)
    | some i =>
      let h1 := (pushFrom h key (r.f.words.getD i TW.notValid)).1
      let r1 := { r with pos := i + 1 }
      (if (nextValid r1).isNone then .done 0 [] else .more r1, h1)
  else if r.kind = 4 then
    let k := pullCount h key n
    let x := pullWords m key k es h
    (.done 0 (x.1 ++ List.replicate (n - k) TW.notValid), x.2)
  else if r.kind = 5 then
    let x := produce (depth h key) true t
    let h1 := notePackets h key x.2.1 x.2.2.1 x.2.2.2
    match x.1 with
    | .refused => (.more r, h)
    | .discarded t => (.done 0 [], putTrough h1 key { t with prodFu := some otherSide })
    | .at t _ => (.done 0 [], putTrough h1 key { t with prodFu := some otherSide, opener := some r.f.src.val })
  else if r.kind = 6 then
    let d := (r.f.words.headD TW.notValid).d.toNat
    (.done 0 [], closePacket m h key { t with prodFu := some otherSide } (some (d / 2 ^ 14 % 2 ^ 18)) (d / 2 ^ 32 % 256))
  else (.done 0 [], abortPacket h key { t with prodFu := some otherSide })

/-! ## Window requests at a DMA port (R20 to R23, R176, R177) -/

/-- A word that a window request comes to next: slot, the bytes that are written where it writes some only, and whether
it is read or written now. A slot that is written in part is read first and written in a later step (R21). -/
structure Item where
  word : Nat
  bytes : List (Nat × Byte)
  wr : Bool
deriving DecidableEq, Repr

/-- The next word of a window request, none where all are done. -/
def nextItem (r : DmaReq) : Option Item :=
  if r.kind = 2 then
    match (maskedSlots r.f)[r.pos]? with
    | none => none
    | some x =>
      match slotOf (16 * x.1) with
      | none => none
      | some (_, w) => some ⟨w, x.2, coversSlot x.2 || r.old.isSome⟩
  else
    match windowSlots r.kind r.f with
    | none => none
    | some (_, ws) => (ws[r.pos]?).map fun w => ⟨w, [], !(isRead r.kind)⟩

/-- The bank port that a word of a window needs. -/
def itemPort (mem : Nat) (i : Item) : Nat := portKey (slotBank mem i.word).1 i.wr

/-- The next word of a request can be served: its bank port is idle in this cycle. -/
def itemReady (h : Hw) (mem : Nat) (r : DmaReq) : Bool :=
  match nextItem r with
  | none => true
  | some i => (lookup h.arr.ports (itemPort mem i)).isNone

/-- One word of a window request served. -/
def serveItem (m : Sparse Byte) (h : Hw) (mem : Nat) (r : DmaReq) (i : Item) (e : Ecc) : Sparse Byte × Hw × DmaReq :=
  let h1 := useBank h mem (itemPort mem i)
  if ¬ i.wr then
    let x := windowRead m h1 mem i.word e
    (m, x.2, if r.kind = 2 then { r with old := some x.1 } else { r with pos := r.pos + 1, got := r.got ++ [x.1] })
  else
    let w := if r.kind = 2 then mergeSlot (r.old.getD TW.notValid) i.bytes else r.f.words.getD r.pos TW.notValid
    (windowWrite m h1 mem i.word w, h1, { r with pos := r.pos + 1, old := none })

/-- The words of a window request that the idle ports of this cycle allow, in order; after the read of a slot that is
written in part, the rest waits for a later cycle. -/
def serveWindow (mem : Nat) : Nat → List Ecc → Sparse Byte → Hw → DmaReq → Sparse Byte × Hw × DmaReq
  | 0, _, m, h, r => (m, h, r)
  | fuel + 1, es, m, h, r =>
    match nextItem r with
    | none => (m, h, r)
    | some i =>
      if ¬ itemReady h mem r then (m, h, r)
      else
        let x := serveItem m h mem r i (es.headD .ok)
        if x.2.2.old.isSome then x else serveWindow mem fuel (if i.wr then es else es.drop 1) x.1 x.2.1 x.2.2

/-- A window request at the head of a queue gets its turn: `put` stores what is left of it. -/
def turnWindow (m : Sparse Byte) (h : Hw) (mem : Nat) (r : DmaReq) (es : List Ecc) (put : Hw → Option DmaReq → Hw) :
    Sparse Byte × Hw :=
  let x := serveWindow mem 64 es m h r
  if (nextItem x.2.2).isSome then (x.1, put x.2.1 (some x.2.2))
  else (x.1, respond (put x.2.1 none) r.kind r.f 0 x.2.2.got)

/-- The DMA port of a pen gets its turn, once in a cycle: of two requests that can go on, that of the queue that the
latest grant did not serve (R176). (DESIGN CHOICE, log 185) -/
def dmaPen (m : Sparse Byte) (h : Hw) (n : Nat) (es : List Ecc) : Sparse Byte × Hw :=
  let p := pen h n
  let tr := match p.dmaTrough with
    | r :: _ => troughReady h (troughKey (n / 8) r.f) r
    | [] => false
  let ot := match p.dmaOther with
    | r :: _ => itemReady h n r
    | [] => false
  let noteTurn (h : Hw) (wasTrough : Bool) : Hw :=
    setPen h n { pen h n with dmaLastTrough := wasTrough, dmaAt := edgeOf h (n / 8) + 1 }
  if inCycle h (n / 8) p.dmaAt then (m, h)
  else if tr && !(ot && p.dmaLastTrough) then
    match p.dmaTrough with
    | [] => (m, h)
    | r :: rest =>
      let s := serveTrough m h (troughKey (n / 8) r.f) r es
      match s.1 with
      | .done st ws => (m, noteTurn (respond (setPen s.2 n { pen s.2 n with dmaTrough := rest }) r.kind r.f st ws) true)
      | .more r1 => (m, noteTurn (setPen s.2 n { pen s.2 n with dmaTrough := r1 :: rest }) true)
  else if ot then
    match p.dmaOther with
    | [] => (m, h)
    | r :: rest =>
      let x := turnWindow m h n r es fun h o => setPen h n { pen h n with dmaOther := o.toList ++ rest }
      (x.1, noteTurn x.2 false)
  else (m, h)

/-- The DMA port of a loft gets its turn: it serves its requests in arrival order (R177). -/
def dmaLoft (m : Sparse Byte) (h : Hw) (y : Nat) (es : List Ecc) : Sparse Byte × Hw :=
  match getD [] h.loftDma y with
  | [] => (m, h)
  | r :: rest => turnWindow m h (128 + y) r es fun h o => { h with loftDma := setD [] h.loftDma y (o.toList ++ rest) }

/-- A DMA port of a pen (0 to 127) or loft (128 to 143) gets its turn; `es` are the outcomes of the checks of the words
that it reads, in order. A switch of this cycle takes its ports first (R132). -/
def dmaService (m : Sparse Byte) (h : Hw) (mem : Nat) (es : List Ecc) : Sparse Byte × Hw :=
  if ¬ arrayRuns h (slotYard mem) then (m, h)
  else if mem < 128 then (if orderDue h mem then (m, h) else dmaPen m h mem es)
  else dmaLoft m h (mem - 128) es

/-! ## Refusals (R32, R230) -/

/-- A local address that neither DRAM nor a window holds: a hole, the readback window or a register. -/
def offLimits (a : Nat) : Bool := 0xF00000000 ≤ a && (slotOf a).isNone

/-- A request that does not cross a crossing in quarantine (R464). -/
def refuseClosed (h : Hw) (op : Nat) (f : Flit) : Hw :=
  respond h op f 1 (if isRead op then List.replicate (wordsAsked op f) TW.notValid else [])

/-- A request that its endpoint does not take. -/
def refuse (h : Hw) (op : Nat) (f : Flit) : Hw :=
  if offLimits f.addr.toNat ∧ f.dst.val ≠ 17 ∧ ¬ (3 ≤ op ∧ op ≤ 7) then refuseLogged h op f else refuseReq h op f 1

/-! ## DRAM controllers (R18, R211, R212, R218, R230) -/

/-- The bytes of the data space that a request to a controller touches: first address and number. -/
def dramSpan (op : Nat) (f : Flit) : Nat × Nat :=
  if op = 2 then
    match (maskedBytes f).map (·.1) with
    | [] => (f.addr.toNat, 0)
    | a :: as => (a, (as.getLast?).getD a + 1 - a)
  else (f.addr.toNat, 10 * wordsAsked op f)

/-- A request served by the controller of a channel, which takes its own channel's lines only; `es` are the outcomes of
its lines' checks (R213, R230). (DEDUCED, log 186) -/
def serveDram (m : Sparse Byte) (h : Hw) (c op : Nat) (f : Flit) (es : List Ecc) : Sparse Byte × Hw :=
  let sp := dramSpan op f
  let ls := linesOf sp.1 sp.2
  if restrictedReq h f ∨ dramEnd h < sp.1 + sp.2 ∨ (op ≠ 2 ∧ sp.1 % 10 ≠ 0) then (m, refuseLogged h op f)
  else if (ls.any fun l => lineChannel l != c) ∨ (¬ isRead op ∧ f.src.val ≠ 38 ∧ hitsStaging h sp.1 sp.2) then
    (m, refuseReq h op f 1)
  else if isRead op then
    let r := dramRead m h sp.1 sp.2 es
    (m, respond r.2 op f 0 (wordsOfBytes (wordsAsked op f) r.1))
  else
    let bs := if op = 2 then maskedBytes f else placeBytes sp.1 (bytesOfWords (f.words.take (wordsAsked op f)))
    let r := dramMask m h ls bs es
    (r.1, respond r.2 op f 0 [])

/-- The controller is being reset: its requests wait, and none is refused (R463). -/
def dramInReset (h : Hw) (c : Nat) : Bool := h.quarantined.getLsbD (0x1C + c)

/-- A request that waits at a controller. -/
def holdDram (h : Hw) (c op : Nat) (f : Flit) (es : List Ecc) : Hw :=
  { h with noc.held := setD [] h.noc.held c (getD [] h.noc.held c ++ [(DmaReq.of op f, es)]) }

/-- A request at a controller: served, or waiting while its channel pauses, the controllers enter self-refresh or the
controller is being reset (R218, R444, R463). (DEDUCED, log 203) -/
def atDram (m : Sparse Byte) (h : Hw) (c op : Nat) (f : Flit) (es : List Ecc) : Sparse Byte × Hw :=
  if chanHolds h c ∨ dramInReset h c then (m, holdDram h c op f es) else serveDram m h c op f es

/-- The requests that wait at a controller are served in arrival order, unless it must still hold them. -/
def serveWaiting (m : Sparse Byte) (h : Hw) (c : Nat) : Sparse Byte × Hw :=
  if chanHolds h c ∨ dramInReset h c then (m, h)
  else
    (getD [] h.noc.held c).foldl (fun s r => serveDram s.1 s.2 c r.1.kind r.1.f r.2)
      (m, { h with noc.held := setD [] h.noc.held c [] })

/-- A pause ends, and the requests that waited are served (R218). -/
def endPause (m : Sparse Byte) (h : Hw) (c : Nat) (drift : BitVec 8) : Sparse Byte × Hw :=
  serveWaiting m (pauseEnd h c drift) c

/-! ## Accesses in parts (R29, R230) -/

/-- The parts of a range that lie in one line each: first address and number of bytes. -/
def lineParts (a n : Nat) : List (Nat × Nat) :=
  (linesOf a n).map fun l => (max a (60 * l), min (a + n) (60 * l + 60) - max a (60 * l))

/-- Words that carry bytes, and their enables, in a WRMASK (Table 9.3). -/
def maskWords (bytes : List Byte) : List TW :=
  (wordsOfBytes 7 (bytes ++ List.replicate (70 - bytes.length) 0)) ++ [TW.data (BitVec.ofNat 72 (2 ^ bytes.length - 1))]

/-- A request to the controller of its line for some bytes of that line: the words that hold them read; whole words
written, or a masked write. -/
def linePart (src : Fin 40) (id off a : Nat) (wr : Option (List Byte)) (n : Nat) : NocReq :=
  let dst := Fin.ofNat 40 (dcRouter (lineChannel (a / 60)))
  let req (op cnt addr : Nat) (ws : List TW) (skip len : Nat) : NocReq :=
    ⟨op, ⟨dst, src, BitVec.ofNat 3 cnt, 0, BitVec.ofNat 40 addr, ws, none⟩, .part id off skip len false⟩
  match wr with
  | none => req 0 ((a + n + 9) / 10 - a / 10 - 1) (10 * (a / 10)) [] (a % 10) n
  | some bytes =>
    if a % 10 = 0 ∧ n % 10 = 0 then req 1 (n / 10 - 1) a (wordsOfBytes (n / 10) bytes) 0 0
    else req 2 7 a (maskWords bytes) 0 0

/-- A number that no access in parts has. -/
def freeWhole (h : Hw) : Nat := h.noc.wholes.foldl (fun acc e => max acc (e.1 + 1)) 0

/-- An access begun: its parts wait at their requester to be sent. -/
def beginWhole (h : Hw) (id : Nat) (who : Asker) (parts : List NocReq) : Hw :=
  applyAll queueRequest { h with noc.wholes := insertAt h.noc.wholes id ⟨who, parts.length, [], 0, false⟩ } parts

/-- The bytes of an answer: each word as 10 bytes, or as a slot of 16 (R16, R20). -/
def answerBytes (slots : Bool) (ws : List TW) : List Byte :=
  (ws.map fun w => leBytes 9 w.d.toNat ++ [w.tag] ++ (if slots then List.replicate 6 0 else [])).flatten

/-- A part of an access is answered: the whole, once every part is. -/
def partAnswered (h : Hw) (id off skip len : Nat) (slots : Bool) (status : Nat) (ws : List TW) : Option Whole × Hw :=
  match lookup h.noc.wholes id with
  | none => (none, h)
  | some w =>
    let got := ((answerBytes slots ws).drop skip).take len
    let w1 := { w with left := w.left - 1, status := if w.status = 0 then status else w.status,
                       bytes := writeBytes w.bytes off got }
    if w1.left = 0 then (some w1, { h with noc.wholes := removeAt h.noc.wholes id })
    else (none, { h with noc.wholes := insertAt h.noc.wholes id w1 })

/-! ## The translation unit (R221, R230) -/

/-- A held translation covers every byte of the request (R224). -/
def cached (h : Hw) (va n : Nat) : Bool :=
  (h.noc.cache.any fun x => x.covers va) && h.noc.cache.any fun x => x.covers (va + n - 1)

/-- The requests to the controllers that carry out a translated request; a write is cut from the bytes of the whole. -/
def xlatParts (id : Nat) (wr : Bool) (bytes : List Byte) (parts : List (Nat × Nat)) : List NocReq :=
  (parts.foldl (fun (s : List NocReq × Nat) p =>
    (s.1 ++ (lineParts p.1 p.2).map fun x =>
      let off := s.2 + (x.1 - p.1)
      linePart 17 id off x.1 (if wr then some ((bytes.drop off).take x.2) else none) x.2, s.2 + p.2)) ([], 0)).1

/-- A request translated: its parts go to the controllers of their lines, or it ends in the fault of R223. `es` are the
outcomes of the checks of the entries that its walks read. (DESIGN CHOICE, log 187) -/
def serveXlat (m : Sparse Byte) (h : Hw) (useCache : Bool) (op : Nat) (f : Flit) (es : List Ecc) : Hw :=
  let n := wordsAsked op f
  let wr := !(isRead op)
  match translate m h useCache f.addr.toNat (10 * n) wr f.src.val es with
  | (none, h1) => refuseReq h1 op f 3
  | (some parts, h1) =>
    if wr ∧ parts.any fun p => hitsStaging h1 p.1 p.2 then refuseReq h1 op f 1
    else
      let hid := match outAt h1 f.src.val f.rb.toNat with
        | some o => hiddenReq h1 o.1.req
        | none => false
      let id := freeWhole h1
      beginWhole h1 id (.tu op f hid) (xlatParts id wr (bytesOfWords (f.words.take n)) parts)

/-- The controllers have answered every part of a translated request: the unit relays their answer (R230). -/
def answerXlat (h : Hw) (w : Whole) (op : Nat) (f : Flit) : Hw :=
  let n := wordsAsked op f
  respond h op f w.status
    (if isRead op then wordsOfBytes n ((List.range (10 * n)).map fun i => getD 0 w.bytes i) else [])

/-- A walk completes: the waiting request it serves is translated; without one, the translation alone is made (R221). -/
def walkDone (m : Sparse Byte) (h : Hw) (va : Nat) (wr : Bool) (src len : Nat) (es : List Ecc) : Hw :=
  if frozen h then h
  else
    match h.noc.walks.find? fun r => r.f.addr.toNat == va && r.f.src.val == src && (!(isRead r.kind)) == wr with
    | some r => serveXlat m { h with noc.walks := h.noc.walks.erase r } false r.kind r.f es
    | none => (translate m h false va len wr src es).2

/-! ## Arrival at an endpoint (R230, R236, R240) -/

/-- The request waits for its yard: a wake is asked for (R240, R241). -/
def waitForWake (h : Hw) (y op : Nat) (f : Flit) : Hw :=
  let x := yardPw h y
  let h1 := setYardPw h y { x with wake := true, byReq := true }
  let h2 := { h1 with noc.asleep := setD [] h1.noc.asleep y (getD [] h1.noc.asleep y ++ [DmaReq.of op f]) }
  setF (raiseBit h2 (aNY_WAKE y) fNY_WAKE_WAITING) (aYP_STAT y) fYP_STAT_TRANS 1

/-- The endpoint of a yard takes requests: the yard runs, and no power-down is past its point of no return (R240, R241). -/
def yardTakes (h : Hw) (y : Nat) : Bool := yardRuns h y && !(yardPw h y).past

/-- The window memory that a request addresses in whole. -/
def windowMem (op : Nat) (f : Flit) : Option Nat :=
  if op = 2 then
    let mems := (maskedSlots f).map fun x => (slotOf (16 * x.1)).map (·.1)
    match mems with
    | [] => (slotOf f.addr.toNat).map (·.1)
    | o :: os => if os.all fun x => x == o then o else none
  else (windowSlots op f).map (·.1)

/-- A request that has passed its checks at a running yard: refused, or queued at its DMA port (R176,
R230). -/
def yardRequest (h : Hw) (y op : Nat) (f : Flit) : Hw :=
  if 3 ≤ op ∧ op ≤ 7 then
    let key := troughKey y f
    if 64 ≤ f.addr.toNat then refuseReq h op f 1
    else if ¬ netSide h key op then refuseReq (raiseBit h (aTst key) fTRG_STAT_DISOP) op f 1
    else
      let n := key / 8
      setPen h n { pen h n with dmaTrough := (pen h n).dmaTrough ++ [DmaReq.of op f] }
  else
    match windowMem op f with
    | none => refuseLogged h op f
    | some mem =>
      if slotYard mem ≠ y then refuseLogged h op f
      else if mem < 128 then setPen h mem { pen h mem with dmaOther := (pen h mem).dmaOther ++ [DmaReq.of op f] }
      else { h with loftDma := setD [] h.loftDma (mem - 128) (getD [] h.loftDma (mem - 128) ++ [DmaReq.of op f]) }

/-- Operations that an endpoint accepts besides register accesses (Table 9.3). (DEDUCED, log 53) -/
def acceptsOp (ep : Endpoint) (op : Nat) : Bool :=
  match ep with
  | .yard _ => op ≤ 7 || op == 0xA || op == 0xB
  | .dc _ => op ≤ 2 || op == 0xA || op == 0xB
  | .tu => op ≤ 1 || op == 0xA || op == 0xB
  | _ => false

/-- A request, other than a register access, that its endpoint serves or queues. `es` are the outcomes of the checks of
the lines that a controller reads for it. -/
def dispatchReq (m : Sparse Byte) (h : Hw) (op : Nat) (f : Flit) (es : List Ecc) : Sparse Byte × Hw :=
  let ep := endpointOf f.dst.val
  if quarantinedAt h f.dst.val then
    (m, refuseClosed h op f)
  else if ¬ acceptsOp ep op then (m, refuse h op f)
  else
    match ep with
    | .yard y => (m, if yardTakes h y then yardRequest h y op f else waitForWake h y op f)
    | .dc c => atDram m h c op f es
    | .tu =>
      (m, if f.addr.toNat % 10 ≠ 0 then refuseLogged h op f
          else if cached h f.addr.toNat (10 * wordsAsked op f) then serveXlat m h true op f []
          else { h with noc.walks := h.noc.walks ++ [DmaReq.of op f] })
    | _ => (m, refuse h op f)

/-! ## Delivery of answers (R239) -/

/-- A response delivered: the request it answers, its status and words, once complete. -/
structure Delivered where
  req : Option NocReq
  status : Nat
  words : List TW
deriving DecidableEq, Repr

/-- An answer that has reached its requester. -/
def delivered (h : Hw) (q : Option NocReq) (status : Nat) (ws : List TW) : Option Delivered × Hw :=
  (some ⟨q, status, ws⟩, { h with noc.status := status, noc.words := ws })

/-- An acknowledgement arrives: the request is answered and its buffers are free. A failing CRC counts, and the
acknowledgement is taken (R239). -/
def deliverAck (h : Hw) (r rb : Nat) (pass : Passage) : Option Delivered × Hw :=
  if frozen h then (none, h)
  else
    match takeResp h r rb 0xD pass.hops with
    | none => (none, h)
    | some (_, false, h1) => (none, h1)
    | some (x, true, h1) =>
      let h2 := if pass.bad.getLsbD 0 then bump h1 (aNR_STAT r) fNR_STAT_CRCCNT 1 else h1
      match outAt h2 r rb with
      | some (o, _) => delivered (setOut h2 r ((outOf h2 r).erase o)) (some o.req) x.status []
      | none => delivered h2 none x.status []

/-- A flit of data that its requester takes: the answer, once every flit of it has come. An answer with a flit delivered
poisoned counts once (R239). -/
def takeFlit (h : Hw) (r : Nat) (o : NocOut) (i status : Nat) (ws : List TW) (bad : Bool) : Option Delivered × Hw :=
  let o' := { o with got := insertAt o.got i ws, bad := o.bad || bad, status := if o.status = 0 then status else o.status }
  if o'.got.length < o.k then (none, setOut h r ((outOf h r).map fun e => if e = o then o' else e))
  else
    let h1 := setOut h r ((outOf h r).erase o)
    delivered (if o'.bad then poisonedAt h1 r o.req.f.addr.toNat else h1) (some o.req) o'.status
      (o'.got.map fun e => e.2).flatten

/-- Words of a flit whose check failed: P is set in each tag. -/
def spoiled (bad : Bool) (ws : List TW) : List TW := if bad then ws.map fun w => { w with p := true } else ws

/-- A data response arrives. The first failing check of a flit asks for it once more, but for a PULL; a second
failure delivers its words poisoned (R239). -/
def deliverData (h : Hw) (r rb : Nat) (pass : Passage) : Option Delivered × Hw :=
  if frozen h then (none, h)
  else
    match takeResp h r rb 0xC pass.hops with
    | none => (none, h)
    | some (_, false, h1) => (none, h1)
    | some (x, true, h1) =>
      let bad := pass.bad.getLsbD 0
      let h2 := if bad then bump h1 (aNR_STAT r) fNR_STAT_CRCCNT 1 else h1
      match outAt h2 r rb with
      | none => delivered (if bad then poisonedAt h2 r 0 else h2) none x.status (spoiled bad x.words)
      | some (o, i) =>
        if bad ∧ o.req.op ≠ 4 ∧ ¬ o.asked.contains i then
          (none, queueRequest (setOutAt h2 r rb fun o => { o with asked := i :: o.asked }) (againReq o.req i))
        else takeFlit h2 r o i x.status (spoiled bad x.words) bad

/-! ## Forwarders (R185) -/

/-- The forwarder of a trough may act; it issues nothing once its yard powers down (R404). -/
def fwdLive (h : Hw) (key : Nat) : Bool :=
  arrayRuns h (key / 64) && !(powerDownStarts h (key / 64)) && isSet h (aCfg key) fTRG_CFG_EN && getF h (aCfg key) fTRG_CFG_CSIDE == 2

/-- The word at the read pointer is a length word. -/
def atLength (t : Trough) : Bool := t.lens.contains t.rp

/-- The forwarder takes one word in a cycle: a payload word while it has room for eight, or a length word once nothing
of the packet before it is left to send. The second component is what a popped length word makes it send.
(DESIGN CHOICE, log 40) -/
def fwdTake (m : Sparse Byte) (h : Hw) (key : Nat) (e : Ecc) : Option (Nat × TW) × Hw :=
  let t := troughNow h key
  let len := atLength t
  let idle := match t.fwdPkt with
    | none => true
    | some _ => false
  let room := if len then idle && t.fwdBuf.isEmpty else t.fwdBuf.length < 8 && (idle || (t.fwdPkt.map (·.1)) != some 0)
  if ¬ (mayPop h key ∧ room) then (none, h)
  else
    let r := popFrom m h key e
    let t1 := trough r.2 key
    if len then
      let n := r.1.d.toNat % 2 ^ 14
      (some (n, r.1), setTrough r.2 key { t1 with fwdPkt := some (n, r.1) })
    else
      (none, setTrough r.2 key { t1 with fwdBuf := t1.fwdBuf ++ [r.1], fwdPkt := t1.fwdPkt.map fun p => (p.1 - 1, p.2) })

/-- What the forwarder sends next: operation, words carried, and words of the trough it answers for. An open after a
length word was popped; a close after the packet's last word; else the words it holds, when there are eight, when the
packet or the readable words end with them, or when a length word comes next. -/
def fwdNext (h : Hw) (key : Nat) (opened : Option (Nat × TW)) : Option (Nat × List TW × Nat) × Hw :=
  let t := trough h key
  let n := depth h key
  let last := t.fwdPkt.map (·.1) == some 0 || readable n t == 0 || atLength t
  if opened.isSome then (some (5, [], 0), h)
  else if ¬ t.fwdBuf.isEmpty ∧ (t.fwdBuf.length = 8 ∨ last) then
    (some (3, t.fwdBuf, t.fwdBuf.length), setTrough h key { t with fwdBuf := [] })
  else
    match t.fwdPkt with
    | some (0, lw) => if t.fwdBuf.isEmpty then (some (6, [lw], 1), setTrough h key { t with fwdPkt := none }) else (none, h)
    | _ => (none, h)

/-- Words the remote trough accepted: kept until the forwarder releases them. (DEDUCED, log 41) -/
def fwdAccept (h : Hw) (key count : Nat) : Hw :=
  setTrough h key { trough h key with fwdAcc := (trough h key).fwdAcc + count }

/-- Accepted words are released, never past rp (R185). -/
def fwdRelease (h : Hw) (key count : Nat) : Hw :=
  let t := troughNow h key
  let k := min (min count t.fwdAcc) (ptrSub (depth h key) t.rp t.rl)
  if k = 0 ∨ ¬ arrayRuns h (key / 64) then h
  else
    let h1 := releaseWords h key t k
    setTrough h1 key { trough h1 key with fwdAcc := t.fwdAcc - k }

end Sys2Proof.Machine
end

