-- ==== Sys2Proof/Machine/Chain.lean ====
section
/-!
DEFINITION. The lead chain: links with retry and credits, addresses and roll call, routing, requests and
responses between devices, events, heartbeats, partitions, firmware (R245 to R282).
-/

namespace Sys2Proof.Machine

/-! ## Links (R249 to R253) -/

def linkSt (h : Hw) (port : Nat) : LinkSt := getD LinkSt.reset h.chain.links port
def setLinkSt (h : Hw) (port : Nat) (x : LinkSt) : Hw :=
  { h with chain.links := setD LinkSt.reset h.chain.links port x }

def linkUp (h : Hw) (port : Nat) : Bool := isSet h (aLK_STAT port) fLK_STAT_UP

/-- The link carries traffic: up, and its neighbour not FROZEN (R267). -/
def linkUsable (h : Hw) (port : Nat) : Bool := linkUp h port && !(isSet h (aLK_STAT port) fLK_STAT_NBFRZ)

/-- Kinds sent with a sequence number (Table 10.2). -/
def reliable (kind : Nat) : Bool := [1, 2, 3, 4, 5, 6, 0xA, 0xB, 0xD, 0xE].contains kind

/-- Credit class of a packet; none for CREDIT (R250). -/
def creditClass (x : CPkt) : Option Nat :=
  match x.kind with
  | 1 => some (if x.p.clsB then 2 else 1)
  | 2 => some (if x.p.clsB then 4 else 3)
  | 0xB => none
  | 0xE => some 5
  | _ => some 0

/-- Order of sending (R253). -/
def sendRank (kind : Nat) : Nat :=
  match kind with
  | 0xB | 0xC => 1
  | 3 | 4 | 5 | 6 | 7 | 8 | 9 | 0xA => 2
  | 0xD => 3
  | _ => 4

/-- A credit of the packet's class is free. -/
def creditLeft (x : LinkSt) (c : CPkt) : Bool :=
  match creditClass c with
  | none => true
  | some k => getD 0 x.used k < 16

/-- The kinds of the fourth rank, in the order in which they take turns: RSP, REQ, FW. (DESIGN CHOICE, log 189) -/
def bulkKind (i : Nat) : Nat := if i % 3 = 0 then 2 else if i % 3 = 1 then 1 else 0xE

/-- The packet of the fourth rank that leaves next: kinds take turns, and in each this device's packets and those that
pass through (R253). -/
def bulkNext (x : LinkSt) (able : List CPkt) : Option CPkt :=
  [1, 2, 3].findSome? fun i =>
    let kind := bulkKind (x.turn + i)
    let q := able.filter fun c => c.kind == kind
    match q.find? fun c => c.own != x.ownLast.contains kind with
    | some c => some c
    | none => q.head?

/-- The packet that may leave next: of the lowest rank, with a credit of its class free (R250, R253). -/
def nextToSend (x : LinkSt) : Option CPkt :=
  let able := x.txq.filter (creditLeft x)
  match [1, 2, 3].findSome? fun r => able.find? fun c => sendRank c.kind == r with
  | some c => some c
  | none => bulkNext x able

/-- A packet of the fourth rank has left: the turns move on. -/
def turned (x : LinkSt) (c : CPkt) : LinkSt :=
  if sendRank c.kind ≠ 4 then x
  else
    { x with turn := if c.kind = 2 then 0 else if c.kind = 1 then 1 else 2,
             ownLast := if c.own then c.kind :: x.ownLast.erase c.kind else x.ownLast.erase c.kind }

/-- Packets leave while the replay buffer has room and credits last (R249, R250). -/
def pump (x : LinkSt) : Nat → LinkSt
  | 0 => x
  | n + 1 =>
    if 64 ≤ x.replay.length then x
    else
      match nextToSend x with
      | none => x
      | some c =>
        let sent := { c with p := { c.p with seq := x.txSeq, ackSeq := x.rxSeq - 1 } }
        let used := match creditClass c with
          | none => x.used
          | some k => setD 0 x.used k (getD 0 x.used k + 1)
        pump (turned { x with txq := x.txq.erase c, replay := x.replay ++ [(sent, 0)], txSeq := x.txSeq + 1, used := used } c) n

/-- A packet put on a link: reliable packets queue and leave in order, others leave at once. Nothing enters a link that
is down, and only packets for the neighbour itself one whose neighbour is FROZEN (R267). -/
def sendOn (h : Hw) (port : Nat) (c : CPkt) : Hw :=
  if ¬ (linkUsable h port || (linkUp h port && c.p.tgt == 0xFD)) then h
  else
    let x := linkSt h port
    if reliable c.kind then
      let x1 := { x with txq := x.txq ++ [c] }
      setLinkSt h port (pump x1 x1.txq.length)
    else
      setLinkSt h port { x with last := insertAt x.last c.kind { c with p := { c.p with seq := 0, ackSeq := x.rxSeq - 1 } } }

/-- A packet of this device with no fields set. -/
def blankPkt (h : Hw) : Pkt :=
  ⟨0, BitVec.ofNat 6 (getF h aCH_ID fCH_ID_ADDR), 0, 0, 0, false, 0, 0, 0, 0, 0, 0, false, 0, 0, [], false⟩

/-- A packet of a kind to a target. -/
def packet (h : Hw) (kind tgt arg : Nat) : CPkt :=
  ⟨kind, { blankPkt h with tgt := BitVec.ofNat 8 tgt, arg := BitVec.ofNat 40 arg }, none, none, true⟩

/-! ## Addresses and routes (R255, R259, R260) -/

def ownAddr (h : Hw) : Nat := getF h aCH_ID fCH_ID_ADDR
def addressed (h : Hw) : Bool := isSet h aCH_ID fCH_ID_AVLD

/-- Latest report of a port, none where no LINK packet named it. -/
def reportOf (h : Hw) (dev port : Nat) : Option Bool := lookup h.chain.reports (2 * dev + port)

/-- The link between the LD of device i and the LU of device j is up: reported by an end, and by none down. -/
def linkIJ (h : Hw) (i j : Nat) : Bool :=
  match reportOf h i 1, reportOf h j 0 with
  | some a, some b => a && b
  | some a, none => a
  | none, some b => b
  | none, none => false

/-- Devices known to the chain: by `COUNT` on device 0, by the reports elsewhere. -/
def chainCount (h : Hw) : Nat :=
  let c := getF h aCH_ID fCH_ID_COUNT
  if c ≠ 0 then c else h.chain.reports.foldl (fun acc e => max acc (e.1 / 2 + 1)) (ownAddr h + 1)

/-- The chain is a ring: roll call said so on device 0; elsewhere the LD of the last device and the LU of device 0 have
both been reported (R257, R259). (DEDUCED, log 190) -/
def isRing (h : Hw) : Bool :=
  isSet h aCH_ID fCH_ID_RING ||
    (!(isDev0 h) && (reportOf h 0 0).isSome && (reportOf h (chainCount h - 1) 1).isSome)

/-- Devices met going down (towards LD) from device i over links that are up, at most n hops. -/
def goDown (h : Hw) (n count : Nat) (ring : Bool) : Nat → Nat → List Nat
  | _, 0 => []
  | i, fuel + 1 =>
    let j := if i + 1 < count then some (i + 1) else if ring then some 0 else none
    match j with
    | none => []
    | some j => if linkIJ h i j then j :: goDown h n count ring j fuel else []

/-- Devices met going up (towards LU). -/
def goUp (h : Hw) (count : Nat) (ring : Bool) : Nat → Nat → List Nat
  | _, 0 => []
  | i, fuel + 1 =>
    let j := if 0 < i then some (i - 1) else if ring then some (count - 1) else none
    match j with
    | none => []
    | some j => if linkIJ h j i then j :: goUp h count ring j fuel else []

/-- `CH_DIR`, `CH_REACH`, `CLOSED`, the upstream port and `BEHINDFRZ` worked out anew; device 0 raises
`CHAIN_PARTITION` for devices lost (R259, R269, R270, R274). -/
def reroute (h : Hw) : Hw :=
  if ¬ addressed h then h
  else
  let n := chainCount h
  let me := ownAddr h
  let ring := isRing h
  let down := if linkUsable h 1 then goDown h n n ring me (n - 1) else []
  let up := if linkUsable h 0 then goUp h n ring me (n - 1) else []
  let downAll := goDown h n n ring me (n - 1)
  let upAll := goUp h n ring me (n - 1)
  let closed := ring && (List.range n).all fun i => linkIJ h i (if i + 1 < n then i + 1 else 0)
  let reach := (List.range 64).foldl (fun acc d =>
    if d = me ∨ down.contains d ∨ up.contains d then acc + 2 ^ d else acc) 0
  let viaUp (d : Nat) : Bool :=
    if closed && linkUsable h 0 && linkUsable h 1 then !((d + n - me) % n ≤ n / 2)
    else up.contains d && !(down.contains d)
  let dir := (List.range 64).foldl (fun acc d => if viaUp d then acc + 2 ^ d else acc) 0
  let lost := (reg h aCH_REACH).toNat &&& (2 ^ 64 - 1 - reach)
  let upPort := if upAll.contains 0 ∧ downAll.contains 0 then decide ((n - me) < me) else downAll.contains 0 && !(upAll.contains 0)
  let frzUp := isSet h (aLK_STAT 0) fLK_STAT_NBFRZ
  let frzDn := isSet h (aLK_STAT 1) fLK_STAT_NBFRZ
  let behind := (upAll.contains 0 || downAll.contains 0) && (!(upAll.contains 0) || frzUp) && (!(downAll.contains 0) || frzDn)
  let h1 := setReg (setReg h aCH_DIR (BitVec.ofNat 64 dir)) aCH_REACH (BitVec.ofNat 64 reach)
  let h2 := setF h1 aCH_ID fCH_ID_CLOSED closed.toNat
  let h3 := setF (setF h2 aCH_TA fCH_TA_UPPORT upPort.toNat) aCH_PART fCH_PART_BEHINDFRZ (behind && me != 0).toNat
  if isDev0 h ∧ lost ≠ 0 then raiseAlarm h3 0x103 0xFF lost 0 else h3

/-- Port that leads to a device, none where it is not reachable (R259). -/
def portTo (h : Hw) (d : Nat) : Option Nat :=
  if d < 64 ∧ d ≠ ownAddr h ∧ (reg h aCH_REACH).getLsbD d then
    some (if (reg h aCH_DIR).getLsbD d then 0 else 1)
  else none

/-- A packet of this device sent towards its target (R259, R260). -/
def sendPkt (h : Hw) (c : CPkt) : Hw :=
  let t := c.p.tgt.toNat
  if t = 0xFE ∨ t = 0xFF then
    if isSet h aCH_ID fCH_ID_CLOSED then sendOn h 1 c else sendOn (sendOn h 0 c) 1 c
  else
    match portTo h t with
    | some port => sendOn h port c
    | none => h

/-! ## Receiving (R249, R250, R254) -/

/-- A NAK naming the expected sequence number, once after an accepted packet. -/
def sendNak (h : Hw) (port : Nat) : Hw :=
  let x := linkSt h port
  if x.nakSent then h
  else sendOn (setLinkSt h port { x with nakSent := true }) port (packet h 0xC 0xFD x.rxSeq.toNat)

/-- Replay entries up to the acknowledged sequence number are given up. -/
def ackReplay (replay : List (CPkt × Nat)) (a : BitVec 8) : List (CPkt × Nat) :=
  if replay.any fun e => e.1.p.seq == a then (replay.dropWhile fun e => e.1.p.seq != a).drop 1 else replay

/-- The acknowledgement and the credits that a packet carries. -/
def takeAck (h : Hw) (port : Nat) (kind : Nat) (p : Pkt) : Hw :=
  let x := linkSt h port
  let used := if reliable kind then setD 0 x.used p.lccls.toNat (getD 0 x.used p.lccls.toNat - p.lccnt.toNat) else x.used
  let x1 := { x with replay := ackReplay x.replay p.ackSeq, used := used }
  setLinkSt h port (pump x1 x1.txq.length)

/-- The packet holds a reserved value (R248). -/
def badPkt (kind : Nat) (p : Pkt) : Bool :=
  p.rsv || kind == 0xF || (0x40 ≤ p.tgt.toNat && p.tgt.toNat ≤ 0xFC) || 64 < p.words.length || 3 < p.rstat.toNat ||
    ((kind == 1 || kind == 2) && p.op == 0xF)

/-- A credit of a packet's class returned, in a CREDIT packet (R250). -/
def returnCredit (h : Hw) (port : Nat) (c : CPkt) : Hw :=
  match creditClass c with
  | none => h
  | some k =>
    let b := packet h 0xB 0xFD 0
    sendOn h port { b with p := { b.p with lccls := BitVec.ofNat 3 k, lccnt := 1 } }

/-- A packet passed to the other lead port (R251, R254). A packet in class B does not pass device 0 again; one whose
output link is down moves to the port that it came by where its target is reached there (R252). (DEDUCED, log 191) -/
def relay (h : Hw) (port : Nat) (c : CPkt) : Hw :=
  let c1 := { c with own := false, p := { c.p with hops := c.p.hops + 1 } }
  if 62 ≤ c.p.hops.toNat then bump h aCH_CNT fCH_CNT_HOPDROP 1
  else if isDev0 h ∧ c.p.clsB then h
  else if linkUsable h (1 - port) then sendOn h (1 - port) { c1 with p := { c1.p with clsB := c.p.clsB || isDev0 h } }
  else if portTo h c.p.tgt.toNat = some port then sendOn h port c1
  else h

/-- The packet is delivered on this device. A device without an address delivers no REQ, EVENT or FREEZE (R255), and the
source of a packet to every device had it when it was sent (R260). -/
def forHere (h : Hw) (kind : Nat) (p : Pkt) : Bool :=
  let t := p.tgt.toNat
  let named := if t = 0xFD then true else if t = 0xFE then !(isDev0 h)
    else if t = 0xFF then !(addressed h && p.sdev.toNat == ownAddr h)
    else addressed h && t == ownAddr h
  named && (addressed h || !([1, 3, 4].contains kind))

/-- The packet goes on to the other port. -/
def goesOn (h : Hw) (p : Pkt) : Bool :=
  let t := p.tgt.toNat
  if t = 0xFD then false
  else if t = 0xFE ∨ t = 0xFF then !(addressed h && p.sdev.toNat == ownAddr h)
  else !(addressed h && t == ownAddr h)

/-- The packet goes to or comes from an address that this device has given up (R258). -/
def toOld (h : Hw) (c : CPkt) : Bool :=
  c.kind != 0xA && c.p.tgt != 0xFD && (h.chain.old.contains c.p.tgt.toNat || h.chain.old.contains c.p.sdev.toNat)

/-- A FROZEN device accepts a resume from its neighbour only, and acknowledges it in its IDLE packets (R267). -/
def rxFrozen (h : Hw) (port : Nat) (c : CPkt) (crcOk : Bool) : Bool × Hw :=
  let x := linkSt h port
  if c.kind = 4 ∧ c.p.arg.getLsbD 1 ∧ crcOk ∧ c.p.seq = x.rxSeq then
    (true, sendOn (setLinkSt h port { x with rxSeq := x.rxSeq + 1 }) port (packet h 0 0xFD 1))
  else (false, h)

/-- A packet arrives on a lead port: checked, acknowledged, relayed, and true where it is delivered here. Every packet
discarded for its CRC, a reserved value or its number counts (R248, R249, Table 10.6). -/
def rxPacket (h : Hw) (port : Nat) (c : CPkt) (crcOk : Bool) : Bool × Hw :=
  let x := linkSt h port
  if ¬ h.clocked ∨ ¬ linkUp h port then (false, h)
  else if h.mode = .frozen then rxFrozen h port c crcOk
  else if ¬ crcOk ∨ badPkt c.kind c.p ∨ (reliable c.kind ∧ c.p.seq ≠ x.rxSeq) then
    (false, sendNak (bump h (aLK_ERR port) fLK_ERR_CRCCNT 1) port)
  else
    let h1 := if reliable c.kind then setLinkSt h port { x with rxSeq := x.rxSeq + 1, nakSent := false } else h
    let h2 := takeAck h1 port c.kind c.p
    let stale := toOld h2 c
    let h3 := if goesOn h2 c.p ∧ ¬ stale then relay h2 port c else h2
    let h4 := if reliable c.kind then returnCredit h3 port c else h3
    (forHere h c.kind c.p && !stale, h4)

/-! ## Links going down and up (R252, R281) -/

/-- This device's LINK report of a port, recorded here and sent on its other port (R252). A device without an address
has none to report. (DESIGN CHOICE, log 192) -/
def sendLink (h : Hw) (port : Nat) (up : Bool) : Hw :=
  if ¬ addressed h then h
  else
    let h1 := { h with chain.reports := insertAt h.chain.reports (2 * ownAddr h + port) up }
    sendOn (reroute h1) (1 - port) (packet h1 0xA 0xFF (ownAddr h + 64 * port + 128 * up.toNat))

/-- The LINK exchange after a roll call: this device reports its ports that are up to every device (R257). -/
def announceLinks (h : Hw) : Hw :=
  let ups := [0, 1].filter (linkUp h)
  let h1 := reroute (applyAll (fun h port => { h with chain.reports := insertAt h.chain.reports (2 * ownAddr h + port) true }) h ups)
  applyAll (fun h port => sendPkt h (packet h 0xA 0xFF (ownAddr h + 64 * port + 128))) h1 ups

/-- A packet that a link going down had not sent may move to the other port: its target is reached there, or it goes to
every device of a ring that was closed (R252, R260). (DEDUCED, log 191) -/
def moves (closed : Bool) (h : Hw) (port : Nat) (c : CPkt) : Bool :=
  let t := c.p.tgt.toNat
  portTo h t == some (1 - port) || (closed && (t == 0xFE || t == 0xFF))

/-- The link goes down: the replay buffer is lost, what was not sent moves to the other port where a route
exists. -/
def linkDown (h : Hw) (port : Nat) : Hw :=
  if ¬ linkUp h port then h
  else
    let x := linkSt h port
    let closed := isSet h aCH_ID fCH_ID_CLOSED
    let h1 := setF (setF h (aLK_STAT port) fLK_STAT_UP 0) (aLK_STAT port) fLK_STAT_LOCK 0
    let h2 := bump (raiseBit h1 (aLK_STAT port) fLK_STAT_DOWNEV) (aLK_STAT port) fLK_STAT_DOWNCNT 1
    let h3 := bump (setLinkSt h2 port LinkSt.reset) (aLK_ERR port) fLK_ERR_LOSTCNT x.replay.length
    let h4 := sendLink h3 port false
    let h5 := applyAll (fun h c => if moves closed h port c then sendOn h (1 - port) c else h) h4 x.txq
    raiseAlarm h5 0x100 (if port = 0 then 24 else 31) 0 port

/-- The link has trained. -/
def linkUpNow (h : Hw) (port : Nat) : Hw :=
  if linkUp h port ∨ ¬ isSet h (aLK_CTL port) fLK_CTL_EN ∨ ¬ h.clocked then h
  else
    let h1 := setF (raiseBit h (aLK_STAT port) fLK_STAT_UP) (aLK_STAT port) fLK_STAT_LOCK 0xFF
    sendLink (setLinkSt (setF h1 (aLK_STAT port) fLK_STAT_NBFRZ 0) port LinkSt.reset) port true

/-- An entry of the replay buffer whose packet was given up and was not received: its credit is free again (R258). -/
def freeGiven (x : LinkSt) (e : CPkt × Nat) : LinkSt :=
  let k := e.1.p.lccls.toNat
  if e.1.kind = 0xB ∧ e.1.p.lccnt = 0 ∧ k < 6 then { x with used := setD 0 x.used k (getD 0 x.used k - 1) } else x

/-- The entry once its credit is free. -/
def givenAgain (e : CPkt × Nat) : CPkt × Nat :=
  if e.1.kind = 0xB ∧ e.1.p.lccnt = 0 then ({ e.1 with p := { e.1.p with lccls := 7 } }, e.2 + 1) else (e.1, e.2 + 1)

/-- A NAK arrives: every packet from that number on is sent again; after eight resends of one packet the
link goes down (R249). -/
def takeNak (h : Hw) (port : Nat) (seq : BitVec 8) : Hw :=
  let x := linkSt h port
  if ¬ (x.replay.any fun e => e.1.p.seq == seq) then h
  else
    let kept := x.replay.takeWhile fun e => e.1.p.seq != seq
    let again := x.replay.dropWhile fun e => e.1.p.seq != seq
    if again.any fun e => 8 ≤ e.2 then linkDown h port
    else
      let x1 := again.foldl freeGiven { x with replay := kept ++ again.map givenAgain }
      bump (setLinkSt h port x1) (aLK_ERR port) fLK_ERR_REPLAYCNT again.length

/-- IDLE: the neighbour's state (R248, R267). -/
def takeIdle (h : Hw) (port : Nat) (frz : Bool) : Hw :=
  if isSet h (aLK_STAT port) fLK_STAT_NBFRZ = frz then h
  else reroute (setF h (aLK_STAT port) fLK_STAT_NBFRZ frz.toNat)

/-- A LINK report arrives (R259): from its device on, packets of that address are its own again (R258). -/
def takeLink (h : Hw) (arg : Nat) : Hw :=
  reroute { h with chain.reports := insertAt h.chain.reports (2 * (arg % 64) + arg / 64 % 2) (arg / 128 % 2 == 1),
                   chain.old := h.chain.old.filter (· != arg % 64) }

/-! ## Chain credits (R262) -/

def poolHere (h : Hw) (d : Nat) : Nat := (reg h (aCH_POOL (d / 8))).toNat / 2 ^ (8 * (d % 8)) % 256
def poolSum (h : Hw) : Nat := (List.range 64).foldl (fun acc d => acc + poolHere h d) 0
def setPoolHere (h : Hw) (d v : Nat) : Hw :=
  setReg h (aCH_POOL (d / 8))
    (BitVec.ofNat 64 (putField ⟨8 * (d % 8), 8, .rw, 0, .any⟩ (reg h (aCH_POOL (d / 8))).toNat v))

/-- The least pool of a device at the end of roll call. -/
def leastPool (d : Nat) : Nat := if d = 0 then 16 else 2

/-- The pool of this device at another: what this device set there, else what the other gives it, at least its share
after a roll call and at most the 256 entries there are (R262). (DESIGN CHOICE, log 59) -/
def remotePool (h : Hw) (d : Nat) : Nat :=
  match lookup h.chain.pools d with
  | some v => v
  | none => min 256 (max (leastPool (ownAddr h)) (Config.remotePool d))

/-- Firmware's pools at the end of roll call: at least 16 for device 0 and 2 for every other device.
(DESIGN CHOICE, log 158) -/
def rollPools (h : Hw) : Hw :=
  let least := leastPool
  let h := { h with chain.pools := h.chain.pools.map fun e => (e.1, max (leastPool (ownAddr h)) e.2) }
  let raised := applyAll (fun h d => if poolHere h d < least d then setPoolHere h d (least d) else h) h (List.range 64)
  if poolSum raised ≤ 256 then raised else applyAll (fun h d => setPoolHere h d (least d)) h (List.range 64)

/-- A write of `CH_POOL`w (R282). -/
def writeChPool (h : Hw) (w : Nat) (v : BitVec 64) : Hw :=
  let h1 := setReg h (aCH_POOL w) v
  if 256 < poolSum h1 then raiseBit h (aLK_STAT 0) fLK_STAT_RSVVAL else h1

/-! ## Roll call (R256 to R258) -/

/-- Device 0 ends the roll call, and sends its firmware to the devices that listen (R257, R279). -/
def rollDone (h : Hw) (count : Nat) (ring tooMany : Bool) : Hw :=
  let h0 := { h with chain.rolling := false, chain.fwOut := some 0,
                     chain.reports := h.chain.reports.filter fun e => e.1 / 2 < count }
  let h1 := setF (setF h0 aCH_ID fCH_ID_COUNT count) aCH_ID fCH_ID_RING ring.toNat
  let h2 := if tooMany then raiseAlarm (raiseBit h1 aCH_ID fCH_ID_OVER) 0x101 0xFF 0 0 else h1
  announceLinks (rollPools h2)

/-- Device 0 starts a roll call; with its LD link down it completes at once with a count of 1. -/
def rollStart (h : Hw) : Hw :=
  if ¬ linkUsable h 1 then rollDone h 1 false false
  else sendOn { h with chain.rolling := true } 1 (packet h 5 0xFD 0)

/-- Transmit muted, or no longer (R276). -/
def setMuted (h : Hw) (on : Bool) : Hw :=
  let h1 := setF h aCH_PART fCH_PART_MUTED on.toNat
  let h2 := applyAll (fun h j => setF h (aJL_STAT j) fJL_STAT_MUTED on.toNat) h1 (List.range 4)
  applyAll (fun h k => setF h (aETH_PSTAT k) fETH_PSTAT_MUTED on.toNat) h2 (List.range 16)

/-- RESUME, or a roll call that keeps the address: back to RUN, the mute lifted (R277). -/
def chainResume (h : Hw) : Hw :=
  let h1 := setMuted (setF h aCH_PART fCH_PART_ISOL 0) false
  if h1.mode = .isolated then setMode h1 .run else h1

/-- A packet to or from an address given up. -/
def stalePkt (old : Nat) (c : CPkt) : Bool := c.p.tgt != 0xFD && (c.p.sdev.toNat == old || c.p.tgt.toNat == old)

/-- An entry of the replay buffer given up: its number is sent in a CREDIT that returns nothing, which keeps the class of
the packet's credit. (DESIGN CHOICE, log 168) -/
def giveUp (h : Hw) (old : Nat) (e : CPkt × Nat) : CPkt × Nat :=
  match creditClass e.1 with
  | none => e
  | some k =>
    if stalePkt old e.1 then
      let b := packet h 0xB 0xFD 0
      ({ b with p := { b.p with seq := e.1.p.seq, ackSeq := e.1.p.ackSeq, lccls := BitVec.ofNat 3 k, lccnt := 0 } }, e.2)
    else e

/-- A new address: packets to and from the former one are discarded, those that wait here at once and those that arrive
from now on until its next holder reports (R258). (DESIGN CHOICE, log 168) -/
def moveFrom (h : Hw) (old : Nat) : Hw :=
  let one (x : LinkSt) : LinkSt :=
    { x with txq := x.txq.filter fun c => !(stalePkt old c), replay := x.replay.map (giveUp h old) }
  raiseBit { h with chain.links := h.chain.links.map (fun e => (e.1, one e.2)), chain.old := old :: h.chain.old.erase old }
    aCH_ID fCH_ID_MOVED

/-- ROLL arrives on LU: the address is taken, packets to or from a former one are discarded, and a partition policy ends
(R256 to R258, R276, R277). (DESIGN CHOICE, log 168) -/
def takeRoll (h : Hw) (port : Nat) (a : Nat) : Hw :=
  if port ≠ 0 then h
  else if isDev0 h then (if h.chain.rolling then rollDone h (a + 1) true false else h)
  else if a = 63 then sendOn h 0 (packet h 6 0 (63 + 64))
  else
    let old := ownAddr h
    let moved := addressed h && old != a + 1
    let same := addressed h && old == a + 1
    let h1 := raiseBit (setF h aCH_ID fCH_ID_ADDR (a + 1)) aCH_ID fCH_ID_AVLD
    let h1 := { h1 with chain.old := h1.chain.old.erase (a + 1) }
    let h2 := if moved then moveFrom h1 old else h1
    let isol := isSet h2 aCH_PART fCH_PART_ISOL
    let h3 := if same then (if isol then chainResume h2 else h2)
      else { (if isol then setMuted h2 false else h2) with chain.stepNext := true, chain.inLock := 0 }
    let h4 := rollPools { h3 with chain.reports := [] }
    let h5 := if linkUsable h4 1 then sendOn h4 1 (packet h4 5 0xFD (a + 1)) else sendOn h4 0 (packet h4 6 0 (a + 1))
    announceLinks h5

/-- ROLL_END reaches device 0 (R257). -/
def takeRollEnd (h : Hw) (arg : Nat) : Hw :=
  if isDev0 h ∧ h.chain.rolling then
    if arg / 64 % 2 = 1 then rollDone h 64 false true else rollDone h (arg % 64 + 1) false false
  else h

/-! ## Requests between devices (R261 to R265, R275) -/

/-- Entry numbers of the table of 256 outstanding requests that are free. -/
def freeOut (h : Hw) : Option Nat := (List.range 256).find? fun i => (lookup h.chain.out i).isNone

/-- Requests of this device outstanding at a device. -/
def outTo (h : Hw) (d : Nat) : Nat := h.chain.out.countP fun e => e.2.dev == d

/-- A request packet sent with its entry in the table. -/
def sendReq (h : Hw) (i : Nat) (o : ChOut) (c : CPkt) : Hw :=
  sendPkt { h with chain.out := insertAt h.chain.out i o } c

/-- Trough operations name their trough by its number in its yard. -/
def troughOp (op : Nat) : Bool := 3 ≤ op && op ≤ 7

/-- The request packet of a NoC request for another device. The header has no field for the destination router: an
address tells it, and for a trough operation it stands above the trough's number, in `ARG`[39:34].
(DESIGN CHOICE, log 58) -/
def reqPacket (h : Hw) (op : Nat) (f : Flit) (r : RouteFlit) : CPkt :=
  let a := f.addr.toNat
  let b := packet h 1 r.dev.toNat (if troughOp op then a % 2 ^ 34 + r.rdst.val * 2 ^ 34 else a)
  { b with p := { b.p with op := BitVec.ofNat 4 op, cnt := f.cnt, src := f.src, rb := f.rb, xl := r.xl, words := f.words } }

/-- The router at which a request packet is served: the translation unit, a trough's router, or that of the address
(R263). -/
def reqRouter (p : Pkt) : Nat :=
  let a := p.arg.toNat
  if p.xl then 17 else if troughOp p.op.toNat then a / 2 ^ 34 % 40 else routerOf a

/-- The address that a request packet names at its router. -/
def reqAddr (p : Pkt) : BitVec 40 := if troughOp p.op.toNat then p.arg &&& 0x3FFFFFFFF#40 else p.arg

/-- The route flit's buffer is free, and its credit returns (R261). -/
def freeRoute (h : Hw) (f : Flit) : Hw := setOutAt h f.src.val f.rb.toNat fun o => { o with cred := o.cred - 1 }

/-- A lead router holds a request for another device: it is sent, refused at once, or left waiting (none) (R261, R262,
R275). -/
def leadSend (h : Hw) (op : Nat) (f : Flit) (r : RouteFlit) : Option Hw :=
  let d := r.dev.toNat
  if h.mode = .isolated ∨ (portTo h d).isNone ∨ remotePool h d = 0 then
    some (refuseReq (bump h aCH_CNT fCH_CNT_NOROUTE 1) op f 1)
  else
    match freeOut h with
    | none => none
    | some i =>
      if remotePool h d ≤ outTo h d then none
      else some (sendReq (freeRoute h f) i ⟨d, op, some f, none⟩ (reqPacket h op f r))

/-- The requests that wait at a lead router are sent as credits and table entries allow; those to one device keep their
order (R262, R265). -/
def retryLeads (h : Hw) : Hw :=
  let toDev (q : DmaReq) : Option Nat := q.f.route.map fun r => r.dev.toNat
  let s := h.noc.leads.foldl (fun (s : List DmaReq × Hw) q =>
    match q.f.route with
    | none => s
    | some r =>
      if s.1.any fun b => toDev b == toDev q then (s.1 ++ [q], s.2)
      else
        match leadSend s.2 q.kind q.f r with
        | some h1 => (s.1, h1)
        | none => (s.1 ++ [q], s.2)) ([], h)
  { s.2 with noc.leads := s.1 }

/-- A request for another device reaches a lead router. -/
def leadArrive (h : Hw) (op : Nat) (f : Flit) : Hw :=
  retryLeads { h with noc.leads := h.noc.leads ++ [DmaReq.of op f] }

/-- The answer to a REQ goes back on the chain (R263). -/
def sendRsp (h : Hw) (dev op cnt src rb status : Nat) (ws : List TW) (ans : Option FwdAns) : Hw :=
  let b := packet h 2 dev 0
  let c : CPkt := { b with p := { b.p with op := BitVec.ofNat 4 op, cnt := BitVec.ofNat 3 cnt, src := Fin.ofNat 40 src,
                                             rb := BitVec.ofNat 5 rb, rstat := BitVec.ofNat 8 status, words := ws }, ans := ans }
  sendPkt { h with chain.poolUsed := setD 0 h.chain.poolUsed dev (getD 0 h.chain.poolUsed dev - 1) } c

/-- Words of a refused request's answer. (DESIGN CHOICE, log 56) -/
def faultWords (op cnt : Nat) : List TW :=
  if isRead op then List.replicate (if op = 0xA then 8 * (cnt + 1) else cnt + 1) TW.refusedWord else []

/-- A REQ delivered on this device that carries no command: issued on the NoC by the lead router it came
in at (R262, R263), or answered FAULT at once (R262, R275). -/
def takeReq (h : Hw) (port : Nat) (p : Pkt) : Hw :=
  let dev := p.sdev.toNat
  let src := p.src.val
  let fault (h : Hw) : Hw := sendRsp h dev p.op.toNat p.cnt.toNat src p.rb.toNat 1 (faultWords p.op.toNat p.cnt.toNat) none
  let h1 := { h with chain.poolUsed := setD 0 h.chain.poolUsed dev (getD 0 h.chain.poolUsed dev + 1) }
  if h.mode = .isolated ∨ 0xC ≤ p.op.toNat then fault h1
  else if poolHere h dev ≤ getD 0 h.chain.poolUsed dev then fault (bump h1 aCH_CNT fCH_CNT_POOLOVF 1)
  else
    let lead : Fin 40 := if port = 0 then 24 else 31
    let f : Flit := ⟨Fin.ofNat 40 (reqRouter p), lead, p.cnt, 0, reqAddr p, p.words, none⟩
    queueRequest h1 ⟨p.op.toNat, f, .chain dev src p.rb.toNat⟩

/-- What an answered request does for the one on whose behalf it was sent: the RSP leaves, or the forwarder learns of the
words accepted. -/
def answerChain (h : Hw) (op cnt : Nat) (o : Origin) (status : Nat) (ws : List TW) : Hw :=
  match o with
  | .chain dev src rb => sendRsp h dev op cnt src rb status ws none
  | .forwarder key count => if status = 0 then fwdAccept h key count else h
  | .own | .again | .part _ _ _ _ _ | .probe _ | .sched _ => h

/-- The table entry that a response answers. -/
def outFor (h : Hw) (dev src rb : Nat) : Option (Nat × ChOut) :=
  h.chain.out.find? fun e =>
    e.2.dev == dev && (match e.2.req with
      | some f => f.src.val == src && f.rb.toNat == rb
      | none => src == 38 && e.2.slot == some rb)

/-- The host's read of another device's DRAM met a hole: a device that is not ISOLATED refused it (R31). (DEDUCED, log 106) -/
def noteHole (h : Hw) (dev op : Nat) (f : Flit) (status : Nat) : Hw :=
  if f.src.val ≠ 33 ∨ status ≠ 1 ∨ ¬ isRead op ∨ 0xF00000000 ≤ f.addr.toNat ∨ (getD Peer.zero h.chain.peers dev).state = 4 then h
  else
    match outAt h 33 f.rb.toNat with
    | some (o, _) =>
      match o.req.origin with
      | .part id _ _ _ _ =>
        match lookup h.noc.wholes id with
        | some w => { h with noc.wholes := insertAt h.noc.wholes id { w with hole := true } }
        | none => h
      | _ => h
    | none => h

/-- A RSP to a NoC request is delivered to its buffer by the lead port that it came in at; one that comes late is
discarded (R263, R264). (DESIGN CHOICE, log 60) -/
def takeRsp (h : Hw) (port : Nat) (p : Pkt) : Hw :=
  match outFor h p.sdev.toNat p.src.val p.rb.toNat with
  | some (i, ⟨d, op, some f, _⟩) =>
    let h1 := noteHole { h with chain.out := removeAt h.chain.out i } d op f p.rstat.toNat
    respond h1 op { f with dst := if port = 0 then 24 else 31 } p.rstat.toNat p.words
  | some (_, ⟨_, _, none, _⟩) => h
  | none => bump h aCH_TMO fCH_TMO_LATECNT 1

/-- An outstanding request times out (R264). -/
def chainTimeout (h : Hw) (i : Nat) : Hw :=
  match lookup h.chain.out i with
  | some ⟨d, op, some f, _⟩ =>
    let h1 := bump { h with chain.out := removeAt h.chain.out i } aCH_TMO fCH_TMO_TMOCNT 1
    postFinding (refuseReq h1 op f 1) 0x0004 0x106 f.src.val f.addr.toNat d
  | _ => h

/-! ## Events and heartbeats (R266 to R269, R276) -/

/-- EVENT k for a yard mask raised here: lines 0xFC + k in the cycle after this one. -/
def takeEvent (h : Hw) (arg : Nat) : Hw :=
  applyAll (fun h y => if arg.testBit y then raiseLater h y (0xFC + arg / 2 ^ 16 % 4) (dueIn h y 1) else h) h (List.range 16)

/-- EVENT k sent to a target with a mask; its own yards hear it where the target names this device. -/
def sendEvent (h : Hw) (k tgt yards : Nat) : Hw :=
  if h.mode = .isolated ∨ frozen h then h
  else
    let arg := yards % 2 ^ 16 + k * 2 ^ 16
    let own := tgt = 0xFF ∨ (tgt = 0xFE ∧ ¬ isDev0 h) ∨ (addressed h ∧ tgt = ownAddr h)
    let h1 := if own then takeEvent h arg else h
    if addressed h ∧ tgt = ownAddr h then h1 else sendPkt h1 (packet h1 3 tgt arg)

/-- Summaries of every code with a count (R442). -/
def queueSummaries (h : Hw) : Hw :=
  if isDev0 h then h
  else applyAll (fun h e => if e.2.count = 0 then h
    else { h with obs.summaries := insertAt h.obs.summaries e.1 ⟨false⟩ }) h h.obs.alarms

/-- The partition policy applied (Table 10.3). -/
def applyPolicy (h : Hw) : Hw :=
  match getF h aCH_PART fCH_PART_POL with
  | 1 => setMuted h true
  | 2 => applyAll (fun h id => if id / 256 = 5 then h else stopFn h id 2) h allFns
  | _ => h

/-- The device enters ISOLATED, from TEST or RECOVERY once it would return to RUN (R269, R276, R468). -/
def isolate (h : Hw) : Hw :=
  let h1 := raiseBit h aCH_PART fCH_PART_ISOL
  let h2 := raiseAlarm h1 0x105 0xFF 0 0
  if h2.mode = .run then queueSummaries (applyPolicy (setMode h2 .isolated)) else h2

/-- A missed heartbeat of a device other than device 0 (R269). -/
def heartbeatMiss (h : Hw) : Hw :=
  if frozen h ∨ isDev0 h ∨ ¬ h.chain.armed ∨ isSet h aCH_PART fCH_PART_BEHINDFRZ ∨ 3 ≤ h.chain.misses then h
  else
    let h1 := bump { h with chain.misses := h.chain.misses + 1 } aCH_HB fCH_HB_MISSCNT 1
    if h1.chain.misses = 3 then isolate h1 else h1

/-- Code of a device state (Table 14.2). -/
def stateCode : DevState → Nat
  | .startUp => 0
  | .run => 1
  | .test => 2
  | .recovery => 3
  | .isolated => 4
  | .frozen => 5

def fwReady (h : Hw) : Bool := isSet h aHI_STAT fHI_STAT_FWRDY

/-- A heartbeat arrives: watch armed, answered (R268, R269, R277). -/
def takeHb (h : Hw) (port : Nat) (n : Nat) : Hw :=
  if ¬ addressed h then h
  else
    let h1 := setF (setF { h with chain.armed := true, chain.misses := 0 } aCH_HB fCH_HB_HBSEQ n) aCH_HB fCH_HB_HBAGE 0
    let h2 := if h1.mode = .isolated ∧ ¬ isSet h1 aCH_PART fCH_PART_RECON then
        queueSummaries (raiseBit h1 aCH_PART fCH_PART_RECON) else h1
    sendOn h2 port (packet h2 8 0 (n % 2 ^ 32 + stateCode h2.mode * 2 ^ 32 + (fwReady h2).toNat * 2 ^ 35))

def peer (h : Hw) (d : Nat) : Peer := getD Peer.zero h.chain.peers d
def setPeer (h : Hw) (d : Nat) (x : Peer) : Hw := { h with chain.peers := setD Peer.zero h.chain.peers d x }

/-- HB_ACK reaches device 0. -/
def takeHbAck (h : Hw) (dev arg : Nat) : Hw :=
  if isDev0 h then setPeer h dev ⟨arg / 2 ^ 32 % 8, arg / 2 ^ 35 % 2 == 1, true, 0⟩ else h

/-- Device 0 sends HB and counts silent devices (R268). (DEDUCED, log 65) -/
def heartbeatSend (h : Hw) : Hw :=
  let n := getF h aCH_ID fCH_ID_COUNT
  if frozen h ∨ ¬ isDev0 h ∨ n = 0 then h
  else
    let h1 := applyAll (fun h d =>
      if d = 0 ∨ n ≤ d then h
      else
        let x := peer h d
        let first := getF h aCH_HB fCH_HB_HBSEQ = 0
        let m := if x.heard ∨ first then x.misses else x.misses + 1
        let h1 := setPeer h d { x with heard := false, misses := m }
        if m = 3 ∧ x.misses ≠ 3 then raiseAlarm h1 0x102 0xFF 0 d else h1) h (List.range 64)
    let seq := (getF h1 aCH_HB fCH_HB_HBSEQ + 1) % 2 ^ 32
    let h2 := setF h1 aCH_HB fCH_HB_HBSEQ seq
    sendOn (sendOn h2 0 (packet h2 7 0xFE seq)) 1 (packet h2 7 0xFE seq)

/-- `HOLD` ms after ISOLATED under CONTINUE-THEN-MUTE (R276). -/
def muteHold (h : Hw) : Hw :=
  if ¬ frozen h ∧ h.mode = .isolated ∧ getF h aCH_PART fCH_PART_POL = 0 then setMuted h true else h

/-- Every counted device but device 0 reports firmware-ready. -/
def allReady (h : Hw) : Bool :=
  (List.range (getF h aCH_ID fCH_ID_COUNT)).all fun d => d == 0 || (peer h d).ready

/-- Chain-ready reported: `CHRDY`, with vector 19 (R280). -/
def reportReady (h : Hw) : Hw :=
  if isSet h aHI_STAT fHI_STAT_CHRDY then h else sendVector (raiseBit h aHI_STAT fHI_STAT_CHRDY) 19

def chainReady (h : Hw) : Hw :=
  if ¬ frozen h ∧ isDev0 h ∧ getF h aCH_ID fCH_ID_COUNT ≠ 0 ∧ allReady h then reportReady h else h

/-- 250 ms after roll call a device has not reported (R280). -/
def deviceLate (h : Hw) : Hw :=
  if frozen h ∨ ¬ isDev0 h ∨ getF h aCH_ID fCH_ID_COUNT = 0 ∨ allReady h then h
  else
    let absent := (List.range 64).foldl (fun acc d =>
      if d ≠ 0 ∧ d < getF h aCH_ID fCH_ID_COUNT ∧ ¬ (peer h d).ready then acc + 2 ^ d else acc) 0
    reportReady (raiseAlarm h 0x104 0xFF absent 0)

/-- An ALARM summary reaches device 0 (R442): pairs of words, one summary each. -/
def takeSummaries (h : Hw) : List TW → Hw
  | w0 :: w1 :: ws =>
    let d := w0.d.toNat
    let code := d % 2 ^ 9
    let cls := d / 2 ^ 9 % 4
    let r : LogRec := ⟨0x000B, code, w1.d.toNat % 2 ^ 64, cls, d / 2 ^ 12 % 64, 0xFF, 0, d / 2 ^ 18 % 2 ^ 32⟩
    let h1 := setF (writeLog h r) aHI_ALSUM fHI_ALSUM_CLS (getF h aHI_ALSUM fHI_ALSUM_CLS ||| 2 ^ cls)
    takeSummaries (if d.testBit 11 then sendVector h1 (classVector cls) else h1) ws
  | _ => h

/-- An ALARM summary leaves for device 0 (R442). -/
def summarySend (h : Hw) (code : Nat) : Hw :=
  match lookup h.obs.summaries code with
  | none => h
  | some s =>
    if frozen h ∨ isDev0 h ∨ ¬ addressed h then h
    else
      let a := alarm h code
      let w0 := code + (alarmClass code).getD 0 * 2 ^ 9 + s.first.toNat * 2 ^ 11 + ownAddr h * 2 ^ 12 + a.count * 2 ^ 18
      let words : List TW := [⟨BitVec.ofNat 72 w0, true, false, false, false, 0⟩,
        ⟨BitVec.ofNat 72 (a.last % 2 ^ 64), true, false, false, false, 0⟩]
      let b := packet h 0xD 0 0
      sendPkt { h with obs.summaries := removeAt h.obs.summaries code } { b with p := { b.p with words := words } }

/-- FW bytes on a listening device: stored where they come in on LU and, in `rxPacket`, relayed (R279). -/
def takeFw (h : Hw) (port off : Nat) (ws : List TW) : Hw :=
  let bytes := (ws.map fun t => leBytes 9 t.d.toNat).flatten
  let put := (List.zip (List.range bytes.length) bytes).foldl (fun m b => setD 0 m (off + b.1) b.2) h.chain.fw
  if getF h aDV_BOOT fDV_BOOT_STAGE = 4 ∧ port = 0 then { h with chain.fw := put } else h

/-- Length that the header of the stored firmware gives (R371), and its bytes. -/
def fwLength (h : Hw) : Nat := leNat ((List.range 4).map fun i => getD 0 h.chain.fw (8 + i))
def fwImage (h : Hw) : List Byte := (List.range (min (fwLength h) 0x100000)).map fun i => getD 0 h.chain.fw i

/-- With the bytes of a packet the whole image is stored. -/
def fwWhole (h : Hw) (off : Nat) (ws : List TW) : Bool := 12 ≤ off + 9 * ws.length && fwLength h ≤ off + 9 * ws.length

/-- Device 0 sends the next 576 bytes of the firmware image that it runs to the devices that listen, once every packet
before them has left (R279). (DESIGN CHOICE, log 193) -/
def sendFw (h : Hw) (image : List Byte) : Hw :=
  match h.chain.fwOut with
  | none => h
  | some off =>
    let waits := (linkSt h 0).txq.any (fun c => c.kind == 0xE) || (linkSt h 1).txq.any fun c => c.kind == 0xE
    if frozen h ∨ ¬ isDev0 h ∨ waits then h
    else if image.length ≤ off then { h with chain.fwOut := none }
    else
      let bytes := (image.drop off).take 576
      let b := packet h 0xE 0xFE off
      let ws := (List.range ((bytes.length + 8) / 9)).map fun i =>
        TW.data (BitVec.ofNat 72 (leNat ((bytes.drop (9 * i)).take 9)))
      sendPkt { h with chain.fwOut := some (off + 576) } { b with p := { b.p with words := ws } }

end Sys2Proof.Machine
end

