-- ==== Sys2Proof/Machine/Fio.lean ====
section
/-!
DEFINITION. FIO pads: the owner of each pad under the owner-priority table, losses, and the level of each
bank (R337, R338, R344, R477 to R479, R289).
-/

namespace Sys2Proof.Machine

/-! ## Directions that go down -/

/-- The direction goes down because of its configuration or its pad (R284, R289). -/
def jDownErr (h : Hw) (d : Nat) : Hw := jRaise (jSetUp h d false) (d / 2) fJL_STAT_CFGERR

/-! ## Owners of pads (R477 to R479) -/

def syncPad (h : Hw) (d : Nat) : Nat :=
  getF h (aJL_CTL (d / 2)) (if d % 2 = 0 then fJL_CTL_RXSYNCPAD else fJL_CTL_TXSYNCPAD)

/-- The 204B directions that claim a pad. -/
def syncClaims (h : Hw) (p : Nat) : List Nat :=
  (List.range 8).filter fun d => jEn h d && jIsB h d && syncPad h d == p

/-- An armed gate entry with `PINEN` = 1 names the pad. -/
def gatePins (h : Hw) (i p : Nat) : Bool :=
  isSet h (aGS_CTL i) fGS_CTL_ARM && isSet h (aGS_CTL i) fGS_CTL_PINEN && getF h (aGS_CTL i) fGS_CTL_PAD == p

/-- The claim of an owner code of `FIO_PAD.OWNER` on a pad stands (Table 20.4). -/
def padClaimed (h : Hw) (p code : Nat) : Bool :=
  match code with
  | 3 => !(syncClaims h p).isEmpty
  | 4 => isSet h aTB_PPS fTB_PPS_EN && getF h aTB_PPS fTB_PPS_PAD == p
  | 2 => (List.range 64).any fun i => gatePins h i p
  | 1 => isSet h (aFIO_PAD p) fFIO_PAD_FCLAIM
  | _ => false

/-- Owner codes from the highest priority down. -/
def padPriority : List Nat := [3, 4, 2, 1]

/-- The highest-priority owner whose claim stands, 0 for none. -/
def bestOwner (h : Hw) (p : Nat) : Nat := (padPriority.find? fun c => padClaimed h p c).getD 0

def padOwner (h : Hw) (p : Nat) : Nat := getF h (aFIO_PAD p) fFIO_PAD_OWNER

/-- The direction that holds the pad as SYNC~. -/
def syncHolder (h : Hw) (p : Nat) : Option Nat := lookup h.padSync p

/-- A feature shows that it does not have a pad it claims (Table 20.4). `GS_STAT.NOPAD` is a view. -/
def showLoss (h : Hw) (p code : Nat) : Hw :=
  match code with
  | 3 => applyAll (fun h d => if syncHolder h p = some d then h else jDownErr h d) h (syncClaims h p)
  | 4 => raiseBit h aTB_CTL fTB_CTL_RSVVAL
  | 1 => raiseBit h (aFIO_PAD p) fFIO_PAD_LOST
  | _ => h

/-- The pad passes to the highest-priority standing claim; among SYNC~ claims the first holder keeps it. A
holder that a higher claim displaces shows its loss (R478, R479). -/
def settlePad (h : Hw) (p : Nat) : Hw :=
  let best := bestOwner h p
  let old := padOwner h p
  let cands := syncClaims h p
  let holder := match syncHolder h p with
    | some d => if cands.contains d then some d else cands.head?
    | none => cands.head?
  let sync := match holder with
    | some d => insertAt h.padSync p d
    | none => removeAt h.padSync p
  let h1 := setF { h with padSync := sync } (aFIO_PAD p) fFIO_PAD_OWNER best
  if old ≠ best ∧ padClaimed h p old then showLoss h1 p old else h1

/-- The pad is resolved again at the next edge of FCLK. -/
def padAtEdge (h : Hw) (p : Nat) : Hw := { h with padDue := if p ∈ h.padDue then h.padDue else h.padDue ++ [p] }

/-- A claim made by a diagnostic write: a feature that does not get the pad shows it; one that outranks the holder
takes the pad at the next edge of FCLK, a pad that nobody holds at once (R478). (DEDUCED, log 82) -/
def claimPad (h : Hw) (p code : Nat) : Hw :=
  if ¬ padClaimed h p code then h
  else if bestOwner h p ≠ code then showLoss h p code
  else if padOwner h p = 0 ∨ padOwner h p = code then
    let h1 := settlePad h p
    if code = 3 then showLoss h1 p 3 else h1
  else padAtEdge h p

/-- The pads claimed from a lower holder or released since the last edge of FCLK pass on at this one (R478, R479). -/
def passPads (h : Hw) : Hw :=
  if h.aclk % 4 = 0 then applyAll settlePad { h with padDue := [] } h.padDue else h

/-- Another feature than the one of a code holds the pad: a command's claim is refused (R478). -/
def padTaken (h : Hw) (p code : Nat) : Bool := padOwner h p ≠ 0 && padOwner h p ≠ code

/-- A write of `FIO_PAD.FCLAIM` (R344). -/
def writeFclaim (h : Hw) (p : Nat) (claim : Bool) : Hw :=
  if frozen h then h
  else
    let h1 := setF h (aFIO_PAD p) fFIO_PAD_FCLAIM claim.toNat
    if claim then claimPad h1 p 1 else h1

/-- A holder whose claim has ended gives the pad up: it passes at the next edge of FCLK (R479). -/
def releasePad (h : Hw) (p : Nat) : Hw :=
  if ¬ frozen h ∧ padOwner h p ≠ 0 ∧ ¬ padClaimed h p (padOwner h p) then padAtEdge h p else h

/-! ## Banks (R337) -/

/-- A write of `V33` with VIN at `mv` millivolts. -/
def writeBank (h : Hw) (b : Nat) (v33 : Bool) (mv : Nat) : Hw :=
  let a := aFIO_BANK b
  if frozen h then h
  else
    let h1 := setF h a fFIO_BANK_V33 v33.toNat
    if ¬ v33 then setF (setF h1 a fFIO_BANK_ACT33 0) a fFIO_BANK_OFF 0
    else if 3600 ≤ mv then setF (setF h1 a fFIO_BANK_ACT33 1) a fFIO_BANK_OFF 0
    else raiseBit h1 a fFIO_BANK_VLOW

/-- VIN falls below 3.55 V under a bank at 3.3 V: its pads are held off, and the 204B directions whose SYNC~
stands there go down until they are reset (R289, R337). -/
def bankLow (h : Hw) (b : Nat) : Hw :=
  let a := aFIO_BANK b
  if ¬ isSet h a fFIO_BANK_ACT33 ∨ ¬ h.clocked then h
  else
    let h1 := raiseBit (setF h a fFIO_BANK_ACT33 0) a fFIO_BANK_OFF
    let h2 := applyAll (fun h d =>
      if jEn h d ∧ jIsB h d ∧ syncPad h d / 16 = b then jDownErr (setJdir h d { jdir h d with held := true }) d
      else h) h1 (List.range 8)
    raiseAlarm h2 0x140 0xFF 0 b

end Sys2Proof.Machine
end

