-- ==== Sys2Proof/Machine/Timebase.lean ====
section
/-!
DEFINITION. The time counter, steering, holdover, time capture, PPS and the gate schedule (R308 to R325).
Times are in units of 2^-32 ns where a name ends in 32, gate times in 1/256 ns.
-/

namespace Sys2Proof.Machine

/-! ## The counter (R308, R309) -/

/-- 10^9 ns. -/
abbrev nsPerSec : Nat := 1000000000

/-- The counter in 2^-32 ns. -/
def now32 (h : Hw) : Nat := (h.tb.sec * nsPerSec + h.tb.ns) * 2 ^ 32 + h.tb.frac

/-- The chain servo owns the timebase (R311). -/
def chainOwned (h : Hw) : Bool := !(isDev0 h) && isSet h aCH_TA fCH_TA_EN && h.mode != .isolated

/-- EFF before its limits: the increment in use and, where it applies, the holdover term. -/
def rawEff (h : Hw) : Int :=
  (h.tb.inc : Int) + (if isSet h aTB_CTL fTB_CTL_HOEN ∧ ¬ chainOwned h then h.tb.hUse else 0)

/-- EFF limited to ±200 ppm, and whether it was limited. -/
def effOf (h : Hw) : Nat × Bool :=
  let e := rawEff h
  if e < 0xD04AAAAA then (0xD04AAAAA, true)
  else if 0xD0600000 < e then (0xD0600000, true)
  else (e.toNat, false)

/-- The counter as it stands in the next cycle, but for a step or a set (R308, R310). (DEDUCED, log 78) -/
def advanceTb (t : Timebase) (eff : Nat) : Timebase :=
  let s := t.frac + eff
  let ns := t.ns + s / 2 ^ 32
  let carry := nsPerSec ≤ ns
  { t with frac := s % 2 ^ 32, ns := if carry then ns - nsPerSec else ns,
           sec := if carry then (t.sec + 1) % 2 ^ 48 else t.sec }

/-- A counter at a time given in 2^-32 ns. -/
def tbAt32 (t : Timebase) (x : Nat) : Timebase :=
  let n := x / 2 ^ 32
  { t with frac := x % 2 ^ 32, ns := n % nsPerSec, sec := n / nsPerSec % 2 ^ 48 }

/-- 2^48 s in ns. -/
abbrev tbEnd : Int := (2 ^ 48 * nsPerSec : Nat)

/-- One step or set applied (R310, R270). -/
def applyTbOp (t : Timebase) : TbOp → Timebase
  | .set sec ns => { t with sec := sec, ns := ns, frac := 0 }
  | .step k =>
    let n : Int := ((t.sec * nsPerSec + t.ns : Nat) : Int) + k
    if n < 0 ∨ tbEnd ≤ n then t
    else { t with sec := n.toNat / nsPerSec, ns := n.toNat % nsPerSec }
  | .shift x =>
    let n : Int := (((t.sec * nsPerSec + t.ns) * 2 ^ 32 + t.frac : Nat) : Int) + x
    if n < 0 then tbAt32 t 0 else tbAt32 t n.toNat

/-! ## Gate entries (R317 to R323) -/

def gate (h : Hw) (i : Nat) : Gate := getD Gate.reset h.gates i
def setGate (h : Hw) (i : Nat) (g : Gate) : Hw := { h with gates := setD Gate.reset h.gates i g }

/-- A gate time in 2^-32 ns. -/
abbrev t32 (x : Nat) : Nat := x * 2 ^ 24

def gArmed (h : Hw) (i : Nat) : Bool := isSet h (aGS_CTL i) fGS_CTL_ARM
/-- The window of an armed entry is open. -/
def gOpen (h : Hw) (i : Nat) : Bool := (gate h i).isOpen && gArmed h i
def gPin (h : Hw) (i : Nat) : Bool := isSet h (aGS_CTL i) fGS_CTL_PINEN

/-- The entry uses its stop (R318). -/
def usesStop (v : Nat) : Bool := fieldOf fGS_CTL_PINEN v == 1 || 2 ≤ fieldOf fGS_CTL_EVMODE v

/-- Stop − start is less than one resolution step (R318). -/
def emptyOcc (h : Hw) (i : Nat) (g : Gate) : Bool :=
  usesStop (reg h (aGS_CTL i)).toNat &&
    (if gPin h i then 2 * t32 (g.stop - g.start) < (effOf h).1 else t32 (g.stop - g.start) < (effOf h).1)

/-- The occurrence in force becomes the next one in the current cycle, A (R320). (DEDUCED, log 79) -/
def placeOcc (h : Hw) (g : Gate) : Gate :=
  { g with armA := h.aclk, evLate := t32 g.start < now32 h, pinLate := t32 g.start < now32 h + 16 * (effOf h).1 }

/-- A forward step or set to time `to32` in cycle `cyc` passed the start of the entry's next occurrence: the
latest one passed is late, with A = `cyc`; earlier ones are skipped (R323). -/
def skipOcc (g : Gate) (to32 cyc : Nat) : Gate :=
  if to32 < t32 g.start then g
  else
    let k := if g.per = 0 then 0 else (to32 / 2 ^ 24 - g.start) / g.per
    { g with start := g.start + k * g.per, stop := g.stop + k * g.per, evLate := true, pinLate := true, armA := cyc }

/-- The counter moved forward by a step or set from `from32` to `to32`. -/
def gatesStepped (h : Hw) (from32 to32 : Nat) : Hw :=
  if to32 ≤ from32 then h
  else
    applyAll (fun h e =>
      let g := e.2
      if ¬ gArmed h e.1 then h
      else if gOpen h e.1 then setGate h e.1 { g with skip := some (to32, h.aclk) }
      else setGate h e.1 (skipOcc g to32 h.aclk)) h h.gates

/-- The time counter goes on to the cycle that has just begun: EFF, steps and sets, and what takes effect
from this cycle (R308, R310, R312). -/
def tickTime (h : Hw) : Hw :=
  let e := effOf h
  let t1 := advanceTb h.tb e.1
  let t2 := h.tb.ops.foldl applyTbOp t1
  let from32 := (t1.sec * nsPerSec + t1.ns) * 2 ^ 32 + t1.frac
  let h1 := setF { h with tb := { t2 with inc := getF h aTB_INC fTB_INC_INC, hUse := h.tb.h, ops := [] } } aTB_HO fTB_HO_EFF e.1
  let h2 := if e.2 then raiseBit h1 aTB_CTL fTB_CTL_INCLIM else h1
  if h.tb.ops.isEmpty then h2 else gatesStepped h2 from32 (now32 h2)

/-! ## Steering (R310, R311) -/

/-- The counter of the next cycle. -/
def tbNext (h : Hw) : Timebase := h.tb.ops.foldl applyTbOp (advanceTb h.tb (effOf h).1)

def askTb (h : Hw) (op : TbOp) : Hw :=
  raiseBit { h with tb := { h.tb with ops := h.tb.ops ++ [op] } } aTB_CTL fTB_CTL_STEPPED

/-- An increment within ±200 ppm. -/
def incOk (v : Nat) : Bool := 0xD04AAAAA ≤ v && v ≤ 0xD0600000

/-- The result of a step lies from 0 s to before 2^48 s. -/
def stepOk (h : Hw) (k : Int) : Bool :=
  let t := tbNext h
  let n : Int := ((t.sec * nsPerSec + t.ns : Nat) : Int) + k
  0 ≤ n && n < tbEnd

def tbRsv (h : Hw) : Hw := raiseBit h aTB_CTL fTB_CTL_RSVVAL
def tbChown (h : Hw) : Hw := raiseBit h aTB_CTL fTB_CTL_CHOWN

/-- A write of `TB_INC`. -/
def writeInc (h : Hw) (v : BitVec 64) : Hw :=
  if frozen h then h
  else if chainOwned h then tbChown h
  else if incOk v.toNat then setReg h aTB_INC v
  else tbRsv h

/-- A write of `TB_STEP`. -/
def writeStep (h : Hw) (v : BitVec 64) : Hw :=
  if frozen h then h
  else if chainOwned h then tbChown h
  else
    let h1 := setF h aTB_STEP fTB_STEP_OFS v.toNat
    let k := signed 48 (v.toNat % 2 ^ 48)
    if ¬ v.getLsbD 63 then h1
    else if stepOk h1 k then askTb h1 (.step k)
    else tbRsv h1

/-- A write of `TB_SET1`. -/
def writeSet (h : Hw) (v : BitVec 64) : Hw :=
  if frozen h then h
  else if chainOwned h then tbChown h
  else
    let ns := fieldOf fTB_SET1_NS v.toNat
    let h1 := setF h aTB_SET1 fTB_SET1_NS ns
    if ¬ v.getLsbD 63 then h1
    else if ns < nsPerSec then askTb h1 (.set (getF h1 aTB_SET0 fTB_SET0_SEC) ns)
    else tbRsv h1

/-- `FRAC` and `NS` of a time in 2^-32 ns, as `TB_TIME0` lays them out. -/
def time0Of (x : Nat) : Nat := x % 2 ^ 32 + (x / 2 ^ 32 % nsPerSec) * 2 ^ 32

/-- Seconds of a time in 2^-32 ns. -/
def secOf (x : Nat) : Nat := x / 2 ^ 32 / nsPerSec % 2 ^ 48

/-- A read of `TB_TIME0` latches `TB_TIME1` (R309). -/
def readTime0 (h : Hw) : BitVec 64 × Hw :=
  (BitVec.ofNat 64 (time0Of (now32 h)), setReg h aTB_TIME1 (BitVec.ofNat 64 h.tb.sec))

/-- `CRD_LATCH` copies `CRD_TICK` and the whole counter (R169, R309). -/
def latchTime (h : Hw) : Hw :=
  if frozen h then h
  else
    setReg (setReg (setReg h aCRD_TICKL (BitVec.ofNat 64 (crdTick h))) aTB_LAT0 (BitVec.ofNat 64 (time0Of (now32 h))))
      aTB_LAT1 (BitVec.ofNat 64 h.tb.sec)

/-! ## Holdover (R312) -/

/-- The correction for a temperature in 1/16 °C. -/
def tempCorr (h : Hw) (t : Int) : Int :=
  let base := signed 13 (getF h aTB_TCCFG fTB_TCCFG_BASE)
  let step := getF h aTB_TCCFG fTB_TCCFG_STEP
  let x0 := Int.fdiv ((t - base) * 256) step
  let x := if x0 < 0 then 0 else if 31 * 256 < x0 then 31 * 256 else x0.toNat
  let corr (i : Nat) : Int := signed 24 (getF h (aTB_TCTAB i) fTB_TCTAB_CORR)
  let i := x / 256
  if i = 31 then corr 31 else corr i + Int.fdiv ((corr (i + 1) - corr i) * (x % 256 : Nat)) 256

/-- The divider of 1,228,800 ACLK cycles ends its millisecond in this cycle (R312). (DESIGN CHOICE, log 208) -/
def holdoverDue (h : Hw) : Bool := h.aclk % 1228800 == 0 && h.tb.hoAt != h.aclk + 1

/-- The 1 ms update: the temperature, the ageing accumulator, which keeps 64 bits, and h. (DEDUCED, log 210) -/
def holdoverStep (h : Hw) (die : BitVec 13) : Hw :=
  if frozen h ∨ ¬ holdoverDue h then h
  else
    let h1 := setF { h with tb.hoAt := h.aclk + 1 } aTB_TEMP fTB_TEMP_DIE die.toNat
    let t := if isSet h1 aTB_CTL fTB_CTL_TSRC then getF h1 aTB_TEMP fTB_TEMP_TEMP else die.toNat
    let ag := signed 64 (reg h1 aTB_AGEACC).toNat + signed 32 (getF h1 aTB_AGERATE fTB_AGERATE_RATE)
    let agW := BitVec.ofInt 64 ag
    let hv := tempCorr h1 (signed 13 t) + Int.fdiv agW.toInt (2 ^ 32)
    let shown := if hv < -(2 ^ 31) then -(2 ^ 31) else if 2 ^ 31 - 1 < hv then 2 ^ 31 - 1 else hv
    setF (setReg { h1 with tb := { h1.tb with h := hv } } aTB_AGEACC agW) aTB_HO fTB_HO_H (rawOf 32 shown)

/-! ## Time capture and PPS (R315, R316) -/

/-- An edge on the capture pad, in the first or the second slot of the cycle. -/
def timeCapture (h : Hw) (falling half : Bool) : Hw :=
  if frozen h ∨ ¬ isSet h aTB_CAPIN fTB_CAPIN_EN ∨ isSet h aTB_CAPIN fTB_CAPIN_EDGE ≠ falling then h
  else
    let x := now32 h + (if half then (effOf h).1 / 2 else 0)
    let h1 := if isSet h aTB_CAPIN fTB_CAPIN_VALID then raiseBit h aTB_CAPIN fTB_CAPIN_OVR else h
    setReg (setReg (raiseBit h1 aTB_CAPIN fTB_CAPIN_VALID) aTB_CAP0 (BitVec.ofNat 64 (time0Of x)))
      aTB_CAP1 (BitVec.ofNat 64 (secOf x))

/-- The slot (two a cycle) of the first boundary at or after a time that the counter reached in this cycle;
a time reached by a step counts from the cycle's start (R317). -/
def slotOfTime (h : Hw) (x : Nat) : Nat := 2 * h.aclk - min 1 (2 * (now32 h - x) / (effOf h).1)

/-- The PPS output has its pad. -/
def ppsGranted (h : Hw) : Bool :=
  isSet h aTB_PPS fTB_PPS_EN && padOwner h (getF h aTB_PPS fTB_PPS_PAD) == 4

/-- The pad rises in the cycle in which the counter reaches `NS` = 0. -/
def ppsUp (h : Hw) : Hw :=
  let into := h.tb.ns * 2 ^ 32 + h.tb.frac
  if frozen h ∨ ¬ ppsGranted h ∨ h.ppsHigh ∨ (effOf h).1 ≤ into then h
  else { h with ppsHigh := true, ppsSlot := slotOfTime h (now32 h - into) + 1 }

/-- The pad falls `WIDTH` µs after its rise. -/
def ppsDown (h : Hw) : Hw :=
  let w := getF h aTB_PPS fTB_PPS_WIDTH * 1000
  if frozen h ∨ ¬ h.ppsHigh ∨ h.tb.ns < w then h
  else { h with ppsHigh := false, ppsSlot := slotOfTime h ((h.tb.sec * nsPerSec + w) * 2 ^ 32) + 1 }

/-- A write of `TB_PPS`: the pad it names is claimed while `EN` = 1 (R316, R477). -/
def claimPps (h : Hw) : Hw :=
  let h1 := if isSet h aTB_PPS fTB_PPS_EN then h else { h with ppsHigh := false }
  if isSet h1 aTB_PPS fTB_PPS_EN then claimPad h1 (getF h1 aTB_PPS fTB_PPS_PAD) 4 else h1

/-! ## Commits and occurrences (R319 to R322) -/

/-- The staged start, stop, period and count of an entry. -/
def stagedGate (h : Hw) (i : Nat) : Nat × Nat × Nat × Nat :=
  let time (s n : Nat) : Nat := (s * nsPerSec + n % 2 ^ 30) * 256 + n / 2 ^ 32 % 256
  (time (getF h (aGS_STARTS i) fGS_STARTS_SEC) (reg h (aGS_STARTN i)).toNat,
   time (getF h (aGS_STOPS i) fGS_STOPS_SEC) (reg h (aGS_STOPN i)).toNat,
   getF h (aGS_PERIOD i) fGS_PERIOD_PERIOD * 256 + getF h (aGS_PERIOD i) fGS_PERIOD_SUB,
   getF h (aGS_PERIOD i) fGS_PERIOD_COUNT)

/-- Another armed entry with `PINEN` = 1 on the same pad has another `POL`. (DEDUCED, log 81) -/
def polClash (h : Hw) (i v : Nat) : Bool :=
  fieldOf fGS_CTL_PINEN v == 1 && (List.range 64).any fun k =>
    k != i && gatePins h k (fieldOf fGS_CTL_PAD v) && getF h (aGS_CTL k) fGS_CTL_POL != fieldOf fGS_CTL_POL v

/-- R319 refuses the commit of a control word with a start, stop and period. -/
def commitRefused (h : Hw) (i v start stop per : Nat) : Bool :=
  (usesStop v && (stop < start || (per != 0 && per ≤ stop - start))) || polClash h i v

/-- The commit takes effect (R322). -/
def commitGate (h : Hw) (i v start stop per cnt : Nat) (bySet : Bool) : Hw :=
  let word := v % 2 ^ 11
  let g := gate h i
  let h1 := setReg h (aGS_CTL i) (BitVec.ofNat 64 word)
  let armed := word % 2 == 1
  let g1 := { g with start := start, stop := stop, per := per, cnt := cnt, bySet := bySet && armed }
  let g2 :=
    if gOpen h i then
      if armed then { g1 with closeAt := 2 * h.aclk + 2, inForce := some (g.inForce.getD (g.start, g.per)) }
      else { g1 with isOpen := false, fall := 2 * h.aclk + 2, skip := none, inForce := none }
    else if armed then placeOcc h1 { g1 with isOpen := false, skip := none, inForce := none }
    else { g1 with isOpen := false, inForce := none }
  let h2 := setGate h1 i g2
  if armed ∧ gPin h2 i then claimPad h2 (getF h2 (aGS_CTL i) fGS_CTL_PAD) 2 else h2

/-- A write of `GS_CTL`. -/
def writeGsCtl (h : Hw) (i v : Nat) : Hw :=
  let s := stagedGate h i
  if frozen h then h
  else if commitRefused h i v s.1 s.2.1 s.2.2.1 then raiseBit h (aGS_STAT i) fGS_STAT_INVWR
  else commitGate h i v s.1 s.2.1 s.2.2.1 s.2.2.2 false

/-- The strobe on line 0x80 + i of every yard, once a cycle (R317, R147). -/
def strobe (h : Hw) (i : Nat) : Hw :=
  let g := gate h i
  if g.strobeAt = h.aclk + 1 then h
  else gateStrobe (raiseEventAll (setGate h i { g with strobeAt := h.aclk + 1 }) (0x80 + i)) i

/-- The occurrence is over: the entry disarms or its next occurrence comes into force (R320, R323). -/
def endOcc (h : Hw) (i : Nat) : Hw :=
  let g := gate h i
  let disarm (h : Hw) : Hw := setF h (aGS_CTL i) fGS_CTL_ARM 0
  if g.per = 0 then disarm (setGate h i { g with skip := none, inForce := none })
  else
    let g1 := { g with start := g.start + g.per, stop := g.stop + g.per, cnt := g.cnt - 1, skip := none, inForce := none }
    if g.cnt = 1 then disarm (setGate h i g1)
    else
      let g2 := placeOcc h g1
      setGate h i (match g.skip with
        | some (to32, cyc) => skipOcc g2 to32 cyc
        | none => g2)

/-- An armed entry's start is reached, or a late one's strobe is due (Table 12.2). -/
def gateStartAt (h : Hw) (i : Nat) : Hw :=
  let g := gate h i
  let due := if g.evLate then g.armA + 1 ≤ h.aclk else t32 g.start ≤ now32 h
  if frozen h ∨ ¬ gArmed h i ∨ gOpen h i ∨ ¬ due then h
  else
    let a := aGS_STAT i
    let ev := getF h (aGS_CTL i) fGS_CTL_EVMODE
    let late := g.evLate || (gPin h i && g.pinLate)
    let fire (h : Hw) : Hw := if ev % 2 = 1 then strobe h i else h
    let lateCount (h : Hw) : Hw := if late then bump h a fGS_STAT_LATECNT 1 else h
    let rise := if g.pinLate then 2 * (g.armA + 16) else slotOfTime h (t32 g.start)
    let rise32 : Int := (now32 h : Int) + ((g.armA + 16 : Nat) - (h.aclk : Int)) * (effOf h).1
    if emptyOcc h i g then endOcc (bump h a fGS_STAT_EMPTYCNT 1) i
    else if ¬ usesStop (reg h (aGS_CTL i)).toNat then endOcc (bump (lateCount (fire h)) a fGS_STAT_FIRECNT 1) i
    else if late ∧ (t32 g.stop : Int) ≤ rise32 then
      endOcc (bump (lateCount (fire h)) a fGS_STAT_EMPTYCNT 1) i
    else
      let h1 := bump (lateCount (fire h)) a fGS_STAT_FIRECNT 1
      setGate h1 i { gate h1 i with isOpen := true, rise := rise + 1, closeAt := 0 }

/-- The stop of an open window is reached. -/
def gateStopAt (h : Hw) (i : Nat) : Hw :=
  let g := gate h i
  if frozen h ∨ ¬ gOpen h i ∨ now32 h < t32 g.stop then h
  else
    let h1 := if 2 ≤ getF h (aGS_CTL i) fGS_CTL_EVMODE then strobe h i else h
    let h2 := setGate h1 i { gate h1 i with isOpen := false, fall := max (slotOfTime h (t32 g.stop) + 1) g.closeAt }
    endOcc h2 i

/-- The window of an entry is open in slot j (half cycles) from the start of the current cycle: open and not
yet at its stop, or in the next occurrence (R317, R335). -/
def windowAhead (h : Hw) (i ahead : Nat) : Bool :=
  let g := gate h i
  let x2 := 2 * now32 h + ahead * (effOf h).1
  let slot := 2 * h.aclk + ahead
  if gOpen h i then g.rise ≤ slot + 1 && (x2 < 2 * t32 g.stop || slot + 1 < g.closeAt)
  else
    gArmed h i && usesStop (reg h (aGS_CTL i)).toNat && !(emptyOcc h i g) && x2 < 2 * t32 g.stop &&
      (if g.pinLate then 2 * (g.armA + 16) ≤ slot else 2 * t32 g.start ≤ x2)

/-- `GS_STAT` as it reads: `OPEN` and `NOPAD` are views. -/
def gsStat (h : Hw) (i : Nat) : BitVec 64 :=
  let v := (reg h (aGS_STAT i)).toNat
  let noPad := gArmed h i && gPin h i && padOwner h (getF h (aGS_CTL i) fGS_CTL_PAD) != 2
  BitVec.ofNat 64 (putField fGS_STAT_NOPAD (putField fGS_STAT_OPEN v (gOpen h i).toNat) noPad.toNat)

/-- The start, stop or period word of an entry as it reads: the occurrence in force (R325). -/
def gsRead (h : Hw) (i word : Nat) : BitVec 64 :=
  let g := gate h i
  let secs (x : Nat) := x / 256 / nsPerSec
  let nsub (x : Nat) := x / 256 % nsPerSec + x % 256 * 2 ^ 32
  let now := g.inForce.getD (g.start, g.per)
  BitVec.ofNat 64 (match word with
    | 1 => secs now.1
    | 2 => nsub now.1
    | 3 => secs g.stop
    | 4 => nsub g.stop
    | _ => now.2 / 256 % 2 ^ 40 + now.2 % 256 * 2 ^ 40 + g.cnt * 2 ^ 48)

/-! ## Chain time alignment (R270 to R272) -/

/-- A reply of an exchange with its four times in ps: the offset is recorded, and the counter stepped or
steered. How the servo steers is open; its increment lies within the limits. (DESIGN CHOICE, log 63; DEDUCED, log 64) -/
def takeDm (h : Hw) (port : Nat) (t1 t2 t3 t4 : Int) : Hw :=
  let asym := signed 10 (getF h (aLK_CTL port) fLK_CTL_ASYM)
  let off := Int.fdiv ((t2 - t1) - (t4 - t3) - asym) 2
  let delay := Int.fdiv ((t2 - t1) + (t4 - t3)) 2
  let big (w : Nat) (x : Int) : Bool := x < minOf w || maxOf w < x
  let put16 (h : Hw) (a : Nat) (f : Fld) : Hw :=
    if big 16 off then let r := freshNat h; setF r.2 a f r.1 else setF h a f (rawOf 16 off)
  let h1 := put16 h (aLK_DM port) fLK_DM_OFFSET
  let h2 := if delay < 0 ∨ 2 ^ 24 ≤ delay then (let r := freshNat h1; setF r.2 (aLK_DM port) fLK_DM_DELAY r.1)
    else setF h1 (aLK_DM port) fLK_DM_DELAY delay.toNat
  if isDev0 h ∨ port ≠ getF h aCH_TA fCH_TA_UPPORT then h2
  else
    let h3 := put16 h2 aCH_TA fCH_TA_OFFSET
    let inBand := -50 ≤ off && off ≤ 50
    let n := if inBand then h3.chain.inLock + 1 else 0
    let h4 := setF { h3 with chain.inLock := n } aCH_TA fCH_TA_LOCK (decide (4 ≤ n)).toNat
    if ¬ chainOwned h4 then h4
    else if h4.chain.stepNext ∨ off < -1000000 ∨ 1000000 < off then
      raiseBit (askTb { h4 with chain.stepNext := false } (.shift (Int.fdiv (off * 2 ^ 32) 1000))) aCH_TA fCH_TA_STEP
    else
      let r := freshNat h4
      setReg r.2 aTB_INC (BitVec.ofNat 64 (0xD04AAAAA + r.1 % (0xD0600000 - 0xD04AAAAA + 1)))

end Sys2Proof.Machine
end

