-- ==== Sys2Proof/Machine/Ports.lean ====
section
/-!
DEFINITION. JESD204 links and Ethernet MACs (R283 to R307, R430, R432). Direction d of a link is 2 j, or
2 j + 1 for transmit; sub-port i is 4 m + s.
-/

namespace Sys2Proof.Machine

/-- Router of MAC m. -/
abbrev macRouter (m : Nat) : Nat := 2 + m

/-- A request to the trough k of pen n from a port's router. -/
def troughReq (src n k op : Nat) (ws : List TW) : NocReq :=
  ⟨op, ⟨Fin.ofNat 40 (yardRouter (n / 8)), Fin.ofNat 40 src, BitVec.ofNat 3 (ws.length - 1), 0,
    BitVec.ofNat 40 (8 * (n % 8) + k), ws, none⟩, .own⟩

/-- Words queued as network pushes of up to eight words. (DEDUCED, log 67) -/
def queuePushes (h : Hw) (src n k : Nat) : Nat → List TW → Hw
  | 0, _ => h
  | fuel + 1, ws =>
    if ws.isEmpty then h
    else queuePushes (queueRequest h (troughReq src n k 3 (ws.take 8))) src n k fuel (ws.drop 8)

/-! ## Configuration of a JESD direction (R284, R285) -/

def jRate (h : Hw) (d : Nat) : Nat := getF h (aJL_RATE (d / 2)) (if d % 2 = 0 then fJL_RATE_RXRATE else fJL_RATE_TXRATE)
def jL (h : Hw) (d : Nat) : Nat := 2 ^ jField h d fJL_RXCFG_LOG2L
def jM (h : Hw) (d : Nat) : Nat := 2 ^ jField h d fJL_RXCFG_LOG2M
def jS (h : Hw) (d : Nat) : Nat := 2 ^ jField h d fJL_RXCFG_LOG2S
def jNp (h : Hw) (d : Nat) : Nat := if jField h d fJL_RXCFG_NP = 1 then 32 else 16
def jN (h : Hw) (d : Nat) : Nat := jField h d fJL_RXCFG_N
def jKE (h : Hw) (d : Nat) : Nat := jField h d fJL_RXCFG_KE + 1
def jMap (h : Hw) (d : Nat) : Nat := jField h d fJL_RXCFG_MAP

/-- Octets per frame and lane. -/
def jF (h : Hw) (d : Nat) : Nat := jM h d * jS h d * jNp h d / (8 * jL h d)

/-- Physical lane of logical lane i. -/
def jLane (h : Hw) (d i : Nat) : Nat :=
  getF h (aJL_LANE (d / 2)) (if d % 2 = 0 then fJL_LANE_RXMAP i else fJL_LANE_TXMAP i)

def jLanes (h : Hw) (d : Nat) : List Nat := (List.range (jL h d)).map fun i => jLane h d i

/-- Bits of a boundary period on one lane, times ACLK in kHz: the period in ACLK cycles times the rate. -/
def jPeriodBits (h : Hw) (d : Nat) : Nat :=
  (if jIsB h d then jKE h d * jF h d * 10 else jKE h d * 32 * 66) * 1228800

/-- Boundary period in ACLK cycles: LMFC for 204B, LEMC for 204C (R287). -/
def jPeriod (h : Hw) (d : Nat) : Nat := jPeriodBits h d / jRate h d

/-- The parameters of a direction satisfy R284 and name distinct lanes (R285). -/
def jCfgOk (h : Hw) (d : Nat) : Bool :=
  let b := jIsB h d
  let f := jF h d
  let rate := jRate h d
  jM h d * jS h d * jNp h d % (8 * jL h d) == 0 && 1 ≤ f && f ≤ 256 &&
    (if jMap h d = 2 then jNp h d == 32 else jNp h d == 16) && 8 ≤ jN h d && jN h d ≤ jNp h d &&
    (if b then 17 ≤ f * jKE h d && f * jKE h d ≤ 1024 else 256 * jKE h d % f == 0) &&
    (if b then 3000000 ≤ rate && rate ≤ 16000000 else 6375000 ≤ rate && rate ≤ 32500000) &&
    jPeriodBits h d % rate == 0 && (jLanes h d).eraseDups.length == jL h d

/-- A direction's configuration was written (R284, R289, R477): it stops with `EN` = 0; with `EN` = 1 it
claims its SYNC~ pad, and an invalid configuration leaves it down. Only then is it looked at, with its lanes 0 to
L − 1. (DEDUCED, log 206) -/
def jConfigured (h : Hw) (d : Nat) : Hw :=
  if ¬ jEn h d then jStop h d
  else
    let h1 := if jIsB h d then claimPad h (syncPad h d) 3 else h
    if jCfgOk h1 d then h1 else jDownErr h1 d

/-! ## SYSREF (R286, R287) -/

/-- Cycles from an ACLK index to the direction's next boundary at or after it. -/
def toBoundary (p b a : Nat) : Nat := (b % p + p - a % p) % p

/-- A SYSREF rising edge at one direction. -/
def sysrefDir (h : Hw) (d : Nat) : Hw :=
  let x := jdir h d
  let sr := aJsr d
  let ofs := getF h sr fJL_RXSR_OFS
  let align (h : Hw) : Hw :=
    raiseBit (setJdir h d { jdir h d with armed := false, bnd := some (h.aclk + ofs) }) (aJL_STAT (d / 2)) (srlkFld d)
  if x.armed then align h
  else
    match x.bnd with
    | none => h
    | some b =>
      let p := jPeriod h d
      if getF h sr fJL_RXSR_MODE = 0 ∨ p = 0 then h
      else
        let diff := (toBoundary p b h.aclk + p - ofs % p) % p
        if min diff (p - diff) ≤ getF h sr fJL_RXSR_TOL then h
        else
          let h1 := bump (jRaise h (d / 2) fJL_STAT_SRMISS) (aJL_CNT2 (d / 2)) fJL_CNT2_SRMISSCNT 1
          if getF h1 sr fJL_RXSR_REALIGN = 1 then jSetUp (align h1) d false else h1

/-- A SYSREF rising edge: timestamped in every link, then taken by every direction. -/
def sysref (h : Hw) : Hw :=
  if frozen h then h
  else
    let ts := BitVec.ofNat 64 (h.tb.ns + h.tb.sec % 2 ^ 32 * 2 ^ 32)
    applyAll sysrefDir (applyAll (fun h j => setReg h (aJL_SRTS j) ts) h (List.range 4)) (List.range 8)

/-- `ARM` written with 1. -/
def jArm (h : Hw) (d : Nat) : Hw := if frozen h then h else setJdir h d { jdir h d with armed := true }

/-! ## Establishment (R288, R289) -/

/-- `RXRST` or `TXRST`: the direction goes down to be established anew. -/
def jReset (h : Hw) (d : Nat) : Hw :=
  if frozen h then h
  else
    let h1 := setJdir h d { jdir h d with buf := [], half := none, blk := 0, place := 0, go := false, held := false }
    if jEn h1 d ∧ ¬ jCfgOk h1 d then jDownErr h1 d else jSetUp h1 d false

/-- The SYNC~ pad of a 204B direction is its own, in a bank that is on. (DEDUCED, log 70) -/
def syncOk (h : Hw) (d : Nat) : Bool :=
  !(jIsB h d) || (padOwner h (syncPad h d) == 3 && syncHolder h (syncPad h d) == some d &&
    !(jdir h d).held && !(isSet h (aFIO_BANK (syncPad h d / 16)) fFIO_BANK_OFF))

/-- Every lane has locked. -/
def jEstablish (h : Hw) (d : Nat) (ilasOk : Bool) : Hw :=
  if frozen h ∨ ¬ jEn h d ∨ jUp h d then h
  else if ¬ jCfgOk h d ∨ ¬ syncOk h d then jDownErr h d
  else
    let a := aJL_STAT (d / 2)
    let lock := (jLanes h d).foldl (fun acc i => acc ||| 2 ^ i) 0
    let h1 := if d % 2 = 0 then setF h a fJL_STAT_RXLOCK lock else h
    let h2 := if d % 2 = 0 ∧ jIsB h d ∧ ¬ ilasOk then jRaise h1 (d / 2) fJL_STAT_ILASERR else h1
    jSetUp (setJdir h2 d { jdir h2 d with half := none, blk := 0, place := 0, since := h2.aclk }) d true

/-- A receive lane in use loses lock, or the far end of a 204B link asks for resynchronisation (R289); on a 204B receive
lane a code-group error is counted with it (R293). (DEDUCED, log 209) -/
def jLoss (h : Hw) (d lane : Nat) : Hw :=
  if frozen h ∨ ¬ jEn h d ∨ ¬ (jLanes h d).contains lane ∨ (d % 2 = 1 ∧ ¬ jIsB h d) then h
  else
    let a := aJL_STAT (d / 2)
    let h1 := if d % 2 = 0 then setF h a fJL_STAT_RXLOCK (getF h a fJL_STAT_RXLOCK &&& (0xFF - 2 ^ lane)) else h
    let h2 := if jIsB h d ∧ d % 2 = 0 then bump h1 (aJL_CNT (d / 2)) fJL_CNT_CGERR 1 else h1
    jSetUp (setJdir h2 d { jdir h2 d with half := none, blk := 0, place := 0 }) d false

/-! ## Boundaries and samples (R290 to R294) -/

/-- A boundary falls in this cycle: `OFS` cycles after the edge that was taken, or a whole number of periods later. -/
def jAtBoundary (h : Hw) (d : Nat) : Bool :=
  match (jdir h d).bnd with
  | none => false
  | some b => jEn h d && jCfgOk h d && decide (b ≤ h.aclk) && toBoundary (jPeriod h d) b h.aclk == 0

/-- The established receive direction releases samples: `RBD` cycles have passed since the first boundary that fell while
it was established (R288). -/
def jReleases (h : Hw) (d : Nat) : Bool :=
  match (jdir h d).bnd with
  | none => false
  | some b =>
    let a := max b (jdir h d).since
    decide (a + toBoundary (jPeriod h d) b a + getF h (aJsr d) fJL_RXSR_RBD ≤ h.aclk)

/-- A boundary: its event, the fabric's wire, and with `ALIGN` = 1 a new block. -/
def jBoundary (h : Hw) (d : Nat) : Hw :=
  if frozen h ∨ ¬ jAtBoundary h d then h
  else
    let x := jdir h d
    let h1 := setJdir h d { x with go := true, blk := if jField h d fJL_RXCFG_ALIGN = 1 then 0 else x.blk }
    raiseEventAll { h1 with fab.bnd := h1.fab.bnd ||| BitVec.ofNat 8 (2 ^ d) } (0xC0 + 4 * (d / 2) + d % 2)

/-- Words per block. -/
def blkLen (h : Hw) (d : Nat) : Nat := let n := jField h d fJL_RXCFG_BLKLEN; if n = 0 then 8192 else n

/-- A wire sample as received: N′ bits signed, the low N′ − N bits 0 (R290). -/
def wireIn (h : Hw) (d : Nat) (x : BitVec 32) : Int :=
  let cut : Int := (2 ^ (jNp h d - jN h d) : Nat)
  let v := signed (jNp h d) (x.toNat % 2 ^ jNp h d)
  Int.fdiv v cut * cut

/-- The word that holds complex samples (Table 11.2). -/
def sampleWord (map : Nat) (xs : List (Int × Int)) : Word :=
  let flat := xs.flatMap fun x => [x.1, x.2]
  match map with
  | 0 => compose fC18 (flat.map (· * 4)) 0
  | 1 => compose fB16 flat (-15)
  | _ => compose fC36 (flat.map (· * 16)) 0

/-- Words formed from samples, two samples a word but for C36, with the sample left over; a word with a sample whose check
failed is marked. -/
def formWords (map : Nat) :
    Option ((Int × Int) × Bool) → List ((Int × Int) × Bool) → List (Word × Bool) × Option ((Int × Int) × Bool)
  | none, [] => ([], none)
  | some a, [] => ([], some a)
  | none, x :: xs =>
    if map = 2 then
      let r := formWords map none xs
      ((sampleWord map [x.1], x.2) :: r.1, r.2)
    else formWords map (some x) xs
  | some a, x :: xs =>
    let r := formWords map none xs
    ((sampleWord map [a.1, x.1], a.2 || x.2) :: r.1, r.2)

/-- Complex samples of a frame: M / 2 channels, S times. -/
def jPerFrame (h : Hw) (d : Nat) : Nat := jM h d / 2 * jS h d

/-- Logical lanes that carry the complex sample at a place of its frame: the octets of converter 0 come first, sample by
sample, and the first F octets go to lane 0 (R290). -/
def sampleLanes (h : Hw) (d place : Nat) : List Nat :=
  let s := place / (jM h d / 2)
  let c := place % (jM h d / 2)
  let octets := jNp h d / 8
  [2 * c, 2 * c + 1].flatMap fun conv =>
    let o := (conv * jS h d + s) * octets
    [o / jF h d, (o + octets - 1) / jF h d]

/-- Received samples with whether a lane that carries them failed its CRC-12, from a place of the frame on (R293). -/
def markLanes (h : Hw) (d : Nat) (bad : BitVec 8) : Nat → List (BitVec 32 × BitVec 32) → List ((Int × Int) × Bool)
  | _, [] => []
  | q, x :: xs =>
    ((wireIn h d x.1, wireIn h d x.2), (sampleLanes h d q).any fun i => bad.getLsbD i) ::
      markLanes h d bad ((q + 1) % jPerFrame h d) xs

/-- Words that a router's queued pushes hold: the receive buffer of a link. -/
def pushesWaiting (h : Hw) (r : Nat) : Nat :=
  (getD [] h.noc.queued r).foldl (fun acc q => if q.op = 3 then acc + q.f.words.length else acc) 0

/-- Tagged words of a block in order, with F and L, from the place in the block (R291). -/
def tagWords (len ep : Nat) : Nat → List (Word × Bool) → List TW
  | _, [] => []
  | k, w :: ws => ⟨w.1, true, k == 0, k + 1 == len, w.2, BitVec.ofNat 4 ep⟩ :: tagWords len ep (if k + 1 = len then 0 else k + 1) ws

/-- Logical lanes in use whose CRC-12 failed, where the direction checks it (R293). -/
def failedLanes (h : Hw) (d : Nat) (bad : BitVec 8) : BitVec 8 :=
  if jField h d fJL_RXCFG_CRC = 1 ∧ ¬ jIsB h d then bad &&& BitVec.ofNat 8 (2 ^ jL h d - 1) else 0

/-- The multiblock's CRC-12 failed on lanes that are checked: the multiblock counts and raises `JESD_CRC` (R293,
Table 18.4). (DEDUCED, log 216) -/
def crcCounted (h : Hw) (j : Nat) (bad : BitVec 8) : Hw :=
  if failedLanes h (2 * j) bad = 0 then h
  else raiseAlarm (bump (jRaise h j fJL_STAT_CRCERR) (aJL_CNT j) fJL_CNT_CRCCNT 1) 0x141 (jesdRouter j) 0 j

/-- Samples received on link j in one multiblock, released and pushed (R288, R290 to R293). -/
def jRxData (h : Hw) (j : Nat) (samples : List (BitVec 32 × BitVec 32)) (badLanes : BitVec 8) : Hw :=
  let d := 2 * j
  if frozen h ∨ ¬ jEn h d ∨ ¬ jUp h d ∨ ¬ jReleases h d then h
  else
    let x := jdir h d
    let bad := failedLanes h d badLanes
    let h0 := crcCounted h j badLanes
    let r := formWords (jMap h d) x.half (markLanes h d bad x.place samples)
    let len := blkLen h d
    let ws := tagWords len (jField h d fJL_RXCFG_EP) x.blk r.1
    let h1 := setJdir h0 d { x with half := r.2, blk := (x.blk + ws.length) % len,
                                    place := (x.place + samples.length) % jPerFrame h d }
    let room := 1024 - pushesWaiting h1 (jesdRouter j)
    let kept := ws.take room
    let lost := ws.length - kept.length
    let h2 := if lost = 0 then h1 else bump (jRaise h1 j fJL_STAT_RXOVF) (aJL_CNT2 j) fJL_CNT2_RXOVFCNT lost
    let n := getF h2 (aJL_TRG j) fJL_TRG_RXPEN
    queuePushes h2 (jesdRouter j) n (getF h2 (aJL_TRG j) fJL_TRG_RXTRG) kept.length kept

/-- Words that a router's pulls, waiting or sent, have asked for. -/
def pullsAsked (h : Hw) (r : Nat) : Nat :=
  (getD [] h.noc.queued r).foldl (fun acc q => if q.op = 4 then acc + q.f.cnt.toNat + 1 else acc) 0 +
    (outOf h r).foldl (fun acc o => if o.req.op = 4 then acc + o.req.f.cnt.toNat + 1 else acc) 0

/-- The running transmit direction asks for words while its buffer of 256 has room (R294). -/
def jTxPull (h : Hw) (j : Nat) : Hw :=
  let d := 2 * j + 1
  let r := jesdRouter j
  let room := 256 - (jdir h d).buf.length - pullsAsked h r
  if frozen h ∨ ¬ jEn h d ∨ room = 0 then h
  else
    let q := troughReq r (getF h (aJL_TRG j) fJL_TRG_TXPEN) (getF h (aJL_TRG j) fJL_TRG_TXTRG) 4 []
    queueRequest h { q with f := { q.f with cnt := BitVec.ofNat 3 (min 8 room - 1) } }

/-- Words that a pull of a link returned: not-valid ones are discarded (R294). -/
def jPulled (h : Hw) (j : Nat) (ws : List TW) : Hw :=
  let d := 2 * j + 1
  setJdir h d { jdir h d with buf := (jdir h d).buf ++ ws.filter fun w => w.v }

/-- A wire sample from an exact value: rounded at bit N′ − N, whose lower bits are 0 (R290). (DEDUCED, log 69) -/
def wireOut (h : Hw) (d : Nat) (v : Int) : Int :=
  let k := jNp h d - jN h d
  (limitTo true (jN h d) (roundShift .convergent k v)).1 * ((2 ^ k : Nat) : Int)

/-- The wire samples of a word (Table 11.2). -/
def wireSamples (h : Hw) (d : Nat) (w : Word) : List (Int × Int) :=
  let map := jMap h d
  let fmt := if map = 0 then fC18 else if map = 1 then fB16 else fC36
  let narrow16 (v : Int) : Int :=
    match map with
    | 0 => (narrow .convergent true 2 16 v).1
    | 1 => (limitTo true 16 (shiftRound .convergent (-(expOf w + 15)) v)).1
    | _ => (narrow .convergent true 4 32 v).1
  (elems fmt w).map fun e =>
    (wireOut h d (narrow16 (e.headD 0)), wireOut h d (narrow16 ((e.drop 1).headD 0)))

/-- Samples of a word. -/
def perWord (h : Hw) (d : Nat) : Nat := if jMap h d = 2 then 1 else 2

/-- The sample slots of one word are sent (R294, R276, R335, R432). (DESIGN CHOICE, log 68) -/
def jTxSample (h : Hw) (j : Nat) : Hw :=
  let d := 2 * j + 1
  let x := jdir h d
  let n := perWord h d
  let zeros := List.replicate n ((0, 0) : Int × Int)
  let send (h : Hw) (buf : List TW) (ss : List (Int × Int)) : Hw := setJdir h d { jdir h d with buf := buf, go := false, sent := ss }
  if frozen h ∨ ¬ jEn h d ∨ ¬ jUp h d then h
  else if isSet h (aJL_STAT j) fJL_STAT_MUTED then send h (x.buf.drop 1) zeros
  else if h.fab.blank.getLsbD j then setJdir h d { x with sent := zeros, go := false }
  else
    match x.buf with
    | [] => send (bump (jRaise h j fJL_STAT_TXGAP) (aJL_CNT2 j) fJL_CNT2_TXGAPCNT n) [] zeros
    | w :: rest =>
      if jField h d fJL_RXCFG_ALIGN = 1 ∧ w.f ∧ ¬ x.go then send h x.buf zeros
      else if w.p then
        let h1 := bump (jRaise h j fJL_STAT_PSNTX) (aJL_CNT j) fJL_CNT_POISON_TX n
        let h2 := if h1.eth.firstPsn.getLsbD (16 + j) then h1
          else raiseAlarm { h1 with eth.firstPsn := h1.eth.firstPsn ||| BitVec.ofNat 20 (2 ^ (16 + j)) } 0x142 (jesdRouter j) 0 j
        send h2 rest zeros
      else send h rest (wireSamples h d w.d)

/-! ## Ethernet: counters and times -/

/-- Counter k of a sub-port (Table 11.8). -/
def ethCount (h : Hw) (i k n : Nat) : Hw := bump h (aETH_CNT i k) fETH_CNT_COUNT n

/-- The sub-port exists in the MAC's mode and runs (R295). -/
def ethOn (h : Hw) (i : Nat) : Bool :=
  isSet h (aETH_PCTL i) fETH_PCTL_EN && (getF h (aETH_MODE (i / 4)) fETH_MODE_MODE != 0 || i % 4 == 0)

/-- The counter moved by picoseconds, as seconds and nanoseconds (R304). (DEDUCED, log 75) -/
def stampAt (h : Hw) (ps : Int) : Nat × Nat :=
  let x := (now32 h : Int) + Int.fdiv (ps * 2 ^ 32) 1000
  let n := x.toNat / 2 ^ 32
  (n / nsPerSec % 2 ^ 48, n % nsPerSec)

/-- Big-endian value of bytes (R6). -/
def beNat (bs : List Byte) : Nat := bs.foldl (fun acc b => acc * 256 + b.toNat) 0

/-- n big-endian bytes of a value. -/
def beBytes (n x : Nat) : List Byte := (leBytes n x).reverse

def slice (bs : List Byte) (from_ n : Nat) : List Byte := (bs.drop from_).take n

/-! ## Ethernet receive (R296 to R299, R430) -/

/-- What the tags and the EtherType of a frame say: bytes of tags, EtherType, governing TCI, tags. -/
structure FrameHead where
  et : Nat
  body : Nat
  tci : Nat
  tags : Nat
deriving DecidableEq, Repr

def frameHead (bs : List Byte) : FrameHead :=
  let t (k : Nat) : Nat := beNat (slice bs k 2)
  if t 12 = 0x8100 then ⟨t 16, 18, t 14, 1⟩
  else if t 12 = 0x88A8 ∧ t 16 = 0x8100 then ⟨t 20, 22, t 18, 2⟩
  else ⟨t 12, 14, 0, 0⟩

/-- The flow entry that an eCPRI message of type 0 or 2 goes to (R296). -/
def rxFlow (h : Hw) (i type_ id : Nat) (hd : FrameHead) : Option Nat :=
  let m := i / 4
  (List.range 64).find? fun k =>
    let a := aETH_RXFLOW0 m k
    isSet h a fETH_RXFLOW0_VALID && getF h a fETH_RXFLOW0_SUB == i % 4 && 2 * getF h a fETH_RXFLOW0_TYPE == type_ &&
      getF h a fETH_RXFLOW0_ID == id &&
      (!(isSet h a fETH_RXFLOW0_VIDEN) || (hd.tags != 0 && getF h a fETH_RXFLOW0_VID == hd.tci % 4096))

/-- Where a frame goes. -/
inductive FrameFor where
  | macctl
  | mp (counted : Bool)
  | unmatched
  | flow (k type_ : Nat)
deriving DecidableEq, Repr

def classify (h : Hw) (i : Nat) (bs : List Byte) : FrameFor :=
  let hd := frameHead bs
  let msg := bs.drop hd.body
  let type_ := beNat (slice msg 1 1)
  match hd.et with
  | 0x8808 => .macctl
  | 0x88F7 => .mp true
  | 0x8809 => .mp true
  | 0xAEFE =>
    if type_ = 5 then .mp false
    else
      match (if type_ = 0 ∨ type_ = 2 then rxFlow h i type_ (beNat (slice msg 4 2)) hd else none) with
      | some k => .flow k type_
      | none => .unmatched
  | _ => .unmatched

/-- Bytes of a wire unit of a flow (R297). -/
def wireUnit (wf blk : Nat) : Nat := if wf = 0 then 4 else if wf = 2 then 8 else 1 + 8 * (blk + 1)

/-- The common header and SEQ_ID that R297 asks for. -/
def headerOk (msg : List Byte) : Bool :=
  (beNat (slice msg 0 1)) / 16 == 1 && (beNat (slice msg 0 1)) % 2 == 0 && beNat (slice msg 7 1) == 0x80

/-- The common header of a type 5 message, which has no SEQ_ID, and its payload size (R297). -/
def delayOk (msg : List Byte) : Bool :=
  (beNat (slice msg 0 1)) / 16 == 1 && (beNat (slice msg 0 1)) % 2 == 0 && decide (beNat (slice msg 2 2) + 4 ≤ msg.length)

/-- The message as its flow accepts it. -/
def messageOk (h : Hw) (m k type_ : Nat) (msg : List Byte) : Bool :=
  let size := beNat (slice msg 2 2)
  let a := aETH_RXFLOW1 m k
  headerOk msg && 4 ≤ size && size + 4 ≤ msg.length &&
    (type_ != 0 || (size - 4) % wireUnit (getF h a fETH_RXFLOW1_WF) (getF h a fETH_RXFLOW1_BLK) == 0)

/-- 16-bit or 32-bit signed values of payload bytes. -/
def wireInts (n : Nat) : Nat → List Byte → List Int
  | 0, _ => []
  | fuel + 1, bs => if bs.length < n then [] else signed (8 * n) (beNat (bs.take n)) :: wireInts n fuel (bs.drop n)

/-- Samples two to a word, zeros for a missing last one. -/
def pairs4 : Nat → List Int → List (List Int)
  | 0, _ => []
  | fuel + 1, vs => if vs.isEmpty then [] else (vs ++ [0, 0, 0, 0]).take 4 :: pairs4 fuel (vs.drop 4)

/-- Payload bytes of a flow as words (Table 11.4), each with the payload bytes it covers: first and count. -/
def payloadWords (type_ wf blk : Nat) (bs : List Byte) : List (Word × Nat × Nat) :=
  if type_ = 2 then
    (List.range ((bs.length + 8) / 9)).map fun i =>
      (BitVec.ofNat 72 (beNat ((slice bs (9 * i) 9 ++ List.replicate 9 0).take 9)), 9 * i, 9)
  else if wf = 2 then
    (List.range (bs.length / 8)).map fun i =>
      (compose fC36 ((wireInts 4 2 (slice bs (8 * i) 8)).map (· * 16)) 0, 8 * i, 8)
  else if wf = 0 then
    (List.zip (List.range bs.length) (pairs4 bs.length (wireInts 2 bs.length bs))).map fun x =>
      (compose fC18 (x.2.map (· * 4)) 0, 8 * x.1, 8)
  else
    let unit := wireUnit 1 blk
    ((List.range (bs.length / unit)).map fun u =>
      let e := signed 8 (beNat (slice bs (unit * u) 1))
      (List.range (blk + 1)).map fun i =>
        let o := unit * u + 1 + 8 * i
        (compose fB16 (wireInts 2 4 (slice bs o 8)) e, o, 8)).flatten

/-- The trough packet of a message: its words and its length word (Table 11.4). -/
def rxPacketOf (h : Hw) (i k type_ : Nat) (fr : RxFrame) : List TW × TW × Nat × Bool :=
  let m := i / 4
  let hd := frameHead fr.bytes
  let msg := fr.bytes.drop hd.body
  let a := aETH_RXFLOW1 m k
  let ep := BitVec.ofNat 4 (getF h a fETH_RXFLOW1_EP)
  let size := beNat (slice msg 2 2)
  let pay := slice msg 8 (size - 4)
  let seqId := beNat (slice msg 6 2)
  let lat := getF h (aETH_TSLAT i) fETH_TSLAT_RXLAT
  let ts := stampAt h (-(lat : Int))
  let vid := if hd.tags = 0 then 0 else hd.tci % 4096
  let bad (from_ n : Nat) : Bool := fr.badParity.any fun b => from_ ≤ b && b < from_ + n
  let word (d : Nat) (f : Bool) (p : Bool) : TW := ⟨BitVec.ofNat 72 d, true, f, false, p, ep⟩
  let w0 := word (ts.2 + ts.1 % 2 ^ 40 * 2 ^ 32) true false
  let w1 := word (beNat (slice msg 4 2) + seqId * 2 ^ 16 + vid * 2 ^ 32 + type_ * 2 ^ 48 + size * 2 ^ 56) false
    (bad (hd.body - 4) 12)
  let pw := (payloadWords type_ (getF h a fETH_RXFLOW1_WF) (getF h a fETH_RXFLOW1_BLK) pay).map fun x =>
    (⟨x.1, true, false, false, bad (hd.body + 8 + x.2.1) x.2.2, ep⟩ : TW)
  let ws := [w0, w1] ++ pw
  let ws' := ws.dropLast ++ (ws.getLast?.map fun w => { w with l := true }).toList
  let seqByte := BitVec.ofNat 8 (seqId / 256)
  let gap := match lookup h.eth.rxSeq (64 * m + k) with
    | some s => decide (seqByte ≠ s + 1)
    | none => false
  let oddPad := type_ = 0 && getF h a fETH_RXFLOW1_WF == 0 && pay.length % 8 == 4
  let pstat := (if hd.tags = 0 then 0 else hd.tci / 2 ^ 13 % 8) + (decide (hd.tags ≠ 0)).toNat * 8 + oddPad.toNat * 16 +
    (hd.tags == 2).toNat * 32 + gap.toNat * 128
  (ws', lengthWord ws.length size pstat ep, seqId / 256, gap)

/-- Bad-parity bytes that end up in pushed words count and are logged (R430). (DEDUCED, log 76) -/
def parityCount (h : Hw) (i n : Nat) : Hw :=
  if n = 0 then h
  else postFinding (ethCount h i 21 n) 0x0001 0x143 (macRouter (i / 4)) 0 i

/-- A frame is received (R296 to R299). (DEDUCED, log 71, 72) -/
def ethReceive (h : Hw) (i : Nat) (fr : RxFrame) : Hw :=
  let m := i / 4
  let len := fr.bytes.length + 4
  let hd := frameHead fr.bytes
  let msg := fr.bytes.drop hd.body
  let da := beNat (slice fr.bytes 0 6)
  let pctl := aETH_PCTL i
  let taken := isSet h pctl fETH_PCTL_PROMISC || (fr.bytes.headD 0).getLsbD 0 || da == getF h (aETH_MAC i) fETH_MAC_ADDR
  let exc := isSet h pctl fETH_PCTL_EXC
  let cls := classify h i fr.bytes
  let early : Option Nat :=
    if getF h pctl fETH_PCTL_MTU < len then some 3
    else if len < 64 then some 2
    else if ¬ fr.fcsOk then some 4
    else if ¬ fr.room then some 8
    else if ¬ taken then some 10
    else none
  let ok (h : Hw) : Hw := ethCount (ethCount h i 0 1) i 1 len
  if frozen h ∨ ¬ ethOn h i then h
  else
    match cls with
    | .macctl => ethCount h i (early.getD 5) 1
    | .mp counted =>
      match early with
      | some k => ethCount h i k 1
      | none => if counted then ethCount (ok h) i 9 1 else if delayOk msg then ok h else ethCount h i 7 1
    | .unmatched =>
      match early with
      | some k => ethCount h i k 1
      | none => if exc then ok h else ethCount h i 6 1
    | .flow k type_ =>
      let a := aETH_RXFLOW1 m k
      let n := getF h a fETH_RXFLOW1_PEN
      let t := getF h a fETH_RXFLOW1_TRG
      let y := n / 8
      let req (h : Hw) (op : Nat) (ws : List TW) : Hw := queueRequest h (troughReq (macRouter m) n t op ws)
      if ¬ taken then ethCount h i (early.getD 10) 1
      else if ¬ headerOk msg then raiseEvent (ethCount h i (early.getD 7) 1) y (0xD3 + 4 * m)
      else
        let p := rxPacketOf h i k type_ fr
        let inside := fr.badParity.filter fun b => hd.body - 4 ≤ b && b < hd.body + 4 + beNat (slice msg 2 2)
        let h1 := queuePushes (req (parityCount h i inside.length) 5 []) (macRouter m) n t p.1.length p.1
        match early with
        | some c => raiseEvent (req (ethCount h1 i c 1) 7 []) y (0xD3 + 4 * m)
        | none =>
          if ¬ messageOk h m k type_ msg then raiseEvent (req (ethCount h1 i 7 1) 7 []) y (0xD3 + 4 * m)
          else
            let h2 := req h1 6 [p.2.1]
            let h3 := { h2 with eth.rxSeq := insertAt h2.eth.rxSeq (64 * m + k) (BitVec.ofNat 8 p.2.2.1) }
            let h4 := if p.2.2.2 then ethCount h3 i 11 1 else h3
            raiseEvent (ok h4) y ((if type_ = 0 then 0xD0 else 0xD1) + 4 * m)

/-! ## Shapers (R302, R303) -/

/-- The bucket of a class, in 1/16 byte. -/
def bucket (h : Hw) (i c : Nat) : Int :=
  if isSet h (aETH_TC i c) fETH_TC_SHEN then signed 36 (getF h (aETH_TCBKT i c) fETH_TCBKT_BKT)
  else (16 * getF h (aETH_TC i c) fETH_TC_BURST : Nat)

def setBucket (h : Hw) (i c : Nat) (v : Int) : Hw := setF h (aETH_TCBKT i c) fETH_TCBKT_BKT (rawOf 36 v)

/-- The register follows the bucket where the shaper is off. -/
def holdBucket (h : Hw) (i c : Nat) : Hw := setBucket h i c (bucket h i c)

/-- A refill tick at one class. -/
def refill (h : Hw) (i c : Nat) : Hw :=
  if isSet h (aETH_TC i c) fETH_TC_SHEN then
    setBucket h i c (min (bucket h i c + getF h (aETH_TC i c) fETH_TC_RATE)
      ((16 * getF h (aETH_TC i c) fETH_TC_BURST : Nat) : Int))
  else holdBucket h i c

/-- A refill tick falls in this cycle: the divider counts 1,229 four times and then 1,228 ACLK cycles, from ACLK index 0
(R303). (DESIGN CHOICE, log 208) -/
def refillDue (h : Hw) : Bool := [0, 1229, 2458, 3687, 4916].contains (h.aclk % 6144)

/-- A refill tick at every class of every sub-port, once in its cycle. -/
def refillAll (h : Hw) : Hw :=
  if frozen h ∨ ¬ refillDue h ∨ h.eth.refillAt = h.aclk + 1 then h
  else applyAll (fun h k => refill h (k / 8) (k % 8)) { h with eth.refillAt := h.aclk + 1 } (List.range 128)

/-- `FORGIVE`: a negative bucket to 0. -/
def forgiveDebt (h : Hw) (i c : Nat) : Hw :=
  if ¬ frozen h ∧ bucket h i c < 0 then setBucket h i c 0 else h

/-- A write of `ETH_TC` took effect: a bucket whose shaper has just been turned on keeps the value it held. -/
def tcWritten (before h : Hw) (i c : Nat) : Hw := holdBucket (setBucket h i c (bucket before i c)) i c

/-! ## Ethernet transmit (R300, R301, R304) -/

/-- Trough of a class, as key 8 n + k. -/
def tcKey (h : Hw) (i c : Nat) : Nat := 8 * getF h (aETH_TC i c) fETH_TC_PEN + getF h (aETH_TC i c) fETH_TC_TRG

/-- The committed packet at the head of a class's trough: its words after the length word, none where there
is no whole one. (DEDUCED, log 73) -/
def headPacket (m : Sparse Byte) (h : Hw) (key : Nat) : Option Nat :=
  let t := troughNow h key
  let n := depth h key
  let avail := readableNow n t
  if ¬ isSet h (aCfg key) fTRG_CFG_EN ∨ getF h (aCfg key) fTRG_CFG_CSIDE ≠ 1 ∨ ¬ arrayRuns h (key / 64) ∨ avail = 0 ∨
      ¬ t.lens.contains t.rp then none
  else
    let words := (troughWord m h key t t.rp).d.toNat % 2 ^ 14
    if words + 1 ≤ avail then some words else none

/-- n words taken, with the outcomes of their checks, and released (R195). -/
def takePacket (m : Sparse Byte) (h : Hw) (key : Nat) : Nat → List Ecc → List TW × Hw
  | 0, _ => ([], releaseWords h key (troughNow h key) (ptrSub (depth h key) (troughNow h key).rp (troughNow h key).rl))
  | n + 1, es =>
    let r := popFrom m h key (es.headD .ok)
    let rest := takePacket m r.2 key n (es.drop 1)
    (r.1 :: rest.1, rest.2)

/-- Samples of B16 words at the exponent of the first: bytes and words re-expressed (R300). -/
def bf16Block (ws : List TW) : List Byte × Nat :=
  match ws with
  | [] => ([], 0)
  | w0 :: _ =>
    let e := expOf w0.d
    let one (w : TW) : List Byte :=
      ((comps fB16 w.d).map fun v => beBytes 2 (rawOf 16 (limitTo true 16 (shiftRound .convergent (e - expOf w.d) v)).1)).flatten
    (beBytes 1 (rawOf 8 e) ++ (ws.map one).flatten, ws.countP fun w => decide (expOf w.d ≠ e))

/-- Blocks of n words. -/
def blocksOf (n : Nat) : Nat → List TW → List (List TW)
  | 0, _ => []
  | fuel + 1, ws => if ws.isEmpty then [] else ws.take n :: blocksOf n fuel (ws.drop n)

/-- The payload bytes of words in a flow's format, words re-expressed, and whether the count fits. -/
def txPayload (type_ wf blk nbytes : Nat) (half : Bool) (ws : List TW) : List Byte × Nat × Bool :=
  if type_ = 1 then
    let all := (ws.map fun w => beBytes 9 w.d.toNat).flatten
    (if nbytes = 0 then all else all.take nbytes, 0, nbytes ≤ all.length)
  else if wf = 0 then
    let bs := (ws.map fun w => ((comps fC18 w.d).map fun v => beBytes 2 (rawOf 16 (narrow .convergent true 2 16 v).1)).flatten).flatten
    (if half then bs.take (bs.length - 4) else bs, 0, true)
  else if wf = 2 then
    ((ws.map fun w => ((comps fC36 w.d).map fun v => beBytes 4 (rawOf 32 (narrow .convergent true 4 32 v).1)).flatten).flatten, 0, true)
  else
    let r := (blocksOf (blk + 1) ws.length ws).map bf16Block
    ((r.map fun x => x.1).flatten, r.foldl (fun acc x => acc + x.2) 0, ws.length % (blk + 1) == 0 && !half)

/-- Tags of a transmit flow. -/
def txTags (h : Hw) (m k : Nat) : List Byte :=
  let a := aETH_TXFLOW1 m k
  let t1 := beBytes 2 (getF h a fETH_TXFLOW1_TCI1)
  let outer := if isSet h a fETH_TXFLOW1_STAG then 0x88A8 else 0x8100
  match getF h (aETH_TXFLOW0 m k) fETH_TXFLOW0_NTAG with
  | 0 => []
  | 1 => beBytes 2 outer ++ t1
  | _ => beBytes 2 outer ++ t1 ++ beBytes 2 0x8100 ++ beBytes 2 (getF h a fETH_TXFLOW1_TCI2)

/-- An entry of the timestamp FIFO, lost where it holds 64 (R304). -/
def pushStamp (h : Hw) (i : Nat) (e : Nat × Nat × Nat) : Hw :=
  let q := getD [] h.eth.fifo i
  if 64 ≤ q.length then ethCount (raiseBit h (aETH_PSTAT i) fETH_PSTAT_TSOVF) i 20 1
  else { h with eth.fifo := setD [] h.eth.fifo i (q ++ [e]) }

/-- The egress time of a frame that starts now. -/
def egressTime (h : Hw) (i : Nat) : Nat × Nat := stampAt h (getF h (aETH_TSLAT i) fETH_TSLAT_TXLAT : Nat)

/-- A stomped frame counts, and the first of a sub-port raises `TX_POISON` (R301, R432). -/
def stompCount (h : Hw) (i : Nat) : Hw :=
  let h1 := ethCount h i 17 1
  if h1.eth.firstPsn.getLsbD i then h1
  else raiseAlarm { h1 with eth.firstPsn := h1.eth.firstPsn ||| BitVec.ofNat 20 (2 ^ i) } 0x142 (macRouter (i / 4)) 0 i

/-- A frame leaves: padded to 64, counted, kept as the sub-port's latest frame. -/
def sendFrame (h : Hw) (i : Nat) (bytes : List Byte) (stomp : Bool) : Hw :=
  let short := bytes.length < 60
  let full := bytes ++ List.replicate (60 - bytes.length) 0
  let h1 := if short then ethCount h i 14 1 else h
  let h2 := { h1 with eth.sent := insertAt h1.eth.sent i ⟨full, stomp⟩ }
  let h3 := ethCount (ethCount h2 i 12 1) i 13 (full.length + 4)
  if stomp then stompCount h3 i else h3

/-- The packet of a class is made into a frame and sent, or released without sending (R300, R301). (DESIGN CHOICE, log 207) -/
def sendPacket (h : Hw) (i c : Nat) (ws : List TW) (parityBad : Bool) : Hw :=
  let m := i / 4
  let d := ws.headD TW.notValid
  let dn := d.d.toNat
  let pay := ws.drop 1
  let k := dn % 64
  let a0 := aETH_TXFLOW0 m k
  let type_ := getF h a0 fETH_TXFLOW0_TYPE
  let nbytes := dn / 2 ^ 24 % 2 ^ 14
  let p := txPayload type_ (getF h a0 fETH_TXFLOW0_WF) (getF h a0 fETH_TXFLOW0_BLK) nbytes (dn / 128 % 2 == 1) pay
  let bad := !d.v || d.p || decide (2 ^ 38 ≤ dn) || getF h a0 fETH_TXFLOW0_SUB != i % 4 || pay.isEmpty || !p.2.2
  if bad then ethCount h i 16 1
  else
    let seq := getD 0 h.eth.txSeq (64 * m + k)
    let bytes := beBytes 6 (getF h a0 fETH_TXFLOW0_DA) ++ beBytes 6 (getF h (aETH_MAC i) fETH_MAC_ADDR) ++ txTags h m k ++
      beBytes 2 0xAEFE ++ [0x10, BitVec.ofNat 8 (2 * type_)] ++ beBytes 2 (p.1.length + 4) ++
      beBytes 2 (getF h (aETH_TXFLOW1 m k) fETH_TXFLOW1_ID) ++ [seq, 0x80] ++ p.1
    if getF h (aETH_PCTL i) fETH_PCTL_MTU < bytes.length + 4 then ethCount h i 15 1
    else
      let h1 := { h with eth.txSeq := setD 0 h.eth.txSeq (64 * m + k) (seq + 1) }
      let h2 := if p.2.1 = 0 then h1 else ethCount h1 i 19 p.2.1
      let len := max 60 bytes.length + 4
      let cost : Int := ((len + getF h2 (aETH_TC i c) fETH_TC_OVH) * 16 : Nat)
      let h3 := if isSet h2 (aETH_TC i c) fETH_TC_SHEN then setBucket h2 i c (bucket h2 i c - cost) else h2
      let ts := egressTime h3 i
      let h4 := if dn / 64 % 2 = 1 then pushStamp h3 i (ts.1, ts.2, dn / 256 % 2 ^ 16) else h3
      let h5 := if parityBad then parityCount h4 i 1 else h4
      raiseEvent (sendFrame h5 i bytes (parityBad || pay.any fun w => w.p)) (tcKey h5 i c / 64) (0xD2 + 4 * m)

/-- The highest eligible class sends; while transmit is muted its packet is discarded (R301, R302). -/
def ethTransmit (mem : Sparse Byte) (h : Hw) (i : Nat) (parityBad : Bool) (es : List Ecc) : Hw :=
  let muted := isSet h (aETH_PSTAT i) fETH_PSTAT_MUTED
  let ready (c : Nat) : Bool :=
    isSet h (aETH_TC i c) fETH_TC_EN && (headPacket mem h (tcKey h i c)).isSome && (muted || 0 ≤ bucket h i c)
  if frozen h ∨ ¬ ethOn h i then h
  else
    match [7, 6, 5, 4, 3, 2, 1, 0].find? ready with
    | none => h
    | some c =>
      let key := tcKey h i c
      let r := takePacket mem h key ((headPacket mem h key).getD 0 + 1) es
      if muted then ethCount r.2 i 18 1 else sendPacket r.2 i c (r.1.drop 1) parityBad

/-- A read of `ETH_TSLO` pops the oldest entry (R307). -/
def readTslo (h : Hw) (i : Nat) : BitVec 64 × Hw :=
  match getD [] h.eth.fifo i with
  | [] => (0, h)
  | e :: rest =>
    (BitVec.ofNat 64 (e.2.1 + e.2.2 * 2 ^ 32 + 2 ^ 48),
     setReg { h with eth.fifo := setD [] h.eth.fifo i rest } (aETH_TSHI i) (BitVec.ofNat 64 e.1))

/-- `ETH_TSLO` as the freeze view shows it: the oldest entry, without popping it (R447). -/
def peekTslo (h : Hw) (i : Nat) : BitVec 64 := (readTslo h i).1

/-- The recovered clock stops or resumes (R305). -/
def rclk (h : Hw) (sq : Bool) : Hw :=
  if frozen h ∨ ¬ isSet h (aETH_RCLK 0) fETH_RCLK_EN ∨ isSet h (aETH_RCLK 0) fETH_RCLK_SQ = sq then h
  else raiseBit (setF h (aETH_RCLK 0) fETH_RCLK_SQ sq.toNat) (aETH_RCLK 0) fETH_RCLK_SQCHG

/-- A sub-port's link comes up or goes down (R307). -/
def ethLink (h : Hw) (i : Nat) (up : Bool) : Hw :=
  if frozen h ∨ isSet h (aETH_PSTAT i) fETH_PSTAT_LINK = up then h
  else raiseBit (setF h (aETH_PSTAT i) fETH_PSTAT_LINK up.toNat) (aETH_PSTAT i) fETH_PSTAT_LINKCHG

/-! ## Timing ring (R313, R314, R367) -/

/-- Bytes of a timing ring. Its place in memory: data-space bytes, or bytes 0 to 9 of window slots. -/
def ringPlace (base k : Nat) : Nat := if base < 0x1000000000 then base + k else base + 16 * (k / 10) + k % 10

def ringRead (m : Sparse Byte) (base k n : Nat) : Nat :=
  leNat ((List.range n).map fun i => readByte m (ringPlace base (k + i)))

def ringPut (m : Sparse Byte) (base k : Nat) : List Byte → Sparse Byte
  | [] => m
  | b :: bs => ringPut (writeByte m (ringPlace base k) b) base (k + 1) bs

/-- One record into the ring of a sub-port, or counted as lost; vector 21 is sent (R349, R367). -/
def timingRecord (m : Sparse Byte) (h : Hw) (i : Nat) (rec : RingRec) : Sparse Byte × Hw :=
  match lookup h.eth.ptp i with
  | none => (m, h)
  | some r =>
    if frozen h ∨ rec.kind = 0 ∨ 4 < rec.kind.toNat then (m, h)
    else
      let n := (r.len - 32) / 256
      let written := ringRead m r.base 0 8
      let read := ringRead m r.base 8 8
      if n ≤ (written + 2 ^ 64 - read) % 2 ^ 64 then
        (ringPut m r.base 16 (leBytes 8 (ringRead m r.base 16 8 + 1)), h)
      else
        let noFrame := rec.kind == 3 || rec.kind == 4
        let head := leBytes 1 rec.kind.toNat ++ leBytes 1 i ++ leBytes 2 (if noFrame then 0 else rec.frame.length) ++
          leBytes 6 rec.secs.toNat ++ leBytes 4 rec.ns.toNat ++ leBytes 2 (if noFrame then rec.tsid.toNat else 0)
        let body := (head ++ (if noFrame then [] else rec.frame.take 240) ++ List.replicate 240 0).take 256
        (ringPut (ringPut m r.base (32 + 256 * (written % n)) body) r.base 0 (leBytes 8 (written + 1)), sendVector h 21)

/-! ## eCPRI delay measurement (R314) -/

/-- A type 5 answer to a received frame: addresses turned, tags kept, with measurement identifier, action
type, ten bytes of time and eight of compensation. (PRESUMED, log 74) -/
def delayFrame (h : Hw) (i : Nat) (req : List Byte) (action secs ns comp : Nat) : List Byte :=
  let hd := frameHead req
  let msg := req.drop hd.body
  slice req 6 6 ++ beBytes 6 (getF h (aETH_MAC i) fETH_MAC_ADDR) ++ slice req 12 (hd.body - 12) ++
    [0x10, 0x05] ++ beBytes 2 20 ++ [(msg.drop 4).headD 0, BitVec.ofNat 8 action] ++ beBytes 6 secs ++ beBytes 4 ns ++
    beBytes 8 comp

/-- Firmware answers a Request with Response, and a Request with Follow_Up with Response and Follow_Up. -/
def delayAnswer (h : Hw) (i : Nat) (req : List Byte) (secs ns : Nat) : Hw :=
  let hd := frameHead req
  let msg := req.drop hd.body
  let action := beNat (slice msg 5 1)
  let comp := match lookup h.eth.ptp i with
    | some r => r.comp
    | none => 0
  if frozen h ∨ ¬ ethOn h i ∨ isSet h (aETH_PSTAT i) fETH_PSTAT_MUTED ∨ hd.et ≠ 0xAEFE ∨ beNat (slice msg 1 1) ≠ 5 ∨ 2 ≤ action then h
  else
    let ts := egressTime h i
    let h1 := sendFrame h i (delayFrame h i req 2 secs ns comp) false
    if action = 1 then sendFrame h1 i (delayFrame h i req 5 ts.1 ts.2 comp) false else h1

end Sys2Proof.Machine
end

