-- ==== Sys2Proof/Machine/Fabric.lean ====
section
/-!
DEFINITION. The tack fabric, its connections and capture (R326 to R343, R474). Edge t is at ACLK index 4 t;
what a wire carries in cycle t is what the fabric's state gives before edge t + 1 is processed.
-/

namespace Sys2Proof.Machine

/-! ## Records (R328) -/

/-- Record of block b in the readback window. -/
abbrev blockAddr (b : Nat) : Nat := 0x1004300000 + 0x1000 * b

def bytesAt (m : Sparse Byte) (a n : Nat) : Nat := leNat (readBytes m a n)
def termRec (m : Sparse Byte) (b k : Nat) : Nat := bytesAt m (blockAddr b + 12 * k) 12
def macroRec (m : Sparse Byte) (b i : Nat) : Nat := bytesAt m (blockAddr b + 0x480 + 8 * i) 8
def inputRec (m : Sparse Byte) (b i : Nat) : Nat := bytesAt m (blockAddr b + 0x500 + 2 * i) 2
def outRec (m : Sparse Byte) (b q : Nat) : Nat := bytesAt m (blockAddr b + 0x560 + 2 * q) 2
def segRec (m : Sparse Byte) (b s : Nat) : Nat := bytesAt m (blockAddr b + 0x580 + 2 * s) 2

def mMode (r : Nat) : Nat := r / 2 ^ 22 % 4
def mClk (r : Nat) : Nat := r / 2 ^ 24 % 4
def mClkIn (r : Nat) : Nat := r / 2 ^ 26 % 64
def mClkInv (r : Nat) : Bool := r.testBit 32
def mRst (r : Nat) : Nat := r / 2 ^ 33 % 64
def mRv (r : Nat) : Bool := r.testBit 39

/-- A select code that Table 13.3 names. -/
def selectFits (x : Nat) : Bool := x < 0x42

/-- A select that makes outgoing segment s turn back to the side it arrives from (R331). -/
def turnsBack (s x : Nat) : Bool := decide (16 ≤ x) && decide (x < 48) && (x - 16) / 8 == s / 8

/-- A macrocell record with no reserved code or bit (Table 13.2). -/
def macroFits (r : Nat) : Bool :=
  mClk r != 3 && mClkIn r < 48 && (mRst r < 48 || mRst r == 63) && r / 2 ^ 40 == 0

/-- The record of a block holds no reserved code, bit or select (R331, R333). -/
def noReserved (m : Sparse Byte) (b : Nat) : Bool :=
  ((List.range 16).all fun i => macroFits (macroRec m b i)) &&
    ((List.range 48).all fun i => inputRec m b i / 256 == 0 && selectFits (inputRec m b i % 256)) &&
    ((List.range 16).all fun q => outRec m b q / 2 ^ 9 == 0 && selectFits (outRec m b q % 256)) &&
    ((List.range 32).all fun s =>
      segRec m b s / 2 ^ 9 == 0 && selectFits (segRec m b s % 256) && !(turnsBack s (segRec m b s % 256))) &&
    (readBytes m (blockAddr b + 0x5C0) 0xA40).all (· == 0)

/-- The code that a select acts as: a reserved one acts as 0x40 (R333). -/
def actsAs (x : Nat) : Nat := if selectFits x then x else 0x40

/-- Select code of input i; an input that no block has is 0 (R328, R333). (DESIGN CHOICE, log 217) -/
def inputCode (m : Sparse Byte) (b i : Nat) : Nat := if i < 48 then actsAs (inputRec m b i % 256) else 0x40

/-- Select code of port-out wire q. -/
def outCode (m : Sparse Byte) (b q : Nat) : Nat := actsAs (outRec m b q % 256)

/-- Select code of outgoing segment s (R331, R333). -/
def segCode (m : Sparse Byte) (b s : Nat) : Nat :=
  if turnsBack s (segRec m b s % 256) then 0x40 else actsAs (segRec m b s % 256)

/-- The fabric runs: enabled, and not in a domain reset (R334, R474). -/
def fabOn (h : Hw) : Bool := isSet h aTF_CTL fTF_CTL_EN && !(h.quarantined.getLsbD 0x1A)

/-! ## Wires (R326, R327, R331, R332). A wire whose value the configuration does not settle has none. -/

def and3 (a b : Option Bool) : Option Bool :=
  match a, b with
  | some false, _ => some false
  | _, some false => some false
  | some true, some true => some true
  | _, _ => none

def or3 (a b : Option Bool) : Option Bool := (and3 (a.map not) (b.map not)).map not

/-- Product term k over the values of the block's inputs. -/
def termVal (m : Sparse Byte) (b k : Nat) (inp : Nat → Option Bool) : Option Bool :=
  let r := termRec m b k
  (List.range 48).foldl (fun acc i =>
    let a1 := if r.testBit (2 * i) then and3 acc (inp i) else acc
    if r.testBit (2 * i + 1) then and3 a1 ((inp i).map not) else a1) (some true)

/-- D of macrocell i. -/
def macroD (m : Sparse Byte) (b i : Nat) (inp : Nat → Option Bool) : Option Bool :=
  let r := macroRec m b i
  let own := (List.range 5).foldl (fun acc k => if r.testBit k then or3 acc (termVal m b (5 * i + k) inp) else acc) (some false)
  let all := (List.range 16).foldl (fun acc k => if r.testBit (5 + k) then or3 acc (termVal m b (80 + k) inp) else acc) own
  all.map fun s => s != r.testBit 21

/-- Stored Q of a flop or latch. -/
def storedQ (h : Hw) (r b i : Nat) : Bool := mRv r != (getD 0 h.fab.q b).getLsbD i

/-- The reset input of a macrocell. -/
def resetIn (r : Nat) (inp : Nat → Option Bool) : Option Bool := if mRst r < 48 then inp (mRst r) else some false

/-- The clock of a latch is at its active level; a reserved clock is constant 0 (R333). (DESIGN CHOICE, log 217) -/
def latchOpen (h : Hw) (r : Nat) (inp : Nat → Option Bool) : Option Bool :=
  let level := if mClk r = 2 then inp (mClkIn r) else some (decide (mClk r < 2) && decide (h.aclk % 4 < 2))
  level.map fun l => l != mClkInv r

/-- The macrocell changed on a user clock within the ACLK cycle of an edge of FCLK: what timed logic and a capture
see of it is open (R330, R341). (DEDUCED, log 211) -/
def userMoved (h : Hw) (b i : Nat) : Bool := h.aclk % 4 == 0 && getD 0 h.fab.userAt (16 * b + i) == h.aclk + 1

/-- Q of macrocell i. -/
def macroQ (m : Sparse Byte) (h : Hw) (b i : Nat) (inp : Nat → Option Bool) : Option Bool :=
  let r := macroRec m b i
  match resetIn r inp with
  | none => none
  | some true => some (mRv r)
  | some false =>
    if mMode r = 0 then macroD m b i inp
    else if userMoved h b i then none
    else if mMode r = 3 then
      match latchOpen h r inp with
      | none => none
      | some true => macroD m b i inp
      | some false => some (storedQ h r b i)
    else some (storedQ h r b i)

/-- Block n pitches away from block b in a direction (0 east, 1 north, 2 west, 3 south). -/
def blockTo (b d n : Nat) : Option Nat :=
  let row := b / 16
  let col := b % 16
  match d with
  | 0 => if col + n < 16 then some (b + n) else none
  | 1 => if n ≤ row then some (b - 16 * n) else none
  | 2 => if n ≤ col then some (b - n) else none
  | _ => if row + n < 16 then some (b + 16 * n) else none

/-- Pitches of segment k. -/
def segLen (k : Nat) : Nat := if k < 6 then 1 else 4

/-- The block and outgoing segment that arrive as incoming segment t. -/
def segDriver (b t : Nat) : Option (Nat × Nat) :=
  (blockTo b (t / 8) (segLen (t % 8))).map fun b' => (b', 8 * ((t / 8 + 2) % 4) + t % 8)

/-- What a select code of a block carries. (DEDUCED, log 85) -/
def wire (m : Sparse Byte) (h : Hw) : Nat → Nat → Nat → Option Bool
  | 0, _, _ => none
  | fuel + 1, b, code =>
    if code < 16 then macroQ m h b code fun i => wire m h fuel b (inputCode m b i)
    else if code < 48 then
      match segDriver b (code - 16) with
      | none => some false
      | some (b', s) =>
        let r := segRec m b' s
        if r.testBit 8 then some ((getD 0 h.fab.seg b').getLsbD s) else wire m h fuel b' (segCode m b' s)
    else if code < 64 then some ((getD 0 h.fab.ins b).getLsbD (code - 48))
    else some (code == 0x41)

/-- Wires a signal may pass through in one cycle before the model gives it no value. (DEDUCED, log 84) -/
abbrev wireDepth : Nat := 96

/-- Port-out wire q of block b in the current cycle (R334). -/
def portOut (m : Sparse Byte) (h : Hw) (b q : Nat) : Option Bool :=
  if ¬ fabOn h then some false
  else
    let r := outRec m b q
    if r.testBit 8 then some ((getD 0 h.fab.port b).getLsbD q) else wire m h wireDepth b (outCode m b q)

/-! ## Clock edges -/

/-- A value, or a free one where the wires settle to none (R332). -/
def settle (h : Hw) (o : Option Bool) : Bool × Hw :=
  match o with
  | some b => (b, h)
  | none => (decide ((freshNat h).1 % 2 = 1), (freshNat h).2)

/-- A row of values as a number, bit 0 first. -/
def settleAll (h : Hw) : List (Option Bool) → Nat × Hw
  | [] => (0, h)
  | o :: os =>
    let r := settle h o
    let rest := settleAll r.2 os
    (r.1.toNat + 2 * rest.1, rest.2)

/-- Q of a macrocell after an edge, as Q XOR `RV`: `fires` says that the edge clocks it. -/
def nextQ (m : Sparse Byte) (h : Hw) (b i : Nat) (fires : Nat → Bool) : Option Bool :=
  let r := macroRec m b i
  let inp := fun k => wire m h wireDepth b (inputCode m b k)
  if mMode r = 0 then some false
  else
    match resetIn r inp with
    | none => none
    | some true => some false
    | some false =>
      let q := storedQ h r b i
      if ¬ fires r then some (q != mRv r)
      else
        let d := macroD m b i inp
        (if mMode r = 2 then d.map fun x => q != x else d).map fun x => x != mRv r

/-- FCLK and ACLK/4 have the same edges; a flop updates on its active edge, a latch keeps what it followed
when it closes (R327, R329). -/
def firesOn (rising : Bool) (r : Nat) : Bool :=
  decide (mClk r < 2) && (if mMode r = 3 then rising == mClkInv r else rising != mClkInv r)

/-- A user clock's edge at input i. -/
def firesUser (i : Nat) (rising : Bool) (r : Nat) : Bool :=
  mClk r == 2 && mClkIn r == i && (if mMode r = 3 then rising == mClkInv r else rising != mClkInv r)

/-- New macrocell bits of one block, from the state `h0` before the edge. -/
def clockBlock (m : Sparse Byte) (h0 : Hw) (fires : Nat → Bool) (h : Hw) (b : Nat) : Hw :=
  let r := settleAll h ((List.range 16).map fun i => nextQ m h0 b i fires)
  { r.2 with fab.q := setD 0 r.2.fab.q b (BitVec.ofNat 16 r.1) }

/-- Segment and port-out registers of one block after a rising edge of FCLK. -/
def clockRegs (m : Sparse Byte) (h0 h : Hw) (b : Nat) : Hw :=
  let sel (r code : Nat) : Option Bool := if r.testBit 8 then wire m h0 wireDepth b code else some false
  let s := settleAll h ((List.range 32).map fun k => sel (segRec m b k) (segCode m b k))
  let p := settleAll s.2 ((List.range 16).map fun k => sel (outRec m b k) (outCode m b k))
  { p.2 with fab.seg := setD 0 p.2.fab.seg b (BitVec.ofNat 32 s.1), fab.port := setD 0 p.2.fab.port b (BitVec.ofNat 16 p.1) }

/-- The port-out wires of a block in the cycle that ends. -/
def outBits (m : Sparse Byte) (h0 h : Hw) (b : Nat) : Nat × Hw :=
  settleAll h ((List.range 16).map fun q => portOut m h0 b q)

/-- The serialisers take the output wires of the cycle that ends (R339). (DEDUCED, log 83) -/
def clockPads (m : Sparse Byte) (h0 h : Hw) : Hw :=
  applyAll (fun h p =>
    let v := outBits m h0 h p
    { v.2 with fab.drive := setD 0 v.2.fab.drive p (getD 0 v.2.fab.ser p), fab.ser := setD 0 v.2.fab.ser p (BitVec.ofNat 16 v.1) })
    h (List.range 64)

/-- Rising event wires of the yards, chain event wires and transmit blanks (R335). -/
def clockEvents (m : Sparse Byte) (h0 h : Hw) : Hw :=
  let h1 := { h with fab.blank := h.fab.blank1 }
  applyAll (fun h b =>
    let v := outBits m h0 h b
    let now := BitVec.ofNat 16 v.1
    let rose := now &&& ~~~(getD 0 v.2.fab.prev b)
    let up := (List.range 16).filter fun k => rose.getLsbD k
    let h2 := { v.2 with fab.prev := setD 0 v.2.fab.prev b now }
    if b < 0x50 then { h2 with fab.evs := h2.fab.evs ++ (up.map fun k => 16 * (b - 0x40) + k) }
    else { h2 with fab.chEvs := h2.fab.chEvs ++ up.filter (· < 4), fab.blank1 := BitVec.ofNat 4 (v.1 / 16) })
    h1 ((List.range 17).map (· + 0x40))

/-- The count that trough tap k presents (R336). -/
def tapCount (h : Hw) (k : Nat) : Nat :=
  let a := aTF_TAP k
  if ¬ isSet h a fTF_TAP_EN then 0
  else
    let key := 8 * getF h a fTF_TAP_PEN + getF h a fTF_TAP_TRG
    let t := troughNow h key
    (if isSet h a fTF_TAP_KIND then occupied (depth h key) t else readable (depth h key) t) % 2 ^ 14

/-- The port-in wires of a block in the cycle that begins (Table 13.4). -/
def portIns (h : Hw) (b : Nat) : Nat :=
  let bits (xs : List Bool) : Nat := xs.foldr (fun x acc => x.toNat + 2 * acc) 0
  if b < 0x20 then (getD 0 h.fab.padIn (2 * b)).toNat + 256 * (getD 0 h.fab.padIn (2 * b + 1)).toNat
  else if b < 0x40 then
    bits ((List.range 16).map fun q => windowAhead h (2 * (b - 0x20) + q / 8) (32 + q % 8))
  else if b = 0x40 then
    bits ((List.range 16).map fun q =>
      let j := q / 4
      if q % 4 < 2 then jUp h (2 * j + q % 4) else h.fab.bnd.getLsbD (2 * j + q % 4 - 2))
  else if b = 0x41 then bits [isSet h aCH_PART fCH_PART_ISOL, isSet h aCH_PART fCH_PART_MUTED]
  else if b < 0x50 then
    bits ((List.range 16).map fun q =>
      let x := 16 * (b - 0x42) + q
      (getD 0 h.fab.taps (x / 14)).testBit (x % 14))
  else 0

/-- Inputs sampled for the cycle that begins; `pads` are the samples of the cycle that ends, by pad. -/
def clockInputs (h : Hw) (pads : List (Nat × BitVec 8)) : Hw :=
  let h1 := applyAll (fun h b => { h with fab.ins := setD 0 h.fab.ins b (BitVec.ofNat 16 (portIns h b)) }) h (List.range 0x50)
  let h2 := applyAll (fun h p =>
    let v := ((pads.find? fun e => e.1 == p).map fun e => e.2).getD 0
    setF { h with fab.padIn := setD 0 h.fab.padIn p v } (aFIO_PAD p) fFIO_PAD_IN v.toNat) h1 (List.range 64)
  applyAll (fun h k => { h with fab.taps := setD 0 h.fab.taps k (tapCount h k) }) { h2 with fab.bnd := 0 } (List.range 16)

/-- An edge of FCLK, which is also the edge of ACLK/4. -/
def fclkEdge (m : Sparse Byte) (h : Hw) (rising : Bool) (pads : List (Nat × BitVec 8)) : Hw :=
  if frozen h ∨ h.aclk % 4 ≠ (if rising then 0 else 2) ∨ h.fab.edge = h.aclk + 1 then h
  else
    let h1 := { h with fab.edge := h.aclk + 1 }
    let h2 := if fabOn h then applyAll (clockBlock m h (firesOn rising)) h1 (List.range 256) else h1
    if ¬ rising then h2
    else
      let h3 := if fabOn h then applyAll (clockRegs m h) h2 (List.range 256) else h2
      clockInputs (clockEvents m h (clockPads m h h3)) pads

/-- An edge of the signal on input i of block b, for the macrocells that use it as their clock (R330). -/
def userEdge (m : Sparse Byte) (h : Hw) (b i : Nat) (rising : Bool) : Hw :=
  if frozen h ∨ ¬ fabOn h then h
  else
    let h1 := clockBlock m h (firesUser i rising) h b
    let moved := getD 0 h.fab.q b ^^^ getD 0 h1.fab.q b
    applyAll (fun h k => { h with fab.userAt := insertAt h.fab.userAt (16 * b + k) (h.aclk + 1) }) h1
      ((List.range 16).filter fun k => moved.getLsbD k)

/-- `TF_CTL.EN` written: every flop and latch starts at, or returns to, `RV` (R327, R334). -/
def fabEnable (h : Hw) (on : Bool) : Hw :=
  if isSet h aTF_CTL fTF_CTL_EN = on then h
  else setF { h with fab.q := [], fab.seg := [], fab.port := [], fab.prev := [] } aTF_CTL fTF_CTL_EN on.toNat

/-- A raised event wire reaches its yard. -/
def fabEvent (h : Hw) (y k : Nat) : Hw :=
  if frozen h ∨ ¬ h.fab.evs.contains (16 * y + k) then h
  else raiseEvent { h with fab.evs := h.fab.evs.erase (16 * y + k) } y (0xE0 + k)

/-- A raised chain event wire sends EVENT k to the target of `CH_EVSEND` (R266). -/
def fabChainEvent (h : Hw) (k : Nat) : Hw :=
  if frozen h ∨ ¬ h.fab.chEvs.contains k then h
  else
    sendEvent { h with fab.chEvs := h.fab.chEvs.erase k } k (getF h aCH_EVSEND fCH_EVSEND_TGT)
      (getF h aCH_EVSEND fCH_EVSEND_YARDS)

/-! ## Capture (R340 to R342) -/

/-- The next edge of FCLK after the current cycle's start. -/
def nextEdge (h : Hw) : Nat := h.aclk / 4 + 1

/-- `CAP_CTL.ARM`: edges and times already past are taken at the next edge. -/
def armCapture (h : Hw) (mode : Nat) : Hw :=
  if frozen h then h
  else
    let e := (reg h aCAP_EDGE).toNat
    let at32 := (getF h aCAP_TSEC fCAP_TSEC_SEC * nsPerSec + getF h aCAP_TNS fCAP_TNS_NS) * 2 ^ 32
    let arm : CapArm := match mode with
      | 0 => ⟨0, some (nextEdge h), false⟩
      | 1 => if e < nextEdge h then ⟨1, some (nextEdge h), true⟩ else ⟨1, some e, false⟩
      | 2 => if at32 ≤ now32 h then ⟨2, some (nextEdge h), true⟩ else ⟨2, none, false⟩
      | _ => ⟨3, none, false⟩
    setF (setF { h with cap := some arm } aCAP_CTL fCAP_CTL_MODE mode) aCAP_STAT fCAP_STAT_BUSY 1

/-- `CAP_CTL.CANCEL`. -/
def cancelCapture (h : Hw) : Hw :=
  if frozen h then h else setF { h with cap := none } aCAP_STAT fCAP_STAT_BUSY 0

/-- The capture edge is now: before the edge of this index is processed. A trigger wire that does not settle leaves
it open (R332). -/
def captureDue (m : Sparse Byte) (h : Hw) (x : CapArm) : Option Bool :=
  match x.due with
  | some e => some (decide (e ≤ h.aclk / 4))
  | none =>
    if x.mode = 2 then
      some (decide ((getF h aCAP_TSEC fCAP_TSEC_SEC * nsPerSec + getF h aCAP_TNS fCAP_TNS_NS) * 2 ^ 32 ≤ now32 h))
    else and3 (portOut m h 0x50 8) (some (!((getD 0 h.fab.prev 0x50).getLsbD 8)))

/-- Bytes 0 to 9 of a block's entry on page 32: Q of flops and latches, `UNSYNC`, registers in use. -/
def captureBlock (m : Sparse Byte) (h : Hw) (b : Nat) : Nat × Hw :=
  let cells := (List.range 16).map fun i =>
    if mMode (macroRec m b i) = 0 then some false else macroQ m h b i fun k => wire m h wireDepth b (inputCode m b k)
  let q := settleAll h cells
  let unsync := (List.range 16).foldl (fun acc i =>
    let r := macroRec m b i
    if mMode r ≠ 0 ∧ mClk r = 2 then acc + 2 ^ i else acc) 0
  let segs := (List.range 32).foldl (fun acc s =>
    if (segRec m b s).testBit 8 ∧ (getD 0 h.fab.seg b).getLsbD s then acc + 2 ^ s else acc) 0
  let ports := (List.range 16).foldl (fun acc k =>
    if (outRec m b k).testBit 8 ∧ (getD 0 h.fab.port b).getLsbD k then acc + 2 ^ k else acc) 0
  (q.1 + unsync * 2 ^ 16 + segs * 2 ^ 32 + ports * 2 ^ 64, q.2)

/-- Every shadow register takes its value. -/
def fillShadow (m : Sparse Byte) (h : Hw) : Hw :=
  let deep := (List.range 16).foldl (fun acc y => if getF h (aYP_STAT y) fYP_STAT_MODE = 2 then acc + 2 ^ y else acc) 0
  let r := (List.range 256).foldl (fun (s : Sparse Nat × Hw) b =>
    let v := captureBlock m s.2 b
    (setD 0 s.1 b v.1, v.2)) (([] : Sparse Nat), h)
  { r.2 with shadow := ⟨h.arr.fus, h.arr.pens, BitVec.ofNat 16 deep, r.1⟩ }

/-- The capture is taken; `DONE` and `SEQ` follow one FCLK cycle later (R341). -/
def takeCapture (m : Sparse Byte) (h : Hw) : Hw :=
  match h.cap with
  | none => h
  | some x =>
    if frozen h ∨ h.aclk % 4 ≠ 0 ∨ h.fab.edge = h.aclk + 1 then h
    else
      let due := settle h (captureDue m h x)
      if ¬ due.1 then due.2
      else
        let h1 := { fillShadow m due.2 with cap := none, capEnd := some (h.aclk + 4) }
        let h2 := setF (setReg h1 aCAP_EDGE (BitVec.ofNat 64 (h.aclk / 4))) aCAP_STAT fCAP_STAT_BUSY 0
        if x.late then raiseBit h2 aCAP_STAT fCAP_STAT_LATE else h2

/-- In cycle t + 1 of a capture at edge t, `DONE` is set and `SEQ` advances (R341). -/
def finishCapture (h : Hw) : Hw :=
  match h.capEnd with
  | none => h
  | some e =>
    if h.aclk < e then h
    else
      let h1 := raiseBit { h with capEnd := none } aCAP_STAT fCAP_STAT_DONE
      setF h1 aCAP_STAT fCAP_STAT_SEQ (getF h1 aCAP_STAT fCAP_STAT_SEQ + 1)

/-- Slot w of the shadow record of FU g (R342). -/
def shadowSlot (x : Shadow) (g w : Nat) : TW :=
  let f := getD Fu.reset x.fus g
  let p := getD Pen.reset x.pens (g / 16)
  let deep := x.deep.getLsbD (g / 128)
  let bank := match p.nonres with
    | some nr => nr.bank
    | none => f.bank
  let ctx := match p.nonres with
    | some nr => nr.ctx
    | none => f.ctx
  let runs := !p.halted && p.nonres.isNone
  if w < 22 then
    if deep then TW.notValid
    else ((recordWords (bankOf f bank) ctx 0b11111).find? fun e => e.1 == w).elim TW.notValid fun e => e.2
  else if w = 22 then
    constWord (BitVec.ofNat 72 (ctx + bank * 16 + runs.toNat * 64 + deep.toNat * 128)) 0
  else TW.notValid

/-- Eight bytes of the shadow window at an offset, on a page (R342). -/
def shadowRead (h : Hw) (off : Nat) : Nat :=
  let page := getF h aCAP_PAGE fCAP_PAGE_PAGE
  if page < 32 then
    let t := shadowSlot h.shadow (64 * page + off / 512) (off % 512 / 16)
    let all := t.d.toNat + t.tag.toNat * 2 ^ 72
    all / 2 ^ (8 * (off % 16)) % 2 ^ 64
  else if page = 32 ∧ off < 4096 then getD 0 h.shadow.blocks (off / 16) / 2 ^ (8 * (off % 16)) % 2 ^ 64
  else 0

end Sys2Proof.Machine
end

