-- ==== Sys2Proof/Machine/Freeze.lean ====
section
/-!
DEFINITION. Freeze, frozen readout and resume (R444 to R449, R267, R475).
-/

namespace Sys2Proof.Machine

/-! ## Requests (R444, R446) -/

/-- A FREEZE packet to a target: at once, or a resume (Table 10.2). -/
def freezePkt (h : Hw) (tgt : Nat) (resume : Bool) : CPkt := packet h 4 tgt (if resume then 2 else 1)

/-- A FREEZE packet to a target for a time (Table 10.2). -/
def timedFreezePkt (h : Hw) (tgt sec ns : Nat) : CPkt :=
  let b := packet h 4 tgt 0
  { b with p := { b.p with words := [TW.data (BitVec.ofNat 72 (ns % 2 ^ 32 + sec % 2 ^ 40 * 2 ^ 32))] } }

/-- A freeze at once is accepted, once clocks run to be stopped; with `PROP` = 1 one that FREEZE_N or `FRZ` caused is sent on. -/
def freezeRequest (h : Hw) (cause : Nat) : Hw :=
  if ¬ h.clocked ∨ frozen h ∨ h.frz.req.isSome then h
  else
    let h1 := { h with frz.req := some cause }
    if isSet h aFR_CTL fFR_CTL_PROP ∧ (cause = 1 ∨ cause = 2) then sendPkt h1 (freezePkt h1 0xFF false) else h1

/-- A time in 2^-32 ns. -/
abbrev time32 (sec ns : Nat) : Nat := (sec * nsPerSec + ns) * 2 ^ 32

/-- A timed freeze is armed; less than 1 µs ahead, its self-refresh entry begins at once (R446). -/
def freezeArm (h : Hw) (cause sec ns : Nat) : Hw :=
  if frozen h then h
  else
    let soon := time32 sec ns < now32 h + 1000 * 2 ^ 32
    setF { h with frz.timed := some (cause, sec, ns), frz.entering := soon, frz.past := decide (time32 sec ns < now32 h) }
      aFR_STAT fFR_STAT_TPEND 1

/-- `TARM`: the spec gives no `CAUSE` for it, so its code is free. (DESIGN CHOICE, log 100) -/
def freezeTarm (h : Hw) : Hw :=
  if frozen h then h
  else
    let r := freshNat h
    freezeArm r.2 (r.1 % 8) (getF h aFR_TSEC fFR_TSEC_SEC) (getF h aFR_TNS fFR_TNS_NS)

/-- `TCANCEL`, which acts until self-refresh entry has begun. -/
def freezeCancel (h : Hw) : Hw :=
  if frozen h ∨ h.frz.timed.isNone ∨ h.frz.entering then h
  else setF { h with frz.timed := none, frz.past := false } aFR_STAT fFR_STAT_TPEND 0

/-- 1 µs before the freeze time self-refresh entry begins. -/
def freezeBegin (h : Hw) : Hw :=
  match h.frz.timed with
  | none => h
  | some (_, sec, ns) =>
    if frozen h ∨ now32 h + 1000 * 2 ^ 32 < time32 sec ns then h else { h with frz.entering := true }

/-! ## The stop edge (R444, R446) -/

/-- The REFCLK period in 2^-32 ns, rounded up (Table 16.1). -/
def refPeriod32 (h : Hw) : Nat :=
  let khz := match getF h aDV_BOOT fDV_BOOT_REFSEL with
    | 0 => 122880
    | 1 => 61440
    | _ => 245760
  (1000000 * 2 ^ 32 + khz - 1) / khz

/-- The armed freeze whose time has not come, which another freeze leaves armed. (DEDUCED, log 214) -/
def stillArmed (h : Hw) : Option (Nat × Nat × Nat) :=
  match h.frz.timed with
  | some (cause, sec, ns) => if now32 h < time32 sec ns then some (cause, sec, ns) else none
  | none => none

/-- Every clock that advances state stops: the device is FROZEN (R444). -/
def freezeNow (h : Hw) (cause : Nat) (late : Bool) : Hw :=
  let armed := stillArmed h
  let h1 := { h with before := h.mode, frz := { h.frz with req := none, timed := armed, entering := false, past := false, out := 0 } }
  let h2 := applyAll (fun h c => if chanLive h c then setDramCh h c { dramCh h c with selfRefresh := true } else h)
    h1 (List.range 4)
  let h3 := setF (setF (setF h2 aHI_FRZ fHI_FRZ_FROZEN 1) aHI_FRZ fHI_FRZ_DRAMSR 1) aHI_FRZ fHI_FRZ_CAUSE cause
  let h4 := bump (setF h3 aFR_STAT fFR_STAT_TPEND armed.isSome.toNat) aFR_STAT fFR_STAT_FRZCNT 1
  let h5 := setF h4 aFR_STAT fFR_STAT_LATE late.toNat
  let h6 := applyAll (fun h port => sendOn h port (packet h 0 0xFD 1)) h5 [0, 1]
  sendVector (setMode h6 .frozen) 20

/-- The stop edge: of a freeze at once, or of a timed one at or after its time, once no training pause runs. It is late
where its time had passed when it was accepted, or where it is not the first REFCLK edge at or after that time (R267,
R444, R446, R475). (DEDUCED, log 99) -/
def freezeStop (h : Hw) : Hw :=
  if frozen h ∨ (List.range 4).any (fun c => (dramCh h c).paused) then h
  else
    match h.frz.req, h.frz.timed with
    | some cause, _ => freezeNow h cause false
    | none, some (cause, sec, ns) =>
      if ¬ h.frz.entering ∨ now32 h < time32 sec ns then h
      else freezeNow h cause (h.frz.past || time32 sec ns + refPeriod32 h ≤ now32 h)
    | none, none => h

/-! ## Readout (R447, R475) -/

/-- A frozen read of a DRAM line: whether its controller may leave self-refresh to serve it. -/
def frozenDramOk (h : Hw) (c : Nat) : Bool :=
  isSet h aFR_CTL fFR_CTL_DRAMRD && isSet h (aDC_CFG c) fDC_CFG_EN && !(isSet h (aDC_STAT c) fDC_STAT_STOPPED)

/-- A controller leaves self-refresh for readout. -/
def srLeave (h : Hw) (c : Nat) : Hw :=
  let o := h.frz.out ||| BitVec.ofNat 4 (2 ^ c)
  setF (setF (setDramCh { h with frz.out := o } c { dramCh h c with selfRefresh := false })
    aFR_STAT fFR_STAT_DRAMOUT 1) aHI_FRZ fHI_FRZ_DRAMSR 0

/-- A controller returns to self-refresh after its last read. -/
def srReturn (h : Hw) (c : Nat) : Hw :=
  if h.mode ≠ .frozen ∨ ¬ h.frz.out.getLsbD c then h
  else
    let o := h.frz.out &&& ~~~(BitVec.ofNat 4 (2 ^ c))
    let h1 := setDramCh { h with frz.out := o } c { dramCh h c with selfRefresh := true }
    if o = 0 then setF (setF h1 aFR_STAT fFR_STAT_DRAMOUT 0) aHI_FRZ fHI_FRZ_DRAMSR 1 else h1

/-- `FREEZE_READOUT`: the shadow pages take the frozen FU registers and fabric flops (R447). -/
def frozenReadout (m : Sparse Byte) (h : Hw) : Hw :=
  if h.mode ≠ .frozen then h
  else
    let h1 := fillShadow m h
    setF h1 aCAP_STAT fCAP_STAT_SEQ (getF h1 aCAP_STAT fCAP_STAT_SEQ + 1)

/-- FRZ_ADDR: a local address that is a multiple of 8; any other value leaves the address open. (DESIGN CHOICE, log 101) -/
def tapSelect (h : Hw) (a : BitVec 48) : Hw :=
  if h.mode ≠ .frozen then h
  else if a.toNat % 8 = 0 then { h with frz.tapAddr := a.setWidth 40 }
  else
    let r := freshNat h
    { r.2 with frz.tapAddr := BitVec.ofNat 40 (8 * r.1) }

/-! ## Resume (R449) -/

/-- A resume is requested; while FREEZE_N is low it is ignored. -/
def resumeRequest (h : Hw) (low : Bool) : Hw :=
  if h.mode ≠ .frozen ∨ low then h else { h with frz.resuming := true }

/-- Alarms that waited for firmware are raised (R445, R469). -/
def flushDeferred (h : Hw) : Hw :=
  applyAll (fun h (e : Nat × Nat × Nat × Nat) => raiseAlarm h e.1 e.2.1 e.2.2.1 e.2.2.2)
    { h with frz.deferred := [] } h.frz.deferred

/-- Every stopped clock restarts (R449): each populated channel leaves self-refresh and runs one training
pause, with the drift measured, unless STOP holds it. -/
def resumeDone (h : Hw) (dropped : Bool) (drifts : List (BitVec 8)) : Hw :=
  if h.mode ≠ .frozen ∨ ¬ h.frz.resuming then h
  else
    let rt := dropped.toNat
    let h1 := { h with frz.resuming := false, frz.out := 0 }
    let h2 := setF (setF h1 aHI_FRZ fHI_FRZ_FROZEN 0) aHI_FRZ fHI_FRZ_DRAMSR 0
    let h3 := setF (setF h2 aHI_FRZ fHI_FRZ_LINKRT rt) aFR_STAT fFR_STAT_DRAMOUT 0
    let h4 := setMode h3 h.before
    let h5 := applyAll (fun h c =>
      if isSet h (aDC_CFG c) fDC_CFG_EN ∧ ¬ isSet h (aDC_STAT c) fDC_STAT_STOPPED then
        pauseEnd (startPause (setDramCh h c { dramCh h c with selfRefresh := false }) c) c (drifts.getD c 0)
      else h) h4 (List.range 4)
    let h6 := writeLog h5 (recNow h5 0x0006 0xFFFF 0xFF 0xFF 0 (getF h5 aHI_FRZ fHI_FRZ_CAUSE * 2 ^ 5 + rt * 2 ^ 4))
    let h7 := flushDeferred h6
    let h8 := if isSet h7 aFR_STAT fFR_STAT_LATE then raiseAlarm h7 0x181 0xFF 0 0 else h7
    let h9 := sendVector h8 20
    if isSet h9 aFR_CTL fFR_CTL_RPROP then
      applyAll (fun h port => sendOn h port (freezePkt h 0xFD true)) h9 [0, 1]
    else h9

/-- A FREEZE arrives (R267): a resume for a FROZEN device, else a freeze at once or for a time. -/
def takeFreeze (h : Hw) (p : Pkt) (low : Bool) : Hw :=
  if p.arg.getLsbD 1 then resumeRequest h low
  else if p.arg.getLsbD 0 then freezeRequest h 4
  else
    let d := (p.words.headD TW.notValid).d.toNat
    freezeArm h 4 (d / 2 ^ 32) (d % 2 ^ 32)

end Sys2Proof.Machine
end

