-- ==== Sys2Proof/Machine/RegAccess.lean ====
section
/-!
DEFINITION. Register accesses: what a read of each register returns, and what a diagnostic write of each
register does (R7 to R10, R26, R113, R143, R203 to R206, R225, R226, R244, R281, R282, R306, R307, R324, R325,
R343, R409, R410, R427, R450, R470, R477, R478).
-/

namespace Sys2Proof.Machine

/-! ## Which addresses hold registers (R15, R25) -/

/-- The window of the shadow pages in the tack-fabric block (R341). -/
def inShadow (a : Nat) : Bool := aTF_CTL + 0x8000 ≤ a && a < aTF_CTL + 0x10000

/-- `ETH_RCLK` exists in the block of MAC 0 only (R307). (DEDUCED, log 157) -/
def rclkHole (a : Nat) : Bool := (List.range 3).any fun m => a == aETH_RCLK (m + 1)

/-- A 64-bit register or shadow word stands at an address that is a multiple of 8. -/
def regExists (a : Nat) : Bool := a % 8 == 0 && (inShadow a || (fieldsAt a).isSome) && !(rclkHole a)

/-! ## Reads -/

/-- Sides of a pen that are yard boundaries inside the array (Table 4.10): bit 0 east, 1 north, 2 west,
3 south. -/
def penBoundary (n : Nat) : Nat :=
  (List.range 4).foldl (fun acc d =>
    if (penFus n).any (fun g => match tileTo g d 1 with
      | some g' => g' / 128 != g / 128
      | none => false) then acc + 2 ^ d else acc) 0

/-- Sides of a pen whose outgoing crossings are closed: the receiving yard sleeps, or the crossing is in quarantine
(R112, R464). -/
def penClosed (h : Hw) (n : Nat) : Nat :=
  (List.range 4).foldl (fun acc d =>
    if (penFus n).any (fun g => match tileTo g d 1 with
      | some g' => g' / 128 != g / 128 &&
          (!(yardRuns h (g' / 128)) || h.quarantined.getLsbD (g' / 128) || h.quarantined.getLsbD (n / 8))
      | none => false) then acc + 2 ^ d else acc) 0

/-- `FU_RUN` (Table 5.12). -/
def fuRunView (h : Hw) (g : Nat) : Nat :=
  let f := fu h g
  putField fFU_RUN_PREVCTX (putField fFU_RUN_BYEP (putField fFU_RUN_BANK (putField fFU_RUN_CTX 0 f.ctx) f.bank)
    f.byEp.toNat) f.prev

/-- `HI_DONE` from the slots (Table 14.2). -/
def doneView (h : Hw) : Nat :=
  (List.range 16).foldl (fun acc s =>
    let st := (getD Slot.free h.slots s).st
    acc + (if st = .done then 2 ^ s else 0) + (if st = .free then 0 else 2 ^ (16 + s))) 0

/-- The MSI-X pending-bit array. -/
def pbaView (h : Hw) : Nat :=
  (List.range 64).foldl (fun acc v => if (msix h v).pend then acc + 2 ^ v else acc) 0

/-- Trough pointers and counts (Tables 7.8 and 7.9). -/
def trgView (h : Hw) (key word : Nat) (old : Nat) : Nat :=
  let t := trough h key
  let n := depth h key
  match word with
  | 1 =>
    let p (x : Nat) : Nat := x % (2 * n)
    putField fTRG_PTR_MK (putField fTRG_PTR_RL (putField fTRG_PTR_RP (putField fTRG_PTR_WP 0 (p t.wp)) (p t.rp)) (p t.rl))
      (p t.mark)
  | 2 =>
    let v := putField fTRG_CNT_SLOT (putField fTRG_CNT_OCCUP (putField fTRG_CNT_READABLE 0 (readable n t)) (occupied n t)) t.slot
    putField fTRG_CNT_OVFD (putField fTRG_CNT_OPEN v t.isOpen.toNat) t.ovf.toNat
  | 3 => (troughNow h key).hwm
  | _ => old

/-- The value of the register at an address, without what a read does besides. -/
def viewReg (h : Hw) (a : Nat) : BitVec 64 :=
  let v := (reg h a).toNat
  let x : Nat :=
    if inShadow a then shadowRead h (a - aTF_CTL - 0x8000)
    else
      match locate a with
      | some (.pen, n, o) =>
        if 0x6000 ≤ o ∧ o < 0x6400 then trgView h (8 * n + (o - 0x6000) / 0x80) (o % 0x80 / 8) v
        else if o = 0x7000 then ctxResView h n
        else if o = 0xC010 then putField fPEN_XCSTAT_CLOSED (putField fPEN_XCSTAT_YB v (penBoundary n)) (penClosed h n)
        else v
      | some (.fu, g, o) => if o = 0x108 then fuRunView h g else v
      | some (.sch, y, o) => if o = 0x020 then tstateView h y 0 else if o = 0x028 then tstateView h y 1 else v
      | some (.crd, _, o) => if o = 0x100 then crdTick h else v
      | some (.tb, _, o) => if o = 0x030 then time0Of (now32 h) else v
      | some (.gs, _, o) =>
        if 0x1000 ≤ o then v
        else
          let w := o % 0x40 / 8
          if w = 0 then v else if w = 6 then (gsStat h (o / 0x40)).toNat else (gsRead h (o / 0x40) w).toNat
      | some (.tf, _, o) => if o = 0x0008 then h.aclk / 4 else v
      | some (.net, _, o) => if o < 0x140 then putField fNR_STAT_WAITBUF v (waitingAt h (o / 8)) else v
      | some (.ethp, i, o) => if o = 0x300 then (peekTslo h i).toNat else v
      | some (.mo, _, o) =>
        if o = 0x008 then putField fMO_STAT_PROG v (deviceProg h)
        else if 0x100 ≤ o ∧ o < 0x180 then moPosView h ((o - 0x100) / 8)
        else if 0x4000 ≤ o ∧ o < 0x4200 then rprBadView h ((o - 0x4000) / 8)
        else v
      | some (.hi, _, o) =>
        if o = 0x018 then putField fHI_STAT_STATE v (stateCode h.mode)
        else if o = 0x028 then doneView h
        else if o = 0xC00 then pbaView h
        else v
      | _ => v
  BitVec.ofNat 64 x

/-- A read of the register at an address: `TRG_HWM` starts afresh, `TB_TIME0` latches the seconds,
`ETH_TSLO` pops its FIFO, and a measured voltage, current, power or temperature is free within what the spec says
of it (R186, R308, R313, R400, R411). (DEDUCED, log 109; DESIGN CHOICE, log 159) -/
def readReg (h : Hw) (a : Nat) : BitVec 64 × Hw :=
  match locate a with
  | some (.pen, n, o) =>
    if 0x6000 ≤ o ∧ o < 0x6400 ∧ o % 0x80 = 0x18 then
      (viewReg h a, { readHwm h (8 * n + (o - 0x6000) / 0x80) with rdata := h.rdata, rstatus := h.rstatus })
    else (viewReg h a, h)
  | some (.tb, _, o) => if o = 0x030 then readTime0 h else (viewReg h a, h)
  | some (.ethp, i, o) => if o = 0x300 then readTslo h i else (viewReg h a, h)
  | some (.pw, _, o) =>
    if o = 0x000 then
      let v := freshNat h
      let c := freshNat v.2
      let p := freshNat c.2
      (BitVec.ofNat 64 (putField fPW_VIN_MW (putField fPW_VIN_CUR (putField fPW_VIN_MV (viewReg h a).toNat v.1) c.1) p.1), p.2)
    else if 0x100 ≤ o then
      let v := railReading h ((o - 0x100) / 8)
      let c := freshNat v.2
      (BitVec.ofNat 64 (putField fPW_RAIL_CUR (putField fPW_RAIL_MV (viewReg h a).toNat v.1) c.1), c.2)
    else (viewReg h a, h)
  | some (.yp, y, o) =>
    if o = 0x018 then
      let c := freshNat h
      (BitVec.ofNat 64 (putField fYP_STAT_TEMP (viewReg h a).toNat c.1), c.2)
    else if o = 0x008 then (viewReg (slewOn h y) a, slewOn h y)
    else (viewReg h a, h)
  | _ => (viewReg h a, h)

/-! ## Writes -/

/-- Where a reserved value written into a block is recorded (R10). (DEDUCED, log 156) -/
def rsvVal (h : Hw) : Blk → Nat → Nat → Hw
  | .pen, n, o =>
    if 0x6000 ≤ o ∧ o < 0x6400 then raiseBit h (aTst (8 * n + (o - 0x6000) / 0x80)) fTRG_STAT_RSVVAL
    else raiseBit h (aPEN_CTXSTAT n) fPEN_CTXSTAT_RSVVAL
  | .fu, g, _ => raiseBit h (aPEN_CTXSTAT (g / 16)) fPEN_CTXSTAT_RSVVAL
  | .sch, y, _ => raiseBit h (aSCH_STAT y) fSCH_STAT_RSVVAL
  | .yp, y, _ => raiseBit h (aYP_STAT y) fYP_STAT_RSVVAL
  | .ag, y, _ => raiseBit h (aAG_STAT y) fAG_STAT_RSVVAL
  | .dv, _, _ => raiseBit h aDV_CTL fDV_CTL_RSVVAL
  | .tb, _, _ => tbRsv h
  | .gs, _, o => raiseBit h (aGS_STAT (o / 0x40)) fGS_STAT_RSVVAL
  | .tf, _, o => if o < 0x1000 then raiseBit h aTF_CTL fTF_CTL_RSVVAL else raiseBit h aCAP_STAT fCAP_STAT_RSVVAL
  | .clk, _, _ => raiseBit h aCLK_STAT fCLK_STAT_RSVVAL
  | .net, _, _ => raiseBit h (aNR_STAT 38) fNR_STAT_RSVVAL
  | .dc, c, _ => raiseBit h (aDC_STAT c) fDC_STAT_RSVVAL
  | .tu, _, _ => raiseBit h aTU_CTL fTU_CTL_RSVVAL
  | .jl, j, _ => raiseBit h (aJL_STAT j) fJL_STAT_RSVVAL
  | .eth, m, _ => raiseBit h (aETH_MODE m) fETH_MODE_RSVVAL
  | .ethp, i, _ => raiseBit h (aETH_PSTAT i) fETH_PSTAT_RSVVAL
  | .lk, p, _ => raiseBit h (aLK_STAT p) fLK_STAT_RSVVAL
  | .ch, _, _ => raiseBit h (aLK_STAT 0) fLK_STAT_RSVVAL
  | _, _, _ => h

/-- A write whose RW fields outside `free` keep their value; `busy` records that one would have changed. (DEDUCED, log 33) -/
def writeFree (h : Hw) (b : Blk) (i o a v : Nat) (free : Fld → Bool) (busy : Hw → Hw) : Hw :=
  let old := (reg h a).toNat
  let r := mergeFields ((fieldsOf a).filter free) old v
  let held := (fieldsOf a).any fun f => !(free f) && f.acc == .rw && fieldOf f v != fieldOf f old
  let h1 := setReg h a (BitVec.ofNat 64 r.1)
  let h2 := if r.2 then rsvVal h1 b i o else h1
  if held then busy h2 else h2

/-- A write in which each field acts by its access type (Table 0.5, R9, R10). -/
def writePlain (h : Hw) (b : Blk) (i o a v : Nat) : Hw := writeFree h b i o a v (fun _ => true) id

/-- Fields of a register cleared. -/
def clearFields (h : Hw) (a : Nat) (fs : List Fld) : Hw := applyAll (fun h f => setF h a f 0) h fs

/-- What a WO `CLR` or `CLRCNT` bit of the register at an offset of a block clears (R113): registers with the
fields named. -/
def clearedBy (b : Blk) (i o : Nat) : List (Nat × List Fld) :=
  match b with
  | .pen =>
    if 0x6000 ≤ o ∧ o < 0x6400 then
      let k := (o - 0x6000) / 0x80
      if o % 0x80 = 0x28 then [(aTRG_ECC i k, [fTRG_ECC_CECNT, fTRG_ECC_UECNT])]
      else if o % 0x80 = 0x38 then [(aTRG_STAT i k, [fTRG_STAT_ABTCNT, fTRG_STAT_REFCNT])]
      else []
    else if o = 0x6410 then
      [(aPM_STAT i, [fPM_STAT_CONFLCNT, fPM_STAT_STARVCNT]), (aPM_ECC i, (List.range 8).map fPM_ECC_CE)]
    else if o = 0xC000 then [(aPEN_STALL i, [fPEN_STALL_STALLCNT])]
    else if o = 0xC008 then [(aPEN_XLOST i, [fPEN_XLOST_XLOST, fPEN_XLOST_XCLOST, fPEN_XLOST_XCLATE])]
    else []
  | .fu =>
    if o < 0x80 then [(aFU_CST i (o / 8), [fFU_CST_PSNCNT])]
    else if o = 0x110 then [(aFU_EPOCH i, [fFU_EPOCH_SKEWCNT, fFU_EPOCH_REJCNT])]
    else []
  | .loft =>
    if o = 0x010 then
      [(aLOFT_STAT i, [fLOFT_STAT_CONFLCNT, fLOFT_STAT_STARVCNT]), (aLOFT_ECC i, (List.range 16).map fLOFT_ECC_CE)]
    else []
  | .dv => if o = 0x010 then [(aDV_XQ, [fDV_XQ_XDISC])] else []
  | .gs =>
    if o = 0x1000 then
      (List.range 64).map fun k => (aGS_STAT k, [fGS_STAT_LATECNT, fGS_STAT_EMPTYCNT, fGS_STAT_FIRECNT])
    else []
  | .net =>
    if o < 0x140 then [(aNR_STAT (o / 8), [fNR_STAT_CRCCNT, fNR_STAT_PSNCNT, fNR_STAT_HDRCE])]
    else if o < 0x1000 then [(aNY_WAKE ((o - 0x200) / 8), [fNY_WAKE_WAKECNT, fNY_WAKE_ABORTCNT])]
    else if o < 0x2000 then []
    else if o % 0x40 = 0x20 then [(aNP_CNT ((o - 0x2000) / 0x40), [fNP_CNT_COUNT])]
    else if o % 0x40 = 0x28 then [(aNP_WCNT ((o - 0x2000) / 0x40), [fNP_WCNT_COUNT])]
    else []
  | .dc => if o = 0x010 then [(aDC_ECC i, [fDC_ECC_CE, fDC_ECC_UE])] else []
  | .tu =>
    if o = 0x018 then
      [(aTU_FAULT, [fTU_FAULT_VA, fTU_FAULT_KIND, fTU_FAULT_LEVEL, fTU_FAULT_WRITE, fTU_FAULT_SRC])]
    else []
  | .jl =>
    if o = 0x050 then
      [(aJL_CNT i, [fJL_CNT_POISON_TX, fJL_CNT_CRCCNT, fJL_CNT_CGERR]),
       (aJL_CNT2 i, [fJL_CNT2_TXGAPCNT, fJL_CNT2_RXOVFCNT, fJL_CNT2_SRMISSCNT])]
    else []
  | .ethp => if o = 0x2F8 then (List.range 22).map fun k => (aETH_CNT i k, [fETH_CNT_COUNT]) else []
  | .lk => if o = 0x010 then [(aLK_ERR i, [fLK_ERR_CRCCNT, fLK_ERR_REPLAYCNT, fLK_ERR_LOSTCNT])] else []
  | .ch => if o = 0x8040 then [(aCH_CNT, [fCH_CNT_HOPDROP, fCH_CNT_NOROUTE, fCH_CNT_POOLOVF])] else []
  | .mo => if o = 0x018 then [(aMO_FIND, [fMO_FIND_CE, fMO_FIND_PSN, fMO_FIND_RPR, fMO_FIND_DEGR])] else []
  | .hi => if o = 0x048 then [(aHI_DROP, [fHI_DROP_DROPCNT])] else []
  | _ => []

/-- The counts that the register at an address names are cleared (R113). -/
def clearCounts (h : Hw) (a : Nat) : Hw :=
  match locate a with
  | none => h
  | some (b, i, o) => applyAll (fun h e => clearFields h e.1 e.2) h (clearedBy b i o)

/-- The WO bit of a register that clears counts (R113): bit 63, or bit 0 or 1 where the register's table says
so. -/
def clearBit (b : Blk) (o : Nat) : Nat :=
  match b with
  | .pen => if 0x6000 ≤ o ∧ o < 0x6400 ∧ o % 0x80 = 0x38 then 1 else if o = 0x6410 then 0 else 63
  | .loft | .mo => 0
  | .gs => 0
  | .ethp => 0
  | _ => 63

/-- Two ranges of pen-memory words, as start and length, share a word. -/
def wordsMeet (b1 l1 b2 l2 : Nat) : Bool :=
  (b2 + 16384 - b1 % 16384) % 16384 < l1 || (b1 + 16384 - b2 % 16384) % 16384 < l2

/-- A spill area of a spillable context of pen n shares a word with a range (R126, R477). -/
def meetsSpill (h : Hw) (n b l : Nat) : Bool :=
  (List.range 16).any fun c => kindOf h n c == 1 && wordsMeet (spillWord h n c 0) 352 b l

/-- Pen-memory words of pen n go to their owners by priority (R477, R478): a trough whose region a spillable
context's spill area or a lower-numbered trough holds is left with `EN` = 0 and `CFGBUSY` set. -/
def settlePenWords (h : Hw) (n : Nat) : Hw :=
  applyAll (fun h k =>
      let key := 8 * n + k
      let base (key : Nat) := troughSlot h key 0
      let lower := (List.range k).any fun j =>
        isSet h (aCfg (8 * n + j)) fTRG_CFG_EN && wordsMeet (base (8 * n + j)) (depth h (8 * n + j)) (base key) (depth h key)
      if isSet h (aCfg key) fTRG_CFG_EN && (lower || meetsSpill h n (base key) (depth h key)) then
        raiseBit (setF h (aCfg key) fTRG_CFG_EN 0) (aTst key) fTRG_STAT_CFGBUSY
      else h)
    h (List.range 8)

/-- A write of a trough, streamer or context register of a pen. -/
def writePen (m : Sparse Byte) (h : Hw) (n o a v : Nat) : Sparse Byte × Hw :=
  if 0x6000 ≤ o ∧ o < 0x6400 then
    let key := 8 * n + (o - 0x6000) / 0x80
    if o % 0x80 = 0 then (m, settlePenWords (writeTrgCfg h key v) n)
    else if o % 0x80 = 0x38 ∧ v.testBit 0 then (m, flushTrough h key)
    else (m, writePlain h .pen n o a v)
  else if o = 0x6500 ∨ o = 0x6520 then (m, writePsCtl h n ((o - 0x6500) / 0x20) v)
  else if 0x6500 < o ∧ o < 0x6540 then (m, writePsParam h n ((o - 0x6500) / 0x20) a v)
  else if o = 0x7008 then (m, settlePenWords (writeCtxKind h n v) n)
  else if o = 0x7018 then
    let go := fieldOf fPEN_CTXLOAD_GO v = 1
    let whole := go ∧ ((pen h n).load.isSome ∨ (pen h n).nonres.isSome)
    let h1 := if whole then h
      else clearFields h a ([fPEN_CTXLOAD_DONE, fPEN_CTXLOAD_FAIL].filter fun f => fieldOf f v == 1)
    let c := fieldOf fPEN_CTXLOAD_CTX v
    if go then (startLoad m h1 n c none).1
    else (m, setF h1 a fPEN_CTXLOAD_CTX c)
  else if 0x7040 ≤ o ∧ o < 0x70C0 then
    let c := (o - 0x7040) / 8
    if inUse h n c ∨ (pen h n).locks.getLsbD c then (m, raiseBit h (aPEN_CTXSTAT n) fPEN_CTXSTAT_WRINUSE)
    else (m, settlePenWords (writePlain h .pen n o a v) n)
  else (m, writePlain h .pen n o a v)

/-- A write of an FU register: `FU_CTXCTL` of context c is configuration of c (R143, R146). -/
def writeFu (h : Hw) (g o a v : Nat) : Hw :=
  if 0x200 ≤ o ∧ o < 0x280 then
    let c := (o - 0x200) / 8
    if inUse h (g / 16) c ∨ (pen h (g / 16)).locks.getLsbD c then
      raiseBit h (aPEN_CTXSTAT (g / 16)) fPEN_CTXSTAT_WRINUSE
    else writePlain h .fu g o a v
  else writePlain h .fu g o a v

/-- A write of a scheduler register (R151, R167, R168). (DEDUCED, log 36) -/
def writeSch (h : Hw) (y o a v : Nat) : Hw :=
  if o = 0x000 then
    let h1 := writePlain h .sch y o a v
    if isSet h1 a fSCH_CTL_EN then h1 else setSched h1 y { sched h1 y with latched := [] }
  else if o = 0x018 then ringDoorbell h y v
  else if o = 0x098 then writeTrrd h y v
  else if 0x100 ≤ o ∧ o < 0x500 then writeTaskEntry h y ((o - 0x100) / 16) (o % 16 == 8) v
  else writePlain h .sch y o a v

/-- A write of `YP_CTL` (R110, R402, R405, R407): a new mode is asked for, then a new divide. (DEDUCED, log 86) -/
def writeYpCtl (h : Hw) (y v : Nat) : Hw :=
  let mode := fieldOf fYP_CTL_MODE v
  let d := fieldOf fYP_CTL_DIV v
  let moved := mode ≠ getF h (aYP_CTL y) fYP_CTL_MODE
  if (moved ∧ (mode = 1 ∨ mode = 2) ∧ anyHeld h y) ∨ (d < 3 ∧ d ≠ yardDiv h y ∧ ¬ divFits h y d) then
    raiseBit h (aYP_STAT y) fYP_STAT_REFUSED
  else
  let h1 :=
    if mode = 3 then raiseBit h (aYP_STAT y) fYP_STAT_RSVVAL
    else if mode = getF h (aYP_CTL y) fYP_CTL_MODE then h
    else if mode = 0 then wakeRequest h y
    else powerDownRequest h y mode
  if d = yardDiv h1 y then h1 else writeDiv h1 y d

/-- A write of the yard power and clock block. -/
def writeYp (h : Hw) (y o a v : Nat) : Hw :=
  if o = 0x000 then writeYpCtl h y v
  else if o = 0x008 then
    let c := fieldOf fYP_VOLT_CODE v
    if c = yardCode h y then h else writeVolt h y c
  else if o = 0x010 then writePlain (noteEnables h y) .yp y o a v
  else writePlain h .yp y o a v

/-- A write of the ageing monitors (R427). -/
def writeAg (h : Hw) (y o a v : Nat) : Hw :=
  if o = 0x000 then
    let h1 := writePlain h .ag y o a v
    let h2 := if fieldOf fAG_CTL_WINGO v = 1 then windowStart h1 y else h1
    if fieldOf fAG_CTL_ROGO v = 1 then roStart h2 y else h2
  else writePlain h .ag y o a v

/-- A write of the timebase block (R310, R324, R316). -/
def writeTb (h : Hw) (o a v : Nat) : Hw :=
  let b : BitVec 64 := BitVec.ofNat 64 v
  if o = 0x008 then writeInc h b
  else if o = 0x018 then writeStep h b
  else if o = 0x028 then writeSet h b
  else if o = 0x068 then claimPps (writePlain h .tb 0 o a v)
  else writePlain h .tb 0 o a v

/-- A write of the gate schedule: start, stop and period words are staged, `GS_CTL` commits (R319, R325). -/
def writeGs (h : Hw) (o a v : Nat) : Hw :=
  if 0x1000 ≤ o then h
  else if o % 0x40 = 0 then writeGsCtl h (o / 0x40) v
  else writePlain h .gs 0 o a v

/-- A write of the tack-fabric block (R334, R338, R340, R343, R344). -/
def writeTf (h : Hw) (o a v : Nat) : Hw :=
  if o = 0x0000 then
    let h1 := clearFields h a ([fTF_CTL_RSVVAL, fTF_CTL_CFGBUSY].filter fun f => fieldOf f v == 1)
    fabEnable h1 (fieldOf fTF_CTL_EN v == 1)
  else if 0x0100 ≤ o ∧ o < 0x0180 then
    if isSet h aTF_CTL fTF_CTL_EN then raiseBit h aTF_CTL fTF_CTL_CFGBUSY else writePlain h .tf 0 o a v
  else if 0x0400 ≤ o ∧ o < 0x0420 then
    let h1 := clearFields h a ([fFIO_BANK_VLOW].filter fun f => fieldOf f v == 1)
    let on := fieldOf fFIO_BANK_V33 v == 1
    if on = isSet h1 a fFIO_BANK_V33 ∧ on = isSet h1 a fFIO_BANK_ACT33 ∧ ¬ isSet h1 a fFIO_BANK_OFF then h1
    else writeBank h1 ((o - 0x0400) / 8) on (getF h1 aPW_VIN fPW_VIN_MV)
  else if 0x0800 ≤ o ∧ o < 0x0A00 then
    let p := (o - 0x0800) / 8
    let claim := fieldOf fFIO_PAD_FCLAIM v == 1
    let h1 := writeFree h .tf 0 o a v (fun f => f.lo != fFIO_PAD_FCLAIM.lo) id
    if claim = isSet h a fFIO_PAD_FCLAIM then h1 else writeFclaim h1 p claim
  else if o = 0x1000 then
    let h1 := writePlain h .tf 0 o a v
    let h2 := if fieldOf fCAP_CTL_CANCEL v = 1 then cancelCapture h1 else h1
    if fieldOf fCAP_CTL_ARM v = 1 then armCapture h2 (fieldOf fCAP_CTL_MODE v) else h2
  else writePlain h .tf 0 o a v

/-- A write of the network block; `NC_POOL` only in START-UP, to a division that keeps R233; a probe's ring pointer
under the rule of R167. (DEDUCED, log 38) -/
def writeNet (h : Hw) (o a v : Nat) : Hw :=
  if 0x2000 ≤ o ∧ o % 64 = 0x38 then
    let k := (o - 0x2000) / 64
    if 2 ^ getF h (aNP_CTL k) fNP_CTL_LOG2 < (getF h a fNP_TRPTR_TRWR + 2 ^ 32 - v / 2 ^ 32 % 2 ^ 32) % 2 ^ 32 then h
    else writePlain h .net 0 o a v
  else
  if 0x1000 ≤ o ∧ o < 0x1500 then
    let h1 := writePlain h .net 0 o a v
    if h.mode = .startUp ∧ poolsLegal h1 ((o - 0x1000) / 0x20) then h1 else raiseBit h (aNR_STAT 38) fNR_STAT_RSVVAL
  else writePlain h .net 0 o a v

/-- A write of a memory controller (R225, R477). -/
def writeDc (h : Hw) (c o a v : Nat) : Hw :=
  if o = 0x000 then
    writeFree h .dc c o a v (fun f => !(isSet h a fDC_CFG_EN) || (f.lo != fDC_CFG_CAP.lo && f.lo != fDC_CFG_RANKS.lo)) id
  else if o = 0x028 then
    let e := fieldOf fDC_TRALIGN_ENTRY v
    if fieldOf fDC_TRALIGN_EN v = 1 ∧ gArmed h e ∧ (gate h e).bySet then raiseBit h (aGS_STAT e) fGS_STAT_INVWR
    else writePlain h .dc c o a v
  else writePlain h .dc c o a v

/-- Whether a field of a JESD register belongs to the transmit direction, by its place in the register. -/
def jlTx (o : Nat) (f : Fld) : Bool :=
  if o = 0x010 ∨ o = 0x030 then true
  else if o = 0x018 then (24 ≤ f.lo && f.lo < 48) || 56 ≤ f.lo
  else if o = 0x020 then 32 ≤ f.lo
  else if o = 0x038 then 16 ≤ f.lo
  else false

/-- A write of a JESD link block (R306). -/
def writeJl (h : Hw) (j o a v : Nat) : Hw :=
  let busy (h : Hw) : Hw := jRaise h j fJL_STAT_CFGBUSY
  if o = 0x000 then
    let h1 := writePlain h .jl j o a v
    let h2 := if fieldOf fJL_CTL_RXRST v = 1 then jReset h1 (2 * j) else h1
    if fieldOf fJL_CTL_TXRST v = 1 then jReset h2 (2 * j + 1) else h2
  else if o = 0x008 ∨ o = 0x010 then
    let d := 2 * j + (if o = 0x010 then 1 else 0)
    let h1 := writeFree h .jl j o a v (fun f => !(jEn h d) || f.lo == fJL_RXCFG_EN.lo) busy
    jConfigured h1 d
  else if o = 0x028 ∨ o = 0x030 then
    let d := 2 * j + (if o = 0x030 then 1 else 0)
    let h1 := writeFree h .jl j o a v (fun _ => !(jEn h d)) busy
    if fieldOf fJL_RXSR_ARM v = 1 then jArm h1 d else h1
  else if o = 0x018 ∨ o = 0x020 ∨ o = 0x038 then
    writeFree h .jl j o a v (fun f => !(jEn h (2 * j + (jlTx o f).toNat))) busy
  else writePlain h .jl j o a v

/-- A write of a MAC's own registers: `FEC` = 0b10 is reserved in 10 Gb/s mode, and writing a transmit flow
entry sets its counter to 0 (R300, R307). (DEDUCED, log 77) -/
def writeEth (h : Hw) (k o a v : Nat) : Hw :=
  if o = 0x000 then
    let on := (List.range 4).filter fun s => isSet h (aETH_PCTL (4 * k + s)) fETH_PCTL_EN
    let busy (h : Hw) : Hw := applyAll (fun h s => raiseBit h (aETH_PSTAT (4 * k + s)) fETH_PSTAT_CFGBUSY) h on
    let h1 := writeFree h .eth k o a v (fun f => on.isEmpty || f.acc != .rw) busy
    if getF h1 a fETH_MODE_MODE = 2 ∧ getF h1 a fETH_MODE_FEC = 2 then
      rsvVal (setF h1 a fETH_MODE_FEC (getF h a fETH_MODE_FEC)) .eth k o
    else h1
  else if 0xC00 ≤ o ∧ o < 0x1000 then
    let h1 := writePlain h .eth k o a v
    { h1 with eth.txSeq := removeAt h1.eth.txSeq (64 * k + (o - 0xC00) / 16) }
  else writePlain h .eth k o a v

/-- A write of a sub-port's registers (R303, R307). -/
def writeEthp (h : Hw) (i o a v : Nat) : Hw :=
  let en := isSet h (aETH_PCTL i) fETH_PCTL_EN
  let busy (h : Hw) : Hw := raiseBit h (aETH_PSTAT i) fETH_PSTAT_CFGBUSY
  if o = 0x000 then writeFree h .ethp i o a v (fun f => !en || f.lo == fETH_PCTL_EN.lo) busy
  else if 0x100 ≤ o ∧ o < 0x140 then
    let c := (o - 0x100) / 8
    let h1 := writeFree h .ethp i o a v (fun f => !en || (f.lo != fETH_TC_PEN.lo && f.lo != fETH_TC_TRG.lo)) busy
    let h2 := tcWritten h h1 i c
    if fieldOf fETH_TC_FORGIVE v = 1 then forgiveDebt h2 i c else h2
  else writePlain h .ethp i o a v

/-- A write of a lead port's registers (R281). -/
def writeLk (h : Hw) (p o a v : Nat) : Hw :=
  if o = 0x000 then
    let h1 := writePlain h .lk p o a v
    if ¬ isSet h1 a fLK_CTL_EN ∨ fieldOf fLK_CTL_RETRAIN v = 1 then linkDown h1 p else h1
  else writePlain h .lk p o a v

/-- A write of the chain registers (R266, R282). -/
def writeCh (h : Hw) (o a v : Nat) : Hw :=
  if 0x8100 ≤ o then writeChPool h ((o - 0x8100) / 8) (BitVec.ofNat 64 v)
  else if o = 0x8038 then
    let h1 := writePlain h .ch 0 o a v
    if fieldOf fCH_EVSEND_GO v = 1 then
      sendEvent h1 (getF h1 a fCH_EVSEND_K) (getF h1 a fCH_EVSEND_TGT) (getF h1 a fCH_EVSEND_YARDS)
    else h1
  else writePlain h .ch 0 o a v

/-- A write of the log registers: a spill that starts copies the records written from now on (R437). -/
def writeAl (h : Hw) (o a v : Nat) : Hw :=
  let h1 := writePlain h .al 0 o a v
  if o = 0x000 ∧ ¬ isSet h a fLOG_CTL_SPILL ∧ isSet h1 a fLOG_CTL_SPILL then
    { h1 with obs.spNext := getF h1 aAL_STAT fAL_STAT_WRIDX }
  else h1

/-- A write of the freeze registers (R446). -/
def writeFr (h : Hw) (o a v : Nat) : Hw :=
  let h1 := writePlain h .fr 0 o a v
  if o = 0x000 then
    let h2 := if fieldOf fFR_CTL_TARM v = 1 then freezeTarm h1 else h1
    if fieldOf fFR_CTL_TCANCEL v = 1 then freezeCancel h2 else h2
  else h1

/-- Bits 31 to 0 of a field's worth of doorbell: each slot named is posted (R353, R354). -/
def postSlots (h : Hw) (v : Nat) : Hw :=
  applyAll (fun h s =>
    if ¬ v.testBit s then h
    else
      let x := getD Slot.free h.slots s
      if x.st ≠ .free then raiseBit h aHI_STAT fHI_STAT_DBERR
      else
        { h with slots := setD Slot.free h.slots s { Slot.free with st := .posted }, posted := h.posted ++ [s] })
    h (List.range 16)

/-- Slots whose `HI_DONE` bit is cleared become FREE (R351). -/
def clearDone (h : Hw) (v : Nat) : Hw :=
  applyAll (fun h s =>
    if v.testBit s ∧ (getD Slot.free h.slots s).st = .done then { h with slots := setD Slot.free h.slots s Slot.free }
    else h) h (List.range 16)

/-- The pending message of a vector whose entry is unmasked is sent (R349). -/
def unmasked (h : Hw) (v : Nat) : Hw :=
  if (msix h v).pend ∧ ¬ (msix h v).busy ∧ ¬ vecMasked h v then sendVector (setMsix h v { msix h v with pend := false }) v
  else h

/-- The write of one register at an address that holds one. -/
def writeAt (m : Sparse Byte) (h : Hw) (b : Blk) (i o a v : Nat) : Sparse Byte × Hw :=
  match b with
  | .pen => writePen m h i o a v
  | .fu => (m, writeFu h i o a v)
  | .sch => (m, writeSch h i o a v)
  | .yp => (m, writeYp h i o a v)
  | .ag => (m, writeAg h i o a v)
  | .crd => (m, if o = 0x108 then (if v.testBit 0 then latchTime h else h) else writePlain h .crd i o a v)
  | .tb => (m, writeTb h o a v)
  | .gs => (m, writeGs h o a v)
  | .tf => (m, writeTf h o a v)
  | .clk =>
    let h1 := writePlain h .clk i o a v
    (m, if o = 0x000 ∧ fieldOf fCLK_CTL_RELOCK v = 1 then relock h1 else h1)
  | .net => (m, writeNet h o a v)
  | .dc => (m, writeDc h i o a v)
  | .tu => (m, if o = 0x010 then (if v.testBit 0 then invStart h else h) else writePlain h .tu i o a v)
  | .jl => (m, writeJl h i o a v)
  | .eth => (m, writeEth h i o a v)
  | .ethp => (m, writeEthp h i o a v)
  | .lk => (m, writeLk h i o a v)
  | .ch => (m, writeCh h o a v)
  | .al => (m, writeAl h o a v)
  | .fr => (m, writeFr h o a v)
  | .hi =>
    if o = 0x020 then (m, postSlots h v)
    else if o = 0x028 then (m, clearDone h v)
    else if 0x800 ≤ o ∧ o < 0xC00 then (m, unmasked (writePlain h .hi i o a v) ((o - 0x800) / 16))
    else if o = 0x038 then
      let h1 := writePlain h .hi i o a v
      (m, if fieldOf fHI_FRZ_FRZ v = 1 then freezeRequest h1 2 else h1)
    else (m, writePlain h .hi i o a v)
  | .loft | .dv | .pw | .mo => (m, writePlain h b i o a v)

/-- A written value without the W1C bits that the hardware has set in this cycle: they stay at 1 (R68). -/
def keepJustSet (h : Hw) (a : Nat) (v : BitVec 64) : BitVec 64 :=
  (fieldsOf a).foldl (fun v f =>
    if f.acc = .w1c ∧ h.justSet.contains (a, f.lo) then v &&& ~~~(BitVec.ofNat 64 (2 ^ f.lo)) else v) v

/-- A diagnostic write of the 64-bit register at an address (R7 to R10, R26, R68, R113). -/
def writeReg (m : Sparse Byte) (h : Hw) (a : Nat) (v : BitVec 64) : Sparse Byte × Hw :=
  let v := keepJustSet h a v
  if ¬ regExists a ∨ inShadow a then (m, h)
  else
    match locate a with
    | none => (m, h)
    | some (b, i, o) =>
      let r := writeAt m h b i o a v.toNat
      if v.toNat.testBit (clearBit b o) then (r.1, clearCounts r.2 a) else r

/-- A 4-byte write: the RW fields of the other half keep their bits. -/
def widen (h : Hw) (a : Nat) (x : Nat) : Nat × BitVec 64 :=
  let base := a / 8 * 8
  let rw := (fieldsOf base).foldl (fun acc f => if f.acc = .rw then acc + fieldOf f (reg h base).toNat * 2 ^ f.lo else acc) 0
  let lo := a % 8 = 0
  let v := if lo then x % 2 ^ 32 + rw / 2 ^ 32 * 2 ^ 32 else rw % 2 ^ 32 + x % 2 ^ 32 * 2 ^ 32
  (base, BitVec.ofNat 64 v)

/-! ## The configuration store (R13, R48, R101, R115, R143) -/

/-- The pen and context whose configuration stands at an offset of the configuration store (Table 1.6). -/
def storeOwner (o : Nat) : Option (Nat × Nat) :=
  if o < 0x200000 then some (o / 16384, o / 64 % 16)
  else if o < 0x280000 then some ((o - 0x200000) / 4096, (o - 0x200000) / 256 % 16)
  else none

/-- A tile record holds a reserved select: code 0xF, or a U-turn (R97). -/
def reservedSelect (rec : Nat) : Bool :=
  ((List.range 4).any fun k => inSel rec k == 15) ||
    (List.range 12).any fun t => outSel rec t == 15 || (outSel rec t < 12 && outSel rec t / 3 == t / 3)

/-- A diagnostic write of the fabric configuration: discarded while the fabric runs; a reserved value is recorded
(R333, R334). (DESIGN CHOICE, log 194) -/
def writeFabric (m : Sparse Byte) (h : Hw) (a : Nat) (bytes : List Byte) : Sparse Byte × Hw :=
  if isSet h aTF_CTL fTF_CTL_EN then (m, raiseBit h aTF_CTL fTF_CTL_CFGBUSY)
  else
    let m1 := writeBytes m a bytes
    (m1, if noReserved m1 ((a - blockAddr 0) / 0x1000) then h else raiseBit h aTF_CTL fTF_CTL_RSVVAL)

/-- A diagnostic write of the configuration store: that of a context in use, or write-locked, is discarded whole; a
reserved select of a pen-switch context is recorded. (DESIGN CHOICE, log 194) -/
def writeStore (m : Sparse Byte) (h : Hw) (a : Nat) (bytes : List Byte) : Sparse Byte × Hw :=
  let o := a - 0x1004000000
  match storeOwner o with
  | none => if blockAddr 0 ≤ a ∧ a < blockAddr 256 then writeFabric m h a bytes else (m, h)
  | some (n, c) =>
    if inUse h n c ∨ (pen h n).locks.getLsbD c then (m, raiseBit h (aPEN_CTXSTAT n) fPEN_CTXSTAT_WRINUSE)
    else
      let m1 := writeBytes m a bytes
      let rsv := decide (0x200000 ≤ o) && (List.range 16).any fun f => reservedSelect (leNat (readBytes m1 (tileAddr n c f) 10))
      (m1, if rsv then raiseBit h (aPEN_XCSTAT n) fPEN_XCSTAT_RSVVAL else h)

/-- A register write of 8 or 4 bytes. (DEDUCED, log 107) -/
def writeWide (m : Sparse Byte) (h : Hw) (a : Nat) (wide : Bool) (v : BitVec 64) : Sparse Byte × Hw :=
  if wide then writeReg m h a v
  else
    let w := widen h a v.toNat
    writeReg m h w.1 w.2

end Sys2Proof.Machine
end

