-- ==== Sys2Proof/Machine/HostBus.lean ====
section
/-!
DEFINITION. Host accesses through BAR2, register requests on the network, and the accesses that wait for a
yard to wake (R15 to R32, R230, R240, R345, R447, R448).
-/

namespace Sys2Proof.Machine

/-! ## Where a local address lies (R15 to R25) -/

/-- What stands at a local address for an access of n bytes. -/
inductive Region where
  | dram
  | slots
  | store
  | register
  /-- a register access of the wrong width or alignment -/
  | badRegister
  | hole
deriving DecidableEq, Repr

/-- The region of an access of n bytes from an address (Table 1.5). -/
def regionOf (h : Hw) (a n : Nat) : Region :=
  if a + n ≤ dramEnd h then .dram
  else if 0x1000000000 ≤ a ∧ a + n ≤ 0x1004000000 then .slots
  else if 0x1004000000 ≤ a ∧ a + n ≤ 0x1004400000 then .store
  else if regionBase ≤ a ∧ a < regionBase + 0x2000000 then
    if (n ≠ 4 ∧ n ≠ 8) ∨ a % n ≠ 0 then .badRegister
    else if regExists (a / 8 * 8) then .register
    else .hole
  else .hole

/-- The domain code of Table 19.5 behind whose crossing an address lies: that of its router, or the tack
fabric or gate schedule. -/
def codeOf (a : Nat) : Option Nat :=
  match locate a with
  | some (.tf, _, _) => some 0x1A
  | some (.gs, _, _) => some 0x1B
  | _ => domainOf (endpointOf (routerOf a))

/-- The address lies behind a quarantined crossing (R31, R464). -/
def behindQuarantine (h : Hw) (a : Nat) : Bool :=
  match codeOf a with
  | some c => h.quarantined.getLsbD c
  | none => false

/-! ## Local accesses -/

/-- The bytes of the slots of a range (R20). -/
def readSlots (m : Sparse Byte) (h : Hw) (a n : Nat) (e : Ecc) : List Byte × Hw :=
  let first := a / 16
  let r := (List.range ((a + n + 15) / 16 - first)).foldl (fun (s : List Byte × Hw) i =>
    match slotOf (16 * (first + i)) with
    | some (mem, w) =>
      let x := windowRead m s.2 mem w e
      (s.1 ++ leBytes 9 x.1.d.toNat ++ [x.1.tag] ++ List.replicate 6 0, x.2)
    | none => (s.1 ++ List.replicate 16 0, s.2)) ([], h)
  ((r.1.drop (a % 16)).take n, r.2)

/-- A discarded host write, counted in `HI_DROP` (R31). -/
def hostDrop (h : Hw) : Hw := bump h aHI_DROP fHI_DROP_DROPCNT 1

/-! ## Host accesses (R29 to R31) -/

/-- Bytes that a host access covers. -/
def barSize (x : Bar2) : Nat := if x.wr then x.data.length else x.len

/-- An access that is not served: a read completes with a status (1 Unsupported Request, 2 poisoned with
all bytes 0), a write is discarded and counted. -/
def unserved (h : Hw) (x : Bar2) (status : Nat) : Hw :=
  if x.wr then hostDrop h
  else { h with rdata := (if status = 2 then List.replicate x.len 0 else []), rstatus := status }

/-- Local address that an aperture gives an offset of BAR2 (R29). -/
def apertureAddr (h : Hw) (off : Nat) : Nat :=
  getF h (aAP (off / 2 ^ 30)) fAP_BASE * 2 ^ 30 + off % 2 ^ 30

/-! ## The requests of a host access (R20, R21, R29, R230, R261)

The PCIe endpoint carries out an access as requests of router 33: a request for each DRAM line, for each group of eight
slots that is read or block of 64 bytes of a window that is written, and for each register or eight bytes of the
configuration store. (DESIGN CHOICE, log 195) -/

/-- The blocks of n bytes that a range meets: first address and number of bytes in each. -/
def cutBlocks (size a n : Nat) : List (Nat × Nat) :=
  (List.range ((a + n + size - 1) / size - a / size)).map fun i =>
    let b := size * (a / size + i)
    (max a b, min (a + n) (b + size) - max a b)

/-- A request of the endpoint to the router that serves an address of this device. (DESIGN CHOICE, log 195) -/
def hostPart (id op cnt addr off skip len : Nat) (slots : Bool) (ws : List TW) : NocReq :=
  ⟨op, ⟨Fin.ofNat 40 (routerOf addr), 33, BitVec.ofNat 3 cnt, 0, BitVec.ofNat 40 addr, ws, none⟩, .part id off skip len slots⟩

/-- The requests that carry out an access; a register write of four bytes is marked by `CNT` = 1. (DESIGN CHOICE, log 57) -/
def hostParts (rg : Region) (id a : Nat) (x : Bar2) : List NocReq :=
  let n := if x.wr then x.data.length else x.len
  let piece (p : Nat × Nat) : List Byte := (x.data.drop (p.1 - a)).take p.2
  match rg with
  | .dram =>
    (lineParts a n).map fun p => linePart 33 id (p.1 - a) p.1 (if x.wr then some (piece p) else none) p.2
  | .slots =>
    if x.wr then (cutBlocks 64 a n).map fun p => hostPart id 2 7 p.1 (p.1 - a) 0 0 true (maskWords (piece p))
    else (cutBlocks 128 a n).map fun p =>
      hostPart id 0 ((p.1 + p.2 + 15) / 16 - p.1 / 16 - 1) (16 * (p.1 / 16)) (p.1 - a) (p.1 % 16) p.2 true []
  | .store =>
    (cutBlocks 8 a n).map fun p => hostPart id 8 0 (8 * (p.1 / 8)) (p.1 - a) (p.1 % 8) p.2 false []
  | .register =>
    if x.wr then [hostPart id 9 (if n = 8 then 0 else 1) a 0 0 0 false [TW.data (BitVec.ofNat 72 (leNat x.data))]]
    else [hostPart id 8 0 (8 * (a / 8)) 0 (a % 8) n false []]
  | .badRegister | .hole => []

/-- A request for another device: it goes to the lead router of the route, with its route flit (R261). -/
def towards (dev port : Nat) (q : NocReq) : NocReq :=
  { q with f := { q.f with dst := if port = 0 then 24 else 31, route := some ⟨BitVec.ofNat 6 dev, false, q.f.dst⟩ } }

/-- A host access is carried out: its requests wait at the endpoint to be sent. -/
def beginHost (h : Hw) (x : Bar2) (parts : Nat → List NocReq) : Hw :=
  let id := freeWhole h
  beginWhole h id (.host x.wr (barSize x)) (parts id)

/-- A host access to this device in the normal view (Table 1.10). -/
def hostLocal (h : Hw) (a : Nat) (x : Bar2) : Hw :=
  let rg := regionOf h a (barSize x)
  let ps := hostParts rg 0 a x
  if ps.isEmpty then unserved h x 1
  else if rg = .store ∧ x.wr then h
  else if frozen h ∨ h.mode = .isolated ∨ behindQuarantine h a ∨ ps.any (fun q => behindQuarantine h q.f.addr.toNat) then
    unserved h x 2
  else beginHost h x fun id => hostParts rg id a x

/-- The bytes that the freeze view gives, without side effects; a DRAM read takes its controller out of
self-refresh where `DRAMRD` allows it (R30, R447, R475). None where it is not served. (DEDUCED, log 104) -/
def frozenRead (m : Sparse Byte) (h : Hw) (a n : Nat) (e : Ecc) : Option (List Byte) × Hw :=
  match regionOf h a n with
  | .dram =>
    let cs := ((linesOf a n).map lineChannel).eraseDups
    if cs.all fun c => frozenDramOk h c then
      let h1 := applyAll (fun h c => srLeave h c) h cs
      let r := dramRead m h1 a n (List.replicate 64 e)
      (some r.1, { h1 with arr := r.2.arr })
    else (none, h)
  | .slots => (some (readSlots m h a n e).1, h)
  | .store => (some (readBytes m a n), h)
  | .register => (some (((leBytes 8 (viewReg h (a / 8 * 8)).toNat).drop (a % 8)).take n), h)
  | .badRegister | .hole => (none, h)

/-- A host access in the freeze view. -/
def hostFrozen (m : Sparse Byte) (h : Hw) (a : Nat) (x : Bar2) : Hw :=
  if x.wr then hostDrop h
  else
    match frozenRead m h a x.len x.ecc with
    | (some bs, h1) => answerRead h1 bs
    | (none, h1) => unserved h1 x 1

/-! ## Host accesses to another device (R29, R31, R261) -/

/-- The region of an access on another device. How much of the DRAM data space that device has is not known here. -/
def farRegion (h : Hw) (a n : Nat) : Region :=
  if a + n ≤ 0xF00000000 then .dram
  else
    match regionOf h a n with
    | .dram => .hole
    | rg => rg

/-- A host access to another device, over the port of its route. -/
def hostRemote (h : Hw) (dev port a : Nat) (x : Bar2) : Hw :=
  let rg := farRegion h a (barSize x)
  if (hostParts rg 0 a x).isEmpty then unserved h x 1
  else if rg = .store ∧ x.wr then h
  else beginHost h x fun id => (hostParts rg id a x).map (towards dev port)

/-- The parts of a host access are answered: a read gives its bytes, a poisoned completion or, where another device
answered that its DRAM has a hole there, Unsupported Request; a write that was refused in any part is counted once
(R31). (DEDUCED, log 106) -/
def hostAnswered (h : Hw) (w : Whole) (wr : Bool) (len : Nat) : Hw :=
  if w.status = 0 then (if wr then h else answerRead h (readBytes w.bytes 0 len))
  else if wr then hostDrop h
  else if w.hole then { h with rdata := [], rstatus := 1 }
  else { h with rdata := List.replicate len 0, rstatus := 2 }

/-- A host access through BAR2 (R29 to R31, Table 1.10). (DEDUCED, log 106) -/
def hostBar2 (m : Sparse Byte) (h : Hw) (x : Bar2) : Hw :=
  let ap := aAP (x.off.toNat / 2 ^ 30)
  let dev := getF h ap (fAP_DEV 0)
  let a := apertureAddr h x.off.toNat
  let own := if addressed h then ownAddr h else 0
  if ¬ h.clocked then (if x.wr then h else unserved h x 1)
  else if x.wr ∧ x.tlpEp then hostDrop h
  else if barSize x = 0 then (if x.wr then h else answerRead h [])
  else if ¬ isSet h ap fAP_EN then unserved h x 1
  else if isSet h ap fAP_VIEW then
    if dev ≠ 0 ∨ h.mode ≠ .frozen then unserved h x 1 else hostFrozen m h a x
  else if dev = own then hostLocal h a x
  else if ¬ addressed h ∨ chainCount h ≤ dev then unserved h x 1
  else if frozen h then unserved h x 2
  else
    match portTo h dev with
    | none => unserved h x 2
    | some port => hostRemote h dev port a x

/-! ## Register requests on the network (R32, R230) -/

/-- A REGRD or REGWR carried out, or refused. A REGRD of the host reads the configuration store at router 25.
(DESIGN CHOICE, log 195) -/
def serveRegs (m : Sparse Byte) (h : Hw) (op : Nat) (f : Flit) : Sparse Byte × Hw :=
  let a := f.addr.toNat
  let wide := f.cnt = 0
  if restrictedReq h f ∨ bar0Base ≤ a ∨ a % (if op = 9 ∧ ¬ wide then 4 else 8) ≠ 0 then (m, refuseLogged h op f)
  else if op = 8 ∧ f.dst.val = 25 ∧ 0x1004000000 ≤ a ∧ a < 0x1004400000 then
    (m, respond h op f 0 [TW.data (BitVec.ofNat 72 (leNat (readBytes m a 8)))])
  else if ¬ regExists (a / 8 * 8) then (m, refuseLogged h op f)
  else if op = 8 then
    let r := readReg h a
    (m, respond r.2 op f 0 [TW.data (r.1.setWidth 72)])
  else
    let r := writeWide m h a wide (((f.words.headD TW.notValid).d).setWidth 64)
    (r.1, respond r.2 op f 0 [])

/-- A register request that has passed its checks: refused across a quarantined crossing, or served, at once
or after its yard has woken or its controller's reset has ended (R32, R240, R463, R464). -/
def dispatchRegs (m : Sparse Byte) (h : Hw) (op : Nat) (f : Flit) : Sparse Byte × Hw :=
  match endpointOf f.dst.val with
  | .dc c => if dramInReset h c then (m, holdDram h c op f []) else serveRegs m h op f
  | ep =>
    if quarantinedAt h f.dst.val ∨ behindQuarantine h f.addr.toNat then (m, refuseClosed h op f)
    else
    match ep with
    | .transit => (m, refuseLogged h op f)
    | .yard y => if yardTakes h y then serveRegs m h op f else (m, waitForWake h y op f)
    | _ => serveRegs m h op f

/-- A request of either kind that has arrived at its endpoint. -/
def dispatchAny (m : Sparse Byte) (h : Hw) (op : Nat) (f : Flit) (es : List Ecc) : Sparse Byte × Hw :=
  if op = 8 ∨ op = 9 then dispatchRegs m h op f else dispatchReq m h op f es

/-! ## After a wake (R240, R405) -/

/-- A wake completes and the yard's endpoint serves what waited for it, in arrival order (R31, R240, R405).
(DEDUCED, log 89) -/
def wakeServe (m : Sparse Byte) (h : Hw) (y : Nat) : Sparse Byte × Hw :=
  let h1 := wakeDone h y
  if yardTakes h1 y ∧ ¬ yardTakes h y then
    (getD [] h1.noc.asleep y).foldl (fun s q => dispatchAny s.1 s.2 q.kind q.f [])
      (m, { h1 with noc.asleep := setD [] h1.noc.asleep y [] })
  else (m, h1)

/-! ## Register accesses of the host and of diagnostic commands -/

/-- A register's RW fields as they stand, its other bits 0: what a write carries that leaves them. -/
def keepRw (h : Hw) (a : Nat) : Nat :=
  (fieldsOf a).foldl (fun acc f => if f.acc = .rw then acc + fieldOf f (reg h a).toNat * 2 ^ f.lo else acc) 0

/-- The value that writes x into one field of a register and leaves its RW fields. -/
def oneField (h : Hw) (a : Nat) (f : Fld) (x : Nat) : BitVec 64 := BitVec.ofNat 64 (putField f (keepRw h a) x)

/-- A register write: while FROZEN only the BAR0 registers take it, and any other is counted (R30, R445). -/
def busWrite (m : Sparse Byte) (h : Hw) (a : Nat) (v : BitVec 64) : Sparse Byte × Hw :=
  if ¬ h.clocked then (m, h)
  else if h.mode = .frozen ∧ a < bar0Base then (m, hostDrop h)
  else writeReg m h a v

/-- A register read, without side effects while FROZEN (R447). -/
def busRead (h : Hw) (a : Nat) : Hw :=
  if ¬ h.clocked then h
  else if h.mode = .frozen then answerRead h (leBytes 8 (viewReg h a).toNat)
  else answerRead (readReg h a).2 (leBytes 8 (readReg h a).1.toNat)

end Sys2Proof.Machine
end

