-- ==== Sys2Proof/Machine/Requests.lean ====
section
/-!
DEFINITION. Requests and answers on the network as they meet the chain, the forwarders and the ports (R185,
R230, R239, R261 to R265), delay measurement requests (R270) and the TAP's frozen readout (R448).
-/

namespace Sys2Proof.Machine

/-- A request packet arrives: at a lead router with a route flit it goes to another device, or waits there for chain
credits; any other is served by its endpoint (R230, R236, R261, R262). -/
def arriveAny (m : Sparse Byte) (h : Hw) (op : Nat) (f : Flit) (pass : Passage) (es : List Ecc) : Sparse Byte × Hw :=
  match arrivePacket h op f pass with
  | (none, h1) => (m, h1)
  | (some q, h1) =>
    match q.f.route, endpointOf q.f.dst.val with
    | some _, .lead _ =>
      (m, if quarantinedAt h1 q.f.dst.val then refuseClosed h1 q.op q.f else leadArrive h1 q.op q.f)
    | _, _ => dispatchAny m h1 q.op q.f es

/-! ## Trace rings (R165, R166, R243) -/

/-- A trace write waits at its router or is on its way. -/
def traceBusy (h : Hw) (r : Nat) (o : Origin) : Bool :=
  (queueOf h r).any (fun q => q.origin == o) || (outOf h r).any fun x => x.req.origin == o

/-- The record of a scheduler that was staged first is written, or lost (R166). -/
def schedDone (h : Hw) (y : Nat) (stored : Bool) : Hw :=
  let s := { sched h y with staging := (sched h y).staging.drop 1 }
  if stored then setF (setSched h y s) (aSCH_TRWR y) fSCH_TRWR_WR (getF h (aSCH_TRWR y) fSCH_TRWR_WR + 1)
  else bump (setSched h y { s with lost := s.lost + 1 }) (aSCH_TRDROP y) fSCH_TRDROP_DROP 1

/-- The write of the oldest staged record of a scheduler, by its yard's router and one at a time, while the yard does not
power down: to a window, or to the translation unit; lost where `SCH_TRBASE` names neither (R165, R404).
(DESIGN CHOICE, log 37) -/
def schedNext (h : Hw) (y : Nat) : Hw :=
  match (sched h y).staging with
  | [] => h
  | r :: _ =>
    if ¬ arrayRuns h y ∨ powerDownStarts h y ∨ traceBusy h (yardRouter y) (.sched y) then h
    else
      let base := getF h (aSCH_TRBASE y) fSCH_TRBASE_BASE
      let idx := getF h (aSCH_TRWR y) fSCH_TRWR_WR % 2 ^ getF h (aSCH_TRSIZE y) fSCH_TRSIZE_LOG2
      let send (dst addr : Nat) : Hw :=
        queueRequest h
          ⟨1, ⟨Fin.ofNat 40 dst, Fin.ofNat 40 (yardRouter y), 0, 0, BitVec.ofNat 40 addr, [traceWord r.toNat], none⟩, .sched y⟩
      if isSet h (aSCH_CTL y) fSCH_CTL_TRDRAM then send 17 (base + 10 * idx)
      else
        match slotOf (base + 16 * idx) with
        | some (mem, _) => send (yardRouter (slotYard mem)) (base + 16 * idx)
        | none => schedDone h y false

/-- The record of a probe that was staged first is written, or lost. -/
def traceDone (h : Hw) (k : Nat) (stored : Bool) : Hw :=
  let a := aNP_TRPTR k
  let h1 := { h with noc.probeStage := setD [] h.noc.probeStage k ((getD [] h.noc.probeStage k).drop 1) }
  if stored then setF h1 a fNP_TRPTR_TRWR (getF h1 a fNP_TRPTR_TRWR + 1)
  else
    bump { h1 with noc.probeLost := setD 0 h1.noc.probeLost k (getD 0 h1.noc.probeLost k + 1) } (aNP_CTL k) fNP_CTL_DROPCNT 1

/-- The write of the oldest staged record of a probe, by router 38 and one at a time: to a window, or to the translation
unit; lost where `NP_TRBASE` names neither. (DESIGN CHOICE, log 196) -/
def traceNext (h : Hw) (k : Nat) : Hw :=
  match getD [] h.noc.probeStage k with
  | [] => h
  | (w0, w1) :: _ =>
    if traceBusy h 38 (.probe k) then h
    else
      let a := aNP_CTL k
      let base := getF h (aNP_TRBASE k) fNP_TRBASE_BASE
      let idx := getF h (aNP_TRPTR k) fNP_TRPTR_TRWR % 2 ^ getF h a fNP_CTL_LOG2
      let send (dst addr : Nat) : Hw :=
        queueRequest h ⟨1, ⟨Fin.ofNat 40 dst, 38, 1, 0, BitVec.ofNat 40 addr, [w0, w1], none⟩, .probe k⟩
      if isSet h a fNP_CTL_TRDRAM then send 17 (base + 20 * idx)
      else
        match slotOf (base + 32 * idx) with
        | some (mem, _) => send (yardRouter (slotYard mem)) (base + 32 * idx)
        | none => traceDone h k false

/-! ## Answers -/

/-- What a complete answer does for the one on whose behalf a request was sent (R31, R166, R185, R230, R243, R263, R294). -/
def answeredFor (h : Hw) (q : NocReq) (status : Nat) (ws : List TW) : Hw :=
  match q.origin with
  | .part id off skip len slots =>
    match partAnswered h id off skip len slots status ws with
    | (none, h1) => h1
    | (some w, h1) =>
      match w.asker with
      | .host wr len => hostAnswered h1 w wr len
      | .tu op f _ => answerXlat h1 w op f
  | .probe k => traceDone h k (status == 0)
  | .sched y => schedDone h y (status == 0)
  | .own =>
    match endpointOf q.f.src.val with
    | .jesd j => if q.op = 4 then jPulled h j ws else h
    | _ => h
  | o => answerChain h q.op q.f.cnt.toNat o status ws

/-- A push of a JESD link waits while its receive direction is down (R289). -/
def pushHeld (h : Hw) (op : Nat) (f : Flit) : Bool :=
  match endpointOf f.src.val with
  | .jesd j => op == 3 && !(jUp h (2 * j))
  | _ => false

/-- A request that its requester may send leaves; the push of a link with a word of L = 1 raises the link's event
(R234, R291). -/
def sendNow (h : Hw) (op : Nat) (f : Flit) : Hw :=
  let h1 := sendRequest h op f
  match endpointOf f.src.val with
  | .jesd j =>
    if op = 3 ∧ (outOf h f.src.val).length < (outOf h1 f.src.val).length ∧ f.words.any (·.l) then
      raiseEventAll h1 (0xC2 + 4 * j)
    else h1
  | _ => h1

/-- A requester sends a request; one without a pool at its destination completes at once, also for those on whose behalf
it waited (R234, R235). -/
def sendOrRefuse (h : Hw) (op : Nat) (f : Flit) : Hw :=
  if frozen h ∨ 0xC ≤ op ∨ pushHeld h op f then h
  else if poolOf h f.dst.val f.src.val = 0 then
    let q := (takeQueued h op f).2.1
    let h1 := noCredit h op f
    answeredFor h1 q 1 h1.noc.words
  else sendNow h op f

/-- A request's answer has reached its requester. -/
def answered (d : Option Delivered × Hw) : Hw :=
  match d with
  | (some ⟨some q, status, ws⟩, h) => answeredFor h q status ws
  | (_, h) => h

/-- A data response arrives (R239). -/
def takeData (h : Hw) (r rb : Nat) (pass : Passage) : Hw := answered (deliverData h r rb pass)

/-- An acknowledgement arrives (R239). -/
def takeAckOf (h : Hw) (r rb : Nat) (pass : Passage) : Hw := answered (deliverAck h r rb pass)

/-! ## The forwarder (R185, R261) -/

/-- A request of the forwarder of a trough: to the remote trough on this device, or through a lead router on another. -/
def forwardReq (h : Hw) (key op : Nat) (ws : List TW) (count : Nat) : NocReq :=
  let a := aTRG_FWD (key / 8) (key % 8)
  let dev := getF h a fTRG_FWD_DEV
  let q : NocReq := { troughReq (yardRouter (key / 64)) (getF h a fTRG_FWD_PEN) (getF h a fTRG_FWD_TRG) op ws with
    origin := .forwarder key count }
  if dev = ownAddr h then q else towards dev ((portTo h dev).getD 0) q

/-- The forwarder takes a word and sends what it has (R185, R195). -/
def forward (m : Sparse Byte) (h : Hw) (key : Nat) (e : Ecc) : Hw :=
  if ¬ fwdLive h key then h
  else
    let x := fwdTake m h key e
    match fwdNext x.2 key x.1 with
    | (none, h1) => h1
    | (some (op, ws, count), h1) => queueRequest h1 (forwardReq h1 key op ws count)

/-- A delay-measurement packet arrives (R270): a request is answered with a reply, whose time stamps' layout
the spec does not give; a reply gives the four times. (PRESUMED, log 62) -/
def delayPacket (h : Hw) (port : Nat) (p : Pkt) (t1 t2 t3 t4 : Int) : Hw :=
  if p.arg.getLsbD 0 then takeDm h port t1 t2 t3 t4
  else
    let w := freshWord h
    let b := packet w.2 9 0xFD 1
    sendOn w.2 port { b with p := { b.p with words := [w.1] } }

/-- The port of the upstream neighbour: the working path to device 0 that is shorter, `LU` where both are
equal (R270). -/
def upstreamPort (h : Hw) : Nat := getF h aCH_TA fCH_TA_UPPORT

/-- A delay-measurement request is sent upstream; the time stamps' layout is open (R270). -/
def delayExchange (h : Hw) : Hw :=
  if frozen h ∨ isDev0 h ∨ ¬ addressed h then h
  else
    let w := freshWord h
    let b := packet w.2 9 0xFD 0
    sendOn w.2 (upstreamPort w.2) { b with p := { b.p with words := [w.1] } }

/-- FRZ_DATA: the 8 bytes at the selected address with their status, and the address advanced by 8 (R448). A
hole's bytes are open. (DESIGN CHOICE, log 102) -/
def tapRead (m : Sparse Byte) (h : Hw) : Hw :=
  if h.mode ≠ .frozen then h
  else
    let a := h.frz.tapAddr.toNat
    let r := frozenRead m h a 8 .ok
    let st := match r.1, regionOf h a 8 with
      | some _, _ => 0
      | none, .dram => 2
      | none, _ => 1
    let v : Nat × Hw := match r.1 with
      | some bs => (leNat bs, r.2)
      | none => ((freshNat r.2).1 % 2 ^ 64, (freshNat r.2).2)
    { v.2 with frz.tapData := (v.1, st), frz.tapAddr := h.frz.tapAddr + 8 }

end Sys2Proof.Machine
end

