-- ==== Sys2Proof/Machine/ArrayCmds.lean ====
section
/-!
DEFINITION. The meanings of the commands on contexts, pens, schedulers and the coordinator (chapters 4 to 6).
-/

namespace Sys2Proof.Machine

/-- `YARD_DIVIDE_WRITE` (R110): A write of YP_CTL.DIV requests a new divide for the yard, refused if it
breaks the neighbour limits. -/
def execYardDivideWrite (y : Fin 16) (div : BitVec 2) (s : State) : Host.Outcome State Fault Refusal :=
  .next (onMem s (fun m h => busWrite m h (aYP_CTL y.val) (oneField h (aYP_CTL y.val) fYP_CTL_DIV div.toNat)))

/-- `DIVIDE_CHANGE` (R110): The new divide takes effect at the first index multiple of 4 after the write and
crossings deliver under the new row. -/
def execDivideChange (y : Fin 16) (s : State) : Host.Outcome State Fault Refusal :=
  .next (onHw s (fun h => divideChange h y.val))

/-- `BROADCAST_SWITCH` (R127): In switch cycle D every FU of the pen abandons its round and takes the new
context. -/
def execBroadcastSwitch (n : Fin 128) (s : State) : Host.Outcome State Fault Refusal :=
  .next (onMem s (fun m h => broadcastSwitch m h n.val))

/-- `NOVICT_RETRY` (R123): When no bank was eligible at D, the victim choice is made again at D + 5 and
NOVICT is set. -/
def execNovictRetry (n : Fin 128) (s : State) : Host.Outcome State Fault Refusal :=
  .next (onMem s (fun m h => retryVictim m h n.val))

/-- `CONTEXT_RESTORE_COMPLETE` (R131): Writeback, turnaround and restore of a non-resident switch end and
step 0 of the incoming context issues. -/
def execContextRestoreComplete (n : Fin 128) (bad : List Nat) (s : State) : Host.Outcome State Fault Refusal :=
  .next (onMem s (fun m h => completeNonRes m h n.val bad))

/-- `EPOCH_SWITCH` (R135): A valid word with a new permitted EP on the lead port switches the FU to that
context in the same cycle. -/
def execEpochSwitch (g : Fin 2048) (s : State) : Host.Outcome State Fault Refusal :=
  .next (onHw s (fun h => epochSwitch s.mem h g.val))

/-- `PEN_CTXLOAD` (R124): Writing PEN_CTXLOAD with GO = 1 starts making a context resident without running
it. -/
def execPenCtxload (n : Fin 128) (ctx : BitVec 4) (s : State) : Host.Outcome State Fault Refusal :=
  .next (onMem s (fun m h => busWrite m h (aPEN_CTXLOAD n.val) (BitVec.ofNat 64 (ctx.toNat + 16))))

/-- `CONTEXT_LOAD_DONE` (R124): A context load finishes writeback and restore and sets DONE. -/
def execContextLoadDone (n : Fin 128) (bad : List Nat) (s : State) : Host.Outcome State Fault Refusal :=
  .next (onHw s (fun h => finishLoad s.mem h n.val bad))

/-- `PEN_CTXKIND_WRITE` (R145): A diagnostic write to PEN_CTXKIND takes effect field by field for parked
contexts only. -/
def execPenCtxkindWrite (n : Fin 128) (v : BitVec 64) (s : State) : Host.Outcome State Fault Refusal :=
  .next (onMem s (fun m h => busWrite m h (aPEN_CTXKIND n.val) (v)))

/-- `SCHEDULER_EVALUATION` (R155): At an edge of its yard the scheduler processes retirements, completions,
triggers and dispatch in order. -/
def execSchedulerEvaluation (y : Fin 16) (s : State) : Host.Outcome State Fault Refusal :=
  .next (onHw s (fun h => evaluate h y.val))

/-- `GROUP_DISPATCH` (R161): The coordinator dispatches a group in every member yard at once when every
member could be dispatched. -/
def execGroupDispatch (gr : Fin 16) (s : State) : Host.Outcome State Fault Refusal :=
  .next (onHw s (fun h => dispatchGroup h gr.val))

/-- `TASK_RETIRE` (R151): A write to word 0 that clears only VALID retires the task at the next evaluation,
or at once while EN = 0. -/
def execTaskRetire (y : Fin 16) (t : Fin 64) (s : State) : Host.Outcome State Fault Refusal :=
  .next (onMem s (fun m h => busWrite m h (aSCH_TASK0 y.val t.val) (oneField h (aSCH_TASK0 y.val t.val) fSCH_TASK0_VALID 0)))

/-- `TASK_ENTRY_WRITE` (R151): A write to a task entry takes effect only while EN = 0 or the entry is IDLE,
else sets WRBUSY. -/
def execTaskEntryWrite (y : Fin 16) (t : Fin 64) (word1 : Bool) (v : BitVec 64) (s : State) :
    Host.Outcome State Fault Refusal :=
  .next (onMem s (fun m h => busWrite m h (if word1 then aSCH_TASK1 y.val t.val else aSCH_TASK0 y.val t.val) (v)))

/-- `PRELOAD` (R159): In the cycle after a dispatched task's step 0 first issues, each pen starts a load of
PRELD. -/
def execPreload (n : Fin 128) (s : State) : Host.Outcome State Fault Refusal :=
  .next (onMem s (fun m h => preloadPen m h n.val))

/-- `SYNC` (R164): When CRD_TICK[28:0] reaches 0 a SYNC record is written into every enabled ring. -/
def execSync (s : State) : Host.Outcome State Fault Refusal :=
  .next (onHw s (fun h => syncRings h))

/-- `SCH_TRRD_WRITE` (R167): The reader advances SCH_TRRD, and a write that would exceed the ring size is
discarded and sets TRERR. -/
def execSchTrrdWrite (y : Fin 16) (v : BitVec 32) (s : State) : Host.Outcome State Fault Refusal :=
  .next (onMem s (fun m h => busWrite m h (aSCH_TRRD y.val) (v.setWidth 64)))

/-- `SCH_DBELL` (R168): Writing 1 to bit i of SCH_DBELL raises event 0xF0 + i. -/
def execSchDbell (y : Fin 16) (bits : BitVec 8) (s : State) : Host.Outcome State Fault Refusal :=
  .next (onMem s (fun m h => busWrite m h (aSCH_DBELL y.val) (bits.setWidth 64)))

/-- `CRD_LATCH` (R169): Writing CRD_LATCH copies CRD_TICK and the time counter in one cycle. -/
def execCrdLatch (s : State) : Host.Outcome State Fault Refusal :=
  .next (onMem s (fun m h => busWrite m h (aCRD_LATCH) (1)))

end Sys2Proof.Machine
end

