-- ==== Sys2Proof/Machine/Crypto.lean ====
section
/-!
DEFINITION. The named cryptographic functions that images use (R370, R371): SHA-384, ECDSA over P-384 and
AES-256-GCM. The spec names them and does not define them; they are PRESUMED to be those of FIPS 180-4,
FIPS 186-4, FIPS 197 and SP 800-38D.
-/

namespace Sys2Proof.Machine

/-! ## SHA-384 -/

/-- The largest x below 2^b added to acc with x^k ≤ n, found bit by bit. -/
def rootBits (k n : Nat) : Nat → Nat → Nat
  | 0, acc => acc
  | b + 1, acc => rootBits k n b (if (acc + 2 ^ b) ^ k ≤ n then acc + 2 ^ b else acc)

def primeTest (n : Nat) : Bool := 2 ≤ n && (List.range n).all fun d => d < 2 || n % d != 0

/-- The first 80 primes. -/
def primes80 : List Nat := (List.range 410).filter primeTest

/-- The round constants: 64 fraction bits of cube roots of primes. -/
def shaK : List (BitVec 64) := primes80.map fun p => BitVec.ofNat 64 (rootBits 3 (p * 2 ^ 192) 68 0)

/-- The eight working words. -/
structure ShaSt where
  a : BitVec 64
  b : BitVec 64
  c : BitVec 64
  d : BitVec 64
  e : BitVec 64
  f : BitVec 64
  g : BitVec 64
  h : BitVec 64
deriving DecidableEq, Repr

/-- The initial words: 64 fraction bits of the square roots of the ninth to sixteenth primes. -/
def shaInit : ShaSt :=
  let w (i : Nat) : BitVec 64 := BitVec.ofNat 64 (rootBits 2 ((primes80.getD i 0) * 2 ^ 128) 68 0)
  ⟨w 8, w 9, w 10, w 11, w 12, w 13, w 14, w 15⟩

def shaRound (s : ShaSt) (kw : BitVec 64) : ShaSt :=
  let s1 := s.e.rotateRight 14 ^^^ s.e.rotateRight 18 ^^^ s.e.rotateRight 41
  let ch := (s.e &&& s.f) ^^^ (~~~s.e &&& s.g)
  let t1 := s.h + s1 + ch + kw
  let s0 := s.a.rotateRight 28 ^^^ s.a.rotateRight 34 ^^^ s.a.rotateRight 39
  let maj := (s.a &&& s.b) ^^^ (s.a &&& s.c) ^^^ (s.b &&& s.c)
  ⟨t1 + s0 + maj, s.a, s.b, s.c, s.d + t1, s.e, s.f, s.g⟩

/-- The message schedule, newest word first, extended by n words. -/
def shaExtend : Nat → List (BitVec 64) → List (BitVec 64)
  | 0, ws => ws
  | n + 1, ws =>
    let x := ws.getD 1 0
    let y := ws.getD 14 0
    let s1 := x.rotateRight 19 ^^^ x.rotateRight 61 ^^^ (x >>> 6)
    let s0 := y.rotateRight 1 ^^^ y.rotateRight 8 ^^^ (y >>> 7)
    shaExtend n ((s1 + ws.getD 6 0 + s0 + ws.getD 15 0) :: ws)

/-- The big-endian value of bytes. -/
def msbNat (bs : List Byte) : Nat := bs.foldl (fun acc b => 256 * acc + b.toNat) 0

/-- n big-endian bytes of a value. -/
def msbBytes (n x : Nat) : List Byte := (leBytes n x).reverse

def shaBlock (s : ShaSt) (block : List Byte) : ShaSt :=
  let ws := (chunk8 16 block).map fun bs => BitVec.ofNat 64 (msbNat bs)
  let full := (shaExtend 64 ws.reverse).reverse
  let t := (List.zip shaK full).foldl (fun s kw => shaRound s (kw.1 + kw.2)) s
  ⟨s.a + t.a, s.b + t.b, s.c + t.c, s.d + t.d, s.e + t.e, s.f + t.f, s.g + t.g, s.h + t.h⟩
where
  /-- n groups of eight bytes. -/
  chunk8 : Nat → List Byte → List (List Byte)
    | 0, _ => []
    | n + 1, bs => bs.take 8 :: chunk8 n (bs.drop 8)

def shaBlocks : Nat → ShaSt → List Byte → ShaSt
  | 0, s, _ => s
  | n + 1, s, bs => shaBlocks n (shaBlock s (bs.take 128)) (bs.drop 128)

/-- SHA-384 of a list of bytes: 48 bytes. (PRESUMED, log 136) -/
def sha384 (msg : List Byte) : List Byte :=
  let len := msg.length
  let pad := (239 - len % 128) % 128
  let full := msg ++ [0x80#8] ++ List.replicate pad 0#8 ++ msbBytes 16 (8 * len)
  let s := shaBlocks (full.length / 128) shaInit full
  ([s.a, s.b, s.c, s.d, s.e, s.f].map fun w => msbBytes 8 w.toNat).flatten

/-! ## ECDSA over P-384 -/

def p384 : Nat := 2 ^ 384 - 2 ^ 128 - 2 ^ 96 + 2 ^ 32 - 1

/-- Order of the base point. -/
def n384 : Nat := 
  0xffffffffffffffffffffffffffffffffffffffffffffffffc7634d81f4372ddf581a0db248b0a77aecec196accc52973

/-- Coefficient b of the curve. -/
def b384 : Nat :=
  0xb3312fa7e23ee7e4988e056be3f82d19181d9c6efe8141120314088f5013875ac656398d8a2ed19d2a85c8edd3ec2aef

/-- The base point. -/
def g384 : Nat × Nat :=
  (0xaa87ca22be8b05378eb1c71ef320ad746e1d3b628ba79b9859f741e082542a385502f25dbf55296c3a545e3872760ab7,
   0x3617de4a96262c6f5d9e98bf9292dc29f8f41dbd289a147ce9da3113b5f0b8c00a60b1ce1d7e819d7a431d7c90ea0e5f)

/-- x^e mod m over the low bits of e. -/
def powMod (m : Nat) : Nat → Nat → Nat → Nat
  | 0, _, _ => 1 % m
  | k + 1, x, e =>
    let y := powMod m k (x * x % m) (e / 2)
    if e % 2 = 1 then x * y % m else y

/-- Inverse modulo a prime of 384 bits. -/
def invMod (m x : Nat) : Nat := powMod m 384 (x % m) (m - 2)

/-- Sum of two points; `none` is the point at infinity. -/
def pointAdd : Option (Nat × Nat) → Option (Nat × Nat) → Option (Nat × Nat)
  | none, q => q
  | q, none => q
  | some (x1, y1), some (x2, y2) =>
    let q := p384
    if x1 = x2 ∧ (y1 + y2) % q = 0 then none
    else
      let l := if x1 = x2 then (3 * x1 * x1 + (q - 3)) * invMod q (2 * y1) % q
        else (y2 + q - y1) * invMod q (x2 + q - x1) % q
      let x := (l * l + 2 * q - x1 - x2) % q
      some (x, (l * (x1 + q - x) + q - y1) % q)

/-- k times a point, over the low bits of k. -/
def pointMul : Nat → Nat → Option (Nat × Nat) → Option (Nat × Nat)
  | 0, _, _ => none
  | n + 1, k, a =>
    let r := pointMul n (k / 2) (pointAdd a a)
    if k % 2 = 1 then pointAdd a r else r

/-- A point of the curve with coordinates below the modulus. -/
def onCurve (x y : Nat) : Bool :=
  x < p384 && y < p384 && (y * y) % p384 == (x * x * x + (p384 - 3) * x + b384) % p384

/-- The signature (r, s) of a digest under the public key (x, y). -/
def ecdsaVerify (x y : Nat) (digest : List Byte) (r s : Nat) : Bool :=
  if ¬ onCurve x y ∨ r = 0 ∨ n384 ≤ r ∨ s = 0 ∨ n384 ≤ s then false
  else
    let w := invMod n384 s
    let u1 := msbNat digest * w % n384
    let u2 := r * w % n384
    match pointAdd (pointMul 384 u1 (some g384)) (pointMul 384 u2 (some (x, y))) with
    | none => false
    | some (xr, _) => xr % n384 == r

/-! ## AES-256-GCM -/

/-- Product in GF(2^8) modulo x^8 + x^4 + x^3 + x + 1. -/
def aesMul (a b : BitVec 8) : BitVec 8 :=
  ((List.range 8).foldl (fun (acc : BitVec 8 × BitVec 8) i =>
    let x := if b.getLsbD i then acc.1 ^^^ acc.2 else acc.1
    let d := acc.2 <<< 1
    (x, if acc.2.getLsbD 7 then d ^^^ 0x1B#8 else d)) (0#8, a)).1

/-- The S-box: inverse, then the affine map. -/
def aesSub (a : BitVec 8) : BitVec 8 :=
  let i := (List.range 253).foldl (fun x _ => aesMul x a) a
  i ^^^ i.rotateLeft 1 ^^^ i.rotateLeft 2 ^^^ i.rotateLeft 3 ^^^ i.rotateLeft 4 ^^^ 0x63#8

def aesXor (a b : List Byte) : List Byte := List.zipWith (fun x y => x ^^^ y) a b

/-- Round-key words of a 256-bit key, newest first: n words added, the next being word i. -/
def aesExpand : Nat → Nat → List (List Byte) → List (List Byte)
  | 0, _, ws => ws
  | n + 1, i, ws =>
    let t := ws.getD 0 []
    let t1 := if i % 8 = 0 then
        let s := (t.drop 1 ++ t.take 1).map aesSub
        let rc := (List.range (i / 8 - 1)).foldl (fun x _ => aesMul x 2#8) 1#8
        aesXor s [rc, 0, 0, 0]
      else if i % 8 = 4 then t.map aesSub else t
    aesExpand n (i + 1) (aesXor (ws.getD 7 []) t1 :: ws)

/-- The 60 round-key words. -/
def aesKeys (key : List Byte) : List (List Byte) :=
  (aesExpand 52 8 ((List.range 8).map fun i => (key.drop (4 * i)).take 4).reverse).reverse

def aesShiftRows (s : List Byte) : List Byte :=
  (List.range 16).map fun i => s.getD ((i + 4 * (i % 4)) % 16) 0

def aesMixColumns (s : List Byte) : List Byte :=
  (List.range 16).map fun i =>
    let c := 4 * (i / 4)
    let at_ (k : Nat) : Byte := s.getD (c + (i + k) % 4) 0
    aesMul 2#8 (at_ 0) ^^^ aesMul 3#8 (at_ 1) ^^^ at_ 2 ^^^ at_ 3

/-- One block encrypted. -/
def aesBlock (ks : List (List Byte)) (blk : List Byte) : List Byte :=
  let rk (r : Nat) : List Byte := ((ks.drop (4 * r)).take 4).flatten
  let mid := (List.range 13).foldl (fun s r =>
    aesXor (aesMixColumns (aesShiftRows (s.map aesSub))) (rk (r + 1))) (aesXor blk (rk 0))
  aesXor (aesShiftRows (mid.map aesSub)) (rk 14)

/-- Product in GF(2^128) as GHASH orders its bits. -/
def ghashMul (x y : BitVec 128) : BitVec 128 :=
  ((List.range 128).foldl (fun (acc : BitVec 128 × BitVec 128) i =>
    let z := if x.getLsbD (127 - i) then acc.1 ^^^ acc.2 else acc.1
    let v := acc.2 >>> 1
    (z, if acc.2.getLsbD 0 then v ^^^ BitVec.ofNat 128 (0xE1 * 2 ^ 120) else v)) (0, y)).1

/-- GHASH over n blocks of bytes, the last padded with zeros. -/
def ghash (hk : BitVec 128) : Nat → BitVec 128 → List Byte → BitVec 128
  | 0, acc, _ => acc
  | n + 1, acc, bs =>
    let blk := (bs.take 16 ++ List.replicate 16 0#8).take 16
    ghash hk n (ghashMul (acc ^^^ BitVec.ofNat 128 (msbNat blk)) hk) (bs.drop 16)

/-- Counter-mode key stream applied to n blocks. -/
def ctrBlocks (ks : List (List Byte)) (iv : List Byte) : Nat → Nat → List Byte → List Byte
  | 0, _, _ => []
  | n + 1, c, bs => aesXor (bs.take 16) (aesBlock ks (iv ++ msbBytes 4 c)) ++ ctrBlocks ks iv n (c + 1) (bs.drop 16)

/-- AES-256-GCM decryption: the plain text, or `none` where the tag does not match. -/
def gcmDecrypt (key iv aad body tag : List Byte) : Option (List Byte) :=
  let ks := aesKeys key
  let hk := BitVec.ofNat 128 (msbNat (aesBlock ks (List.replicate 16 0#8)))
  let g1 := ghash hk ((aad.length + 15) / 16) 0 aad
  let g2 := ghash hk ((body.length + 15) / 16) g1 body
  let g3 := ghash hk 1 g2 (msbBytes 8 (8 * aad.length) ++ msbBytes 8 (8 * body.length))
  let want := aesXor (msbBytes 16 g3.toNat) (aesBlock ks (iv ++ msbBytes 4 1))
  if want = tag then some (ctrBlocks ks iv ((body.length + 15) / 16) 2 body) else none

end Sys2Proof.Machine
end

