-- ==== Sys2Proof/Machine/ImageRules.lean ====
section
/-!
DEFINITION. The rules that an image's contexts, switches, fabric and registers are checked against at load
(R73, R94, R100, R120, R126, R134, R150, R160, R184, R233, R333): each is a Bool over the memory and
registers as they would stand after the image.
-/

namespace Sys2Proof.Machine

/-! ## Steps of a round (R70, R73, R92 to R94, R503) -/

/-- IMM bits that an opcode uses in a format (R70). -/
def immMask (opc fmt : Nat) : Nat :=
  if opc = 0x05 ∨ opc = 0x80 ∨ opc = 0x81 ∨ opc = 0x86 then 0xFFFF
  else if opc = 0x18 ∨ opc = 0x19 ∨ opc = 0x66 ∨ opc = 0x67 ∨ opc = 0x68 then 0x7F
  else if opc = 0x37 then 3
  else if opc = 0x59 ∨ opc = 0x88 then 0xFF
  else if opc = 0x71 ∨ opc = 0x72 then 7
  else if opc = 0x73 then 2 ^ elemCount fmt - 1
  else if opc = 0x90 then 0x303
  else if opc = 0x91 then 0xF
  else if opc = 0x97 then 0x3F
  else if opc = 0xA2 then (if fmt = 4 then 0xF0F else 0xFFF)
  else 0

/-- A source field: unused and 0, or used with a select that the row allows (R71, R73, R91). -/
def sourceFits (use quad bound : Bool) (sel : Nat) : Bool :=
  if ¬ use then sel == 0
  else if quad then sel < 0x10
  else sel < 0x1A && (sel != 0x19 || bound)

/-- A step that an image may hold: no case of R92 or R93 and no non-zero unused field (R70, R94). `bound`
tells whether its context is bound to a trough (R73). (DEDUCED, log 26) -/
def stepFits (opc : Nat) (u : UStep) (bound : Bool) : Bool :=
  match opRow opc with
  | none => false
  | some op =>
    let fmt := u.fmt.toNat
    let d := u.dst.toNat
    let quad := opc == 0xA1 && fmt == 4
    let srcs := [(op.useA, u.srca.toNat), (op.useB, u.srcb.toNat), (op.useC, u.srcc.toNat)]
    let reads (p : Nat → Bool) : Bool := srcs.any fun x => x.1 && p x.2
    let useMod := op.useMod || reads fun s => s == 0x14 || s == 0x15
    let modUsed := (if useMod then 0xF7 else 0) + (if op.useCl then 8 else 0)
    let immUsed := if reads (· == 0x16) then 0xFFFF else immMask opc fmt
    let imm := u.imm.toNat
    let modv := u.mod.toNat
    let dstFits := if op.dst = .unused then d == 0 else dstOk op.dst quad d
    let trough := d == 0x16 || (0x82 ≤ opc && opc ≤ 0x89)
    op.fmts.contains fmt && (srcs.all fun x => sourceFits x.1 quad bound x.2) && dstFits &&
      (!trough || bound) && modv &&& (0xFF - modUsed) == 0 && imm &&& (0xFFFF - immUsed) == 0 &&
      !(useMod && modv % 4 == 3) && !(op.useCl && modv.testBit 3 && (fmt == 0 || fmt == 7)) &&
      !(op.immReserved fmt imm) && gateOf u != 15

/-- The steps that a round issues, with their opcodes: up to the first that ends it (R78). -/
def roundSteps (m : Sparse Byte) (g c : Nat) : List (Nat × UStep) :=
  upTo ((List.range 8).map fun s => stepOfBits (storedStep m g c s))
where
  /-- Up to and including the first ending step. -/
  upTo : List (Nat × UStep) → List (Nat × UStep)
    | [] => []
    | x :: xs => if endOf x.2 then [x] else x :: upTo xs

/-- Cycles of a round (R78). -/
def roundCycles (steps : List (Nat × UStep)) : Nat :=
  steps.foldl (fun n x => n + (1 + repOf x.2) * (match opRow x.1 with
    | some op => slotsOf op x.2
    | none => 1)) 0

/-- The round of context c in FU g may stand in an image (R94). -/
def roundFits (m : Sparse Byte) (h : Hw) (g c : Nat) : Bool :=
  let steps := roundSteps m g c
  let bound := isSet h (aFU_CTXCTL g c) fFU_CTXCTL_TRGEN
  (steps.all fun x => stepFits x.1 x.2 bound) && roundCycles steps ≤ 128

/-- SRCA of step 0 of a context (R134). -/
def leadSelect (m : Sparse Byte) (g c : Nat) : Nat := (stepOfBits (storedStep m g c 0)).2.srca.toNat

/-- The follow rules of R134: a context that follows has an IN port as its lead, and, whether it follows or not, every
member of its set has the same lead. -/
def followFits (m : Sparse Byte) (h : Hw) (g c : Nat) : Bool :=
  let set_ := getF h (aFU_CTXCTL g c) fFU_CTXCTL_FSET
  let lead := leadSelect m g c
  (!(follows h g c) || (0x10 ≤ lead && lead < 0x14)) &&
    (List.range 16).all fun b => !(set_.testBit b) || leadSelect m g b == lead

/-- Every context of an FU whose set names context c, rewritten or standing, has the same lead as c (R134). -/
def followedFits (m : Sparse Byte) (h : Hw) (g c : Nat) : Bool :=
  (List.range 16).all fun a =>
    !((getF h (aFU_CTXCTL g a) fFU_CTXCTL_FSET).testBit c) || leadSelect m g a == leadSelect m g c

/-- Producer and consumer steps of an FU in a context (R184). -/
def producesIn (m : Sparse Byte) (g c : Nat) : Bool :=
  (roundSteps m g c).any fun x => x.1 == 0x82 || (0x87 ≤ x.1 && x.1 ≤ 0x89) || x.2.dst.toNat == 0x16
def consumesIn (m : Sparse Byte) (g c : Nat) : Bool :=
  (roundSteps m g c).any fun x => 0x83 ≤ x.1 && x.1 ≤ 0x86

/-! ## Pen-switch contexts (R97 to R100) -/

/-- Tile record of FU f of pen n in context c. -/
def recordOf (m : Sparse Byte) (n c f : Nat) : Nat := leNat (readBytes m (tileAddr n c f) 10)

/-- The path back from a select of tile g to its timing point keeps R99: `points` switch points and `pitch`
tile pitches remain. A select of 0xE is no wire, and with no point left the only one that fits. A track that enters
the pen starts at a timing point (R100). -/
def pathFits (m : Sparse Byte) (n c : Nat) : Nat → Nat → Nat → Nat → Bool
  | 0, _, _, sel => sel == 14
  | points + 1, pitch, g, sel =>
    if 12 ≤ sel then true
    else
      match driverOf g sel with
      | none => true
      | some (g', t') =>
        let len := trackLen (t' % 3)
        let rec' := recordOf m n c (g' % 16)
        if pitch < len then false
        else if g' / 16 ≠ n ∨ registered rec' g' t' then true
        else pathFits m n c points (pitch - len) g' (outSel rec' t')

/-- One outgoing track of a tile (R97, R99, R100). -/
def trackFits (m : Sparse Byte) (n c g t : Nat) : Bool :=
  let r := recordOf m n c (g % 16)
  let sel := outSel r t
  sel != 15 && !(sel < 12 && sel / 3 == t / 3) &&
    (match farEnd g t with
     | none => sel == 14
     | some g' =>
       if crosses g t then !(regBit r t) && pathFits m n c 3 4 g sel
       else if t % 3 = 2 ∨ g' / 16 ≠ n then regBit r t && pathFits m n c 3 4 g sel
       else !(regBit r t) || pathFits m n c 3 4 g sel)

/-- A pen-switch context that an image may hold (R100); its record bytes 0xA0 to 0xFF are 0 (R102). -/
def switchFits (m : Sparse Byte) (n c : Nat) : Bool :=
  ((List.range 16).all fun f =>
    let g := 16 * n + f
    let r := recordOf m n c f
    r / 2 ^ 76 == 0 &&
      ((List.range 4).all fun k => inSel r k != 15 && pathFits m n c 3 4 g (inSel r k)) &&
      (List.range 12).all fun t => trackFits m n c g t) &&
  (readBytes m (tileAddr n c 16) 96).all (· == 0)

/-! ## Context kinds, spill areas and troughs of a pen (R120, R126, R184) -/

/-- Words of a spill area: 22 for each FU. -/
abbrev spillLen : Nat := 352

/-- First words of a region meet those of another, neither of which wraps. -/
def regionsMeet (b1 l1 b2 l2 : Nat) : Bool := b1 < b2 + l2 && b2 < b1 + l1

/-- The trough occupies its region (R184). -/
def troughOn (h : Hw) (key : Nat) : Bool := isSet h (aCfg key) fTRG_CFG_EN
def troughWords (h : Hw) (key : Nat) : Nat × Nat := (8 * getF h (aCfg key) fTRG_CFG_BASE, depth h key)
def spillBase (h : Hw) (n c : Nat) : Nat := 8 * getF h (aPEN_SPILL n c) fPEN_SPILL_BASE

/-- A trough that is on lies inside the pen memory and meets no other region (R184). -/
def troughFits (h : Hw) (n k : Nat) : Bool :=
  let key := 8 * n + k
  let r := troughWords h key
  !(troughOn h key) ||
    (r.1 + r.2 ≤ 16384 &&
      ((List.range 8).all fun j => j == k || !(troughOn h (8 * n + j)) ||
        !(regionsMeet r.1 r.2 (troughWords h (8 * n + j)).1 (troughWords h (8 * n + j)).2)) &&
      (List.range 16).all fun c => kindOf h n c != 1 || !(regionsMeet r.1 r.2 (spillBase h n c) spillLen))

/-- The sides of a trough (R184): not the array twice; a streamer whose `DIR` fits. -/
def sidesFit (h : Hw) (n k : Nat) : Bool :=
  let a := aTRG_CFG n k
  let p := getF h a fTRG_CFG_PSIDE
  let q := getF h a fTRG_CFG_CSIDE
  !(p == 0 && q == 0) && (p < 2 || !(isSet h (aPS_CTL n (p - 2)) fPS_CTL_DIR)) &&
    (q < 3 || isSet h (aPS_CTL n (q - 3)) fPS_CTL_DIR)

/-- A context's kind and spill area (R126); `hasBase` tells whether the image gives it a base. Of the regions that an
image assigns, only spill areas and enabled troughs meet a spill area; words that it initialises do not.
(DESIGN CHOICE, log 198) -/
def spillFits (h : Hw) (n c : Nat) (hasBase : Bool) : Bool :=
  let b := spillBase h n c
  if kindOf h n c ≠ 1 then b == 0
  else hasBase && b + spillLen ≤ 16384 &&
    ((List.range 16).all fun d => d == c || kindOf h n d != 1 || !(regionsMeet b spillLen (spillBase h n d) spillLen)) &&
    (List.range 8).all fun k => !(troughOn h (8 * n + k)) ||
      !(regionsMeet b spillLen (troughWords h (8 * n + k)).1 (troughWords h (8 * n + k)).2)

/-- At most two contexts of a pen are pinned, those counted too that earlier images or diagnostic writes made so
(R120). (DESIGN CHOICE, log 199) -/
def pinsFit (h : Hw) (n : Nat) : Bool := (List.range 16).countP (fun c => kindOf h n c == 2) ≤ 2

/-- In one context at most one FU is the producer and one the consumer of a trough (R184). -/
def accessFits (m : Sparse Byte) (h : Hw) (n c : Nat) : Bool :=
  (List.range 8).all fun k =>
    let bound := (List.range 16).filter fun f =>
      let a := aFU_CTXCTL (16 * n + f) c
      isSet h a fFU_CTXCTL_TRGEN && getF h a fFU_CTXCTL_TRG == k
    bound.countP (fun f => producesIn m (16 * n + f) c) ≤ 1 && bound.countP (fun f => consumesIn m (16 * n + f) c) ≤ 1

/-! ## Tasks and groups (R150, R160) -/

/-- A task-table entry that an image writes (R150): `named` tells which contexts the image holds. -/
def taskFits (h : Hw) (y t : Nat) (named : Nat → Nat → Bool) : Bool :=
  let a0 := aSCH_TASK0 y t
  let a1 := aSCH_TASK1 y t
  let mask := getF h a0 fSCH_TASK0_PENMASK
  !(isSet h a0 fSCH_TASK0_VALID) ||
    (mask != 0 &&
      ((List.range 8).all fun p => !(mask.testBit p) || named (8 * y + p) (getF h a0 fSCH_TASK0_CTX)) &&
      ((List.range 4).all fun i => !(eventReserved (getF h a1 (fSCH_TASK1_TRG i)))) &&
      !(eventReserved (getF h a1 fSCH_TASK1_DONEEV)) &&
      (!(isSet h a0 fSCH_TASK0_GRPEN) ||
        (getF h (aCRD_GRP (getF h a0 fSCH_TASK0_GROUP)) fCRD_GRP_YARDS).testBit y))

/-- The valid entries of yard y that belong to group g. -/
def groupEntries (h : Hw) (g y : Nat) : List Nat :=
  (List.range 64).filter fun t =>
    let a := aSCH_TASK0 y t
    isSet h a fSCH_TASK0_VALID && isSet h a fSCH_TASK0_GRPEN && getF h a fSCH_TASK0_GROUP == g

/-- The groups that written task entries belong to, before or after they are written (R160). -/
def groupsOf (h0 h : Hw) (y t : Nat) : List Nat :=
  [h0, h].flatMap fun h =>
    let a := aSCH_TASK0 y t
    if isSet h a fSCH_TASK0_VALID && isSet h a fSCH_TASK0_GRPEN then [getF h a fSCH_TASK0_GROUP] else []

/-- Group g keeps R160. (DEDUCED, log 141) -/
def groupFits (h : Hw) (g : Nat) : Bool :=
  let yards := (List.range 16).filter fun y => (getF h (aCRD_GRP g) fCRD_GRP_YARDS).testBit y
  let ms := yards.map fun y => (y, groupEntries h g y)
  let fld (f : Fld) (x : Nat × List Nat) : Nat := getF h (aSCH_TASK0 x.1 (x.2.headD 0)) f
  (ms.all fun x => x.2.length == 1) &&
    (match ms with
     | [] => true
     | lead :: rest => rest.all fun x =>
         fld fSCH_TASK0_PRIO x == fld fSCH_TASK0_PRIO lead && fld fSCH_TASK0_PREEMPT x == fld fSCH_TASK0_PREEMPT lead &&
           fld fSCH_TASK0_TRGEN x == 0 && fld fSCH_TASK0_DONEEN x == 0)

/-! ## Fabric records (R328, R333) -/

/-- Output connections that Table 13.4 names. -/
def outConnected (b q : Nat) : Bool :=
  let y := 16 * b + q
  y ≤ 0x508

/-- What a select or macrocell depends on within one cycle: codes of blocks. Flops and registers in use cut
the path; a latch does not (R333). -/
def fabricDeps (m : Sparse Byte) (b code : Nat) : List (Nat × Nat) :=
  if code < 16 then
    let r := macroRec m b code
    let terms := ((List.range 5).filter fun k => r.testBit k).map (fun k => 5 * code + k) ++
      ((List.range 16).filter fun k => r.testBit (5 + k)).map (80 + ·)
    let lits := (List.range 48).filter fun i => terms.any fun k =>
      (termRec m b k).testBit (2 * i) || (termRec m b k).testBit (2 * i + 1)
    let extra := (if mRst r < 48 then [mRst r] else []) ++ (if mClk r = 2 then [mClkIn r] else [])
    if mMode r = 0 then (lits ++ (if mRst r < 48 then [mRst r] else [])).map fun i => (b, inputCode m b i)
    else if mMode r = 3 then (lits ++ extra).map fun i => (b, inputCode m b i)
    else []
  else if code < 48 then
    match segDriver b (code - 16) with
    | none => []
    | some (b', s) => if (segRec m b' s).testBit 8 then [] else [(b', segRec m b' s % 256)]
  else []

/-- No chain of more than `fuel` combinational elements leads to a code. -/
def chainEnds (m : Sparse Byte) : Nat → Nat → Nat → Bool
  | 0, _, _ => false
  | fuel + 1, b, code => (fabricDeps m b code).all fun x => chainEnds m fuel x.1 x.2

/-- The fabric holds 256 × 16 macrocells and 256 × 32 segments: a longer chain is a loop. -/
abbrev fabricNodes : Nat := 256 * 48 + 1

/-- The record of a block keeps R333. -/
def blockFits (m : Sparse Byte) (b : Nat) : Bool :=
  noReserved m b && ((List.range 16).all fun q => outConnected b q || outRec m b q % 256 == 0x40) &&
    ((List.range 32).all fun s => (blockTo b (s / 8) (segLen (s % 8))).isSome || segRec m b s % 256 == 0x40) &&
    (List.range 48).all fun code => chainEnds m fabricNodes b code

end Sys2Proof.Machine
end

