-- ==== Sys2Proof/Machine/Functions.lean ====
section
/-!
DEFINITION. Functions as commands start and configure them (R363 to R365, Table 14.9): the registers of each
function, the merge of a record under its mask, the check of a set of records and its application.
-/

namespace Sys2Proof.Machine

/-! ## Status codes (Table 14.7) -/

abbrev stOk : Nat := 0
abbrev stAccepted : Nat := 1
abbrev stUnsupported : Nat := 2
abbrev stInvalid : Nat := 3
abbrev stBusy : Nat := 4
abbrev stNoTarget : Nat := 5
abbrev stAuth : Nat := 6
abbrev stIdentity : Nat := 7
abbrev stConflict : Nat := 8
abbrev stAborted : Nat := 9
abbrev stWrong : Nat := 10
abbrev stHwFault : Nat := 11

/-! ## Registers of a function (Table 14.9) -/

/-- A status or count register: it has fields that are read or cleared, and none that is written. -/
def statusReg (a : Nat) : Bool :=
  !((fieldsOf a).any fun f => f.acc == .rw) && (fieldsOf a).any fun f => f.acc == .ro || f.acc == .w1c

/-- `FUNC_CONFIG` of a function may write the register at an address. -/
def fnOwns (h : Hw) (id a : Nat) : Bool :=
  let i := id % 256
  match locate a with
  | none => false
  | some (b, j, o) =>
    match id / 256, b with
    | 1, .jl => j == i
    | 2, .ethp => j == i
    | 2, .eth => j == i / 4 && (List.range 4).all fun s => !(fnRunning h (fnId 2 (4 * (i / 4) + s)))
    | 3, .pen => j / 8 == i && !(statusReg a)
    | 3, .fu => j / 128 == i && !(statusReg a)
    | 3, .loft => j == i && !(statusReg a)
    | 4, .sch => j == i
    | 4, .crd => o < 0x80
    | 5, .tb => o != 0x008 && o != 0x018 && o != 0x028
    | 6, .gs => true
    | 7, .tf => o < 0x1000
    | _, _ => false

/-- Bits of a value outside every field of the register. -/
def strayBits (a v : Nat) : Nat :=
  v &&& (2 ^ 64 - 1 - (fieldsOf a).foldl (fun acc f => acc ||| (2 ^ f.w - 1) * 2 ^ f.lo) 0)

/-- The value that a record writes: under the mask its own, elsewhere what was read in an RW or RO field and 0
in a W1C or WO field (R365). -/
def mergeRecord (old a mask value : Nat) : Nat :=
  (fieldsOf a).foldl (fun acc f =>
    let k := fieldOf f mask
    let kept := match f.acc with
      | .rw | .ro => fieldOf f old &&& (2 ^ f.w - 1 - k)
      | .w1c | .wo => 0
    acc + ((fieldOf f value &&& k) ||| kept) * 2 ^ f.lo) 0

/-- One record applied as a read, a merge and a write (R365). -/
def mergeWrite (m : Sparse Byte) (h : Hw) (a mask value : Nat) : Sparse Byte × Hw :=
  let r := readReg h a
  writeReg m r.2 a (BitVec.ofNat 64 (mergeRecord r.1.toNat a mask value))

/-- The address is that of a `TRG_CFG`. -/
def isTrgCfg (a : Nat) : Bool :=
  match locate a with
  | some (.pen, _, o) => 0x6000 ≤ o && o < 0x6400 && o % 0x80 == 0
  | _ => false

/-- The address is that of an `NC_POOL`. -/
def isPool (a : Nat) : Bool :=
  match locate a with
  | some (.net, _, o) => 0x1000 ≤ o && o < 0x1500
  | _ => false

/-- A record of `FUNC_CONFIG` or of an image: credit pools, whose division an image's check holds to R233 as a whole,
are stored as they come; other fields of an enabled trough are written with `EN` = 0, and
`EN` is restored (R365). -/
def configRecord (s : Sparse Byte × Hw) (r : Nat × Nat × Nat) : Sparse Byte × Hw :=
  let (a, mask, value) := r
  if isPool a then (s.1, setReg s.2 a (BitVec.ofNat 64 (mergeRecord (reg s.2 a).toNat a mask value)))
  else
  if isTrgCfg a ∧ isSet s.2 a fTRG_CFG_EN ∧ mask / 4 ≠ 0 then
    let en := fieldOf fTRG_CFG_EN (mergeRecord (reg s.2 a).toNat a mask value)
    let s1 := mergeWrite s.1 s.2 a 1 0
    let s2 := mergeWrite s1.1 s1.2 a (mask - mask % 2) value
    mergeWrite s2.1 s2.2 a 1 en
  else mergeWrite s.1 s.2 a mask value

/-- Records applied in order. -/
def configAll (s : Sparse Byte × Hw) (rs : List (Nat × Nat × Nat)) : Sparse Byte × Hw := rs.foldl configRecord s

/-! ## Checks -/

/-- The bits that show, in a function's registers, that a write broke a rule; `busy` those that show that it met
a setting in use. -/
def errorBits (id : Nat) (busy : Bool) : List (Nat × Fld) :=
  let i := id % 256
  let only (b : Bool) (xs : List (Nat × Fld)) : List (Nat × Fld) := if b then xs else []
  match id / 256 with
  | 1 => [(aJL_STAT i, fJL_STAT_RSVVAL), (aJL_STAT i, fJL_STAT_CFGERR)] ++ only busy [(aJL_STAT i, fJL_STAT_CFGBUSY)]
  | 2 => [(aETH_PSTAT i, fETH_PSTAT_RSVVAL), (aETH_MODE (i / 4), fETH_MODE_RSVVAL)] ++
      only busy [(aETH_PSTAT i, fETH_PSTAT_CFGBUSY)]
  | 3 => (List.range 8).flatMap fun p =>
      let n := 8 * i + p
      [(aPEN_CTXSTAT n, fPEN_CTXSTAT_RSVVAL), (aPEN_XCSTAT n, fPEN_XCSTAT_RSVVAL),
       (aPS_CTL n 0, fPS_CTL_NOSIDE), (aPS_CTL n 1, fPS_CTL_NOSIDE)] ++
      ((List.range 8).map fun k => (aTRG_STAT n k, fTRG_STAT_RSVVAL)) ++
      only busy ([(aPEN_CTXSTAT n, fPEN_CTXSTAT_WRINUSE), (aPS_CTL n 0, fPS_CTL_CFGBUSY), (aPS_CTL n 1, fPS_CTL_CFGBUSY)] ++
        (List.range 8).map fun k => (aTRG_STAT n k, fTRG_STAT_CFGBUSY))
  | 4 => (aSCH_STAT i, fSCH_STAT_RSVVAL) :: only busy [(aSCH_STAT i, fSCH_STAT_WRBUSY)]
  | 5 => [(aTB_CTL, fTB_CTL_RSVVAL), (aTB_CTL, fTB_CTL_CHOWN)]
  | 6 => (List.range 64).flatMap fun k => [(aGS_STAT k, fGS_STAT_RSVVAL), (aGS_STAT k, fGS_STAT_INVWR)]
  | 7 => (aTF_CTL, fTF_CTL_RSVVAL) :: ((List.range 4).map fun b => (aFIO_BANK b, fFIO_BANK_VLOW)) ++
      only busy [(aTF_CTL, fTF_CTL_CFGBUSY)]
  | _ => []

/-- Owner code of `FIO_PAD.OWNER` under which a function claims pads (Table 20.4). -/
def padCode (id : Nat) : Nat :=
  match id / 256 with
  | 1 => 3
  | 5 => 4
  | 6 => 2
  | 7 => 1
  | _ => 0

/-- A change from h to t claims, for a function, a pad that another feature or another SYNC~ holds (R478). -/
def claimLost (h t : Hw) (id : Nat) : Bool :=
  let code := padCode id
  code != 0 && (List.range 64).any fun p =>
    padClaimed t p code && ((!(padClaimed h p code) && padTaken h p code) ||
      (code == 3 && (match syncHolder h p with
        | some d => (syncClaims t p).any fun d' => d' != d && d' / 2 == id % 256 && d / 2 != id % 256
        | none => false)))

/-- Pens, tasks and groups that records of a function write keep the rules of their chapters (R120, R126, R134,
R150, R160, R184). (DEDUCED, log 130) -/
def configFits (m : Sparse Byte) (h0 h : Hw) (id : Nat) (addrs : List Nat) : Bool :=
  let y := id % 256
  match id / 256 with
  | 3 =>
    ((List.range 8).all fun p =>
      let n := 8 * y + p
      !(addrs.any fun a => penBase n ≤ a && a < penBase n + 0x10000) ||
        (pinsFit h n && ((List.range 8).all fun k => troughFits h n k && (!(addrs.contains (aTRG_CFG n k)) || sidesFit h n k)) &&
          ((List.range 16).all fun c => spillFits h n c true) &&
          (List.range 16).all fun c =>
            !((penFus n).any fun g => addrs.contains (aFU_CTXCTL g c)) ||
              (accessFits m h n c && (penFus n).all fun g => !(addrs.contains (aFU_CTXCTL g c)) ||
                (roundFits m h g c && followFits m h g c))))
  | 4 =>
    let tasks := (List.range 64).filter fun t => addrs.contains (aSCH_TASK0 y t) || addrs.contains (aSCH_TASK1 y t)
    let groups := (List.range 16).filter fun g => addrs.contains (aCRD_GRP g) ||
      tasks.any fun t => (groupsOf h0 h y t).contains g
    (tasks.all fun t => taskFits h y t fun _ _ => true) && groups.all fun g => groupFits h g
  | _ => true

/-- A record names a register of the function, writes no bit outside its fields, and changes no group of which
a member scheduler runs. -/
def recordFits (h : Hw) (id : Nat) (r : Nat × Nat × Nat) : Bool :=
  let (a, mask, value) := r
  regExists a && !(inShadow a) && fnOwns h id a && strayBits a (value &&& mask) == 0 &&
    (id / 256 != 4 || !(aCRD_GRP 0 ≤ a && a < aCRD_GRP 16) ||
      (let ys := (reg h a).toNat ||| mergeRecord (reg h a).toNat a mask value
       (List.range 16).all fun y => !(ys.testBit y) || !(fnRunning h (fnId 4 y))))

/-- The one record that a RUNNING sub-port takes: `RATE`, `BURST` and `FORGIVE` of one class (R365). (DEDUCED, log 134) -/
def liveRecord (id : Nat) (rs : List (Nat × Nat × Nat)) : Bool :=
  match rs with
  | [(a, mask, _)] =>
    id / 256 == 2 && ((List.range 8).any fun c => a == aETH_TC (id % 256) c) &&
      mask &&& (2 ^ 64 - 1 - ([fETH_TC_RATE, fETH_TC_BURST, fETH_TC_FORGIVE].foldl
        (fun acc f => acc ||| (2 ^ f.w - 1) * 2 ^ f.lo) 0)) == 0
  | _ => false

/-- `FUNC_CONFIG` (R365): every record is tried first on the state with the function's error bits clear, and with
its enables clear where it runs; then all are applied or none. The status of Table 14.7 comes second. (DEDUCED, log 131) -/
def configFn (m : Sparse Byte) (h : Hw) (id : Nat) (rs : List (Nat × Nat × Nat)) : (Sparse Byte × Hw) × Nat :=
  let run := fnRunning h id
  if ¬ fnValid id ∨ ¬ (rs.all fun r => recordFits h id r) then ((m, h), stInvalid)
  else
    let clean := clearEnables h (errorBits id true)
    let t := configAll (m, if run then clearEnables clean (fnEnables id) else clean) rs
    if (errorBits id (!run)).any (fun e => isSet t.2 e.1 e.2) ∨ ¬ configFits t.1 h t.2 id (rs.map (·.1)) then
      ((m, h), stInvalid)
    else if run ∧ ¬ liveRecord id rs then ((m, h), stBusy)
    else if claimLost h t.2 id then ((m, h), stConflict)
    else (configAll (m, h) rs, stOk)

/-! ## Starting (R363, R364) -/

/-- An enable set back to the value it had at the stop; a gate entry's next occurrence comes into force. -/
def restoreEnable (s : Sparse Byte × Hw) (e : Nat × Fld × Nat) : Sparse Byte × Hw :=
  match locate e.1 with
  | some (.gs, _, o) =>
    let i := o / 0x40
    let h1 := setF s.2 e.1 e.2.1 e.2.2
    let h2 := setGate h1 i (placeOcc h1 { gate h1 i with isOpen := false, skip := none, inForce := none })
    (s.1, if gPin h2 i then claimPad h2 (getF h2 (aGS_CTL i) fGS_CTL_PAD) 2 else h2)
  | _ => writeReg s.1 s.2 e.1 (oneField s.2 e.1 e.2.1 e.2.2)

/-- One function started, or the status that says why it is not. (DEDUCED, log 132) -/
def startOne (m : Sparse Byte) (h : Hw) (id : Nat) : (Sparse Byte × Hw) × Nat :=
  let saved := (fnOf h id).saved.filter fun e => id / 256 != 3 || e.1 != aSCH_CTL (id % 256)
  let t := saved.foldl restoreEnable (m, clearEnables h (errorBits id true))
  if (errorBits id true).any fun e => isSet t.2 e.1 e.2 then ((m, h), stInvalid)
  else if claimLost h t.2 id then ((m, h), stConflict)
  else
    let r := saved.foldl restoreEnable (m, h)
    ((r.1, setFn r.2 id ⟨true, 0, []⟩), stOk)

/-- `FUNC_START` (R363, R364): a yard program takes its scheduler with it unless that was stopped on its own. -/
def startFn (m : Sparse Byte) (h : Hw) (id : Nat) : (Sparse Byte × Hw) × Nat :=
  if fnRunning h id then ((m, h), stOk)
  else if id / 256 = 4 ∧ ¬ fnRunning h (fnId 3 (id % 256)) then ((m, h), stWrong)
  else
    let y := id % 256
    let both := id / 256 == 3 && !(fnRunning h (fnId 4 y)) &&
      ((fnOf h (fnId 4 y)).cause == 0 || (fnOf h id).saved.any fun e => e.1 == aSCH_CTL y)
    let r := startOne m h id
    if r.2 ≠ stOk ∨ ¬ both then r else startOne r.1.1 r.1.2 (fnId 4 y)

/-- Functions started in turn, ports last; the first status that is not OK, and one that does not start keeps a
stop cause. -/
def startAll (m : Sparse Byte) (h : Hw) (ids : List Nat) (cause : Nat) : (Sparse Byte × Hw) × Nat :=
  let order := ids.filter (fun id => 3 ≤ id / 256) ++ ids.filter (fun id => id / 256 < 3)
  order.foldl (fun s id =>
    let r := startFn s.1.1 s.1.2 id
    if r.2 = stOk then (r.1, s.2)
    else ((r.1.1, setFn r.1.2 id { fnOf r.1.2 id with cause := cause }), if s.2 = stOk then r.2 else s.2)) ((m, h), stOk)

end Sys2Proof.Machine
end

