-- ==== Sys2Proof/Machine/Images.lean ====
section
/-!
DEFINITION. Thizan images: layout, checks in the order of Table 15.7, application in the order of R383, staging
and reference digests (R368 to R387).
-/

namespace Sys2Proof.Machine

/-! ## Layout (R368 to R371, Tables 15.1 and 15.2) -/

/-- n little-endian bytes of an image from an offset. -/
def im (img : List Byte) (o n : Nat) : Nat := leNat ((img.drop o).take n)

/-- An entry of the section table. -/
structure Sect where
  kind : Nat
  off : Nat
  len : Nat
  count : Nat
deriving DecidableEq, Repr

def imKind (img : List Byte) : Nat := im img 0x006 1
def imSlot (img : List Byte) : Nat := im img 0x007 1
def imEnc (img : List Byte) : Bool := (im img 0x00C 1).testBit 0
def imBound (img : List Byte) : Bool := (im img 0x00C 1).testBit 1
def imRvk (img : List Byte) : Nat := im img 0x00D 1
def imSeqno (img : List Byte) : Nat := im img 0x030 4

/-- The sections of an image. -/
def sects (img : List Byte) : List Sect :=
  (List.range (im img 0x00E 1)).map fun i =>
    ⟨im img (0x0B0 + 16 * i) 1, im img (0x0B4 + 16 * i) 4, im img (0x0B8 + 16 * i) 4, im img (0x0BC + 16 * i) 4⟩

/-- Sections from a byte on, in table order and without overlap, up to the trailer (R369). -/
def sectsFit (len : Nat) : Nat → List Sect → Bool
  | _, [] => true
  | at_, s :: ss => s.off % 16 == 0 && at_ ≤ s.off && s.off + s.len ≤ len - 96 && sectsFit len (s.off + s.len) ss

/-- Step 1 of Table 15.7: header, its reserved bytes and values, and the section table (R368, R369, R371, R372). -/
def headerFits (img : List Byte) (len : Nat) : Bool :=
  let zero (o n : Nat) : Bool := im img o n == 0
  let kind := imKind img
  let n := im img 0x00E 1
  im img 0 4 == 0x4E5A4854 && im img 4 1 == 1 && im img 8 4 == len && len % 16 == 0 && 624 ≤ len &&
    1 ≤ kind && kind ≤ 5 &&
    (if kind = 1 then imSlot img == 0 && imRvk img ≤ 15
     else (imSlot img == 1 || imSlot img == 2) && 16 ≤ imRvk img && imRvk img ≤ 31) &&
    im img 0x00C 1 < 4 && !(imEnc img && kind == 1) && 1 ≤ n && n ≤ 12 && !(zero 0x018 8) &&
    (imBound img || zero 0x020 16) && (kind == 1 || zero 0x030 4) && (imEnc img || (zero 0x0A0 12 && zero 0x1F0 16)) &&
    zero 0x00F 1 && zero 0x012 6 && zero 0x034 12 && zero 0x0AC 4 && zero 0x170 128 &&
    zero (0x0B0 + 16 * n) (16 * (12 - n)) &&
    ((List.range n).all fun i => zero (0x0B1 + 16 * i) 3) && sectsFit len 512 (sects img)

/-- Step 2: part, stepping and unit (R368). -/
def identityFits (h : Hw) (img : List Byte) : Bool :=
  let major := getF h aHI_ID fHI_ID_MAJOR
  let minor := getF h aHI_ID fHI_ID_MINOR
  im img 0x010 1 == 0x48 && im img 0x011 1 == 0x72 && major < 8 && minor < 8 &&
    (im img 0x018 8).testBit (8 * major + minor) &&
    (!(imBound img) || im img 0x020 16 == (reg h (aHI_UID 0)).toNat + (reg h (aHI_UID 1)).toNat * 2 ^ 64)

/-- The 384 hash bits as `KEY_OWNER` takes them. -/
def hashBits (bs : List Byte) : BitVec 384 := BitVec.ofNat 384 (leNat (sha384 bs))

/-- Step 3: key slot and revocation (R372). -/
def keyFits (nv : Nv) (img : List Byte) : Bool :=
  let hash := hashBits (slice img 0x040 96)
  !(nv.revoked.getLsbD (imRvk img)) &&
    (match imSlot img with
     | 0 => hash == nv.root
     | 1 => nv.slot1.prov && hash == nv.slot1.bits
     | _ => nv.slot2.prov && hash == nv.slot2.bits)

/-- The image digest (R370). -/
def imDigest (img : List Byte) : List Byte := sha384 (img.take (img.length - 96))

/-- Step 4: the signature over the digest (R370). -/
def signatureFits (img : List Byte) : Bool :=
  ecdsaVerify (im img 0x040 48) (im img 0x070 48) (imDigest img) (im img (img.length - 96) 48) (im img (img.length - 48) 48)

/-- Step 5: the image with its body decrypted, or none (R371). -/
def decrypted (nv : Nv) (img : List Byte) : Option (List Byte) :=
  if ¬ imEnc img then some img
  else if ¬ nv.aesOk then none
  else
    (gcmDecrypt (leBytes 32 nv.aes.toNat) (slice img 0x0A0 12) (img.take 0x1F0) (slice img 512 (img.length - 608))
      (slice img 0x1F0 16)).map fun body => img.take 512 ++ body ++ img.drop (img.length - 96)

/-! ## Sections (R375, R376, Tables 15.4 and 15.5) -/

/-- The section kinds that an image kind may hold. -/
def kindAllows (kind sk : Nat) : Bool :=
  match sk with
  | 1 => kind == 1
  | 2 => 2 ≤ kind
  | 3 | 4 | 5 => kind == 2 || kind == 3 || kind == 5
  | 6 => kind == 2 || kind == 5
  | 7 => kind == 4 || kind == 5
  | _ => false

def bodyOf (img : List Byte) (s : Sect) : List Byte := slice img s.off s.len
def sectOf (img : List Byte) (sk : Nat) : Option Sect := (sects img).find? fun s => s.kind == sk

/-- Context mask of a pen in the manifest. -/
def manMask (img : List Byte) (n : Nat) : Nat :=
  match sectOf img 2 with
  | some s => im img (s.off + 2 * n) 2
  | none => 0

/-- The manifest names context c of pen n. -/
def named (img : List Byte) (n c : Nat) : Bool := (manMask img n).testBit c

/-- The manifest says that the image replaces the fabric. -/
def manFabric (img : List Byte) : Bool :=
  match sectOf img 2 with
  | some s => (im img (s.off + 256) 1).testBit 0
  | none => false

/-- The manifested contexts, as pen and context. -/
def manifested (img : List Byte) : List (Nat × Nat) :=
  (List.range 128).flatMap fun n => ((List.range 16).filter fun c => named img n c).map fun c => (n, c)

/-- A placement run: dictionary frame and destinations; none for a stride of 0 (R376). -/
def runOf (v : Nat) : Option (Nat × List Nat) :=
  let stride := v / 2 ^ 56 % 256
  if stride = 0 then none
  else some (v % 2 ^ 24, (List.range (v / 2 ^ 40 % 2 ^ 16 + 1)).map fun k => v / 2 ^ 24 % 2 ^ 16 + k * stride)

/-- The placed frames in list order, as frame and dictionary frame; none where a run holds a reserved value. -/
def placements (img : List Byte) : Option (List (Nat × Nat)) :=
  match sectOf img 4 with
  | none => some []
  | some s =>
    let dict := match sectOf img 3 with
      | some d => d.count
      | none => 0
    ((List.range s.count).mapM fun r =>
      match runOf (im img (s.off + 8 * r) 8) with
      | none => none
      | some (dix, fs) => if dix < dict then some (fs.map fun f => (f, dix)) else none).map List.flatten

/-- Frame i of the dictionary. -/
def dictFrame (img : List Byte) (i : Nat) : List Byte :=
  match sectOf img 3 with
  | some d => slice img (d.off + 64 * i) 64
  | none => []

/-- The records of the register section: address, mask, value. -/
def regRecords (img : List Byte) : List (Nat × Nat × Nat) :=
  match sectOf img 5 with
  | none => []
  | some s => (List.range s.count).map fun r =>
      let o := s.off + 24 * r
      (im img o 8, im img (o + 8) 8, im img (o + 16) 8)

/-- The twiddle sections: pen mask and the table's offset. -/
def twiddles (img : List Byte) : List (Nat × Nat) :=
  ((sects img).filter fun s => s.kind == 6).map fun s => (im img s.off 16, s.off + 16)

/-- Tagged words of ten bytes (R16). -/
def tenWords : Nat → List Byte → List TW
  | 0, _ => []
  | n + 1, bs => TW.ofTag (BitVec.ofNat 72 (leNat (bs.take 9))) (bs.getD 9 0) :: tenWords n (bs.drop 10)

/-- The records of a memory section, as destination and words; none where they do not fill it exactly. -/
def memRecords : Nat → List Byte → Option (List (Nat × List TW))
  | 0, bs => if bs.isEmpty then some [] else none
  | n + 1, bs =>
    let w := leNat ((bs.drop 8).take 4)
    let size := 16 + (10 * w + 15) / 16 * 16
    if bs.length < size ∨ leNat ((bs.drop 12).take 4) ≠ 0 ∨ ¬ (slice bs (16 + 10 * w) (size - 16 - 10 * w)).all (· == 0) then none
    else (memRecords n (bs.drop size)).map fun rs => (leNat (bs.take 8), tenWords w (bs.drop 16)) :: rs

/-- The memory words of every section, in table order. -/
def memWords (img : List Byte) : Option (List (Nat × List TW)) :=
  (((sects img).filter fun s => s.kind == 7).mapM fun s => memRecords s.count (bodyOf img s)).map List.flatten

/-- A section has the size that Table 15.4 gives, its reserved bits are 0, and so are the bytes up to the next
16-byte boundary (R369). -/
def sectFits (img : List Byte) (s : Sect) : Bool :=
  kindAllows (imKind img) s.kind &&
    ((slice img (s.off + s.len) ((16 - s.len % 16) % 16)).all (· == 0)) &&
    (match s.kind with
     | 1 => s.len == s.count && s.count ≤ 655360
     | 2 => s.len == 272 && s.count == 1 && im img (s.off + 256) 1 < 2 && im img (s.off + 257) 15 == 0
     | 3 => s.len == 64 * s.count
     | 4 => s.len == 8 * s.count
     | 5 => s.len == 24 * s.count
     | 6 => s.len == 20496 && s.count == 1 &&
         (List.range 4096).all fun i => im img (s.off + 16 + 5 * i) 5 / 2 ^ 36 == 0
     | _ => true)

/-! ## Frames (R376, R377) -/

/-- The pen and context of an FU frame or pen-switch frame. -/
def frameCtx (f : Nat) : Nat × Nat :=
  if f < 32768 then (f / 256, f % 16) else ((f - 32768) / 64, (f - 32768) / 4 % 16)

/-- A frame that an image of a kind may place, under its manifest. -/
def frameFits (img : List Byte) (f : Nat) : Bool :=
  if f < 40960 then imKind img != 3 && named img (frameCtx f).1 (frameCtx f).2
  else 49152 ≤ f && f < 65536 && imKind img != 2

/-- The 20 frames of a context. -/
def ctxFrames (n c : Nat) : List Nat :=
  ((List.range 16).map fun f => 16 * (16 * n + f) + c) ++ (List.range 4).map fun k => 32768 + 4 * (16 * n + c) + k

/-- Placed frames: each once, of a class the image may write, whole for every manifested context and for the
fabric. -/
def framesFit (img : List Byte) (fs : List Nat) : Bool :=
  (fs.all fun f => frameFits img f) && decide fs.Nodup &&
    ((manifested img).all fun x => (ctxFrames x.1 x.2).all fun f => fs.contains f) &&
    fs.countP (fun f => 49152 ≤ f) == (if manFabric img then 16384 else 0)

/-- First byte of a frame in the readback window. -/
abbrev frameAddr (f : Nat) : Nat := 0x1004000000 + 64 * f

/-- Frames written to the configuration store, in list order. -/
def writeFrames (m : Sparse Byte) (img : List Byte) (ps : List (Nat × Nat)) : Sparse Byte :=
  ps.foldl (fun m p => writeBytes m (frameAddr p.1) (dictFrame img p.2)) m

/-! ## Registers that an image sets (Table 15.6, R378) -/

/-- A record's register stands in Table 15.6, its mask within the manifested contexts' fields of a per-context
register, and no reserved bit or value would be written (R377, R10). -/
def regFits (h : Hw) (img : List Byte) (r : Nat × Nat × Nat) : Bool :=
  let (a, mask, value) := r
  let inFields (fs : List Fld) : Bool :=
    mask &&& (2 ^ 64 - 1 - fs.foldl (fun acc f => acc ||| (2 ^ f.w - 1) * 2 ^ f.lo) 0) == 0
  regExists a && strayBits a (value &&& mask) == 0 &&
    ((fieldsOf a).all fun f => f.acc != .rw || fieldOf f mask == 0 ||
      limOk f.lim (fieldOf f (mergeRecord (reg h a).toNat a mask value))) &&
    (match locate a with
     | some (.pen, n, o) =>
       if o = 0x7008 then
         inFields (((List.range 16).filter fun c => named img n c).flatMap fun c => [fPEN_CTXKIND_KIND c, fPEN_CTXKIND_SAVED c])
       else if 0x7040 ≤ o ∧ o < 0x70C0 then named img n ((o - 0x7040) / 8) && inFields (fieldsOf a)
       else (0x6000 ≤ o && o < 0x6400 && (o % 0x80 == 0 || o % 0x80 == 0x30)) || (0x6500 ≤ o && o < 0x6540)
     | some (.fu, g, o) =>
       o == 0x100 || (0x200 ≤ o && o < 0x280 && named img (g / 16) ((o - 0x200) / 8) && inFields (fieldsOf a))
     | some (.sch, _, o) => o == 0x088 || (0x100 ≤ o && o < 0x500)
     | some (.crd, _, o) => o < 0x80
     | some (.tf, _, o) => 0x100 ≤ o && o < 0x180
     | some (.net, _, o) => 0x1000 ≤ o && o < 0x1500 && h.mode == .startUp
     | _ => false)

/-- The registers as they would stand after the records. -/
def shadowRegs (h : Hw) (rs : List (Nat × Nat × Nat)) : Hw :=
  applyAll (fun h r => setReg h r.1 (BitVec.ofNat 64 (mergeRecord (reg h r.1).toNat r.1 r.2.1 r.2.2))) h rs

/-- The functions that a record touches (Table 15.6). -/
def recordTouches (h : Hw) (r : Nat × Nat × Nat) : List Nat :=
  let (a, mask, value) := r
  match locate a with
  | some (.pen, n, o) => if o < 0x7000 then [fnId 3 (n / 8)] else []
  | some (.sch, y, _) => [fnId 4 y]
  | some (.crd, _, _) =>
    let ys := (reg h a).toNat ||| mergeRecord (reg h a).toNat a mask value
    ((List.range 16).filter fun y => ys.testBit y).map (fnId 4)
  | some (.tf, _, _) => [fnId 7 0]
  | _ => []

/-- The yard whose memory a destination names. -/
def destYard (a : Nat) : Option Nat := (slotOf a).map fun s => slotYard s.1

/-- The functions that an image touches (R378). -/
def touched (h : Hw) (img : List Byte) : List Nat :=
  let tw := (twiddles img).flatMap fun t => ((List.range 128).filter fun n => t.1.testBit n).map fun n => fnId 3 (n / 8)
  let mw := ((memWords img).getD []).flatMap fun r => match destYard r.1 with
    | some y => [fnId 3 y]
    | none => []
  (((regRecords img).flatMap fun r => recordTouches h r) ++ tw ++ mw ++
    (if manFabric img then [fnId 7 0] else [])).eraseDups

/-! ## Staging (R379, R380) -/

/-- Base of the staging area: the top 64 MiB of the data space. -/
def stagingBase (h : Hw) : Nat := dramEnd h - 0x4000000

/-- Bytes that a loft holds when it stages, 9 in each of its 131,072 words. -/
abbrev loftBytes : Nat := 9 * 131072

/-- The yards whose lofts stage n bytes on a device without DRAM; none where those of STOPPED yards do not
suffice. -/
def stagingLofts (h : Hw) (n : Nat) : Option (List Nat) :=
  let ys := (List.range 16).filter fun y => !(fnRunning h (fnId 3 y))
  let k := (n + loftBytes - 1) / loftBytes
  if ys.length < k then none else some (ys.take k)

/-- Bytes staged in lofts: the words' tags are open. -/
def stageLofts (m : Sparse Byte) (tag : Byte) (ys : List Nat) (bytes : List Byte) : Sparse Byte :=
  (List.zip (List.range ys.length) ys).foldl (fun m yi =>
    let part := slice bytes (loftBytes * yi.1) loftBytes
    (List.range ((part.length + 8) / 9)).foldl (fun m w =>
      writeBytes (writeBytes m (loftWord yi.2 w) (slice part (9 * w) 9)) (loftWord yi.2 w + 9) [tag]) m) m

/-- The staged bytes of a load. -/
def stagedBytes (m : Sparse Byte) (l : Load) : List Byte :=
  match l.base with
  | some b => readBytes m b l.len
  | none =>
    (l.yards.flatMap fun y => (List.range 131072).flatMap fun w => readBytes m (loftWord y w) 9).take l.len

/-- Staged bytes from an offset on replaced. -/
def restage (m : Sparse Byte) (l : Load) (o : Nat) (bytes : List Byte) : Sparse Byte :=
  match l.base with
  | some b => writeBytes m (b + o) bytes
  | none =>
    (List.zip (List.range bytes.length) bytes).foldl (fun m b =>
      let k := o + b.1
      writeByte m (loftWord (l.yards.getD (k / loftBytes) 0) (k % loftBytes / 9) + k % 9) b.2) m

/-! ## Content (step 7, R375 to R377) -/

/-- A memory destination: a slot of a pen or loft window that holds all its words and does not stage, or a
word address of the data space below the staging area. -/
def destFits (h : Hw) (lofts : List Nat) (r : Nat × List TW) : Bool :=
  let (a, ws) := r
  if 0x1000000000 ≤ a ∧ a < 0x1004000000 then
    match slotOf a with
    | none => false
    | some (mem, w) =>
      a % 16 == 0 && w + ws.length ≤ (if mem < 128 then 16384 else 131072) && !(128 ≤ mem && lofts.contains (mem - 128))
  else a % 10 == 0 && a + 10 * ws.length ≤ dramEnd h - 0x4000000

/-- The rules that the chapters check at load, over the memory and registers as they would stand. A spillable context
has a spill base where the image holds a `PEN_SPILL` record for it (R126). (DESIGN CHOICE, log 200) -/
def rulesFit (m : Sparse Byte) (h0 h : Hw) (img : List Byte) : Bool :=
  let addrs := (regRecords img).map (·.1)
  let inPen (n : Nat) : Bool := manMask img n != 0 || addrs.any fun a => penBase n ≤ a && a < penBase n + 0x10000
  let tasks := (List.range 16).flatMap fun y => ((List.range 64).filter fun t =>
    addrs.contains (aSCH_TASK0 y t) || addrs.contains (aSCH_TASK1 y t)).map fun t => (y, t)
  let groups := (List.range 16).filter fun g => addrs.contains (aCRD_GRP g) || tasks.any fun x =>
    (groupsOf h0 h x.1 x.2).contains g
  ((manifested img).all fun x =>
    ((penFus x.1).all fun g => roundFits m h g x.2 && followFits m h g x.2 && followedFits m h g x.2) && switchFits m x.1 x.2 &&
      spillFits h x.1 x.2 (addrs.contains (aPEN_SPILL x.1 x.2)) && accessFits m h x.1 x.2) &&
    ((List.range 128).all fun n => !(inPen n) ||
      (pinsFit h n && (List.range 8).all fun k => troughFits h n k && (!(addrs.contains (aTRG_CFG n k)) || sidesFit h n k))) &&
    (tasks.all fun x => taskFits h x.1 x.2 fun n c => named img n c) && (groups.all fun g => groupFits h g) &&
    ((List.range 40).all fun d => !(addrs.any fun a => a == aNC_POOL0 d || a == aNC_POOL1 d || a == aNC_POOL2 d) || poolsLegal h d) &&
    (!(manFabric img) || (List.range 256).all fun b => blockFits m b)

/-- Step 7 for images of kinds 0x02 to 0x05. (DEDUCED, log 139) -/
def contentFits (m : Sparse Byte) (h : Hw) (img : List Byte) (lofts : List Nat) : Bool :=
  let ss := sects img
  let few (sk : Nat) : Bool := ss.countP (fun s => s.kind == sk) ≤ 1
  (ss.all fun s => sectFits img s) && ss.countP (fun s => s.kind == 2) == 1 && few 3 && few 4 && few 5 &&
    (match placements img, memWords img with
     | some ps, some ws =>
       framesFit img (ps.map (·.1)) && (ws.all fun r => destFits h lofts r) &&
         ((regRecords img).foldl (fun (s : Bool × Hw) r =>
           (s.1 && regFits s.2 img r, shadowRegs s.2 [r])) (true, h)).1 &&
         rulesFit (writeFrames m img ps) h (shadowRegs h (regRecords img)) img
     | _, _ => false)

/-- Step 7 for MP firmware (R454). -/
def firmwareFits (img : List Byte) : Bool :=
  img.length ≤ 0x100000 && (sects img).length == 1 && (sects img).all fun s => s.kind == 1 && sectFits img s

/-! ## The checks in order (R382, Table 15.7) -/

/-- The first step of 1 to 7 that fails, 0 for none, with the image as decrypted. `fw` says that the command is
`FW_STORE` or a boot. -/
def checkImage (nv : Nv) (m : Sparse Byte) (h : Hw) (img : List Byte) (len : Nat) (lofts : List Nat) (fw : Bool) :
    Nat × List Byte :=
  if ¬ headerFits img len then (1, img)
  else if ¬ identityFits h img then (2, img)
  else if ¬ keyFits nv img then (3, img)
  else if ¬ signatureFits img then (4, img)
  else
    match decrypted nv img with
    | none => (5, img)
    | some p =>
      if decide (imKind p = 1) != fw then (6, p)
      else if fw then (if firmwareFits p then 0 else 7, p)
      else (if contentFits m h p lofts then 0 else 7, p)

/-- Status of a failed step. -/
def stepStatus (step : Nat) : Nat :=
  match step with
  | 0 => stOk
  | 2 => stIdentity
  | 3 | 4 | 5 => stAuth
  | 8 => stBusy
  | _ => stInvalid

/-- Step 8: every manifested context parked, every touched function STOPPED. -/
def parkedAll (h : Hw) (img : List Byte) : Bool :=
  ((manifested img).all fun x => !(inUse h x.1 x.2)) && (touched h img).all fun id => !(fnRunning h id)

/-- A load that fails a check raises `IMAGE_REJECT` and logs the step (R382). The record has no room for the
digest that goes with it; its address word is open. -/
def rejectImage (h : Hw) (step : Nat) : Hw :=
  let w := freshNat h
  let r := recNow w.2 0x0009 0x180 3 0xFF (w.1 % 2 ^ 40) step
  occur (writeLog w.2 r) 0x180 1 (crdTick w.2) 0xFF r

/-! ## Application (R383 to R385, R120, R144) -/

/-- A pen stops at once: no order or switch is left, and its FUs hold at step 0. A load in progress goes on (R124). -/
def haltNow (h : Hw) (n : Nat) : Hw :=
  let h1 := applyAll (fun h g => setFu h g { settleFu h.aclk (fu h g) with
    step := 0, rep := 0, first := true, lixNext := none, ending := false }) h (penFus n)
  setPen h1 n { pen h1 n with halted := true, orders := [], nonres := none, preload := none }

/-- Functions stopped for an image: a yard program's contexts are parked. -/
def stopForImage (h : Hw) (ids : List Nat) : Hw :=
  applyAll (fun h id =>
    let h1 := stopFn h id 3
    if id / 256 = 3 then applyAll (fun h p => haltNow h (8 * (id % 256) + p)) h1 (List.range 8) else h1) h ids

/-- The write locks of contexts set or released (R142). -/
def lockCtxs (h : Hw) (cs : List (Nat × Nat)) (on : Bool) : Hw :=
  applyAll (fun h x =>
    let b := BitVec.ofNat 16 (2 ^ x.2)
    let l := (pen h x.1).locks
    setPen h x.1 { pen h x.1 with locks := if on then l ||| b else l &&& ~~~b }) h cs

/-- A context's bank emptied without writeback and its `SAVED` bit cleared (R144). -/
def emptyCtx (h : Hw) (x : Nat × Nat) : Hw :=
  let p := pen h x.1
  let h1 := setPen h x.1 { p with held := p.held.filter fun e => e.2 != x.2 }
  setSaved h1 x.1 x.2 0

/-- A pinned context is given a zeroed bank where one is eligible (R120); one that a load in progress brings has its
bank already. (DEDUCED, log 32) -/
def pinCtx (s : Sparse Byte × Hw) (x : Nat × Nat) : Sparse Byte × Hw :=
  if kindOf s.2 x.1 x.2 ≠ 2 ∨ (pen s.2 x.1).load.any (·.ctx == x.2) then s
  else
    match chooseVictim s.2 x.1 with
    | none => s
    | some b =>
      let e := evict s.1 s.2 x.1 b
      (e.1, takeBank e.1 e.2.1 x.1 b x.2 [])

/-- The twiddle tables of the pens that a section names (R89). -/
def loadTwiddles (h : Hw) (img : List Byte) : Hw :=
  applyAll (fun h t =>
    let table := (List.range 4096).map fun i => im img (t.2 + 5 * i) 5
    applyAll (fun h n =>
      { h with arr.twiddle := (List.zip (List.range 4096) table).foldl (fun tb e =>
          insertAt tb (4096 * n + e.1) (BitVec.ofNat 18 e.2, BitVec.ofNat 18 (e.2 / 2 ^ 18))) h.arr.twiddle })
      h ((List.range 128).filter fun n => t.1.testBit n)) h (twiddles img)

/-- Memory words written to a destination (R383 step 4). -/
def writeDest (s : Sparse Byte × Hw) (r : Nat × List TW) : Sparse Byte × Hw :=
  match slotOf r.1 with
  | some (mem, w) =>
    ((List.zip (List.range r.2.length) r.2).foldl (fun m x => windowWrite m s.2 mem (w + x.1) x.2) s.1, s.2)
  | none => dramWrite s.1 s.2 r.1 (r.2.flatMap fun t => leBytes 9 t.d.toNat ++ [t.tag]) []

/-- The 56 chunks of the readback window that hold frames, as first offsets (R387). -/
def chunkOffsets : List Nat :=
  ((List.range 64).filter fun i => i < 40 || 48 ≤ i).map (0x10000 * ·)

/-- Digests of the chunks as they stand. -/
def chunkDigests (m : Sparse Byte) : List (List Byte) :=
  chunkOffsets.map fun o => sha384 (readBytes m (0x1004000000 + o) 0x10000)

/-- A load whose staged read fails during application: contexts stay locked, stopped functions stay STOPPED with
cause 4 (R385). -/
def failApply (h : Hw) (img : List Byte) (stopped : List Nat) : Hw :=
  let ids := stopped ++ (stopped.filter fun id => id / 256 == 3).map fun id => fnId 4 (id % 256)
  applyAll (fun h id => if (fnOf h id).cause = 3 then setFn h id { fnOf h id with cause := 4 } else h)
    (lockCtxs h (manifested img) true) ids

/-- An image applied in the order of R383, or turned away by step 8. `fails` says after how many of the parts
"frames", "registers and twiddle tables" a staged read fails. The status comes second, and third whether the
image was applied whole. -/
def applyImage (m : Sparse Byte) (h : Hw) (img : List Byte) (mode : Nat) (fails : Option Nat) :
    (Sparse Byte × Hw) × Nat × Bool :=
  let cs := manifested img
  let running := (touched h img).filter fun id => fnRunning h id
  let h0 := if mode = 1 then stopForImage h running else h
  if ¬ parkedAll h0 img then
    let r := startAll m h0 (if mode = 1 then running else []) 3
    ((r.1.1, rejectImage r.1.2 8), stBusy, false)
  else
    let stopped := if mode = 1 then running else []
    let h1 := lockCtxs h0 cs false
    if fails = some 0 then ((m, failApply h1 img stopped), stHwFault, false)
    else
      let m2 := writeFrames m img ((placements img).getD [])
      let h2 := applyAll emptyCtx h1 cs
      if fails = some 1 then ((m2, failApply h2 img stopped), stHwFault, false)
      else
        let s3 := configAll (m2, h2) (regRecords img)
        let h3 := loadTwiddles s3.2 img
        if fails = some 2 then ((s3.1, failApply h3 img stopped), stHwFault, false)
        else
          let s4 := ((memWords img).getD []).foldl writeDest (s3.1, h3)
          let s5 := cs.foldl pinCtx s4
          let h6 := { s5.2 with refs := some (chunkDigests s5.1) }
          let r := startAll s5.1 h6 stopped 3
          (r.1, r.2, true)

/-- Whether an applied image ends START-UP: it holds a context or the fabric (Table 19.6). (DEDUCED, log 140) -/
def endsStartUp (img : List Byte) : Bool := !((manifested img).isEmpty) || manFabric img

end Sys2Proof.Machine
end

