-- ==== Sys2Proof/Machine/Slots.lean ====
section
/-!
DEFINITION. Mailbox slots: opcodes and their request layout, taking a slot and its checks, forwarding to other
devices and their answers, broadcasts, aborts, completion, and PCIe resets (R347, R350 to R362, R366, R274,
R275).
-/

namespace Sys2Proof.Machine

/-! ## Opcodes (Tables 14.10 to 14.13) -/

/-- A row of the command tables: opcode, request length (without records), the payload byte that counts records
of 24 bytes, the notes L, B and D0, and the payload bytes that fields name, as first byte and length. -/
structure OpInfo where
  opc : Nat
  req : Nat
  recs : Option Nat
  long : Bool
  bc : Bool
  d0 : Bool
  fields : List (Nat × Nat)
deriving DecidableEq, Repr

/-- Device, chain and image commands (Table 14.10). -/
def opTableA : List OpInfo := [
  ⟨0x0100, 0, none, false, true, false, []⟩,
  ⟨0x0101, 0, none, false, true, false, []⟩,
  ⟨0x0102, 8, none, true, false, false, [(0, 1)]⟩,
  ⟨0x0103, 8, none, false, false, false, [(0, 1)]⟩,
  ⟨0x0200, 0, none, false, true, false, []⟩,
  ⟨0x0201, 0, none, true, false, true, []⟩,
  ⟨0x0202, 8, none, false, true, false, [(0, 1), (2, 2)]⟩,
  ⟨0x0203, 0, none, false, true, false, []⟩,
  ⟨0x0204, 64, none, false, true, false, [(0, 64)]⟩,
  ⟨0x0205, 8, none, false, false, false, [(0, 1)]⟩,
  ⟨0x0206, 0, none, false, false, true, []⟩,
  ⟨0x0300, 16, none, true, true, false, [(0, 13)]⟩,
  ⟨0x0301, 0, none, true, true, false, []⟩,
  ⟨0x0302, 56, none, true, false, false, [(0, 1), (8, 48)]⟩,
  ⟨0x0303, 8, none, true, false, false, [(0, 1)]⟩,
  ⟨0x0304, 32, none, true, false, false, [(0, 32)]⟩,
  ⟨0x0305, 0, none, false, true, false, []⟩,
  ⟨0x0306, 16, none, true, false, false, [(0, 12)]⟩]

/-- Function, context and port commands (Table 14.11). -/
def opTableB : List OpInfo := [
  ⟨0x0400, 8, none, false, true, false, [(0, 2)]⟩,
  ⟨0x0401, 8, some 2, false, true, false, [(0, 3), (8, 432)]⟩,
  ⟨0x0402, 8, none, false, true, false, [(0, 2)]⟩,
  ⟨0x0403, 8, none, false, false, false, [(0, 2)]⟩,
  ⟨0x0500, 8, none, false, false, false, [(0, 2)]⟩,
  ⟨0x0501, 8, none, false, false, false, [(0, 1)]⟩,
  ⟨0x0502, 24, none, false, false, false, [(0, 2), (8, 16)]⟩,
  ⟨0x0503, 8, none, false, false, false, [(0, 1)]⟩,
  ⟨0x0504, 8, none, false, true, false, [(0, 2)]⟩,
  ⟨0x0505, 8, none, false, false, true, [(0, 3)]⟩,
  ⟨0x0506, 8, none, false, false, false, [(0, 1)]⟩,
  ⟨0x0600, 8, none, false, true, false, [(0, 2)]⟩,
  ⟨0x0601, 8, none, false, true, false, [(0, 2)]⟩,
  ⟨0x0602, 16, none, false, true, false, [(0, 12)]⟩,
  ⟨0x0603, 8, none, false, true, false, [(0, 2)]⟩]

/-- Time, memory and power commands (Table 14.12). -/
def opTableC : List OpInfo := [
  ⟨0x0700, 0, none, false, false, false, []⟩,
  ⟨0x0701, 24, none, false, false, false, [(0, 1), (8, 12)]⟩,
  ⟨0x0702, 144, none, false, false, false, [(0, 144)]⟩,
  ⟨0x0703, 48, none, false, false, false, [(0, 3), (8, 13), (24, 13), (40, 8)]⟩,
  ⟨0x0704, 8, none, false, false, false, [(0, 1)]⟩,
  ⟨0x0705, 32, none, false, false, false, [(0, 2), (8, 12), (24, 8)]⟩,
  ⟨0x0800, 8, none, false, false, false, [(0, 1), (2, 2)]⟩,
  ⟨0x0801, 8, none, true, false, false, [(0, 2)]⟩,
  ⟨0x0802, 0, none, false, false, false, []⟩,
  ⟨0x0803, 8, none, false, false, false, [(0, 2)]⟩,
  ⟨0x0804, 8, none, false, false, false, [(0, 2)]⟩,
  ⟨0x0900, 8, none, false, false, false, [(0, 4)]⟩,
  ⟨0x0901, 8, none, false, false, false, [(0, 3)]⟩,
  ⟨0x0902, 8, none, false, true, false, [(0, 1)]⟩,
  ⟨0x0903, 0, none, false, true, false, []⟩,
  ⟨0x0904, 8, none, true, true, false, [(0, 2)]⟩,
  ⟨0x0905, 0, none, false, true, false, []⟩]

/-- Observation and diagnostic commands (Table 14.13). -/
def opTableD : List OpInfo := [
  ⟨0x0A00, 24, none, false, true, false, [(0, 1), (8, 12)]⟩,
  ⟨0x0A01, 24, none, false, true, false, [(0, 1), (8, 12)]⟩,
  ⟨0x0A02, 40, none, false, false, false, [(0, 1), (8, 32)]⟩,
  ⟨0x0A03, 16, none, false, false, false, [(0, 3), (8, 8)]⟩,
  ⟨0x0A04, 8, none, false, true, false, [(0, 3)]⟩,
  ⟨0x0A05, 8, none, false, false, false, [(0, 5)]⟩,
  ⟨0x0A06, 8, none, false, true, false, [(0, 2)]⟩,
  ⟨0x0A10, 0, none, true, false, false, []⟩,
  ⟨0x0A11, 0, none, false, false, false, []⟩,
  ⟨0x0B00, 16, none, false, false, false, [(0, 9)]⟩,
  ⟨0x0B01, 8, some 0, false, false, false, [(0, 1), (8, 432)]⟩]

/-- The row of an opcode. -/
def opInfo (opc : Nat) : Option OpInfo :=
  (opTableA ++ opTableB ++ opTableC ++ opTableD).find? fun i => i.opc == opc

/-- A command is long. -/
def isLong (opc : Nat) : Bool :=
  match opInfo opc with
  | some i => i.long
  | none => false

/-! ## Slots (R350 to R352) -/

def slot (h : Hw) (sl : Nat) : Slot := getD Slot.free h.slots sl
def setSlot (h : Hw) (sl : Nat) (x : Slot) : Hw := { h with slots := setD Slot.free h.slots sl x }

/-- n little-endian payload bytes from an offset (R6). -/
def pay (x : Slot) (o n : Nat) : Nat := leNat ((x.pay.drop o).take n)

/-- n bytes of the request area of a slot, as a value. -/
def mboxNat (h : Hw) (sl o n : Nat) : Nat := leNat (readBytes h.mbox (512 * sl + o) n)

/-- A host slot with the request that its SRAM holds (Table 14.4). -/
def fetchSlot (h : Hw) (sl : Nat) (st : SlotState) : Slot :=
  { Slot.free with
    st := st
    opc := mboxNat h sl 0 2
    tgt := mboxNat h sl 2 1
    irq := mboxNat h sl 3 1 % 2 == 1
    rtag := mboxNat h sl 4 2
    pay := readBytes h.mbox (512 * sl + 0x40) (min (mboxNat h sl 6 2) 448) }

/-- Code of a slot state (Table 14.4). -/
def slotCode : SlotState → Nat
  | .free => 0
  | .posted => 1
  | .taken => 2
  | .running => 3
  | .done => 4

/-- `PROGRESS` (R362). -/
def progressOf (x : Slot) : Nat :=
  if x.st = .done ∧ x.status = stOk then (if isLong x.opc then 10000 else 0)
  else if x.total = 0 then 0 else 10000 * x.pos / x.total

/-- The response area of a slot, offsets 0x200 to 0x3FF, as the host reads it (Table 14.4): zero, `STATE` too, while the
slot is FREE or POSTED (R352). (DEDUCED, log 213) -/
def slotView (h : Hw) (sl : Nat) : List Byte :=
  let x := slot h sl
  if x.st = .free ∨ x.st = .posted then List.replicate 512 0
  else
    leBytes 2 x.status ++ leBytes 1 (slotCode x.st) ++ [0] ++ leBytes 2 x.rtag ++ leBytes 2 x.resp.length ++
      leBytes 2 (progressOf x) ++ List.replicate 6 0 ++ leBytes 8 x.pos ++ leBytes 8 x.total ++ List.replicate 32 0 ++
      x.resp ++ List.replicate (448 - x.resp.length) 0

/-- A write to the slots: a byte of the request area of a FREE slot is stored; a write of which a byte is not is
counted once (R352). -/
def mailboxWrite (h : Hw) (off : Nat) (bytes : List Byte) : Hw :=
  if ¬ h.clocked then h
  else
    let at_ := List.zip ((List.range bytes.length).map fun i => off + i) bytes
    let takes (b : Nat × Byte) : Bool := b.1 < 0x4000 && b.1 % 0x400 < 0x200 && (slot h (b.1 / 0x400)).st == .free
    let put := (at_.filter takes).foldl (fun m b => writeByte m (512 * (b.1 / 0x400) + b.1 % 0x400) b.2) h.mbox
    let h1 := { h with mbox := put }
    if at_.all takes then h1 else raiseBit (hostDrop h1) aHI_STAT fHI_STAT_MBWR

/-! ## Completion (R351, R358, R347) -/

/-- A command of a slot completes: DONE for the host, with its vector; an answer for a device that forwarded it;
a log record for a command that outlived a PCIe reset, whose detail's layout the spec does not give.
(DESIGN CHOICE, log 119) -/
def completeSlot (h : Hw) (sl status : Nat) (resp : List Byte) : Hw :=
  let x := slot h sl
  if 32 ≤ sl then
    let w := freshNat h
    writeLog (setSlot w.2 sl Slot.free) (recNow w.2 0x0008 0xFFFF 0xFF 0xFF 0 (w.1 % 2 ^ 32))
  else if 16 ≤ sl then
    match x.origin with
    | some (dev, src, rb) =>
      sendRsp (setSlot h sl Slot.free) dev 0 0 src rb 0 [] (some ⟨Fin.ofNat 16 rb, BitVec.ofNat 16 status, resp⟩)
    | none => setSlot h sl Slot.free
  else
    let h1 := setSlot h sl
      { x with st := .done, status := status, resp := resp, left := 0, pos := if status = stOk then x.total else x.pos }
    if x.irq then sendVector h1 sl else h1

/-- The 24-byte payload of a broadcast (R360); without a failing device, the bytes that name it are open. -/
def broadcastPayload (h : Hw) (x : Slot) : List Byte × Hw :=
  let w := match x.lowFail with
    | some (d, st) => ((d, st), h)
    | none => (((freshNat h).1 % 256, (freshNat (freshNat h).2).1 % 65536), (freshNat (freshNat h).2).2)
  (leBytes 8 x.okMask ++ leBytes 8 x.failMask ++ leBytes 1 w.1.1 ++ [0] ++ leBytes 2 w.1.2 ++ leBytes 4 0, w.2)

/-- Every device that a broadcast names has completed (R360). (DEDUCED, log 116) -/
def finishBroadcast (h : Hw) (sl : Nat) : Hw :=
  let x := slot h sl
  let status := match x.lowFail with
    | some (_, st) => st
    | none => stOk
  if x.ran then
    let p := broadcastPayload h x
    completeSlot p.2 sl status p.1
  else completeSlot h sl status []

/-- This device's address in a target, 0 before roll call. -/
def selfAddr (h : Hw) : Nat := if addressed h then ownAddr h else 0

/-- Another device has carried out `CHAIN_POOL`: this device knows its own pool there (R262). (DESIGN CHOICE, log 59) -/
def notePool (h : Hw) (x : Slot) (d status : Nat) : Hw :=
  if x.opc = 0x204 ∧ status = stOk ∧ d ≠ selfAddr h then
    { h with chain.pools := insertAt h.chain.pools d (pay x (selfAddr h) 1) }
  else h

/-- A device completes the command of a slot with a status; `ran` says that the command ran there. (DEDUCED, log 115) -/
def noteDevice (h : Hw) (sl d status : Nat) (ran : Bool) (resp : List Byte) : Hw :=
  let x := slot h sl
  let h := notePool h x d status
  if x.tgt < 0x40 then completeSlot h sl status resp
  else
    let bit := 2 ^ d
    let ok := status == stOk
    let x1 : Slot := { x with
      left := if x.left.testBit d then x.left - bit else x.left
      okMask := if ok then x.okMask ||| bit else x.okMask
      failMask := if ok then x.failMask else x.failMask ||| bit
      lowFail := if ok then x.lowFail else match x.lowFail with
        | some (d', st) => some (if d < d' then (d, status) else (d', st))
        | none => some (d, status)
      ran := x.ran || ran }
    let h1 := setSlot h sl x1
    if x1.left = 0 then finishBroadcast h1 sl else h1

/-- This device completes its part of a slot's command: a payload comes with success only (R366). -/
def reply (h : Hw) (sl status : Nat) (resp : List Byte) : Hw :=
  noteDevice h sl (selfAddr h) status true (if status = stOk then resp else [])

/-! ## Taking a slot (R353 to R355, R361) -/

/-- Opcodes that the readout engine executes while FROZEN (R354). -/
def engineOp (opc : Nat) : Bool := opc == 0xA10 || opc == 0xA11

/-- Opcode of a posted slot. -/
def postedOpc (h : Hw) (sl : Nat) : Nat := if sl < 16 then mboxNat h sl 0 2 else (slot h sl).opc

/-- A slot is TAKEN whose command this device has not yet executed. (DEDUCED, log 145) -/
def takenWaits (h : Hw) (among : Slot → Bool) : Bool :=
  h.slots.any fun e => e.2.st == .taken && (e.2.left == 0 || e.2.left.testBit (selfAddr h)) && among e.2

/-- The slot that is taken next: the oldest doorbell first; while FROZEN the readout engine's only. -/
def nextTaken (h : Hw) : Option Nat :=
  if ¬ h.clocked then none
  else if h.mode = .frozen then
    if takenWaits h fun x => engineOp x.opc then none else h.posted.find? fun sl => engineOp (postedOpc h sl)
  else if ¬ fwReady h ∨ takenWaits h fun _ => true then none
  else h.posted.head?

/-- The devices that a target names (Table 14.4). -/
def targetsOf (h : Hw) (tgt : Nat) : List Nat :=
  if tgt < 0x40 then [tgt]
  else (List.range (getF h aCH_ID fCH_ID_COUNT)).filter fun d => d != 0 || tgt == 0xFF

/-- The request has the length of its opcode (R366). -/
def lengthFits (i : OpInfo) (x : Slot) : Bool :=
  match i.recs with
  | none => x.pay.length == i.req
  | some o =>
    let n := pay x o 1
    1 ≤ n && n ≤ 18 && x.pay.length == 8 + 24 * n

/-- The reserved bits of the header of a host slot are 0. -/
def headerClear (h : Hw) (sl : Nat) : Bool := mboxNat h sl 3 1 < 2 && mboxNat h sl 8 56 == 0

/-- The target is one that the opcode takes. -/
def targetFits (h : Hw) (i : OpInfo) (tgt : Nat) : Bool :=
  (tgt < 0x40 || ((tgt == 0xFE || tgt == 0xFF) && i.bc)) && !(i.d0 && (tgt != selfAddr h || !(isDev0 h)))

/-- The target cannot be reached (R359). -/
def noTarget (h : Hw) (tgt : Nat) : Bool :=
  tgt != selfAddr h &&
    (getF h aCH_ID fCH_ID_COUNT == 0 || h.mode == .frozen ||
      (tgt < 0x40 && (getF h aCH_ID fCH_ID_COUNT ≤ tgt || !((reg h aCH_REACH).getLsbD tgt))))

/-- The checks on the header, in the order of R361. (DEDUCED, log 123) -/
def headerStatus (h : Hw) (sl : Nat) (x : Slot) : Nat :=
  match opInfo x.opc with
  | none => stUnsupported
  | some i =>
    if ¬ ((16 ≤ sl || headerClear h sl) && lengthFits i x && targetFits h i x.tgt) then stInvalid
    else if sl < 16 ∧ noTarget h x.tgt then stNoTarget
    else stOk

/-- Firmware, or while FROZEN the readout engine, takes a POSTED slot and checks its header (R351, R353, R355). -/
def takeSlot (h : Hw) (sl : Nat) (uce : Bool) : Hw :=
  if nextTaken h ≠ some sl then h
  else
    let x := if sl < 16 then fetchSlot h sl .taken else { slot h sl with st := .taken }
    let h1 := setSlot { h with posted := h.posted.erase sl } sl x
    if uce ∧ sl < 16 then completeSlot (raiseBit h1 aHI_STAT fHI_STAT_MBUCE) sl stHwFault []
    else
      let st := headerStatus h1 sl x
      if st = stOk then h1 else completeSlot h1 sl st []

/-! ## Forwarding (R358 to R360) -/

/-- Bits set in a value. -/
def popCount (w v : Nat) : Nat := (List.range w).countP fun i => v.testBit i

/-- `TOTAL` of Table 14.8 for one device. -/
def tableTotal (x : Slot) : Nat :=
  match x.opc with
  | 0x300 => if pay x 12 1 = 2 then pay x 8 4 else 2 * pay x 8 4
  | 0x301 => 3670016
  | 0x306 => 2 * pay x 8 4
  | 0x302 => popCount 384 (pay x 8 48)
  | 0x303 => 1
  | 0x304 => popCount 256 (pay x 0 32)
  | 0x201 => 64
  | 0x801 => 32848 * popCount 16 (pay x 0 2)
  | 0x904 => popCount 16 (pay x 0 2)
  | 0xA10 => 33
  | 0x102 => 1
  | _ => 0

/-- The request that forwards the command of a slot to the MP of a device, or its abort. -/
def forwardPkt (h : Hw) (sl d opc : Nat) : CPkt :=
  let x := slot h sl
  let b := packet h 1 d 0
  { b with p := { b.p with src := 38, rb := BitVec.ofNat 5 (sl % 16) },
           cmd := some ⟨BitVec.ofNat 16 opc, BitVec.ofNat 8 x.irq.toNat, if opc = x.opc then x.pay else []⟩ }

/-- The command of a slot sent to a device. -/
def forwardTo (h : Hw) (sl d : Nat) : Hw :=
  match freeOut h with
  | none => h
  | some i => sendReq h i ⟨d, 0, none, some sl⟩ (forwardPkt h sl d (slot h sl).opc)

/-- A device can be asked. -/
def canReach (h : Hw) (d : Nat) : Bool := (portTo h d).isSome && remotePool h d != 0

/-- Table entries and chain credits suffice for one request to each device (R262). -/
def creditsFor (h : Hw) (ds : List Nat) : Bool :=
  ds.length + h.chain.out.length ≤ 256 && ds.all fun d => outTo h d < remotePool h d

/-- The abort of a command that other devices execute is sent to them (R356). (DEDUCED, log 114) -/
def forwardAbort (h : Hw) (sl : Nat) : Hw :=
  applyAll (fun h e => if e.2.slot = some sl then sendPkt h (forwardPkt h sl e.2.dev 0xFFFF) else h) h h.chain.out

/-! ## Executing a command -/

/-- What executing a command on this device gives: it ends with a status and a payload; it is RUNNING with its
`TOTAL`; or a quick command is answered once what it asked for has happened. -/
inductive Reply where
  | done (status : Nat) (resp : List Byte)
  | running (total : Nat)
  | later
deriving DecidableEq, Repr

/-- The MP executes the opcode in this state: while FROZEN only the readout engine acts (R354). -/
def mpRuns (h : Hw) (opc : Nat) : Bool := if h.mode = .frozen then engineOp opc else fwReady h

/-- Payload bytes that no field names are 0. -/
def payloadClear (x : Slot) : Bool :=
  match opInfo x.opc with
  | none => false
  | some i => (List.range x.pay.length).all fun o =>
      (i.fields.any fun f => f.1 ≤ o && o < f.1 + f.2) || x.pay.getD o 0 == 0

/-- A long command with the opcode runs on this device (R353). -/
def longBusy (h : Hw) (opc : Nat) : Bool :=
  isLong opc && h.slots.any fun e => e.2.st == .running && e.2.opc == opc &&
    ((16 ≤ e.1 && e.1 < 32) || e.2.tgt == selfAddr h || e.2.left.testBit (selfAddr h))

/-- A long command is RUNNING on this device; a device that forwarded it learns so. -/
def becomeRunning (h : Hw) (sl total : Nat) : Hw :=
  let x := slot h sl
  let h1 := setSlot h sl { x with st := .running, status := stAccepted, total := x.total - tableTotal x + total }
  if sl < 16 ∨ 32 ≤ sl then h1
  else match x.origin with
    | some (dev, src, rb) =>
      sendRsp { h1 with chain.poolUsed := setD 0 h1.chain.poolUsed dev (getD 0 h1.chain.poolUsed dev + 1) }
        dev 0 0 src rb 0 [] (some ⟨Fin.ofNat 16 rb, BitVec.ofNat 16 stAccepted, []⟩)
    | none => h1

/-- The command of a slot executed on this device, after the checks that every command makes: payload and
fields, then the state of the device and of a long command of the same opcode (R275, R353, R361). -/
def runLocal (s : State) (sl : Nat) (valid : Slot → Hw → Bool) (body : Slot → State → State × Reply) : State :=
  let h := s.hw
  let x := slot h sl
  if ¬ (payloadClear x && valid x h) then onHw s fun h => reply h sl stInvalid []
  else if (h.mode = .isolated ∧ 3 ≤ x.opc / 256) ∨ longBusy h x.opc then onHw s fun h => reply h sl stWrong []
  else
    match body x s with
    | (t, .done status resp) => onHw t fun h => reply h sl status resp
    | (t, .running total) => onHw t fun h => becomeRunning h sl total
    | (t, .later) => t

/-- The command of a TAKEN slot executes: it is forwarded to every other device that it names, and executed here
where it names this one (R358, R360). -/
def command (opc : Nat) (s : State) (sl : Nat) (valid : Slot → Hw → Bool)
    (body : Slot → State → State × Reply) : State :=
  let h := s.hw
  let x := slot h sl
  let own := selfAddr h
  let ds := if 16 ≤ sl ∧ sl < 32 then [own] else targetsOf h x.tgt
  let far := ds.filter (· != own)
  let go := far.filter (canReach h)
  if x.st ≠ .taken ∨ x.opc ≠ opc ∨ x.left ≠ 0 ∨ ¬ mpRuns h opc ∨ ¬ creditsFor h go then s
  else if ds.isEmpty then onHw s fun h => finishBroadcast h sl
  else
    let left := ds.foldl (fun acc d => acc ||| 2 ^ d) 0
    let h1 := setSlot h sl { x with left := left, total := ds.length * tableTotal x }
    let h2 := applyAll (fun h d => forwardTo h sl d) h1 go
    let h3 := applyAll (fun h d => noteDevice h sl d stNoTarget false []) h2 (far.filter fun d => !(canReach h d))
    let t := { s with hw := h3 }
    if ds.contains own then runLocal t sl valid body else t

/-- Commands that the slots of a list hold and this device has begun and not answered. -/
def answerLater (h : Hw) (opc : Nat) (f : Hw → Slot → Option (Nat × List Byte)) : Hw :=
  applyAll (fun h e =>
    let x := slot h e.1
    if x.st = .taken ∧ x.opc = opc ∧ x.left.testBit (selfAddr h) then
      match f h x with
      | some (st, resp) => reply h e.1 st resp
      | none => h
    else h) h h.slots

/-- A RUNNING slot's part on this device ends with a status and a payload (R351). -/
def endRunning (h : Hw) (sl status : Nat) (resp : List Byte) : Hw :=
  if (slot h sl).st = .running then reply h sl status resp else h

/-- The yards of a mask. -/
def yardsOf (mask : Nat) : List Nat := (List.range 16).filter fun y => mask.testBit y

/-- `POSITION` of a command that runs on this device (Table 14.8, R386), where the state holds how far it is; else as the
update tells it. -/
def ownPosition (h : Hw) (x : Slot) (told : Nat) : Nat :=
  match x.opc with
  | 0x102 => 0
  | 0x300 => match h.load with
    | some l => if l.phase = .checked then l.len else min told l.len
    | none => told
  | 0x801 => match h.memTest with
    | some t => x.total - (t.left.map (·.2)).sum
    | none => told
  | 0x904 => (yardsOf (pay x 0 2)).countP fun y => !(yardAge h y).owed
  | _ => told

/-- What an update makes of a RUNNING slot: the command's own count and `TOTAL` on this device; of a command that other
devices run, what they report (R358, R360). -/
def progressed (h : Hw) (sl pos total : Nat) : Slot :=
  let x := slot h sl
  if 16 ≤ sl ∨ x.tgt = selfAddr h then { x with pos := ownPosition h x pos } else { x with pos := pos, total := total }

/-- `PROGRESS`, `POSITION` and `TOTAL` of a RUNNING slot: never back, and short of the end (R357, R362). (DEDUCED, log 117) -/
def progressUpdate (h : Hw) (sl pos total : Nat) : Hw :=
  let x := slot h sl
  let y := progressed h sl pos total
  if frozen h ∧ ¬ engineOp x.opc then h
  else if x.st = .running ∧ y.pos < y.total ∧ progressOf x ≤ progressOf y then setSlot h sl y else h

/-! ## Answers and forwarded commands (R263, R275, R358, R359) -/

/-- The table entry of a forwarded command that an answer names, with its slot: one that outlived a PCIe reset
before a newer one. -/
def forwardEntry (h : Hw) (dev rb : Nat) : Option (Nat × ChOut × Nat) :=
  let at_ (sl : Nat) : Option (Nat × ChOut × Nat) :=
    (h.chain.out.find? fun e => e.2.dev == dev && e.2.req.isNone && e.2.slot == some sl).map fun e => (e.1, e.2, sl)
  match at_ (32 + rb) with
  | some e => some e
  | none => at_ rb

/-- The answer to a forwarded command arrives: accepted, or complete; one that comes late is counted. -/
def takeAns (h : Hw) (dev : Nat) (a : FwdAns) : Hw :=
  match forwardEntry h dev a.slot.val with
  | none => bump h aCH_TMO fCH_TMO_LATECNT 1
  | some (i, o, sl) =>
    if a.status.toNat = stAccepted then
      let x := slot h sl
      let h1 := { h with chain.out := insertAt h.chain.out i { o with op := 1 } }
      if x.st = .taken then setSlot h1 sl { x with st := .running, status := stAccepted } else h1
    else noteDevice { h with chain.out := removeAt h.chain.out i } sl dev a.status.toNat true a.data

/-- A RSP without an answer arrives: to a NoC request, or a refusal of a forwarded command, which then found no
target. -/
def takeRspAny (h : Hw) (port : Nat) (p : Pkt) : Hw :=
  if p.src.val = 38 then
    match forwardEntry h p.sdev.toNat (p.rb.toNat % 16) with
    | some (i, _, sl) =>
      noteDevice { h with chain.out := removeAt h.chain.out i } sl p.sdev.toNat stNoTarget false []
    | none => takeRsp h port p
  else takeRsp h port p

/-- 100 ms after a command was forwarded, the devices that have not answered count as not reached (R359). -/
def forwardTimeout (h : Hw) (sl : Nat) : Hw :=
  if frozen h then h
  else
    applyAll (fun h e =>
      if e.2.slot = some sl ∧ e.2.op = 0 then
        noteDevice { h with chain.out := removeAt h.chain.out e.1 } sl e.2.dev stNoTarget false []
      else h) h h.chain.out

/-- An outstanding chain request reaches `CH_TMO`: a forwarded command that no device has answered then found no target
(R264). (DEDUCED, log 197) -/
def chainTimeoutAny (h : Hw) (i : Nat) : Hw :=
  match lookup h.chain.out i with
  | some ⟨d, 0, none, some sl⟩ =>
    noteDevice (bump { h with chain.out := removeAt h.chain.out i } aCH_TMO fCH_TMO_TMOCNT 1) sl d stNoTarget false []
  | _ => chainTimeout h i

/-- An abort meets a slot of this device (R356). -/
def abortSlot (h : Hw) (sl : Nat) : Hw :=
  let x := slot h sl
  match x.st with
  | .posted =>
    let h1 := { h with posted := h.posted.erase sl }
    completeSlot (setSlot h1 sl (if sl < 16 then fetchSlot h sl .posted else x)) sl stAborted []
  | .running => forwardAbort (setSlot h sl { x with abort := true }) sl
  | _ => h

/-- A write of `HI_ABORT`. -/
def abortSlots (h : Hw) (v : Nat) : Hw :=
  if ¬ h.clocked then h
  else applyAll (fun h sl => if v.testBit sl then abortSlot h sl else h) h (List.range 16)

/-- A command that another device forwards arrives: it is posted in a free place, or refused for want of a pool
entry (R262, R358); the abort of one that is here meets its slot. (DESIGN CHOICE, log 113) -/
def takeCmd (h : Hw) (p : Pkt) (c : FwdCmd) : Hw :=
  let dev := p.sdev.toNat
  let src := p.src.val
  let rb := p.rb.toNat
  if c.opcode.toNat = 0xFFFF then
    match (List.range 16).find? fun i => (slot h (16 + i)).st != .free && (slot h (16 + i)).origin == some (dev, src, rb) with
    | some i => abortSlot h (16 + i)
    | none => h
  else
    let h1 := { h with chain.poolUsed := setD 0 h.chain.poolUsed dev (getD 0 h.chain.poolUsed dev + 1) }
    let fault (h : Hw) : Hw := sendRsp h dev 0 0 src rb 1 [] none
    if poolHere h dev ≤ getD 0 h.chain.poolUsed dev then fault (bump h1 aCH_CNT fCH_CNT_POOLOVF 1)
    else if h.mode = .isolated ∧ dev ≠ 0 then fault h1
    else
      match (List.range 16).find? fun i => (slot h1 (16 + i)).st == .free with
      | none => fault h1
      | some i =>
        setSlot { h1 with posted := h1.posted ++ [16 + i] } (16 + i)
          { Slot.free with st := .posted, opc := c.opcode.toNat, tgt := selfAddr h1, pay := c.params,
                           origin := some (dev, src, rb) }

/-! ## PCIe resets (R347) -/

/-- The registers of BAR0 and the apertures at reset, but for what shows the device's own state. (DEDUCED, log 110) -/
def resetBar0 (h : Hw) : Hw :=
  let kept := [(aHI_STAT, fHI_STAT_FWRDY), (aHI_STAT, fHI_STAT_CHRDY), (aHI_STAT, fHI_STAT_DEV0),
    (aHI_FRZ, fHI_FRZ_FROZEN), (aHI_FRZ, fHI_FRZ_DRAMSR)].map fun e => (e.1, e.2, getF h e.1 e.2)
  let ids := [aHI_ID, aHI_UID 0, aHI_UID 1]
  let h1 := { h with regs := h.regs.filter fun e => e.1 < bar0Base || ids.contains e.1 }
  applyAll (fun h e => setF h e.1 e.2.1 e.2.2) h1 kept

/-- A slot's number in what runs on after a PCIe reset. (DEDUCED, log 112) -/
def orphanOf (sl : Nat) : Nat := if sl < 16 then 32 + sl else sl

/-- PERST_N or a Function Level Reset: endpoint, BAR0, apertures and mailboxes (R347). A command that executes
goes on, in slot 32 + s. (DEDUCED, log 18) -/
def pcieReset (h : Hw) : Hw :=
  let live (x : Slot) : Bool := x.st == .taken || x.st == .running
  let moved := ((h.slots.filter fun e => e.1 < 16 && live e.2).map fun e => (32 + e.1, { e.2 with irq := false }))
  let rest := h.slots.filter fun e => 16 ≤ e.1
  let h1 := resetBar0 h
  { h1 with
    slots := moved.foldl (fun t e => insertAt t e.1 e.2) rest
    posted := h.posted.filter fun sl => 16 ≤ sl
    mbox := []
    obs.msix := h.obs.msix.map fun e => (e.1, { e.2 with busy := false, pend := false })
    chain.out := h.chain.out.map fun e => (e.1, { e.2 with slot := e.2.slot.map orphanOf })
    load := h.load.map fun l => { l with sl := orphanOf l.sl }
    fwLoad := h.fwLoad.map fun l => { l with sl := orphanOf l.sl } }

/-- PERST_N falls or rises. On its rise the endpoint of device 0 trains its link to a speed and a width of its
partner's choice (R347, R457 step 3). (DESIGN CHOICE, log 111) -/
def perst (h : Hw) (level : Bool) : Hw :=
  if ¬ level then pcieReset h
  else if ¬ isDev0 h then h
  else
    let a := freshNat h
    let b := freshNat a.2
    setF (setF b.2 aHI_STAT fHI_STAT_LSPD (3 + a.1 % 3)) aHI_STAT fHI_STAT_LWID (2 ^ (b.1 % 4))

end Sys2Proof.Machine
end

