-- ==== Sys2Proof/Machine/ChainCmds.lean ====
section
/-!
DEFINITION. The meanings of the commands of the lead chain (chapter 10) but those that carry mailbox commands or
firmware.
-/

namespace Sys2Proof.Machine

/-- A chain packet arrives on a lead port; `act` is what it does where it is delivered. -/
def onPacket (h : Hw) (port kind : Nat) (p : Pkt) (crcOk : Bool) (act : Hw → Hw) : Hw :=
  let r := rxPacket h port ⟨kind, p, none, none, false⟩ crcOk
  if r.1 then act r.2 else r.2

/-- `IDLE` (R248): An IDLE chain packet arrives, reporting whether the neighbour is FROZEN. -/
def execIdle (port : Fin 2) (p : Pkt) (crcOk : Bool) (s : State) : Host.Outcome State Fault Refusal :=
  .next (onHw s (fun h => onPacket h port.val 0 p crcOk fun h => takeIdle h port.val (p.arg.getLsbD 0)))

/-- `CHAIN_EVENT` (R266): A chain EVENT arrives and named yards raise event line 0xFC + k. -/
def execChainEvent (port : Fin 2) (p : Pkt) (crcOk : Bool) (s : State) : Host.Outcome State Fault Refusal :=
  .next (onHw s (fun h => onPacket h port.val 3 p crcOk fun h => takeEvent h p.arg.toNat))

/-- `CHAIN_FREEZE` (R267): A FREEZE chain packet arrives, freezing at once or arming a timed freeze, or
requesting a resume. -/
def execChainFreeze (port : Fin 2) (p : Pkt) (crcOk : Bool) (low : Bool) (s : State) :
    Host.Outcome State Fault Refusal :=
  .next (onHw s (fun h => onPacket h port.val 4 p crcOk fun h => takeFreeze h p low))

/-- `ROLL` (R256): A ROLL packet arrives and the device takes the next address and forwards ROLL or sends
ROLL_END. -/
def execRoll (port : Fin 2) (p : Pkt) (crcOk : Bool) (s : State) : Host.Outcome State Fault Refusal :=
  .next (onHw s (fun h => onPacket h port.val 5 p crcOk fun h => takeRoll h port.val (p.arg.toNat % 64)))

/-- `ROLL_END` (R257): ROLL_END reaches device 0, which completes roll call and records the count. -/
def execRollEnd (port : Fin 2) (p : Pkt) (crcOk : Bool) (s : State) : Host.Outcome State Fault Refusal :=
  .next (onHw s (fun h => onPacket h port.val 6 p crcOk fun h => takeRollEnd h p.arg.toNat))

/-- `HB` (R269): A heartbeat arrives and is relayed and answered with HB_ACK. -/
def execHb (port : Fin 2) (p : Pkt) (crcOk : Bool) (s : State) : Host.Outcome State Fault Refusal :=
  .next (onHw s (fun h => onPacket h port.val 7 p crcOk fun h => takeHb h port.val (p.arg.toNat % 2 ^ 32)))

/-- `HB_ACK` (R268): A heartbeat acknowledgement reaches device 0 with the sender's state and firmware-ready
bit. -/
def execHbAck (port : Fin 2) (p : Pkt) (crcOk : Bool) (s : State) : Host.Outcome State Fault Refusal :=
  .next (onHw s (fun h => onPacket h port.val 8 p crcOk fun h => takeHbAck h p.sdev.toNat p.arg.toNat))

/-- `DM` (R270): A delay-measurement packet arrives; a reply lets the device compute offset and steer or
step its counter. -/
def execDm (port : Fin 2) (p : Pkt) (crcOk : Bool) (t1 t2 t3 t4 : Int) (s : State) :
    Host.Outcome State Fault Refusal :=
  .next (onHw s (fun h => onPacket h port.val 9 p crcOk fun h => delayPacket h port.val p t1 t2 t3 t4))

/-- `LINK` (R259): A LINK packet arrives and updates CH_DIR and CH_REACH. -/
def execLink (port : Fin 2) (p : Pkt) (crcOk : Bool) (s : State) : Host.Outcome State Fault Refusal :=
  .next (onHw s (fun h => onPacket h port.val 0xA p crcOk fun h => takeLink h p.arg.toNat))

/-- `CREDIT` (R250): A CREDIT packet arrives and returns link credits. -/
def execCredit (port : Fin 2) (p : Pkt) (crcOk : Bool) (s : State) : Host.Outcome State Fault Refusal :=
  .next (onHw s (fun h => onPacket h port.val 0xB p crcOk fun h => h))

/-- `NAK` (R249): A NAK arrives and the sender resends from the named SEQ, taking the link down after 8
resends. -/
def execNak (port : Fin 2) (p : Pkt) (crcOk : Bool) (s : State) : Host.Outcome State Fault Refusal :=
  .next (onHw s (fun h => onPacket h port.val 0xC p crcOk fun h => takeNak h port.val (p.arg.setWidth 8)))

/-- `CHAIN_ALARM` (R442): An ALARM summary reaches device 0, which logs a record and may send the class
vector. -/
def execChainAlarm (port : Fin 2) (p : Pkt) (crcOk : Bool) (s : State) : Host.Outcome State Fault Refusal :=
  .next (onHw s (fun h => onPacket h port.val 0xD p crcOk fun h => if isDev0 h then takeSummaries h p.words else h))

/-- `LINK_DOWN` (R252): A lane loses block lock for 1 µs, or retries run out, and the lead link goes down. -/
def execLinkDown (port : Fin 2) (s : State) : Host.Outcome State Fault Refusal :=
  .next (onHw s (fun h => if frozen h then h else linkDown h port.val))

/-- `LINK_UP` (R252): A lead link finishes retraining and comes up. -/
def execLinkUp (port : Fin 2) (s : State) : Host.Outcome State Fault Refusal :=
  .next (onHw s (fun h => if frozen h then h else linkUpNow h port.val))

/-- `LK_RETRAIN` (R281): Writing LK_CTL.RETRAIN takes the link down and retrains it. -/
def execLkRetrain (port : Fin 2) (s : State) : Host.Outcome State Fault Refusal :=
  .next (onMem s (fun m h => busWrite m h (aLK_CTL port.val) (oneField h (aLK_CTL port.val) fLK_CTL_RETRAIN 1)))

/-- `HEARTBEAT_SEND` (R268): Every 100 µs device 0 sends HB and counts devices that missed three HB_ACKs. -/
def execHeartbeatSend (s : State) : Host.Outcome State Fault Refusal :=
  .next (onHw s (fun h => heartbeatSend h))

/-- `HEARTBEAT_MISS` (R269): The heartbeat watch counts a miss, and the third miss puts the device in
ISOLATED. -/
def execHeartbeatMiss (s : State) : Host.Outcome State Fault Refusal :=
  .next (onHw s (fun h => heartbeatMiss h))

/-- `DM_EXCHANGE` (R270): Every 1 ms a device sends a DM request to its upstream neighbour. -/
def execDmExchange (_txPs : Int) (s : State) : Host.Outcome State Fault Refusal :=
  .next (onHw s (fun h => delayExchange h))

/-- `CHAIN_TIMEOUT` (R264): An outstanding chain request reaches CH_TMO and completes FAULT. -/
def execChainTimeout (id : BitVec 8) (s : State) : Host.Outcome State Fault Refusal :=
  .next (onHw s (fun h => if frozen h then h else chainTimeoutAny h id.toNat))

/-- `MUTE_HOLD` (R276): HOLD ms after entering ISOLATED under CONTINUE-THEN-MUTE, transmit is muted. -/
def execMuteHold (s : State) : Host.Outcome State Fault Refusal :=
  .next (onHw s (fun h => muteHold h))

/-- `CH_EVSEND` (R266): Writing CH_EVSEND.GO sends EVENT k to the target. -/
def execChEvsend (v : BitVec 64) (s : State) : Host.Outcome State Fault Refusal :=
  .next (onMem s (fun m h => busWrite m h (aCH_EVSEND) (v ||| BitVec.ofNat 64 (2 ^ 63))))

/-- `CHAIN_READY` (R280): Device 0 reports chain-ready when every counted device reports firmware-ready. -/
def execChainReady (s : State) : Host.Outcome State Fault Refusal :=
  .next (onHw s (fun h => chainReady h))

/-- `CHAIN_DEVICE_LATE` (R280): A device not ready 250 ms after roll call is reported absent and the alarm
is raised. -/
def execChainDeviceLate (s : State) : Host.Outcome State Fault Refusal :=
  .next (onHw s (fun h => deviceLate h))

end Sys2Proof.Machine
end

