-- ==== Sys2Proof/Machine/FabricCmds.lean ====
section
/-!
DEFINITION. The meanings of the commands of the tack fabric, its pads and capture (chapter 13, R479).
-/

namespace Sys2Proof.Machine

/-- `FABRIC_EVENT_WIRE` (R335): A fabric event wire rising raises event 0xE0 + k of its yard. -/
def execFabricEventWire (y : Fin 16) (k : Fin 16) (s : State) : Host.Outcome State Fault Refusal :=
  .next (onHw s (fun h => fabEvent h y.val k.val))

/-- `FABRIC_CHAIN_EVENT_WIRE` (R335): A fabric chain event wire rising sends chain EVENT k. -/
def execFabricChainEventWire (k : Fin 4) (s : State) : Host.Outcome State Fault Refusal :=
  .next (onHw s (fun h => fabChainEvent h k.val))

/-- `FIO_BANK_LEVEL_CHANGE` (R337): A write of V33 changes the bank level, or sets VLOW when VIN is too low. -/
def execFioBankLevelChange (b : Fin 4) (v33 : Bool) (mv : BitVec 16) (s : State) :
    Host.Outcome State Fault Refusal :=
  .next (onMem s (fun m h => busWrite m (if h.clocked then setF h aPW_VIN fPW_VIN_MV mv.toNat else h) (aFIO_BANK b.val) (BitVec.ofNat 64 v33.toNat)))

/-- `FIO_BANK_LOW` (R337): VIN falls below 3.55 V with a bank at 3.3 V and the bank turns off. -/
def execFioBankLow (b : Fin 4) (s : State) : Host.Outcome State Fault Refusal :=
  .next (onHw s (fun h => bankLow h b.val))

/-- `FCLAIM` (R344): A write of FCLAIM = 1 claims the pad for the fabric under the owner table. -/
def execFclaim (p : Fin 64) (claim : Bool) (s : State) : Host.Outcome State Fault Refusal :=
  .next (onMem s (fun m h => busWrite m h (aFIO_PAD p.val) (oneField h (aFIO_PAD p.val) fFIO_PAD_FCLAIM claim.toNat)))

/-- `RESOURCE_RELEASE` (R479): A holder releases a resource and it passes to the highest standing claim. -/
def execResourceRelease (p : Fin 64) (s : State) : Host.Outcome State Fault Refusal :=
  .next (onHw s (fun h => releasePad h p.val))

/-- `CAP_ARM` (R340): Writing CAP_CTL.ARM arms one capture. -/
def execCapArm (mode : BitVec 2) (s : State) : Host.Outcome State Fault Refusal :=
  .next (onMem s (fun m h => busWrite m h (aCAP_CTL) (BitVec.ofNat 64 (mode.toNat + 4))))

/-- `CAP_CANCEL` (R340): Writing CAP_CTL.CANCEL disarms the capture. -/
def execCapCancel (s : State) : Host.Outcome State Fault Refusal :=
  .next (onMem s (fun m h => busWrite m h (aCAP_CTL) (oneField h aCAP_CTL fCAP_CTL_CANCEL 1)))

/-- `CAPTURE` (R341): At the capture edge every shadow register takes its value and SEQ advances. -/
def execCapture (s : State) : Host.Outcome State Fault Refusal :=
  .next (onHw s (fun h => takeCapture s.mem h))

/-- `FABRIC_CLOCK_EDGE` (R327): At each active clock edge (FCLK, ACLK/4 or a CLKIN input) the tack-fabric
macrocells update, registered segments and port-out wires advance, pad slots are serialised and
deserialised, and trough taps and window wires are sampled. -/
def execFabricClockEdge (clk : FabClk) (pads : List (Nat × BitVec 8)) (s : State) :
    Host.Outcome State Fault Refusal :=
  match clk with
  | .fclk rising => .next (onHw s (fun h => fclkEdge s.mem h rising pads))
  | .aclk4 rising => .next (onHw s (fun h => fclkEdge s.mem h rising pads))
  | .clkin b i rising => .next (onHw s (fun h => userEdge s.mem h b.val i.val rising))

end Sys2Proof.Machine
end

