-- ==== Sys2Proof/Machine/FuArith.lean ====
section
/-!
DEFINITION. The meanings of the function-unit steps: moves, integer, complex and block-float arithmetic (Tables 3.7 to 3.10). Each is the shared step of
Machine/Fu.lean or Machine/FuMem.lean over its opcode's row; the command carries the micro-instruction
that issues, and an FU that may not issue does nothing.
-/

namespace Sys2Proof.Machine

/-- `NOP` (R82): The FU issues a step that does nothing. -/
def execNop (g : Fin 2048) (u : UStep) (s : State) : Host.Outcome State Fault Refusal :=
  .next (onHw s (fuStep s.mem 0x00 opNop g.val u noAction))

/-- `MOV` (R82): The FU copies operand A to the destination. -/
def execMov (g : Fin 2048) (u : UStep) (s : State) : Host.Outcome State Fault Refusal :=
  .next (onHw s (fuStep s.mem 0x01 opMov g.val u noAction))

/-- `SELV` (R84): The FU writes A if A is valid, else B. -/
def execSelv (g : Fin 2048) (u : UStep) (s : State) : Host.Outcome State Fault Refusal :=
  .next (onHw s (fuStep s.mem 0x02 opSelv g.val u noAction))

/-- `SELNZ` (R82): Per element the FU takes A where C is non-zero, else B. -/
def execSelnz (g : Fin 2048) (u : UStep) (s : State) : Host.Outcome State Fault Refusal :=
  .next (onHw s (fuStep s.mem 0x03 opSelnz g.val u noAction))

/-- `SELNEG` (R82): Per element the FU takes A where C is negative, else B. -/
def execSelneg (g : Fin 2048) (u : UStep) (s : State) : Host.Outcome State Fault Refusal :=
  .next (onHw s (fuStep s.mem 0x04 opSelneg g.val u noAction))

/-- `LIXSET` (R80): The step sets the loop index to IMM at the end of the round. -/
def execLixset (g : Fin 2048) (u : UStep) (s : State) : Host.Outcome State Fault Refusal :=
  .next (onHw s (fuStep s.mem 0x05 opLixset g.val u (setLoopIndex g.val)))

/-- `ACCLR` (R82): The step clears an accumulator, sets AE to -512 and clears ACCP. -/
def execAcclr (g : Fin 2048) (u : UStep) (s : State) : Host.Outcome State Fault Refusal :=
  .next (onHw s (fuStep s.mem 0x06 opAcclr g.val u noAction))

/-- `ADD` (R83): The FU adds A and B per element with narrowing by SH. -/
def execAdd (g : Fin 2048) (u : UStep) (s : State) : Host.Outcome State Fault Refusal :=
  .next (onHw s (fuStep s.mem 0x10 opAdd g.val u noAction))

/-- `SUB` (R83): The FU subtracts B from A per element. -/
def execSub (g : Fin 2048) (u : UStep) (s : State) : Host.Outcome State Fault Refusal :=
  .next (onHw s (fuStep s.mem 0x11 opSub g.val u noAction))

/-- `NEG` (R83): The FU negates A per element. -/
def execNeg (g : Fin 2048) (u : UStep) (s : State) : Host.Outcome State Fault Refusal :=
  .next (onHw s (fuStep s.mem 0x12 opNeg g.val u noAction))

/-- `ABS` (R82): The FU takes the absolute value of A per element. -/
def execAbs (g : Fin 2048) (u : UStep) (s : State) : Host.Outcome State Fault Refusal :=
  .next (onHw s (fuStep s.mem 0x13 opAbs g.val u noAction))

/-- `MIN` (R82): The FU takes the per-element minimum of A and B. -/
def execMin (g : Fin 2048) (u : UStep) (s : State) : Host.Outcome State Fault Refusal :=
  .next (onHw s (fuStep s.mem 0x14 opMin g.val u noAction))

/-- `MAX` (R82): The FU takes the per-element maximum of A and B. -/
def execMax (g : Fin 2048) (u : UStep) (s : State) : Host.Outcome State Fault Refusal :=
  .next (onHw s (fuStep s.mem 0x15 opMax g.val u noAction))

/-- `CMPEQ` (R82): Each element becomes 1 if A equals B, else 0. -/
def execCmpeq (g : Fin 2048) (u : UStep) (s : State) : Host.Outcome State Fault Refusal :=
  .next (onHw s (fuStep s.mem 0x16 opCmpeq g.val u noAction))

/-- `CMPGT` (R82): Each element becomes 1 if A exceeds B, else 0. -/
def execCmpgt (g : Fin 2048) (u : UStep) (s : State) : Host.Outcome State Fault Refusal :=
  .next (onHw s (fuStep s.mem 0x17 opCmpgt g.val u noAction))

/-- `SHLA` (R82): Each element is shifted left arithmetically by IMM[6:0] and range-limited. -/
def execShla (g : Fin 2048) (u : UStep) (s : State) : Host.Outcome State Fault Refusal :=
  .next (onHw s (fuStep s.mem 0x18 opShla g.val u noAction))

/-- `SHRA` (R51): Each element is narrowed with shift IMM[6:0]. -/
def execShra (g : Fin 2048) (u : UStep) (s : State) : Host.Outcome State Fault Refusal :=
  .next (onHw s (fuStep s.mem 0x19 opShra g.val u noAction))

/-- `MUL` (R82): The FU multiplies integer elements of A and B. -/
def execMul (g : Fin 2048) (u : UStep) (s : State) : Host.Outcome State Fault Refusal :=
  .next (onHw s (fuStep s.mem 0x1A opMul g.val u noAction))

/-- `MAC` (R45): The FU adds the products of A and B into an accumulator. -/
def execMac (g : Fin 2048) (u : UStep) (s : State) : Host.Outcome State Fault Refusal :=
  .next (onHw s (fuStep s.mem 0x1B opMac g.val u noAction))

/-- `MSU` (R45): The FU subtracts the products of A and B from an accumulator. -/
def execMsu (g : Fin 2048) (u : UStep) (s : State) : Host.Outcome State Fault Refusal :=
  .next (onHw s (fuStep s.mem 0x1C opMsu g.val u noAction))

/-- `CMUL` (R82): The FU multiplies complex samples of A and B. -/
def execCmul (g : Fin 2048) (u : UStep) (s : State) : Host.Outcome State Fault Refusal :=
  .next (onHw s (fuStep s.mem 0x30 opCmul g.val u noAction))

/-- `CMAC` (R45): The FU adds complex products of A and B into an accumulator. -/
def execCmac (g : Fin 2048) (u : UStep) (s : State) : Host.Outcome State Fault Refusal :=
  .next (onHw s (fuStep s.mem 0x31 opCmac g.val u noAction))

/-- `CMSU` (R45): The FU subtracts complex products of A and B from an accumulator. -/
def execCmsu (g : Fin 2048) (u : UStep) (s : State) : Host.Outcome State Fault Refusal :=
  .next (onHw s (fuStep s.mem 0x32 opCmsu g.val u noAction))

/-- `CJMAC` (R47): The FU adds conj(A) times B into an accumulator. -/
def execCjmac (g : Fin 2048) (u : UStep) (s : State) : Host.Outcome State Fault Refusal :=
  .next (onHw s (fuStep s.mem 0x33 opCjmac g.val u noAction))

/-- `CMAG2` (R82): Each sample becomes its magnitude squared in I with Q zero. -/
def execCmag2 (g : Fin 2048) (u : UStep) (s : State) : Host.Outcome State Fault Refusal :=
  .next (onHw s (fuStep s.mem 0x34 opCmag2 g.val u noAction))

/-- `CMAGAC` (R82): Each sample's magnitude squared is added into the I lane of an accumulator. -/
def execCmagac (g : Fin 2048) (u : UStep) (s : State) : Host.Outcome State Fault Refusal :=
  .next (onHw s (fuStep s.mem 0x35 opCmagac g.val u noAction))

/-- `CSCL` (R82): Each sample of A is scaled by the I component of the same sample of B. -/
def execCscl (g : Fin 2048) (u : UStep) (s : State) : Host.Outcome State Fault Refusal :=
  .next (onHw s (fuStep s.mem 0x36 opCscl g.val u noAction))

/-- `CROT` (R82): Each sample of A is rotated by j^IMM[1:0]. -/
def execCrot (g : Fin 2048) (u : UStep) (s : State) : Host.Outcome State Fault Refusal :=
  .next (onHw s (fuStep s.mem 0x37 opCrot g.val u noAction))

/-- `CCONJ` (R82): Each sample of A is conjugated. -/
def execCconj (g : Fin 2048) (u : UStep) (s : State) : Host.Outcome State Fault Refusal :=
  .next (onHw s (fuStep s.mem 0x38 opCconj g.val u noAction))

/-- `BPACK` (R54): A's four 18-bit fields are packed into B16x2 with exponent -17. -/
def execBpack (g : Fin 2048) (u : UStep) (s : State) : Host.Outcome State Fault Refusal :=
  .next (onHw s (fuStep s.mem 0x50 opBpack g.val u noAction))

/-- `BEXPD` (R82): A B16x2 word is expanded into C18x2 fields. -/
def execBexpd (g : Fin 2048) (u : UStep) (s : State) : Host.Outcome State Fault Refusal :=
  .next (onHw s (fuStep s.mem 0x51 opBexpd g.val u noAction))

/-- `BALIGN` (R82): A's mantissas are realigned to B's exponent. -/
def execBalign (g : Fin 2048) (u : UStep) (s : State) : Host.Outcome State Fault Refusal :=
  .next (onHw s (fuStep s.mem 0x52 opBalign g.val u noAction))

/-- `BRENORM` (R54): A's mantissas are repacked with A's exponent. -/
def execBrenorm (g : Fin 2048) (u : UStep) (s : State) : Host.Outcome State Fault Refusal :=
  .next (onHw s (fuStep s.mem 0x53 opBrenorm g.val u noAction))

/-- `BADD` (R55): Two B16x2 words are aligned, added and packed. -/
def execBadd (g : Fin 2048) (u : UStep) (s : State) : Host.Outcome State Fault Refusal :=
  .next (onHw s (fuStep s.mem 0x54 opBadd g.val u noAction))

/-- `BSUB` (R55): Two B16x2 words are aligned, subtracted and packed. -/
def execBsub (g : Fin 2048) (u : UStep) (s : State) : Host.Outcome State Fault Refusal :=
  .next (onHw s (fuStep s.mem 0x55 opBsub g.val u noAction))

/-- `BMUL` (R52): Two B16x2 words are multiplied and packed with the product exponent. -/
def execBmul (g : Fin 2048) (u : UStep) (s : State) : Host.Outcome State Fault Refusal :=
  .next (onHw s (fuStep s.mem 0x56 opBmul g.val u noAction))

/-- `BMAC` (R53): A block-float product is aligned to the accumulator exponent and added. -/
def execBmac (g : Fin 2048) (u : UStep) (s : State) : Host.Outcome State Fault Refusal :=
  .next (onHw s (fuStep s.mem 0x57 opBmac g.val u noAction))

/-- `BEXPR` (R82): A's exponent is written sign-extended into every I18x4 element. -/
def execBexpr (g : Fin 2048) (u : UStep) (s : State) : Host.Outcome State Fault Refusal :=
  .next (onHw s (fuStep s.mem 0x58 opBexpr g.val u noAction))

/-- `BESET` (R82): A is written with its exponent replaced by IMM[7:0]. -/
def execBeset (g : Fin 2048) (u : UStep) (s : State) : Host.Outcome State Fault Refusal :=
  .next (onHw s (fuStep s.mem 0x59 opBeset g.val u noAction))

end Sys2Proof.Machine
end

