-- ==== Sys2Proof/Machine/FuLogic.lean ====
section
/-!
DEFINITION. The meanings of the function-unit steps: logic, permutes, stream and tag steps and transform helpers (Tables 3.11, 3.12, 3.14, 3.15). Each is the shared step of
Machine/Fu.lean or Machine/FuMem.lean over its opcode's row; the command carries the micro-instruction
that issues, and an FU that may not issue does nothing.
-/

namespace Sys2Proof.Machine

/-- `AND` (R82): The FU forms A AND B over 72 bits. -/
def execAnd (g : Fin 2048) (u : UStep) (s : State) : Host.Outcome State Fault Refusal :=
  .next (onHw s (fuStep s.mem 0x60 opAnd g.val u noAction))

/-- `OR` (R82): The FU forms A OR B over 72 bits. -/
def execOr (g : Fin 2048) (u : UStep) (s : State) : Host.Outcome State Fault Refusal :=
  .next (onHw s (fuStep s.mem 0x61 opOr g.val u noAction))

/-- `XOR` (R82): The FU forms A XOR B over 72 bits. -/
def execXor (g : Fin 2048) (u : UStep) (s : State) : Host.Outcome State Fault Refusal :=
  .next (onHw s (fuStep s.mem 0x62 opXor g.val u noAction))

/-- `ANDN` (R82): The FU forms A AND NOT B over 72 bits. -/
def execAndn (g : Fin 2048) (u : UStep) (s : State) : Host.Outcome State Fault Refusal :=
  .next (onHw s (fuStep s.mem 0x63 opAndn g.val u noAction))

/-- `NOT` (R82): The FU forms NOT A over 72 bits. -/
def execNot (g : Fin 2048) (u : UStep) (s : State) : Host.Outcome State Fault Refusal :=
  .next (onHw s (fuStep s.mem 0x64 opNot g.val u noAction))

/-- `BITSEL` (R82): Per bit the FU takes A where C is 1, else B. -/
def execBitsel (g : Fin 2048) (u : UStep) (s : State) : Host.Outcome State Fault Refusal :=
  .next (onHw s (fuStep s.mem 0x65 opBitsel g.val u noAction))

/-- `LSL` (R82): A is shifted left logically by IMM[6:0]. -/
def execLsl (g : Fin 2048) (u : UStep) (s : State) : Host.Outcome State Fault Refusal :=
  .next (onHw s (fuStep s.mem 0x66 opLsl g.val u noAction))

/-- `LSR` (R82): A is shifted right logically by IMM[6:0]. -/
def execLsr (g : Fin 2048) (u : UStep) (s : State) : Host.Outcome State Fault Refusal :=
  .next (onHw s (fuStep s.mem 0x67 opLsr g.val u noAction))

/-- `ROL` (R82): A is rotated left by IMM[6:0] modulo 72. -/
def execRol (g : Fin 2048) (u : UStep) (s : State) : Host.Outcome State Fault Refusal :=
  .next (onHw s (fuStep s.mem 0x68 opRol g.val u noAction))

/-- `POPC` (R82): The FU counts the 1 bits of A. -/
def execPopc (g : Fin 2048) (u : UStep) (s : State) : Host.Outcome State Fault Refusal :=
  .next (onHw s (fuStep s.mem 0x69 opPopc g.val u noAction))

/-- `CLZ` (R82): The FU counts the leading 0 bits of A. -/
def execClz (g : Fin 2048) (u : UStep) (s : State) : Host.Outcome State Fault Refusal :=
  .next (onHw s (fuStep s.mem 0x6A opClz g.val u noAction))

/-- `EREV` (R82): The elements of A are reversed. -/
def execErev (g : Fin 2048) (u : UStep) (s : State) : Host.Outcome State Fault Refusal :=
  .next (onHw s (fuStep s.mem 0x70 opErev g.val u noAction))

/-- `EBCST` (R82): One element of A is broadcast to every element. -/
def execEbcst (g : Fin 2048) (u : UStep) (s : State) : Host.Outcome State Fault Refusal :=
  .next (onHw s (fuStep s.mem 0x71 opEbcst g.val u noAction))

/-- `EINS` (R82): Element 0 of B is inserted into A at element IMM[2:0]. -/
def execEins (g : Fin 2048) (u : UStep) (s : State) : Host.Outcome State Fault Refusal :=
  .next (onHw s (fuStep s.mem 0x72 opEins g.val u noAction))

/-- `EPICK` (R82): Each element is taken from A or B as IMM selects. -/
def execEpick (g : Fin 2048) (u : UStep) (s : State) : Host.Outcome State Fault Refusal :=
  .next (onHw s (fuStep s.mem 0x73 opEpick g.val u noAction))

/-- `IQSWAP` (R82): I and Q of each sample are swapped. -/
def execIqswap (g : Fin 2048) (u : UStep) (s : State) : Host.Outcome State Fault Refusal :=
  .next (onHw s (fuStep s.mem 0x74 opIqswap g.val u noAction))

/-- `ZIPLO` (R82): The low halves of A and B are interleaved. -/
def execZiplo (g : Fin 2048) (u : UStep) (s : State) : Host.Outcome State Fault Refusal :=
  .next (onHw s (fuStep s.mem 0x75 opZiplo g.val u noAction))

/-- `ZIPHI` (R82): The high halves of A and B are interleaved. -/
def execZiphi (g : Fin 2048) (u : UStep) (s : State) : Host.Outcome State Fault Refusal :=
  .next (onHw s (fuStep s.mem 0x76 opZiphi g.val u noAction))

/-- `PERM` (R82): The elements of A are permuted by indices from B. -/
def execPerm (g : Fin 2048) (u : UStep) (s : State) : Host.Outcome State Fault Refusal :=
  .next (onHw s (fuStep s.mem 0x77 opPerm g.val u noAction))

/-- `SETFL` (R82): A is passed on with F and L set from IMM. -/
def execSetfl (g : Fin 2048) (u : UStep) (s : State) : Host.Outcome State Fault Refusal :=
  .next (onHw s (fuStep s.mem 0x90 opSetfl g.val u noAction))

/-- `SETEP` (R82): A is passed on with EP set to IMM[3:0]. -/
def execSetep (g : Fin 2048) (u : UStep) (s : State) : Host.Outcome State Fault Refusal :=
  .next (onHw s (fuStep s.mem 0x91 opSetep g.val u noAction))

/-- `CLRP` (R87): A is passed on with its poison bit cleared. -/
def execClrp (g : Fin 2048) (u : UStep) (s : State) : Host.Outcome State Fault Refusal :=
  .next (onHw s (fuStep s.mem 0x92 opClrp g.val u noAction))

/-- `TSTV` (R87): The result is true if A is valid. -/
def execTstv (g : Fin 2048) (u : UStep) (s : State) : Host.Outcome State Fault Refusal :=
  .next (onHw s (fuStep s.mem 0x93 opTstv g.val u noAction))

/-- `TSTF` (R87): The result is true if A is valid with F = 1. -/
def execTstf (g : Fin 2048) (u : UStep) (s : State) : Host.Outcome State Fault Refusal :=
  .next (onHw s (fuStep s.mem 0x94 opTstf g.val u noAction))

/-- `TSTL` (R87): The result is true if A is valid with L = 1. -/
def execTstl (g : Fin 2048) (u : UStep) (s : State) : Host.Outcome State Fault Refusal :=
  .next (onHw s (fuStep s.mem 0x95 opTstl g.val u noAction))

/-- `TSTP` (R87): The result is true if A is valid with P = 1. -/
def execTstp (g : Fin 2048) (u : UStep) (s : State) : Host.Outcome State Fault Refusal :=
  .next (onHw s (fuStep s.mem 0x96 opTstp g.val u noAction))

/-- `SIGNAL` (R88): The step raises SIGNAL line IMM[5:0] of its yard in the next cycle if A is valid. -/
def execSignal (g : Fin 2048) (u : UStep) (s : State) : Host.Outcome State Fault Refusal :=
  .next (onHw s (fuStep s.mem 0x97 opSignal g.val u (raiseSignal g.val)))

/-- `BFLY2` (R76): The FU forms a radix-2 butterfly A + B and A - B. -/
def execBfly2 (g : Fin 2048) (u : UStep) (s : State) : Host.Outcome State Fault Refusal :=
  .next (onHw s (fuStep s.mem 0xA0 opBfly2 g.val u noAction))

/-- `BFLY4` (R91): The FU forms a radix-4 butterfly of four samples. -/
def execBfly4 (g : Fin 2048) (u : UStep) (s : State) : Host.Outcome State Fault Refusal :=
  .next (onHw s (fuStep s.mem 0xA1 opBfly4 g.val u noAction))

/-- `TWMUL` (R90): Samples of A are multiplied by entries of the pen twiddle table. -/
def execTwmul (g : Fin 2048) (u : UStep) (s : State) : Host.Outcome State Fault Refusal :=
  .next (onHw s (fuStep s.mem 0xA2 opTwmul g.val u noAction))

/-- `UNDEFINED_OPCODE` (R13): a step whose FMT is reserved or whose opcode no table lists is a NOP that
writes a not-valid word to its destination and sets `ERR.UNDEF`; an opcode whose row allows its FMT is no
such step. -/
def execUndefinedOpcode (g : Fin 2048) (opc : BitVec 8) (u : UStep) (s : State) :
    Host.Outcome State Fault Refusal :=
  if (opRow opc.toNat).any (fun op => op.fmts.contains u.fmt.toNat) then .next s
  else .next (onHw s (issue s.mem g.val opc.toNat u 1 (fun h => undefinedStep h g.val u)))

end Sys2Proof.Machine
end

