-- ==== Sys2Proof/Machine/FuTroughs.lean ====
section
/-!
DEFINITION. The meanings of the function-unit steps: memory and trough operations (Table 3.13). Each is the shared step of
Machine/Fu.lean or Machine/FuMem.lean over its opcode's row; the command carries the micro-instruction
that issues, and an FU that may not issue does nothing.
-/

namespace Sys2Proof.Machine

/-- `LOAD` (R172): The FU reads a tagged word from its pen memory. -/
def execLoad (g : Fin 2048) (u : UStep) (ecc : Ecc) (s : State) : Host.Outcome State Fault Refusal :=
  .next (onHw s (loadStep s.mem g.val u ecc))

/-- `STORE` (R172): The FU writes B into its pen memory. -/
def execStore (g : Fin 2048) (u : UStep) (s : State) : Host.Outcome State Fault Refusal :=
  .next (onHw s (storeStep s.mem g.val u))

/-- `PUSH` (R188): The FU pushes A into its bound trough, or is refused when the trough is full. -/
def execPush (g : Fin 2048) (u : UStep) (s : State) : Host.Outcome State Fault Refusal :=
  .next (onHw s (pushStep s.mem g.val u))

/-- `POP` (R188): The FU takes the word at the read pointer of its bound trough, or gets not-valid or is
refused when empty. -/
def execPop (g : Fin 2048) (u : UStep) (ecc : Ecc) (s : State) : Host.Outcome State Fault Refusal :=
  .next (onHw s (popStep s.mem g.val u ecc))

/-- `MARK` (R188): The trough's mark takes the read pointer. -/
def execMark (g : Fin 2048) (u : UStep) (s : State) : Host.Outcome State Fault Refusal :=
  .next (onHw s (markStep s.mem g.val u))

/-- `REWIND` (R188): The trough's read pointer returns to the mark. -/
def execRewind (g : Fin 2048) (u : UStep) (s : State) : Host.Outcome State Fault Refusal :=
  .next (onHw s (rewindStep s.mem g.val u))

/-- `RELEASE` (R188): The release pointer advances by IMM words or to the read pointer. -/
def execRelease (g : Fin 2048) (u : UStep) (s : State) : Host.Outcome State Fault Refusal :=
  .next (onHw s (releaseStep s.mem g.val u))

/-- `PKT_OPEN` (R188): A length slot is reserved and a trough packet is opened. -/
def execPktOpen (g : Fin 2048) (u : UStep) (s : State) : Host.Outcome State Fault Refusal :=
  .next (onHw s (openStep s.mem g.val u))

/-- `PKT_CLOSE` (R192): The length word is written and the trough packet is committed. -/
def execPktClose (g : Fin 2048) (u : UStep) (s : State) : Host.Outcome State Fault Refusal :=
  .next (onHw s (closeStep s.mem g.val u))

/-- `PKT_ABORT` (R188): The open trough packet is rolled back. -/
def execPktAbort (g : Fin 2048) (u : UStep) (s : State) : Host.Outcome State Fault Refusal :=
  .next (onHw s (abortStep s.mem g.val u))

/-- `RESULT_LAND` (R60): A result issued L cycles earlier lands in its destination, OUT port or trough
position. -/
def execResultLand (g : Fin 2048) (s : State) : Host.Outcome State Fault Refusal :=
  .next (onHw s (fun h => landResults s.mem h g.val))

/-- `YARD_CROSSING_DELIVERY` (R108): A word taken by a yard crossing is presented at its fixed delivery edge
of the receiving yard. -/
def execYardCrossingDelivery (g : Fin 2048) (t : Fin 12) (late : Bool) (s : State) :
    Host.Outcome State Fault Refusal :=
  .next (onHw s (fun h => deliverCrossing h g.val t.val late))

end Sys2Proof.Machine
end

