-- ==== Sys2Proof/Machine/Startup.lean ====
section
/-!
DEFINITION. Power-on, RESET_N, boot and start-up, domain resets and the reopening of crossings, the recovery
action and the device states (R279, R388, R389, R451 to R469).
-/

namespace Sys2Proof.Machine

/-! ## POR and straps (R451, R456, R460) -/

/-- POR is asserted: everything but the non-volatile stores goes to its reset value, and memory contents are
lost. The free-value counter and the level of RESET_N are not the device's, and a thermal trip lasts (R482). -/
def porState (s : State) : State :=
  { s with hw := { Hw.reset with free := s.hw.free, rstLow := s.hw.rstLow, tripped := s.hw.tripped }, mem := [] }

/-- The straps sampled: the fields marked "strap" show them, and HOSTPORT makes the device device 0 with
address 0 (R255, R451). -/
def sampleStraps (h : Hw) (st : Straps) : Hw :=
  let h1 := setF (setF h aDV_BOOT fDV_BOOT_BOOTSEL st.bootsel.toNat) aDV_BOOT fDV_BOOT_REFSEL st.refsel.toNat
  let h2 := setF (setF h1 aDV_BOOT fDV_BOOT_HOSTPORT st.hostport.toNat) aCLK_STAT fCLK_STAT_REFSEL st.refsel.toNat
  let h3 := setF h2 aHI_STAT fHI_STAT_DEV0 st.hostport.toNat
  let h4 := setF h3 aCH_ID fCH_ID_DEV0 st.hostport.toNat
  if st.hostport then raiseBit (setF h4 aCH_ID fCH_ID_ADDR 0) aCH_ID fCH_ID_AVLD else h4

/-- VIN is good: the rails start in order, 22 only with 3.6 V, and the straps are sampled when rail 21 is in
range (R451, R456, step 1 of Table 19.3). After a thermal trip POR stays while a sensor is hot (R482). -/
def vinGood (h : Hw) (st : Straps) (mv : Nat) (hot : Bool) : Hw :=
  if h.phase ≠ .por ∨ mv < 2600 ∨ (h.tripped ∧ hot) then h
  else
    let h1 := setF h aPW_VIN fPW_VIN_MV mv
    let h2 := applyAll (fun h r => if r = 22 ∧ mv < 3600 then h else setF h (aPW_RAIL r) fPW_RAIL_OK 1) h1 (List.range 25)
    sampleStraps { h2 with phase := if h.rstLow then .reset else .rails, tripped := false } st

/-! ## PLL lock and boot (R388, R389, R452, R455, R279) -/

def bootSel (h : Hw) : Nat := getF h aDV_BOOT fDV_BOOT_BOOTSEL
def setStage (h : Hw) (st : Nat) : Hw := setF h aDV_BOOT fDV_BOOT_STAGE st

/-- The PLLs have locked and the boot ROM starts; REFSEL 0b11 starts none (R388). Straps that allow no boot
source end in FAILED (R452). (DEDUCED, log 146) -/
def pllLock (h : Hw) : Hw :=
  if h.phase ≠ .rails ∨ getF h aDV_BOOT fDV_BOOT_REFSEL = 3 then h
  else
    let h1 := if h.locked then h else raiseBit h aCLK_STAT fCLK_STAT_REFPRES
    let h2 := { h1 with clocked := true, locked := true, phase := .rom }
    if bootSel h2 = 3 ∨ (isDev0 h2 ∧ bootSel h2 = 1) then { setStage h2 5 with phase := .failed } else h2

/-- First flash byte of a firmware copy (Table 19.2). -/
def copyBase (b : Bool) : Nat := if b then 0x00200000 else 0x00100000

/-- The image in a firmware copy. -/
def copyImage (fl : Sparse Byte) (b : Bool) : List Byte :=
  let len := leNat (flashBytes fl (copyBase b + 8) 4)
  flashBytes fl (copyBase b) (min len 0x100000)

/-- The first step that a firmware image fails, 0 for none, with its `SEQNO` (R455). (DEDUCED, log 147) -/
def checkFirmware (nv : Nv) (m : Sparse Byte) (h : Hw) (img : List Byte) (len : Nat) : FwCheck :=
  ⟨(checkImage nv m h img len [] true).1, BitVec.ofNat 32 (imSeqno img)⟩

/-- A firmware copy checked: as given, or by its bytes. -/
def copyCheck (s : State) (b : Bool) (given : Option FwCheck) : FwCheck :=
  match given with
  | some c => c
  | none => checkFirmware s.nv s.mem s.hw (copyImage s.nv.flash b) (leNat (flashBytes s.nv.flash (copyBase b + 8) 4))

/-- Sequence number x follows y, compared modulo 2^32 (R455). (DEDUCED, log 148) -/
def newer (x y : BitVec 32) : Bool := x != y && (x - y).toNat < 2 ^ 31

/-- Firmware starts from a copy. -/
def runFirmware (h : Hw) (copy : Bool) (seqno : BitVec 32) : Hw :=
  let h1 := setF (setF (setStage h 3) aDV_BOOT fDV_BOOT_COPY copy.toNat) aDV_BOOT fDV_BOOT_SEQNO seqno.toNat
  { h1 with phase := .firmware }

/-- The boot ROM reads and checks both copies and starts the passing one with the higher `SEQNO`; without one it
listens on LU or has failed (R455). -/
def bootRom (h : Hw) (a b : FwCheck) : Hw :=
  if h.phase ≠ .rom ∨ h.recovering.isSome ∨ frozen h then h
  else if bootSel h = 1 then { setStage h 4 with phase := .listen }
  else
    let h1 := if a.step = 0 then h else setF (raiseBit h aDV_BOOT fDV_BOOT_AFAIL) aDV_BOOT fDV_BOOT_FAILSTEP a.step
    let h2 := if b.step = 0 then h1 else setF (raiseBit h1 aDV_BOOT fDV_BOOT_BFAIL) aDV_BOOT fDV_BOOT_FAILSTEP b.step
    if a.step = 0 ∧ ¬ (b.step = 0 ∧ newer b.seqno a.seqno) then runFirmware h2 false a.seqno
    else if b.step = 0 then runFirmware h2 true b.seqno
    else if bootSel h = 2 then { setStage h2 4 with phase := .listen }
    else { setStage h2 5 with phase := .failed }

/-- A listening device has the whole firmware and authenticates it (R279). -/
def fwReceived (h : Hw) (c : FwCheck) : Hw :=
  if h.phase ≠ .listen ∨ h.recovering.isSome then h
  else if c.step = 0 then runFirmware h false c.seqno
  else { setF (setStage h 5) aDV_BOOT fDV_BOOT_FAILSTEP c.step with phase := .failed }

/-- Firmware starts: it raises the alarms that waited for it, reads the ledger, sets the default pools and the
standard twiddle tables, and trains the DRAM, whose reset it lets go (step 5 of Table 19.3, R469, R485). -/
def firmwareStart (nv : Nv) (h : Hw) (chans : List DramChan) (differ : List (Fin 2)) : Hw :=
  if h.phase ≠ .firmware ∨ h.recovering.isSome ∨ frozen h then h
  else
    let h1 := { flushDeferred h with recovering := none }
    let h2 := setDefaultPools (ledgerRead nv h1 differ)
    let h3 := dramConfigCheck { h2 with arr.twiddle := [] } chans
    { h3 with phase := .started, mcReset := false }

/-- Firmware releases the yards and is ready; device 0 starts the first roll call (R256, step 6). -/
def firmwareReady (h : Hw) : Hw :=
  if h.phase ≠ .started ∨ h.recovering.isSome ∨ frozen h then h
  else
    let h1 := sendVector (raiseBit { h with phase := .ready, yardsUp := true } aHI_STAT fHI_STAT_FWRDY) 19
    if isDev0 h1 then rollStart h1 else h1

/-! ## RESET_N (R460, R461) -/

/-- Fields that RESET_N keeps: what shows rails, supply, PLLs and straps. -/
def keptByResetN : List (Nat × Fld) :=
  [(aPW_VIN, fPW_VIN_MV), (aCLK_STAT, fCLK_STAT_REFPRES), (aCLK_STAT, fCLK_STAT_ROOTHOLD),
   (aCLK_STAT, fCLK_STAT_DRAMHOLD), (aCLK_STAT, fCLK_STAT_XCVRHOLD), (aCLK_STAT, fCLK_STAT_RELOCKING),
   (aCLK_STAT, fCLK_STAT_REFSEL), (aDV_BOOT, fDV_BOOT_BOOTSEL), (aDV_BOOT, fDV_BOOT_REFSEL),
   (aDV_BOOT, fDV_BOOT_HOSTPORT), (aHI_STAT, fHI_STAT_DEV0), (aCH_ID, fCH_ID_DEV0)] ++
    (List.range 25).map fun r => (aPW_RAIL r, fPW_RAIL_OK)

/-- RESET_N falls: its column of Table 19.4. The time counter and the tick counts run on, and Mc_RESET_N stays as it is
(R485). (DEDUCED, log 17) -/
def resetN (s : State) : State :=
  let h := s.hw
  if h.phase = .por then { s with hw := { h with rstLow := true } }
  else
    let blank : Hw := { Hw.reset with
      aclk := h.aclk
      free := h.free
      locked := h.locked
      mcReset := h.mcReset
      tb := { Timebase.reset with sec := h.tb.sec, ns := h.tb.ns, frac := h.tb.frac }
      rstLow := true
      phase := .reset }
    let kept := applyAll (fun g e => setF g e.1 e.2 (getF h e.1 e.2)) blank keptByResetN
    { s with hw := setF kept aDV_RST fDV_RST_CAUSE 2, mem := [] }

/-- RESET_N rises: straps are sampled and the sequence runs from step 2. -/
def resetNRelease (h : Hw) (st : Straps) : Hw :=
  let h1 := { h with rstLow := false }
  if h.phase = .reset then sampleStraps { h1 with phase := .rails } st else h1

/-! ## Domain resets (R462 to R466) -/

/-- The state that a domain needs (Table 19.5). -/
def domainFree (h : Hw) (code : Nat) : Bool :=
  if code < 0x10 then !(fnRunning h (fnId 3 code)) && yardRuns h code
  else if code < 0x14 then !(fnRunning h (fnId 1 (code - 0x10)))
  else if code < 0x18 then (List.range 4).all fun sp => !(fnRunning h (fnId 2 (4 * (code - 0x14) + sp)))
  else if code = 0x1A then !(fnRunning h (fnId 7 0))
  else if code = 0x1B then !(fnRunning h (fnId 6 0))
  else true

/-- Crossings in quarantine, as `DV_XQ.QCNT` counts them. -/
def countQuarantine (h : Hw) : Hw :=
  setF h aDV_XQ fDV_XQ_QCNT ((List.range 33).foldl (fun acc c =>
    if h.quarantined.getLsbD c then acc + Config.crossingsOf c else acc) 0)

/-- A word inside a yard crossing touches yard y. (DEDUCED, log 151) -/
def touchesYard (y : Nat) (key : Nat) : Bool :=
  key / 12 / 128 == y || (match farEnd (key / 12) (key % 12) with
    | some g' => g' / 128 == y
    | none => false)

/-- Trough packets that a domain has open in troughs outside it are rolled back as by PKT_ABORT (R465). (DEDUCED, log 173) -/
def abortOpen (h : Hw) (code : Nat) : Hw :=
  let its (e : Nat × Trough) : Bool :=
    e.1 / 64 != code && e.2.isOpen &&
      (match e.2.opener with
       | some r => domainOf (endpointOf r) == some code
       | none => false)
  applyAll (fun h e => abortPacket h e.1 (troughNow h e.1)) h (h.arr.troughs.filter its)

/-- A domain's reset begins: its crossings enter quarantine and the words in flight in them are discarded, its
open packets elsewhere are rolled back; a lead port's link goes down (R462, R464, R465). -/
def domainBegin (h : Hw) (code : Nat) : Hw :=
  let h := abortOpen h code
  let h1 := bump (setF h aDV_RST fDV_RST_LASTDOM code) aDV_RST fDV_RST_DRSTCNT 1
  let h2 := countQuarantine { h1 with quarantined := h1.quarantined ||| BitVec.ofNat 64 (2 ^ code), inDom := h1.inDom ++ [code] }
  if code < 0x10 then
    let lost := h2.arr.xq.countP fun x => touchesYard code x.key && x.tw.v
    let h3 := if lost = 0 then h2 else bump h2 aDV_XQ fDV_XQ_XDISC lost
    { h3 with arr.xq := h3.arr.xq.filter (fun x => !(touchesYard code x.key)),
              arr.xout := h3.arr.xout.filter fun e => !(touchesYard code e.1) }
  else if code = 0x18 ∨ code = 0x19 then linkDown h2 (code - 0x18)
  else if 0x1C ≤ code ∧ code < 0x20 then
    let c := code - 0x1C
    setDramCh h2 c { dramCh h2 c with selfRefresh := true }
  else h2

/-- A register belongs to a domain. -/
def domainOwns (code a : Nat) : Bool :=
  match locate a with
  | some (.pen, n, _) => n / 8 == code
  | some (.fu, g, _) => g / 128 == code
  | some (.sch, y, _) => y == code
  | some (.jl, j, _) => 0x10 + j == code
  | some (.eth, m, _) => 0x14 + m == code
  | some (.ethp, i, _) => 0x14 + i / 4 == code
  | some (.lk, p, _) => 0x18 + p == code
  | some (.ch, _, _) => code == 0x18
  | some (.tf, _, _) => code == 0x1A
  | some (.gs, _, _) => code == 0x1B
  | some (.dc, c, _) => 0x1C + c == code
  | some (.tu, _, _) => code == 0x20
  | _ => false

/-- A register after a domain reset: RW fields kept, the others at their reset values (R463). -/
def afterReset (a : Nat) (old : BitVec 64) : BitVec 64 :=
  (fieldsOf a).foldl (fun v f => if f.acc = .rw then BitVec.ofNat 64 (putField f v.toNat (fieldOf f old.toNat)) else v)
    (resetAt a)

/-- The requests that an endpoint in reset had sent or not yet sent are given up with their credits. -/
def dropRequests (h : Hw) (r : Nat) : Hw :=
  { h with noc.queued := setD [] h.noc.queued r [], noc.out := setD [] h.noc.out r [] }

/-- Requests that wait at an endpoint in reset are answered FAULT (R464). -/
def refuseWaiting (h : Hw) (qs : List DmaReq) : Hw := applyAll (fun h q => refuseClosed h q.kind q.f) h qs

/-- The translation unit in reset answers what waits in it with FAULT: requests for a walk, and requests of which a part
is not answered (R463, R464). (DEDUCED, log 204) -/
def resetXlat (h : Hw) : Hw :=
  let h1 := refuseWaiting { h with noc.walks := [], noc.cache := [] } h.noc.walks
  let h2 := applyAll (fun h e => match e.2.asker with
    | .tu op f _ => refuseClosed { h with noc.wholes := removeAt h.noc.wholes e.1 } op f
    | .host _ _ => h) h1 h1.noc.wholes
  setF (dropRequests h2 17) aTU_CTL fTU_CTL_EN 0

/-- A lead port in reset answers with FAULT the requests for other devices that wait in it (R464). -/
def resetLead (h : Hw) (port : Nat) : Hw :=
  let r := if port = 0 then 24 else 31
  let here (q : DmaReq) : Bool := q.f.dst.val == r
  dropRequests (refuseWaiting { h with noc.leads := h.noc.leads.filter fun q => !(here q) } (h.noc.leads.filter here)) r

/-- The outstanding requests of this device to others end: those of the network with FAULT (R464). (DEDUCED, log 204) -/
def endOutstanding (h : Hw) : Hw :=
  applyAll (fun h e => match e.2.req with
    | some f => refuseClosed { h with chain.out := removeAt h.chain.out e.1 } e.2.op f
    | none => h) h h.chain.out

/-- What waited for a memory controller is taken up once its reset has ended (R463). -/
def serveHeld (m : Sparse Byte) (h : Hw) (c : Nat) : Sparse Byte × Hw :=
  (getD [] h.noc.held c).foldl (fun s r => dispatchAny s.1 s.2 r.1.kind r.1.f r.2)
    (m, { h with noc.held := setD [] h.noc.held c [] })

/-- A yard's state after its reset: banks empty, tasks IDLE, troughs restarted, memories kept (R463). (DEDUCED, log 150) -/
def resetYard (h : Hw) (y : Nat) : Hw :=
  let pens := (List.range 8).map fun p => 8 * y + p
  let h1 := applyAll (fun h n =>
    let h1 := refuseWaiting h ((pen h n).dmaTrough ++ (pen h n).dmaOther)
    let h2 := setPen h1 n { Pen.reset with locks := (pen h n).locks }
    applyAll (fun h c => setSaved h n c 0) h2 (List.range 16)) h pens
  let h2 := { refuseWaiting h1 (getD [] h1.loftDma y) with loftDma := setD [] h1.loftDma y [] }
  let h3 := { h2 with
    arr.fus := h2.arr.fus.filter (fun e => e.1 / 128 != y)
    arr.flights := h2.arr.flights.filter (fun f => f.g / 128 != y)
    arr.tracks := h2.arr.tracks.filter (fun e => e.1 / 1536 != y) }
  let h4 := setSched { h3 with arr.mucks := setD Muck.reset h3.arr.mucks y Muck.reset } y Sched.reset
  let h5 := applyAll (fun h i =>
    let key := 64 * y + i
    if isSet h (aCfg key) fTRG_CFG_EN then restartTrough h key else h) h4 (List.range 64)
  dropRequests (showActive h5) (yardRouter y)

/-- What a domain's reset clears (R463). (DEDUCED, log 61, 149) -/
def domainClear (h : Hw) (code : Nat) : Hw :=
  let h1 := applyAll (fun h e => if domainOwns code e.1 then setReg h e.1 (afterReset e.1 e.2) else h) h h.regs
  if code < 0x10 then resetYard h1 code
  else if code < 0x14 then
    let j := code - 0x10
    dropRequests (setJdir (setJdir h1 (2 * j) JDir.reset) (2 * j + 1) JDir.reset) (jesdRouter j)
  else if code < 0x18 then
    let m := code - 0x14
    let e := h1.eth
    dropRequests { h1 with eth := { e with
      rxSeq := e.rxSeq.filter (fun x => x.1 / 64 != m)
      txSeq := e.txSeq.filter (fun x => x.1 / 64 != m)
      fifo := e.fifo.filter (fun x => x.1 / 4 != m)
      sent := e.sent.filter (fun x => x.1 / 4 != m) } } (macRouter m)
  else if code = 0x18 then
    let h1 := endOutstanding (resetLead h1 0)
    let h2 := { setLinkSt h1 0 LinkSt.reset with
      chain := { Chain.reset with links := setD LinkSt.reset h1.chain.links 0 LinkSt.reset } }
    let h3 := setF h2 aCH_ID fCH_ID_DEV0 (getF h2 aDV_BOOT fDV_BOOT_HOSTPORT)
    if isDev0 h3 then raiseBit h3 aCH_ID fCH_ID_AVLD else h3
  else if code = 0x19 then setLinkSt (resetLead h1 1) 1 LinkSt.reset
  else if code = 0x1A then { h1 with fab := Fab.reset, cap := none }
  else if code = 0x1B then { h1 with gates := [] }
  else if code < 0x20 then setDramCh h1 (code - 0x1C) DramCh.reset
  else resetXlat h1

/-- The oldest domain in reset ends it and asks for its crossings to reopen (R463, R466). -/
def domainEnd (h : Hw) : Hw :=
  match h.inDom with
  | [] => h
  | code :: rest => if frozen h then h else domainClear { h with inDom := rest } code

/-- The surviving side of a domain's crossings runs (R466). -/
def survivorRuns (h : Hw) (code : Nat) : Bool :=
  !(frozen h) && (16 ≤ code || (neighbours code).all fun y => yardRuns h y)

/-- The crossings of a domain reopen at an edge with a ≡ 0 mod 4, after the words left in the surviving half are
discarded and counted; what waited for a memory controller is taken up (R463, R464, R466). (DEDUCED, log 153) -/
def reopen (m : Sparse Byte) (h : Hw) (code discard : Nat) : Sparse Byte × Hw :=
  if ¬ h.quarantined.getLsbD code ∨ h.inDom.contains code ∨ ¬ survivorRuns h code ∨ h.aclk % 4 ≠ 0 then (m, h)
  else
    let h1 := if discard = 0 then h else bump h aDV_XQ fDV_XQ_XDISC discard
    let h2 := countQuarantine { h1 with quarantined := h1.quarantined &&& ~~~(BitVec.ofNat 64 (2 ^ code)) }
    if 0x1C ≤ code ∧ code < 0x20 then serveHeld m h2 (code - 0x1C) else (m, h2)

/-! ## Recovery and device states (R467 to R469) -/

/-- The device returns to RUN, or enters ISOLATED where `CH_PART.ISOL` is 1 (Table 19.6). -/
def returnToRun (h : Hw) : Hw :=
  if isSet h aCH_PART fCH_PART_ISOL then queueSummaries (applyPolicy (setMode h .isolated)) else setMode h .run

/-- The recovery action of an alarm (R468): a faulted rail restarts, a yard's with the yard reset; a relock, a
firmware restart and logging leave nothing else. (DEDUCED, log 154) -/
def recoveryAction (h : Hw) (code : Nat) : Hw :=
  if code = 0x008 then
    let r := getF h aPW_STAT fPW_STAT_FLTRAIL
    let h1 := setF h (aPW_RAIL r) fPW_RAIL_OK 1
    if r < 16 then domainClear h1 r else h1
  else h

/-- The recovery action ends. `present`: a FATAL condition remains; `failed`: functions that do not start. -/
def recoveryEnd (m : Sparse Byte) (h : Hw) (present : Bool) (failed : List Nat) : Sparse Byte × Hw :=
  match h.recovering with
  | none => (m, h)
  | some code =>
    if h.mode = .frozen then (m, h)
    else
      let h1 := recoveryAction h code
      if present then (m, h1)
      else
        let h2 := { h1 with recovering := none }
        if h2.mode ≠ .recovery ∨ ¬ isSet h2 aDV_CTL fDV_CTL_AUTORUN then (m, h2)
        else
          let r := startAll m { h2 with recorded := [] } (h2.recorded.filter fun id => !(failed.contains id)) 4
          (r.1.1, returnToRun r.1.2)

/-- `STATE_SET` 1: into TEST from RUN, with every port function STOPPED. -/
def testAllowed (h : Hw) : Bool :=
  h.mode == .run && allFns.all fun id => !((id / 256 == 1 || id / 256 == 2) && fnRunning h id)

/-- `STATE_SET` 2: back to RUN from TEST, or from RECOVERY once its action has ended. -/
def runAllowed (h : Hw) : Bool := h.mode == .test || (h.mode == .recovery && h.recovering.isNone)

end Sys2Proof.Machine
end

