-- ==== Sys2Proof/Machine/Loader.lean ====
section
/-!
DEFINITION. What image, firmware and key commands do over time, and how RUNNING commands end (R202, R356, R371,
R373, R374, R379 to R387, R467).
-/

namespace Sys2Proof.Machine

/-! ## Bodies of commands -/

/-- A field check that depends on nothing. -/
abbrev anyFields : Slot → Hw → Bool := fun _ _ => true

/-- A command that only reads: its payload, and the state after the reads. -/
def answers (f : Slot → Hw → List Byte × Hw) : Slot → State → State × Reply :=
  fun x s => ({ s with hw := (f x s.hw).2 }, .done stOk (f x s.hw).1)

/-- A command that acts at once and has no payload: the state and the status. -/
def acts (f : Slot → Hw → Hw × Nat) : Slot → State → State × Reply :=
  fun x s => ({ s with hw := (f x s.hw).1 }, .done (f x s.hw).2 [])

/-- The same with the byte memories. -/
def actsMem (f : Slot → Sparse Byte → Hw → (Sparse Byte × Hw) × Nat) : Slot → State → State × Reply :=
  fun x s =>
    let r := f x s.mem s.hw
    ({ s with mem := r.1.1, hw := r.1.2 }, .done r.2 [])

/-- A signed field of n bytes. -/
def paySigned (x : Slot) (o n : Nat) : Int := signed (8 * n) (pay x o n)

/-- The registers at addresses, 8 bytes each, read in order. -/
def readRegs (h : Hw) (addrs : List Nat) : List Byte × Hw :=
  addrs.foldl (fun (s : List Byte × Hw) a =>
    let r := readReg s.2 a
    (s.1 ++ leBytes 8 r.1.toNat, r.2)) ([], h)

/-- The records of a request: address, mask, value. -/
def recordsOf (x : Slot) : List (Nat × Nat × Nat) :=
  (List.range ((x.pay.length - 8) / 24)).map fun k => (pay x (8 + 24 * k) 8, pay x (16 + 24 * k) 8, pay x (24 + 24 * k) 8)

/-! ## Staging (R379 to R381) -/

/-- Bytes of this device's memories or configuration store, none elsewhere. -/
def readLocal (m : Sparse Byte) (h : Hw) (a n : Nat) : Option (List Byte × Hw) :=
  match regionOf h a n with
  | .dram => some (dramRead m h a n [])
  | .slots => some (readSlots m h a n .ok)
  | .store => some (readBytes m a n, h)
  | _ => none

/-- The image at a chain-global source address: read on this device, or as another device returned it. `ok` says
that no read failed. None where a read fails. -/
def sourceBytes (m : Sparse Byte) (h : Hw) (src len : Nat) (ok : Bool) (remote : List Byte) : Option (List Byte) × Hw :=
  let a := src % 2 ^ 40
  if ¬ ok ∨ 2 ^ 46 ≤ src then (none, h)
  else if src / 2 ^ 40 = selfAddr h then
    match readLocal m h a len with
    | some r => (some r.1, r.2)
    | none => (none, h)
  else if remote.length = len then (some remote, h)
  else (none, h)

/-- A load uses the staging area. -/
def loading (h : Hw) : Bool := h.load.isSome || h.fwLoad.isSome

/-- `IMAGE_LOAD` starts: the image is staged (R379 to R381). (DEDUCED, log 137) -/
def loadStart (sl : Nat) (stageOk : Bool) (remote : List Byte) (x : Slot) (s : State) : State × Reply :=
  let h := s.hw
  let len := pay x 8 4
  let mode := pay x 12 1
  let yards := if h.dramGib = 0 then stagingLofts h len else some []
  match yards with
  | none => (s, .done stInvalid [])
  | some ys =>
    if loading h then (s, .done stWrong [])
    else
      let b := sourceBytes s.mem h (pay x 0 8) len stageOk remote
      match b.1 with
      | none => ({ s with hw := b.2 }, .done stHwFault [])
      | some bytes =>
        let w := freshNat b.2
        let base := if h.dramGib = 0 then none else some (stagingBase h)
        let l : Load := ⟨sl, len, mode, .staged, [], base, ys⟩
        let m := match base with
          | some a => writeBytes s.mem a bytes
          | none => stageLofts s.mem (BitVec.ofNat 8 w.1) ys bytes
        ({ s with mem := m, hw := { w.2 with load := some l, staging := true } }, .running (tableTotal x))

/-- The load ends with a status and a payload. -/
def loadEnd (h : Hw) (sl status : Nat) (resp : List Byte) : Hw :=
  endRunning { h with load := none, staging := false } sl status resp

/-- The payload of a load that ends with OK (Table 14.10). -/
def loadPayload (digest img : List Byte) : List Byte :=
  digest ++ leBytes 1 (imKind img) ++ leBytes 1 (imSlot img) ++ List.replicate 6 0

/-- The load whose slot runs on this device and is not aborted, in a phase. -/
def loadAt (h : Hw) (sl : Nat) (ph : LoadPhase) : Option Load :=
  match h.load with
  | some l => if l.sl = sl ∧ l.phase = ph ∧ fwRuns h ∧ (slot h sl).st = .running ∧ ¬ (slot h sl).abort then some l else none
  | none => none

/-- Bytes that firmware writes over a body whose GCM tag failed: the spec does not give them. -/
def freeBytes (h : Hw) (n : Nat) : List Byte × Hw :=
  ((List.range n).map fun i => BitVec.ofNat 8 (Config.freeNat (h.free + i)), { h with free := h.free + n })

/-- The check that fails, 0 for none, after steps 1 to 7: step 8 looks at what is in use in mode 0 (Table 15.7). -/
def checkStep (h : Hw) (l : Load) (r : Nat × List Byte) : Nat :=
  if r.1 = 0 ∧ l.mode = 0 ∧ ¬ parkedAll h r.2 then 8 else r.1

/-- The staged image is checked (R371, R382): the first failure ends the load; mode 2 ends here; else it waits for
its application with the body decrypted in place. (DEDUCED, log 138) -/
def loadCheck (s : State) (sl : Nat) : State :=
  match loadAt s.hw sl .staged with
  | none => s
  | some l =>
    let img := stagedBytes s.mem l
    let r := checkImage s.nv s.mem s.hw img l.len l.yards false
    let step := checkStep s.hw l r
    if step ≠ 0 then
      let wipe := r.1 = 5 ∧ imEnc img ∧ s.nv.aesOk
      let b := freeBytes s.hw (if wipe then l.len - 608 else 0)
      let m := if wipe then restage s.mem l 512 b.1 else if 5 < r.1 then restage s.mem l 0 r.2 else s.mem
      { s with mem := m, hw := loadEnd (rejectImage b.2 step) sl (stepStatus step) [] }
    else
      let t := { s with mem := restage s.mem l 0 r.2 }
      if l.mode = 2 then { t with hw := loadEnd t.hw sl stOk (loadPayload (imDigest img) img) }
      else { t with hw := { t.hw with load := some { l with phase := .checked, digest := imDigest img } } }

/-- The end of START-UP (Table 19.6): RUN, the muck-out engines enabled, every yard to be re-planned. -/
def endStartUp (h : Hw) : Hw :=
  let h1 := setF (setMode h .run) aMO_CTL fMO_CTL_EN 1
  applyAll (fun h y => setYardAge h y { yardAge h y with owed := true }) h1 (List.range 16)

/-- The checked image is applied (R383, R385, R467). -/
def loadApply (s : State) (sl : Nat) (fails : Option Nat) : State :=
  match loadAt s.hw sl .checked with
  | none => s
  | some l =>
    let img := stagedBytes s.mem l
    let r := applyImage s.mem s.hw img l.mode fails
    let h := r.1.2
    let h1 := if h.mode = .startUp ∧ r.2.1 = stOk ∧ r.2.2 ∧ endsStartUp img then endStartUp h else h
    { s with mem := r.1.1, hw := loadEnd h1 sl r.2.1 (if r.2.1 = stOk then loadPayload l.digest img else []) }

/-! ## Firmware store (R386, R455) -/

/-- `FW_STORE` starts: the image is staged. -/
def fwStart (sl : Nat) (stageOk : Bool) (remote : List Byte) (x : Slot) (s : State) : State × Reply :=
  if loading s.hw then (s, .done stWrong [])
  else
    let b := sourceBytes s.mem s.hw (pay x 0 8) (pay x 8 4) stageOk remote
    match b.1 with
    | none => ({ s with hw := b.2 }, .done stHwFault [])
    | some bytes => ({ s with hw := { b.2 with fwLoad := some ⟨sl, bytes⟩ } }, .running (tableTotal x))

/-- The image is authenticated and written to the copy that did not boot. -/
def fwEnd (s : State) (sl : Nat) : State :=
  match s.hw.fwLoad with
  | none => s
  | some l =>
    if l.sl ≠ sl then s
    else
      let h := { s.hw with fwLoad := none }
      let step := (checkImage s.nv s.mem h l.bytes l.bytes.length [] true).1
      if step ≠ 0 then { s with hw := endRunning (rejectImage h step) sl (stepStatus step) [] }
      else
        let base := copyBase (getF h aDV_BOOT fDV_BOOT_COPY = 0)
        let fl := programFlash (eraseFlash s.nv.flash base 0x100000) base l.bytes
        { s with nv := { s.nv with flash := fl }, hw := endRunning h sl stOk [] }

/-! ## Keys (R373, R374) -/

/-- Bits of a value not yet blown, and the bit that ends the programming. (DEDUCED, log 118) -/
def fuseTotal (w blown value : Nat) : Nat := popCount w (value &&& (2 ^ w - 1 - blown)) + 1

/-- Key bits blown: all and the last bit, or, where one does not program, some; a value that needs a blown bit to
read 0 blows nothing. (DEDUCED, log 144) -/
def blowBits {w : Nat} (old value : BitVec w) (ok : Bool) (open_ : Nat) : BitVec w × Bool :=
  if old &&& ~~~value ≠ 0 then (old, false)
  else if ok then (value, true)
  else (old ||| (value &&& BitVec.ofNat w open_), false)

/-- The fuses of an owner slot. -/
def keySlot (nv : Nv) (k : Nat) : KeySlot := if k = 1 then nv.slot1 else nv.slot2
def setKeySlot (nv : Nv) (k : Nat) (x : KeySlot) : Nv := if k = 1 then { nv with slot1 := x } else { nv with slot2 := x }

/-- Both firmware copies name the revocation bit. -/
def namedByBoth (nv : Nv) (bit : Nat) : Bool :=
  [false, true].all fun b => (flashByte nv.flash (copyBase b + 0x00D)).toNat == bit

/-- A key command succeeded: what it was to blow reads back. -/
def keyDone (nv : Nv) (x : Slot) : Bool :=
  match x.opc with
  | 0x302 => (keySlot nv (pay x 0 1)).prov
  | 0x303 => nv.revoked.getLsbD (pay x 0 1)
  | _ => nv.aesOk

/-! ## The end of a RUNNING command (R202, R351, R356, R387) -/

/-- The first readback chunk that differs from its reference, as its window offset. -/
def firstDiff (m : Sparse Byte) (refs : List (List Byte)) : Option Nat :=
  ((List.zip chunkOffsets (List.zip refs (chunkDigests m))).find? fun e => e.2.1 != e.2.2).map (·.1)

/-- The payload of `IMAGE_VERIFY`; before any application there is no reference, and the result is open.
(DESIGN CHOICE, log 143) -/
def verifyPayload (m : Sparse Byte) (h : Hw) : List Byte × Hw :=
  match h.refs with
  | some refs =>
    (match firstDiff m refs with
     | some o => leBytes 4 1 ++ leBytes 4 o
     | none => leBytes 8 0, h)
  | none =>
    let a := freshNat h
    let b := freshNat a.2
    (leBytes 4 (a.1 % 2) ++ leBytes 4 b.1, b.2)

/-- Findings of a `MEM_TEST` since it began. -/
def memTestPayload (h : Hw) (t : MemTest) : List Byte :=
  let d (f : Fld) (was : Nat) := leBytes 2 (getF h aMO_FIND f - was)
  d fMO_FIND_CE t.ce ++ d fMO_FIND_PSN t.psn ++ d fMO_FIND_RPR t.rpr ++ d fMO_FIND_DEGR t.degr

/-- `ROLL_CALL`'s payload. -/
def rollPayload (h : Hw) : List Byte :=
  leBytes 1 (getF h aCH_ID fCH_ID_COUNT) ++ leBytes 1 (getF h aCH_ID fCH_ID_RING + 2 * getF h aCH_ID fCH_ID_OVER) ++
    List.replicate 6 0

/-- The part of a RUNNING command on this device has come to its end, with status and payload; none while it
has not. -/
def longResult (s : State) (x : Slot) : Option (State × Nat × List Byte) :=
  let h := s.hw
  match x.opc with
  | 0x102 =>
    let code := pay x 0 1
    if h.inDom.contains code ∨ h.quarantined.getLsbD code then none else some (s, stOk, [])
  | 0x201 => if h.chain.rolling then none else some (s, stOk, rollPayload h)
  | 0x301 =>
    let p := verifyPayload s.mem h
    some ({ s with hw := p.2 }, stOk, p.1)
  | 0x302 | 0x303 | 0x304 => some (s, if keyDone s.nv x then stOk else stHwFault, [])
  | 0x801 =>
    (match h.memTest with
     | none => none
     | some t => if t.left.isEmpty then some ({ s with hw := { h with memTest := none } }, stOk, memTestPayload h t) else none)
  | 0x904 =>
    if (yardsOf (pay x 0 2)).any fun y => yardRuns h y && (yardAge h y).owed then none else some (s, stOk, [])
  | 0xA10 => some ({ s with hw := frozenReadout s.mem h }, stOk, [])
  | _ => none

/-- A RUNNING command that an abort stops at its safe point; none where it cannot stop yet or ignores the
abort (R356). -/
def abortResult (h : Hw) (sl : Nat) (x : Slot) : Option Hw :=
  match x.opc with
  | 0x300 => if h.load.any fun l => l.sl == sl then some { h with load := none, staging := false } else none
  | 0x301 => some h
  | 0x306 => some { h with fwLoad := none }
  | 0x801 =>
    (match h.memTest with
     | some t => if t.left.any fun e => (muck h e.1).holding then none else some { h with memTest := none }
     | none => none)
  | 0x904 =>
    some (applyAll (fun h y => if yardRuns h y then setYardAge h y { yardAge h y with owed := false } else h) h
      (yardsOf (pay x 0 2)))
  | _ => none

/-- A hardware step of a RUNNING command failed: what it held is given up. -/
def faultCleanup (h : Hw) (x : Slot) : Hw :=
  match x.opc with
  | 0x300 => { h with load := none, staging := false }
  | 0x306 => { h with fwLoad := none }
  | 0x801 => { h with memTest := none }
  | _ => h

/-- A roll call's `TOTAL` is the count at DONE (Table 14.8). -/
def rollTotal (h : Hw) (sl : Nat) : Hw :=
  let x := slot h sl
  if x.opc = 0x201 then setSlot h sl { x with total := getF h aCH_ID fCH_ID_COUNT } else h

/-- A RUNNING long command ends on this device (R351): by an abort at its safe point, by a hardware fault, or with
its result. -/
def longComplete (s : State) (sl : Nat) (hwFault : Bool) : State :=
  let h := s.hw
  let x := slot h sl
  let here := (16 ≤ sl ∧ sl < 32) ∨ x.tgt = selfAddr h ∨ x.left.testBit (selfAddr h)
  if x.st ≠ .running ∨ ¬ here ∨ ¬ mpRuns h x.opc then s
  else
    match (if x.abort then abortResult h sl x else none) with
    | some h1 => { s with hw := endRunning h1 sl stAborted [] }
    | none =>
      if hwFault then { s with hw := endRunning (faultCleanup h x) sl stHwFault [] }
      else if x.opc = 0x306 then fwEnd s sl
      else
        match longResult s x with
        | none => s
        | some (t, st, resp) => onHw t fun h => endRunning (rollTotal h sl) sl st resp

end Sys2Proof.Machine
end

