-- ==== Sys2Proof/Machine/HostCmds.lean ====
section
/-!
DEFINITION. The meanings of the host's accesses, of the mailbox slots and of the chain packets that carry requests, answers
and firmware (R26 to R31, R113, R262 to R264, R279, R347 to R359).
-/

namespace Sys2Proof.Machine

/-! ## Registers and BAR2 -/

/-- An address of the configuration store, but for its reserved part (Table 1.6). -/
def inStore (a : Nat) : Bool :=
  decide (0x1004000000 ≤ a ∧ a < 0x1004280000) || decide (blockAddr 0 ≤ a ∧ a < blockAddr 256)

/-- A diagnostic write of 8 or 4 bytes at an address: what holds no register, or not so aligned, is discarded and
counted, as is any but a BAR0 register while FROZEN; one of the configuration store writes it (R13, R26, R30, R31, R334,
R445). (DEDUCED, log 105) -/
def diagWrite (m : Sparse Byte) (h : Hw) (a : Nat) (wide : Bool) (v : BitVec 64) : Sparse Byte × Hw :=
  if ¬ h.clocked then (m, h)
  else if h.mode ≠ .frozen ∧ inStore a ∧ a % (if wide then 8 else 4) = 0 then
    writeStore m h a (leBytes (if wide then 8 else 4) v.toNat)
  else if (h.mode = .frozen ∧ a < bar0Base) ∨ ¬ regExists (a / 8 * 8) ∨ a % (if wide then 8 else 4) ≠ 0 then
    (m, hostDrop h)
  else if a / 8 * 8 = aHI_ABORT then
    (m, if a % 8 = 0 then abortSlots h (if wide then v.toNat else v.toNat % 2 ^ 32) else h)
  else writeWide m h a wide v

/-- `DIAGNOSTIC_REGISTER_WRITE` (R26): A write to a register that has no row of its own, through BAR2 or a
diagnostic command, acts as its access type states. -/
def execDiagnosticRegisterWrite (addr : BitVec 41) (wide : Bool) (v : BitVec 64) (s : State) :
    Host.Outcome State Fault Refusal :=
  .next (onMem s (fun m h => diagWrite m h addr.toNat wide v))

/-- Counts cleared by the WO bit of a register (R113). -/
def countClear (h : Hw) (a : Nat) : Hw :=
  if ¬ h.clocked then h
  else if h.mode = .frozen ∧ a < bar0Base then hostDrop h
  else clearCounts h a

/-- `COUNT_CLEAR` (R113): Writing 1 to a WO CLR or CLRCNT bit clears the counts that the bit names. -/
def execCountClear (addr : BitVec 41) (s : State) : Host.Outcome State Fault Refusal :=
  .next (onHw s (fun h => countClear h addr.toNat))

/-- `HOST_BAR2_ACCESS` (R29): A host read or write through BAR2 is steered by its APn register to a device
and local address and served there. -/
def execHostBar2Access (a : Bar2) (s : State) : Host.Outcome State Fault Refusal :=
  .next (onHw s (fun h => hostBar2 s.mem h a))

/-! ## Chain packets -/

/-- A chain packet arrives with the command or the answer that it carries; `act` is what it does where it is
delivered. -/
def onCarrier (h : Hw) (port : Nat) (c : CPkt) (crcOk : Bool) (act : Hw → Hw) : Hw :=
  let r := rxPacket h port c crcOk
  if r.1 then act r.2 else r.2

/-- `REQ` (R263): A chain REQ arrives and is issued on the NoC or passed through. -/
def execReq (port : Fin 2) (p : Pkt) (crcOk : Bool) (cmd : Option FwdCmd) (s : State) :
    Host.Outcome State Fault Refusal :=
  .next (onHw s (fun h => onCarrier h port.val ⟨1, p, cmd, none, false⟩ crcOk fun h =>
    match cmd with
    | some c => takeCmd h p c
    | none => takeReq h port.val p))

/-- `RSP` (R263): A chain RSP arrives and is delivered to its response buffer, or discarded if late. -/
def execRsp (port : Fin 2) (p : Pkt) (crcOk : Bool) (ans : Option FwdAns) (s : State) :
    Host.Outcome State Fault Refusal :=
  .next (onHw s (fun h => onCarrier h port.val ⟨2, p, none, ans, false⟩ crcOk fun h =>
    match ans with
    | some f => takeAns h p.sdev.toNat f
    | none => takeRspAny h port.val p))

/-- `FW` (R279): FW packets carry firmware bytes that listening devices store, relay and then authenticate. -/
def execFw (port : Fin 2) (p : Pkt) (crcOk : Bool) (check : Option FwCheck) (s : State) :
    Host.Outcome State Fault Refusal :=
  .next (onHw s (fun h => onCarrier h port.val ⟨0xE, p, none, none, false⟩ crcOk fun h =>
    let h1 := takeFw h port.val (p.arg.toNat % 2 ^ 32) p.words
    if port.val = 0 ∧ fwWhole h1 (p.arg.toNat % 2 ^ 32) p.words then
      fwReceived h1 (check.getD (checkFirmware s.nv s.mem h1 (fwImage h1) (fwLength h1)))
    else h1))

/-! ## PCIe resets and mailbox slots -/

/-- `PERST_N` (R347): PERST_N resets the endpoint, BAR0, apertures and mailboxes. -/
def execPerstN (level : Bool) (s : State) : Host.Outcome State Fault Refusal :=
  .next (onHw s (fun h => if h.clocked then perst h level else h))

/-- `FUNCTION_LEVEL_RESET` (R347): A Function Level Reset resets the endpoint, BAR0, apertures and
mailboxes. -/
def execFunctionLevelReset (s : State) : Host.Outcome State Fault Refusal :=
  .next (onHw s (fun h => if h.clocked then pcieReset h else h))

/-- `MAILBOX_REQUEST_WRITE` (R352): A write to a slot is accepted while FREE, else discarded with MBWR. -/
def execMailboxRequestWrite (off : BitVec 14) (bytes : List (BitVec 8)) (s : State) :
    Host.Outcome State Fault Refusal :=
  .next (onHw s (fun h => mailboxWrite h off.toNat bytes))

/-- `HI_DBELL` (R351): Writing a doorbell bit posts its FREE slot, else sets DBERR. -/
def execHiDbell (v : BitVec 64) (s : State) : Host.Outcome State Fault Refusal :=
  .next (onMem s (fun m h => busWrite m h aHI_DBELL v))

/-- `SLOT_TAKEN` (R353): Firmware takes a POSTED slot and checks the command in order. -/
def execSlotTaken (sl : Fin 48) (uce : Bool) (s : State) : Host.Outcome State Fault Refusal :=
  .next (onHw s (fun h => takeSlot h sl.val uce))

/-- `FORWARD_TIMEOUT` (R359): A forwarded command with no answer in 100 ms completes NO_TARGET. -/
def execForwardTimeout (sl : Fin 48) (s : State) : Host.Outcome State Fault Refusal :=
  .next (onHw s (fun h => forwardTimeout h sl.val))

/-- `LONG_COMMAND_COMPLETE` (R351): A RUNNING long command ends and its slot becomes DONE with the final
status. -/
def execLongCommandComplete (sl : Fin 48) (hwFault : Bool) (s : State) : Host.Outcome State Fault Refusal :=
  .next (longComplete s sl.val hwFault)

/-- `PROGRESS_UPDATE` (R357): While RUNNING, PROGRESS, POSITION and TOTAL are updated at least every 10 ms. -/
def execProgressUpdate (sl : Fin 48) (pos : BitVec 64) (total : BitVec 64) (s : State) :
    Host.Outcome State Fault Refusal :=
  .next (onHw s (fun h => progressUpdate h sl.val pos.toNat total.toNat))

/-- `HI_DONE_CLEAR` (R351): Writing 1 to a DONE slot's HI_DONE bit frees the slot. -/
def execHiDoneClear (v : BitVec 64) (s : State) : Host.Outcome State Fault Refusal :=
  .next (onMem s (fun m h => busWrite m h aHI_DONE v))

/-- `HI_ABORT` (R356): Writing HI_ABORT asks for a slot to be aborted. -/
def execHiAbort (v : BitVec 64) (s : State) : Host.Outcome State Fault Refusal :=
  .next (onHw s (fun h => abortSlots h v.toNat))

end Sys2Proof.Machine
end

