-- ==== Sys2Proof/Machine/MailboxDevice.lean ====
section
/-!
DEFINITION. The meanings of the device, chain, image and key commands (Table 14.10).
-/

namespace Sys2Proof.Machine

/-! ## Device -/

/-- Firmware came from the device's own flash. -/
def ownFlash (h : Hw) : Bool :=
  bootSel h == 0 || (bootSel h == 2 && !(isSet h aDV_BOOT fDV_BOOT_AFAIL && isSet h aDV_BOOT fDV_BOOT_BFAIL))

/-- `DEV_INFO`'s payload; the spec gives no version numbers. (DESIGN CHOICE, log 121) -/
def devInfoPayload (_ : Slot) (h : Hw) : List Byte × Hw :=
  let fw := freshNat h
  let rom := freshNat fw.2
  let flags := (h.dramGib != 0).toNat + 2 * (isDev0 h).toNat + 4 * (ownFlash h).toNat
  (leBytes 8 (reg h aHI_ID).toNat ++ leBytes 8 (reg h (aHI_UID 0)).toNat ++ leBytes 8 (reg h (aHI_UID 1)).toNat ++
    leBytes 4 fw.1 ++ leBytes 4 rom.1 ++ leBytes 1 (stateCode h.mode) ++ leBytes 1 (recDevice h) ++ leBytes 2 flags ++
    leBytes 2 (4 * h.dramGib) ++ leBytes 2 0, rom.2)

/-- `DEV_INFO` (R366): The command returns identity, versions, state and DRAM size. -/
def execDevInfo (sl : Fin 48) (s : State) : Host.Outcome State Fault Refusal :=
  .next (command 0x100 s sl.val anyFields (answers devInfoPayload))

/-- Codes of a class with an occurrence since they were cleared. (DEDUCED, log 122) -/
def activeCodes (h : Hw) (cls : Nat) : Nat :=
  h.obs.alarms.countP fun e => alarmClass e.1 == some cls && e.2.raised

/-- `HEALTH`'s payload: measured supply, power and temperatures are open. -/
def healthPayload (_ : Slot) (h : Hw) : List Byte × Hw :=
  let tj (y : Nat) : Int := signed 13 (Config.freeNat (h.free + y) % 2 ^ 13)
  let x (k : Nat) : Nat := Config.freeNat (h.free + 16 + k)
  let top := (List.range 16).foldl (fun acc y => max acc (tj y)) (tj 0)
  let two (t : Int) := leBytes 2 (rawOf 16 t)
  (leBytes 2 (x 0) ++ leBytes 2 (x 1) ++ leBytes 4 (x 2) ++ two top ++ leBytes 2 0 ++
    ((List.range 4).flatMap fun c => leBytes 2 (activeCodes h c)) ++ leBytes 4 (h.aclk / 1228800000) ++
    ((List.range 16).flatMap fun y => two (tj y)), { h with free := h.free + 19 })

/-- `HEALTH` (R366): The command returns supply, power, temperatures and active alarms. -/
def execHealth (sl : Fin 48) (s : State) : Host.Outcome State Fault Refusal :=
  .next (command 0x101 s sl.val anyFields (answers healthPayload))

/-- `DOMAIN_RESET` (R462): The command resets one domain while the rest of the device runs. -/
def execDomainReset (sl : Fin 48) (s : State) : Host.Outcome State Fault Refusal :=
  .next (command 0x102 s sl.val (fun x _ => pay x 0 1 ≤ 0x20) (fun x s =>
    let code := pay x 0 1
    if domainFree s.hw code then (onHw s fun h => domainBegin h code, .running 1) else (s, .done stWrong [])))

/-- `DOMAIN_RESET_END` (R463): The domain's reset ends, clearing its counts and status, and it requests
reopening. -/
def execDomainResetEnd (s : State) : Host.Outcome State Fault Refusal :=
  .next (onHw s (fun h => domainEnd h))

/-- `CROSSING_REOPEN` (R466): A quarantined crossing reopens by handshake at an edge multiple of 4. -/
def execCrossingReopen (code : BitVec 8) (discard : Nat) (s : State) : Host.Outcome State Fault Refusal :=
  .next (onMem s (fun m h => reopen m h code.toNat discard))

/-- `STATE_SET` (R467): The command enters TEST or returns to RUN when permitted. -/
def execStateSet (sl : Fin 48) (s : State) : Host.Outcome State Fault Refusal :=
  .next (command 0x103 s sl.val (fun x _ => pay x 0 1 == 1 || pay x 0 1 == 2) (acts fun x h =>
    if pay x 0 1 = 1 then (if testAllowed h then (setMode h .test, stOk) else (h, stWrong))
    else if runAllowed h then (returnToRun h, stOk) else (h, stWrong)))

/-! ## Chain -/

/-- `CHAIN_INFO` (R366): The command returns CH_ID, CH_REACH, CH_DIR and CH_PART. -/
def execChainInfo (sl : Fin 48) (s : State) : Host.Outcome State Fault Refusal :=
  .next (command 0x200 s sl.val anyFields (answers fun _ h => readRegs h [aCH_ID, aCH_REACH, aCH_DIR, aCH_PART]))

/-- `ROLL_CALL` (R256): The command runs roll call from device 0. -/
def execRollCall (sl : Fin 48) (s : State) : Host.Outcome State Fault Refusal :=
  .next (command 0x201 s sl.val anyFields (fun _ s => (onHw s rollStart, .running 64)))

/-- `PART_POLICY` (R276): The command sets the partition policy and hold time. -/
def execPartPolicy (sl : Fin 48) (s : State) : Host.Outcome State Fault Refusal :=
  .next (command 0x202 s sl.val (fun x _ => pay x 0 1 ≤ 2) (acts fun x h =>
    (setF (setF h aCH_PART fCH_PART_POL (pay x 0 1)) aCH_PART fCH_PART_HOLD (pay x 2 2), stOk)))

/-- `RESUME` (R277): The command returns an ISOLATED device to RUN and lifts the mute. -/
def execResume (sl : Fin 48) (s : State) : Host.Outcome State Fault Refusal :=
  .next (command 0x203 s sl.val anyFields (acts fun _ h => if h.mode = .isolated then (chainResume h, stOk) else (h, stWrong)))

/-- `CHAIN_POOL` (R262): The command sets the chain credit pools of each source device. -/
def execChainPool (sl : Fin 48) (s : State) : Host.Outcome State Fault Refusal :=
  .next (command 0x204 s sl.val (fun x _ => (List.range 64).foldl (fun acc d => acc + pay x d 1) 0 ≤ 256) (acts fun x h =>
    (applyAll (fun h d => setPoolHere h d (pay x d 1)) h (List.range 64), stOk)))

/-- `LINK_RETRAIN` (R366): The command retrains the LU or LD link. -/
def execLinkRetrain (sl : Fin 48) (s : State) : Host.Outcome State Fault Refusal :=
  .next (command 0x205 s sl.val (fun x _ => pay x 0 1 ≤ 1) (acts fun x h => (linkDown h (pay x 0 1), stOk)))

/-- `CHAIN_HEALTH`'s payload. `HB_ACK` carries no time lock: that bit of another device is open. -/
def chainHealthPayload (_ : Slot) (h : Hw) : List Byte × Hw :=
  let entry (d : Nat) : List Byte :=
    let x := peer h d
    if d = 0 then leBytes 1 (stateCode h.mode) ++ leBytes 1 ((fwReady h).toNat + 2 * getF h aCH_TA fCH_TA_LOCK)
    else if getF h aCH_ID fCH_ID_COUNT ≤ d ∨ 3 ≤ x.misses then [0xFF, 0]
    else leBytes 1 x.state ++ leBytes 1 (x.ready.toNat + 2 * (Config.freeNat (h.free + d) % 2))
  ((List.range 64).flatMap entry, { h with free := h.free + 64 })

/-- `CHAIN_HEALTH` (R366): The command returns each device's state, readiness and time lock. -/
def execChainHealth (sl : Fin 48) (s : State) : Host.Outcome State Fault Refusal :=
  .next (command 0x206 s sl.val anyFields (answers chainHealthPayload))

/-! ## Images and keys -/

/-- The fields of `IMAGE_LOAD` lie within their ranges, and what stages the image holds it (R379, R380). -/
def imageFits (x : Slot) (h : Hw) : Bool :=
  pay x 0 8 < 2 ^ 46 && pay x 8 4 ≤ 0x4000000 && pay x 12 1 ≤ 2 && (h.dramGib != 0 || (stagingLofts h (pay x 8 4)).isSome)

/-- `IMAGE_LOAD` (R383): The command stages an image, checks it and applies it in the mode given. -/
def execImageLoad (sl : Fin 48) (stageOk : Bool) (remote : List (BitVec 8)) (s : State) :
    Host.Outcome State Fault Refusal :=
  .next (command 0x300 s sl.val imageFits (loadStart sl.val stageOk remote))

/-- `IMAGE_CHECK` (R382): The staged image is checked in order and rejected at the first failure with
IMAGE_REJECT. -/
def execImageCheck (sl : Fin 48) (s : State) : Host.Outcome State Fault Refusal :=
  .next (loadCheck s sl.val)

/-- `IMAGE_APPLICATION` (R383): A checked image is applied under write locks in the fixed order. -/
def execImageApplication (sl : Fin 48) (fails : Option (Fin 3)) (s : State) :
    Host.Outcome State Fault Refusal :=
  .next (loadApply s sl.val (fails.map (·.val)))

/-- `IMAGE_VERIFY` (R387): The command recomputes readback digests and reports the first differing chunk. -/
def execImageVerify (sl : Fin 48) (s : State) : Host.Outcome State Fault Refusal :=
  .next (command 0x301 s sl.val anyFields (fun x s => (s, .running (tableTotal x))))

/-- `KEY_OWNER` (R373): The command programs an owner key hash into a fuse slot. -/
def execKeyOwner (sl : Fin 48) (blowOk : Bool) (s : State) : Host.Outcome State Fault Refusal :=
  .next (command 0x302 s sl.val (fun x _ => pay x 0 1 == 1 || pay x 0 1 == 2) (fun x s =>
    let k := keySlot s.nv (pay x 0 1)
    if k.prov then (s, .done stWrong [])
    else
      let w := freshNat s.hw
      let r := blowBits k.bits (BitVec.ofNat 384 (pay x 8 48)) blowOk w.1
      ({ s with nv := setKeySlot s.nv (pay x 0 1) ⟨r.1, r.2⟩, hw := w.2 },
        .running (fuseTotal 384 k.bits.toNat (pay x 8 48)))))

/-- `KEY_REVOKE` (R374): The command blows a revocation bit. -/
def execKeyRevoke (sl : Fin 48) (blowOk : Bool) (s : State) : Host.Outcome State Fault Refusal :=
  .next (command 0x303 s sl.val (fun x _ => pay x 0 1 ≤ 31) (fun x s =>
    let bit := pay x 0 1
    if namedByBoth s.nv bit then (s, .done stWrong [])
    else
      let v := if blowOk then s.nv.revoked ||| BitVec.ofNat 32 (2 ^ bit) else s.nv.revoked
      ({ s with nv := { s.nv with revoked := v } }, .running (if s.nv.revoked.getLsbD bit then 0 else 1))))

/-- `KEY_AES` (R373): The command programs the owner AES key. -/
def execKeyAes (sl : Fin 48) (blowOk : Bool) (s : State) : Host.Outcome State Fault Refusal :=
  .next (command 0x304 s sl.val anyFields (fun x s =>
    if s.nv.aesOk then (s, .done stWrong [])
    else
      let w := freshNat s.hw
      let r := blowBits s.nv.aes (BitVec.ofNat 256 (pay x 0 32)) blowOk w.1
      ({ s with nv := { s.nv with aes := r.1, aesOk := r.2 }, hw := w.2 },
        .running (fuseTotal 256 s.nv.aes.toNat (pay x 0 32)))))

/-- `KEY_STATUS` (R366): The command returns which keys are present and the revocation bits. -/
def execKeyStatus (sl : Fin 48) (s : State) : Host.Outcome State Fault Refusal :=
  .next (command 0x305 s sl.val anyFields (fun _ s =>
    let n := s.nv
    let flags := (n.root != 0).toNat + 2 * n.slot1.prov.toNat + 4 * n.slot2.prov.toNat + 8 * n.aesOk.toNat
    (s, .done stOk (leBytes 4 flags ++ leBytes 4 n.revoked.toNat))))

/-- `FW_STORE` (R386): The command authenticates MP firmware and writes it to the inactive flash copy. (DEDUCED, log 142) -/
def execFwStore (sl : Fin 48) (stageOk : Bool) (remote : List (BitVec 8)) (s : State) :
    Host.Outcome State Fault Refusal :=
  .next (command 0x306 s sl.val (fun x _ => pay x 0 8 < 2 ^ 46 && pay x 8 4 ≤ 0x4000000) (fwStart sl.val stageOk remote))

end Sys2Proof.Machine
end

