-- ==== Sys2Proof/Machine/MailboxFunctions.lean ====
section
/-!
DEFINITION. The meanings of the function, context and port commands (Table 14.11).
-/

namespace Sys2Proof.Machine

/-! ## Functions (R363 to R365) -/

/-- `FUNC_STOP` (R363): The command stops a function by clearing its enables. -/
def execFuncStop (sl : Fin 48) (s : State) : Host.Outcome State Fault Refusal :=
  .next (command 0x400 s sl.val (fun x _ => fnValid (pay x 0 2)) (acts fun x h => (stopFn h (pay x 0 2) 1, stOk)))

/-- `FUNC_CONFIG` (R365): The command checks and applies masked register records to a function, all or none. -/
def execFuncConfig (sl : Fin 48) (s : State) : Host.Outcome State Fault Refusal :=
  .next (command 0x401 s sl.val (fun x _ => fnValid (pay x 0 2)) (actsMem fun x m h => configFn m h (pay x 0 2) (recordsOf x)))

/-- `FUNC_START` (R363): The command restores a function's enables and starts it. -/
def execFuncStart (sl : Fin 48) (s : State) : Host.Outcome State Fault Refusal :=
  .next (command 0x402 s sl.val (fun x _ => fnValid (pay x 0 2)) (actsMem fun x m h => startFn m h (pay x 0 2)))

/-- `FUNC_STATUS` (R363): The command returns a function's state and stop cause. -/
def execFuncStatus (sl : Fin 48) (s : State) : Host.Outcome State Fault Refusal :=
  .next (command 0x403 s sl.val (fun x _ => fnValid (pay x 0 2)) (answers fun x h =>
    let f := fnOf h (pay x 0 2)
    (leBytes 1 f.running.toNat ++ leBytes 1 f.cause ++ List.replicate 6 0, h)))

/-! ## Contexts, tasks and events -/

/-- How a `CTX_LOAD` that waits for its load ends: `WRONG_STATE` where the load set `FAIL` or was dropped with its
pen (R124, Table 14.11). (DEDUCED, log 212) -/
def ctxLoadEnd (h : Hw) (x : Slot) : Option (Nat × List Byte) :=
  let p := pen h (pay x 0 1)
  match p.loadRes with
  | some ok => some (if ok then stOk else stWrong, [])
  | none => if p.load.isNone then some (stWrong, []) else none

/-- The `CTX_LOAD` commands whose load has ended are answered. -/
def settleCtxLoads (h : Hw) : Hw := if frozen h then h else answerLater h 0x500 ctxLoadEnd

/-- `CTX_LOAD` starts its load, and waits for it where words must move. -/
def ctxLoadBody (x : Slot) (s : State) : State × Reply :=
  let n := pay x 0 1
  let r := startLoad s.mem s.hw n (pay x 1 1) none
  let t := { s with mem := r.1.1, hw := r.1.2 }
  if r.2 then (t, .done stWrong [])
  else if (pen r.1.2 n).load.isSome then (onHw t fun h => setPen h n { pen h n with loadRes := none }, .later)
  else (t, .done stOk [])

/-- `CTX_LOAD` (R124): The command loads a context into a pen. -/
def execCtxLoad (sl : Fin 48) (s : State) : Host.Outcome State Fault Refusal :=
  .next (command 0x500 s sl.val (fun x _ => pay x 0 1 < 128 && pay x 1 1 < 16) ctxLoadBody)

/-- `CTX_STATUS` (R366): The command returns a pen's context registers. -/
def execCtxStatus (sl : Fin 48) (s : State) : Host.Outcome State Fault Refusal :=
  .next (command 0x501 s sl.val (fun x _ => pay x 0 1 < 128) (answers fun x h =>
    readRegs h [aPEN_CTXRES (pay x 0 1), aPEN_CTXKIND (pay x 0 1), aPEN_CTXSTAT (pay x 0 1)]))

/-- `TASK_SET` (R366): The command writes a task entry of a stopped scheduler. (DEDUCED, log 135) -/
def execTaskSet (sl : Fin 48) (s : State) : Host.Outcome State Fault Refusal :=
  .next (command 0x502 s sl.val (fun x _ => pay x 0 1 < 16 && pay x 1 1 < 64) (actsMem fun x m h =>
    let y := pay x 0 1
    let t := pay x 1 1
    let all := 2 ^ 64 - 1
    configFn m h (fnId 4 y) [(aSCH_TASK0 y t, all, pay x 8 8), (aSCH_TASK1 y t, all, pay x 16 8)]))

/-- `TASK_STATE` (R366): The command returns task and pen states of a yard. -/
def execTaskState (sl : Fin 48) (s : State) : Host.Outcome State Fault Refusal :=
  .next (command 0x503 s sl.val (fun x _ => pay x 0 1 < 16) (answers fun x h =>
    let y := pay x 0 1
    readRegs h [aSCH_TSTATE y 0, aSCH_TSTATE y 1, aSCH_PENSTAT y, aSCH_STAT y]))

/-- `SCH_DOORBELL` (R366): The command writes SCH_DBELL of one or all yards. -/
def execSchDoorbell (sl : Fin 48) (s : State) : Host.Outcome State Fault Refusal :=
  .next (command 0x504 s sl.val (fun x _ => pay x 0 1 < 16 || pay x 0 1 == 0xFF) (acts fun x h =>
    (applyAll (fun h y => ringDoorbell h y (pay x 1 1)) h
      (if pay x 0 1 = 0xFF then List.range 16 else [pay x 0 1]), stOk)))

/-- `EV_TO_HOST` (R366): The command assigns a scheduler event as source of a host vector. -/
def execEvToHost (sl : Fin 48) (s : State) : Host.Outcome State Fault Refusal :=
  .next (command 0x505 s sl.val (fun x _ => pay x 0 1 < 16 && !(eventReserved (pay x 1 1)) && 32 ≤ pay x 2 1 && pay x 2 1 < 64) (acts fun x h =>
    ({ h with obs.evHost := insertAt h.obs.evHost (pay x 2 1) (pay x 0 1, pay x 1 1) }, stOk)))

/-- `EV_HOST_CLR` (R366): The command removes the source of a host vector. -/
def execEvHostClr (sl : Fin 48) (s : State) : Host.Outcome State Fault Refusal :=
  .next (command 0x506 s sl.val (fun x _ => 32 ≤ pay x 0 1 && pay x 0 1 < 64) (acts fun x h =>
    ({ h with obs.evHost := removeAt h.obs.evHost (pay x 0 1) }, stOk)))

/-! ## Ports -/

/-- A port function. -/
def portFn (x : Slot) : Bool := fnValid (pay x 0 2) && pay x 0 2 / 256 < 3

/-- `PORT_STATUS` (R366): The command returns a port's status and counters. -/
def execPortStatus (sl : Fin 48) (s : State) : Host.Outcome State Fault Refusal :=
  .next (command 0x600 s sl.val (fun x _ => portFn x) (answers fun x h =>
    let i := pay x 0 2 % 256
    if pay x 0 2 / 256 = 1 then readRegs h [aJL_STAT i, aJL_CNT i, aJL_CNT2 i, aJL_SRTS i, aJL_RATE i]
    else readRegs h (aETH_PSTAT i :: (List.range 21).map fun k => aETH_CNT i k)))

/-- `PORT_CNTCLR` (R366): The command clears a port's counters. -/
def execPortCntclr (sl : Fin 48) (s : State) : Host.Outcome State Fault Refusal :=
  .next (command 0x601 s sl.val (fun x _ => portFn x) (acts fun x h =>
    let i := pay x 0 2 % 256
    (clearCounts h (if pay x 0 2 / 256 = 1 then aJL_CNT2 i else aETH_CNTCLR i), stOk)))

/-- The fields of `SHAPER_SET` lie within their ranges. -/
def shaperFits (x : Slot) : Bool :=
  let b := pay x 3 1
  fnValid (pay x 0 2) && pay x 0 2 / 256 == 2 && pay x 2 1 < 8 && b < 8 &&
    (b.testBit 0 || pay x 4 4 == 0) && (b.testBit 1 || pay x 8 4 == 0) &&
    pay x 4 4 < 2 ^ fETH_TC_RATE.w && pay x 8 4 < 2 ^ fETH_TC_BURST.w

/-- The record that writes the fields asked for into a class (R303). -/
def shaperRecord (x : Slot) : Nat × Nat × Nat :=
  let b := pay x 3 1
  let put (k : Nat) (f : Fld) (v : Nat) (s : Nat × Nat) : Nat × Nat :=
    if b.testBit k then (s.1 + (2 ^ f.w - 1) * 2 ^ f.lo, s.2 + v * 2 ^ f.lo) else s
  let r := put 2 fETH_TC_FORGIVE 1 (put 1 fETH_TC_BURST (pay x 8 4) (put 0 fETH_TC_RATE (pay x 4 4) (0, 0)))
  (aETH_TC (pay x 0 2 % 256) (pay x 2 1), r.1, r.2)

/-- `SHAPER_SET` (R303): The command sets rate, burst or forgive of a class as a live setting. -/
def execShaperSet (sl : Fin 48) (s : State) : Host.Outcome State Fault Refusal :=
  .next (command 0x602 s sl.val (fun x _ => shaperFits x) (actsMem fun x m h =>
    (configRecord (m, h) (shaperRecord x), stOk)))

/-- `SYSREF_ARM` (R287): The command writes ARM for the named link directions. -/
def execSysrefArm (sl : Fin 48) (s : State) : Host.Outcome State Fault Refusal :=
  .next (command 0x603 s sl.val (fun x _ => pay x 0 1 < 4 && pay x 1 1 < 4) (acts fun x h =>
    let d := 2 * pay x 0 1
    let h1 := if (pay x 1 1).testBit 0 then jArm h d else h
    (if (pay x 1 1).testBit 1 then jArm h1 (d + 1) else h1, stOk)))

end Sys2Proof.Machine
end

