-- ==== Sys2Proof/Machine/MailboxObserve.lean ====
section
/-!
DEFINITION. The meanings of the observation and diagnostic commands (Table 14.13).
-/

namespace Sys2Proof.Machine

/-! ## Capture and freeze -/

/-- `CAPTURE_ARM` (R340): The command arms a capture. -/
def execCaptureArm (sl : Fin 48) (s : State) : Host.Outcome State Fault Refusal :=
  .next (command 0xA00 s sl.val (fun x _ => pay x 0 1 ≤ 3 && (pay x 0 1 != 2 || (pay x 8 8 < 2 ^ 48 && pay x 16 4 < nsPerSec))) (acts fun x h =>
    let mode := pay x 0 1
    let h1 := if mode = 1 then setReg h aCAP_EDGE (BitVec.ofNat 64 (pay x 8 8))
      else if mode = 2 then setF (setF h aCAP_TSEC fCAP_TSEC_SEC (pay x 8 8)) aCAP_TNS fCAP_TNS_NS (pay x 16 4)
      else h
    (armCapture h1 mode, stOk)))

/-- The fields of `FREEZE` lie within their ranges. -/
def freezeFits (x : Slot) : Bool :=
  payloadClear x && pay x 0 1 ≤ 1 && (pay x 0 1 == 1 || (pay x 8 8 < 2 ^ 48 && pay x 16 4 < nsPerSec))

/-- This device freezes as `FREEZE` asks, with `CAUSE` 3. -/
def freezeHere (h : Hw) (x : Slot) : Hw :=
  if pay x 0 1 = 1 then freezeRequest h 3 else freezeArm h 3 (pay x 8 8) (pay x 16 4)

/-- `FREEZE` (R267): the FREEZE packet leaves for the target, and this device freezes where the target names it;
the command is then done. (DEDUCED, log 98) -/
def freezeCommand (h : Hw) (sl : Nat) : Hw :=
  let x := slot h sl
  let own := selfAddr h
  let ds := if 16 ≤ sl ∧ sl < 32 then [own] else targetsOf h x.tgt
  let far := ds.filter (· != own)
  if x.st ≠ .taken ∨ x.opc ≠ 0xA01 ∨ x.left ≠ 0 ∨ ¬ mpRuns h x.opc then h
  else if ¬ freezeFits x then completeSlot h sl stInvalid []
  else if h.mode = .isolated then reply (setSlot h sl { x with left := 2 ^ own }) sl stWrong []
  else if ds.isEmpty then finishBroadcast h sl
  else
    let h1 := setSlot h sl { x with left := ds.foldl (fun acc d => acc ||| 2 ^ d) 0 }
    let pkt := if pay x 0 1 = 1 then freezePkt h1 x.tgt false else timedFreezePkt h1 x.tgt (pay x 8 8) (pay x 16 4)
    let h2 := if far.isEmpty then h1 else sendPkt h1 pkt
    let h3 := if ds.contains own then freezeHere h2 x else h2
    applyAll (fun h d =>
      if d = own ∨ (portTo h d).isSome then noteDevice h sl d stOk true [] else noteDevice h sl d stNoTarget false [])
      h3 ds

/-- `FREEZE` (R267): The command sends a FREEZE chain message at once or for a time. -/
def execFreeze (sl : Fin 48) (s : State) : Host.Outcome State Fault Refusal :=
  .next (onHw s (fun h => freezeCommand h sl.val))

/-- `FREEZE_READOUT` (R447): The readout engine fills the shadow pages with the frozen state. -/
def execFreezeReadout (sl : Fin 48) (s : State) : Host.Outcome State Fault Refusal :=
  .next (command 0xA10 s sl.val anyFields (fun _ s => if s.hw.mode = .frozen then (s, .running 33) else (s, .done stWrong [])))

/-- `FREEZE_RESUME` (R449): The readout engine resumes the frozen device. (DEDUCED, log 103) -/
def execFreezeResume (sl : Fin 48) (low : Bool) (s : State) : Host.Outcome State Fault Refusal :=
  .next (command 0xA11 s sl.val anyFields (fun _ s =>
    if s.hw.mode ≠ .frozen ∨ low then (s, .done stWrong []) else (onHw s fun h => resumeRequest h low, .later)))

/-! ## Probes and traces -/

/-- A value of a register whose reserved bits are 0 and whose RW fields hold values that are not reserved. -/
def valueFits (a v : Nat) : Bool :=
  strayBits a v == 0 && (fieldsOf a).all fun f => f.acc != .rw || limOk f.lim (fieldOf f v)

/-- The registers of `PROBE_SET` with the values that the request gives. -/
def probeWrites (x : Slot) : List (Nat × Nat) :=
  let p := pay x 0 1
  [(aNP_CTL p, pay x 8 8), (aNP_MATCH p, pay x 16 8), (aNP_ALO p, pay x 24 8), (aNP_AHI p, pay x 32 8)]

/-- `PROBE_SET` (R242): The command sets one NoC probe filter. -/
def execProbeSet (sl : Fin 48) (s : State) : Host.Outcome State Fault Refusal :=
  .next (command 0xA02 s sl.val (fun x _ => pay x 0 1 < 16 && (probeWrites x).all fun w => valueFits w.1 w.2) (actsMem fun x m h =>
    ((probeWrites x).foldl (fun s w => writeReg s.1 s.2 w.1 (BitVec.ofNat 64 w.2)) (m, h), stOk)))

/-- The fields of `TRACE_SET` lie within their ranges (R165): a window slot, or a word of virtual memory.
(DEDUCED, log 126) -/
def traceFits (x : Slot) : Bool :=
  let base := pay x 8 8
  pay x 0 1 < 16 && pay x 1 1 < 4 && 4 ≤ pay x 2 1 && pay x 2 1 ≤ 20 && base < 2 ^ 40 &&
    (if (pay x 1 1).testBit 1 then base % 10 == 0 else base % 16 == 0 && (slotOf base).isSome)

/-- `TRACE_SET` (R366): The command sets a yard's trace ring. -/
def execTraceSet (sl : Fin 48) (s : State) : Host.Outcome State Fault Refusal :=
  .next (command 0xA03 s sl.val (fun x _ => traceFits x) (acts fun x h =>
    let y := pay x 0 1
    let base := pay x 8 8
    let dram := pay x 1 1 / 2
    if isSet h (aSCH_CTL y) fSCH_CTL_TREN ∧ (getF h (aSCH_TRBASE y) fSCH_TRBASE_BASE ≠ base ∨
        getF h (aSCH_TRSIZE y) fSCH_TRSIZE_LOG2 ≠ pay x 2 1 ∨ getF h (aSCH_CTL y) fSCH_CTL_TRDRAM ≠ dram) then (h, stWrong)
    else
      let h1 := setF (setF h (aSCH_TRBASE y) fSCH_TRBASE_BASE base) (aSCH_TRSIZE y) fSCH_TRSIZE_LOG2 (pay x 2 1)
      (setF (setF h1 (aSCH_CTL y) fSCH_CTL_TREN (pay x 1 1 % 2)) (aSCH_CTL y) fSCH_CTL_TRDRAM dram, stOk)))

/-! ## Alarms and log (R436, R440) -/

/-- The 32 bytes of an alarm-table entry (R440); the class of a reserved code is open. -/
def alarmBytes (h : Hw) (code : Nat) : List Byte × Hw :=
  let a := alarm h code
  let c : Nat × Hw := match alarmClass code with
    | some c => (c, h)
    | none => freshNat h
  (leBytes 2 code ++ leBytes 1 c.1 ++ leBytes 1 (a.raised.toNat + 2 * a.present.toNat) ++ leBytes 4 a.count ++
    leBytes 8 a.first ++ leBytes 8 a.last ++ leBytes 1 a.router ++ List.replicate 7 0, c.2)

/-- The 32 bytes of a log record (Table 18.3). -/
def recBytes (i : Nat) (r : LogRec) : List Byte :=
  leBytes 4 i ++ leBytes 2 r.kind ++ leBytes 2 r.code ++ leBytes 8 r.tick ++ leBytes 1 r.cls ++ leBytes 1 r.dev ++
    leBytes 1 r.router ++ [0] ++ leBytes 8 (r.addr % 2 ^ 48) ++ leBytes 4 r.detail

/-- A record of kind 0: its other bytes are open. -/
def noRecord (h : Hw) : List Byte × Hw :=
  let a := freshNat h
  let b := freshNat a.2
  (leBytes 4 a.1 ++ [0, 0] ++ leBytes 26 b.1, b.2)

/-- The record that `LOG_READ` gives for an index: of the ring, or the kept first record of a code. -/
def logBytes (h : Hw) (i : Nat) : List Byte × Hw :=
  let w := getF h aAL_STAT fAL_STAT_WRIDX
  if 0xFFFF0000 ≤ i then
    let a := alarm h (i - 0xFFFF0000)
    match a.firstRec, a.firstIdx with
    | some r, some k => (recBytes k r, h)
    | some r, none => (recBytes (freshNat h).1 r, (freshNat h).2)
    | none, _ => noRecord h
  else if w ≤ i ∨ i + 8192 < w then noRecord h
  else match lookup h.obs.log (i % 8192) with
    | some r => (recBytes i r, h)
    | none => noRecord h

/-- Entries one after the other. -/
def entries (h : Hw) (f : Hw → Nat → List Byte × Hw) (first n : Nat) : List Byte × Hw :=
  (List.range n).foldl (fun (s : List Byte × Hw) k =>
    let r := f s.2 (first + k)
    (s.1 ++ r.1, r.2)) ([], h)

/-- `ALARM_READ` (R440): The command returns alarm-table entries. (DEDUCED, log 127) -/
def execAlarmRead (sl : Fin 48) (s : State) : Host.Outcome State Fault Refusal :=
  .next (command 0xA04 s sl.val (fun x _ => 1 ≤ pay x 2 1 && pay x 2 1 ≤ 14 && pay x 0 2 + pay x 2 1 ≤ 512) (answers fun x h => entries h alarmBytes (pay x 0 2) (pay x 2 1)))

/-- `LOG_READ` (R436): The command returns event-log records or a kept first record. -/
def execLogRead (sl : Fin 48) (s : State) : Host.Outcome State Fault Refusal :=
  .next (command 0xA05 s sl.val (fun x _ => 1 ≤ pay x 4 1 && pay x 4 1 ≤ 14) (answers fun x h =>
    entries h (fun h i => logBytes h (i % 2 ^ 32)) (pay x 0 4) (pay x 4 1)))

/-- A code's count, first record and raised bit cleared, with the findings counted and not yet moved (R435,
R440). -/
def clearAlarm (h : Hw) (code : Nat) : Hw :=
  let h1 := { h with obs.finds := setD FindCnt.zero h.obs.finds code FindCnt.zero }
  setAlarm h1 code { AlarmEntry.zero with present := (alarm h1 code).present }

/-- `ALARM_CLEAR` (R440): The command clears the count and first record of a code or all codes. -/
def execAlarmClear (sl : Fin 48) (s : State) : Host.Outcome State Fault Refusal :=
  .next (command 0xA06 s sl.val (fun x _ => pay x 0 2 < 512 || pay x 0 2 == 0xFFFF) (acts fun x h =>
    (if pay x 0 2 = 0xFFFF then applyAll clearAlarm h (List.range 512) else clearAlarm h (pay x 0 2), stOk)))

/-! ## Registers -/

/-- `REG_READ` (R366): The command returns consecutive registers. -/
def execRegRead (sl : Fin 48) (s : State) : Host.Outcome State Fault Refusal :=
  .next (command 0xB00 s sl.val (fun x _ =>
    1 ≤ pay x 8 1 && pay x 8 1 ≤ 56 && (List.range (pay x 8 1)).all fun k =>
      pay x 0 8 + 8 * k < bar0Base && regExists (pay x 0 8 + 8 * k)) (answers fun x h =>
    readRegs h ((List.range (pay x 8 1)).map fun k => pay x 0 8 + 8 * k)))

/-- `REG_WRITE` (R366): The command applies masked diagnostic register writes in order. -/
def execRegWrite (sl : Fin 48) (s : State) : Host.Outcome State Fault Refusal :=
  .next (command 0xB01 s sl.val (fun x _ => (recordsOf x).all fun r => r.1 < bar0Base && regExists r.1) (actsMem fun x m h =>
    ((recordsOf x).foldl (fun s r => mergeWrite s.1 s.2 r.1 r.2.1 r.2.2) (m, h), stOk)))

end Sys2Proof.Machine
end

