-- ==== Sys2Proof/Machine/MailboxTime.lean ====
section
/-!
DEFINITION. The meanings of the time, memory and power commands (Table 14.12).
-/

namespace Sys2Proof.Machine

/-! ## Time -/

/-- `TIME_GET` (R309): The command returns time and CRD_TICK latched in one cycle. -/
def execTimeGet (sl : Fin 48) (s : State) : Host.Outcome State Fault Refusal :=
  .next (command 0x700 s sl.val anyFields (answers fun _ h =>
    let g := latchTime h
    (leBytes 8 (getF g aTB_LAT1 fTB_LAT1_SEC) ++ leBytes 4 (getF g aTB_LAT0 fTB_LAT0_NS) ++
      leBytes 4 (getF g aTB_LAT0 fTB_LAT0_FRAC) ++ leBytes 8 (reg g aCRD_TICKL).toNat, g)))

/-- The fields of `TIME_STEER` lie within their ranges (R310). (DEDUCED, log 124) -/
def steerFits (x : Slot) (h : Hw) : Bool :=
  match pay x 0 1 with
  | 0 => incOk (pay x 8 8)
  | 1 =>
    decide (-(2 ^ 47) ≤ paySigned x 8 8) && decide (paySigned x 8 8 < 2 ^ 47) && stepOk h (paySigned x 8 8)
  | 2 => pay x 8 8 < 2 ^ 48 && pay x 16 4 < nsPerSec
  | _ => false

/-- `TIME_STEER` (R310): The command sets the increment, steps or sets the time counter. -/
def execTimeSteer (sl : Fin 48) (s : State) : Host.Outcome State Fault Refusal :=
  .next (command 0x701 s sl.val steerFits (acts fun x h =>
    if chainOwned h then (h, stConflict)
    else match pay x 0 1 with
      | 0 => (writeInc h (BitVec.ofNat 64 (pay x 8 8)), stOk)
      | 1 => (askTb h (.step (paySigned x 8 8)), stOk)
      | _ => (askTb h (.set (pay x 8 8) (pay x 16 4)), stOk)))

/-- `HOLDOVER_SET` (R312): The command writes the whole holdover set between two updates. (DEDUCED, log 125) -/
def execHoldoverSet (sl : Fin 48) (s : State) : Host.Outcome State Fault Refusal :=
  .next (command 0x702 s sl.val (fun x _ => -(2 ^ 12) ≤ paySigned x 0 2 && paySigned x 0 2 < 2 ^ 12 && 1 ≤ pay x 2 1 && pay x 3 1 < 8) (acts fun x h =>
    if fnRunning h (fnId 5 0) then (h, stBusy)
    else
      let h1 := setF (setF h aTB_TCCFG fTB_TCCFG_BASE (pay x 0 2)) aTB_TCCFG fTB_TCCFG_STEP (pay x 2 1)
      let h2 := applyAll (fun h i => setF h (aTB_TCTAB i) fTB_TCTAB_CORR (pay x (16 + 4 * i) 4)) h1 (List.range 32)
      let h3 := setF h2 aTB_AGERATE fTB_AGERATE_RATE (pay x 4 4)
      let h4 := if (pay x 3 1).testBit 2 then setF h3 aTB_AGEACC fTB_AGEACC_AG (pay x 8 8) else h3
      (setF (setF h4 aTB_CTL fTB_CTL_HOEN (pay x 3 1 % 2)) aTB_CTL fTB_CTL_TSRC (pay x 3 1 / 2 % 2), stOk)))

/-- A time of `GATE_SET` in 1/256 ns: seconds, nanoseconds and sub-nanoseconds from a payload byte. -/
def gateTime (x : Slot) (o : Nat) : Nat := (pay x o 8 * nsPerSec + pay x (o + 8) 4) * 256 + pay x (o + 12) 1

/-- The control word that `GATE_SET` commits. -/
def gateWord (x : Slot) : Nat :=
  let b := pay x 1 1
  let put (f : Fld) (v w : Nat) : Nat := putField f w v
  put fGS_CTL_PAD (pay x 2 1) (put fGS_CTL_POL (b / 16 % 2) (put fGS_CTL_EVMODE (b / 4 % 4)
    (put fGS_CTL_PINEN (b / 2 % 2) (put fGS_CTL_ARM (b % 2) 0))))

/-- Period in 1/256 ns. -/
def gatePeriod (x : Slot) : Nat := pay x 40 5 * 256 + pay x 45 1

/-- The fields of `GATE_SET` lie within their ranges and R319 does not refuse it. -/
def gateFits (x : Slot) (h : Hw) : Bool :=
  pay x 0 1 < 64 && pay x 1 1 < 32 && pay x 2 1 < 64 && pay x 8 8 < 2 ^ 48 && pay x 24 8 < 2 ^ 48 &&
    pay x 16 4 < nsPerSec && pay x 32 4 < nsPerSec &&
    !(commitRefused h (pay x 0 1) (gateWord x) (gateTime x 8) (gateTime x 24) (gatePeriod x))

/-- A claim of `GATE_SET` loses: the pad is another feature's, or a training alignment names the entry (R477,
R478). -/
def gateLoses (x : Slot) (h : Hw) : Bool :=
  let v := gateWord x
  let i := pay x 0 1
  v.testBit 0 &&
    ((fieldOf fGS_CTL_PINEN v == 1 && padTaken h (pay x 2 1) 2) ||
      (List.range 4).any fun c => isSet h (aDC_TRALIGN c) fDC_TRALIGN_EN && getF h (aDC_TRALIGN c) fDC_TRALIGN_ENTRY == i)

/-- The entry committed; on a STOPPED schedule its `ARM` is kept for `FUNC_START`. -/
def gateCommit (x : Slot) (h : Hw) : Hw :=
  let i := pay x 0 1
  let v := gateWord x
  let id := fnId 6 0
  let commit (h : Hw) (v : Nat) : Hw := commitGate h i v (gateTime x 8) (gateTime x 24) (gatePeriod x) (pay x 46 2) true
  if fnRunning h id then commit h v
  else
    let f := fnOf h id
    let rest := f.saved.filter fun e => e.1 != aGS_CTL i
    let armed : List (Nat × Fld × Nat) := if v.testBit 0 then [(aGS_CTL i, fGS_CTL_ARM, 1)] else []
    commit (setFn h id { f with saved := rest ++ armed }) (putField fGS_CTL_ARM v 0)

/-- `GATE_SET` (R319): The command writes and commits one gate-schedule entry. -/
def execGateSet (sl : Fin 48) (s : State) : Host.Outcome State Fault Refusal :=
  .next (command 0x703 s sl.val gateFits (acts fun x h => if gateLoses x h then (h, stConflict) else (gateCommit x h, stOk)))

/-- `GATE_GET`'s payload: the layout of `GATE_SET` for the occurrence in force, and `GS_STAT`. -/
def gatePayload (x : Slot) (h : Hw) : List Byte × Hw :=
  let i := pay x 0 1
  let g := gate h i
  let now := g.inForce.getD (g.start, g.per)
  let c (f : Fld) : Nat := getF h (aGS_CTL i) f
  let time (t : Nat) : List Byte :=
    leBytes 8 (t / 256 / nsPerSec) ++ leBytes 4 (t / 256 % nsPerSec) ++ leBytes 1 (t % 256) ++ List.replicate 3 0
  (leBytes 1 i ++
    leBytes 1 (c fGS_CTL_ARM + 2 * c fGS_CTL_PINEN + 4 * c fGS_CTL_EVMODE + 16 * c fGS_CTL_POL) ++
    leBytes 1 (c fGS_CTL_PAD) ++ List.replicate 5 0 ++ time now.1 ++ time g.stop ++ leBytes 5 (now.2 / 256) ++
    leBytes 1 (now.2 % 256) ++ leBytes 2 g.cnt ++ leBytes 8 (gsStat h i).toNat, h)

/-- `GATE_GET` (R366): The command returns the occurrence in force and GS_STAT of an entry. -/
def execGateGet (sl : Fin 48) (s : State) : Host.Outcome State Fault Refusal :=
  .next (command 0x704 s sl.val (fun x _ => pay x 0 1 < 64) (answers gatePayload))

/-- A timing ring of R367: a length 32 + 256 N with N from 16 to 65,536, in the data space or in the slots of
one window. -/
def ringFits (h : Hw) (base len : Nat) : Bool :=
  32 ≤ len && (len - 32) % 256 == 0 && 16 ≤ (len - 32) / 256 && (len - 32) / 256 ≤ 65536 &&
    (if base < 0x1000000000 then base + len ≤ dramEnd h
     else base % 16 == 0 && (match slotOf base, slotOf (base + 16 * ((len + 9) / 10 - 1)) with
       | some a, some b => a.1 == b.1
       | _, _ => false))

/-- `PTP_ASSIST` (R313): The command enables or disables PTP assist on a sub-port with its timing ring. -/
def execPtpAssist (sl : Fin 48) (s : State) : Host.Outcome State Fault Refusal :=
  .next (command 0x705 s sl.val (fun x h => pay x 0 1 < 16 && pay x 1 1 ≤ 1 && (pay x 1 1 == 0 || ringFits h (pay x 8 8) (pay x 16 4))) (acts fun x h =>
    let k := pay x 0 1
    ({ h with eth.ptp := if pay x 1 1 = 1 then insertAt h.eth.ptp k ⟨pay x 8 8, pay x 16 4, pay x 24 8⟩
                         else removeAt h.eth.ptp k }, stOk)))

/-! ## Memory -/

/-- `MUCK_SET` (R366): The command sets MO_CTL.EN and PACE. (DEDUCED, log 128) -/
def execMuckSet (sl : Fin 48) (s : State) : Host.Outcome State Fault Refusal :=
  .next (command 0x800 s sl.val (fun x _ => pay x 0 1 ≤ 1) (acts fun x h => (setF (setF h aMO_CTL fMO_CTL_EN (pay x 0 1)) aMO_CTL fMO_CTL_PACE (pay x 2 2), stOk)))

/-- `MEM_TEST` (R202): The command runs one muck-out pass at PACE 0 in TEST. -/
def execMemTest (sl : Fin 48) (s : State) : Host.Outcome State Fault Refusal :=
  .next (command 0x801 s sl.val anyFields (fun x s =>
    let h := s.hw
    if h.mode ≠ .test then (s, .done stWrong [])
    else
      let left := (yardsOf (pay x 0 2)).foldl (fun m y => setD 0 m y passSegs) []
      let c (f : Fld) : Nat := getF h aMO_FIND f
      let t : MemTest := ⟨left, c fMO_FIND_CE, c fMO_FIND_PSN, c fMO_FIND_RPR, c fMO_FIND_DEGR⟩
      ({ s with hw := { h with memTest := some t } }, .running (tableTotal x))))

/-- `MEM_STATUS` (R366): The command returns muck-out status and findings. -/
def execMemStatus (sl : Fin 48) (s : State) : Host.Outcome State Fault Refusal :=
  .next (command 0x802 s sl.val anyFields (answers fun _ h => readRegs h [aMO_STAT, aMO_FIND, aMO_CTL]))

/-- `REPAIR_READ` (R366): The command returns a bank's repair record. -/
def execRepairRead (sl : Fin 48) (s : State) : Host.Outcome State Fault Refusal :=
  .next (command 0x803 s sl.val (fun x _ => pay x 0 2 < 1280) (answers fun x h =>
    let i := pay x 0 2
    (leBytes 8 (reg h (aRPR_BANK i)).toNat ++ leBytes 8 ((reg h (aRPR_DEGR (i / 64))).getLsbD (i % 64)).toNat, h)))

/-- `TROUGH_READ` (R186): The command returns a trough's registers and restarts TRG_HWM. -/
def execTroughRead (sl : Fin 48) (s : State) : Host.Outcome State Fault Refusal :=
  .next (command 0x804 s sl.val (fun x _ => pay x 0 1 < 128 && pay x 1 1 < 8) (answers fun x h =>
    let n := pay x 0 1
    let k := pay x 1 1
    readRegs h [aTRG_CFG n k, aTRG_PTR n k, aTRG_CNT n k, aTRG_HWM n k, aTRG_STAT n k, aTRG_ECC n k]))

/-! ## Power, ageing and clocks -/

/-- The code of a voltage of `YARD_VOLT`. -/
def voltCode (x : Slot) : Nat := (pay x 2 2 - 620) / 5

/-- `YARD_VOLT` (R407): The command sets a yard voltage and floor within the neighbour limits. -/
def execYardVolt (sl : Fin 48) (s : State) : Host.Outcome State Fault Refusal :=
  .next (command 0x900 s sl.val (fun x h =>
    pay x 0 1 < 16 && pay x 1 1 ≤ 1 && 620 ≤ pay x 2 2 && pay x 2 2 ≤ 900 && pay x 2 2 % 5 == 0 &&
      codeFits h (pay x 0 1) (voltCode x)) (acts fun x h =>
    let y := pay x 0 1
    let h1 := setCode h y (voltCode x)
    (setYardAge h1 y { yardAge h1 y with floor := if pay x 1 1 = 1 then some (voltCode x) else none }, stOk)))

/-- A task runs on some pen of the yard. -/
def taskRuns (h : Hw) (y : Nat) : Bool := anyHeld h y || (sched h y).tasks.any fun e => e.2.st == .running

/-- How a `YARD_MODE` that waits ends (R404, R405): OK once its mode is reached, `WRONG_STATE` where a request
aborted the power-down. (DEDUCED, log 120) -/
def yardModeEnd (h : Hw) (x : Slot) : Option (Nat × List Byte) :=
  let y := pay x 0 1
  let mode := pay x 1 1
  if mode = 0 then (if yardRuns h y then some (stOk, []) else none)
  else if getF h (aYP_STAT y) fYP_STAT_MODE = mode ∧ getF h (aYP_STAT y) fYP_STAT_TRANS = 0 then some (stOk, [])
  else if yardRuns h y ∧ (yardPw h y).want.isNone then some (stWrong, [])
  else none

/-- The `YARD_MODE` commands whose transition has ended are answered. -/
def settleYardModes (h : Hw) : Hw := if frozen h then h else answerLater h 0x901 yardModeEnd

/-- `YARD_MODE` (R404, R405, R407): the divide, then the mode; the answer waits for the transition. -/
def yardModeBody (x : Slot) (s : State) : State × Reply :=
  let h := s.hw
  let y := pay x 0 1
  let mode := pay x 1 1
  let d := pay x 2 1
  if mode ≠ 0 ∧ taskRuns h y then (s, .done stWrong [])
  else if d ≠ yardDiv h y ∧ fnRunning h (fnId 3 y) then (s, .done stBusy [])
  else
    let h1 := if d = yardDiv h y then h else writeDiv h y d
    ({ s with hw := if mode = 0 then wakeRequest h1 y else powerDownRequest h1 y mode }, .later)

/-- `YARD_MODE` (R407): The command sets a yard's power mode and divide. -/
def execYardMode (sl : Fin 48) (s : State) : Host.Outcome State Fault Refusal :=
  .next (onHw (command 0x901 s sl.val
    (fun x h => pay x 0 1 < 16 && pay x 1 1 ≤ 2 && pay x 2 1 ≤ 2 && divFits h (pay x 0 1) (pay x 2 1)) yardModeBody)
    settleYardModes)

/-- `DRAM_POLICY` (R217): The command sets HOTPOL of all channels. -/
def execDramPolicy (sl : Fin 48) (s : State) : Host.Outcome State Fault Refusal :=
  .next (command 0x902 s sl.val (fun x _ => pay x 0 1 ≤ 1) (acts fun x h => (applyAll (fun h c => setF h (aDC_CFG c) fDC_CFG_HOTPOL (pay x 0 1)) h (List.range 4), stOk)))

/-- `AGE_REPORT` (R421): The command returns life consumed, projected life and yard plans. -/
def execAgeReport (sl : Fin 48) (s : State) : Host.Outcome State Fault Refusal :=
  .next (command 0x903 s sl.val anyFields (answers fun _ h =>
    (leBytes 2 (deviceLife h) ++ leBytes 2 (projectedLife h) ++ leBytes 4 0 ++
      ((List.range 16).flatMap fun y => leBytes 2 (620 + 5 * getF h (aYP_VOLT y) fYP_VOLT_ACT)) ++
      ((List.range 16).flatMap fun y => leBytes 1 (yardDiv h y)) ++
      leBytes 8 ((List.range 16).foldl (fun acc y => acc + if (yardAge h y).fallback then 2 ^ y else 0) 0), h)))

/-- `REPLAN` (R415): The command re-plans the yards in its mask. -/
def execReplan (sl : Fin 48) (s : State) : Host.Outcome State Fault Refusal :=
  .next (command 0x904 s sl.val anyFields (fun x s =>
    (onHw s fun h => applyAll (fun h y => setYardAge h y { yardAge h y with owed := true }) h (yardsOf (pay x 0 2)),
      .running (tableTotal x))))

/-- `CLOCK_STATUS` (R366): The command returns reference loss, hold and dead-source status. -/
def execClockStatus (sl : Fin 48) (s : State) : Host.Outcome State Fault Refusal :=
  .next (command 0x905 s sl.val anyFields (answers fun _ h =>
    let c (f : Fld) : Nat := getF h aCLK_STAT f
    (leBytes 4 (c fCLK_STAT_REFLOST + 2 * c fCLK_STAT_ROOTHOLD + 4 * c fCLK_STAT_DRAMHOLD) ++
      leBytes 4 (c fCLK_STAT_DEADCNT) ++ leBytes 8 (reg h aCLK_LOSSTICK).toNat, h)))

end Sys2Proof.Machine
end

