-- ==== Sys2Proof/Machine/MemoryCmds.lean ====
section
/-!
DEFINITION. The meanings of the commands on pen memories, lofts, troughs, streamers, muck-out and the memory
controllers (chapters 7 and 8), with the ledger (R422).
-/

namespace Sys2Proof.Machine

/-- `TROUGH_BUFFER_TRANSFER` (R175): A trough refills its head buffer or drains its tail buffer when a bank
port is granted. -/
def execTroughBufferTransfer (n : Fin 128) (k : Fin 8) (drain : Bool) (s : State) :
    Host.Outcome State Fault Refusal :=
  .next (onMem s (fun m h =>
    let key := 8 * n.val + k.val
    -- a switch of this cycle takes its ports first (R132)
    if ¬ arrayRuns h (key / 64) ∨ orderDue h n.val then (m, h) else grantedTransfer m h key drain))

/-- `DMA_PORT_SERVICE` (R176): The pen DMA port starts the request at the head of a queue once its bank port
or trough room is available. -/
def execDmaPortService (mem : Fin 144) (eccs : List Ecc) (s : State) :
    Host.Outcome State Fault Refusal :=
  .next (onMem s (fun m h => dmaService m h mem.val eccs))

/-- `STARVATION` (R180): The starvation monitor reaches 2^20 cycles without a grant, sets STARVED and raises
MEM_STARVE. -/
def execStarvation (mem : Fin 144) (s : State) : Host.Outcome State Fault Refusal :=
  .next (onHw s (fun h => starve h mem.val))

/-- `STREAMER_TRANSFER` (R178): A streamer moves one word between the loft and its trough when both sides
allow. -/
def execStreamerTransfer (n : Fin 128) (st : Fin 2) (ecc : Ecc) (s : State) :
    Host.Outcome State Fault Refusal :=
  .next (onMem s (fun m h => streamerTransfer m h n.val st.val ecc))

/-- `STREAMER_ENABLE` (R205): Setting PS_CTL.EN from 0 to 1 sets i to 0 and starts the streamer, or sets
NOSIDE. -/
def execStreamerEnable (n : Fin 128) (st : Fin 2) (s : State) : Host.Outcome State Fault Refusal :=
  .next (onMem s (fun m h => busWrite m h (aPS_CTL n.val st.val) (oneField h (aPS_CTL n.val st.val) fPS_CTL_EN 1)))

/-- `FORWARDER_SEND` (R185): The forwarder pops readable words and sends them as network pushes to the
remote trough. -/
def execForwarderSend (n : Fin 128) (k : Fin 8) (ecc : Ecc) (s : State) : Host.Outcome State Fault Refusal :=
  .next (onHw s (fun h => forward s.mem h (8 * n.val + k.val) ecc))

/-- `FORWARDER_RELEASE` (R185): Words the remote trough accepted are released from the next cycle. -/
def execForwarderRelease (n : Fin 128) (k : Fin 8) (count : Nat) (s : State) :
    Host.Outcome State Fault Refusal :=
  .next (onHw s (fun h => fwdRelease h (8 * n.val + k.val) count))

/-- `TRG_HWM_READ` (R186): A read of TRG_HWM returns the largest occupied count and restarts the register. -/
def execTrgHwmRead (n : Fin 128) (k : Fin 8) (s : State) : Host.Outcome State Fault Refusal :=
  .next (onHw s (fun h => busRead h (aTRG_HWM n.val k.val)))

/-- `TRG_CFG_WRITE` (R203): A write of TRG_CFG is applied, restricted while enabled, with pointers reset on
enabling. -/
def execTrgCfgWrite (n : Fin 128) (k : Fin 8) (v : BitVec 64) (s : State) : Host.Outcome State Fault Refusal :=
  .next (onMem s (fun m h => busWrite m h (aTRG_CFG n.val k.val) (v)))

/-- `FLUSH` (R188): Writing TRG_CMD.FLUSH rolls back an open packet and sets all pointers to the write
pointer. -/
def execFlush (n : Fin 128) (k : Fin 8) (s : State) : Host.Outcome State Fault Refusal :=
  .next (onMem s (fun m h => busWrite m h (aTRG_CMD n.val k.val) (1)))

/-- `MUCK_OUT_SEGMENT_START` (R196): After PACE µs the engine takes its next segment into the save buffer. -/
def execMuckOutSegmentStart (y : Fin 16) (saved : List Ecc) (s : State) : Host.Outcome State Fault Refusal :=
  .next (onMem s (fun m h => muckStart m h y.val saved))

/-- `MUCK_OUT_SEGMENT_COMPLETE` (R199): The segment's test ends and its words are written back with findings
applied. -/
def execMuckOutSegmentComplete (y : Fin 16) (badRows : List Nat) (s : State) : Host.Outcome State Fault Refusal :=
  .next (onHw s (fun h => muckComplete h y.val badRows))

/-- `LEDGER_WRITE` (R422): Firmware erases the older ledger slot and writes pages ending with a commit page; a power
loss may cut the erase, `cut` 0, or the write of page p, `cut` p + 1 (R425). -/
def execLedgerWrite (cut : Option (Fin 257)) (s : State) : Host.Outcome State Fault Refusal :=
  if ¬ fwRuns s.hw then .next s
  else
    let uid := (reg s.hw (aHI_UID 0)).toNat + (reg s.hw (aHI_UID 1)).toNat * 2 ^ 64
    let r := ledgerWrite s.nv s.hw uid (cut.map (·.val))
    .next { s with hw := r.2, nv := r.1 }

/-- `DRAM_CONFIG_CHECK` (R208): At START-UP firmware checks the channels and training result and disables
DRAM with DRAM_CONFIG when unsupported. -/
def execDramConfigCheck (chans : List DramChan) (s : State) : Host.Outcome State Fault Refusal :=
  .next (onHw s (fun h => dramConfigCheck h chans))

/-- `DRAM_LINE_ACCESS` (R211): A memory controller reads or writes a line, correcting up to two bytes or
returning poisoned words. -/
def execDramLineAccess (line : BitVec 30) (wr : Option LineWrite) (err : List (Fin 32 × Fin 16)) (s : State) :
    Host.Outcome State Fault Refusal :=
  .next (onMem s (fun m h => dramLineAccess m h line.toNat wr err))

/-- `DRAM_REFRESH` (R215): A per-bank refresh command falls due at the channel's refresh interval. -/
def execDramRefresh (c : Fin 4) (s : State) : Host.Outcome State Fault Refusal :=
  .next (onHw s (fun h => dramRefresh h c.val))

/-- `MR4_READ` (R215): Every 16 ms the controller reads mode register 4 of every die and classes the
temperature. -/
def execMr4Read (c : Fin 4) (readings : List (BitVec 8)) (s : State) :
    Host.Outcome State Fault Refusal :=
  .next (onHw s (fun h => mr4Read h c.val readings))

/-- `HOTPOL_APPLY` (R217): Firmware applies THROTTLE or STOP to the hot channel within 100 µs. -/
def execHotpolApply (c : Fin 4) (s : State) : Host.Outcome State Fault Refusal :=
  .next (onHw s (fun h => hotpolApply h c.val))

/-- `TRAINING_PAUSE_DUE` (R219): The interval I since the last pause expires and a training pause falls due. -/
def execTrainingPauseDue (c : Fin 4) (s : State) : Host.Outcome State Fault Refusal :=
  .next (onHw s (fun h => pauseDue h c.val))

/-- `TRAINING_PAUSE_START` (R220): A due pause starts, at once or in the cycle after the aligned gate
strobe. -/
def execTrainingPauseStart (c : Fin 4) (s : State) : Host.Outcome State Fault Refusal :=
  .next (onHw s (fun h => pauseStart h c.val))

/-- `GRACE_EXPIRY` (R220): No strobe came within GRACE, so the pause starts unaligned and
DRAM_TRAIN_UNALIGNED is raised. -/
def execGraceExpiry (c : Fin 4) (s : State) : Host.Outcome State Fault Refusal :=
  .next (onHw s (fun h => graceExpiry h c.val))

/-- `TRAINING_PAUSE_END` (R219): A pause ends, delays are moved and the interval I adapts to the measured
drift. -/
def execTrainingPauseEnd (c : Fin 4) (drift : BitVec 8) (s : State) : Host.Outcome State Fault Refusal :=
  .next (onMem s (fun m h => endPause m h c.val drift))

/-- `TRANSLATION_WALK` (R221): The translation unit completes a walk of at most two entries and forwards the
translated request. -/
def execTranslationWalk (va : BitVec 40) (wr : Bool) (src : Fin 40) (len : Nat) (eccs : List Ecc) (s : State) :
    Host.Outcome State Fault Refusal :=
  .next (onHw s (fun h => walkDone s.mem h va.toNat wr src.val len eccs))

/-- `TU_INV` (R224): Writing TU_INV.GO = 1 starts emptying the translation cache. -/
def execTuInv (s : State) : Host.Outcome State Fault Refusal :=
  .next (onMem s (fun m h => busWrite m h (aTU_INV) (1)))

/-- `INVALIDATION_COMPLETE` (R224): The cache is empty and TU_INV.BUSY returns to 0. -/
def execInvalidationComplete (s : State) : Host.Outcome State Fault Refusal :=
  .next (onHw s (fun h => invDone h))

end Sys2Proof.Machine
end

