-- ==== Sys2Proof/Machine/NocCmds.lean ====
section
/-!
DEFINITION. The meanings of the commands of the on-chip network (chapter 9).
-/

namespace Sys2Proof.Machine

/-- `NOC_REQUEST_SEND` (R234): A requester sends a request once it holds credits at DST and response
buffers. -/
def execNocRequestSend (op : BitVec 4) (f : Flit) (s : State) :
    Host.Outcome State Fault Refusal :=
  .next (onHw s (fun h => sendOrRefuse h op.toNat f))

/-- `READ` (R230): A READ request arrives at its destination and is served with RDATA. -/
def execRead (f : Flit) (pass : Passage) (eccs : List Ecc) (s : State) : Host.Outcome State Fault Refusal :=
  .next (onMem s (fun m h => arriveAny m h 0 f pass eccs))

/-- `WRITE` (R230): A WRITE request arrives at its destination and is acknowledged. -/
def execWrite (f : Flit) (pass : Passage) (eccs : List Ecc) (s : State) : Host.Outcome State Fault Refusal :=
  .next (onMem s (fun m h => arriveAny m h 1 f pass eccs))

/-- `WRMASK` (R230): A masked byte write request arrives and is acknowledged. -/
def execWrmask (f : Flit) (pass : Passage) (eccs : List Ecc) (s : State) : Host.Outcome State Fault Refusal :=
  .next (onMem s (fun m h => arriveAny m h 2 f pass eccs))

/-- `NOC_PUSH` (R230): A network PUSH to a trough arrives and is acknowledged or waits for room. -/
def execNocPush (f : Flit) (pass : Passage) (s : State) : Host.Outcome State Fault Refusal :=
  .next (onMem s (fun m h => arriveAny m h 3 f pass []))

/-- `PULL` (R230): A network PULL takes readable words and releases them, or waits, or returns not-valid. -/
def execPull (f : Flit) (pass : Passage) (s : State) : Host.Outcome State Fault Refusal :=
  .next (onMem s (fun m h => arriveAny m h 4 f pass []))

/-- `NOC_PKT_OPEN` (R230): A network PKT_OPEN arrives at a trough. -/
def execNocPktOpen (f : Flit) (pass : Passage) (s : State) : Host.Outcome State Fault Refusal :=
  .next (onMem s (fun m h => arriveAny m h 5 f pass []))

/-- `NOC_PKT_CLOSE` (R192): A network PKT_CLOSE with its carried length word commits the packet. -/
def execNocPktClose (f : Flit) (pass : Passage) (s : State) : Host.Outcome State Fault Refusal :=
  .next (onMem s (fun m h => arriveAny m h 6 f pass []))

/-- `NOC_PKT_ABORT` (R230): A network PKT_ABORT rolls back the open packet. -/
def execNocPktAbort (f : Flit) (pass : Passage) (s : State) : Host.Outcome State Fault Refusal :=
  .next (onMem s (fun m h => arriveAny m h 7 f pass []))

/-- `REGRD` (R230): A register read request arrives at an endpoint. -/
def execRegrd (f : Flit) (pass : Passage) (s : State) : Host.Outcome State Fault Refusal :=
  .next (onMem s (fun m h => arriveAny m h 8 f pass []))

/-- `REGWR` (R230): A register write request arrives at an endpoint. -/
def execRegwr (f : Flit) (pass : Passage) (s : State) : Host.Outcome State Fault Refusal :=
  .next (onMem s (fun m h => arriveAny m h 9 f pass []))

/-- `RDBLK` (R230): A block read request arrives and is answered one RDATA per flit. -/
def execRdblk (f : Flit) (pass : Passage) (eccs : List Ecc) (s : State) : Host.Outcome State Fault Refusal :=
  .next (onMem s (fun m h => arriveAny m h 0xA f pass eccs))

/-- `WRBLK` (R230): A block write request arrives and is acknowledged. -/
def execWrblk (f : Flit) (pass : Passage) (eccs : List Ecc) (s : State) : Host.Outcome State Fault Refusal :=
  .next (onMem s (fun m h => arriveAny m h 0xB f pass eccs))

/-- `RDATA` (R239): A data response arrives at its requester, which checks its CRC and may request it again. -/
def execRdata (r : Fin 40) (rb : BitVec 5) (pass : Passage) (s : State) : Host.Outcome State Fault Refusal :=
  .next (onHw s (fun h => takeData h r.val rb.toNat pass))

/-- `ACK` (R239): An acknowledgement arrives and frees the requester's buffer and credit. -/
def execAck (r : Fin 40) (rb : BitVec 5) (pass : Passage) (s : State) : Host.Outcome State Fault Refusal :=
  .next (onHw s (fun h => takeAckOf h r.val rb.toNat pass))

/-- `NACK` (R238): A NACK arrives and the requester resends the flit and later ones in order. -/
def execNack (r : Fin 40) (rb : BitVec 5) (pass : Passage) (s : State) : Host.Outcome State Fault Refusal :=
  .next (onHw s (fun h => deliverNack h r.val rb.toNat pass))

/-- `YARD_WAKE_COMPLETE` (R405): A yard's wake completes, its clock restarts, crossings reopen and waiting
requests are served. -/
def execYardWakeComplete (y : Fin 16) (s : State) : Host.Outcome State Fault Refusal :=
  .next (onMem s (fun m h => wakeServe m h y.val))

end Sys2Proof.Machine
end

