-- ==== Sys2Proof/Machine/ObserveCmds.lean ====
section
/-!
DEFINITION. The meanings of the commands of findings, alarms, vectors and freeze (chapter 18, R349, R428).
-/

namespace Sys2Proof.Machine

/-- `MSIX_HOLD_EXPIRY` (R349): A vector's 100 µs interval ends and a held cause sends its message. -/
def execMsixHoldExpiry (v : Fin 64) (s : State) : Host.Outcome State Fault Refusal :=
  .next (onHw s (fun h => vectorInterval h v.val))

/-- `HOST_EVENT_VECTOR` (R349): An occurrence of an assigned scheduler event sends its host vector. -/
def execHostEventVector (v : Fin 64) (s : State) : Host.Outcome State Fault Refusal :=
  .next (onHw s (fun h => hostEvent h v.val))

/-- `FINDING_POST` (R434): A hardware finding posts a record to the queue and increments its code's counter
and latch. -/
def execFindingPost (f : Finding) (s : State) : Host.Outcome State Fault Refusal :=
  .next (onHw s (fun h => if frozen h ∨ ¬ findingCodes.contains f.code.toNat then h
    else postFinding h f.kind.toNat f.code.toNat f.router.toNat f.addr.toNat f.detail.toNat))

/-- `RECORD_DRAIN` (R434): Firmware drains a queued record into the log and raises its alarm. -/
def execRecordDrain (s : State) : Host.Outcome State Fault Refusal :=
  .next (onHw s (fun h => drainRecord h))

/-- `FINDING_COUNTER_TRANSFER` (R435): Firmware moves latched first records and adds finding counters into
the alarm table. -/
def execFindingCounterTransfer (code : BitVec 9) (s : State) : Host.Outcome State Fault Refusal :=
  .next (onHw s (fun h => transferFinding h code.toNat))

/-- `ALARM_SUMMARY_SEND` (R442): A device sends an ALARM summary to device 0 at first occurrence and at most
every 10 ms after. -/
def execAlarmSummarySend (code : BitVec 9) (s : State) : Host.Outcome State Fault Refusal :=
  .next (onHw s (fun h => summarySend h code.toNat))

/-- `FREEZE_N_FALL` (R444): A falling edge of FREEZE_N requests a freeze. -/
def execFreezeNFall (s : State) : Host.Outcome State Fault Refusal :=
  .next (onHw s (fun h => freezeRequest h 1))

/-- `HI_FRZ_FREEZE` (R444): Writing HI_FRZ.FRZ freezes the device at once. -/
def execHiFrzFreeze (s : State) : Host.Outcome State Fault Refusal :=
  .next (onMem s (fun m h => busWrite m h (aHI_FRZ) (1)))

/-- `HI_FRZ_RESUME` (R449): Writing HI_FRZ.RESUME requests a resume. -/
def execHiFrzResume (low : Bool) (s : State) : Host.Outcome State Fault Refusal :=
  .next (onHw s (fun h => resumeRequest h low))

/-- `FREEZE_STOP` (R444): Once DRAM is in self-refresh every state-advancing clock stops on one REFCLK edge
and the device is FROZEN. -/
def execFreezeStop (s : State) : Host.Outcome State Fault Refusal :=
  .next (onHw s (fun h => freezeStop h))

/-- `TARM` (R446): Writing FR_CTL.TARM arms a timed freeze. -/
def execTarm (s : State) : Host.Outcome State Fault Refusal :=
  .next (onMem s (fun m h => busWrite m h (aFR_CTL) (oneField h aFR_CTL fFR_CTL_TARM 1)))

/-- `TCANCEL` (R446): Writing FR_CTL.TCANCEL disarms the timed freeze. -/
def execTcancel (s : State) : Host.Outcome State Fault Refusal :=
  .next (onMem s (fun m h => busWrite m h (aFR_CTL) (oneField h aFR_CTL fFR_CTL_TCANCEL 1)))

/-- `TIMED_FREEZE_START` (R446): 1 µs before the freeze time, DRAM self-refresh entry starts. -/
def execTimedFreezeStart (s : State) : Host.Outcome State Fault Refusal :=
  .next (onHw s (fun h => freezeBegin h))

/-- `SELF_REFRESH_RETURN` (R447): A controller out for readout returns to self-refresh 10 µs after its last
read. -/
def execSelfRefreshReturn (c : Fin 4) (s : State) : Host.Outcome State Fault Refusal :=
  .next (onHw s (fun h => srReturn h c.val))

/-- `FRZ_ADDR` (R448): The TAP selects a local address for frozen readout. -/
def execFrzAddr (a : BitVec 48) (s : State) : Host.Outcome State Fault Refusal :=
  .next (onHw s (fun h => tapSelect h a))

/-- `FRZ_DATA` (R448): The TAP loads 8 bytes at the address with status and advances the address. -/
def execFrzData (s : State) : Host.Outcome State Fault Refusal :=
  .next (onHw s (fun h => tapRead s.mem h))

/-- `TAP_RESUME` (R448): FRZ_CTL written with 0b01 resumes the device. -/
def execTapResume (low : Bool) (s : State) : Host.Outcome State Fault Refusal :=
  .next (onHw s (fun h => resumeRequest h low))

/-- `TAP_READOUT` (R448): FRZ_CTL written with 0b10 starts FREEZE_READOUT. -/
def execTapReadout (s : State) : Host.Outcome State Fault Refusal :=
  .next (onHw s (fun h => frozenReadout s.mem h))

/-- A resume that completes answers the `FREEZE_RESUME` commands that asked for it (Table 14.13). -/
def answerResume (h : Hw) : Hw :=
  if h.mode = .frozen then h
  else answerLater h 0xA11 fun h _ => some (stOk, leBytes 8 (getF h aHI_FRZ fHI_FRZ_LINKRT))

/-- After a resume the controllers serve the requests that waited since self-refresh was entered (R444). -/
def resumeServed (m : Sparse Byte) (h : Hw) : Sparse Byte × Hw :=
  if frozen h then (m, h) else (List.range 4).foldl (fun s c => serveWaiting s.1 s.2 c) (m, h)

/-- `RESUME_COMPLETE` (R449): After a training pause every stopped clock restarts on one edge and the device
returns to its previous state. -/
def execResumeComplete (linksDropped : Bool) (drifts : List (BitVec 8)) (s : State) :
    Host.Outcome State Fault Refusal :=
  .next (onMem s (fun m h => resumeServed m (answerResume (resumeDone h linksDropped drifts))))

/-- `MP_UCE` (R428): MP SRAM returns an uncorrectable error, raising the FATAL alarm MP_UCE, restarting
firmware and putting the device into RECOVERY, while correctable errors count in AL_STAT.MPCE. (DEDUCED, log 155) -/
def execMpUce (correctable : Bool) (s : State) : Host.Outcome State Fault Refusal :=
  .next (onHw s (fun h =>
    if ¬ h.clocked ∨ h.mode = .frozen then h
    else if correctable then bump h aAL_STAT fAL_STAT_MPCE 1
    else raiseAlarm h 0x018 0xFF 0 0))

end Sys2Proof.Machine
end

