-- ==== Sys2Proof/Machine/PortCmds.lean ====
section
/-!
DEFINITION. The meanings of the commands of the converter and fronthaul ports (chapter 11).
-/

namespace Sys2Proof.Machine

/-- `SYSREF_EDGE` (R287): A SYSREF rising edge is timestamped, aligns armed directions and is checked in
continuous mode. -/
def execSysrefEdge (s : State) : Host.Outcome State Fault Refusal :=
  .next (onHw s (fun h => sysref h))

/-- `JL_ARM` (R287): Writing ARM makes a direction take the next SYSREF edge. -/
def execJlArm (j : Fin 4) (tx : Bool) (s : State) : Host.Outcome State Fault Refusal :=
  .next (onMem s (fun m h => busWrite m h (aJsr (2 * j.val + tx.toNat)) (oneField h (aJsr (2 * j.val + tx.toNat)) fJL_RXSR_ARM 1)))

/-- `JESD_DIRECTION_RESET` (R306): Writing RXRST or TXRST re-establishes the direction. -/
def execJesdDirectionReset (j : Fin 4) (tx : Bool) (s : State) : Host.Outcome State Fault Refusal :=
  .next (onMem s (fun m h => busWrite m h (aJL_CTL j.val) (oneField h (aJL_CTL j.val) (if tx then fJL_CTL_TXRST else fJL_CTL_RXRST) 1)))

/-- `JESD_LINK_ESTABLISHED` (R288): All lanes reach lock and the direction releases data. -/
def execJesdLinkEstablished (j : Fin 4) (tx : Bool) (ilasOk : Bool) (s : State) :
    Host.Outcome State Fault Refusal :=
  .next (onHw s (fun h => jEstablish h (2 * j.val + tx.toNat) ilasOk))

/-- `JESD_LANE_LOSS` (R289): A lane loses lock or a 204B resynchronisation is requested and the direction
goes down. -/
def execJesdLaneLoss (j : Fin 4) (tx : Bool) (lane : Fin 8) (s : State) : Host.Outcome State Fault Refusal :=
  .next (onHw s (fun h => jLoss h (2 * j.val + tx.toNat) lane.val))

/-- `JESD_BOUNDARY` (R291): A receive or transmit boundary falls and raises its event. -/
def execJesdBoundary (j : Fin 4) (tx : Bool) (s : State) : Host.Outcome State Fault Refusal :=
  .next (onHw s (fun h => jBoundary h (2 * j.val + tx.toNat)))

/-- `JESD_RX_DATA` (R292): Received samples are mapped into tagged words and pushed to the receive trough. -/
def execJesdRxData (j : Fin 4) (samples : List (BitVec 32 × BitVec 32)) (badLanes : BitVec 8) (s : State) :
    Host.Outcome State Fault Refusal :=
  .next (onHw s (fun h => jRxData h j.val samples badLanes))

/-- `JESD_TX_PULL` (R294): The transmit direction pulls words into its prefetch buffer when it has room. -/
def execJesdTxPull (j : Fin 4) (s : State) : Host.Outcome State Fault Refusal :=
  .next (onHw s (fun h => jTxPull h j.val))

/-- `JESD_TX_SAMPLE` (R294): In each sample slot the next word is sent, or zeros for gap, poison, alignment,
mute or blank. -/
def execJesdTxSample (j : Fin 4) (s : State) : Host.Outcome State Fault Refusal :=
  .next (onHw s (fun h => jTxSample h j.val))

/-- `ETH_FRAME_RECEIVE` (R298): A received frame is checked and classified and its eCPRI payload committed
or aborted as a trough packet. -/
def execEthFrameReceive (m : Fin 4) (sp : Fin 4) (fr : RxFrame) (s : State) :
    Host.Outcome State Fault Refusal :=
  .next (onHw s (fun h => ethReceive h (4 * m.val + sp.val) fr))

/-- `ETH_FRAME_TRANSMIT` (R300): The highest eligible class sends a frame built from its committed trough
packet. -/
def execEthFrameTransmit (m : Fin 4) (sp : Fin 4) (parityBad : Bool) (eccs : List Ecc) (s : State) :
    Host.Outcome State Fault Refusal :=
  .next (onHw s (fun h => ethTransmit s.mem h (4 * m.val + sp.val) parityBad eccs))

/-- `SHAPER_REFILL_TICK` (R303): At each refill tick each class bucket gains RATE up to its burst. -/
def execShaperRefillTick (s : State) : Host.Outcome State Fault Refusal :=
  .next (onHw s refillAll)

/-- `FORGIVE` (R303): Writing FORGIVE sets a negative bucket to 0. -/
def execForgive (m : Fin 4) (sp : Fin 4) (c : Fin 8) (s : State) : Host.Outcome State Fault Refusal :=
  .next (onMem s (fun me h => busWrite me h (aETH_TC (4 * m.val + sp.val) c.val) (oneField h (aETH_TC (4 * m.val + sp.val) c.val) fETH_TC_FORGIVE 1)))

/-- `ETH_TSLO_READ` (R307): A read of ETH_TSLO pops the oldest timestamp FIFO entry. -/
def execEthTsloRead (m : Fin 4) (sp : Fin 4) (s : State) : Host.Outcome State Fault Refusal :=
  .next (onHw s (fun h => busRead h (aETH_TSLO (4 * m.val + sp.val))))

/-- `RCLK_SQUELCH` (R305): Loss of signal or lock on the recovered lane holds RCLK_OUT low and sets SQ. -/
def execRclkSquelch (s : State) : Host.Outcome State Fault Refusal :=
  .next (onHw s (fun h => rclk h true))

/-- `RCLK_RESUME` (R305): 10 ms after lock returns the recovered clock resumes. -/
def execRclkResume (s : State) : Host.Outcome State Fault Refusal :=
  .next (onHw s (fun h => rclk h false))

/-- `ECPRI_DELAY_RESPONSE` (R314): Firmware answers an eCPRI type 5 request with Response and Follow_Up
within 1 ms. -/
def execEcpriDelayResponse (m : Fin 4) (sp : Fin 4) (req : List (BitVec 8)) (secs : BitVec 48) (ns : BitVec 32) (s : State) :
    Host.Outcome State Fault Refusal :=
  .next (onHw s (fun h => delayAnswer h (4 * m.val + sp.val) req secs.toNat ns.toNat))

/-- `TIMING_RING_RECORD` (R313): Firmware writes a timing ring record for a PTP frame, type 5 message or
popped timestamp. -/
def execTimingRingRecord (m : Fin 4) (sp : Fin 4) (rec : RingRec) (s : State) :
    Host.Outcome State Fault Refusal :=
  .next (onMem s (fun me h => timingRecord me h (4 * m.val + sp.val) rec))

/-- `ETH_LINK_CHANGE` (R307): An Ethernet sub-port's link comes up or goes down, updating ETH_PSTAT.LINK and
setting LINKCHG. -/
def execEthLinkChange (m : Fin 4) (sp : Fin 4) (up : Bool) (s : State) : Host.Outcome State Fault Refusal :=
  .next (onHw s (fun h => ethLink h (4 * m.val + sp.val) up))

end Sys2Proof.Machine
end

