-- ==== Sys2Proof/Machine/PowerCmds.lean ====
section
/-!
DEFINITION. The meanings of the commands of clocks, power and ageing (chapters 16 and 17).
-/

namespace Sys2Proof.Machine

/-- `REFCLK_LOST` (R394): The missing-pulse detector declares the reference lost and every PLL holds. -/
def execRefclkLost (s : State) : Host.Outcome State Fault Refusal :=
  .next (onHw s (fun h => if h.phase = .por then h else refLost h))

/-- `DEAD_SOURCE_SWITCH` (R398): A multiplexer whose old clock shows no edge for 8 cycles switches at once. -/
def execDeadSourceSwitch (mux : BitVec 5) (s : State) : Host.Outcome State Fault Refusal :=
  .next (onHw s (fun h => if h.phase = .por then h else deadSwitch h mux.toNat))

/-- `REFCLK_PRESENT` (R396): After 1 ms of edges the reference is declared present and relock may start. -/
def execRefclkPresent (s : State) : Host.Outcome State Fault Refusal :=
  .next (onHw s (fun h => if h.phase = .por then h else refPresent h))

/-- `RELOCK` (R396): Writing CLK_CTL.RELOCK starts a relock if the reference is present. -/
def execRelock (s : State) : Host.Outcome State Fault Refusal :=
  .next (onMem s (fun m h => busWrite m h (aCLK_CTL) (oneField h aCLK_CTL fCLK_CTL_RELOCK 1)))

/-- `RELOCK_COMPLETE` (R396): The PLLs relock, hold bits clear and the witness returns to REFCLK. -/
def execRelockComplete (s : State) : Host.Outcome State Fault Refusal :=
  .next (onHw s (fun h => if h.phase = .por then h else relockDone h))

/-- `PLL_UNLOCK` (R397): A root or DRAM PLL loses lock with the reference present, raising a FATAL alarm. -/
def execPllUnlock (dram : Bool) (s : State) : Host.Outcome State Fault Refusal :=
  .next (onHw s (fun h => if h.phase = .por then h else pllUnlock h dram))

/-- `RAIL_FAULT` (R400): A rail out of range or a regulator at current limit for 1 µs raises a FATAL alarm. -/
def execRailFault (rail : Fin 25) (ocp : Bool) (s : State) : Host.Outcome State Fault Refusal :=
  .next (onHw s (fun h => if h.phase = .por then h else railFault h rail.val ocp))

/-- `VIN_LOW` (R401): VIN below 2.7 V for 10 µs sets VINLOW and raises its alarm. -/
def execVinLow (mv : BitVec 16) (s : State) : Host.Outcome State Fault Refusal :=
  .next (onHw s (fun h => if h.phase = .por then h else vinLow h mv.toNat))

/-- `VIN_HIGH` (R401): VIN above 5.5 V for 10 µs sets VINHIGH and raises its alarm. -/
def execVinHigh (mv : BitVec 16) (s : State) : Host.Outcome State Fault Refusal :=
  .next (onHw s (fun h => if h.phase = .por then h else vinHigh h mv.toNat))

/-- `YP_VOLT_WRITE` (R402): A change of YP_VOLT.CODE starts a rail slew, or is refused beyond neighbour
limits. -/
def execYpVoltWrite (y : Fin 16) (code : BitVec 8) (s : State) : Host.Outcome State Fault Refusal :=
  .next (onMem s (fun m h => busWrite m h (aYP_VOLT y.val) (code.setWidth 64)))

/-- `RAIL_SLEW_COMPLETE` (R402): A yard rail reaches its target code. -/
def execRailSlewComplete (y : Fin 16) (s : State) : Host.Outcome State Fault Refusal :=
  .next (onHw s (fun h => if h.phase = .por then h else slewDone h y.val))

/-- `YARD_POWER_DOWN_REQUEST` (R404): A MODE write of SLEEP or DEEP-SLEEP requests a power-down, which waits
until ready. -/
def execYardPowerDownRequest (y : Fin 16) (deep : Bool) (s : State) : Host.Outcome State Fault Refusal :=
  .next (onMem s (fun m h => busWrite m h (aYP_CTL y.val) (oneField h (aYP_CTL y.val) fYP_CTL_MODE (1 + deep.toNat))))

/-- `YARD_CLOCK_STOP` (R404): The yard clock stops, crossings close and the yard reaches SLEEP or begins
retention. -/
def execYardClockStop (y : Fin 16) (s : State) : Host.Outcome State Fault Refusal :=
  .next (onHw s (fun h => clockStop h y.val))

/-- `RAIL_RETENTION` (R404): The DEEP-SLEEP rail settles at 0.55 V. -/
def execRailRetention (y : Fin 16) (s : State) : Host.Outcome State Fault Refusal :=
  .next (onHw s (fun h => retention h y.val))

/-- `YARD_WAKE_REQUEST` (R405): A MODE write of RUN starts a wake. -/
def execYardWakeRequest (y : Fin 16) (s : State) : Host.Outcome State Fault Refusal :=
  .next (onMem s (fun m h => busWrite m h (aYP_CTL y.val) (oneField h (aYP_CTL y.val) fYP_CTL_MODE 0)))

/-- `YARD_TEMP_SPREAD` (R408): Two neighbours in RUN differ by more than 25 °C and the alarm is raised. -/
def execYardTempSpread (a : Fin 16) (b : Fin 16) (ta : BitVec 13) (tb : BitVec 13) (s : State) :
    Host.Outcome State Fault Refusal :=
  .next (onHw s (fun h => tempSpread h a.val b.val ta tb))

/-- `WINGO` (R412): Writing WINGO starts a 1 ms slack window. -/
def execWingo (y : Fin 16) (s : State) : Host.Outcome State Fault Refusal :=
  .next (onMem s (fun m h => busWrite m h (aAG_CTL y.val) (oneField h (aAG_CTL y.val) fAG_CTL_WINGO 1)))

/-- `SLACK_WINDOW_END` (R412): The slack window ends with its near-miss and transition counts. -/
def execSlackWindowEnd (y : Fin 16) (near : BitVec 32) (trans : BitVec 32) (map : BitVec 32) (s : State) :
    Host.Outcome State Fault Refusal :=
  .next (onHw s (fun h => windowEnd h y.val near.toNat trans.toNat map.toNat))

/-- `ROGO` (R413): Writing ROGO starts a ring-oscillator measurement. -/
def execRogo (y : Fin 16) (s : State) : Host.Outcome State Fault Refusal :=
  .next (onMem s (fun m h => busWrite m h (aAG_CTL y.val) (oneField h (aAG_CTL y.val) fAG_CTL_ROGO 1)))

/-- `RO_MEASUREMENT_END` (R413): After 16,384 PCLK cycles the pair counts are available. -/
def execRoMeasurementEnd (y : Fin 16) (counts : List (BitVec 32 × BitVec 32)) (s : State) :
    Host.Outcome State Fault Refusal :=
  .next (onHw s (fun h => roEnd h y.val counts))

/-- `EM_UPDATE` (R414): Every 10 s the electromigration monitor updates AG_EM.PPM. -/
def execEmUpdate (y : Fin 16) (ppm : BitVec 32) (s : State) : Host.Outcome State Fault Refusal :=
  .next (onHw s (fun h => emUpdate h y.val ppm.toNat))

/-- `YARD_REPLAN` (R416): Firmware re-plans a yard's voltage by slack windows, daily, on temperature move,
command or start-up. -/
def execYardReplan (y : Fin 16) (why : ReplanWhy) (windows : List SlackWin) (s : State) :
    Host.Outcome State Fault Refusal :=
  .next (onHw s (fun h => if fwRuns h then replanYard h y.val why windows else h))

/-- `RATE_REFERENCE` (R421): Every 2,160 service hours firmware records life consumed as the rate reference. -/
def execRateReference (hours : BitVec 32) (s : State) : Host.Outcome State Fault Refusal :=
  .next (onHw s (fun h => if fwRuns h then rateReference h hours.toNat else h))

end Sys2Proof.Machine
end

