-- ==== Sys2Proof/Machine/StartCmds.lean ====
section
/-!
DEFINITION. The meanings of the commands of power-on, reset, boot and recovery (chapter 19, R482).
-/

namespace Sys2Proof.Machine

/-- `POR` (R456): VIN below 2.45 V for 2 µs asserts POR and turns everything off. -/
def execPor (s : State) : Host.Outcome State Fault Refusal :=
  .next (porState s)

/-- `THERMAL_TRIP` (R482): A yard sensor at 140 °C for 100 µs asserts POR. -/
def execThermalTrip (s : State) : Host.Outcome State Fault Refusal :=
  .next (onHw (porState s) (fun h => { h with tripped := true }))

/-- `VIN_GOOD` (R456): VIN stays at 2.60 V for 100 µs and the rails start in order. -/
def execVinGood (st : Straps) (mv : BitVec 16) (hot : Bool) (s : State) : Host.Outcome State Fault Refusal :=
  .next (onHw s (fun h => vinGood h st mv.toNat hot))

/-- `PLL_LOCK` (R389): The root and DRAM PLLs lock and the MP runs the boot ROM. -/
def execPllLock (s : State) : Host.Outcome State Fault Refusal :=
  .next (onHw s (fun h => pllLock h))

/-- `FIRMWARE_BOOT` (R455): The boot ROM checks both firmware copies and starts the passing one with the
higher SEQNO. -/
def execFirmwareBoot (a b : Option FwCheck) (s : State) : Host.Outcome State Fault Refusal :=
  .next (onHw s (fun h => bootRom h (copyCheck s false a) (copyCheck s true b)))

/-- `FIRMWARE_START` (R457): Firmware reads the ledger, sets repairs, voltages, pools and twiddle tables,
and trains the DRAM. -/
def execFirmwareStart (chans : List DramChan) (differ : List (Fin 2)) (s : State) :
    Host.Outcome State Fault Refusal :=
  .next (onHw s (fun h => firmwareStart s.nv h chans differ))

/-- `FIRMWARE_READY` (R457): Firmware releases the yards, sets FWRDY, sends vector 19 and starts roll call
on device 0. -/
def execFirmwareReady (s : State) : Host.Outcome State Fault Refusal :=
  .next (onHw s (fun h => firmwareReady h))

/-- `RESET_N_ASSERT` (R460): RESET_N held low resets the items of its column. -/
def execResetNAssert (taken : Bool) (s : State) : Host.Outcome State Fault Refusal :=
  .next (if taken then resetN s else s)

/-- `RESET_N_RELEASE` (R460): RESET_N rises and the device runs steps 2 to 6 of the power-on sequence. -/
def execResetNRelease (st : Straps) (s : State) : Host.Outcome State Fault Refusal :=
  .next (onHw s (fun h => resetNRelease h st))

/-- `RECOVERY_ACTION_END` (R468): The recovery action ends and the device restarts its functions or stays in
RECOVERY per AUTORUN. -/
def execRecoveryActionEnd (present : Bool) (failed : List (BitVec 16)) (s : State) :
    Host.Outcome State Fault Refusal :=
  .next (onMem s (fun m h => recoveryEnd m h present (failed.map BitVec.toNat)))

end Sys2Proof.Machine
end

