-- ==== Sys2Proof/Machine/TimeCmds.lean ====
section
/-!
DEFINITION. The meanings of the commands of the timebase and the gate schedule (chapter 12).
-/

namespace Sys2Proof.Machine

/-- `TB_INC_WRITE` (R310): A write of TB_INC sets the increment from the next cycle, or is discarded if out
of range or chain-owned. -/
def execTbIncWrite (v : BitVec 64) (s : State) : Host.Outcome State Fault Refusal :=
  .next (onMem s (fun m h => busWrite m h (aTB_INC) (v)))

/-- `TB_STEP` (R310): Writing TB_STEP.GO adds OFS nanoseconds to the counter. -/
def execTbStep (v : BitVec 64) (s : State) : Host.Outcome State Fault Refusal :=
  .next (onMem s (fun m h => busWrite m h (aTB_STEP) (v ||| BitVec.ofNat 64 (2 ^ 63))))

/-- `TB_SET` (R310): Writing TB_SET1.GO loads the counter with a new time. -/
def execTbSet (v : BitVec 64) (s : State) : Host.Outcome State Fault Refusal :=
  .next (onMem s (fun m h => busWrite m h (aTB_SET1) (v ||| BitVec.ofNat 64 (2 ^ 63))))

/-- `TB_TIME0_READ` (R309): A read of TB_TIME0 returns FRAC and NS and latches SEC of the same cycle. -/
def execTbTime0Read (s : State) : Host.Outcome State Fault Refusal :=
  .next (onHw s (fun h => busRead h aTB_TIME0))

/-- `HOLDOVER_UPDATE` (R312): Every 1 ms the holdover term h is recomputed from temperature and ageing. -/
def execHoldoverUpdate (die : BitVec 13) (s : State) : Host.Outcome State Fault Refusal :=
  .next (onHw s (fun h => holdoverStep h die))

/-- `TIME_CAPTURE` (R315): A selected edge on the capture pad copies the interpolated counter into TB_CAP. -/
def execTimeCapture (falling : Bool) (half : Bool) (s : State) : Host.Outcome State Fault Refusal :=
  .next (onHw s (fun h => timeCapture h falling half))

/-- `PPS_RISE` (R316): The PPS pad rises at the first slot at or after NS = 0. -/
def execPpsRise (s : State) : Host.Outcome State Fault Refusal :=
  .next (onHw s (fun h => ppsUp h))

/-- `PPS_FALL` (R316): The PPS pad falls WIDTH µs after its rise. -/
def execPpsFall (s : State) : Host.Outcome State Fault Refusal :=
  .next (onHw s (fun h => ppsDown h))

/-- `GS_CTL_COMMIT` (R319): A write of GS_CTL commits the staged start, stop and period of an entry, or is
refused. -/
def execGsCtlCommit (i : Fin 64) (v : BitVec 64) (s : State) : Host.Outcome State Fault Refusal :=
  .next (onMem s (fun m h => busWrite m h (aGS_CTL i.val) (v)))

/-- `GATE_START` (R320): An armed entry's start time is reached: the start strobe and window open. -/
def execGateStart (i : Fin 64) (s : State) : Host.Outcome State Fault Refusal :=
  .next (onHw s (fun h => gateStartAt h i.val))

/-- `GATE_STOP` (R320): The stop time is reached: the window closes, the stop strobe fires and the next
occurrence is set. -/
def execGateStop (i : Fin 64) (s : State) : Host.Outcome State Fault Refusal :=
  .next (onHw s (fun h => gateStopAt h i.val))

end Sys2Proof.Machine
end

