-- ==== Sys2Proof/Machine/Dispatch.lean ====
section
/-!
DEFINITION. The meaning of each command: one arm per constructor, in the order of the opcode table.
-/

namespace Sys2Proof.Machine

def exec (i : Instr) (s : State) : Host.Outcome State Fault Refusal :=
  match i with
  | .diagnosticRegisterWrite addr wide v => Sys2Proof.Machine.execDiagnosticRegisterWrite addr wide v s
  | .countClear addr => Sys2Proof.Machine.execCountClear addr s
  | .hostBar2Access a => Sys2Proof.Machine.execHostBar2Access a s
  | .nop g u => Sys2Proof.Machine.execNop g u s
  | .mov g u => Sys2Proof.Machine.execMov g u s
  | .selv g u => Sys2Proof.Machine.execSelv g u s
  | .selnz g u => Sys2Proof.Machine.execSelnz g u s
  | .selneg g u => Sys2Proof.Machine.execSelneg g u s
  | .lixset g u => Sys2Proof.Machine.execLixset g u s
  | .acclr g u => Sys2Proof.Machine.execAcclr g u s
  | .add g u => Sys2Proof.Machine.execAdd g u s
  | .sub g u => Sys2Proof.Machine.execSub g u s
  | .neg g u => Sys2Proof.Machine.execNeg g u s
  | .abs g u => Sys2Proof.Machine.execAbs g u s
  | .min g u => Sys2Proof.Machine.execMin g u s
  | .max g u => Sys2Proof.Machine.execMax g u s
  | .cmpeq g u => Sys2Proof.Machine.execCmpeq g u s
  | .cmpgt g u => Sys2Proof.Machine.execCmpgt g u s
  | .shla g u => Sys2Proof.Machine.execShla g u s
  | .shra g u => Sys2Proof.Machine.execShra g u s
  | .mul g u => Sys2Proof.Machine.execMul g u s
  | .mac g u => Sys2Proof.Machine.execMac g u s
  | .msu g u => Sys2Proof.Machine.execMsu g u s
  | .cmul g u => Sys2Proof.Machine.execCmul g u s
  | .cmac g u => Sys2Proof.Machine.execCmac g u s
  | .cmsu g u => Sys2Proof.Machine.execCmsu g u s
  | .cjmac g u => Sys2Proof.Machine.execCjmac g u s
  | .cmag2 g u => Sys2Proof.Machine.execCmag2 g u s
  | .cmagac g u => Sys2Proof.Machine.execCmagac g u s
  | .cscl g u => Sys2Proof.Machine.execCscl g u s
  | .crot g u => Sys2Proof.Machine.execCrot g u s
  | .cconj g u => Sys2Proof.Machine.execCconj g u s
  | .bpack g u => Sys2Proof.Machine.execBpack g u s
  | .bexpd g u => Sys2Proof.Machine.execBexpd g u s
  | .balign g u => Sys2Proof.Machine.execBalign g u s
  | .brenorm g u => Sys2Proof.Machine.execBrenorm g u s
  | .badd g u => Sys2Proof.Machine.execBadd g u s
  | .bsub g u => Sys2Proof.Machine.execBsub g u s
  | .bmul g u => Sys2Proof.Machine.execBmul g u s
  | .bmac g u => Sys2Proof.Machine.execBmac g u s
  | .bexpr g u => Sys2Proof.Machine.execBexpr g u s
  | .beset g u => Sys2Proof.Machine.execBeset g u s
  | .and g u => Sys2Proof.Machine.execAnd g u s
  | .or g u => Sys2Proof.Machine.execOr g u s
  | .xor g u => Sys2Proof.Machine.execXor g u s
  | .andn g u => Sys2Proof.Machine.execAndn g u s
  | .not g u => Sys2Proof.Machine.execNot g u s
  | .bitsel g u => Sys2Proof.Machine.execBitsel g u s
  | .lsl g u => Sys2Proof.Machine.execLsl g u s
  | .lsr g u => Sys2Proof.Machine.execLsr g u s
  | .rol g u => Sys2Proof.Machine.execRol g u s
  | .popc g u => Sys2Proof.Machine.execPopc g u s
  | .clz g u => Sys2Proof.Machine.execClz g u s
  | .erev g u => Sys2Proof.Machine.execErev g u s
  | .ebcst g u => Sys2Proof.Machine.execEbcst g u s
  | .eins g u => Sys2Proof.Machine.execEins g u s
  | .epick g u => Sys2Proof.Machine.execEpick g u s
  | .iqswap g u => Sys2Proof.Machine.execIqswap g u s
  | .ziplo g u => Sys2Proof.Machine.execZiplo g u s
  | .ziphi g u => Sys2Proof.Machine.execZiphi g u s
  | .perm g u => Sys2Proof.Machine.execPerm g u s
  | .load g u ecc => Sys2Proof.Machine.execLoad g u ecc s
  | .store g u => Sys2Proof.Machine.execStore g u s
  | .push g u => Sys2Proof.Machine.execPush g u s
  | .pop g u ecc => Sys2Proof.Machine.execPop g u ecc s
  | .mark g u => Sys2Proof.Machine.execMark g u s
  | .rewind g u => Sys2Proof.Machine.execRewind g u s
  | .release g u => Sys2Proof.Machine.execRelease g u s
  | .pktOpen g u => Sys2Proof.Machine.execPktOpen g u s
  | .pktClose g u => Sys2Proof.Machine.execPktClose g u s
  | .pktAbort g u => Sys2Proof.Machine.execPktAbort g u s
  | .setfl g u => Sys2Proof.Machine.execSetfl g u s
  | .setep g u => Sys2Proof.Machine.execSetep g u s
  | .clrp g u => Sys2Proof.Machine.execClrp g u s
  | .tstv g u => Sys2Proof.Machine.execTstv g u s
  | .tstf g u => Sys2Proof.Machine.execTstf g u s
  | .tstl g u => Sys2Proof.Machine.execTstl g u s
  | .tstp g u => Sys2Proof.Machine.execTstp g u s
  | .signal g u => Sys2Proof.Machine.execSignal g u s
  | .bfly2 g u => Sys2Proof.Machine.execBfly2 g u s
  | .bfly4 g u => Sys2Proof.Machine.execBfly4 g u s
  | .twmul g u => Sys2Proof.Machine.execTwmul g u s
  | .undefinedOpcode g opc u => Sys2Proof.Machine.execUndefinedOpcode g opc u s
  | .resultLand g => Sys2Proof.Machine.execResultLand g s
  | .yardCrossingDelivery g t late => Sys2Proof.Machine.execYardCrossingDelivery g t late s
  | .yardDivideWrite y div => Sys2Proof.Machine.execYardDivideWrite y div s
  | .divideChange y => Sys2Proof.Machine.execDivideChange y s
  | .broadcastSwitch n => Sys2Proof.Machine.execBroadcastSwitch n s
  | .novictRetry n => Sys2Proof.Machine.execNovictRetry n s
  | .contextRestoreComplete n bad => Sys2Proof.Machine.execContextRestoreComplete n bad s
  | .epochSwitch g => Sys2Proof.Machine.execEpochSwitch g s
  | .penCtxload n ctx => Sys2Proof.Machine.execPenCtxload n ctx s
  | .contextLoadDone n bad => Sys2Proof.Machine.execContextLoadDone n bad s
  | .penCtxkindWrite n v => Sys2Proof.Machine.execPenCtxkindWrite n v s
  | .schedulerEvaluation y => Sys2Proof.Machine.execSchedulerEvaluation y s
  | .groupDispatch gr => Sys2Proof.Machine.execGroupDispatch gr s
  | .taskRetire y t => Sys2Proof.Machine.execTaskRetire y t s
  | .taskEntryWrite y t word1 v => Sys2Proof.Machine.execTaskEntryWrite y t word1 v s
  | .preload n => Sys2Proof.Machine.execPreload n s
  | .sync => Sys2Proof.Machine.execSync s
  | .schTrrdWrite y v => Sys2Proof.Machine.execSchTrrdWrite y v s
  | .schDbell y bits => Sys2Proof.Machine.execSchDbell y bits s
  | .crdLatch => Sys2Proof.Machine.execCrdLatch s
  | .troughBufferTransfer n k drain => Sys2Proof.Machine.execTroughBufferTransfer n k drain s
  | .dmaPortService mem eccs => Sys2Proof.Machine.execDmaPortService mem eccs s
  | .starvation mem => Sys2Proof.Machine.execStarvation mem s
  | .streamerTransfer n st ecc => Sys2Proof.Machine.execStreamerTransfer n st ecc s
  | .streamerEnable n st => Sys2Proof.Machine.execStreamerEnable n st s
  | .forwarderSend n k eccs => Sys2Proof.Machine.execForwarderSend n k eccs s
  | .forwarderRelease n k count => Sys2Proof.Machine.execForwarderRelease n k count s
  | .trgHwmRead n k => Sys2Proof.Machine.execTrgHwmRead n k s
  | .trgCfgWrite n k v => Sys2Proof.Machine.execTrgCfgWrite n k v s
  | .flush n k => Sys2Proof.Machine.execFlush n k s
  | .muckOutSegmentStart y saved => Sys2Proof.Machine.execMuckOutSegmentStart y saved s
  | .muckOutSegmentComplete y badRows => Sys2Proof.Machine.execMuckOutSegmentComplete y badRows s
  | .ledgerWrite cut => Sys2Proof.Machine.execLedgerWrite cut s
  | .dramConfigCheck chans => Sys2Proof.Machine.execDramConfigCheck chans s
  | .dramLineAccess line wr err => Sys2Proof.Machine.execDramLineAccess line wr err s
  | .dramRefresh c => Sys2Proof.Machine.execDramRefresh c s
  | .mr4Read c readings => Sys2Proof.Machine.execMr4Read c readings s
  | .hotpolApply c => Sys2Proof.Machine.execHotpolApply c s
  | .trainingPauseDue c => Sys2Proof.Machine.execTrainingPauseDue c s
  | .trainingPauseStart c => Sys2Proof.Machine.execTrainingPauseStart c s
  | .graceExpiry c => Sys2Proof.Machine.execGraceExpiry c s
  | .trainingPauseEnd c drift => Sys2Proof.Machine.execTrainingPauseEnd c drift s
  | .translationWalk va wr src len eccs => Sys2Proof.Machine.execTranslationWalk va wr src len eccs s
  | .tuInv => Sys2Proof.Machine.execTuInv s
  | .invalidationComplete => Sys2Proof.Machine.execInvalidationComplete s
  | .nocRequestSend op f => Sys2Proof.Machine.execNocRequestSend op f s
  | .read f pass eccs => Sys2Proof.Machine.execRead f pass eccs s
  | .write f pass eccs => Sys2Proof.Machine.execWrite f pass eccs s
  | .wrmask f pass eccs => Sys2Proof.Machine.execWrmask f pass eccs s
  | .nocPush f pass => Sys2Proof.Machine.execNocPush f pass s
  | .pull f pass => Sys2Proof.Machine.execPull f pass s
  | .nocPktOpen f pass => Sys2Proof.Machine.execNocPktOpen f pass s
  | .nocPktClose f pass => Sys2Proof.Machine.execNocPktClose f pass s
  | .nocPktAbort f pass => Sys2Proof.Machine.execNocPktAbort f pass s
  | .regrd f pass => Sys2Proof.Machine.execRegrd f pass s
  | .regwr f pass => Sys2Proof.Machine.execRegwr f pass s
  | .rdblk f pass eccs => Sys2Proof.Machine.execRdblk f pass eccs s
  | .wrblk f pass eccs => Sys2Proof.Machine.execWrblk f pass eccs s
  | .rdata r rb pass => Sys2Proof.Machine.execRdata r rb pass s
  | .ack r rb pass => Sys2Proof.Machine.execAck r rb pass s
  | .nack r rb pass => Sys2Proof.Machine.execNack r rb pass s
  | .yardWakeComplete y => Sys2Proof.Machine.execYardWakeComplete y s
  | .idle port p crcOk => Sys2Proof.Machine.execIdle port p crcOk s
  | .req port p crcOk cmd => Sys2Proof.Machine.execReq port p crcOk cmd s
  | .rsp port p crcOk ans => Sys2Proof.Machine.execRsp port p crcOk ans s
  | .chainEvent port p crcOk => Sys2Proof.Machine.execChainEvent port p crcOk s
  | .chainFreeze port p crcOk low => Sys2Proof.Machine.execChainFreeze port p crcOk low s
  | .roll port p crcOk => Sys2Proof.Machine.execRoll port p crcOk s
  | .rollEnd port p crcOk => Sys2Proof.Machine.execRollEnd port p crcOk s
  | .hb port p crcOk => Sys2Proof.Machine.execHb port p crcOk s
  | .hbAck port p crcOk => Sys2Proof.Machine.execHbAck port p crcOk s
  | .dm port p crcOk t1 t2 t3 t4 => Sys2Proof.Machine.execDm port p crcOk t1 t2 t3 t4 s
  | .link port p crcOk => Sys2Proof.Machine.execLink port p crcOk s
  | .credit port p crcOk => Sys2Proof.Machine.execCredit port p crcOk s
  | .nak port p crcOk => Sys2Proof.Machine.execNak port p crcOk s
  | .chainAlarm port p crcOk => Sys2Proof.Machine.execChainAlarm port p crcOk s
  | .fw port p crcOk check => Sys2Proof.Machine.execFw port p crcOk check s
  | .linkDown port => Sys2Proof.Machine.execLinkDown port s
  | .linkUp port => Sys2Proof.Machine.execLinkUp port s
  | .lkRetrain port => Sys2Proof.Machine.execLkRetrain port s
  | .heartbeatSend => Sys2Proof.Machine.execHeartbeatSend s
  | .heartbeatMiss => Sys2Proof.Machine.execHeartbeatMiss s
  | .dmExchange txPs => Sys2Proof.Machine.execDmExchange txPs s
  | .chainTimeout id => Sys2Proof.Machine.execChainTimeout id s
  | .muteHold => Sys2Proof.Machine.execMuteHold s
  | .chEvsend v => Sys2Proof.Machine.execChEvsend v s
  | .chainReady => Sys2Proof.Machine.execChainReady s
  | .chainDeviceLate => Sys2Proof.Machine.execChainDeviceLate s
  | .sysrefEdge => Sys2Proof.Machine.execSysrefEdge s
  | .jlArm j tx => Sys2Proof.Machine.execJlArm j tx s
  | .jesdDirectionReset j tx => Sys2Proof.Machine.execJesdDirectionReset j tx s
  | .jesdLinkEstablished j tx ilasOk => Sys2Proof.Machine.execJesdLinkEstablished j tx ilasOk s
  | .jesdLaneLoss j tx lane => Sys2Proof.Machine.execJesdLaneLoss j tx lane s
  | .jesdBoundary j tx => Sys2Proof.Machine.execJesdBoundary j tx s
  | .jesdRxData j samples badLanes => Sys2Proof.Machine.execJesdRxData j samples badLanes s
  | .jesdTxPull j => Sys2Proof.Machine.execJesdTxPull j s
  | .jesdTxSample j => Sys2Proof.Machine.execJesdTxSample j s
  | .ethFrameReceive m sp fr => Sys2Proof.Machine.execEthFrameReceive m sp fr s
  | .ethFrameTransmit m sp parityBad eccs => Sys2Proof.Machine.execEthFrameTransmit m sp parityBad eccs s
  | .shaperRefillTick => Sys2Proof.Machine.execShaperRefillTick s
  | .forgive m sp c => Sys2Proof.Machine.execForgive m sp c s
  | .ethTsloRead m sp => Sys2Proof.Machine.execEthTsloRead m sp s
  | .rclkSquelch => Sys2Proof.Machine.execRclkSquelch s
  | .rclkResume => Sys2Proof.Machine.execRclkResume s
  | .ecpriDelayResponse m sp req secs ns => Sys2Proof.Machine.execEcpriDelayResponse m sp req secs ns s
  | .timingRingRecord m sp rec => Sys2Proof.Machine.execTimingRingRecord m sp rec s
  | .tbIncWrite v => Sys2Proof.Machine.execTbIncWrite v s
  | .tbStep v => Sys2Proof.Machine.execTbStep v s
  | .tbSet v => Sys2Proof.Machine.execTbSet v s
  | .tbTime0Read => Sys2Proof.Machine.execTbTime0Read s
  | .holdoverUpdate die => Sys2Proof.Machine.execHoldoverUpdate die s
  | .timeCapture falling half => Sys2Proof.Machine.execTimeCapture falling half s
  | .ppsRise => Sys2Proof.Machine.execPpsRise s
  | .ppsFall => Sys2Proof.Machine.execPpsFall s
  | .gsCtlCommit idx v => Sys2Proof.Machine.execGsCtlCommit idx v s
  | .gateStart idx => Sys2Proof.Machine.execGateStart idx s
  | .gateStop idx => Sys2Proof.Machine.execGateStop idx s
  | .fabricEventWire y k => Sys2Proof.Machine.execFabricEventWire y k s
  | .fabricChainEventWire k => Sys2Proof.Machine.execFabricChainEventWire k s
  | .fioBankLevelChange b v33 mv => Sys2Proof.Machine.execFioBankLevelChange b v33 mv s
  | .fioBankLow b => Sys2Proof.Machine.execFioBankLow b s
  | .fclaim p claim => Sys2Proof.Machine.execFclaim p claim s
  | .resourceRelease p => Sys2Proof.Machine.execResourceRelease p s
  | .capArm mode => Sys2Proof.Machine.execCapArm mode s
  | .capCancel => Sys2Proof.Machine.execCapCancel s
  | .capture => Sys2Proof.Machine.execCapture s
  | .perstN level => Sys2Proof.Machine.execPerstN level s
  | .functionLevelReset => Sys2Proof.Machine.execFunctionLevelReset s
  | .mailboxRequestWrite off bytes => Sys2Proof.Machine.execMailboxRequestWrite off bytes s
  | .hiDbell v => Sys2Proof.Machine.execHiDbell v s
  | .slotTaken sl uce => Sys2Proof.Machine.execSlotTaken sl uce s
  | .forwardTimeout sl => Sys2Proof.Machine.execForwardTimeout sl s
  | .longCommandComplete sl hwFault => Sys2Proof.Machine.execLongCommandComplete sl hwFault s
  | .progressUpdate sl pos total => Sys2Proof.Machine.execProgressUpdate sl pos total s
  | .hiDoneClear v => Sys2Proof.Machine.execHiDoneClear v s
  | .hiAbort v => Sys2Proof.Machine.execHiAbort v s
  | .msixHoldExpiry v => Sys2Proof.Machine.execMsixHoldExpiry v s
  | .devInfo sl => Sys2Proof.Machine.execDevInfo sl s
  | .health sl => Sys2Proof.Machine.execHealth sl s
  | .domainReset sl => Sys2Proof.Machine.execDomainReset sl s
  | .domainResetEnd => Sys2Proof.Machine.execDomainResetEnd s
  | .crossingReopen code discard => Sys2Proof.Machine.execCrossingReopen code discard s
  | .stateSet sl => Sys2Proof.Machine.execStateSet sl s
  | .chainInfo sl => Sys2Proof.Machine.execChainInfo sl s
  | .rollCall sl => Sys2Proof.Machine.execRollCall sl s
  | .partPolicy sl => Sys2Proof.Machine.execPartPolicy sl s
  | .resume sl => Sys2Proof.Machine.execResume sl s
  | .chainPool sl => Sys2Proof.Machine.execChainPool sl s
  | .linkRetrain sl => Sys2Proof.Machine.execLinkRetrain sl s
  | .chainHealth sl => Sys2Proof.Machine.execChainHealth sl s
  | .imageLoad sl stageOk remote => Sys2Proof.Machine.execImageLoad sl stageOk remote s
  | .imageCheck sl => Sys2Proof.Machine.execImageCheck sl s
  | .imageApplication sl fails => Sys2Proof.Machine.execImageApplication sl fails s
  | .imageVerify sl => Sys2Proof.Machine.execImageVerify sl s
  | .keyOwner sl blowOk => Sys2Proof.Machine.execKeyOwner sl blowOk s
  | .keyRevoke sl blowOk => Sys2Proof.Machine.execKeyRevoke sl blowOk s
  | .keyAes sl blowOk => Sys2Proof.Machine.execKeyAes sl blowOk s
  | .keyStatus sl => Sys2Proof.Machine.execKeyStatus sl s
  | .fwStore sl stageOk remote => Sys2Proof.Machine.execFwStore sl stageOk remote s
  | .funcStop sl => Sys2Proof.Machine.execFuncStop sl s
  | .funcConfig sl => Sys2Proof.Machine.execFuncConfig sl s
  | .funcStart sl => Sys2Proof.Machine.execFuncStart sl s
  | .funcStatus sl => Sys2Proof.Machine.execFuncStatus sl s
  | .ctxLoad sl => Sys2Proof.Machine.execCtxLoad sl s
  | .ctxStatus sl => Sys2Proof.Machine.execCtxStatus sl s
  | .taskSet sl => Sys2Proof.Machine.execTaskSet sl s
  | .taskState sl => Sys2Proof.Machine.execTaskState sl s
  | .schDoorbell sl => Sys2Proof.Machine.execSchDoorbell sl s
  | .evToHost sl => Sys2Proof.Machine.execEvToHost sl s
  | .evHostClr sl => Sys2Proof.Machine.execEvHostClr sl s
  | .hostEventVector v => Sys2Proof.Machine.execHostEventVector v s
  | .portStatus sl => Sys2Proof.Machine.execPortStatus sl s
  | .portCntclr sl => Sys2Proof.Machine.execPortCntclr sl s
  | .shaperSet sl => Sys2Proof.Machine.execShaperSet sl s
  | .sysrefArm sl => Sys2Proof.Machine.execSysrefArm sl s
  | .timeGet sl => Sys2Proof.Machine.execTimeGet sl s
  | .timeSteer sl => Sys2Proof.Machine.execTimeSteer sl s
  | .holdoverSet sl => Sys2Proof.Machine.execHoldoverSet sl s
  | .gateSet sl => Sys2Proof.Machine.execGateSet sl s
  | .gateGet sl => Sys2Proof.Machine.execGateGet sl s
  | .ptpAssist sl => Sys2Proof.Machine.execPtpAssist sl s
  | .muckSet sl => Sys2Proof.Machine.execMuckSet sl s
  | .memTest sl => Sys2Proof.Machine.execMemTest sl s
  | .memStatus sl => Sys2Proof.Machine.execMemStatus sl s
  | .repairRead sl => Sys2Proof.Machine.execRepairRead sl s
  | .troughRead sl => Sys2Proof.Machine.execTroughRead sl s
  | .yardVolt sl => Sys2Proof.Machine.execYardVolt sl s
  | .yardMode sl => Sys2Proof.Machine.execYardMode sl s
  | .dramPolicy sl => Sys2Proof.Machine.execDramPolicy sl s
  | .ageReport sl => Sys2Proof.Machine.execAgeReport sl s
  | .replan sl => Sys2Proof.Machine.execReplan sl s
  | .clockStatus sl => Sys2Proof.Machine.execClockStatus sl s
  | .captureArm sl => Sys2Proof.Machine.execCaptureArm sl s
  | .freeze sl => Sys2Proof.Machine.execFreeze sl s
  | .probeSet sl => Sys2Proof.Machine.execProbeSet sl s
  | .traceSet sl => Sys2Proof.Machine.execTraceSet sl s
  | .alarmRead sl => Sys2Proof.Machine.execAlarmRead sl s
  | .logRead sl => Sys2Proof.Machine.execLogRead sl s
  | .alarmClear sl => Sys2Proof.Machine.execAlarmClear sl s
  | .freezeReadout sl => Sys2Proof.Machine.execFreezeReadout sl s
  | .freezeResume sl low => Sys2Proof.Machine.execFreezeResume sl low s
  | .regRead sl => Sys2Proof.Machine.execRegRead sl s
  | .regWrite sl => Sys2Proof.Machine.execRegWrite sl s
  | .refclkLost => Sys2Proof.Machine.execRefclkLost s
  | .deadSourceSwitch mux => Sys2Proof.Machine.execDeadSourceSwitch mux s
  | .refclkPresent => Sys2Proof.Machine.execRefclkPresent s
  | .relock => Sys2Proof.Machine.execRelock s
  | .relockComplete => Sys2Proof.Machine.execRelockComplete s
  | .pllUnlock dram => Sys2Proof.Machine.execPllUnlock dram s
  | .railFault rail ocp => Sys2Proof.Machine.execRailFault rail ocp s
  | .vinLow mv => Sys2Proof.Machine.execVinLow mv s
  | .vinHigh mv => Sys2Proof.Machine.execVinHigh mv s
  | .ypVoltWrite y code => Sys2Proof.Machine.execYpVoltWrite y code s
  | .railSlewComplete y => Sys2Proof.Machine.execRailSlewComplete y s
  | .yardPowerDownRequest y deep => Sys2Proof.Machine.execYardPowerDownRequest y deep s
  | .yardClockStop y => Sys2Proof.Machine.execYardClockStop y s
  | .railRetention y => Sys2Proof.Machine.execRailRetention y s
  | .yardWakeRequest y => Sys2Proof.Machine.execYardWakeRequest y s
  | .yardTempSpread a b ta tb => Sys2Proof.Machine.execYardTempSpread a b ta tb s
  | .wingo y => Sys2Proof.Machine.execWingo y s
  | .slackWindowEnd y near moved map => Sys2Proof.Machine.execSlackWindowEnd y near moved map s
  | .rogo y => Sys2Proof.Machine.execRogo y s
  | .roMeasurementEnd y counts => Sys2Proof.Machine.execRoMeasurementEnd y counts s
  | .emUpdate y ppm => Sys2Proof.Machine.execEmUpdate y ppm s
  | .yardReplan y why windows => Sys2Proof.Machine.execYardReplan y why windows s
  | .rateReference hours => Sys2Proof.Machine.execRateReference hours s
  | .findingPost f => Sys2Proof.Machine.execFindingPost f s
  | .recordDrain => Sys2Proof.Machine.execRecordDrain s
  | .findingCounterTransfer code => Sys2Proof.Machine.execFindingCounterTransfer code s
  | .alarmSummarySend code => Sys2Proof.Machine.execAlarmSummarySend code s
  | .freezeNFall => Sys2Proof.Machine.execFreezeNFall s
  | .hiFrzFreeze => Sys2Proof.Machine.execHiFrzFreeze s
  | .hiFrzResume low => Sys2Proof.Machine.execHiFrzResume low s
  | .freezeStop => Sys2Proof.Machine.execFreezeStop s
  | .tarm => Sys2Proof.Machine.execTarm s
  | .tcancel => Sys2Proof.Machine.execTcancel s
  | .timedFreezeStart => Sys2Proof.Machine.execTimedFreezeStart s
  | .selfRefreshReturn c => Sys2Proof.Machine.execSelfRefreshReturn c s
  | .frzAddr a => Sys2Proof.Machine.execFrzAddr a s
  | .frzData => Sys2Proof.Machine.execFrzData s
  | .tapResume low => Sys2Proof.Machine.execTapResume low s
  | .tapReadout => Sys2Proof.Machine.execTapReadout s
  | .resumeComplete linksDropped drifts => Sys2Proof.Machine.execResumeComplete linksDropped drifts s
  | .por => Sys2Proof.Machine.execPor s
  | .thermalTrip => Sys2Proof.Machine.execThermalTrip s
  | .vinGood st mv hot => Sys2Proof.Machine.execVinGood st mv hot s
  | .pllLock => Sys2Proof.Machine.execPllLock s
  | .firmwareBoot a b => Sys2Proof.Machine.execFirmwareBoot a b s
  | .firmwareStart chans differ => Sys2Proof.Machine.execFirmwareStart chans differ s
  | .firmwareReady => Sys2Proof.Machine.execFirmwareReady s
  | .resetNAssert taken => Sys2Proof.Machine.execResetNAssert taken s
  | .resetNRelease st => Sys2Proof.Machine.execResetNRelease st s
  | .recoveryActionEnd present failed => Sys2Proof.Machine.execRecoveryActionEnd present failed s
  | .fabricClockEdge clk pads => Sys2Proof.Machine.execFabricClockEdge clk pads s
  | .ethLinkChange m sp up => Sys2Proof.Machine.execEthLinkChange m sp up s
  | .mpUce correctable => Sys2Proof.Machine.execMpUce correctable s

end Sys2Proof.Machine
end

