-- ==== Sys2Proof/Machine/Tick.lean ====
section
/-!
DEFINITION. One ACLK cycle, which the block does when no command waits: the time counter, the track registers, the
starvation monitors, and the records that wait for their rings (R98, R108, R165, R180, R243, R308, R437).
-/

namespace Sys2Proof.Machine

/-! ## Starvation monitors (R180) -/

/-- A DMA port's monitor at the end of a cycle: one more cycle with a request waiting and none granted, or 0. The
last step, to 2^20, is the monitor's own event. (DEDUCED, log 43) -/
def countWaiting (h : Hw) (mem : Nat) (waits : Bool) : Hw :=
  let y := slotYard mem
  let a := if mem < 128 then aPM_STAT mem else aLOFT_STAT (mem - 128)
  let f := if mem < 128 then fPM_STAT_RUN else fLOFT_STAT_RUN
  let run := getF h a f
  if ¬ arrayRuns h y ∨ (h.aclk + 1) % 2 ^ yardShift h y ≠ 0 then h
  else if waits ∧ ¬ h.granted.contains mem then
    if 2 ^ 20 ≤ run + 1 then h else setF h a f (run + 1)
  else if run = 0 then h
  else setF h a f 0

/-- Every monitor, and the grants of the cycle that ends. -/
def countStarving (h : Hw) : Hw :=
  let h1 := applyAll (fun h (e : Nat × Pen) => countWaiting h e.1 (portWaits h e.1)) h h.arr.pens
  let h2 := applyAll (fun h y => countWaiting h (128 + y) (portWaits h (128 + y))) h1 (List.range 16)
  { h2 with granted := h2.granted.filter fun mem => (h2.aclk + 1) % 2 ^ yardShift h2 (slotYard mem) != 0 }

/-! ## The log spill (R437) -/

/-- Bytes of the next copy of the spill. -/
def spillAt (h : Hw) (k : Nat) : Nat :=
  getF h aLOG_SPBASE fLOG_SPBASE_BASE + 32 * ((h.obs.spWr + k) % 2 ^ getF h aLOG_CTL fLOG_CTL_LOG2)

/-- n more copies fit: in the ring, on the device's memory and outside the staging area of a load. -/
def spillRoom (h : Hw) (n : Nat) : Bool :=
  (h.obs.spWr + 2 ^ 32 - getF h aLOG_SPRD fLOG_SPRD_RD) % 2 ^ 32 + n ≤ 2 ^ getF h aLOG_CTL fLOG_CTL_LOG2 &&
    (List.range n).all fun k => spillAt h k + 32 ≤ dramEnd h && !(hitsStaging h (spillAt h k) 32)

/-- One copy. -/
def spillCopy (s : Sparse Byte × Hw) (bytes : List Byte) : Sparse Byte × Hw :=
  let r := dramWrite s.1 s.2 (spillAt s.2 0) bytes []
  (r.1, { r.2 with obs.spWr := (r.2.obs.spWr + 1) % 2 ^ 32 })

/-- The next record of the log is copied, after a drop marker where copies were lost, or lost. The spec gives the
marker no record index. (DEDUCED, log 96) -/
def spillNext (s : Sparse Byte × Hw) : Sparse Byte × Hw :=
  let h := s.2
  let i := h.obs.spNext
  let h1 := { h with obs.spNext := (i + 1) % 2 ^ 32 }
  match lookup h.obs.log (i % 8192) with
  | none => (s.1, h1)
  | some r =>
    let lost := h1.obs.spLost
    if ¬ spillRoom h1 (if lost = 0 then 1 else 2) then
      (s.1, bump { h1 with obs.spLost := lost + 1 } aAL_STAT fAL_STAT_SPDROP 1)
    else if lost = 0 then spillCopy (s.1, h1) (recBytes i r)
    else
      let w := freshNat { h1 with obs.spLost := 0 }
      let marker : LogRec := ⟨0x000A, 0xFFFF, crdTick h1, 0xFF, recDevice h1, 0xFF, 0, lost⟩
      spillCopy (spillCopy (s.1, w.2) (recBytes w.1 marker)) (recBytes i r)

/-- Firmware copies the log's new records while `SPILL` is 1. -/
def spillLog (s : Sparse Byte × Hw) : Sparse Byte × Hw :=
  let h := s.2
  if isSet h aLOG_CTL fLOG_CTL_SPILL ∧ fwRuns h then
    (List.range (min 8192 ((getF h aAL_STAT fAL_STAT_WRIDX + 2 ^ 32 - h.obs.spNext) % 2 ^ 32))).foldl (fun s _ => spillNext s) s
  else s

/-! ## The cycle -/

/-- The yards whose clock runs and has an edge in this cycle, or whose cycle ends with it. -/
def yardsWith (h : Hw) (p : Nat → Bool) : List Nat := (List.range 16).filter fun y => arrayRuns h y && p y

/-- The pens of the yards that have an edge in this cycle are judged; a switch order due goes first (R64, R104, R128). -/
def judgeYards (m : Sparse Byte) (h : Hw) : Hw :=
  applyAll (fun h y => applyAll (judgePen m) h ((List.range 8).map fun p => 8 * y + p)) h (yardsWith h (onEdge h))

/-- The cycles that end: bank accesses and buffer transfers are done. -/
def closeYards (m : Sparse Byte) (h : Hw) : Sparse Byte × Hw :=
  (yardsWith h (cycleEnds h)).foldl (fun s y => closeCycle s.1 s.2 y) (m, h)

/-- The event lines due in the cycle that begins are raised (R88, R266). -/
def raiseDue (h : Hw) : Hw :=
  applyAll (fun h x => raiseEvent h x.1 x.2.1) { h with arr.signals := h.arr.signals.filter fun x => h.aclk < x.2.2 }
    (h.arr.signals.filter fun x => x.2.2 ≤ h.aclk)

/-- The next ACLK cycle begins: no bit was set in it yet, and rounds whose last slot is over have ended. -/
def nextCycle (h : Hw) : Hw :=
  let h1 := passPads (finishCapture (raiseDue (tickTime { h with aclk := h.aclk + 1, justSet := [] })))
  { h1 with arr.fus := h1.arr.fus.map fun e => (e.1, settleFu h1.aclk e.2) }

/-- The yards whose cycle begins share out their bank ports (R173). -/
def openYards (h : Hw) : Hw := applyAll openCycle h (yardsWith h (onEdge h))

/-- What firmware and the network send of their own: requests that waited for chain credits, the trace records of the
schedulers and the probes, and device 0's firmware (R165, R243, R262, R279). -/
def sendOwn (nv : Nv) (h : Hw) : Hw :=
  let h1 := applyAll traceNext (applyAll schedNext (retryLeads h) (List.range 16)) (List.range 16)
  if h1.chain.fwOut.isNone then h1 else sendFw h1 (copyImage nv.flash (isSet h1 aDV_BOOT fDV_BOOT_COPY))

/-- One cycle with every clock running. (DEDUCED, log 205) -/
def runCycle (nv : Nv) (m : Sparse Byte) (h : Hw) : Sparse Byte × Hw :=
  let h1 := judgeYards m h
  let h2 := advanceTracks m (countLost m h1)
  let c := closeYards m h2
  let s2 := spillLog (c.1, sendOwn nv (openYards (nextCycle (countStarving c.2))))
  (s2.1, settleCtxLoads (settleYardModes s2.2))

/-- What the block does in one cycle in which no command comes: all of it while the clocks run; the time counter
and the tick counts alone in RESET_N (R460); nothing without a clock or while FROZEN (R444). (DESIGN CHOICE, log 163) -/
def tick (s : State) : State :=
  if s.hw.mode = .frozen ∨ ¬ s.hw.locked then s
  else if s.hw.clocked then onMem s (runCycle s.nv)
  else onHw s nextCycle

end Sys2Proof.Machine
end

