-- ==== Sys2Proof/Safety.lean ====
section
/-!
DEFINITION. The terms that claims use: states kept well, conditions under which commands act, what a function unit reads
and launches, and what a frame compares. Runs have no unsafe outcome: no command faults and none is refused.
-/

namespace Sys2Proof.Machine

/-! ## Canonical forms -/

/-- The byte memory is in its canonical form: addresses rising, no byte listed that reads 0 unlisted. -/
def memWf (m : Sparse Byte) : Bool := sparseWf (fun _ => 0) m

/-- The boot flash is in its canonical form: an unlisted byte is erased and reads 0xFF. -/
def flashWf (m : Sparse Byte) : Bool := sparseWf (fun _ => 0xFF) m

/-- The invariant that every step keeps: equal contents of memory and flash are equal data. -/
abbrev Inv (s : State) : Prop := memWf s.mem = true ∧ flashWf s.nv.flash = true

/-! ## Outcomes and conditions -/

/-- A command answers a next state, and P holds of it. -/
def Completes (i : Instr) (s : State) (P : State → Prop) : Prop := ∃ t, exec i s = .next t ∧ P t

/-- A command answers one next state: the same memory and stores, with the hardware changed to h. -/
def GivesHw (i : Instr) (s : State) (h : Hw) : Prop := exec i s = .next { s with hw := h }

/-- A command answers one next state: memory and hardware changed. -/
def GivesMem (i : Instr) (s : State) (r : Sparse Byte × Hw) : Prop := exec i s = .next { s with mem := r.1, hw := r.2 }

/-- Every state-advancing clock runs: powered, locked, not FROZEN. -/
abbrev Up (s : State) : Prop := s.hw.clocked = true ∧ s.hw.mode ≠ .frozen

/-- Every byte of memory reads as before. -/
def SameMem (s t : State) : Prop := ∀ a, readByte t.mem a = readByte s.mem a

/-- Every byte of memory outside a set of addresses reads as before. -/
def SameMemBut (s t : State) (touched : Nat → Prop) : Prop := ∀ a, ¬ touched a → readByte t.mem a = readByte s.mem a

/-! ## Function-unit steps -/

/-- The hardware in which an issue of FU g is decided in a state: its pen judged for this cycle, and a round that ends
before it ended (R64, R80, R104). -/
abbrev readied (s : State) (g : Nat) : Hw := readyFu s.mem s.hw g

/-- FU g may issue and its sequencer stands at the step with this opcode and these fields: the FU runs, its slot has
come, its pen does not stall, no epoch switch takes the cycle (R59, R64, R77, R78, R135). -/
abbrev StandsAt (s : State) (g opc : Nat) (u : UStep) : Prop :=
  canIssue s.mem (readied s g) g = true ∧ stepAt s.mem (readied s g) g = (opc, u)

/-- The step issues: the sequencer stands at it, its gate is open, and no trough refuses it (R79, R104). -/
abbrev Issues (s : State) (g opc : Nat) (u : UStep) : Prop :=
  StandsAt s g opc u ∧
    gateOpen (gateOf u) (bankOf (fu (readied s g) g) (fu (readied s g) g).bank).lix.toNat (fu (readied s g) g).first = true ∧
    refusalOf (readied s g) g opc u = none

/-- BFLY4 in C36 reads register pairs (R91). -/
def quadOf (op : OpSpec) (u : UStep) : Bool := op.dst == .pair && op.lat == 4 && u.fmt.toNat == 4

/-- The operands that a step reads (R71). -/
def operandsOf (s : State) (g : Nat) (u : UStep) (op : OpSpec) : Operands :=
  readOperands s.mem (readied s g) g u op (quadOf op u)

/-- What the operation of a row computes from. -/
def inputsOf (s : State) (g : Nat) (u : UStep) (op : OpSpec) : StepIn :=
  stepIn (operandsOf s g u op).r.h g u op (operandsOf s g u op)

/-- The step issues in a format of its row and fires (R39, R79, R92). -/
abbrev StepFires (s : State) (g opc : Nat) (u : UStep) (op : OpSpec) : Prop :=
  Issues s g opc u ∧ op.fmts.contains u.fmt.toNat = true ∧ fires op (operandsOf s g u op) = true

/-- P of a result: some operand read has it (R56). -/
def poisonOf (s : State) (g : Nat) (u : UStep) (op : OpSpec) : Bool := (operandsOf s g u op).tagged.any (·.p)

/-- The tagged word of a result under R40: V = 1, F and L of the first register or port operand, P of any operand, EP of
the context. -/
def taggedResult (s : State) (g : Nat) (u : UStep) (op : OpSpec) (d : Word) : TW :=
  ⟨d, true, ((operandsOf s g u op).r.src.getD TW.notValid).f, ((operandsOf s g u op).r.src.getD TW.notValid).l,
    poisonOf s g u op, BitVec.ofNat 4 (fu (readied s g) g).ctx⟩

/-- A result put in flight by FU g, due after l cycles of its yard (R60). -/
def launched (h : Hw) (g l : Nat) (d : Dest) (p : Payload) : Flight :=
  ⟨g, (fu h g).bank, (fu h g).ctx, dueIn h (g / 128) l, d, p⟩

/-- A result on its way to the destination that DST selects, other than the bound trough: a W register, OUT0, OUT1, both,
an accumulator, or none (Table 3.3, R75). -/
def flightsTo (h : Hw) (g l d : Nat) (p : Payload) : List Flight :=
  if d < 0x10 then [launched h g l (.w d) p]
  else if d = 0x10 then [launched h g l (.out 0) p]
  else if d = 0x11 then [launched h g l (.out 1) p]
  else if d = 0x12 then [launched h g l (.out 0) p, launched h g l (.out 1) p]
  else if d = 0x14 ∨ d = 0x15 then [launched h g l (.acc (d - 0x14)) p]
  else []

/-- A tagged word on its way there; an accumulator takes it as its new value in the step's format (R42). -/
def landingOf (h : Hw) (g l fmt d : Nat) (w : TW) : List Flight :=
  flightsTo h g l d (if d = 0x14 ∨ d = 0x15 then .setAcc (Accum.ofWord fmt w) else .word w)

/-- What a step that does not fire, or an undefined one, sends: the not-valid word to a W or OUT destination (R13, R39). -/
def nothingTo (h : Hw) (g l d : Nat) : List Flight := if d < 0x13 then landingOf h g l 0 d TW.notValid else []

/-- Several results on their way to consecutive W registers (R76). -/
def landingRow (h : Hw) (g l d : Nat) (ws : List TW) : List Flight :=
  (List.range ws.length).map fun k => launched h g l (.w ((d + k) % 16)) (.word (ws.getD k TW.notValid))

/-- A full-precision product as a word: packed in B16x2, narrowed with FB + `SH` in every other format (R50, R54). -/
def productWord (x : StepIn) (vs : List Int) (pe : Int) : Word :=
  if x.fmt = 6 then compose 6 (pack x.rnd x.sh vs pe).1 (pack x.rnd x.sh vs pe).2.1
  else compose x.fmt (narrowAll x.rnd x.sat (productPoint x.fmt + x.sh) (compWidth x.fmt) vs).1 0

/-- The sequencer of an FU after a step of a number of slots has issued (R78, R80). -/
def afterIssue (s : State) (g : Nat) (u : UStep) (slots : Nat) : Fu :=
  advance (fu (readied s g) g) u slots (dueIn s.hw (g / 128) slots)

/-- A pen noted as judged for the current cycle. -/
def judgedNow (h : Hw) (n : Nat) : Hw := setPen h n { pen h n with judged := edgeOf h (n / 8) + 1 }

/-- A step answers a next state with memory as it was and these results put in flight, behind those that are. -/
def Launches (i : Instr) (s : State) (fs : List Flight) : Prop :=
  ∃ t, exec i s = .next t ∧ t.mem = s.mem ∧ t.hw.arr.flights = s.hw.arr.flights ++ fs

/-- The trough with this key is enabled, bound to the running context of the FU, produced or consumed by FU steps, and no
other FU has taken that side in this cycle (R188, R203). -/
abbrev Reaches (h : Hw) (g key : Nat) (producer : Bool) : Prop := accessOf h g producer = .ok key

/-- A trough step that fires on its trough: issued, A valid, the trough reached (R86, R188). -/
abbrev TroughStepActs (s : State) (g opc : Nat) (u : UStep) (key : Nat) (producer : Bool) : Prop :=
  StepFires s g opc u (memRow true false .discard) ∧ Reaches (readied s g) g key producer

/-- Registers that a step of FU g may write: context status and epoch counters, the events its yard has seen, the status
of its pen's troughs, ECC corrections and stalls, and the drop count of the record queue. -/
def fuTouches (g a : Nat) : Prop :=
  (∃ c, c < 16 ∧ a = aFU_CST g c) ∨ a = aFU_EPOCH g ∨ (∃ e, e < 4 ∧ a = aSCH_EVSEEN (g / 128) e) ∨
    (∃ k, k < 8 ∧ (a = aTRG_STAT (g / 16) k ∨ a = aTRG_ECC (g / 16) k)) ∨
    a = aPM_ECC (g / 16) ∨ a = aPEN_STALL (g / 16) ∨ a = aAL_STAT

/-- Opcodes whose step computes one tagged word from its operands (Tables 3.7 to 3.12). -/
def wordRows : List ((Fin 2048 → UStep → Instr) × Nat × OpSpec) := [
  (.mov, 0x01, opMov), (.selnz, 0x03, opSelnz), (.selneg, 0x04, opSelneg), (.add, 0x10, opAdd), (.sub, 0x11, opSub),
  (.neg, 0x12, opNeg), (.abs, 0x13, opAbs), (.min, 0x14, opMin), (.max, 0x15, opMax), (.cmpeq, 0x16, opCmpeq),
  (.cmpgt, 0x17, opCmpgt), (.shla, 0x18, opShla), (.shra, 0x19, opShra), (.crot, 0x37, opCrot),
  (.cconj, 0x38, opCconj), (.bpack, 0x50, opBpack), (.bexpd, 0x51, opBexpd), (.balign, 0x52, opBalign),
  (.brenorm, 0x53, opBrenorm), (.badd, 0x54, opBadd), (.bsub, 0x55, opBsub), (.bexpr, 0x58, opBexpr),
  (.beset, 0x59, opBeset), (.and, 0x60, opAnd), (.or, 0x61, opOr), (.xor, 0x62, opXor), (.andn, 0x63, opAndn),
  (.not, 0x64, opNot), (.bitsel, 0x65, opBitsel), (.lsl, 0x66, opLsl), (.lsr, 0x67, opLsr), (.rol, 0x68, opRol),
  (.popc, 0x69, opPopc), (.clz, 0x6A, opClz), (.erev, 0x70, opErev), (.ebcst, 0x71, opEbcst), (.eins, 0x72, opEins),
  (.epick, 0x73, opEpick), (.iqswap, 0x74, opIqswap), (.ziplo, 0x75, opZiplo), (.ziphi, 0x76, opZiphi),
  (.perm, 0x77, opPerm)]

/-- Opcodes whose step computes a full-precision product (Tables 3.8 to 3.10, 3.15). -/
def productRows : List ((Fin 2048 → UStep → Instr) × Nat × OpSpec) := [
  (.mul, 0x1A, opMul), (.cmul, 0x30, opCmul), (.cmag2, 0x34, opCmag2), (.cscl, 0x36, opCscl), (.bmul, 0x56, opBmul),
  (.twmul, 0xA2, opTwmul)]

/-- Opcodes whose step adds to an accumulator. -/
def addendRows : List ((Fin 2048 → UStep → Instr) × Nat × OpSpec) := [
  (.mac, 0x1B, opMac), (.msu, 0x1C, opMsu), (.cmac, 0x31, opCmac), (.cmsu, 0x32, opCmsu), (.cjmac, 0x33, opCjmac),
  (.cmagac, 0x35, opCmagac), (.bmac, 0x57, opBmac)]

/-- Opcodes with a row of their own kind: steps with no result of their own, and pairs (Tables 3.7, 3.14, 3.15). -/
def otherRows : List ((Fin 2048 → UStep → Instr) × Nat × OpSpec) := [
  (.nop, 0x00, opNop), (.lixset, 0x05, opLixset), (.acclr, 0x06, opAcclr), (.signal, 0x97, opSignal),
  (.bfly2, 0xA0, opBfly2), (.bfly4, 0xA1, opBfly4)]

/-- SELV and the tag steps, with their opcodes and rows (Tables 3.7, 3.14). -/
def tagRows : List ((Fin 2048 → UStep → Instr) × Nat × OpSpec) := [
  (.selv, 0x02, opSelv), (.setfl, 0x90, opSetfl), (.setep, 0x91, opSetep), (.clrp, 0x92, opClrp), (.tstv, 0x93, opTstv),
  (.tstf, 0x94, opTstf), (.tstl, 0x95, opTstl), (.tstp, 0x96, opTstp)]

/-- Memory and trough steps, for any ECC outcome of the word that a LOAD or POP reads (Table 3.13). -/
def troughRows (e : Ecc) : List ((Fin 2048 → UStep → Instr) × Nat × OpSpec) := [
  (fun g u => .load g u e, 0x80, memRow true false .any), (.store, 0x81, memRow true true .discard),
  (.push, 0x82, memRow true false .discard), (fun g u => .pop g u e, 0x83, memRow false false .any),
  (.mark, 0x84, memRow true false .discard), (.rewind, 0x85, memRow true false .discard),
  (.release, 0x86, memRow true false .discard), (.pktOpen, 0x87, memRow true false .discard),
  (.pktClose, 0x88, memRow true false .discard), (.pktAbort, 0x89, memRow true false .discard)]

/-- Every opcode that a table lists, with its row. -/
def fuRows (e : Ecc) : List ((Fin 2048 → UStep → Instr) × Nat × OpSpec) :=
  wordRows ++ productRows ++ addendRows ++ tagRows ++ otherRows ++ troughRows e

/-- The commands that are a step of one function unit with a listed opcode. -/
def fuCommands (e : Ecc) : List (Fin 2048 → UStep → Instr) := (fuRows e).map (·.1)

/-- Of the hardware, only registers, the record path, and the FUs, results, pens, troughs, schedulers and event lines of
the array differ. -/
def ArrayOnly (s t : State) : Prop :=
  t.hw = { s.hw with regs := t.hw.regs, justSet := t.hw.justSet, obs := t.hw.obs, arr := t.hw.arr } ∧
  t.hw.arr = { s.hw.arr with
    fus := t.hw.arr.fus, flights := t.hw.arr.flights, pens := t.hw.arr.pens, troughs := t.hw.arr.troughs,
    scheds := t.hw.arr.scheds, signals := t.hw.arr.signals }

/-- Every W register and accumulator of every FU holds what it held. -/
def SameFuRegs (s t : State) : Prop :=
  ∀ g b, (bankOf (fu t.hw g) b).w = (bankOf (fu s.hw g) b).w ∧ (bankOf (fu t.hw g) b).acc0 = (bankOf (fu s.hw g) b).acc0 ∧
    (bankOf (fu t.hw g) b).acc1 = (bankOf (fu s.hw g) b).acc1

/-- Memory, the non-volatile stores and the queue are as they were. -/
def SameStores (s t : State) : Prop := t.mem = s.mem ∧ t.nv = s.nv ∧ t.pending = s.pending

/-- The 64-bit micro-instruction that an opcode and fields pack to: the sums that follow R70. -/
def packStep (opc : Nat) (u : UStep) : Nat :=
  (opc * 2 ^ 24 + u.fmt.toNat * 2 ^ 20 + u.dst.toNat * 2 ^ 15 + u.srca.toNat * 2 ^ 10 + u.srcb.toNat * 2 ^ 5 + u.srcc.toNat) *
      2 ^ 32 +
    (u.mod.toNat * 2 ^ 24 + u.imm.toNat * 2 ^ 8 + u.seq.toNat)

/-! ## Pens and schedulers -/

def withOrders (p : Pen) (os : List SwitchOrder) : Pen := { p with orders := os }
def withNonRes (p : Pen) (r : NonRes) : Pen := { p with nonres := some r }
def withPreload (p : Pen) (x : Option Preload) : Pen := { p with preload := x }
/-- The victim choice put off to a later cycle (R123). -/
def laterRetry (r : NonRes) (ready : Nat) : NonRes := { r with ready := ready }
/-- A context may leave its bank: it is not pinned, and no FU of the pen has issued a step of it in the last five cycles
(R122). -/
def mayLeave (h : Hw) (n c : Nat) : Bool :=
  kindOf h n c != 2 &&
    (match lookup (pen h n).issued c with
     | none => true
     | some i => (i - 1) / 2 ^ yardShift h (n / 8) + 5 < yardCycle h (n / 8))
/-- The end of a non-resident switch, with the orders that are not due left (R131, R132). -/
def nonResTaken (m : Sparse Byte) (h : Hw) (n : Nat) (r : NonRes) (bad : List Nat) : Hw :=
  let h1 := takeBank m h n r.bank r.ctx bad
  let p := pen h1 n
  setPen h1 n { p with nonres := none, orders := p.orders.filter fun o => h.aclk < o.d }
/-- The retirement of a task waits for the next evaluation (R151). -/
def asRetiring (k : Task) : Task := { k with retire := true }

/-! ## Power and ageing -/

def withDivDue (x : YardPw) (a : Option Nat) : YardPw := { x with divDue := a }
def withSlewing (x : YardPw) (b : Bool) : YardPw := { x with slewing := b }
def withWant (x : YardPw) (t : Option Nat) : YardPw := { x with want := t }
def withSettling (x : YardPw) (b : Bool) : YardPw := { x with settling := b }
def withToSleep (x : YardPw) (b : Bool) : YardPw := { x with toSleep := b }
def withWake (x : YardPw) : YardPw := { x with wake := true }
/-- The clock of a yard stopped by its power-down, on its way to retention for DEEP-SLEEP. -/
def stoppedPw (x : YardPw) (deep : Bool) : YardPw := { x with want := none, stopped := true, settling := deep }
/-- A re-plan is owed when the yard returns to RUN (R415). -/
def owing (x : YardAge) : YardAge := { x with owed := true }
/-- The temperature of a yard has moved by more than 10 °C since its last re-plan, or a re-plan is owed (R415). -/
def movedEnough (h : Hw) (y : Nat) : Bool :=
  (yardAge h y).owed ||
    decide (160 < ((BitVec.ofNat 13 (getF h (aYP_STAT y) fYP_STAT_TEMP)).toInt - (yardAge h y).lastTemp.toInt).natAbs)
/-- A commanded re-plan tries ACLK/1 again: the yard is in fall-back, its program stopped, its neighbours near enough
(R407, R418). -/
def triesFullRate (h : Hw) (y : Nat) : Bool :=
  (yardAge h y).fallback && !(fnRunning h (fnId 3 y)) && divFits h y 0
/-- Neighbours more than 25 °C away from a yard (R408). -/
def farNeighbours (h : Hw) (y : Nat) : List Nat :=
  (neighbours y).filter fun z => 400 < ((BitVec.ofNat 13 (getF h (aYP_STAT y) fYP_STAT_TEMP)).toInt -
    (BitVec.ofNat 13 (getF h (aYP_STAT z) fYP_STAT_TEMP)).toInt).natAbs
/-- A re-plan begins: the temperature noted, nothing owed; a move has the neighbours far from it re-planned too
(R415). -/
def planNoted (h : Hw) (y : Nat) (why : ReplanWhy) : Hw :=
  let h1 := setYardAge h y { yardAge h y with lastTemp := BitVec.ofNat 13 (getF h (aYP_STAT y) fYP_STAT_TEMP), owed := false }
  if why = .moved then applyAll (fun h z => setYardAge h z (owing (yardAge h z))) h1 (farNeighbours h y) else h1
/-- Life consumed and service hours recorded as the rate reference (R421). -/
def withRate (h : Hw) (hours : Nat) : Hw := { h with hours := hours, rateRef := some (deviceLife h, hours) }

/-! ## Parts replaced, for statements of results -/

/-- A trough whose producer side FU g has taken in this cycle. -/
def withProd (t : Trough) (g : Nat) : Trough := { t with prodFu := some g }
/-- A trough whose consumer side FU g has taken in this cycle. -/
def withCons (t : Trough) (g : Nat) : Trough := { t with consFu := some g }
/-- The mark takes the read pointer. -/
def withMark (t : Trough) : Trough := { t with mark := t.rp }
/-- The read pointer returns to the mark; words fetched ahead are dropped. -/
def rewound (t : Trough) : Trough := { t with rp := t.mark, head := [] }
/-- F and L from IMM where IMM enables them (Table 3.14). -/
def withFL (w : TW) (imm : BitVec 16) : TW :=
  { w with f := if imm.getLsbD 9 then imm.getLsbD 1 else w.f, l := if imm.getLsbD 8 then imm.getLsbD 0 else w.l }
def withEp (w : TW) (e : BitVec 4) : TW := { w with ep := e }
def withoutP (w : TW) : TW := { w with p := false }
/-- The loop index noted for the end of the round (R80). -/
def withLix (f : Fu) (imm : BitVec 16) : Fu := { f with lixNext := some imm }
def withW (b : Bank) (k : Nat) (w : TW) : Bank := { b with w := setD TW.notValid b.w k w }
def accOf (b : Bank) (k : Nat) : Accum := if k = 0 then b.acc0 else b.acc1
def withAcc (b : Bank) (k : Nat) (a : Accum) : Bank := if k = 0 then { b with acc0 := a } else { b with acc1 := a }
def withOut0 (f : Fu) (o : OutPort) : Fu := { f with out0 := o }
def withOut1 (f : Fu) (o : OutPort) : Fu := { f with out1 := o }
/-- The due results of FU g taken out of flight. -/
def landedOut (h : Hw) (g : Nat) : Hw := { h with arr.flights := h.arr.flights.filter fun f => !(landsNow h g f) }
/-- The due words of a crossing taken out of it and one presented in a cycle of the receiving yard (R108). -/
def presented (h : Hw) (key : Nat) (x : XWord) (cyc : Nat) : Hw :=
  { h with arr.xq := h.arr.xq.filter fun w => ¬ (w.key = key ∧ w.due ≤ h.aclk),
           arr.xout := insertAt h.arr.xout key ⟨x.tw, cyc⟩ }

/-! ## Memories and the network -/

/-- Key of trough k of pen n. -/
abbrev keyOf (n : Fin 128) (k : Fin 8) : Nat := 8 * n.val + k.val
def withTail (t : Trough) (ws : List (Nat × TW)) : Trough := { t with tail := ws }
def withHead (t : Trough) (ws : List (Nat × TW)) : Trough := { t with head := ws }
/-- The high-water mark restarts: the next cycle takes its occupied count in (R186). -/
def markRestarted (t : Trough) : Trough := { t with hwm := 0 }
def withFwdAcc (t : Trough) (k : Nat) : Trough := { t with fwdAcc := k }
/-- A loft's request queue replaced. -/
def withLoftDma (h : Hw) (y : Nat) (q : List DmaReq) : Hw := { h with loftDma := setD [] h.loftDma y q }
/-- A pen's queue of requests to its memory replaced. -/
def withDmaOther (p : Pen) (q : List DmaReq) : Pen := { p with dmaOther := q }
/-- A pen's queue of trough requests replaced. -/
def withDmaTrough (p : Pen) (q : List DmaReq) : Pen := { p with dmaTrough := q }
/-- The DMA port of a pen has had its turn of this cycle, for the request of one queue (R176). -/
def penTurned (h : Hw) (n : Nat) (ofTrough : Bool) : Hw :=
  setPen h n { pen h n with dmaLastTrough := ofTrough, dmaAt := edgeOf h (n / 8) + 1 }
def withFwdBuf (t : Trough) (ws : List TW) : Trough := { t with fwdBuf := ws }
/-- A bank port that was granted to a trough's transfer, used (R173, R175). -/
def transferred (h : Hw) (key : Nat) (drain : Bool) (p : Nat) : Hw :=
  { h with arr.ports := insertAt h.arr.ports p ⟨bufferClass h key drain, key % 8, true⟩ }
/-- The request that the forwarder of a trough sends, with its operation, words and the words it answers for (R185). -/
def forwarded (h : Hw) (key : Nat) (x : Nat × List TW × Nat) : Hw := queueRequest h (forwardReq h key x.1 x.2.1 x.2.2)
/-- The segment that a muck-out engine takes is held. -/
def muckHolds (x : Muck) : Muck := { x with holding := true }

/-- A row that no spare can take: its bank degraded, counted and found (R200). -/
def rowLost (h : Hw) (i addr : Nat) : Hw :=
  postFinding (bump (setReg h (aRPR_DEGR (i / 64)) (reg h (aRPR_DEGR (i / 64)) ||| BitVec.ofNat 64 (2 ^ (i % 64)))) aMO_FIND
    fMO_FIND_DEGR 1) 0x0005 0x043 0xFF (addr % 2 ^ 40 + i % 256 * 2 ^ 40) 0
def withBadRow (h : Hw) (r : Nat × Nat) : Hw := { h with badRows := h.badRows ++ [r] }
/-- The device's unique identifier. -/
def uidOf (h : Hw) : Nat := (reg h (aHI_UID 0)).toNat + (reg h (aHI_UID 1)).toNat * 2 ^ 64
/-- The slot and the sequence number of the next ledger (R422). -/
def nextLedger (h : Hw) : Nat × Nat :=
  match h.ledger with
  | some (slot, seq) => (1 - slot, (seq + 1) % 2 ^ 32)
  | none => (0, 1)
/-- The flash with the erased ledger slot of a number and pages of a ledger in it (R422). -/
def ledgerFlash (f : Sparse Byte) (slot seq : Nat) (pages : List (Nat × List Byte)) : Sparse Byte :=
  programFlash (eraseFlash f (ledgerBase slot) 0x10000) (ledgerBase slot)
    ((List.zip (List.range pages.length) pages).map fun p => ledgerPage seq p.2.1 p.1 p.2.2).flatten

/-- The 64 bytes of a line's codeword as they are read, with physical errors (R209, R210). -/
def codewordOf (m : Sparse Byte) (l : Nat) (err : List (Fin 32 × Fin 16)) : List Nat :=
  let dat := (readBytes m (lineByte l) 60).map BitVec.toNat
  (List.zip (List.range 64) (dat ++ rsCheck dat)).map fun x => burstByte err x.1 x.2
/-- The data bytes of a codeword. -/
def lineBytes (xs : List Nat) : List Byte := (xs.take 60).map (BitVec.ofNat 8)
def inSelfRefresh (x : DramCh) : DramCh := { x with selfRefresh := true }
def pauseIsDue (x : DramCh) : DramCh := { x with due := true, strobed := false }
/-- The pause that was due runs. -/
def pauseRuns (x : DramCh) : DramCh := { x with due := false, strobed := false, paused := true }
/-- A pause is over: delays moved by the drift, refreshes that waited issued (R218, R219). -/
def pauseOver (x : DramCh) (drift : BitVec 8) : DramCh :=
  { x with paused := false, delay := x.delay + drift.toInt, waiting := 0 }
def refreshWaits (x : DramCh) : DramCh := { x with waiting := x.waiting + 1 }
/-- Readings of a channel: above 85 °C; below the limit while HOTLIM stands; below 85 °C while the rate of hot memory is
asked for, which the second in succession ends (Table 8.3). -/
def hotAsked (x : DramCh) : DramCh := { x with hotNext := true, coolRun := 0 }
def stillHot (x : DramCh) : DramCh := { x with inRangeRun := x.inRangeRun + 1, hotNext := true }
def coolCounted (x : DramCh) : DramCh :=
  if x.coolRun = 0 then { x with coolRun := 1 } else { x with coolRun := 0, hotNext := false }
/-- A request waits for the walk of a virtual address by a requester. -/
def awaits (r : DmaReq) (va : BitVec 40) (wr : Bool) (src : Fin 40) : Bool :=
  r.f.addr.toNat == va.toNat && r.f.src.val == src.val && (!(isRead r.kind)) == wr
/-- The interval after a pause that measured a drift (R219). -/
def nextInterval (i d : Nat) : Nat := if 4 < d then max (i / 2) 250 else if d < 1 then min (2 * i) 4000 else i
def withWalks (h : Hw) (q : List DmaReq) : Hw := { h with noc.walks := q }
def cacheEmptied (h : Hw) : Hw := { h with noc.cache := [] }

/-- The hardware after a request packet has come to its destination and been checked there (R237, R238). -/
abbrev arrived (s : State) (op : Nat) (f : Flit) (pass : Passage) : Hw := (arrivePacket s.hw op f pass).2
/-- A lead router stands there. -/
def leadAt (r : Nat) : Bool :=
  match endpointOf r with
  | .lead _ => true
  | _ => false
/-- All flits of a request for an endpoint of this device have come, and its crossing is not closed: the packet is the
next on the network from its source, and each of its flits has passed its checks (R232, R238, R464). -/
abbrev Arrives (s : State) (op : Nat) (f : Flit) (pass : Passage) : Prop :=
  (arrivePacket s.hw op f pass).1.isSome = true ∧ (f.route = none ∨ leadAt f.dst = false) ∧ quarantinedAt (arrived s op f pass) f.dst.val = false
/-- The command by which a request with an operation of Table 9.3 arrives. -/
def requestOf (op : Fin 12) (f : Flit) (pass : Passage) (es : List Ecc) : Instr :=
  match op with
  | 0 => .read f pass es
  | 1 => .write f pass es
  | 2 => .wrmask f pass es
  | 3 => .nocPush f pass
  | 4 => .pull f pass
  | 5 => .nocPktOpen f pass
  | 6 => .nocPktClose f pass
  | 7 => .nocPktAbort f pass
  | 8 => .regrd f pass
  | 9 => .regwr f pass
  | 10 => .rdblk f pass es
  | 11 => .wrblk f pass es
/-- A memory controller takes a request now: its channel neither pauses nor enters self-refresh, and it is not being reset
(R218, R444, R463). -/
abbrev DramOpen (h : Hw) (c : Nat) : Prop := chanHolds h c = false ∧ dramInReset h c = false
/-- A word request lies in the data space, in lines of its controller's channel; a masked one only where it has bytes to
write (R18, R230). -/
abbrev SpanFits (h : Hw) (c op : Nat) (f : Flit) : Prop :=
  (dramSpan op f).1 + (dramSpan op f).2 ≤ dramEnd h ∧ (op = 2 ∨ (dramSpan op f).1 % 10 = 0) ∧
    (linesOf (dramSpan op f).1 (dramSpan op f).2).all (fun l => lineChannel l == c) = true
/-- An endpoint takes a register request now: a controller out of reset, a running yard, any other but a transit router; and
the address does not lie behind a closed crossing (R31, R240, R463, R464). -/
def takesRegs (h : Hw) (f : Flit) : Bool :=
  match endpointOf f.dst.val with
  | .dc c => !(dramInReset h c)
  | .yard y => yardTakes h y && !(behindQuarantine h f.addr.toNat)
  | .transit => false
  | _ => !(behindQuarantine h f.addr.toNat)
/-- A window request put at the end of its memory's queue. -/
def windowQueued (h : Hw) (mem : Nat) (r : DmaReq) : Hw :=
  if mem < 128 then setPen h mem (withDmaOther (pen h mem) ((pen h mem).dmaOther ++ [r]))
  else withLoftDma h (mem - 128) (getD [] h.loftDma (mem - 128) ++ [r])
/-- An answer delivered to its requester. -/
def withAnswer (h : Hw) (status : Nat) (ws : List TW) : Hw := { h with noc.status := status, noc.words := ws }
/-- The entry of a request taken out. -/
def outTaken (h : Hw) (r : Nat) (o : NocOut) : Hw := setOut h r ((outOf h r).erase o)
/-- A flit of an answer noted in its entry. -/
def withFlit (o : NocOut) (i status : Nat) (ws : List TW) (bad : Bool) : NocOut :=
  { o with got := insertAt o.got i ws, bad := o.bad || bad, status := if o.status = 0 then status else o.status }
/-- A flit of the answer has been asked for again. -/
def askedAgain (h : Hw) (r rb i : Nat) : Hw := setOutAt h r rb fun o => { o with asked := i :: o.asked }
def onWire (h : Hw) (w : NocFly) : Hw := { h with noc.wire := h.noc.wire ++ [w] }
def withLeads (h : Hw) (q : List DmaReq) : Hw := { h with noc.leads := q }
/-- A request put at the end of a pen's trough queue. -/
def troughQueued (h : Hw) (n : Nat) (r : DmaReq) : Hw := setPen h n (withDmaTrough (pen h n) ((pen h n).dmaTrough ++ [r]))
/-- A request held at a controller until its pause or reset ends (R218, R463). -/
def heldAt (h : Hw) (c op : Nat) (f : Flit) (es : List Ecc) : Hw := holdDram h c op f es
/-- A request of its requester's own just sent: it holds its credits and response buffers, and every flit of it is
awaited (R234). -/
def sentOut (op : Nat) (f : Flit) : NocOut :=
  ⟨⟨op, f, .own⟩, flitsOf op f, creditsOf op f, List.range (flitsOf op f), [], [], 0, false⟩
/-- What waited for a yard has been taken up. -/
def nothingWaits (h : Hw) (y : Nat) : Hw := { h with noc.asleep := setD [] h.noc.asleep y [] }

/-! ## The chain -/

/-- What reception of a packet gives: whether it is delivered here, and the hardware after it. -/
abbrev received (s : State) (port : Fin 2) (kind : Nat) (p : Pkt) : Bool × Hw := rxPacket s.hw port.val ⟨kind, p, none, none, false⟩ true
/-- The command by which a packet of a kind (Table 10.2) arrives that carries no command, answer or check of an image; the
level of FREEZE_N counts for a FREEZE alone, and the four times for a DM reply. -/
def packetOf (kind : Fin 15) (port : Fin 2) (p : Pkt) (crcOk low : Bool) (t : Int × Int × Int × Int) : Instr :=
  match kind with
  | 0 => .idle port p crcOk
  | 1 => .req port p crcOk none
  | 2 => .rsp port p crcOk none
  | 3 => .chainEvent port p crcOk
  | 4 => .chainFreeze port p crcOk low
  | 5 => .roll port p crcOk
  | 6 => .rollEnd port p crcOk
  | 7 => .hb port p crcOk
  | 8 => .hbAck port p crcOk
  | 9 => .dm port p crcOk t.1 t.2.1 t.2.2.1 t.2.2.2
  | 10 => .link port p crcOk
  | 11 => .credit port p crcOk
  | 12 => .nak port p crcOk
  | 13 => .chainAlarm port p crcOk
  | 14 => .fw port p crcOk none
/-- The report of a port of a device: its packets are its own again (R258, R259). -/
def withReport (h : Hw) (dev port : Nat) (up : Bool) : Hw :=
  { h with chain.reports := insertAt h.chain.reports (2 * dev + port) up, chain.old := h.chain.old.filter (· != dev) }
/-- An answer is delivered by the lead router of the port that it came in at (R263). -/
def cameBy (f : Flit) (port : Fin 2) : Flit := { f with dst := if port.val = 0 then 24 else 31 }
/-- A delay-measurement request answered, its time stamps in a layout that the spec does not give (R270). -/
def dmReply (h : Hw) (port : Nat) : Hw :=
  let w := freshWord h
  let b := packet w.2 9 0xFD 1
  sendOn w.2 port { b with p := { b.p with words := [w.1] } }
def withMisses (h : Hw) (k : Nat) : Hw := { h with chain.misses := k }
/-- An entry of the table of outstanding requests given up. -/
def outRemoved (h : Hw) (i : Nat) : Hw := { h with chain.out := removeAt h.chain.out i }
/-- One more request of a device in its pool here. -/
def poolTaken (h : Hw) (d : Nat) : Hw := { h with chain.poolUsed := setD 0 h.chain.poolUsed d (getD 0 h.chain.poolUsed d + 1) }
/-- The request that the lead router of a port issues for a REQ (R263). -/
def issuedFor (p : Pkt) (port : Fin 2) : NocReq :=
  ⟨p.op.toNat, ⟨Fin.ofNat 40 (reqRouter p), if port.val = 0 then 24 else 31, p.cnt, 0, reqAddr p, p.words, none⟩,
    .chain p.sdev.toNat p.src p.rb.toNat⟩
/-- A delay-measurement request sent upstream, its time stamps in a layout that the spec does not give (R270). -/
def dmRequest (h : Hw) : Hw :=
  let w := freshWord h
  let b := packet w.2 9 0xFD 0
  sendOn w.2 (upstreamPort w.2) { b with p := { b.p with words := [w.1] } }
/-- Counted devices but device 0 that have not reported firmware-ready, as a mask (R280). -/
def absentDevices (h : Hw) : Nat :=
  (List.range 64).foldl (fun acc d =>
    if d ≠ 0 ∧ d < getF h aCH_ID fCH_ID_COUNT ∧ ¬ (peer h d).ready then acc + 2 ^ d else acc) 0
/-- The summary of a code no longer waits. -/
def summaryTaken (h : Hw) (code : Nat) : Hw := { h with obs.summaries := removeAt h.obs.summaries code }
/-- The ALARM packet of a code's summary (R442, Table 10.2). -/
def summaryPkt (h : Hw) (code : Nat) (x : Summary) : CPkt :=
  let a := alarm h code
  let w0 := code + (alarmClass code).getD 0 * 2 ^ 9 + x.first.toNat * 2 ^ 11 + ownAddr h * 2 ^ 12 + a.count * 2 ^ 18
  let b := packet h 0xD 0 0
  { b with p := { b.p with words := [⟨BitVec.ofNat 72 w0, true, false, false, false, 0⟩,
    ⟨BitVec.ofNat 72 (a.last % 2 ^ 64), true, false, false, false, 0⟩] } }

/-! ## Ports -/

/-- Direction of a JESD link. -/
abbrev dirOf (j : Fin 4) (tx : Bool) : Nat := 2 * j.val + tx.toNat
/-- Sub-port sp of MAC m. -/
abbrev subPort (m sp : Fin 4) : Nat := 4 * m.val + sp.val
/-- The word and the block being formed are given up. -/
def blockDropped (x : JDir) : JDir := { x with half := none, blk := 0, place := 0 }
/-- A boundary has fallen: the first sample slot may come, a block starts with `ALIGN` = 1, and the fabric's wire is high
(R291, R335). -/
def boundaryMet (h : Hw) (d : Nat) : Hw :=
  let x := jdir h d
  let h1 := setJdir h d { x with go := true, blk := if jField h d fJL_RXCFG_ALIGN = 1 then 0 else x.blk }
  { h1 with fab.bnd := h1.fab.bnd ||| BitVec.ofNat 8 (2 ^ d) }
/-- Tagged words that received samples make, with the sample left over; those with a sample of a lane whose CRC-12 failed
are poisoned (R290 to R293). -/
def rxWords (h : Hw) (j : Fin 4) (xs : List (BitVec 32 × BitVec 32)) (badLanes : BitVec 8) :
    List TW × Option ((Int × Int) × Bool) :=
  let d := 2 * j.val
  let r := formWords (jMap h d) (jdir h d).half (markLanes h d (failedLanes h d badLanes) (jdir h d).place xs)
  (tagWords (blkLen h d) (getF h (aJcfg d) fJL_RXCFG_EP) (jdir h d).blk r.1, r.2)
/-- A receive direction after n words made of some samples. -/
def afterWords (h : Hw) (j : Fin 4) (half : Option ((Int × Int) × Bool)) (n samples : Nat) : JDir :=
  let d := 2 * j.val
  { jdir h d with half := half, blk := ((jdir h d).blk + n) % blkLen h d,
                  place := ((jdir h d).place + samples) % jPerFrame h d }
/-- The pull of k words that the transmit direction asks for (R294). -/
def pullOf (h : Hw) (j : Fin 4) (k : Nat) : NocReq :=
  let q := troughReq (jesdRouter j) (getF h (aJL_TRG j) fJL_TRG_TXPEN) (getF h (aJL_TRG j) fJL_TRG_TXTRG) 4 []
  { q with f := { q.f with cnt := BitVec.ofNat 3 (k - 1) } }
/-- Sample slots sent; the words that stay in the buffer. -/
def slotsSent (h : Hw) (d : Nat) (buf : List TW) (ss : List (Int × Int)) : Hw :=
  setJdir h d { jdir h d with buf := buf, go := false, sent := ss }
def zeroSlots (h : Hw) (d : Nat) : List (Int × Int) := List.replicate (perWord h d) (0, 0)
/-- A destination address that the sub-port takes (R296). -/
def addressTaken (h : Hw) (i : Nat) (fr : RxFrame) : Bool :=
  isSet h (aETH_PCTL i) fETH_PCTL_PROMISC || (fr.bytes.headD 0).getLsbD 0 ||
    beNat (slice fr.bytes 0 6) == getF h (aETH_MAC i) fETH_MAC_ADDR
/-- The counter of a frame that is discarded before its content counts: over the MTU, too short, a bad FCS, no room, an
address that is not taken (R296, R299). -/
def discardOf (h : Hw) (i : Nat) (fr : RxFrame) : Option Nat :=
  if getF h (aETH_PCTL i) fETH_PCTL_MTU < fr.bytes.length + 4 then some 3
  else if fr.bytes.length + 4 < 64 then some 2
  else if fr.fcsOk = false then some 4
  else if fr.room = false then some 8
  else if addressTaken h i fr = false then some 10
  else none
/-- An accepted frame counted, with its bytes. -/
def frameCounted (h : Hw) (i : Nat) (fr : RxFrame) : Hw := ethCount (ethCount h i 0 1) i 1 (fr.bytes.length + 4)
/-- Bytes of a frame with bad parity that end up in pushed words (R430). -/
def parityInside (fr : RxFrame) : Nat :=
  let hd := frameHead fr.bytes
  (fr.badParity.filter fun b => hd.body - 4 ≤ b && b < hd.body + 4 + beNat (slice (fr.bytes.drop hd.body) 2 2)).length
/-- A message begun and taken back: PKT_OPEN, its words, PKT_ABORT, with a counter (R298). -/
def rxAborted (h : Hw) (i k : Nat) (p : List TW × TW × Nat × Bool) (code : Nat) : Hw :=
  let a := aETH_RXFLOW1 (i / 4) k
  let put (g : Hw) (op : Nat) : Hw :=
    queueRequest g (troughReq (macRouter (i / 4)) (getF h a fETH_RXFLOW1_PEN) (getF h a fETH_RXFLOW1_TRG) op [])
  let h1 := queuePushes (put h 5) (macRouter (i / 4)) (getF h a fETH_RXFLOW1_PEN) (getF h a fETH_RXFLOW1_TRG) p.1.length p.1
  put (ethCount h1 i code 1) 7
/-- The event of a MAC raised in the yard of a flow's trough (R299). -/
def flowEvent (h g : Hw) (i k e : Nat) : Hw :=
  raiseEvent g (getF h (aETH_RXFLOW1 (i / 4) k) fETH_RXFLOW1_PEN / 8) (e + 4 * (i / 4))
/-- Words of a transmit buffer sent as zeros for a poisoned one, counted; the first on its link raises `TX_POISON`
(R294, R432). -/
def poisonSent (h : Hw) (j : Fin 4) : Hw :=
  let h1 := bump (jRaise h j fJL_STAT_PSNTX) (aJL_CNT j) fJL_CNT_POISON_TX (perWord h (2 * j.val + 1))
  if h1.eth.firstPsn.getLsbD (16 + j.val) = true then h1
  else raiseAlarm { h1 with eth.firstPsn := h1.eth.firstPsn ||| BitVec.ofNat 20 (2 ^ (16 + j.val)) } 0x142 (jesdRouter j) 0 j
/-- Zeros sent while the fabric blanks the link; the buffer stays (R335). -/
def blankSent (h : Hw) (d : Nat) : Hw := setJdir h d { jdir h d with sent := zeroSlots h d, go := false }
/-- The refill tick of this cycle has been taken. -/
def refillNoted (h : Hw) : Hw := { h with eth.refillAt := h.aclk + 1 }
/-- Firmware's compensation for a sub-port (R314). -/
def compOf (h : Hw) (i : Nat) : Nat :=
  match lookup h.eth.ptp i with
  | some r => r.comp
  | none => 0
/-- Records that a timing ring holds, and how many it has room for (R313). -/
def ringHeld (m : Sparse Byte) (r : PtpRing) : Nat := (ringRead m r.base 0 8 + 2 ^ 64 - ringRead m r.base 8 8) % 2 ^ 64
/-- The 256 bytes of a record of sub-port i (R313). -/
def ringBytes (rec : RingRec) (i : Nat) : List Byte :=
  let bare := rec.kind == 3 || rec.kind == 4
  let head := leBytes 1 rec.kind.toNat ++ leBytes 1 i ++ leBytes 2 (if bare then 0 else rec.frame.length) ++
    leBytes 6 rec.secs.toNat ++ leBytes 4 rec.ns.toNat ++ leBytes 2 (if bare then rec.tsid.toNat else 0)
  (head ++ (if bare then [] else rec.frame.take 240) ++ List.replicate 240 0).take 256
def timingRoom (r : PtpRing) : Nat := (r.len - 32) / 256
/-- The eCPRI message of a frame. -/
def messageOf (fr : RxFrame) : List Byte := fr.bytes.drop (frameHead fr.bytes).body
/-- An accepted message on its way into its trough: PKT_OPEN, its words, PKT_CLOSE with the length word, and the flow's
SEQ_ID kept (R298). -/
def rxCommitted (h : Hw) (i k : Nat) (p : List TW × TW × Nat × Bool) : Hw :=
  let a := aETH_RXFLOW1 (i / 4) k
  let put (h : Hw) (op : Nat) (ws : List TW) : Hw :=
    queueRequest h (troughReq (macRouter (i / 4)) (getF h a fETH_RXFLOW1_PEN) (getF h a fETH_RXFLOW1_TRG) op ws)
  let h1 := queuePushes (put h 5 []) (macRouter (i / 4)) (getF h a fETH_RXFLOW1_PEN) (getF h a fETH_RXFLOW1_TRG) p.1.length p.1
  let h2 := put h1 6 [p.2.1]
  { h2 with eth.rxSeq := insertAt h2.eth.rxSeq (64 * (i / 4) + k) (BitVec.ofNat 8 p.2.2.1) }
/-- A class may send: enabled, a committed packet at the head of its trough, and credit in its bucket or transmit muted
(R301, R302). -/
def classReady (m : Sparse Byte) (h : Hw) (i c : Nat) : Bool :=
  isSet h (aETH_TC i c) fETH_TC_EN && (headPacket m h (tcKey h i c)).isSome &&
    (isSet h (aETH_PSTAT i) fETH_PSTAT_MUTED || 0 ≤ bucket h i c)
/-- The packet at the head of a class's trough, with its length word, taken and released; `eccs` are the outcomes of its
words' checks. -/
def headTaken (m : Sparse Byte) (h : Hw) (i c : Nat) (eccs : List Ecc) : List TW × Hw :=
  takePacket m h (tcKey h i c) ((headPacket m h (tcKey h i c)).getD 0 + 1) eccs
/-- `ETH_TC` written with what its RW fields hold (R307). -/
def tcRewritten (h : Hw) (i c : Nat) : Hw :=
  writeFree h .ethp i (0x100 + 8 * c) (aETH_TC i c) (oneField h (aETH_TC i c) fETH_TC_FORGIVE 1).toNat
    (fun f => !(isSet h (aETH_PCTL i) fETH_PCTL_EN) || (f.lo != fETH_TC_PEN.lo && f.lo != fETH_TC_TRG.lo))
    (fun h => raiseBit h (aETH_PSTAT i) fETH_PSTAT_CFGBUSY)
def stampPopped (h : Hw) (i : Nat) (es : List (Nat × Nat × Nat)) : Hw := { h with eth.fifo := setD [] h.eth.fifo i es }

/-! ## Timebase, gates and fabric -/

/-- The holdover term, and the millisecond in which it was worked out (R312). -/
def withHoldover (t : Timebase) (x : Int) (at_ : Nat) : Timebase := { t with h := x, hoAt := at_ }
/-- The ageing accumulator of a holdover update, of 64 bits (R312). -/
def ageSum (h : Hw) : BitVec 64 :=
  BitVec.ofInt 64 (signed 64 (reg h aTB_AGEACC).toNat + signed 32 (getF h aTB_AGERATE fTB_AGERATE_RATE))
/-- A time in 2^-32 ns put into the capture registers, with VALID (R315). -/
def captureStored (h : Hw) (x : Nat) : Hw :=
  setReg (setReg (raiseBit h aTB_CAPIN fTB_CAPIN_VALID) aTB_CAP0 (BitVec.ofNat 64 (time0Of x))) aTB_CAP1
    (BitVec.ofNat 64 (secOf x))
/-- The PPS pad in a slot (R316). -/
def ppsAt (h : Hw) (high : Bool) (slot : Nat) : Hw := { h with ppsHigh := high, ppsSlot := slot }
/-- The start of an entry's occurrence is reached, or a late strobe is due (Table 12.2). -/
def gateDue (h : Hw) (i : Nat) : Bool :=
  if (gate h i).evLate then (gate h i).armA + 1 ≤ h.aclk else t32 (gate h i).start ≤ now32 h
/-- A start that comes late for the strobe, or for the pin of an entry that has one (Table 12.2). -/
def gateLate (h : Hw) (i : Nat) : Bool := (gate h i).evLate || (gPin h i && (gate h i).pinLate)
/-- The start strobe, where the entry has one, and a late start counted (R320). -/
def gateFired (h : Hw) (i : Nat) : Hw :=
  let h1 := if getF h (aGS_CTL i) fGS_CTL_EVMODE % 2 = 1 then strobe h i else h
  if gateLate h i then bump h1 (aGS_STAT i) fGS_STAT_LATECNT 1 else h1
/-- The time of a late rise, 16 cycles after the entry was armed, and the slot of the rise (Table 12.2). -/
def lateRise (h : Hw) (i : Nat) : Int := (now32 h : Int) + (((gate h i).armA + 16 : Nat) - (h.aclk : Int)) * (effOf h).1
def riseSlot (h : Hw) (i : Nat) : Nat :=
  if (gate h i).pinLate then 2 * ((gate h i).armA + 16) else slotOfTime h (t32 (gate h i).start)
/-- A window opened in a slot. -/
def windowOpened (g : Gate) (slot : Nat) : Gate := { g with isOpen := true, rise := slot, closeAt := 0 }
/-- The holdover term h of an update: temperature correction and ageing (R312). -/
def holdoverTerm (h : Hw) (die : BitVec 13) : Int :=
  let h1 := setF h aTB_TEMP fTB_TEMP_DIE die.toNat
  let t := if isSet h1 aTB_CTL fTB_CTL_TSRC then getF h1 aTB_TEMP fTB_TEMP_TEMP else die.toNat
  tempCorr h1 (signed 13 t) +
    Int.fdiv (BitVec.ofInt 64 (signed 64 (reg h1 aTB_AGEACC).toNat + signed 32 (getF h1 aTB_AGERATE fTB_AGERATE_RATE))).toInt (2 ^ 32)
/-- A gate window closed in a slot. -/
def windowClosed (g : Gate) (slot : Nat) : Gate := { g with isOpen := false, fall := slot }
/-- Macrocells that an edge of a user clock has changed, noted for the edge of FCLK in the same ACLK cycle (R330). -/
def movesNoted (h g : Hw) (b : Nat) : Hw :=
  applyAll (fun h k => { h with fab.userAt := insertAt h.fab.userAt (16 * b + k) (h.aclk + 1) }) g
    ((List.range 16).filter fun k => (getD 0 h.fab.q b ^^^ getD 0 g.fab.q b).getLsbD k)
/-- The fabric has met the edge of this cycle. -/
def edgeNoted (h : Hw) : Hw := { h with fab.edge := h.aclk + 1 }
/-- The state of the fabric's blocks after an edge of FCLK (R327, R329, R334). -/
def blocksClocked (m : Sparse Byte) (h : Hw) (rising : Bool) : Hw :=
  if fabOn h then applyAll (clockBlock m h (firesOn rising)) (edgeNoted h) (List.range 256) else edgeNoted h
/-- The registered segments and port-out wires after a rising edge, from the state before it. -/
def segmentsClocked (m : Sparse Byte) (h g : Hw) : Hw := if fabOn h then applyAll (clockRegs m h) g (List.range 256) else g
/-- The 204B directions whose SYNC~ pad lies in a bank go down, held until they are reset (R289, R337). -/
def syncsHeld (h : Hw) (b : Nat) : Hw :=
  applyAll (fun h d =>
    if jEn h d ∧ jIsB h d ∧ syncPad h d / 16 = b then jDownErr (setJdir h d { jdir h d with held := true }) d else h) h
    (List.range 8)
/-- The bank stands at the level that a write of V33 asks for, and is on (R337). -/
def bankStands (h : Hw) (b : Nat) (v33 : Bool) : Bool :=
  v33 == isSet h (aFIO_BANK b) fFIO_BANK_V33 && v33 == isSet h (aFIO_BANK b) fFIO_BANK_ACT33 &&
    !(isSet h (aFIO_BANK b) fFIO_BANK_OFF)
/-- An armed capture is over with the shadow registers filled; `DONE` and `SEQ` follow a cycle of FCLK later (R341). -/
def captureTaken (h : Hw) (x : CapArm) : Hw :=
  let h1 := setF (setReg { h with cap := none, capEnd := some (h.aclk + 4) } aCAP_EDGE (BitVec.ofNat 64 (h.aclk / 4)))
    aCAP_STAT fCAP_STAT_BUSY 0
  if x.late then raiseBit h1 aCAP_STAT fCAP_STAT_LATE else h1
/-- The capture registers' time in 2^-32 ns (R340). -/
def capTime (h : Hw) : Nat := (getF h aCAP_TSEC fCAP_TSEC_SEC * nsPerSec + getF h aCAP_TNS fCAP_TNS_NS) * 2 ^ 32
def capEnded (h : Hw) : Hw := { h with capEnd := none }
def padsTaken (h : Hw) : Hw := { h with padDue := [] }
def wireTaken (h : Hw) (e : Nat) : Hw := { h with fab.evs := h.fab.evs.erase e }
def chainWireTaken (h : Hw) (k : Nat) : Hw := { h with fab.chEvs := h.fab.chEvs.erase k }

/-! ## Slots -/

def withState (x : Slot) (st : SlotState) : Slot := { x with st := st }
def withIrq (x : Slot) (b : Bool) : Slot := { x with irq := b }
/-- The command of a slot put to this device alone: the part is this device's, and `TOTAL` that of Table 14.8. -/
def asked (s : State) (sl : Fin 48) : State :=
  onHw s fun h => setSlot h sl { slot h sl with left := 2 ^ selfAddr h, total := tableTotal (slot h sl) }

/-- A slot with its command put to this device. -/
abbrev held (s : State) (sl : Fin 48) : Slot := slot (asked s sl).hw sl

/-- A slot is TAKEN with a command of an opcode for this device alone, in a state in which the MP or, while FROZEN, the
readout engine executes it (R353, R354). -/
abbrev Starts (s : State) (sl : Fin 48) (opc : Nat) : Prop :=
  (slot s.hw sl).st = .taken ∧ (slot s.hw sl).opc = opc ∧ (slot s.hw sl).left = 0 ∧
    ((16 ≤ sl.val ∧ sl.val < 32) ∨ targetsOf s.hw (slot s.hw sl).tgt = [selfAddr s.hw]) ∧ s.hw.chain.out.length ≤ 256 ∧
    mpRuns s.hw opc = true

/-- It starts, and the checks on its payload, the device's state and other long commands pass (R275, R353, R361). -/
abbrev Ready (s : State) (sl : Fin 48) (opc : Nat) : Prop :=
  Starts s sl opc ∧ payloadClear (held s sl) = true ∧ (s.hw.mode = .isolated → opc / 256 < 3) ∧
    longBusy (asked s sl).hw opc = false

/-- A slot is RUNNING on this device, in a state in which the MP or, while FROZEN, the readout engine acts (R354, R358). -/
abbrev RunsHere (s : State) (sl : Fin 48) : Prop :=
  (slot s.hw sl).st = .running ∧
    ((16 ≤ sl.val ∧ sl.val < 32) ∨ (slot s.hw sl).tgt = selfAddr s.hw ∨ (slot s.hw sl).left.testBit (selfAddr s.hw) = true) ∧
    mpRuns s.hw (slot s.hw sl).opc = true
/-- It runs with a command of an opcode, and no abort stops it here (R356). -/
abbrev Runs (s : State) (sl : Fin 48) (opc : Nat) : Prop :=
  RunsHere s sl ∧ (slot s.hw sl).opc = opc ∧
    ((slot s.hw sl).abort = false ∨ abortResult s.hw sl (slot s.hw sl) = none)

/-- The answer of a command with what it reads: its payload and the hardware after the reads. -/
def replied (sl : Fin 48) (r : List Byte × Hw) : Hw := reply r.2 sl stOk r.1
/-- The answer of a command that acted, without a payload. -/
def acted (sl : Fin 48) (h : Hw) : Hw := reply h sl stOk []
/-- A `CTX_LOAD` waits for the load that a pen has begun. -/
def loadAwaited (h : Hw) (n : Nat) : Hw := setPen h n { pen h n with loadRes := none }
/-- The answer of a command that acted on memory too. -/
def actedMem (sl : Fin 48) (r : Sparse Byte × Hw) : Sparse Byte × Hw := (r.1, acted sl r.2)

def withMbox (h : Hw) (m : Sparse Byte) : Hw := { h with mbox := m }
/-- A byte of BAR0's slots that a host write reaches: of the request area of a FREE slot (R352). -/
def requestByte (h : Hw) (a : Nat) : Bool := a < 0x4000 && a % 0x400 < 0x200 && (slot h (a / 0x400)).st == .free
/-- The mailbox SRAM with those of the bytes written from an offset that reach it, 512 bytes a slot. -/
def requestStored (h : Hw) (m : Sparse Byte) (a : Nat) : List Byte → Sparse Byte
  | [] => m
  | b :: bs => requestStored h (if requestByte h a then writeByte m (512 * (a / 0x400) + a % 0x400) b else m) (a + 1) bs
/-- A slot as it is taken: the host's with the request its SRAM holds, one that another device forwarded as it came. -/
def takenSlot (h : Hw) (sl : Fin 48) : Slot :=
  if sl.val < 16 then fetchSlot h sl .taken else withState (slot h sl) .taken
/-- A posted slot taken. -/
def takenBy (h : Hw) (sl : Fin 48) : Hw := setSlot { h with posted := h.posted.erase sl } sl (takenSlot h sl)
/-- The FREE slots that a doorbell names, from the lowest (R353). -/
def newlyPosted (h : Hw) (v : Nat) : List Nat := (List.range 16).filter fun k => v.testBit k && (slot h k).st == .free
/-- A slot whose command is to be aborted at its safe point. -/
def toAbort (x : Slot) : Slot := { x with abort := true }
/-- The abort of its command sent to the device that a slot was forwarded to (R356). -/
def abortSent (h : Hw) (sl : Nat) (d : Nat) : Hw := sendPkt h (forwardPkt h sl d 0xFFFF)
/-- A posted slot of the host taken back with its request. -/
def unposted (h : Hw) (sl : Fin 48) : Hw :=
  setSlot { h with posted := h.posted.erase sl } sl (fetchSlot h sl .posted)
def withLoad (h : Hw) (l : Load) : Hw := { h with load := some l, staging := true }
/-- No image is being loaded; the staging area is free. -/
def withoutLoad (h : Hw) : Hw := { h with load := none, staging := false }
def withoutFwLoad (h : Hw) : Hw := { h with fwLoad := none }
/-- No yard of the mask owes a re-plan that it could make. -/
def noneOwing (h : Hw) (mask : Nat) : Hw :=
  applyAll (fun h y => if yardRuns h y then setYardAge h y { yardAge h y with owed := false } else h) h (yardsOf mask)
def withFwLoad (h : Hw) (l : FwLoad) : Hw := { h with fwLoad := some l }
def withMemTest (h : Hw) (t : Option MemTest) : Hw := { h with memTest := t }
/-- Pass of the muck-out engines of the yards of a mask, with the findings so far. -/
def memTestOf (h : Hw) (mask : Nat) : MemTest :=
  ⟨(yardsOf mask).foldl (fun m y => setD 0 m y passSegs) [], getF h aMO_FIND fMO_FIND_CE, getF h aMO_FIND fMO_FIND_PSN,
    getF h aMO_FIND fMO_FIND_RPR, getF h aMO_FIND fMO_FIND_DEGR⟩
/-- A host vector gets a scheduler event as its source, or none. -/
def withSource (h : Hw) (v : Nat) (x : Option (Nat × Nat)) : Hw :=
  { h with obs.evHost := match x with
      | some e => insertAt h.obs.evHost v e
      | none => removeAt h.obs.evHost v }
/-- The yards of a mask owe a re-plan. -/
def owingYards (h : Hw) (mask : Nat) : Hw := applyAll (fun h y => setYardAge h y (owing (yardAge h y))) h (yardsOf mask)
/-- A yard with a voltage, and a floor at it or none (R407). -/
def withVoltage (h : Hw) (y k : Nat) (floor : Bool) : Hw :=
  setYardAge (setCode h y k) y { yardAge (setCode h y k) y with floor := if floor then some k else none }
/-- PTP assist of a sub-port with a timing ring. -/
def withPtp (h : Hw) (k : Nat) (r : PtpRing) : Hw := { h with eth.ptp := insertAt h.eth.ptp k r }
/-- What applying a checked load gives. -/
abbrev appliedBy (s : State) (l : Load) (fails : Option (Fin 3)) : (Sparse Byte × Hw) × Nat × Bool :=
  applyImage s.mem s.hw (stagedBytes s.mem l) l.mode (fails.map (·.val))
/-- START-UP ends where the image applied holds a context or the fabric (Table 19.6). -/
def afterStartUp (h : Hw) (img : List Byte) : Hw :=
  if h.mode = .startUp ∧ endsStartUp img then endStartUp h else h
/-- Fuses, flash and hardware changed. -/
def withNv (s : State) (n : Nv) (h : Hw) : State := { s with nv := n, hw := h }
def withRevoked (n : Nv) (bit : Nat) : Nv := { n with revoked := n.revoked ||| BitVec.ofNat 32 (2 ^ bit) }
def withAes (n : Nv) (x : BitVec 256 × Bool) : Nv := { n with aes := x.1, aesOk := x.2 }
/-- What `KEY_STATUS` answers: which keys are present, and the revocation bits. -/
def keyBytes (n : Nv) : List Byte :=
  leBytes 4 ((n.root != 0).toNat + 2 * n.slot1.prov.toNat + 4 * n.slot2.prov.toNat + 8 * n.aesOk.toNat) ++
    leBytes 4 n.revoked.toNat
/-- The oldest domain leaves reset. -/
def withInDom (h : Hw) (ds : List Nat) : Hw := { h with inDom := ds }
/-- The command of a slot put to one other device. -/
def sentTo (s : State) (sl : Fin 48) (d : Nat) : Hw :=
  setSlot s.hw sl { slot s.hw sl with left := 2 ^ d, total := tableTotal (slot s.hw sl) }
def withoutPtp (h : Hw) (k : Nat) : Hw := { h with eth.ptp := removeAt h.eth.ptp k }
/-- The holdover set of a request written whole (R312). -/
def holdoverWritten (h : Hw) (x : Slot) : Hw :=
  let h1 := setF (setF h aTB_TCCFG fTB_TCCFG_BASE (pay x 0 2)) aTB_TCCFG fTB_TCCFG_STEP (pay x 2 1)
  let h2 := applyAll (fun h i => setF h (aTB_TCTAB i) fTB_TCTAB_CORR (pay x (16 + 4 * i) 4)) h1 (List.range 32)
  let h3 := setF h2 aTB_AGERATE fTB_AGERATE_RATE (pay x 4 4)
  let h4 := if (pay x 3 1).testBit 2 then setF h3 aTB_AGEACC fTB_AGEACC_AG (pay x 8 8) else h3
  setF (setF h4 aTB_CTL fTB_CTL_HOEN (pay x 3 1 % 2)) aTB_CTL fTB_CTL_TSRC (pay x 3 1 / 2 % 2)
/-- What `AGE_REPORT` answers: life consumed and projected, and each yard's voltage in mV, divide and fall-back bit. -/
def ageBytes (h : Hw) : List Byte :=
  leBytes 2 (deviceLife h) ++ leBytes 2 (projectedLife h) ++ leBytes 4 0 ++
    ((List.range 16).flatMap fun y => leBytes 2 (620 + 5 * getF h (aYP_VOLT y) fYP_VOLT_ACT)) ++
    ((List.range 16).flatMap fun y => leBytes 1 (yardDiv h y)) ++
    leBytes 8 ((List.range 16).foldl (fun acc y => acc + if (yardAge h y).fallback then 2 ^ y else 0) 0)
/-- What `CLOCK_STATUS` answers. -/
def clockBytes (h : Hw) : List Byte :=
  leBytes 4 (getF h aCLK_STAT fCLK_STAT_REFLOST + 2 * getF h aCLK_STAT fCLK_STAT_ROOTHOLD +
      4 * getF h aCLK_STAT fCLK_STAT_DRAMHOLD) ++
    leBytes 4 (getF h aCLK_STAT fCLK_STAT_DEADCNT) ++ leBytes 8 (reg h aCLK_LOSSTICK).toNat
/-- A slot's command awaits one device. -/
def awaiting (x : Slot) (d : Nat) : Slot := { x with left := 2 ^ d }
/-- The part of a slot's command that is this device's. -/
def askedPart (h : Hw) (x : Slot) : Slot := { x with left := 2 ^ selfAddr h }
/-- A trace ring as `TRACE_SET` asks. -/
def traceSetTo (h : Hw) (x : Slot) : Hw :=
  let y := pay x 0 1
  let h1 := setF (setF h (aSCH_TRBASE y) fSCH_TRBASE_BASE (pay x 8 8)) (aSCH_TRSIZE y) fSCH_TRSIZE_LOG2 (pay x 2 1)
  setF (setF h1 (aSCH_CTL y) fSCH_CTL_TREN (pay x 1 1 % 2)) (aSCH_CTL y) fSCH_CTL_TRDRAM (pay x 1 1 / 2)

/-! ## The host, alarms, freeze and start-up -/

/-- A diagnostic write of 8 bytes, or of 4, as the list of its bytes. -/
def writtenBytes (wide : Bool) (v : BitVec 64) : List Byte := leBytes (if wide then 8 else 4) v.toNat
/-- The local address that an aperture gives a host access (R29). -/
abbrev barAddr (s : State) (x : Bar2) : Nat := apertureAddr s.hw x.off.toNat
/-- A host access comes through an aperture that is on, with bytes to move and, if a write, not poisoned (R29, R31). -/
abbrev BarTaken (s : State) (x : Bar2) : Prop :=
  s.hw.clocked = true ∧ ¬ (x.wr = true ∧ x.tlpEp = true) ∧ barSize x ≠ 0 ∧ isSet s.hw (aAP (x.off.toNat / 2 ^ 30)) fAP_EN = true
/-- The device that the aperture of a host access names. -/
abbrev barDev (s : State) (x : Bar2) : Nat := getF s.hw (aAP (x.off.toNat / 2 ^ 30)) (fAP_DEV 0)
/-- It shows the freeze view (R30). -/
abbrev barView (s : State) (x : Bar2) : Bool := isSet s.hw (aAP (x.off.toNat / 2 ^ 30)) fAP_VIEW
/-- A part of a host access lies behind a quarantined crossing (R31, R464). -/
def barClosed (h : Hw) (a : Nat) (x : Bar2) : Bool :=
  behindQuarantine h a || (hostParts (regionOf h a (barSize x)) 0 a x).any fun q => behindQuarantine h q.f.addr.toNat

def withQueue (h : Hw) (q : List LogRec) : Hw := { h with obs.queue := q }
/-- No record is lost that no marker tells of. -/
def noneLost (h : Hw) : Hw := { h with obs.qLost := 0 }
/-- An alarm entry after further occurrences (R438). -/
def counted (a : AlarmEntry) (k tick router : Nat) : AlarmEntry :=
  { a with raised := true, count := min (a.count + k) 0xFFFFFFFF, last := tick, router := router }
/-- An alarm that waits until firmware runs (R445). -/
def deferring (h : Hw) (x : Nat × Nat × Nat × Nat) : Hw := { h with frz.deferred := h.frz.deferred ++ [x] }
/-- The counter and latch of a code moved away. -/
def findsTaken (h : Hw) (code : Nat) : Hw := { h with obs.finds := setD FindCnt.zero h.obs.finds code FindCnt.zero }
def hitTaken (h : Hw) (v : Nat) : Hw := { h with obs.evHit := h.obs.evHit.erase v }
/-- A freeze at once is asked for. -/
def withReq (h : Hw) (k : Nat) : Hw := { h with frz.req := some k }
/-- Self-refresh entry of a timed freeze begins. -/
def entryBegun (h : Hw) : Hw := { h with frz.entering := true }
def resuming (h : Hw) : Hw := { h with frz.resuming := true }
def tapAt (h : Hw) (a : BitVec 40) : Hw := { h with frz.tapAddr := a }
/-- What FRZ_DATA loads, its status, and the next address. -/
def tapLoaded (h : Hw) (v st : Nat) (next : BitVec 40) : Hw := { h with frz.tapData := (v, st), frz.tapAddr := next }
/-- The one controller out for readout is back in self-refresh. -/
def channelBack (h : Hw) (c : Fin 4) : Hw :=
  setDramCh { h with frz.out := h.frz.out &&& ~~~(BitVec.ofNat 4 (2 ^ c.val)) } c (inSelfRefresh (dramCh h c))
/-- The clocks run and the boot ROM starts. -/
def romRuns (h : Hw) : Hw := { h with clocked := true, locked := true, phase := .rom }
def bootFailed (h : Hw) : Hw := { setStage h 5 with phase := .failed }
def listening (h : Hw) : Hw := { setStage h 4 with phase := .listen }
/-- The standard twiddle tables (R89). -/
def twiddlesStandard (h : Hw) : Hw := { h with arr.twiddle := [] }
def withGib (h : Hw) (g : Nat) : Hw := { h with dramGib := g }
/-- Step 5 of the power-on sequence is complete, and Mc_RESET_N is high (R485). -/
def started (h : Hw) : Hw := { h with phase := .started, mcReset := false }
/-- The boot ROM has found a firmware copy that fails a check: the flag of the copy, and the step (R455). -/
def copyNoted (h : Hw) (f : Fld) (c : FwCheck) : Hw :=
  if c.step = 0 then h else setF (raiseBit h aDV_BOOT f) aDV_BOOT fDV_BOOT_FAILSTEP c.step
/-- Both copies noted, A first. -/
def bothNoted (h : Hw) (a b : FwCheck) : Hw := copyNoted (copyNoted h fDV_BOOT_AFAIL a) fDV_BOOT_BFAIL b
/-- The yards are released from reset: step 6. -/
def released6 (h : Hw) : Hw := { h with phase := .ready, yardsUp := true }
def outOfQuarantine (h : Hw) (code : Nat) : Hw :=
  { h with quarantined := h.quarantined &&& ~~~(BitVec.ofNat 64 (2 ^ code)) }
/-- RESET_N is low, or high again, with no other effect. -/
def heldLow (h : Hw) : Hw := { h with rstLow := true }
def letGo (h : Hw) : Hw := { h with rstLow := false }
/-- Recovery ends with the functions recorded restarted, but for those that do not start (R468). -/
def restarted (m : Sparse Byte) (h : Hw) (failed : List Nat) : Sparse Byte × Hw :=
  let r := startAll m { h with recovering := none, recorded := [] } (h.recorded.filter fun id => !(failed.contains id)) 4
  (r.1.1, returnToRun r.1.2)
/-- No recovery action runs, and nothing is left to restart. -/
def recovered (h : Hw) : Hw := { h with recovering := none }
/-- The supply noted and the rails in range, 22 only from 3.6 V (R456). -/
def railsUp (h : Hw) (mv : Nat) : Hw :=
  { applyAll (fun h r => if r = 22 ∧ mv < 3600 then h else setF h (aPW_RAIL r) fPW_RAIL_OK 1) (setF h aPW_VIN fPW_VIN_MV mv)
      (List.range 25) with phase := if h.rstLow then .reset else .rails, tripped := false }
/-- Bytes from an address to the end of its page (R222). -/
def pageRoom (x : Xlat) (va : Nat) : Nat := if x.big then 2 ^ 21 - va % 2 ^ 21 else 2 ^ 12 - va % 2 ^ 12

end Sys2Proof.Machine
end

