-- ==== Sys2Proof/Certificates/Slice0/Obligations.lean ====
section
/-!
DEFINITION. The statements for the provers: what reset leaves, what each command does where it acts, what it leaves
unchanged, and what holds of every step.
-/

open Sys2Proof Sys2Proof.Machine

/-- O1. One step runs the command at the front of the queue. A step with a command at the front of the queue is exec of it
on the state with the queue's rest. With no command waiting a step is one ACLK cycle, which is the model's choice (log
entry 1); while FROZEN, or with the root PLL not locked, that cycle changes nothing. (R108, R308, R444) -/
def Obligations.StepRunsTheFrontCommand : Prop :=
  (∀ (c : Instr) (rest : List Instr) (s : State), s.pending = c :: rest → step s = exec c { s with pending := rest
    }) ∧
  (∀ (s : State), s.pending = [] → step s = .next (tick s)) ∧
  (∀ (s : State), s.pending = [] → s.hw.mode = .frozen ∨ s.hw.locked = false → step s = .next s)

/-- O2. What reset leaves. After reset memory, boot flash and queue list nothing, the invariant of the model holds, every
register reads as its reset value, the device is in START-UP without a clock, the time is 0 with the nominal
increment, no trough holds a word and every pen is parked. Rests on the model's reading or choice in log entries 10,
11, 12, 13, 14, 16. (R8, R65, R308, R459, R460, Table 19.2) -/
def Obligations.ResetLeavesTheStatedValues : Prop :=
  (memWf State.reset.mem = true ∧ flashWf State.reset.nv.flash = true ∧ State.reset.pending = [] ∧
    State.reset.hw.mode = .startUp ∧ State.reset.hw.clocked = false ∧ now32 State.reset.hw = 0 ∧
    State.reset.hw.tb.inc = 0xD0555555) ∧
  (∀ (a : Nat), reg State.reset.hw a = resetAt a ∧ readByte State.reset.mem a = 0) ∧
  (∀ (key : Nat), occupied key (trough State.reset.hw key) = 0 ∧ (pen State.reset.hw key).halted = true ∧ (slot
    State.reset.hw key).st = .free)

/-- O3. Every step keeps memory and flash in canonical form. For every state in which the byte memory and the boot flash
are in their canonical forms, addresses strictly rising and no byte listed that equals what an unlisted byte reads, a
step that answers a next state leaves both so: whatever command is at the front of the queue, and where none is. Rests
on the model's reading or choice in log entries 1, 11, 12, 205. (R5, R15, R16, R19, Table 19.2) -/
def Obligations.EveryStepKeepsTheInvariant : Prop :=
  (∀ (t : State) (s : State), Inv s → step s = .next t → Inv t)

/-- O4. While FROZEN no state-advancing event acts. While the device is FROZEN or without a clock, no step of a function
unit, no result that falls due, and none of the events of links, ports, timebase, gates, fabric, power, ageing and
DRAM named here changes anything. Rests on the model's reading or choice in log entry 3. (R444, R445, R449) -/
def Obligations.FrozenDeviceDoesNothing : Prop :=
  (∀ (e : Ecc) (k : Fin (fuCommands e).length) (g : Fin 2048) (u : UStep) (s : State), frozen s.hw = true → GivesHw
    ((fuCommands e).get k g u) s s.hw) ∧
  (∀ (g : Fin 2048) (o : BitVec 8) (u : UStep) (s : State), frozen s.hw = true → GivesHw (.undefinedOpcode g o u) s
    s.hw) ∧
  (∀ (g : Fin 2048) (s : State), frozen s.hw = true → GivesHw (.resultLand g) s s.hw) ∧
  (∀ (s : State), frozen s.hw = true → GivesHw (.heartbeatSend) s s.hw) ∧
  (∀ (s : State), frozen s.hw = true → GivesHw (.heartbeatMiss) s s.hw) ∧
  (∀ (s : State), frozen s.hw = true → GivesHw (.muteHold) s s.hw) ∧
  (∀ (y : Fin 16) (a : BitVec 32) (b : BitVec 32) (m : BitVec 32) (s : State), frozen s.hw = true → GivesHw
    (.slackWindowEnd y a b m) s s.hw) ∧
  (∀ (y : Fin 16) (p : BitVec 32) (s : State), frozen s.hw = true → GivesHw (.emUpdate y p) s s.hw) ∧
  (∀ (y : Fin 16) (a : List Ecc) (s : State), frozen s.hw = true → GivesHw (.muckOutSegmentStart y a) s s.hw) ∧
  (∀ (y : Fin 16) (b : List Nat) (s : State), frozen s.hw = true → GivesHw (.muckOutSegmentComplete y b) s s.hw) ∧
  (∀ (y : Fin 16) (s : State), frozen s.hw = true → GivesHw (.railRetention y) s s.hw) ∧
  (∀ (s : State), frozen s.hw = true → GivesHw (.sysrefEdge) s s.hw) ∧
  (∀ (j : Fin 4) (tx : Bool) (b : Bool) (s : State), frozen s.hw = true → GivesHw (.jesdLinkEstablished j tx b) s
    s.hw) ∧
  (∀ (j : Fin 4) (tx : Bool) (l : Fin 8) (s : State), frozen s.hw = true → GivesHw (.jesdLaneLoss j tx l) s s.hw) ∧
  (∀ (j : Fin 4) (tx : Bool) (s : State), frozen s.hw = true → GivesHw (.jesdBoundary j tx) s s.hw) ∧
  (∀ (s : State), frozen s.hw = true → GivesHw (.shaperRefillTick) s s.hw) ∧
  (∀ (m : Fin 4) (p : Fin 4) (up : Bool) (s : State), frozen s.hw = true → GivesHw (.ethLinkChange m p up) s s.hw) ∧
  (∀ (s : State), frozen s.hw = true → GivesHw (.rclkResume) s s.hw) ∧
  (∀ (d : BitVec 13) (s : State), frozen s.hw = true → GivesHw (.holdoverUpdate d) s s.hw) ∧
  (∀ (a : Bool) (b : Bool) (s : State), frozen s.hw = true → GivesHw (.timeCapture a b) s s.hw) ∧
  (∀ (s : State), frozen s.hw = true → GivesHw (.ppsRise) s s.hw) ∧
  (∀ (s : State), frozen s.hw = true → GivesHw (.ppsFall) s s.hw) ∧
  (∀ (i : Fin 64) (s : State), frozen s.hw = true → GivesHw (.gateStart i) s s.hw) ∧
  (∀ (i : Fin 64) (s : State), frozen s.hw = true → GivesHw (.gateStop i) s s.hw) ∧
  (∀ (c : Fin 4) (d : BitVec 8) (s : State), frozen s.hw = true → GivesHw (.trainingPauseEnd c d) s s.hw) ∧
  (∀ (y : Fin 16) (k : Fin 16) (s : State), frozen s.hw = true → GivesHw (.fabricEventWire y k) s s.hw) ∧
  (∀ (k : Fin 4) (s : State), frozen s.hw = true → GivesHw (.fabricChainEventWire k) s s.hw) ∧
  (∀ (s : State), frozen s.hw = true → GivesHw (.domainResetEnd) s s.hw) ∧
  (∀ (f : Finding) (s : State), frozen s.hw = true → GivesHw (.findingPost f) s s.hw)

/-- O5. A word-forming step launches one tagged result. For each opcode of Tables 3.7 to 3.12 that forms one word, where
the sequencer stands at it in a format of its row with its gate open and no refusal: with every tagged operand valid
it answers a next state with memory as it was and one result in flight after the latency of its row, the word its
operation computes from the operands read, with V = 1, F and L of the first register or port operand, P of any operand
and EP of the context, on its way to W, OUT0, OUT1, both OUT ports or an accumulator as DST selects, or discarded by
DST 0x17. With DST 0x16 it takes the next position of the bound trough. With an operand that is not valid it sends the
not-valid word to a W or OUT destination and nothing to any other. Rests on the model's reading or choice in log
entries 7, 8, 19, 21, 22, 24. (R39, R40, R56, R60, R75, R82) -/
def Obligations.WordStepsLaunchTheirResults : Prop :=
  (∀ (k : Fin wordRows.length) (g : Fin 2048) (u : UStep) (d : Word) (fl : Flags) (s : State), StepFires s g
    (wordRows.get k).2.1 u (wordRows.get k).2.2 → dstOk .any false u.dst.toNat = true → u.dst.toNat ≠ 0x16 →
    (wordRows.get k).2.2.op (inputsOf s g u (wordRows.get k).2.2) = .words [d] fl → Launches ((wordRows.get k).1 g
    u) s (landingOf (readied s g) g (latOf (wordRows.get k).2.2 u) ((wordRows.get k).2.2.outFmt u.fmt.toNat)
    u.dst.toNat (taggedResult s g u (wordRows.get k).2.2 d))) ∧
  (∀ (k : Fin wordRows.length) (g : Fin 2048) (u : UStep) (d : Word) (fl : Flags) (key : Nat) (t : Trough) (pos :
    Nat) (n : Nat) (sq : Bool) (ov : Bool) (s : State), StepFires s g (wordRows.get k).2.1 u (wordRows.get k).2.2 →
    u.dst.toNat = 0x16 → (wordRows.get k).2.2.op (inputsOf s g u (wordRows.get k).2.2) = .words [d] fl → Reaches
    (readied s g) g key true → produce (depth (readied s g) key) false (troughNow (readied s g) key) = (.at t pos,
    n, sq, ov) → Completes ((wordRows.get k).1 g u) s (fun s2 => s2.mem = s.mem ∧ s2.hw.arr.flights = (putTrough
    (readied s g) key (withProd t g)).arr.flights ++ [launched (readied s g) g (latOf (wordRows.get k).2.2 u)
    (.trough key pos) (.word (taggedResult s g u (wordRows.get k).2.2 d))] ∧ s2.hw.arr.troughs = (putTrough (readied
    s g) key (withProd t g)).arr.troughs)) ∧
  (∀ (k : Fin wordRows.length) (g : Fin 2048) (u : UStep) (s : State), Issues s g (wordRows.get k).2.1 u →
    (wordRows.get k).2.2.fmts.contains u.fmt.toNat = true → fires (wordRows.get k).2.2 (operandsOf s g u
    (wordRows.get k).2.2) = false → Launches ((wordRows.get k).1 g u) s (nothingTo (readied s g) g (latOf
    (wordRows.get k).2.2 u) u.dst.toNat))

/-- O6. Multiplies and accumulating steps launch their products and addends. A multiply, where it issues and fires, puts
its product in flight: narrowed with FB + SH, or packed in B16x2, on its way to W, OUT0, OUT1 or both OUT ports, or to
the bound trough with DST 0x16; unshifted, with the product exponent and the P of its operands, on its way to an
accumulator. A MAC-class step puts its addend in flight to the accumulator that DST selects, with its rounding,
saturation and poison. With an operand that is not valid a multiply sends the not-valid word to a W or OUT
destination, and a MAC-class step sends nothing. Rests on the model's reading or choice in log entries 7, 8, 19, 202.
(R39, R42, R45, R50, R54, R57, R75, R85) -/
def Obligations.ProductAndAccumulatingStepsLaunch : Prop :=
  (∀ (k : Fin productRows.length) (g : Fin 2048) (u : UStep) (vs : List Int) (pe : Int) (fl : Flags) (s : State),
    StepFires s g (productRows.get k).2.1 u (productRows.get k).2.2 → u.dst.toNat ≤ 0x12 ∨ u.dst.toNat = 0x17 →
    (productRows.get k).2.2.op (inputsOf s g u (productRows.get k).2.2) = .product vs pe fl → Launches
    ((productRows.get k).1 g u) s (landingOf (readied s g) g (latOf (productRows.get k).2.2 u) u.fmt.toNat
    u.dst.toNat (taggedResult s g u (productRows.get k).2.2 (productWord (inputsOf s g u (productRows.get k).2.2) vs
    pe)))) ∧
  (∀ (k : Fin productRows.length) (g : Fin 2048) (u : UStep) (vs : List Int) (pe : Int) (fl : Flags) (key : Nat) (t
    : Trough) (pos : Nat) (n : Nat) (sq : Bool) (ov : Bool) (s : State), StepFires s g (productRows.get k).2.1 u
    (productRows.get k).2.2 → u.dst.toNat = 0x16 → (productRows.get k).2.2.op (inputsOf s g u (productRows.get
    k).2.2) = .product vs pe fl → Reaches (readied s g) g key true → produce (depth (readied s g) key) false
    (troughNow (readied s g) key) = (.at t pos, n, sq, ov) → Completes ((productRows.get k).1 g u) s (fun s2 =>
    s2.mem = s.mem ∧ s2.hw.arr.flights = (putTrough (readied s g) key (withProd t g)).arr.flights ++ [launched
    (readied s g) g (latOf (productRows.get k).2.2 u) (.trough key pos) (.word (taggedResult s g u (productRows.get
    k).2.2 (productWord (inputsOf s g u (productRows.get k).2.2) vs pe)))] ∧ s2.hw.arr.troughs = (putTrough (readied
    s g) key (withProd t g)).arr.troughs)) ∧
  (∀ (k : Fin productRows.length) (g : Fin 2048) (u : UStep) (vs : List Int) (pe : Int) (fl : Flags) (s : State),
    StepFires s g (productRows.get k).2.1 u (productRows.get k).2.2 → u.dst.toNat = 0x14 ∨ u.dst.toNat = 0x15 →
    (productRows.get k).2.2.op (inputsOf s g u (productRows.get k).2.2) = .product vs pe fl → Launches
    ((productRows.get k).1 g u) s [launched (readied s g) g (latOf (productRows.get k).2.2 u) (.acc (u.dst.toNat -
    0x14)) (.setAcc (Accum.ofProduct u.fmt.toNat vs pe (poisonOf s g u (productRows.get k).2.2)))]) ∧
  (∀ (k : Fin addendRows.length) (g : Fin 2048) (u : UStep) (vs : List Int) (pe : Int) (fl : Flags) (s : State),
    StepFires s g (addendRows.get k).2.1 u (addendRows.get k).2.2 → u.dst.toNat = 0x14 ∨ u.dst.toNat = 0x15 →
    (addendRows.get k).2.2.op (inputsOf s g u (addendRows.get k).2.2) = .addend vs pe fl → Launches ((addendRows.get
    k).1 g u) s [launched (readied s g) g (latOf (addendRows.get k).2.2 u) (.acc (u.dst.toNat - 0x14)) (.addAcc
    u.fmt.toNat vs pe (rndOf (u.mod.toNat % 4)) (u.mod.getLsbD 2) (poisonOf s g u (addendRows.get k).2.2))]) ∧
  (∀ (k : Fin productRows.length) (g : Fin 2048) (u : UStep) (s : State), Issues s g (productRows.get k).2.1 u →
    (productRows.get k).2.2.fmts.contains u.fmt.toNat = true → fires (productRows.get k).2.2 (operandsOf s g u
    (productRows.get k).2.2) = false → Launches ((productRows.get k).1 g u) s (nothingTo (readied s g) g (latOf
    (productRows.get k).2.2 u) u.dst.toNat)) ∧
  (∀ (k : Fin addendRows.length) (g : Fin 2048) (u : UStep) (s : State), Issues s g (addendRows.get k).2.1 u →
    (addendRows.get k).2.2.fmts.contains u.fmt.toNat = true → fires (addendRows.get k).2.2 (operandsOf s g u
    (addendRows.get k).2.2) = false → Launches ((addendRows.get k).1 g u) s [])

/-- O7. SELV and the tag steps launch words with the tags their rows give. SELV takes A where A is valid, else B, with F,
L and P of the operand it chose. SETFL and SETEP pass A on with F and L, or EP, from IMM; CLRP passes it on with P
cleared. A tag test always fires and forms the constant 1 or the zero word, valid and never poisoned. Each result goes
to W, OUT0, OUT1, both or an accumulator as DST selects, or nowhere with DST 0x17; with DST 0x16 the result takes the
next position of the bound trough. A step of these that does not fire sends the not-valid word to a W or OUT
destination and nothing to any other. Rests on the model's reading or choice in log entries 7, 8. (R39, R40, R84, R87,
Table 3.14) -/
def Obligations.TagStepsAndSelvLaunchTheirResults : Prop :=
  (∀ (g : Fin 2048) (u : UStep) (s : State), StepFires s g 0x2 u opSelv → (operandsOf s g u opSelv).a.v = true →
    dstOk .any false u.dst.toNat = true → u.dst.toNat ≠ 0x16 → Launches (.selv g u) s (landingOf (readied s g) g 1
    u.fmt.toNat u.dst.toNat ⟨(operandsOf s g u opSelv).a.d, true, (operandsOf s g u opSelv).a.f, (operandsOf s g u
    opSelv).a.l, (operandsOf s g u opSelv).a.p, BitVec.ofNat 4 (fu (readied s g) g).ctx⟩)) ∧
  (∀ (g : Fin 2048) (u : UStep) (s : State), StepFires s g 0x2 u opSelv → (operandsOf s g u opSelv).a.v = false →
    dstOk .any false u.dst.toNat = true → u.dst.toNat ≠ 0x16 → Launches (.selv g u) s (landingOf (readied s g) g 1
    u.fmt.toNat u.dst.toNat ⟨(operandsOf s g u opSelv).b.d, true, (operandsOf s g u opSelv).b.f, (operandsOf s g u
    opSelv).b.l, (operandsOf s g u opSelv).b.p, BitVec.ofNat 4 (fu (readied s g) g).ctx⟩)) ∧
  (∀ (g : Fin 2048) (u : UStep) (s : State), StepFires s g 0x90 u opSetfl → dstOk .any false u.dst.toNat = true →
    u.dst.toNat ≠ 0x16 → Launches (.setfl g u) s (landingOf (readied s g) g 1 u.fmt.toNat u.dst.toNat (withFL
    (taggedResult s g u opSetfl (operandsOf s g u opSetfl).a.d) u.imm))) ∧
  (∀ (g : Fin 2048) (u : UStep) (s : State), StepFires s g 0x91 u opSetep → dstOk .any false u.dst.toNat = true →
    u.dst.toNat ≠ 0x16 → Launches (.setep g u) s (landingOf (readied s g) g 1 u.fmt.toNat u.dst.toNat (withEp
    (taggedResult s g u opSetep (operandsOf s g u opSetep).a.d) (u.imm.extractLsb' 0 4)))) ∧
  (∀ (g : Fin 2048) (u : UStep) (s : State), StepFires s g 0x92 u opClrp → dstOk .any false u.dst.toNat = true →
    u.dst.toNat ≠ 0x16 → Launches (.clrp g u) s (landingOf (readied s g) g 1 u.fmt.toNat u.dst.toNat (withoutP
    (taggedResult s g u opClrp (operandsOf s g u opClrp).a.d)))) ∧
  (∀ (g : Fin 2048) (u : UStep) (s : State), StepFires s g 0x93 u opTstv → dstOk .any false u.dst.toNat = true →
    u.dst.toNat ≠ 0x16 → Launches (.tstv g u) s (landingOf (readied s g) g 1 u.fmt.toNat u.dst.toNat (constWord (if
    (operandsOf s g u opTstv).a.v = true then constData u.fmt.toNat true 1 else 0) (fu (readied s g) g).ctx))) ∧
  (∀ (g : Fin 2048) (u : UStep) (s : State), StepFires s g 0x94 u opTstf → dstOk .any false u.dst.toNat = true →
    u.dst.toNat ≠ 0x16 → Launches (.tstf g u) s (landingOf (readied s g) g 1 u.fmt.toNat u.dst.toNat (constWord (if
    (operandsOf s g u opTstf).a.v = true ∧ (operandsOf s g u opTstf).a.f = true then constData u.fmt.toNat true 1
    else 0) (fu (readied s g) g).ctx))) ∧
  (∀ (g : Fin 2048) (u : UStep) (s : State), StepFires s g 0x95 u opTstl → dstOk .any false u.dst.toNat = true →
    u.dst.toNat ≠ 0x16 → Launches (.tstl g u) s (landingOf (readied s g) g 1 u.fmt.toNat u.dst.toNat (constWord (if
    (operandsOf s g u opTstl).a.v = true ∧ (operandsOf s g u opTstl).a.l = true then constData u.fmt.toNat true 1
    else 0) (fu (readied s g) g).ctx))) ∧
  (∀ (g : Fin 2048) (u : UStep) (s : State), StepFires s g 0x96 u opTstp → dstOk .any false u.dst.toNat = true →
    u.dst.toNat ≠ 0x16 → Launches (.tstp g u) s (landingOf (readied s g) g 1 u.fmt.toNat u.dst.toNat (constWord (if
    (operandsOf s g u opTstp).a.v = true ∧ (operandsOf s g u opTstp).a.p = true then constData u.fmt.toNat true 1
    else 0) (fu (readied s g) g).ctx))) ∧
  (∀ (k : Fin tagRows.length) (g : Fin 2048) (u : UStep) (d : Word) (fl : Flags) (key : Nat) (t : Trough) (pos :
    Nat) (n : Nat) (sq : Bool) (ov : Bool) (s : State), StepFires s g (tagRows.get k).2.1 u (tagRows.get k).2.2 →
    u.dst.toNat = 0x16 → (tagRows.get k).2.2.op (inputsOf s g u (tagRows.get k).2.2) = .words [d] fl → Reaches
    (readied s g) g key true → produce (depth (readied s g) key) false (troughNow (readied s g) key) = (.at t pos,
    n, sq, ov) → Completes ((tagRows.get k).1 g u) s (fun s2 => s2.mem = s.mem ∧ s2.hw.arr.flights = (putTrough
    (readied s g) key (withProd t g)).arr.flights ++ [launched (readied s g) g 1 (.trough key pos) (.word (resultTag
    (tagRows.get k).2.2 u (inputsOf s g u (tagRows.get k).2.2) (fu (readied s g) g).ctx (operandsOf s g u
    (tagRows.get k).2.2) d))] ∧ s2.hw.arr.troughs = (putTrough (readied s g) key (withProd t g)).arr.troughs)) ∧
  (∀ (k : Fin tagRows.length) (g : Fin 2048) (u : UStep) (s : State), Issues s g (tagRows.get k).2.1 u →
    (tagRows.get k).2.2.fmts.contains u.fmt.toNat = true → fires (tagRows.get k).2.2 (operandsOf s g u (tagRows.get
    k).2.2) = false → Launches ((tagRows.get k).1 g u) s (nothingTo (readied s g) g 1 u.dst.toNat))

/-- O8. NOP, LIXSET, ACCLR, SIGNAL, the butterflies and undefined steps do what their rows state. NOP only uses its slot.
LIXSET notes IMM as the loop index that the next round has. ACCLR launches a cleared accumulator with AE = −512 and
ACCP = 0. SIGNAL with a valid A has line IMM[5:0] of its yard raised in the next cycle, and without one does not.
BFLY2 and BFLY4 launch their results to consecutive W registers from the one that DST selects, W0 after W15, or two
results to OUT0 and OUT1; with an operand that is not valid they launch not-valid words to those registers. A step
whose opcode has no row, or whose row does not take its format, sends the not-valid word to a W or OUT destination and
sets ERR.UNDEF. NOP and LIXSET note a reserved field. Rests on the model's reading or choice in log entries 7, 8, 24,
25, 201. (R13, R39, R76, R80, R84, R88, R91, R92) -/
def Obligations.ControlAndTransformStepsAct : Prop :=
  (∀ (g : Fin 2048) (u : UStep) (s : State), Issues s g 0 u → u.fmt.toNat < 8 → GivesHw (.nop g u) s (finishIssue
    (reservedField (readied s g) g (modReserved u opNop)) g u 1)) ∧
  (∀ (g : Fin 2048) (u : UStep) (s : State), Issues s g 5 u → u.fmt.toNat < 8 → GivesHw (.lixset g u) s (finishIssue
    (setFu (reservedField (readied s g) g (modReserved u opLixset || u.dst.toNat != 0x17)) g (withLix (fu (readied s
    g) g) u.imm)) g u 1)) ∧
  (∀ (g : Fin 2048) (u : UStep) (s : State), Issues s g 6 u → u.fmt.toNat < 8 → u.dst.toNat = 0x14 ∨ u.dst.toNat =
    0x15 → Launches (.acclr g u) s [launched (readied s g) g 1 (.acc (u.dst.toNat - 0x14)) (.setAcc Accum.zero)]) ∧
  (∀ (g : Fin 2048) (u : UStep) (s : State), StepFires s g 0x97 u opSignal → Completes (.signal g u) s (fun t =>
    t.mem = s.mem ∧ t.hw.arr.flights = s.hw.arr.flights ∧ t.hw.arr.signals = (raiseLater (readied s g) (g / 128)
    (u.imm.toNat % 64) (dueIn (readied s g) (g / 128) 1)).arr.signals ∧ fu t.hw g = afterIssue s g u 1)) ∧
  (∀ (g : Fin 2048) (u : UStep) (s : State), Issues s g 0x97 u → u.fmt.toNat < 8 → fires opSignal (operandsOf s g u
    opSignal) = false → Completes (.signal g u) s (fun t => t.mem = s.mem ∧ t.hw.arr.flights = s.hw.arr.flights ∧
    t.hw.arr.signals = s.hw.arr.signals ∧ fu t.hw g = afterIssue s g u 1)) ∧
  (∀ (g : Fin 2048) (u : UStep) (ds : List Word) (fl : Flags) (s : State), StepFires s g 0xa0 u opBfly2 →
    u.dst.toNat < 0x10 → opBfly2.op (inputsOf s g u opBfly2) = .words ds fl → Launches (.bfly2 g u) s (landingRow
    (readied s g) g (latOf opBfly2 u) u.dst.toNat (ds.map (taggedResult s g u opBfly2)))) ∧
  (∀ (g : Fin 2048) (u : UStep) (d0 : Word) (d1 : Word) (fl : Flags) (s : State), StepFires s g 0xa0 u opBfly2 →
    u.dst.toNat = 0x12 → opBfly2.op (inputsOf s g u opBfly2) = .words [d0, d1] fl → Launches (.bfly2 g u) s
    [launched (readied s g) g (latOf opBfly2 u) (.out 0) (.word (taggedResult s g u opBfly2 d0)), launched (readied
    s g) g (latOf opBfly2 u) (.out 1) (.word (taggedResult s g u opBfly2 d1))]) ∧
  (∀ (g : Fin 2048) (u : UStep) (s : State), Issues s g 0xa0 u → opBfly2.fmts.contains u.fmt.toNat = true → fires
    opBfly2 (operandsOf s g u opBfly2) = false → u.dst.toNat < 0x10 → Launches (.bfly2 g u) s (landingRow (readied s
    g) g (latOf opBfly2 u) u.dst.toNat (List.replicate (resultCount opBfly2 u) TW.notValid))) ∧
  (∀ (g : Fin 2048) (u : UStep) (s : State), Issues s g 0xa0 u → opBfly2.fmts.contains u.fmt.toNat = true → fires
    opBfly2 (operandsOf s g u opBfly2) = false → u.dst.toNat = 0x12 → Launches (.bfly2 g u) s (nothingTo (readied s
    g) g (latOf opBfly2 u) 0x12)) ∧
  (∀ (g : Fin 2048) (u : UStep) (ds : List Word) (fl : Flags) (s : State), StepFires s g 0xa1 u opBfly4 →
    u.dst.toNat < 0x10 → opBfly4.op (inputsOf s g u opBfly4) = .words ds fl → Launches (.bfly4 g u) s (landingRow
    (readied s g) g (latOf opBfly4 u) u.dst.toNat (ds.map (taggedResult s g u opBfly4)))) ∧
  (∀ (g : Fin 2048) (u : UStep) (d0 : Word) (d1 : Word) (fl : Flags) (s : State), StepFires s g 0xa1 u opBfly4 →
    u.dst.toNat = 0x12 → quadOf opBfly4 u = false → opBfly4.op (inputsOf s g u opBfly4) = .words [d0, d1] fl →
    Launches (.bfly4 g u) s [launched (readied s g) g (latOf opBfly4 u) (.out 0) (.word (taggedResult s g u opBfly4
    d0)), launched (readied s g) g (latOf opBfly4 u) (.out 1) (.word (taggedResult s g u opBfly4 d1))]) ∧
  (∀ (g : Fin 2048) (u : UStep) (s : State), Issues s g 0xa1 u → opBfly4.fmts.contains u.fmt.toNat = true → fires
    opBfly4 (operandsOf s g u opBfly4) = false → u.dst.toNat < 0x10 → Launches (.bfly4 g u) s (landingRow (readied s
    g) g (latOf opBfly4 u) u.dst.toNat (List.replicate (resultCount opBfly4 u) TW.notValid))) ∧
  (∀ (g : Fin 2048) (u : UStep) (s : State), Issues s g 0xa1 u → opBfly4.fmts.contains u.fmt.toNat = true → fires
    opBfly4 (operandsOf s g u opBfly4) = false → u.dst.toNat = 0x12 → quadOf opBfly4 u = false → Launches (.bfly4 g
    u) s (nothingTo (readied s g) g (latOf opBfly4 u) 0x12)) ∧
  (∀ (g : Fin 2048) (opc : BitVec 8) (u : UStep) (s : State), Issues s g opc.toNat u → (opRow opc.toNat).any (fun op
    => op.fmts.contains u.fmt.toNat) = false → Completes (.undefinedOpcode g opc u) s (fun t => t.mem = s.mem ∧
    t.hw.arr.flights = s.hw.arr.flights ++ nothingTo (readied s g) g 1 u.dst.toNat ∧ isSet t.hw (aFU_CST g (fu
    (readied s g) g).ctx) fFU_CST_UNDEF = true)) ∧
  (∀ (ecc : Ecc) (k : Fin (fuRows ecc).length) (g : Fin 2048) (u : UStep) (s : State), Issues s g ((fuRows ecc).get
    k).2.1 u → ((fuRows ecc).get k).2.2.fmts.contains u.fmt.toNat = false → Completes (((fuRows ecc).get k).1 g u) s
    (fun t => t.mem = s.mem ∧ t.hw.arr.flights = s.hw.arr.flights ++ nothingTo (readied s g) g 1 u.dst.toNat ∧ isSet
    t.hw (aFU_CST g (fu (readied s g) g).ctx) fFU_CST_UNDEF = true))

/-- O9. LOAD, STORE and the trough steps do what the procedure of R188 states. LOAD puts its bank access in flight to
every destination that DST selects, to land three cycles on; with DST 0x16 it takes the next position of the bound
trough in its issue cycle. At the end of the bank cycle the access that holds its port reads the stored word
unchanged, D = 0 with tag 0x90 where the row is bad or the word uncorrectable, and one that does not hold it is lost,
with CONFL. STORE puts the write of B in flight; at the end of the bank cycle the access that holds its port writes
the word, unless the row is bad, and one that does not is dropped, with CONFL. PUSH places A at the reserved position;
POP launches the word at the read pointer and moves the pointer on, or sends the not-valid word from an empty trough
that does not refuse. MARK, REWIND, RELEASE, PKT_OPEN, PKT_CLOSE and PKT_ABORT change the pointers and the packet as
R188 writes. Rests on the model's reading or choice in log entries 5, 7, 8. (R86, R172, R173, R174, R188, R192, R195,
Table 7.2) -/
def Obligations.MemoryAndTroughStepsAct : Prop :=
  (∀ (g : Fin 2048) (u : UStep) (ecc : Ecc) (s : State), StepFires s g 0x80 u (memRow true false .any) → dstOk .any
    false u.dst.toNat = true → u.dst.toNat ≠ 0x16 → Launches (.load g u ecc) s (flightsTo (readied s g) g 3
    u.dst.toNat (.load (g / 16) (memWordOf u (operandsOf s g u (memRow true false .any)).a) u.fmt.toNat ecc
    .waiting))) ∧
  (∀ (g : Fin 2048) (u : UStep) (ecc : Ecc) (key : Nat) (t0 : Trough) (pos : Nat) (n : Nat) (sq : Bool) (ov : Bool)
    (s : State), StepFires s g 0x80 u (memRow true false .any) → u.dst.toNat = 0x16 → Reaches (readied s g) g key
    true → produce (depth (readied s g) key) false (troughNow (readied s g) key) = (.at t0 pos, n, sq, ov) →
    Completes (.load g u ecc) s (fun t => t.mem = s.mem ∧ t.hw.arr.flights = (putTrough (readied s g) key (withProd
    t0 g)).arr.flights ++ [launched (readied s g) g 3 (.trough key pos) (.load (g / 16) (memWordOf u (operandsOf s g
    u (memRow true false .any)).a) u.fmt.toNat ecc .waiting)] ∧ t.hw.arr.troughs = (putTrough (readied s g) key
    (withProd t0 g)).arr.troughs)) ∧
  (∀ (m : Sparse Byte) (h : Hw) (g : Nat) (w : Nat) (e : Ecc), holdsPort h (penBank (g / 16) w).1 false 3 g = true →
    rowBad h (penBank (g / 16) w) = false → e ≠ .uncorrectable → (readLoad m h g w e).1 = .got (readWord m (penWord
    (g / 16) w))) ∧
  (∀ (m : Sparse Byte) (h : Hw) (g : Nat) (w : Nat) (e : Ecc), holdsPort h (penBank (g / 16) w).1 false 3 g = true →
    rowBad h (penBank (g / 16) w) = true ∨ e = .uncorrectable → (readLoad m h g w e).1 = .got TW.poisoned) ∧
  (∀ (m : Sparse Byte) (h : Hw) (g : Nat) (w : Nat) (e : Ecc), holdsPort h (penBank (g / 16) w).1 false 3 g = false
    → readLoad m h g w e = (.lost, portLost h (g / 16))) ∧
  (∀ (g : Fin 2048) (u : UStep) (s : State), StepFires s g 0x81 u (memRow true true .discard) → Launches (.store g
    u) s [launched (readied s g) g 1 (.store (g / 16) (memWordOf u (operandsOf s g u (memRow true true
    .discard)).a)) (.word (operandsOf s g u (memRow true true .discard)).b)]) ∧
  (∀ (m : Sparse Byte) (h : Hw) (f : Flight) (n : Nat) (w : Nat) (t : TW), f.dest = .store n w → f.pay = .word t →
    holdsPort h (penBank n w).1 true 3 f.g = true → finishStore (m, h) f = (if rowBad h (penBank n w) then m else
    writeWord m (penWord n w) t, h)) ∧
  (∀ (m : Sparse Byte) (h : Hw) (f : Flight) (n : Nat) (w : Nat) (t : TW), f.dest = .store n w → f.pay = .word t →
    holdsPort h (penBank n w).1 true 3 f.g = false → finishStore (m, h) f = (m, portLost h n)) ∧
  (∀ (g : Fin 2048) (u : UStep) (key : Nat) (t0 : Trough) (pos : Nat) (n : Nat) (sq : Bool) (ov : Bool) (s : State),
    TroughStepActs s g 0x82 u key true → produce (depth (readied s g) key) false (troughNow (readied s g) key) =
    (.at t0 pos, n, sq, ov) → Completes (.push g u) s (fun t => t.mem = s.mem ∧ t.hw.arr.troughs = (putTrough
    (readied s g) key (placeWord (withProd t0 g) pos (operandsOf s g u (memRow true false .discard)).a)).arr.troughs
    ∧ t.hw.arr.flights = (putTrough (readied s g) key (placeWord (withProd t0 g) pos (operandsOf s g u (memRow true
    false .discard)).a)).arr.flights)) ∧
  (∀ (g : Fin 2048) (u : UStep) (key : Nat) (ecc : Ecc) (s : State), StepFires s g 0x83 u (memRow false false .any)
    → Reaches (readied s g) g key false → readableNow (depth (readied s g) key) (troughNow (readied s g) key) ≠ 0 →
    dstOk .any false u.dst.toNat = true → u.dst.toNat ≠ 0x16 → (popWord s.mem (readied s g) key (troughNow (readied
    s g) key) ecc).1.v = true ∨ u.dst.toNat < 0x13 → Completes (.pop g u ecc) s (fun t => t.mem = s.mem ∧
    t.hw.arr.troughs = (putTrough (readied s g) key (popOne (depth (readied s g) key) (withCons (troughNow (readied
    s g) key) g))).arr.troughs ∧ t.hw.arr.flights = (putTrough (readied s g) key (popOne (depth (readied s g) key)
    (withCons (troughNow (readied s g) key) g))).arr.flights ++ landingOf (readied s g) g 2 u.fmt.toNat u.dst.toNat
    (popWord s.mem (readied s g) key (troughNow (readied s g) key) ecc).1)) ∧
  (∀ (g : Fin 2048) (u : UStep) (key : Nat) (ecc : Ecc) (s : State), StepFires s g 0x83 u (memRow false false .any)
    → Reaches (readied s g) g key false → readableNow (depth (readied s g) key) (troughNow (readied s g) key) = 0 →
    emptyRefuses (readied s g) key = false → dstOk .any false u.dst.toNat = true → u.dst.toNat ≠ 0x16 → Launches
    (.pop g u ecc) s (nothingTo (readied s g) g 2 u.dst.toNat)) ∧
  (∀ (m : Sparse Byte) (h : Hw) (key : Nat) (t : Trough) (e : Ecc), lookup t.tail t.rp = none → rowBad h (penBank
    (key / 8) (troughSlot h key t.rp)) = false → e ≠ .uncorrectable → (popWord m h key t e).1 = troughWord m h key t
    t.rp) ∧
  (∀ (m : Sparse Byte) (h : Hw) (key : Nat) (t : Trough) (e : Ecc), lookup t.tail t.rp = none → rowBad h (penBank
    (key / 8) (troughSlot h key t.rp)) = true ∨ e = .uncorrectable → (popWord m h key t e).1 = TW.poisoned) ∧
  (∀ (g : Fin 2048) (u : UStep) (key : Nat) (s : State), TroughStepActs s g 0x84 u key false → Completes (.mark g u)
    s (fun t => t.mem = s.mem ∧ t.hw.arr.troughs = (putTrough (readied s g) key (withMark (withCons (troughNow
    (readied s g) key) g))).arr.troughs ∧ t.hw.arr.flights = (putTrough (readied s g) key (withMark (withCons
    (troughNow (readied s g) key) g))).arr.flights)) ∧
  (∀ (g : Fin 2048) (u : UStep) (key : Nat) (s : State), TroughStepActs s g 0x85 u key false → Completes (.rewind g
    u) s (fun t => t.mem = s.mem ∧ t.hw.arr.troughs = (putTrough (readied s g) key (rewound (withCons (troughNow
    (readied s g) key) g))).arr.troughs ∧ t.hw.arr.flights = (putTrough (readied s g) key (rewound (withCons
    (troughNow (readied s g) key) g))).arr.flights)) ∧
  (∀ (g : Fin 2048) (u : UStep) (key : Nat) (s : State), TroughStepActs s g 0x86 u key false → Completes (.release g
    u) s (fun t => t.mem = s.mem ∧ t.hw.arr.troughs = (releaseWords (readied s g) key (withCons (troughNow (readied
    s g) key) g) u.imm.toNat).arr.troughs ∧ t.hw.arr.flights = (releaseWords (readied s g) key (withCons (troughNow
    (readied s g) key) g) u.imm.toNat).arr.flights)) ∧
  (∀ (g : Fin 2048) (u : UStep) (key : Nat) (t0 : Trough) (pos : Nat) (n : Nat) (sq : Bool) (ov : Bool) (s : State),
    TroughStepActs s g 0x87 u key true → produce (depth (readied s g) key) true (troughNow (readied s g) key) = (.at
    t0 pos, n, sq, ov) → Completes (.pktOpen g u) s (fun t => t.mem = s.mem ∧ t.hw.arr.troughs = (putTrough (readied
    s g) key (withProd t0 g)).arr.troughs ∧ t.hw.arr.flights = (putTrough (readied s g) key (withProd t0
    g)).arr.flights)) ∧
  (∀ (g : Fin 2048) (u : UStep) (key : Nat) (s : State), TroughStepActs s g 0x88 u key true → Completes (.pktClose g
    u) s (fun t => t.mem = s.mem ∧ t.hw.arr.troughs = (closePacket s.mem (readied s g) key (withProd (troughNow
    (readied s g) key) g) none (u.imm.toNat % 256)).arr.troughs ∧ t.hw.arr.flights = (closePacket s.mem (readied s
    g) key (withProd (troughNow (readied s g) key) g) none (u.imm.toNat % 256)).arr.flights)) ∧
  (∀ (g : Fin 2048) (u : UStep) (key : Nat) (s : State), TroughStepActs s g 0x89 u key true → Completes (.pktAbort g
    u) s (fun t => t.mem = s.mem ∧ t.hw.arr.troughs = (abortPacket (readied s g) key (withProd (troughNow (readied s
    g) key) g)).arr.troughs ∧ t.hw.arr.flights = (abortPacket (readied s g) key (withProd (troughNow (readied s g)
    key) g)).arr.flights))

/-- O10. A result that is due lands in its destination, and a crossing presents its word. RESULT_LAND on an FU with one
result due, once its pen is judged for the cycle, takes it out of flight and writes it: a W register, or an
accumulator set or added to (ACCOVF where a lane leaves its range, and SATD too where SAT clamps it), with the dirty
bit of its group; an OUT port for this cycle; the reserved position of a trough. A LOAD lands the word it read, or the
not-valid word where its access was lost; in an accumulator only where its word is valid. YARD_CROSSING_DELIVERY at an
edge of the receiving yard presents the latest word due on a crossing for this cycle, and earlier words due at that
edge are lost and counted. Rests on the model's reading or choice in log entries 8, 19. (R36, R42, R43, R60, R66,
R108, R117, R174, R182) -/
def Obligations.ResultsLandInTheirDestinations : Prop :=
  (∀ (g : Fin 2048) (f : Flight) (k : Nat) (w : TW) (s : State), arrayRuns s.hw (g / 128) = true → dueFlights
    (judgePen s.mem s.hw (g / 16)) g = [f] → f.g = g → f.dest = .w k → landing f = .word w → GivesHw (.resultLand g)
    s (setFu (landedOut (judgePen s.mem s.hw (g / 16)) g) g (setBank (fu (judgePen s.mem s.hw (g / 16)) g) f.bank
    (markDirty (withW (bankOf (fu (judgePen s.mem s.hw (g / 16)) g) f.bank) k w) (k / 4))))) ∧
  (∀ (g : Fin 2048) (f : Flight) (k : Nat) (a : Accum) (s : State), arrayRuns s.hw (g / 128) = true → dueFlights
    (judgePen s.mem s.hw (g / 16)) g = [f] → f.g = g → f.dest = .acc k → landing f = .setAcc a → bringsNothing f =
    false → GivesHw (.resultLand g) s (setFu (landedOut (judgePen s.mem s.hw (g / 16)) g) g (setBank (fu (judgePen
    s.mem s.hw (g / 16)) g) f.bank (markDirty (withAcc (bankOf (fu (judgePen s.mem s.hw (g / 16)) g) f.bank) k a)
    4)))) ∧
  (∀ (g : Fin 2048) (f : Flight) (k : Nat) (s : State), arrayRuns s.hw (g / 128) = true → dueFlights (judgePen s.mem
    s.hw (g / 16)) g = [f] → f.g = g → f.dest = .acc k → bringsNothing f = true → GivesHw (.resultLand g) s
    (landedOut (judgePen s.mem s.hw (g / 16)) g)) ∧
  (∀ (g : Fin 2048) (f : Flight) (k : Nat) (fmt : Nat) (vs : List Int) (pe : Int) (rnd : Rnd) (sat : Bool) (p :
    Bool) (s : State), arrayRuns s.hw (g / 128) = true → dueFlights (judgePen s.mem s.hw (g / 16)) g = [f] → f.g = g
    → f.dest = .acc k → f.pay = .addAcc fmt vs pe rnd sat p → GivesHw (.resultLand g) s (setCstIf (setCstIf (setFu
    (landedOut (judgePen s.mem s.hw (g / 16)) g) g (setBank (fu (judgePen s.mem s.hw (g / 16)) g) f.bank (markDirty
    (withAcc (bankOf (fu (judgePen s.mem s.hw (g / 16)) g) f.bank) k ((accOf (bankOf (fu (judgePen s.mem s.hw (g /
    16)) g) f.bank) k).accumulate fmt vs pe rnd sat p).1) 4))) g f.ctx fFU_CST_SATD (((accOf (bankOf (fu (judgePen
    s.mem s.hw (g / 16)) g) f.bank) k).accumulate fmt vs pe rnd sat p).2 && sat)) g f.ctx fFU_CST_ACCOVF ((accOf
    (bankOf (fu (judgePen s.mem s.hw (g / 16)) g) f.bank) k).accumulate fmt vs pe rnd sat p).2)) ∧
  (∀ (g : Fin 2048) (f : Flight) (w : TW) (s : State), arrayRuns s.hw (g / 128) = true → dueFlights (judgePen s.mem
    s.hw (g / 16)) g = [f] → f.g = g → f.dest = .out 0 → landing f = .word w → GivesHw (.resultLand g) s (setFu
    (landedOut (judgePen s.mem s.hw (g / 16)) g) g (withOut0 (fu (judgePen s.mem s.hw (g / 16)) g) ⟨w, yardCycle
    s.hw (g / 128)⟩))) ∧
  (∀ (g : Fin 2048) (f : Flight) (w : TW) (s : State), arrayRuns s.hw (g / 128) = true → dueFlights (judgePen s.mem
    s.hw (g / 16)) g = [f] → f.g = g → f.dest = .out 1 → landing f = .word w → GivesHw (.resultLand g) s (setFu
    (landedOut (judgePen s.mem s.hw (g / 16)) g) g (withOut1 (fu (judgePen s.mem s.hw (g / 16)) g) ⟨w, yardCycle
    s.hw (g / 128)⟩))) ∧
  (∀ (g : Fin 2048) (f : Flight) (key : Nat) (pos : Nat) (w : TW) (s : State), arrayRuns s.hw (g / 128) = true →
    dueFlights (judgePen s.mem s.hw (g / 16)) g = [f] → f.g = g → f.dest = .trough key pos → landing f = .word w →
    GivesHw (.resultLand g) s (landWord (landedOut (judgePen s.mem s.hw (g / 16)) g) key pos w)) ∧
  (∀ (f : Flight) (n : Nat) (w : Nat) (fmt : Nat) (e : Ecc) (r : LoadRead), f.pay = .load n w fmt e r → (∀ k, f.dest
    ≠ .acc k) → landing f = .word (match r with | .got t => t | _ => TW.notValid)) ∧
  (∀ (f : Flight) (n : Nat) (w : Nat) (fmt : Nat) (e : Ecc) (r : LoadRead) (k : Nat), f.pay = .load n w fmt e r →
    f.dest = .acc k → landing f = .setAcc (Accum.ofWord fmt (match r with | .got t => t | _ => TW.notValid)) ∧
    (bringsNothing f = true ↔ (match r with | .got t => t.v | _ => false) = false)) ∧
  (∀ (g : Fin 2048) (t : Fin 12) (g2 : Nat) (x : XWord) (s : State), farEnd g t = some g2 → arrayRuns s.hw (g2 /
    128) = true → onEdge s.hw (g2 / 128) = true → s.hw.arr.xq.filter (fun w => w.key = 12 * g.val + t.val ∧ w.due ≤
    s.hw.aclk) = [x] → GivesHw (.yardCrossingDelivery g t false) s (presented s.hw (12 * g + t) x (yardCycle s.hw
    (g2 / 128)))) ∧
  (∀ (g : Fin 2048) (t : Fin 12) (g2 : Nat) (x : XWord) (ws : List XWord) (s : State), farEnd g t = some g2 →
    arrayRuns s.hw (g2 / 128) = true → onEdge s.hw (g2 / 128) = true → s.hw.arr.xq.filter (fun w => w.key = 12 *
    g.val + t.val ∧ w.due ≤ s.hw.aclk) = ws ++ [x] → ws ≠ [] → GivesHw (.yardCrossingDelivery g t false) s
    (presented (bump s.hw (aPEN_XLOST (g / 16)) fPEN_XLOST_XCLOST ws.length) (12 * g + t) x (yardCycle s.hw (g2 /
    128))))

/-- O11. What a step of a function unit leaves unchanged. Whatever its opcode, operands and outcome, a step command leaves
every byte of memory, the non-volatile stores and the queue as they were. Of the hardware it changes only the FUs,
results in flight, pens, troughs, schedulers and event lines of the array, the record path, and the status registers
of its FU, pen and yard; W registers and accumulators of every FU keep their values (results land later), and tracks,
crossings, bank ports, twiddle tables and muck engines are untouched. (R39, R60, R64, R79, R104, R172, R188) -/
def Obligations.FunctionUnitFrame : Prop :=
  (∀ (ecc : Ecc) (k : Fin (fuCommands ecc).length) (g : Fin 2048) (u : UStep) (s : State), Completes ((fuCommands
    ecc).get k g u) s (fun t => SameStores s t ∧ ArrayOnly s t ∧ (∀ a, ¬ fuTouches g a → reg t.hw a = reg s.hw a) ∧
    SameFuRegs s t)) ∧
  (∀ (g : Fin 2048) (opc : BitVec 8) (u : UStep) (s : State), Completes (.undefinedOpcode g opc u) s (fun t =>
    SameStores s t ∧ ArrayOnly s t ∧ (∀ a, ¬ fuTouches g a → reg t.hw a = reg s.hw a) ∧ SameFuRegs s t))

/-- O12. A function unit that may not issue does nothing, and one that is refused stalls its pen. Where the array clock of
its yard does not run, a step command leaves the state as it was. Where the pen is halted or in a non-resident switch
or waits for its switch order, its pen stalls in this cycle, its next slot has not come, or an epoch switch takes the
cycle, it leaves the state with no more than the pen judged for the cycle and a round that is over ended; so does a
command whose step is not the one at which the sequencer stands. A step whose gate is closed only uses its slots.
Where a step that some FU of the pen is due to issue is refused, no step of the pen issues: each refusal counts and
the pen stalls, with the lowest-numbered trough noted. Rests on the model's reading or choice in log entry 3. (R64,
R77, R78, R79, R104, R132, R135, R403, R444) -/
def Obligations.StoppedUnitsIssueNothing : Prop :=
  (∀ (ecc : Ecc) (k : Fin (fuCommands ecc).length) (g : Fin 2048) (u : UStep) (s : State), arrayRuns s.hw (g / 128)
    = false → GivesHw ((fuCommands ecc).get k g u) s s.hw) ∧
  (∀ (ecc : Ecc) (k : Fin (fuCommands ecc).length) (g : Fin 2048) (u : UStep) (s : State), arrayRuns s.hw (g / 128)
    = true → canIssue s.mem (readied s g) g = false → GivesHw ((fuCommands ecc).get k g u) s (readied s g)) ∧
  (∀ (ecc : Ecc) (k : Fin (fuRows ecc).length) (g : Fin 2048) (u : UStep) (s : State), arrayRuns s.hw (g / 128) =
    true → stepAt s.mem (readied s g) g ≠ (((fuRows ecc).get k).2.1, u) → GivesHw (((fuRows ecc).get k).1 g u) s
    (readied s g)) ∧
  (∀ (ecc : Ecc) (k : Fin (fuRows ecc).length) (g : Fin 2048) (u : UStep) (s : State), StandsAt s g ((fuRows
    ecc).get k).2.1 u → ((fuRows ecc).get k).2.2.fmts.contains u.fmt.toNat = true → gateOpen (gateOf u) (bankOf (fu
    (readied s g) g) (fu (readied s g) g).bank).lix.toNat (fu (readied s g) g).first = false → GivesHw (((fuRows
    ecc).get k).1 g u) s (finishIssue (readied s g) g u (slotsOf ((fuRows ecc).get k).2.2 u))) ∧
  (∀ (ecc : Ecc) (k : Fin (fuCommands ecc).length) (g : Fin 2048) (u : UStep) (r : Nat × Bool) (rs : List (Nat ×
    Bool)) (s : State), arrayRuns s.hw (g / 128) = true → orderDue s.hw (g / 16) = false → inCycle s.hw (g / 128)
    (pen s.hw (g / 16)).judged = false → (pen s.hw (g / 16)).halted = false → penRefusals s.mem (judgedNow s.hw (g /
    16)) (g / 16) = r :: rs → GivesHw ((fuCommands ecc).get k g u) s (settleRound (refuseAll (judgedNow s.hw (g /
    16)) (g / 16) (r :: rs)) g))

/-- O13. Each source select reads what Table 3.2 gives. A W select reads the register, as the not-valid word where V = 0;
an IN select reads the port, or the not-valid word where the context follows epochs and the word is of another one; an
accumulator select reads it narrowed, valid, with P = ACCP; the constants are valid words of the executing context;
select 0x19 reads the readable count of the bound trough as of the issue cycle, or 0 with ERR.RSVFLD without a
binding; a reserved select reads the not-valid word and is noted. Rests on the model's reading or choice in log
entries 20, 29, 201. (R34, R35, R38, R71, R72, R73, R93, R137, Table 3.2) -/
def Obligations.OperandsAreReadAsSelected : Prop :=
  (∀ (m : Sparse Byte) (r : Reading) (g : Nat) (u : UStep) (sel : Nat), sel < 0x10 → (readOperand m r g u sel).1 =
    asSeen (getD TW.notValid (bankOf (fu r.h g) (fu r.h g).bank).w sel)) ∧
  (∀ (m : Sparse Byte) (r : Reading) (g : Nat) (u : UStep) (k : Nat), k < 4 → follows r.h g (fu r.h g).ctx = false →
    (readOperand m r g u (0x10 + k)).1 = (portWord m r.h g k)) ∧
  (∀ (m : Sparse Byte) (r : Reading) (g : Nat) (u : UStep) (k : Nat), k < 4 → follows r.h g (fu r.h g).ctx = true →
    (portWord m r.h g k).ep.toNat ≠ (fu r.h g).ctx → (readOperand m r g u (0x10 + k)).1 = if (portWord m r.h g k).v
    then TW.notValid else (portWord m r.h g k)) ∧
  (∀ (m : Sparse Byte) (r : Reading) (g : Nat) (u : UStep) (k : Nat), k < 2 → (readOperand m r g u (0x14 + k)).1 =
    ⟨((accOf (bankOf (fu r.h g) (fu r.h g).bank) k).read u.fmt.toNat (u.mod.toNat / 16) (rndOf (u.mod.toNat % 4))
    (u.mod.getLsbD 2)).1, true, false, false, (accOf (bankOf (fu r.h g) (fu r.h g).bank) k).p, BitVec.ofNat 4 (fu
    r.h g).ctx⟩) ∧
  (∀ (m : Sparse Byte) (r : Reading) (g : Nat) (u : UStep), (readOperand m r g u 0x16).1 = constWord (constData
    u.fmt.toNat true u.imm.toNat) (fu r.h g).ctx ∧ (readOperand m r g u 0x17).1 = constWord 0 (fu r.h g).ctx ∧
    (readOperand m r g u 0x18).1 = constWord (constData u.fmt.toNat false (bankOf (fu r.h g) (fu r.h
    g).bank).lix.toNat) (fu r.h g).ctx) ∧
  (∀ (m : Sparse Byte) (r : Reading) (g : Nat) (u : UStep) (key : Nat), boundTrough r.h g (fu r.h g).ctx = some key
    → (readOperand m r g u 0x19).1 = constWord (constData u.fmt.toNat false (readableNow (depth r.h key) (troughNow
    r.h key))) (fu r.h g).ctx) ∧
  (∀ (m : Sparse Byte) (r : Reading) (g : Nat) (u : UStep), boundTrough r.h g (fu r.h g).ctx = none → (readOperand m
    r g u 0x19).1 = constWord (constData u.fmt.toNat false 0) (fu r.h g).ctx ∧ (readOperand m r g u 0x19).2.2.rsv =
    true) ∧
  (∀ (m : Sparse Byte) (r : Reading) (g : Nat) (u : UStep) (sel : Nat), 0x1A ≤ sel → (readOperand m r g u sel).1 =
    TW.notValid ∧ (readOperand m r g u sel).2.2.rsv = true)

/-- O14. Narrowing rounds and limits as R51 computes. Truncation gives the floor of v / 2^s. Round-half-up gives the
nearest integer with ties towards plus infinity. Convergent rounding gives the nearest integer with ties to the even
value. The rounded value t then enters the element width: unchanged and without flags inside the range; outside it OVF
is set, and with SAT = 1 the nearest end is taken with SATD, else the value congruent to t modulo 2^w. (R51) -/
def Obligations.NarrowingFollowsRoundingAndLimits : Prop :=
  (∀ (n : Nat) (v : Int), roundShift .truncate n v * 2 ^ n ≤ v ∧ v < (roundShift .truncate n v + 1) * 2 ^ n) ∧
  (∀ (n : Nat) (v : Int), (2 * roundShift .halfUp n v - 1) * 2 ^ n ≤ 2 * v ∧ 2 * v < (2 * roundShift .halfUp n v +
    1) * 2 ^ n) ∧
  (∀ (n : Nat) (v : Int), (2 * roundShift .convergent n v - 1) * 2 ^ n ≤ 2 * v ∧ 2 * v ≤ (2 * roundShift .convergent
    n v + 1) * 2 ^ n ∧ (2 * v = (2 * roundShift .convergent n v - 1) * 2 ^ n ∨ 2 * v = (2 * roundShift .convergent n
    v + 1) * 2 ^ n → roundShift .convergent n v % 2 = 0)) ∧
  (∀ (rnd : Rnd) (sat : Bool) (n : Nat) (w : Nat) (v : Int), minOf w ≤ roundShift rnd n v → roundShift rnd n v ≤
    maxOf w → narrow rnd sat n w v = (roundShift rnd n v, Flags.none)) ∧
  (∀ (rnd : Rnd) (n : Nat) (w : Nat) (v : Int), 1 ≤ w → maxOf w < roundShift rnd n v → narrow rnd true n w v =
    (maxOf w, ⟨true, true, false, false, false⟩)) ∧
  (∀ (rnd : Rnd) (n : Nat) (w : Nat) (v : Int), 1 ≤ w → roundShift rnd n v < minOf w → narrow rnd true n w v =
    (minOf w, ⟨true, true, false, false, false⟩)) ∧
  (∀ (rnd : Rnd) (n : Nat) (w : Nat) (v : Int), 1 ≤ w → roundShift rnd n v < minOf w ∨ maxOf w < roundShift rnd n v
    → (narrow rnd false n w v).2 = ⟨true, false, false, false, false⟩ ∧ minOf w ≤ (narrow rnd false n w v).1 ∧
    (narrow rnd false n w v).1 ≤ maxOf w ∧ (2 ^ w : Int) ∣ (narrow rnd false n w v).1 - roundShift rnd n v)

/-- O15. A narrowed read with SH = 0 returns the word that was written. In every format except B16x2, a word written into
an accumulator and read back in that format with SH = 0 is unchanged, whatever RND and SAT, and raises no flag. (R42,
R50, R72, Table 2.5) -/
def Obligations.AccumulatorReturnsTheWordWritten : Prop :=
  (∀ (fmt : Nat) (w : TW) (rnd : Rnd) (sat : Bool), fmt < 8 → fmt ≠ 6 → (Accum.ofWord fmt w).read fmt 0 rnd sat =
    (w.d, Flags.none))

/-- O16. Lane sums of an accumulation wrap or clamp and set ACCOVF. Each lane of an accumulation takes the sum where it
fits, the nearest end of the range with SAT = 1 where it does not, or the low bits of the sum with SAT = 0; that some
lane left its range is found, and the landing of the addend then leaves ACCOVF set in the context status. (R43) -/
def Obligations.LaneSumsAreLimitedAndFlagged : Prop :=
  (∀ (sat : Bool) (w : Nat) (xs : List Int) (ys : List Int), xs.length = ys.length → (addLanes sat w xs ys).1 =
    List.zipWith (fun x y => (limitTo sat w (x + y)).1) xs ys ∧ ((addLanes sat w xs ys).2 = true ↔ ∃ p ∈ List.zip xs
    ys, p.1 + p.2 < minOf w ∨ maxOf w < p.1 + p.2)) ∧
  (∀ (sat : Bool) (w : Nat) (t : Int), minOf w ≤ t → t ≤ maxOf w → limitTo sat w t = (t, false)) ∧
  (∀ (w : Nat) (t : Int), 1 ≤ w → t < minOf w ∨ maxOf w < t → limitTo true w t = (if t < minOf w then minOf w else
    maxOf w, true)) ∧
  (∀ (w : Nat) (t : Int), 1 ≤ w → t < minOf w ∨ maxOf w < t → (limitTo false w t).2 = true ∧ minOf w ≤ (limitTo
    false w t).1 ∧ (limitTo false w t).1 ≤ maxOf w ∧ (2 ^ w : Int) ∣ (limitTo false w t).1 - t) ∧
  (∀ (g : Fin 2048) (f : Flight) (k : Nat) (fmt : Nat) (vs : List Int) (pe : Int) (rnd : Rnd) (sat : Bool) (p :
    Bool) (s : State), arrayRuns s.hw (g / 128) = true → dueFlights (judgePen s.mem s.hw (g / 16)) g = [f] → f.g = g
    → f.dest = .acc k → f.pay = .addAcc fmt vs pe rnd sat p → ((accOf (bankOf (fu (judgePen s.mem s.hw (g / 16)) g)
    f.bank) k).accumulate fmt vs pe rnd sat p).2 = true → Completes (.resultLand g) s (fun t => isSet t.hw (aFU_CST
    g f.ctx) fFU_CST_ACCOVF = true ∧ (sat = true → isSet t.hw (aFU_CST g f.ctx) fFU_CST_SATD = true)))

/-- O17. A pack yields 16-bit mantissas and an exponent from −128 to 127. Whatever the lane values, exponent, rounding and
SH, every mantissa that a pack forms lies in −32,768 to 32,767 and its exponent in −128 to 127; all-zero lanes give
zero mantissas with E = 0; EOVF comes with E = 127 and EUNF without EOVF with E = −128 or −127. (R54) -/
def Obligations.PackedWordsFitTheirFormat : Prop :=
  (∀ (rnd : Rnd) (sh : Nat) (vs : List Int) (a : Int), (∀ m ∈ (pack rnd sh vs a).1, -32768 ≤ m ∧ m ≤ 32767) ∧ -128 ≤
    (pack rnd sh vs a).2.1 ∧ (pack rnd sh vs a).2.1 ≤ 127 ∧ ((pack rnd sh vs a).2.2.eovf = true → (pack rnd sh vs
    a).2.1 = 127) ∧ ((pack rnd sh vs a).2.2.eunf = true → (pack rnd sh vs a).2.2.eovf = true ∨ (pack rnd sh vs
    a).2.1 = -128 ∨ (pack rnd sh vs a).2.1 = -127)) ∧
  (∀ (rnd : Rnd) (sh : Nat) (vs : List Int) (a : Int), ∀ v ∈ vs, v = 0 → pack rnd sh vs a = (vs, 0, Flags.none))

/-- O18. Packing a step and reading its fields back agree. For every opcode and every value of every field, the 64-bit
micro-instruction packed by the sums that follow R70 is read back as that opcode and those fields; and every 64-bit
value is the packing of the opcode and fields read from it, so that no bit is dropped. (R69, R70, Table 3.1) -/
def Obligations.MicroInstructionFieldsAgree : Prop :=
  (∀ (opc : BitVec 8) (u : UStep), stepOfBits (packStep opc.toNat u) = (opc.toNat, u)) ∧
  (∀ (x : Nat), x < 2 ^ 64 → packStep (stepOfBits x).1 (stepOfBits x).2 = x)

/-- O19. Context switches and loads. In its cycle D a switch order to a resident context turns every FU of the pen to it:
its round abandoned, step 0 next in this cycle, the first round since switch-in, its former context kept as PREVCTX; a
load in progress stops with FAIL. An order to another context starts a non-resident switch: the tiles route under it,
and without a victim NOVICT is set and the choice is put off by five cycles. A halt order halts the pen. A victim
choice put off is made again five cycles later, and again after five more where every bank is pinned. The end of a
non-resident switch gives the context its bank and starts step 0; where orders fell due meanwhile the latest is
applied instead. An epoch switch turns its FU, in the same cycle, to the context that EP names. The end of a load
whose words have all moved makes its context resident and sets DONE. A preload starts the load of PRELD, with a record
where it fails. A write of PEN_CTXKIND acts field by field. Rests on the model's reading or choice in log entries 3,
31, 34, 175, 181. (R81, R118, R123, R124, R127, R128, R131, R132, R135, R158, R159) -/
def Obligations.SwitchesAndLoadsActOnPens : Prop :=
  (∀ (n : Fin 128) (o : SwitchOrder) (os : List SwitchOrder) (c : Nat) (b : Nat) (s : State), (pen s.hw n).orders =
    o :: os → o.d ≤ s.hw.aclk → (pen s.hw n).nonres = none → arrayRuns s.hw (n / 8) = true → o.ctx = some c →
    bankHolding (pen (stopLoad s.hw n) n) c = some b → Completes (.broadcastSwitch n) s (fun t => t.mem = s.mem ∧
    (pen t.hw n).halted = false ∧ (pen t.hw n).load = none ∧ (pen t.hw n).orders = os ∧ ((pen s.hw n).load ≠ none →
    isSet t.hw (aPEN_CTXLOAD n) fPEN_CTXLOAD_FAIL = true) ∧ ∀ f : Fin 16, (fu t.hw (16 * n + f.val)).ctx = c ∧ (fu
    t.hw (16 * n + f.val)).bank = b ∧ (fu t.hw (16 * n + f.val)).step = 0 ∧ (fu t.hw (16 * n + f.val)).rep = 0 ∧ (fu
    t.hw (16 * n + f.val)).first = true ∧ (fu t.hw (16 * n + f.val)).byEp = false ∧ (fu t.hw (16 * n + f.val)).prev
    = (fu s.hw (16 * n + f.val)).ctx ∧ (fu t.hw (16 * n + f.val)).nextSlot = s.hw.aclk)) ∧
  (∀ (n : Fin 128) (o : SwitchOrder) (os : List SwitchOrder) (c : Nat) (s : State), (pen s.hw n).orders = o :: os →
    o.d ≤ s.hw.aclk → (pen s.hw n).nonres = none → arrayRuns s.hw (n / 8) = true → o.ctx = some c → bankHolding (pen
    (stopLoad s.hw n) n) c = none → Completes (.broadcastSwitch n) s (fun t => (pen t.hw n).halted = false ∧ (pen
    t.hw n).load = none ∧ (pen t.hw n).orders = os ∧ (∀ f : Fin 16, (fu t.hw (16 * n + f.val)).ctx = c ∧ (fu t.hw
    (16 * n + f.val)).prev = (fu s.hw (16 * n + f.val)).ctx) ∧ ∃ r, (pen t.hw n).nonres = some r ∧ r.ctx = c ∧
    (chooseVictim (stopLoad s.hw n) n = none → isSet t.hw (aPEN_CTXSTAT n) fPEN_CTXSTAT_NOVICT = true ∧ r.retry =
    true ∧ r.ready = dueIn s.hw (n / 8) 5))) ∧
  (∀ (n : Fin 128) (o : SwitchOrder) (os : List SwitchOrder) (s : State), (pen s.hw n).orders = o :: os → o.d ≤
    s.hw.aclk → (pen s.hw n).nonres = none → arrayRuns s.hw (n / 8) = true → o.ctx = none → Completes
    (.broadcastSwitch n) s (fun t => t.mem = s.mem ∧ (pen t.hw n).halted = true ∧ (pen t.hw n).orders = os ∧ (pen
    t.hw n).load = (pen s.hw n).load ∧ (pen t.hw n).held = (pen s.hw n).held ∧ ∀ f : Fin 16, (fu t.hw (16 * n +
    f.val)).ctx = (fu s.hw (16 * n + f.val)).ctx ∧ (fu t.hw (16 * n + f.val)).step = 0 ∧ (fu t.hw (16 * n +
    f.val)).rep = 0)) ∧
  (∀ (n : Fin 128) (r : NonRes) (b : Nat) (s : State), (pen s.hw n).nonres = some r → r.retry = true → r.ready ≤
    s.hw.aclk → arrayRuns s.hw (n / 8) = true → chooseVictim s.hw n = some b → GivesMem (.novictRetry n) s
    (startNonRes s.mem s.hw n r.ctx b r.preload r.task)) ∧
  (∀ (n : Fin 128) (r : NonRes) (s : State), (pen s.hw n).nonres = some r → r.retry = true → r.ready ≤ s.hw.aclk →
    arrayRuns s.hw (n / 8) = true → chooseVictim s.hw n = none → GivesHw (.novictRetry n) s (setPen s.hw n
    (withNonRes (pen s.hw n) (laterRetry r (dueIn s.hw (n / 8) 5))))) ∧
  (∀ (n : Fin 128) (r : NonRes) (bad : List Nat) (s : State), (pen s.hw n).nonres = some r → r.retry = false →
    r.ready ≤ s.hw.aclk → arrayRuns s.hw (n / 8) = true → (∀ o ∈ (pen s.hw n).orders, s.hw.aclk < o.d) → Completes
    (.contextRestoreComplete n bad) s (fun t => t.mem = s.mem ∧ lookup (pen t.hw n).held r.bank = some r.ctx ∧ (pen
    t.hw n).nonres = none ∧ ∀ f : Fin 16, (fu t.hw (16 * n + f.val)).bank = r.bank ∧ (fu t.hw (16 * n + f.val)).step
    = 0 ∧ (fu t.hw (16 * n + f.val)).rep = 0 ∧ (fu t.hw (16 * n + f.val)).first = true ∧ (fu t.hw (16 * n +
    f.val)).nextSlot = s.hw.aclk)) ∧
  (∀ (n : Fin 128) (r : NonRes) (bad : List Nat) (o : SwitchOrder) (s : State), (pen s.hw n).nonres = some r →
    r.retry = false → r.ready ≤ s.hw.aclk → arrayRuns s.hw (n / 8) = true → ((pen s.hw n).orders.filter fun o => o.d
    ≤ s.hw.aclk).getLast? = some o → GivesMem (.contextRestoreComplete n bad) s (applyOrder s.mem (nonResTaken s.mem
    s.hw n r bad) n o)) ∧
  (∀ (g : Fin 2048) (b : Nat) (k : Nat) (s : State), epochTarget s.mem s.hw g = some b → bankHolding (pen s.hw (g /
    16)) b = some k → Completes (.epochSwitch g) s (fun t => t.mem = s.mem ∧ (fu t.hw g).ctx = b ∧ (fu t.hw g).bank
    = k ∧ (fu t.hw g).byEp = true ∧ (fu t.hw g).step = 0 ∧ (fu t.hw g).rep = 0 ∧ (fu t.hw g).first = true ∧ (fu t.hw
    g).prev = (fu s.hw g).ctx ∧ (fu t.hw g).nextSlot = s.hw.aclk)) ∧
  (∀ (n : Fin 128) (ctx : BitVec 4) (s : State), Up s → GivesMem (.penCtxload n ctx) s (startLoad s.mem s.hw n
    ctx.toNat none).1) ∧
  (∀ (n : Fin 128) (l : CtxLoad) (bad : List Nat) (s : State), (pen s.hw n).load = some l → arrayRuns s.hw (n / 8) =
    true → l.moved = true → Completes (.contextLoadDone n bad) s (fun t => t.mem = s.mem ∧ lookup (pen t.hw n).held
    l.bank = some l.ctx ∧ (pen t.hw n).load = none ∧ isSet t.hw (aPEN_CTXLOAD n) fPEN_CTXLOAD_DONE = true ∧ isSet
    t.hw (aPEN_CTXLOAD n) fPEN_CTXLOAD_BUSY = false)) ∧
  (∀ (n : Fin 128) (p : Preload) (s : State), (pen s.hw n).preload = some p → arrayRuns s.hw (n / 8) = true →
    preloadDue s.hw n p = true → (startLoad s.mem (setPen s.hw n (withPreload (pen s.hw n) none)) n p.ctx (some
    p.task)).2 = false → GivesMem (.preload n) s (startLoad s.mem (setPen s.hw n (withPreload (pen s.hw n) none)) n
    p.ctx (some p.task)).1) ∧
  (∀ (n : Fin 128) (p : Preload) (m : Sparse Byte) (h : Hw) (s : State), (pen s.hw n).preload = some p → arrayRuns
    s.hw (n / 8) = true → preloadDue s.hw n p = true → startLoad s.mem (setPen s.hw n (withPreload (pen s.hw n)
    none)) n p.ctx (some p.task) = ((m, h), true) → GivesMem (.preload n) s (m, stageRecord h (n / 8) (traceRecord h
    (n / 8) 7 p.task (taskCtx h (n / 8) p.task) (2 ^ (n.val % 8)) p.ctx))) ∧
  (∀ (n : Fin 128) (v : BitVec 64) (s : State), Up s → GivesHw (.penCtxkindWrite n v) s (settlePenWords
    (writeCtxKind s.hw n v.toNat) n))

/-- O20. How a context load starts, which bank is its victim, and how long a non-resident switch takes. While a load or a
non-resident switch is in progress a new load only sets FAIL and CTX keeps its value. A write-locked context sets
FAIL, resident or not, which is the model's reading (log entry 34); a resident one sets DONE at once; where no bank is
eligible FAIL is set. Otherwise the victim is evicted, its bank empty from now on, and BUSY is set with the words to
move noted. The victim is the lowest empty bank that is not taken for a context on its way; with none empty it is, of
the banks whose context is not pinned and was not issued in the last five cycles, the one used longest ago. A
non-resident switch issues step 0 after W + T + R cycles, where W and R are the most words that one pen-memory bank
takes and gives, and T is 1 where both are non-zero. (R118, R122, R124, R131, R142, Table 5.2) -/
def Obligations.ContextLoadsStartOrFailAsR124States : Prop :=
  (∀ (n : Fin 128) (c : Nat) (p : Option Nat) (s : State), (pen s.hw n).load ≠ none ∨ (pen s.hw n).nonres ≠ none →
    startLoad s.mem s.hw n c p = ((s.mem, raiseBit s.hw (aPEN_CTXLOAD n) fPEN_CTXLOAD_FAIL), true)) ∧
  (∀ (n : Fin 128) (c : Nat) (p : Option Nat) (s : State), (pen s.hw n).load = none → (pen s.hw n).nonres = none →
    (pen s.hw n).locks.getLsbD c = true → startLoad s.mem s.hw n c p = ((s.mem, raiseBit (setF s.hw (aPEN_CTXLOAD n)
    fPEN_CTXLOAD_CTX c) (aPEN_CTXLOAD n) fPEN_CTXLOAD_FAIL), true)) ∧
  (∀ (n : Fin 128) (c : Nat) (p : Option Nat) (b : Nat) (s : State), (pen s.hw n).load = none → (pen s.hw n).nonres
    = none → (pen s.hw n).locks.getLsbD c = false → bankHolding (pen s.hw n) c = some b → startLoad s.mem s.hw n c p
    = ((s.mem, raiseBit (setF s.hw (aPEN_CTXLOAD n) fPEN_CTXLOAD_CTX c) (aPEN_CTXLOAD n) fPEN_CTXLOAD_DONE), false)) ∧
  (∀ (n : Fin 128) (c : Nat) (p : Option Nat) (s : State), (pen s.hw n).load = none → (pen s.hw n).nonres = none →
    (pen s.hw n).locks.getLsbD c = false → bankHolding (pen s.hw n) c = none → chooseVictim (setF s.hw (aPEN_CTXLOAD
    n) fPEN_CTXLOAD_CTX c) n = none → startLoad s.mem s.hw n c p = ((s.mem, raiseBit (setF s.hw (aPEN_CTXLOAD n)
    fPEN_CTXLOAD_CTX c) (aPEN_CTXLOAD n) fPEN_CTXLOAD_FAIL), true)) ∧
  (∀ (n : Fin 128) (c : Nat) (p : Option Nat) (b : Nat) (s : State), (pen s.hw n).load = none → (pen s.hw n).nonres
    = none → (pen s.hw n).locks.getLsbD c = false → bankHolding (pen s.hw n) c = none → chooseVictim (setF s.hw
    (aPEN_CTXLOAD n) fPEN_CTXLOAD_CTX c) n = some b → (startLoad s.mem s.hw n c p).2 = false ∧ isSet (startLoad
    s.mem s.hw n c p).1.2 (aPEN_CTXLOAD n) fPEN_CTXLOAD_BUSY = true ∧ lookup (pen (startLoad s.mem s.hw n c p).1.2
    n).held b = none ∧ ∃ l, (pen (startLoad s.mem s.hw n c p).1.2 n).load = some l ∧ l.ctx = c ∧ l.bank = b ∧
    l.victim = lookup (pen s.hw n).held b ∧ l.preloadOf = p) ∧
  (∀ (n : Fin 128) (b : Nat) (s : State), (List.range 4).find? (fun b => (lookup (pen s.hw n).held b).isNone &&
    takenBank (pen s.hw n) != some b) = some b → chooseVictim s.hw n = some b) ∧
  (∀ (n : Fin 128) (b : Nat) (s : State), (∀ k < 4, (lookup (pen s.hw n).held k).isNone = true → takenBank (pen s.hw
    n) = some k) → chooseVictim s.hw n = some b → b < 4 ∧ ∃ c, lookup (pen s.hw n).held b = some c ∧ mayLeave s.hw n
    c = true ∧ ∀ k < 4, ∀ x, lookup (pen s.hw n).held k = some x → mayLeave s.hw n x = true → getD 0 (pen s.hw
    n).lastUse b ≤ getD 0 (pen s.hw n).lastUse k) ∧
  (∀ (n : Fin 128) (c : Nat) (b : Nat) (p : Option Nat) (k : Nat) (s : State), ∃ r, (pen (startNonRes s.mem s.hw n c
    b p k).2 n).nonres = some r ∧ r.ctx = c ∧ r.bank = b ∧ r.retry = false ∧ r.ready = dueIn s.hw (n / 8) (bankLoad
    r.writes + (if bankLoad r.writes ≠ 0 ∧ bankLoad r.reads ≠ 0 then 1 else 0) + bankLoad r.reads) ∧ bankLoad
    r.reads ≤ 44)

/-- O21. Evaluation, groups, retirement, ring and doorbell of the yard schedulers. An evaluation at an edge of its yard
with EN = 1 takes the events of earlier cycles through retirements, completions, triggers and dispatch in this order,
and then halts the pens freed and not taken. A group all of whose member yards have a READY member that could be
dispatched without preempting becomes RUNNING in every member yard at once; one of which some member could not be
dispatched only waits, with reason 0x04. A write that only clears VALID retires the task: at once where it is IDLE or
EN = 0, at the next evaluation otherwise. Any other write to an entry takes effect while the entry is IDLE or EN = 0,
where one that clears VALID retires it too; with EN = 1 and the entry not IDLE it only sets WRBUSY. A reserved event
number keeps its field and sets RSVVAL. SYNC writes its record to every ring when CRD_TICK[28:0] = 0. SCH_TRRD
advances unless the ring size would be exceeded, which sets TRERR. Each doorbell bit raises its event. CRD_LATCH
latches ticks and time. Rests on the model's reading or choice in log entries 3, 35, 176, 177, 178. (R147, R151, R155,
R156, R158, R161, R164, R167, R168, R169) -/
def Obligations.SchedulerCommandsAct : Prop :=
  (∀ (y : Fin 16) (s : State), arrayRuns s.hw y = true → onEdge s.hw y = true → isSet s.hw (aSCH_CTL y) fSCH_CTL_EN
    = true → GivesHw (.schedulerEvaluation y) s (endEvaluation (evalDispatchAll ((List.range 64).foldl (evalTrigger
    (eventsTaken (takenNow s.hw y))) ((List.range 64).foldl (evalDone (eventsTaken (takenNow s.hw y))) ((List.range
    64).foldl evalRetire (beginEvaluation s.hw y))))))) ∧
  (∀ (gr : Fin 16) (s : State), isSet s.hw (aCRD_GRP gr) fCRD_GRP_EN = true → frozen s.hw = false → (groupMembers
    s.hw gr) ≠ [] → groupWhole s.hw gr = true → (∀ u ∈ (groupMembers s.hw gr), (task s.hw u.1 u.2).st = .ready ∧
    (sched s.hw u.1).offers.contains u.2 = true ∧ (pensOf (taskMask s.hw u.1 u.2)).filterMap (fun q => holderOf s.hw
    u.1 q) = []) → Completes (.groupDispatch gr) s (fun t => ∀ u ∈ (groupMembers s.hw gr), (task t.hw u.1 u.2).st =
    .running)) ∧
  (∀ (gr : Fin 16) (s : State), isSet s.hw (aCRD_GRP gr) fCRD_GRP_EN = true → frozen s.hw = false → (groupMembers
    s.hw gr) ≠ [] → (∀ u ∈ (groupMembers s.hw gr), (task s.hw u.1 u.2).st = .ready) → (∃ u ∈ (groupMembers s.hw gr),
    (sched s.hw u.1).offers.contains u.2 = false) → Completes (.groupDispatch gr) s (fun t => ∀ u ∈ (groupMembers
    s.hw gr), (task t.hw u.1 u.2).st = .ready ∧ (task t.hw u.1 u.2).waits.getLsbD 2 = true ∧ (sched t.hw
    u.1).offers.contains u.2 = false)) ∧
  (∀ (y : Fin 16) (k : Fin 64) (s : State), Up s → taskValid s.hw y k = true → (task s.hw y k).st = .idle → GivesHw
    (.taskRetire y k) s (setF s.hw (aSCH_TASK0 y k) fSCH_TASK0_VALID 0)) ∧
  (∀ (y : Fin 16) (k : Fin 64) (s : State), Up s → taskValid s.hw y k = true → (task s.hw y k).st ≠ .idle → isSet
    s.hw (aSCH_CTL y) fSCH_CTL_EN = true → GivesHw (.taskRetire y k) s (setTask (setF s.hw (aSCH_TASK0 y k)
    fSCH_TASK0_VALID 0) y k (asRetiring (task s.hw y k)))) ∧
  (∀ (y : Fin 16) (k : Fin 64) (s : State), Up s → taskValid s.hw y k = true → (task s.hw y k).st ≠ .idle → isSet
    s.hw (aSCH_CTL y) fSCH_CTL_EN = false → GivesHw (.taskRetire y k) s (retireNow (setF s.hw (aSCH_TASK0 y k)
    fSCH_TASK0_VALID 0) y k)) ∧
  (∀ (y : Fin 16) (k : Fin 64) (w1 : Bool) (v : BitVec 64) (s : State), Up s → (task s.hw y k).st = .idle → (w1 =
    true ∨ taskValid s.hw y k = false ∨ (mergeFields (fieldsOf (if w1 then aSCH_TASK1 y k else aSCH_TASK0 y k)) (reg
    s.hw (if w1 then aSCH_TASK1 y k else aSCH_TASK0 y k)).toNat v.toNat).1 ≠ putField fSCH_TASK0_VALID (reg s.hw
    (aSCH_TASK0 y k)).toNat 0) → GivesHw (.taskEntryWrite y k w1 v) s (if (mergeFields (fieldsOf (if w1 then
    aSCH_TASK1 y k else aSCH_TASK0 y k)) (reg s.hw (if w1 then aSCH_TASK1 y k else aSCH_TASK0 y k)).toNat v.toNat).2
    then raiseBit (setReg s.hw (if w1 then aSCH_TASK1 y k else aSCH_TASK0 y k) (BitVec.ofNat 64 (mergeFields
    (fieldsOf (if w1 then aSCH_TASK1 y k else aSCH_TASK0 y k)) (reg s.hw (if w1 then aSCH_TASK1 y k else aSCH_TASK0
    y k)).toNat v.toNat).1)) (aSCH_STAT y) fSCH_STAT_RSVVAL else (setReg s.hw (if w1 then aSCH_TASK1 y k else
    aSCH_TASK0 y k) (BitVec.ofNat 64 (mergeFields (fieldsOf (if w1 then aSCH_TASK1 y k else aSCH_TASK0 y k)) (reg
    s.hw (if w1 then aSCH_TASK1 y k else aSCH_TASK0 y k)).toNat v.toNat).1)))) ∧
  (∀ (y : Fin 16) (k : Fin 64) (w1 : Bool) (v : BitVec 64) (s : State), Up s → (task s.hw y k).st ≠ .idle → isSet
    s.hw (aSCH_CTL y) fSCH_CTL_EN = true → (w1 = true ∨ taskValid s.hw y k = false ∨ (mergeFields (fieldsOf (if w1
    then aSCH_TASK1 y k else aSCH_TASK0 y k)) (reg s.hw (if w1 then aSCH_TASK1 y k else aSCH_TASK0 y k)).toNat
    v.toNat).1 ≠ putField fSCH_TASK0_VALID (reg s.hw (aSCH_TASK0 y k)).toNat 0) → GivesHw (.taskEntryWrite y k w1 v)
    s (raiseBit s.hw (aSCH_STAT y) fSCH_STAT_WRBUSY)) ∧
  (∀ (y : Fin 16) (k : Fin 64) (w1 : Bool) (v : BitVec 64) (s : State), Up s → (task s.hw y k).st ≠ .idle → isSet
    s.hw (aSCH_CTL y) fSCH_CTL_EN = false → (w1 = true ∨ taskValid s.hw y k = false ∨ (mergeFields (fieldsOf (if w1
    then aSCH_TASK1 y k else aSCH_TASK0 y k)) (reg s.hw (if w1 then aSCH_TASK1 y k else aSCH_TASK0 y k)).toNat
    v.toNat).1 ≠ putField fSCH_TASK0_VALID (reg s.hw (aSCH_TASK0 y k)).toNat 0) → GivesHw (.taskEntryWrite y k w1 v)
    s (if (mergeFields (fieldsOf (if w1 then aSCH_TASK1 y k else aSCH_TASK0 y k)) (reg s.hw (if w1 then aSCH_TASK1 y
    k else aSCH_TASK0 y k)).toNat v.toNat).2 then raiseBit (setReg (if w1 = false ∧ v.getLsbD 0 = false then
    retireNow s.hw y k else s.hw) (if w1 then aSCH_TASK1 y k else aSCH_TASK0 y k) (BitVec.ofNat 64 (mergeFields
    (fieldsOf (if w1 then aSCH_TASK1 y k else aSCH_TASK0 y k)) (reg s.hw (if w1 then aSCH_TASK1 y k else aSCH_TASK0
    y k)).toNat v.toNat).1)) (aSCH_STAT y) fSCH_STAT_RSVVAL else (setReg (if w1 = false ∧ v.getLsbD 0 = false then
    retireNow s.hw y k else s.hw) (if w1 then aSCH_TASK1 y k else aSCH_TASK0 y k) (BitVec.ofNat 64 (mergeFields
    (fieldsOf (if w1 then aSCH_TASK1 y k else aSCH_TASK0 y k)) (reg s.hw (if w1 then aSCH_TASK1 y k else aSCH_TASK0
    y k)).toNat v.toNat).1)))) ∧
  (∀ (s : State), crdTick s.hw % 2 ^ 29 = 0 → frozen s.hw = false → GivesHw .sync s (applyAll (fun h y =>
    stageRecord h y (traceRecord h y 0xE 0 0 0 (crdTick h / 2 ^ 30 % 256))) s.hw (List.range 16))) ∧
  (∀ (y : Fin 16) (v : BitVec 32) (s : State), Up s → (getF s.hw (aSCH_TRWR y) fSCH_TRWR_WR + 2 ^ 32 - v.toNat) % 2
    ^ 32 ≤ 2 ^ getF s.hw (aSCH_TRSIZE y) fSCH_TRSIZE_LOG2 → GivesHw (.schTrrdWrite y v) s (setF s.hw (aSCH_TRRD y)
    fSCH_TRRD_RD v.toNat)) ∧
  (∀ (y : Fin 16) (v : BitVec 32) (s : State), Up s → 2 ^ getF s.hw (aSCH_TRSIZE y) fSCH_TRSIZE_LOG2 < (getF s.hw
    (aSCH_TRWR y) fSCH_TRWR_WR + 2 ^ 32 - v.toNat) % 2 ^ 32 → GivesHw (.schTrrdWrite y v) s (raiseBit s.hw
    (aSCH_STAT y) fSCH_STAT_TRERR)) ∧
  (∀ (y : Fin 16) (bits : BitVec 8) (s : State), Up s → GivesHw (.schDbell y bits) s (applyAll (fun h i => if
    bits.toNat.testBit i then raiseEvent h y (0xF0 + i) else h) s.hw (List.range 8))) ∧
  (∀ (s : State), Up s → GivesHw .crdLatch s (latchTime s.hw))

/-- O22. How a trigger moves a task, and what a dispatch does. With ALL = 0, the one enabled trigger of a valid task
outside groups that occurs makes an IDLE task READY with that event as its reason, a RUNNING task PENDING, and is an
overrun of a READY or PENDING one, counted with its record. In the dispatch of its priority, a READY task outside
groups whose context is not write-locked and whose pens are all free starts RUNNING, with a switch order to its
context, timed under R127, for every pen of its mask. A task whose context, or one of its follow set, is write-locked
in a pen of its mask stays READY, and so does one of whose pens a task of equal or higher priority holds. The switch
cycle D of a decision is an edge of the yard; it is the latest of the cycles e + 3 to e + 6 that is an edge at or
after v + 4 where one is, and else the first edge at or after v + 4. (R127, R152, R153, R154, R156, R157, R158, Table
6.4) -/
def Obligations.TriggersAndDispatchFollowTheTables : Prop :=
  (∀ (y : Nat) (k : Nat) (i : Fin 4) (e : Nat) (v : Nat) (s : State), taskValid s.hw y k = true → inGroup s.hw y k =
    false → isSet s.hw (aSCH_TASK0 y k) fSCH_TASK0_ALL = false → getF s.hw (aSCH_TASK0 y k) fSCH_TASK0_TRGEN = 2 ^
    i.val → (task s.hw y k).st = .idle → (task (evalTrigger [getF s.hw (aSCH_TASK1 y k) (fSCH_TASK1_TRG i)] ⟨s.hw,
    y, e, v, [], 0, 0, []⟩ k).h y k).st = .ready ∧ (task (evalTrigger [getF s.hw (aSCH_TASK1 y k) (fSCH_TASK1_TRG
    i)] ⟨s.hw, y, e, v, [], 0, 0, []⟩ k).h y k).why = getF s.hw (aSCH_TASK1 y k) (fSCH_TASK1_TRG i)) ∧
  (∀ (y : Nat) (k : Nat) (i : Fin 4) (e : Nat) (v : Nat) (s : State), taskValid s.hw y k = true → inGroup s.hw y k =
    false → isSet s.hw (aSCH_TASK0 y k) fSCH_TASK0_ALL = false → getF s.hw (aSCH_TASK0 y k) fSCH_TASK0_TRGEN = 2 ^
    i.val → (task s.hw y k).st = .running → (task (evalTrigger [getF s.hw (aSCH_TASK1 y k) (fSCH_TASK1_TRG i)]
    ⟨s.hw, y, e, v, [], 0, 0, []⟩ k).h y k).st = .pending) ∧
  (∀ (y : Nat) (k : Nat) (i : Fin 4) (e : Nat) (v : Nat) (s : State), taskValid s.hw y k = true → inGroup s.hw y k =
    false → isSet s.hw (aSCH_TASK0 y k) fSCH_TASK0_ALL = false → getF s.hw (aSCH_TASK0 y k) fSCH_TASK0_TRGEN = 2 ^
    i.val → (task s.hw y k).st = .ready ∨ (task s.hw y k).st = .pending → (evalTrigger [getF s.hw (aSCH_TASK1 y k)
    (fSCH_TASK1_TRG i)] ⟨s.hw, y, e, v, [], 0, 0, []⟩ k).h = bump (raiseBit s.hw (aSCH_STAT y) fSCH_STAT_OVR)
    (aSCH_STAT y) fSCH_STAT_OVRCNT 1 ∧ (evalTrigger [getF s.hw (aSCH_TASK1 y k) (fSCH_TASK1_TRG i)] ⟨s.hw, y, e, v,
    [], 0, 0, []⟩ k).late.length = 1) ∧
  (∀ (y : Nat) (k : Nat) (e : Nat) (v : Nat) (s : State), taskValid s.hw y k = true → inGroup s.hw y k = false →
    (task s.hw y k).st = .ready → lockedOut s.hw y k = false → (∀ q ∈ pensOf (taskMask s.hw y k), holderOf s.hw y q
    = none) → (task (evalDispatch ⟨s.hw, y, e, v, [], 0, 0, []⟩ (taskPrio s.hw y k) k).h y k).st = .running ∧ ∀ q ∈
    pensOf (taskMask s.hw y k), ∃ o ∈ (pen (evalDispatch ⟨s.hw, y, e, v, [], 0, 0, []⟩ (taskPrio s.hw y k) k).h (8 *
    y + q)).orders, o.ctx = some (taskCtx s.hw y k) ∧ o.d = switchCycle s.hw y e v) ∧
  (∀ (y : Nat) (k : Nat) (e : Nat) (v : Nat) (s : State), taskValid s.hw y k = true → (task s.hw y k).st = .ready →
    lockedOut s.hw y k = true → (task (evalDispatch ⟨s.hw, y, e, v, [], 0, 0, []⟩ (taskPrio s.hw y k) k).h y k).st =
    .ready ∧ (evalDispatch ⟨s.hw, y, e, v, [], 0, 0, []⟩ (taskPrio s.hw y k) k).h.arr.pens = s.hw.arr.pens) ∧
  (∀ (y : Nat) (k : Nat) (e : Nat) (v : Nat) (q : Nat) (u : Nat) (s : State), taskValid s.hw y k = true → inGroup
    s.hw y k = false → (task s.hw y k).st = .ready → lockedOut s.hw y k = false → q ∈ pensOf (taskMask s.hw y k) →
    holderOf s.hw y q = some u → taskPrio s.hw y k ≤ taskPrio s.hw y u → (task (evalDispatch ⟨s.hw, y, e, v, [], 0,
    0, []⟩ (taskPrio s.hw y k) k).h y k).st = .ready ∧ (evalDispatch ⟨s.hw, y, e, v, [], 0, 0, []⟩ (taskPrio s.hw y
    k) k).h.arr.pens = s.hw.arr.pens) ∧
  (∀ (y : Nat) (e : Nat) (v : Nat) (s : State), switchCycle s.hw y e v % 2 ^ yardShift s.hw y = 0 ∧ v + 4 ≤
    switchCycle s.hw y e v) ∧
  (∀ (y : Nat) (e : Nat) (v : Nat) (a : Nat) (s : State), e + 3 ≤ a → a ≤ e + 6 → a % 2 ^ yardShift s.hw y = 0 → v +
    4 ≤ a → a ≤ switchCycle s.hw y e v ∧ switchCycle s.hw y e v ≤ e + 6) ∧
  (∀ (y : Nat) (e : Nat) (v : Nat) (a : Nat) (s : State), (∀ c, e + 3 ≤ c → c ≤ e + 6 → c % 2 ^ yardShift s.hw y = 0
    → c < v + 4) → a % 2 ^ yardShift s.hw y = 0 → v + 4 ≤ a → switchCycle s.hw y e v ≤ a)

/-- O23. The reference, the PLLs, the clock multiplexers, the rails and VIN. A lost reference puts every PLL in hold once
they have locked (before that there is nothing to hold), latches CRD_TICK in CLK_LOSSTICK and raises REFCLK_LOST. A
present one sets REFPRES, and starts a relock where the PLLs hold and AUTORELOCK = 1; a write of RELOCK starts one
with the reference present, and its end clears RELOCKING and the hold bits. A PLL that loses lock with the reference
present raises PLL_UNLOCK. A forced multiplexer switch counts, names its multiplexer and raises its alarm. A rail out
of range or at its current limit is named with RAIL_FAULT; VIN below 2.7 V or above 5.5 V raises its alarm. Rests on
the model's reading or choice in log entries 3, 4. (R391, R394, R396, R397, R398, R400, R401) -/
def Obligations.ClocksAndSupplyReact : Prop :=
  (∀ (s : State), s.hw.phase ≠ .por → s.hw.locked = true → isSet s.hw aCLK_STAT fCLK_STAT_REFPRES = true → GivesHw
    .refclkLost s (raiseAlarm (setReg (setF (setF (setF (setF (setF (setF s.hw aCLK_STAT fCLK_STAT_REFPRES 0)
    aCLK_STAT fCLK_STAT_REFLOST 1) aCLK_STAT fCLK_STAT_ROOTHOLD 1) aCLK_STAT fCLK_STAT_DRAMHOLD 1) aCLK_STAT
    fCLK_STAT_XCVRHOLD 1) aCLK_STAT fCLK_STAT_RELOCKING 0) aCLK_LOSSTICK (BitVec.ofNat 64 (crdTick s.hw))) 0x002
    0xFF 0 0)) ∧
  (∀ (s : State), s.hw.phase ≠ .por → s.hw.locked = false → isSet s.hw aCLK_STAT fCLK_STAT_REFPRES = true → GivesHw
    .refclkLost s (raiseAlarm (setReg (setF (setF (setF s.hw aCLK_STAT fCLK_STAT_REFPRES 0) aCLK_STAT
    fCLK_STAT_REFLOST 1) aCLK_STAT fCLK_STAT_RELOCKING 0) aCLK_LOSSTICK (BitVec.ofNat 64 (crdTick s.hw))) 0x002 0xFF
    0 0)) ∧
  (∀ (mux : BitVec 5) (s : State), s.hw.phase ≠ .por → GivesHw (.deadSourceSwitch mux) s (raiseAlarm (setF (raiseBit
    (bump s.hw aCLK_STAT fCLK_STAT_DEADCNT 1) aCLK_STAT fCLK_STAT_DEADSW) aCLK_DEADSRC fCLK_DEADSRC_MUX mux.toNat)
    0x003 0xFF 0 mux.toNat)) ∧
  (∀ (s : State), s.hw.phase ≠ .por → isSet s.hw aCLK_STAT fCLK_STAT_ROOTHOLD = true → isSet s.hw aCLK_CTL
    fCLK_CTL_AUTORELOCK = true → GivesHw .refclkPresent s (setF (raiseBit s.hw aCLK_STAT fCLK_STAT_REFPRES)
    aCLK_STAT fCLK_STAT_RELOCKING 1)) ∧
  (∀ (s : State), s.hw.phase ≠ .por → isSet s.hw aCLK_STAT fCLK_STAT_ROOTHOLD = false ∨ isSet s.hw aCLK_CTL
    fCLK_CTL_AUTORELOCK = false → GivesHw .refclkPresent s (raiseBit s.hw aCLK_STAT fCLK_STAT_REFPRES)) ∧
  (∀ (s : State), Up s → isSet s.hw aCLK_STAT fCLK_STAT_ROOTHOLD = true → isSet s.hw aCLK_STAT fCLK_STAT_REFPRES =
    true → Completes .relock s (fun t => isSet t.hw aCLK_STAT fCLK_STAT_RELOCKING = true)) ∧
  (∀ (s : State), s.hw.phase ≠ .por → isSet s.hw aCLK_STAT fCLK_STAT_RELOCKING = true → GivesHw .relockComplete s
    (setF (setF (setF (setF s.hw aCLK_STAT fCLK_STAT_RELOCKING 0) aCLK_STAT fCLK_STAT_ROOTHOLD 0) aCLK_STAT
    fCLK_STAT_DRAMHOLD 0) aCLK_STAT fCLK_STAT_XCVRHOLD 0)) ∧
  (∀ (dram : Bool) (s : State), s.hw.phase ≠ .por → isSet s.hw aCLK_STAT fCLK_STAT_REFPRES = true → GivesHw
    (.pllUnlock dram) s (raiseAlarm (raiseBit s.hw aCLK_STAT fCLK_STAT_UNLOCK) 0x001 0xFF 0 dram.toNat)) ∧
  (∀ (rail : Fin 25) (s : State), s.hw.phase ≠ .por → GivesHw (.railFault rail false) s (raiseAlarm (setF (setF
    (raiseBit s.hw aPW_STAT fPW_STAT_RAILFLT) aPW_STAT fPW_STAT_FLTRAIL rail.val) (aPW_RAIL rail.val) fPW_RAIL_OK 0)
    0x008 0xFF 0 rail.val)) ∧
  (∀ (rail : Fin 25) (s : State), s.hw.phase ≠ .por → GivesHw (.railFault rail true) s (raiseAlarm (setF (raiseBit
    s.hw aPW_STAT fPW_STAT_OCP) aPW_STAT fPW_STAT_FLTRAIL rail.val) 0x008 0xFF 0 rail.val)) ∧
  (∀ (mv : BitVec 16) (s : State), s.hw.phase ≠ .por → mv.toNat < 2700 → GivesHw (.vinLow mv) s (raiseAlarm
    (raiseBit (setF s.hw aPW_VIN fPW_VIN_MV mv.toNat) aPW_STAT fPW_STAT_VINLOW) 0x009 0xFF 0 mv.toNat)) ∧
  (∀ (mv : BitVec 16) (s : State), s.hw.phase ≠ .por → 5500 < mv.toNat → GivesHw (.vinHigh mv) s (raiseAlarm
    (raiseBit (setF s.hw aPW_VIN fPW_VIN_MV mv.toNat) aPW_STAT fPW_STAT_VINHIGH) 0x00A 0xFF 0 mv.toNat))

/-- O24. Voltage, divide, power-down and wake of a yard. A write of the code or divide in force changes nothing. A code or
divide that breaks a limit with a neighbour is refused whole with REFUSED, a reserved one sets RSVVAL, and one that
fits is taken: the rail slews to its code, and the divide comes into force at the first index that is a multiple of 4
after the write. A power-down request is refused while a pen is held; of a running yard it waits with TRANS = 1, and
takes effect at an index that is a multiple of 4 when no pen is held, no load runs and no request is unanswered,
closing the crossings into the yard, and never elsewhere; DEEP-SLEEP is reached when the rail has settled. A stopped
yard goes from one sleep mode to the other as its rail settles or slews. A wake request turns MODE back, and waits
with TRANS = 1 while the yard is stopped or a power-down is asked for. YARD_TEMP_SPREAD notes both temperatures, and
raises its alarm for neighbours in RUN more than 25 °C apart. Rests on the model's reading or choice in log entries 3,
4, 86, 88. (R110, R402, R403, R404, R405, R406, R407, R408) -/
def Obligations.YardPowerCommandsAct : Prop :=
  (∀ (y : Fin 16) (s : State), Up s → getF s.hw (aYP_CTL y) fYP_CTL_MODE ≠ 3 → yardDiv s.hw y ≠ 3 → GivesHw
    (.yardDivideWrite y 3) s (raiseBit s.hw (aYP_STAT y) fYP_STAT_RSVVAL)) ∧
  (∀ (y : Fin 16) (d : BitVec 2) (s : State), Up s → getF s.hw (aYP_CTL y) fYP_CTL_MODE ≠ 3 → yardDiv s.hw y =
    d.toNat → GivesHw (.yardDivideWrite y d) s s.hw) ∧
  (∀ (y : Fin 16) (d : BitVec 2) (s : State), Up s → getF s.hw (aYP_CTL y) fYP_CTL_MODE ≠ 3 → d.toNat ≤ 2 → yardDiv
    s.hw y ≠ d.toNat → divFits s.hw y d.toNat = false → GivesHw (.yardDivideWrite y d) s (raiseBit s.hw (aYP_STAT y)
    fYP_STAT_REFUSED)) ∧
  (∀ (y : Fin 16) (d : BitVec 2) (s : State), Up s → getF s.hw (aYP_CTL y) fYP_CTL_MODE ≠ 3 → d.toNat ≤ 2 → yardDiv
    s.hw y ≠ d.toNat → divFits s.hw y d.toNat = true → GivesHw (.yardDivideWrite y d) s (setYardPw (setF s.hw
    (aYP_CTL y) fYP_CTL_DIV d.toNat) y (withDivDue (yardPw s.hw y) (some s.hw.aclk)))) ∧
  (∀ (y : Fin 16) (a : Nat) (s : State), (yardPw s.hw y).divDue = some a → frozen s.hw = false → s.hw.aclk % 4 = 0 →
    a < s.hw.aclk → (yardPw s.hw y).stopped = false → GivesHw (.divideChange y) s (setYardDiv (setYardPw s.hw y
    (withDivDue (yardPw s.hw y) none)) y (yardDiv s.hw y))) ∧
  (∀ (y : Fin 16) (code : BitVec 8) (s : State), Up s → yardCode s.hw y = code.toNat → GivesHw (.ypVoltWrite y code)
    s s.hw) ∧
  (∀ (y : Fin 16) (code : BitVec 8) (s : State), Up s → 56 < code.toNat → yardCode s.hw y ≠ code.toNat → GivesHw
    (.ypVoltWrite y code) s (raiseBit s.hw (aYP_STAT y) fYP_STAT_RSVVAL)) ∧
  (∀ (y : Fin 16) (code : BitVec 8) (s : State), Up s → code.toNat ≤ 56 → yardCode s.hw y ≠ code.toNat → codeFits
    s.hw y code.toNat = false → GivesHw (.ypVoltWrite y code) s (raiseBit s.hw (aYP_STAT y) fYP_STAT_REFUSED)) ∧
  (∀ (y : Fin 16) (code : BitVec 8) (s : State), Up s → code.toNat ≤ 56 → yardCode s.hw y ≠ code.toNat → codeFits
    s.hw y code.toNat = true → GivesHw (.ypVoltWrite y code) s (setCode s.hw y code.toNat)) ∧
  (∀ (y : Fin 16) (s : State), s.hw.phase ≠ .por → (yardPw s.hw y).toSleep = false → (yardPw s.hw y).slewing = true
    → GivesHw (.railSlewComplete y) s (setYardPw (setF s.hw (aYP_VOLT y) fYP_VOLT_ACT (yardCode s.hw y)) y
    (withSlewing (yardPw s.hw y) false))) ∧
  (∀ (y : Fin 16) (s : State), s.hw.phase ≠ .por → (yardPw s.hw y).toSleep = true → GivesHw (.railSlewComplete y) s
    (setYardPw (setF (setF (railAtCode s.hw y) (aYP_STAT y) fYP_STAT_MODE 1) (aYP_STAT y) fYP_STAT_TRANS (yardPw
    s.hw y).wake.toNat) y (withSlewing (withToSleep (yardPw s.hw y) false) false))) ∧
  (∀ (y : Fin 16) (deep : Bool) (s : State), Up s → getF s.hw (aYP_CTL y) fYP_CTL_MODE = 1 + deep.toNat → GivesHw
    (.yardPowerDownRequest y deep) s s.hw) ∧
  (∀ (y : Fin 16) (deep : Bool) (s : State), Up s → anyHeld s.hw y = true → getF s.hw (aYP_CTL y) fYP_CTL_MODE ≠ 1 +
    deep.toNat → GivesHw (.yardPowerDownRequest y deep) s (raiseBit s.hw (aYP_STAT y) fYP_STAT_REFUSED)) ∧
  (∀ (y : Fin 16) (deep : Bool) (s : State), Up s → anyHeld s.hw y = false → getF s.hw (aYP_CTL y) fYP_CTL_MODE ≠ 1
    + deep.toNat → getF s.hw (aYP_STAT y) fYP_STAT_MODE = 0 → (yardPw s.hw y).stopped = false → GivesHw
    (.yardPowerDownRequest y deep) s (setYardPw (setF (setF s.hw (aYP_CTL y) fYP_CTL_MODE (1 + deep.toNat))
    (aYP_STAT y) fYP_STAT_TRANS 1) y (withWant (yardPw s.hw y) (some (1 + deep.toNat))))) ∧
  (∀ (y : Fin 16) (deep : Bool) (s : State), Up s → anyHeld s.hw y = false → getF s.hw (aYP_CTL y) fYP_CTL_MODE ≠ 1
    + deep.toNat → getF s.hw (aYP_STAT y) fYP_STAT_MODE = 1 + deep.toNat → GivesHw (.yardPowerDownRequest y deep) s
    (setF s.hw (aYP_CTL y) fYP_CTL_MODE (1 + deep.toNat))) ∧
  (∀ (y : Fin 16) (s : State), Up s → anyHeld s.hw y = false → getF s.hw (aYP_CTL y) fYP_CTL_MODE ≠ 2 → getF s.hw
    (aYP_STAT y) fYP_STAT_MODE ≠ 2 → (yardPw s.hw y).stopped = true → GivesHw (.yardPowerDownRequest y true) s
    (muckWriteBack (setYardPw (setF (setF s.hw (aYP_CTL y) fYP_CTL_MODE 2) (aYP_STAT y) fYP_STAT_TRANS 1) y
    (withSettling (yardPw s.hw y) true)) y)) ∧
  (∀ (y : Fin 16) (s : State), Up s → anyHeld s.hw y = false → getF s.hw (aYP_CTL y) fYP_CTL_MODE ≠ 1 → getF s.hw
    (aYP_STAT y) fYP_STAT_MODE ≠ 1 → (yardPw s.hw y).stopped = true → GivesHw (.yardPowerDownRequest y false) s
    (setYardPw (setF (setF s.hw (aYP_CTL y) fYP_CTL_MODE 1) (aYP_STAT y) fYP_STAT_TRANS 1) y (withToSleep (yardPw
    s.hw y) true))) ∧
  (∀ (y : Fin 16) (s : State), (yardPw s.hw y).want = none ∨ s.hw.aclk % 4 ≠ 0 ∨ anyHeld s.hw y = true ∨ anyLoad
    s.hw y = true ∨ noRequests s.hw y = false → GivesHw (.yardClockStop y) s s.hw) ∧
  (∀ (y : Fin 16) (s : State), (yardPw s.hw y).want = some 1 → frozen s.hw = false → s.hw.aclk % 4 = 0 → anyHeld
    s.hw y = false → anyLoad s.hw y = false → noRequests s.hw y = true → GivesHw (.yardClockStop y) s (setF (setF
    (closeCrossings (setYardPw s.hw y (stoppedPw (yardPw s.hw y) false)) y) (aYP_STAT y) fYP_STAT_MODE 1) (aYP_STAT
    y) fYP_STAT_TRANS (yardPw s.hw y).wake.toNat)) ∧
  (∀ (y : Fin 16) (s : State), (yardPw s.hw y).want = some 2 → frozen s.hw = false → s.hw.aclk % 4 = 0 → anyHeld
    s.hw y = false → anyLoad s.hw y = false → noRequests s.hw y = true → GivesHw (.yardClockStop y) s (muckWriteBack
    (closeCrossings (setYardPw s.hw y (stoppedPw (yardPw s.hw y) true)) y) y)) ∧
  (∀ (y : Fin 16) (s : State), (yardPw s.hw y).settling = true → frozen s.hw = false → GivesHw (.railRetention y) s
    (setF (setF (setYardPw s.hw y (withSettling (yardPw s.hw y) false)) (aYP_STAT y) fYP_STAT_MODE 2) (aYP_STAT y)
    fYP_STAT_TRANS (yardPw s.hw y).wake.toNat)) ∧
  (∀ (y : Fin 16) (s : State), Up s → getF s.hw (aYP_CTL y) fYP_CTL_MODE ≠ 0 → (yardPw s.hw y).stopped = true ∨
    (yardPw s.hw y).want ≠ none → GivesHw (.yardWakeRequest y) s (setF (setYardPw (setF s.hw (aYP_CTL y)
    fYP_CTL_MODE 0) y (withWake (yardPw s.hw y))) (aYP_STAT y) fYP_STAT_TRANS 1)) ∧
  (∀ (y : Fin 16) (s : State), Up s → getF s.hw (aYP_CTL y) fYP_CTL_MODE ≠ 0 → (yardPw s.hw y).stopped = false →
    (yardPw s.hw y).want = none → GivesHw (.yardWakeRequest y) s (setF s.hw (aYP_CTL y) fYP_CTL_MODE 0)) ∧
  (∀ (a : Fin 16) (b : Fin 16) (ta : BitVec 13) (tb : BitVec 13) (s : State), (neighbours a).contains b.val = false
    ∨ yardRuns s.hw a = false ∨ yardRuns s.hw b = false ∨ (ta.toInt - tb.toInt).natAbs ≤ 400 → GivesHw
    (.yardTempSpread a b ta tb) s (setF (setF s.hw (aYP_STAT a) fYP_STAT_TEMP ta.toNat) (aYP_STAT b) fYP_STAT_TEMP
    tb.toNat)) ∧
  (∀ (a : Fin 16) (b : Fin 16) (ta : BitVec 13) (tb : BitVec 13) (s : State), (neighbours a).contains b.val = true →
    yardRuns s.hw a = true → yardRuns s.hw b = true → 400 < (ta.toInt - tb.toInt).natAbs → GivesHw (.yardTempSpread
    a b ta tb) s (raiseAlarm (setF (setF s.hw (aYP_STAT a) fYP_STAT_TEMP ta.toNat) (aYP_STAT b) fYP_STAT_TEMP
    tb.toNat) 0x00B 0xFF (aYP_STAT a) (a.val + 256 * b.val)))

/-- O25. Slack windows, ring oscillators, electromigration, re-plans and the rate reference. WINGO clears the counts and
sets BUSY; the end of the window writes them, or leaves 0 where the monitors were idle. ROGO sets ROBUSY where the
monitors are enabled; the end of the measurement writes the pair counts. EM_UPDATE writes PPM, and each of the last
two raises LIFE_WARN and LIFE_END where they are due. A re-plan for a move of 10 °C or less that nothing owes does
nothing. Any other of a sleeping yard is owed; one of a running yard moves its code by the procedure of R416 over the
windows it meets, or falls back to ACLK/2 where no code is clear; a commanded one of a yard in fall-back whose program
is stopped first tries ACLK/1. The rate reference records life consumed and hours. Rests on the model's reading or
choice in log entries 5, 90. (R412, R413, R414, R415, R416, R417, R418, R420, R421) -/
def Obligations.AgeingAndMarginCommandsAct : Prop :=
  (∀ (y : Fin 16) (s : State), Up s → isSet s.hw (aAG_SLACKMAP y) fAG_SLACKMAP_BUSY = false → Completes (.wingo y) s
    (fun t => isSet t.hw (aAG_SLACKMAP y) fAG_SLACKMAP_BUSY = true ∧ reg t.hw (aAG_SLACK y) = 0 ∧ getF t.hw
    (aAG_SLACKMAP y) fAG_SLACKMAP_MAP = 0)) ∧
  (∀ (y : Fin 16) (near : BitVec 32) (trans : BitVec 32) (map : BitVec 32) (s : State), isSet s.hw (aAG_SLACKMAP y)
    fAG_SLACKMAP_BUSY = true → frozen s.hw = false → yardRuns s.hw y = true → monOn s.hw y = true → GivesHw
    (.slackWindowEnd y near trans map) s (setReg (setReg s.hw (aAG_SLACK y) (BitVec.ofNat 64 (near.toNat % 2 ^ 32 +
    trans.toNat % 2 ^ 32 * 2 ^ 32))) (aAG_SLACKMAP y) (BitVec.ofNat 64 (map.toNat % 2 ^ 32)))) ∧
  (∀ (y : Fin 16) (near : BitVec 32) (trans : BitVec 32) (map : BitVec 32) (s : State), isSet s.hw (aAG_SLACKMAP y)
    fAG_SLACKMAP_BUSY = true → frozen s.hw = false → yardRuns s.hw y = false ∨ monOn s.hw y = false → GivesHw
    (.slackWindowEnd y near trans map) s (setF s.hw (aAG_SLACKMAP y) fAG_SLACKMAP_BUSY 0)) ∧
  (∀ (y : Fin 16) (s : State), Up s → isSet s.hw (aAG_STAT y) fAG_STAT_ROBUSY = false → monOn s.hw y = true →
    Completes (.rogo y) s (fun t => isSet t.hw (aAG_STAT y) fAG_STAT_ROBUSY = true)) ∧
  (∀ (y : Fin 16) (counts : List (BitVec 32 × BitVec 32)) (s : State), isSet s.hw (aAG_STAT y) fAG_STAT_ROBUSY =
    true → frozen s.hw = false → GivesHw (.roMeasurementEnd y counts) s (lifeAlarms (setF (applyAll (fun h c =>
    setReg h (aAG_RO y c.1) (BitVec.ofNat 64 (c.2.1.toNat + c.2.2.toNat * 2 ^ 32))) s.hw (List.zip (List.range 4)
    counts)) (aAG_STAT y) fAG_STAT_ROBUSY 0))) ∧
  (∀ (y : Fin 16) (ppm : BitVec 32) (s : State), frozen s.hw = false → GivesHw (.emUpdate y ppm) s (lifeAlarms (setF
    s.hw (aAG_EM y) fAG_EM_PPM ppm.toNat))) ∧
  (∀ (y : Fin 16) (ws : List SlackWin) (s : State), fwRuns s.hw = true → frozen s.hw = false → movedEnough s.hw y =
    false → GivesHw (.yardReplan y .moved ws) s s.hw) ∧
  (∀ (y : Fin 16) (why : ReplanWhy) (ws : List SlackWin) (s : State), fwRuns s.hw = true → frozen s.hw = false →
    yardRuns s.hw y = false → why ≠ .moved ∨ movedEnough s.hw y = true → GivesHw (.yardReplan y why ws) s
    (setYardAge s.hw y (owing (yardAge s.hw y)))) ∧
  (∀ (y : Fin 16) (why : ReplanWhy) (ws : List SlackWin) (s : State), fwRuns s.hw = true → frozen s.hw = false →
    yardRuns s.hw y = true → why ≠ .moved ∨ movedEnough s.hw y = true → why ≠ .commanded ∨ triesFullRate s.hw y =
    false → (planBody (planNoted s.hw y why) y (why == .daily) ws).2.1 = true → GivesHw (.yardReplan y why ws) s
    (planBody (planNoted s.hw y why) y (why == .daily) ws).1) ∧
  (∀ (y : Fin 16) (why : ReplanWhy) (ws : List SlackWin) (s : State), fwRuns s.hw = true → frozen s.hw = false →
    yardRuns s.hw y = true → why ≠ .moved ∨ movedEnough s.hw y = true → why ≠ .commanded ∨ triesFullRate s.hw y =
    false → (planBody (planNoted s.hw y why) y (why == .daily) ws).2.1 = false → GivesHw (.yardReplan y why ws) s
    (fallBack (planBody (planNoted s.hw y why) y (why == .daily) ws).1 y (planBody (planNoted s.hw y why) y (why ==
    .daily) ws).2.2)) ∧
  (∀ (y : Fin 16) (ws : List SlackWin) (s : State), fwRuns s.hw = true → frozen s.hw = false → yardRuns s.hw y =
    true → triesFullRate s.hw y = true → GivesHw (.yardReplan y .commanded ws) s (tryFullRate (planNoted s.hw y
    .commanded) y ws)) ∧
  (∀ (hours : BitVec 32) (s : State), fwRuns s.hw = true → frozen s.hw = false → GivesHw (.rateReference hours) s
    (lifeAlarms (withRate s.hw hours.toNat)))

/-- O26. Trough buffers, DMA ports, starvation, streamers, forwarders and trough registers. A buffer transfer acts in a
cycle in which the trough holds the bank port it asks for and has not used it: a drain writes the oldest word of the
tail buffer to its bank, which a bad row discards; a refill takes the next readable word, or the poisoned word from a
bad row, into the head buffer. Without the port it does nothing. The DMA port of a loft serves the head of its queue,
and answers it when its last word is done. That of a pen gets one turn a cycle: of its two queues it serves the one
that can go on, and of two that can the one that the latest turn did not serve (which is first is the model's choice,
log entry 185). A port that has waited 2^20 - 1 cycles and is starved for one more sets STARVED, counts and raises
MEM_STARVE. A streamer that is ready and holds its loft port moves one word in its direction, skips a loft word that
is not valid, and sets NOSIDE where no trough names it. A forwarder sends an open after it popped a length word, the
words it holds when there are eight, and a close after the last; it releases words accepted, never past the read
pointer. TRG_HWM is read and restarts. An enabled trough keeps its configuration and sets CFGBUSY; FLUSH makes every
pointer the write pointer, after rolling an open packet back. Rests on the model's reading or choice in log entries
40, 43, 179, 185. (R172, R173, R175, R176, R177, R178, R179, R180, R185, R186, R188, R203) -/
def Obligations.MemoryPortsTroughsAndStreamersAct : Prop :=
  (∀ (n : Fin 128) (k : Fin 8) (p : Nat) (pos : Nat) (w : TW) (ws : List (Nat × TW)) (s : State), arrayRuns s.hw
    ((keyOf n k) / 64) = true → orderDue s.hw n = false → bufferPort s.hw (keyOf n k) true = some p → lookup
    s.hw.arr.ports p = some ⟨bufferClass s.hw (keyOf n k) true, k.val, false⟩ → (trough s.hw (keyOf n k)).tail =
    (pos, w) :: ws → GivesMem (.troughBufferTransfer n k true) s (if rowBad s.hw (penBank n (troughSlot s.hw (keyOf
    n k) pos)) then s.mem else writeWord s.mem (penWord n (troughSlot s.hw (keyOf n k) pos)) w, transferred
    (setTrough s.hw (keyOf n k) (withTail (trough s.hw (keyOf n k)) ws)) (keyOf n k) true p)) ∧
  (∀ (n : Fin 128) (k : Fin 8) (p : Nat) (pos : Nat) (s : State), arrayRuns s.hw ((keyOf n k) / 64) = true →
    orderDue s.hw n = false → bufferPort s.hw (keyOf n k) false = some p → lookup s.hw.arr.ports p = some
    ⟨bufferClass s.hw (keyOf n k) false, k.val, false⟩ → refillPos s.hw (keyOf n k) = some pos → GivesHw
    (.troughBufferTransfer n k false) s (transferred (setTrough s.hw (keyOf n k) (withHead (trough s.hw (keyOf n k))
    ((trough s.hw (keyOf n k)).head ++ [(pos, if rowBad s.hw (penBank n (troughSlot s.hw (keyOf n k) pos)) then
    TW.poisoned else readWord s.mem (penWord n (troughSlot s.hw (keyOf n k) pos)))]))) (keyOf n k) false p)) ∧
  (∀ (n : Fin 128) (k : Fin 8) (d : Bool) (s : State), bufferPort s.hw (keyOf n k) d = none ∨ (∀ p, bufferPort s.hw
    (keyOf n k) d = some p → lookup s.hw.arr.ports p ≠ some ⟨bufferClass s.hw (keyOf n k) d, k.val, false⟩) →
    GivesHw (.troughBufferTransfer n k d) s s.hw) ∧
  (∀ (y : Fin 16) (r : DmaReq) (q : List DmaReq) (es : List Ecc) (s : State), arrayRuns s.hw y = true → getD []
    s.hw.loftDma y = r :: q → nextItem (serveWindow (128 + y.val) 64 es s.mem s.hw r).2.2 = none → GivesMem
    (.dmaPortService (128 + y.castLE (by decide)) es) s ((serveWindow (128 + y.val) 64 es s.mem s.hw r).1, respond
    (withLoftDma (serveWindow (128 + y.val) 64 es s.mem s.hw r).2.1 y q) r.kind r.f 0 (serveWindow (128 + y.val) 64
    es s.mem s.hw r).2.2.got)) ∧
  (∀ (y : Fin 16) (r : DmaReq) (q : List DmaReq) (es : List Ecc) (i : Item) (s : State), arrayRuns s.hw y = true →
    getD [] s.hw.loftDma y = r :: q → nextItem (serveWindow (128 + y.val) 64 es s.mem s.hw r).2.2 = some i →
    GivesMem (.dmaPortService (128 + y.castLE (by decide)) es) s ((serveWindow (128 + y.val) 64 es s.mem s.hw r).1,
    withLoftDma (serveWindow (128 + y.val) 64 es s.mem s.hw r).2.1 y ((serveWindow (128 + y.val) 64 es s.mem s.hw
    r).2.2 :: q))) ∧
  (∀ (n : Fin 128) (r : DmaReq) (q : List DmaReq) (es : List Ecc) (st : Nat) (ws : List TW) (h : Hw) (s : State),
    arrayRuns s.hw (n / 8) = true → orderDue s.hw n = false → inCycle s.hw (n / 8) (pen s.hw n).dmaAt = false → (pen
    s.hw n).dmaTrough = r :: q → troughReady s.hw (troughKey (n / 8) r.f) r = true → (pen s.hw n).dmaLastTrough =
    false ∨ (∀ x xs, (pen s.hw n).dmaOther = x :: xs → itemReady s.hw n x = false) → (serveTrough s.mem s.hw
    (troughKey (n / 8) r.f) r es) = (.done st ws, h) → GivesHw (.dmaPortService (n.castLE (by decide)) es) s
    (penTurned (respond (setPen h n (withDmaTrough (pen h n) q)) r.kind r.f st ws) n true)) ∧
  (∀ (n : Fin 128) (r : DmaReq) (q : List DmaReq) (es : List Ecc) (r1 : DmaReq) (h : Hw) (s : State), arrayRuns s.hw
    (n / 8) = true → orderDue s.hw n = false → inCycle s.hw (n / 8) (pen s.hw n).dmaAt = false → (pen s.hw
    n).dmaTrough = r :: q → troughReady s.hw (troughKey (n / 8) r.f) r = true → (pen s.hw n).dmaLastTrough = false ∨
    (∀ x xs, (pen s.hw n).dmaOther = x :: xs → itemReady s.hw n x = false) → (serveTrough s.mem s.hw (troughKey (n /
    8) r.f) r es) = (.more r1, h) → GivesHw (.dmaPortService (n.castLE (by decide)) es) s (penTurned (setPen h n
    (withDmaTrough (pen h n) (r1 :: q))) n true)) ∧
  (∀ (n : Fin 128) (r : DmaReq) (q : List DmaReq) (es : List Ecc) (s : State), arrayRuns s.hw (n / 8) = true →
    orderDue s.hw n = false → inCycle s.hw (n / 8) (pen s.hw n).dmaAt = false → (pen s.hw n).dmaOther = r :: q →
    itemReady s.hw n r = true → (pen s.hw n).dmaLastTrough = true ∨ (∀ x xs, (pen s.hw n).dmaTrough = x :: xs →
    troughReady s.hw (troughKey (n / 8) x.f) x = false) → nextItem (serveWindow n 64 es s.mem s.hw r).2.2 = none →
    GivesMem (.dmaPortService (n.castLE (by decide)) es) s ((serveWindow n 64 es s.mem s.hw r).1, penTurned (respond
    (setPen (serveWindow n 64 es s.mem s.hw r).2.1 n (withDmaOther (pen (serveWindow n 64 es s.mem s.hw r).2.1 n)
    q)) r.kind r.f 0 (serveWindow n 64 es s.mem s.hw r).2.2.got) n false)) ∧
  (∀ (n : Fin 128) (r : DmaReq) (q : List DmaReq) (es : List Ecc) (i : Item) (s : State), arrayRuns s.hw (n / 8) =
    true → orderDue s.hw n = false → inCycle s.hw (n / 8) (pen s.hw n).dmaAt = false → (pen s.hw n).dmaOther = r ::
    q → itemReady s.hw n r = true → (pen s.hw n).dmaLastTrough = true ∨ (∀ x xs, (pen s.hw n).dmaTrough = x :: xs →
    troughReady s.hw (troughKey (n / 8) x.f) x = false) → nextItem (serveWindow n 64 es s.mem s.hw r).2.2 = some i →
    GivesMem (.dmaPortService (n.castLE (by decide)) es) s ((serveWindow n 64 es s.mem s.hw r).1, penTurned (setPen
    (serveWindow n 64 es s.mem s.hw r).2.1 n (withDmaOther (pen (serveWindow n 64 es s.mem s.hw r).2.1 n)
    ((serveWindow n 64 es s.mem s.hw r).2.2 :: q))) n false)) ∧
  (∀ (n : Fin 128) (s : State), arrayRuns s.hw (n / 8) = true → portWaits s.hw n = true → s.hw.granted.contains
    n.val = false → getF s.hw (aPM_STAT n) fPM_STAT_RUN = 2 ^ 20 - 1 → GivesHw (.starvation (n.castLE (by decide)))
    s (raiseAlarm (bump (raiseBit (setF s.hw (aPM_STAT n) fPM_STAT_RUN (2 ^ 20)) (aPM_STAT n) fPM_STAT_STARVED)
    (aPM_STAT n) fPM_STAT_STARVCNT 1) 0x045 0xFF (penWord n 0) 0)) ∧
  (∀ (y : Fin 16) (s : State), arrayRuns s.hw y = true → portWaits s.hw (128 + y) = true → s.hw.granted.contains
    (128 + y.val) = false → getF s.hw (aLOFT_STAT y) fLOFT_STAT_RUN = 2 ^ 20 - 1 → GivesHw (.starvation (128 +
    y.castLE (by decide))) s (raiseAlarm (bump (raiseBit (setF s.hw (aLOFT_STAT y) fLOFT_STAT_RUN (2 ^ 20))
    (aLOFT_STAT y) fLOFT_STAT_STARVED) (aLOFT_STAT y) fLOFT_STAT_STARVCNT 1) 0x045 0xFF (loftWord y 0) 0)) ∧
  (∀ (mem : Fin 144) (s : State), portWaits s.hw mem = false ∨ s.hw.granted.contains mem.val = true → GivesHw
    (.starvation mem) s s.hw) ∧
  (∀ (n : Fin 128) (st : Fin 2) (e : Ecc) (s : State), isSet s.hw (aPS_CTL n st) fPS_CTL_EN = true → arrayRuns s.hw
    (n / 8) = true → sidesName s.hw n st = false → GivesHw (.streamerTransfer n st e) s (raiseBit s.hw (aPS_CTL n
    st) fPS_CTL_NOSIDE)) ∧
  (∀ (n : Fin 128) (st : Fin 2) (e : Ecc) (s : State), streamReady s.hw n st = true → holdsPort s.hw (loftBank (n /
    8) (streamWord s.hw n st)).1 true 1 (streamNum n st) = true → isSet s.hw (aPS_CTL n st) fPS_CTL_DIR = true →
    GivesMem (.streamerTransfer n st e) s (if rowBad s.hw (loftBank (n / 8) (streamWord s.hw n st)) then s.mem else
    writeWord s.mem (loftWord (n / 8) (streamWord s.hw n st)) (popFrom s.mem s.hw (streamTrough s.hw n st) e).1,
    streamed (releaseWords (popFrom s.mem s.hw (streamTrough s.hw n st) e).2 (streamTrough s.hw n st) (troughNow
    (popFrom s.mem s.hw (streamTrough s.hw n st) e).2 (streamTrough s.hw n st)) 1) n st (streamPort s.hw n st))) ∧
  (∀ (n : Fin 128) (st : Fin 2) (e : Ecc) (s : State), streamReady s.hw n st = true → holdsPort s.hw (loftBank (n /
    8) (streamWord s.hw n st)).1 false 1 (streamNum n st) = true → isSet s.hw (aPS_CTL n st) fPS_CTL_DIR = false →
    (readLoftWord s.mem s.hw (n / 8) (streamWord s.hw n st) e).1.v = true → (pushFrom (readLoftWord s.mem s.hw (n /
    8) (streamWord s.hw n st) e).2 (streamTrough s.hw n st) (readLoftWord s.mem s.hw (n / 8) (streamWord s.hw n st)
    e).1).2 = true → GivesHw (.streamerTransfer n st e) s (streamed (pushFrom (readLoftWord s.mem s.hw (n / 8)
    (streamWord s.hw n st) e).2 (streamTrough s.hw n st) (readLoftWord s.mem s.hw (n / 8) (streamWord s.hw n st)
    e).1).1 n st (streamPort s.hw n st))) ∧
  (∀ (n : Fin 128) (st : Fin 2) (e : Ecc) (s : State), streamReady s.hw n st = true → holdsPort s.hw (loftBank (n /
    8) (streamWord s.hw n st)).1 false 1 (streamNum n st) = true → isSet s.hw (aPS_CTL n st) fPS_CTL_DIR = false →
    (readLoftWord s.mem s.hw (n / 8) (streamWord s.hw n st) e).1.v = false → GivesHw (.streamerTransfer n st e) s
    (streamed (readLoftWord s.mem s.hw (n / 8) (streamWord s.hw n st) e).2 n st (streamPort s.hw n st))) ∧
  (∀ (n : Fin 128) (st : Fin 2) (e : Ecc) (s : State), sidesName s.hw n st = true → streamReady s.hw n st = false ∨
    holdsPort s.hw (loftBank (n / 8) (streamWord s.hw n st)).1 (isSet s.hw (aPS_CTL n st) fPS_CTL_DIR) 1 (streamNum
    n st) = false → GivesHw (.streamerTransfer n st e) s s.hw) ∧
  (∀ (n : Fin 128) (st : Fin 2) (s : State), Up s → isSet s.hw (aPS_CTL n st) fPS_CTL_EN = false → Completes
    (.streamerEnable n st) s (fun t => isSet t.hw (aPS_CTL n st) fPS_CTL_EN = true ∧ getF t.hw (aPS_CNT n st)
    fPS_CNT_POS = 0 ∧ (sidesName t.hw n st = false → isSet t.hw (aPS_CTL n st) fPS_CTL_NOSIDE = true))) ∧
  (∀ (n : Fin 128) (k : Fin 8) (e : Ecc) (x : Nat × List TW × Nat) (s : State), fwdLive s.hw (keyOf n k) = true →
    (fwdNext (fwdTake s.mem s.hw (keyOf n k) e).2 (keyOf n k) (fwdTake s.mem s.hw (keyOf n k) e).1).1 = some x →
    GivesHw (.forwarderSend n k e) s (forwarded (fwdNext (fwdTake s.mem s.hw (keyOf n k) e).2 (keyOf n k) (fwdTake
    s.mem s.hw (keyOf n k) e).1).2 (keyOf n k) x)) ∧
  (∀ (n : Fin 128) (k : Fin 8) (e : Ecc) (s : State), fwdLive s.hw (keyOf n k) = true → (fwdNext (fwdTake s.mem s.hw
    (keyOf n k) e).2 (keyOf n k) (fwdTake s.mem s.hw (keyOf n k) e).1).1 = none → GivesHw (.forwarderSend n k e) s
    (fwdNext (fwdTake s.mem s.hw (keyOf n k) e).2 (keyOf n k) (fwdTake s.mem s.hw (keyOf n k) e).1).2) ∧
  (∀ (h : Hw) (key : Nat) (x : Nat × TW), (fwdNext h key (some x)).1 = some (5, [], 0)) ∧
  (∀ (h : Hw) (key : Nat), (trough h key).fwdBuf.length = 8 → fwdNext h key none = (some (3, (trough h key).fwdBuf,
    8), setTrough h key (withFwdBuf (trough h key) []))) ∧
  (∀ (h : Hw) (key : Nat) (w : TW), (trough h key).fwdBuf = [] → (trough h key).fwdPkt = some (0, w) → (fwdNext h
    key none).1 = some (6, [w], 1)) ∧
  (∀ (n : Fin 128) (k : Fin 8) (c : Nat) (j : Nat) (s : State), arrayRuns s.hw ((keyOf n k) / 64) = true → j = min
    (min c (trough s.hw (keyOf n k)).fwdAcc) (ptrSub (depth s.hw (keyOf n k)) (trough s.hw (keyOf n k)).rp (trough
    s.hw (keyOf n k)).rl) → j ≠ 0 → GivesHw (.forwarderRelease n k c) s (setTrough (releaseWords s.hw (keyOf n k)
    (trough s.hw (keyOf n k)) j) (keyOf n k) (withFwdAcc (trough (releaseWords s.hw (keyOf n k) (trough s.hw (keyOf
    n k)) j) (keyOf n k)) ((trough s.hw (keyOf n k)).fwdAcc - j)))) ∧
  (∀ (n : Fin 128) (k : Fin 8) (c : Nat) (s : State), min (min c (trough s.hw (keyOf n k)).fwdAcc) (ptrSub (depth
    s.hw (keyOf n k)) (trough s.hw (keyOf n k)).rp (trough s.hw (keyOf n k)).rl) = 0 → GivesHw (.forwarderRelease n
    k c) s s.hw) ∧
  (∀ (n : Fin 128) (k : Fin 8) (s : State), Up s → GivesHw (.trgHwmRead n k) s (answerRead (setTrough s.hw (keyOf n
    k) (markRestarted (troughNow s.hw (keyOf n k)))) (leBytes 8 (viewReg s.hw (aTRG_HWM n k)).toNat)) ∧ viewReg s.hw
    (aTRG_HWM n k) = BitVec.ofNat 64 (troughNow s.hw (keyOf n k)).hwm) ∧
  (∀ (n : Fin 128) (k : Fin 8) (v : BitVec 64) (s : State), Up s → GivesHw (.trgCfgWrite n k v) s (settlePenWords
    (writeTrgCfg s.hw (keyOf n k) v.toNat) n)) ∧
  (∀ (h : Hw) (key : Nat) (v : Nat), isSet h (aCfg key) fTRG_CFG_EN = true → writeTrgCfg h key v = raiseBit (setReg
    h (aCfg key) (BitVec.ofNat 64 (putField fTRG_CFG_STRICT (putField fTRG_CFG_EN (reg h (aCfg key)).toNat v)
    (fieldOf fTRG_CFG_STRICT v)))) (aTst key) fTRG_STAT_CFGBUSY) ∧
  (∀ (n : Fin 128) (k : Fin 8) (s : State), Up s → GivesHw (.flush n k) s (flushTrough s.hw (keyOf n k))) ∧
  (∀ (n : Fin 128) (k : Fin 8) (wp : Nat) (s : State), Up s → wp = (if (troughNow s.hw (keyOf n k)).isOpen then
    (troughNow s.hw (keyOf n k)).slot else (troughNow s.hw (keyOf n k)).wp) → Completes (.flush n k) s (fun t =>
    (trough t.hw (keyOf n k)).wp = wp ∧ (trough t.hw (keyOf n k)).rp = wp ∧ (trough t.hw (keyOf n k)).rl = wp ∧
    (trough t.hw (keyOf n k)).mark = wp ∧ (trough t.hw (keyOf n k)).isOpen = false ∧ (trough t.hw (keyOf n k)).ovf =
    false))

/-- O27. Muck-out segments, repair and the ledger. While EN = 1 or a MEM_TEST tests the yard and the engine has its clock,
it takes its next segment and saves its words: a word that corrects counts, one that does not is poisoned with its
finding. At the end of the segment no word of memory changes and the walk moves on, to the first segment after the
last. A failing row takes the lowest free spare, else becomes bad with its finding, else finds the table of 64 full,
and one that is bad already changes nothing; a failing spare has the row it served repaired again. The ledger goes
into the flash slot that does not hold the newest one, with the next sequence number, and is the newest from then on
unless a power loss cut its erase or one of its pages. Rests on the model's reading or choice in log entries 5, 45,
92, 180. (R196, R197, R198, R199, R200, R201, R202, R422, R424, R425) -/
def Obligations.MuckOutRepairsAndTheLedgerIsKept : Prop :=
  (∀ (y : Fin 16) (saved : List Ecc) (s : State), isSet s.hw aMO_CTL fMO_CTL_EN = true ∨ memTesting s.hw y = true →
    (muck s.hw y).holding = false → s.hw.yardsUp = true → muckClocked s.hw y = true → frozen s.hw = false → GivesMem
    (.muckOutSegmentStart y saved) s ((List.zip (List.range 8) saved).foldl (fun x e => scrubAt x.1 x.2 y (muck s.hw
    y).seg e.1 e.2) (s.mem, setF (setMuck s.hw y (muckHolds (muck s.hw y))) aMO_STAT fMO_STAT_ACTIVE 1))) ∧
  (∀ (m : Sparse Byte) (h : Hw) (y : Nat) (mem : Nat) (b : Nat) (row : Nat), (scrubWord m h y mem b row true
    .corrected).1 = m ∧ (scrubWord m h y mem b row true .uncorrectable) = (writeWord m (rowAddr y mem b row)
    TW.poisoned, postFinding (bump h aMO_FIND fMO_FIND_PSN 1) 0x0005 0x041 0xFF ((rowAddr y mem b row) + bankIndex y
    mem b % 256 * 2 ^ 40) 0)) ∧
  (∀ (y : Fin 16) (bad : List Nat) (s : State), (muck s.hw y).holding = true → muckClocked s.hw y = true → frozen
    s.hw = false → (muck s.hw y).seg + 1 < passSegs → Completes (.muckOutSegmentComplete y bad) s (fun t => t.mem =
    s.mem ∧ muck t.hw y = ⟨(muck s.hw y).seg + 1, false⟩)) ∧
  (∀ (y : Fin 16) (bad : List Nat) (s : State), (muck s.hw y).holding = true → muckClocked s.hw y = true → frozen
    s.hw = false → (muck s.hw y).seg + 1 = passSegs → Completes (.muckOutSegmentComplete y bad) s (fun t => t.mem =
    s.mem ∧ muck t.hw y = ⟨0, false⟩)) ∧
  (∀ (i : Nat) (row : Nat) (addr : Nat) (j : Nat) (s : State), freeSpare s.hw i = some j → repairRow s.hw i row addr
    = postFinding (bump (setF (raiseBit s.hw (aRPR_BANK i) (fRPR_BANK_USED j)) (aRPR_BANK i) (fRPR_BANK_ROW j) row)
    aMO_FIND fMO_FIND_RPR 1) 0x0005 0x042 0xFF (addr % 2 ^ 40 + i % 256 * 2 ^ 40) 0) ∧
  (∀ (i : Nat) (row : Nat) (addr : Nat) (s : State), freeSpare s.hw i = none → s.hw.badRows.contains (i, row) =
    false → 64 ≤ s.hw.badRows.length → repairRow s.hw i row addr = raiseAlarm (rowLost s.hw i addr) 0x044 0xFF (addr
    % 2 ^ 40 + i % 256 * 2 ^ 40) 0) ∧
  (∀ (i : Nat) (row : Nat) (addr : Nat) (s : State), freeSpare s.hw i = none → s.hw.badRows.contains (i, row) =
    false → s.hw.badRows.length < 64 → repairRow s.hw i row addr = withBadRow (rowLost s.hw i addr) (i, row) ∧
    (repairRow s.hw i row addr).badRows = s.hw.badRows ++ [(i, row)]) ∧
  (∀ (i : Nat) (row : Nat) (addr : Nat) (s : State), freeSpare s.hw i = none → s.hw.badRows.contains (i, row) = true
    → repairRow s.hw i row addr = s.hw) ∧
  (∀ (y : Nat) (mem : Nat) (b : Nat) (j : Nat) (s : State), isSet s.hw (aRPR_BANK (bankIndex y mem b))
    (fRPR_BANK_FAILED j) = false → isSet s.hw (aRPR_BANK (bankIndex y mem b)) (fRPR_BANK_USED j) = true → spareFails
    s.hw y mem b j = repairRow (raiseBit s.hw (aRPR_BANK (bankIndex y mem b)) (fRPR_BANK_FAILED j)) (bankIndex y mem
    b) (getF s.hw (aRPR_BANK (bankIndex y mem b)) (fRPR_BANK_ROW j)) (rowAddr y mem b (getF s.hw (aRPR_BANK
    (bankIndex y mem b)) (fRPR_BANK_ROW j)))) ∧
  (∀ (cut : Option (Fin 257)) (s : State), fwRuns s.hw = true → (∀ k, cut = some k → (ledgerPages s.hw (uidOf
    s.hw)).length < k.val) → Completes (.ledgerWrite cut) s (fun t => t.mem = s.mem ∧ t.hw.ledger = some (nextLedger
    s.hw) ∧ t.nv.flash = ledgerFlash s.nv.flash (nextLedger s.hw).1 (nextLedger s.hw).2 (ledgerPages s.hw (uidOf
    s.hw)))) ∧
  (∀ (k : Fin 257) (s : State), fwRuns s.hw = true → k.val ≤ (ledgerPages s.hw (uidOf s.hw)).length → Completes
    (.ledgerWrite (some k)) s (fun t => t.mem = s.mem ∧ t.hw = s.hw ∧ t.nv.torn = some ((nextLedger s.hw).1, k.val)
    ∧ t.nv.flash = ledgerFlash s.nv.flash (nextLedger s.hw).1 (nextLedger s.hw).2 ((ledgerPages s.hw (uidOf
    s.hw)).take k)))

/-- O28. DRAM lines, refresh, temperature and training pauses. Channels as Table 8.1 supports them are enabled with their
capacity and ranks, all others disabled with DRAM_CONFIG. A line within two bytes of a codeword reads corrected and
counts where something was corrected; one further away reads as six poisoned words and counts; a whole line written
replaces it, and a part of one is merged into the line as its read outcome allows; an unserved channel reads poisoned
and discards writes, and one in a training pause, or entering self-refresh, issues nothing. A refresh takes the rate
asked for, and waits in a pause. A reading of the hottest die at the limit sets HOTLIM and asks for the rate of hot
memory; the third below it in succession ends HOTLIM and the policy; one above 85 °C asks for that rate, and one below
leaves a cool channel as it is. HOTPOL throttles or stops a hot channel. A due pause starts at once or after its
strobe, at grace expiry with DRAM_TRAIN_UNALIGNED; its end moves the delays, records the drift, adapts the interval
and serves what waited. Rests on the model's reading or choice in log entries 5, 46, 47, 48, 49, 182, 203. (R207,
R208, R211, R212, R215, R216, R217, R218, R219, R220) -/
def Obligations.DramControllersAct : Prop :=
  (∀ (chans : List DramChan) (s : State), s.hw.mode = .startUp → s.hw.clocked = true → dramSupported chans = true →
    Completes (.dramConfigCheck chans) s (fun t => t.mem = s.mem ∧ t.hw.dramGib = (chans.map (·.gib)).headD 0 ∧ ∀ c
    : Fin 4, isSet t.hw (aDC_CFG c) fDC_CFG_EN = true ∧ getF t.hw (aDC_CFG c) fDC_CFG_RANKS + 1 = (chans.map
    (·.ranks)).headD 0)) ∧
  (∀ (chans : List DramChan) (s : State), s.hw.mode = .startUp → s.hw.clocked = true → dramSupported chans = false →
    GivesHw (.dramConfigCheck chans) s (raiseAlarm (applyAll (fun h c => setF h (aDC_CFG c) fDC_CFG_EN 0) (withGib
    s.hw 0) (List.range 4)) 0x080 0xFF 0 0)) ∧
  (∀ (line : BitVec 30) (err : List (Fin 32 × Fin 16)) (xs : List Nat) (fixed : Bool) (s : State), frozen s.hw =
    false → lineByte line.toNat < dramEnd s.hw → chanHolds s.hw (lineChannel line.toNat) = false → chanServes s.hw
    (lineChannel line.toNat) = true → rsDecode (codewordOf s.mem line.toNat err) = some (xs, fixed) → GivesMem
    (.dramLineAccess line none err) s (writeBytes s.mem (lineByte line.toNat) (lineBytes xs), answerRead (if fixed
    then bump s.hw (aDC_ECC (lineChannel line.toNat)) fDC_ECC_CE 1 else s.hw) (lineBytes xs))) ∧
  (∀ (line : BitVec 30) (err : List (Fin 32 × Fin 16)) (s : State), frozen s.hw = false → lineByte line.toNat <
    dramEnd s.hw → chanHolds s.hw (lineChannel line.toNat) = false → chanServes s.hw (lineChannel line.toNat) = true
    → rsDecode (codewordOf s.mem line.toNat err) = none → GivesHw (.dramLineAccess line none err) s (answerRead
    (lineUncorrectable s.hw line.toNat) poisonLine)) ∧
  (∀ (line : BitVec 30) (err : List (Fin 32 × Fin 16)) (s : State), frozen s.hw = false → lineByte line.toNat <
    dramEnd s.hw → chanHolds s.hw (lineChannel line.toNat) = false → chanServes s.hw (lineChannel line.toNat) =
    false → GivesHw (.dramLineAccess line none err) s (answerRead (countDrops s.hw [line.toNat]) poisonLine)) ∧
  (∀ (line : BitVec 30) (bytes : List Byte) (err : List (Fin 32 × Fin 16)) (s : State), frozen s.hw = false →
    lineByte line.toNat < dramEnd s.hw → chanHolds s.hw (lineChannel line.toNat) = false → chanServes s.hw
    (lineChannel line.toNat) = true → bytes.length = 60 → GivesMem (.dramLineAccess line (some ⟨0, bytes⟩) err) s
    (writeBytes s.mem (lineByte line.toNat) bytes, s.hw)) ∧
  (∀ (line : BitVec 30) (first : Nat) (bytes : List Byte) (err : List (Fin 32 × Fin 16)) (xs : List Nat) (fixed :
    Bool) (s : State), frozen s.hw = false → lineByte line.toNat < dramEnd s.hw → chanHolds s.hw (lineChannel
    line.toNat) = false → chanServes s.hw (lineChannel line.toNat) = true → first + bytes.length ≤ 60 → 1 ≤
    bytes.length → bytes.length < 60 → rsDecode (codewordOf s.mem line.toNat err) = some (xs, fixed) → GivesMem
    (.dramLineAccess line (some ⟨first, bytes⟩) err) s (writeBytes (writeBytes s.mem (lineByte line.toNat)
    (lineBytes xs)) (lineByte line.toNat + first) bytes, if fixed then bump s.hw (aDC_ECC (lineChannel line.toNat))
    fDC_ECC_CE 1 else s.hw)) ∧
  (∀ (line : BitVec 30) (first : Nat) (bytes : List Byte) (err : List (Fin 32 × Fin 16)) (s : State), frozen s.hw =
    false → lineByte line.toNat < dramEnd s.hw → chanHolds s.hw (lineChannel line.toNat) = false → chanServes s.hw
    (lineChannel line.toNat) = true → first + bytes.length ≤ 60 → 1 ≤ bytes.length → bytes.length < 60 → rsDecode
    (codewordOf s.mem line.toNat err) = none → Completes (.dramLineAccess line (some ⟨first, bytes⟩) err) s (fun t
    => t.hw = bump s.hw (aDC_ECC (lineChannel line.toNat)) fDC_ECC_UE 1)) ∧
  (∀ (line : BitVec 30) (w : LineWrite) (err : List (Fin 32 × Fin 16)) (s : State), frozen s.hw = false → lineByte
    line.toNat < dramEnd s.hw → chanHolds s.hw (lineChannel line.toNat) = false → chanServes s.hw (lineChannel
    line.toNat) = false → GivesHw (.dramLineAccess line (some w) err) s (countDrops s.hw [line.toNat])) ∧
  (∀ (line : BitVec 30) (wr : Option LineWrite) (err : List (Fin 32 × Fin 16)) (s : State), chanHolds s.hw
    (lineChannel line.toNat) = true → GivesHw (.dramLineAccess line wr err) s s.hw) ∧
  (∀ (c : Fin 4) (s : State), chanLive s.hw c = true → (dramCh s.hw c).paused = false → GivesHw (.dramRefresh c) s
    (setF s.hw (aDC_STAT c) fDC_STAT_HOT2X (dramCh s.hw c).hotNext.toNat)) ∧
  (∀ (c : Fin 4) (s : State), chanLive s.hw c = true → (dramCh s.hw c).paused = true → GivesHw (.dramRefresh c) s
    (setDramCh s.hw c (refreshWaits (dramCh s.hw c)))) ∧
  (∀ (c : Fin 4) (rs : List (BitVec 8)) (v : BitVec 8) (s : State), chanLive s.hw c = true → hottest rs = some v →
    bandOf v = .limit → Completes (.mr4Read c rs) s (fun t => t.mem = s.mem ∧ isSet t.hw (aDC_STAT c)
    fDC_STAT_HOTLIM = true ∧ getF t.hw (aDC_STAT c) fDC_STAT_MR4 = v.toNat ∧ (dramCh t.hw c).hotNext = true ∧
    (dramCh t.hw c).inRangeRun = 0)) ∧
  (∀ (c : Fin 4) (rs : List (BitVec 8)) (v : BitVec 8) (s : State), chanLive s.hw c = true → hottest rs = some v →
    bandOf v ≠ .limit → isSet s.hw (aDC_STAT c) fDC_STAT_HOTLIM = true → (dramCh s.hw c).inRangeRun < 2 → GivesHw
    (.mr4Read c rs) s (setDramCh (setF s.hw (aDC_STAT c) fDC_STAT_MR4 v.toNat) c (stillHot (dramCh s.hw c)))) ∧
  (∀ (c : Fin 4) (rs : List (BitVec 8)) (v : BitVec 8) (s : State), chanLive s.hw c = true → hottest rs = some v →
    bandOf v ≠ .limit → isSet s.hw (aDC_STAT c) fDC_STAT_HOTLIM = true → 2 ≤ (dramCh s.hw c).inRangeRun → Completes
    (.mr4Read c rs) s (fun t => t.mem = s.mem ∧ isSet t.hw (aDC_STAT c) fDC_STAT_HOTLIM = false ∧ isSet t.hw
    (aDC_STAT c) fDC_STAT_THROT = false ∧ isSet t.hw (aDC_STAT c) fDC_STAT_STOPPED = false ∧ (dramCh t.hw c).hotNext
    = true ∧ (dramCh t.hw c).selfRefresh = false)) ∧
  (∀ (c : Fin 4) (rs : List (BitVec 8)) (v : BitVec 8) (s : State), chanLive s.hw c = true → hottest rs = some v →
    bandOf v = .hot → isSet s.hw (aDC_STAT c) fDC_STAT_HOTLIM = false → GivesHw (.mr4Read c rs) s (setDramCh (setF
    s.hw (aDC_STAT c) fDC_STAT_MR4 v.toNat) c (hotAsked (dramCh s.hw c)))) ∧
  (∀ (c : Fin 4) (rs : List (BitVec 8)) (v : BitVec 8) (s : State), chanLive s.hw c = true → hottest rs = some v →
    bandOf v = .normal → isSet s.hw (aDC_STAT c) fDC_STAT_HOTLIM = false → (dramCh s.hw c).hotNext = true → GivesHw
    (.mr4Read c rs) s (setDramCh (setF s.hw (aDC_STAT c) fDC_STAT_MR4 v.toNat) c (coolCounted (dramCh s.hw c)))) ∧
  (∀ (c : Fin 4) (rs : List (BitVec 8)) (v : BitVec 8) (s : State), chanLive s.hw c = true → hottest rs = some v →
    bandOf v = .normal → isSet s.hw (aDC_STAT c) fDC_STAT_HOTLIM = false → (dramCh s.hw c).hotNext = false → GivesHw
    (.mr4Read c rs) s (setF s.hw (aDC_STAT c) fDC_STAT_MR4 v.toNat)) ∧
  (∀ (rs : List (BitVec 8)) (v : BitVec 8), hottest rs = some v → v ∈ rs ∧ ∀ x ∈ rs, refreshRate x ≤ refreshRate v) ∧
  (∀ (c : Fin 4) (s : State), chanLive s.hw c = true → isSet s.hw (aDC_STAT c) fDC_STAT_HOTLIM = true → getF s.hw
    (aDC_CFG c) fDC_CFG_HOTPOL = 0 → GivesHw (.hotpolApply c) s (raiseBit s.hw (aDC_STAT c) fDC_STAT_THROT)) ∧
  (∀ (c : Fin 4) (s : State), chanLive s.hw c = true → isSet s.hw (aDC_STAT c) fDC_STAT_HOTLIM = true → getF s.hw
    (aDC_CFG c) fDC_CFG_HOTPOL ≠ 0 → GivesHw (.hotpolApply c) s (setDramCh (raiseBit s.hw (aDC_STAT c)
    fDC_STAT_STOPPED) c (inSelfRefresh (dramCh s.hw c)))) ∧
  (∀ (c : Fin 4) (s : State), isSet s.hw (aDC_STAT c) fDC_STAT_HOTLIM = false → GivesHw (.hotpolApply c) s s.hw) ∧
  (∀ (c : Fin 4) (s : State), chanLive s.hw c = true → (dramCh s.hw c).due = false → (dramCh s.hw c).paused = false
    → GivesHw (.trainingPauseDue c) s (setDramCh s.hw c (pauseIsDue (dramCh s.hw c)))) ∧
  (∀ (c : Fin 4) (s : State), chanLive s.hw c = true → (dramCh s.hw c).due = true → isSet s.hw (aDC_TRALIGN c)
    fDC_TRALIGN_EN = false ∨ (dramCh s.hw c).strobed = true → GivesHw (.trainingPauseStart c) s (bump (setDramCh
    s.hw c (pauseRuns (dramCh s.hw c))) (aDC_TRAIN c) fDC_TRAIN_PAUSECNT 1)) ∧
  (∀ (c : Fin 4) (s : State), isSet s.hw (aDC_TRALIGN c) fDC_TRALIGN_EN = true → (dramCh s.hw c).strobed = false →
    GivesHw (.trainingPauseStart c) s s.hw) ∧
  (∀ (c : Fin 4) (s : State), chanLive s.hw c = true → (dramCh s.hw c).due = true → isSet s.hw (aDC_TRALIGN c)
    fDC_TRALIGN_EN = true → (dramCh s.hw c).strobed = false → GivesHw (.graceExpiry c) s (raiseAlarm (bump (bump
    (setDramCh s.hw c (pauseRuns (dramCh s.hw c))) (aDC_TRAIN c) fDC_TRAIN_PAUSECNT 1) (aDC_TRAIN c)
    fDC_TRAIN_UNALCNT 1) 0x083 (dcRouter c) 0 c)) ∧
  (∀ (c : Fin 4) (drift : BitVec 8) (h : Hw) (s : State), (dramCh s.hw c).paused = true → frozen s.hw = false → h =
    (if (dramCh s.hw c).waiting = 0 then setDramCh s.hw c (pauseOver (dramCh s.hw c) drift) else setF (setDramCh
    s.hw c (pauseOver (dramCh s.hw c) drift)) (aDC_STAT c) fDC_STAT_HOT2X (dramCh s.hw c).hotNext.toNat) → GivesMem
    (.trainingPauseEnd c drift) s (serveWaiting s.mem (setF (setF h (aDC_TRAIN c) fDC_TRAIN_DRIFT drift.toNat)
    (aDC_TRAIN c) fDC_TRAIN_IVL (nextInterval (getF s.hw (aDC_TRAIN c) fDC_TRAIN_IVL) drift.toInt.natAbs)) c))

/-- O29. The RS(64,60) codeword, its bits on the pins, and the place of a line. Every line written with its four check
bytes is a codeword: its syndromes are 0. Bit b of byte k of the burst travels on pin k / 2 in beat 8 (k mod 2) + b.
Two lines of one device that share channel, rank, bank group, bank, row and column are one line. (R209, R210, R213) -/
def Obligations.LineCodeAndPlacementFollowTheSpec : Prop :=
  (∀ (dat : List Nat), dat.length = 60 → dat.all (fun x => x < 256) = true → syndromes (dat ++ rsCheck dat) = [0, 0,
    0, 0]) ∧
  (∀ (k : Nat) (b : Nat), k < 64 → b < 8 → burstBit (k / 2) (8 * (k % 2) + b) = (k, b)) ∧
  (∀ (two : Bool) (a : Fin 1073741824) (b : Fin 1073741824), linePlace two a = linePlace two b → a = b)

/-- O30. Walks, faults and invalidation of the translation unit. A walk faults with KIND 6 while EN = 0 or without DRAM, 1
where the base is no multiple of 10, 4 beyond 2^LOG2N entries and 3 where the table leaves the data space; the fault
of an entry it reads is its fault at that level, 6 of a disabled channel and 2 of an uncorrectable word among them. A
level-0 leaf maps its 2 MiB page and a level-1 leaf its 4 KiB page, faulting with 1 where its address is not aligned
and 3 where it leaves the data space; a table pointer leads to level 1 under the same checks. The first fault is
latched in TU_FAULT, every one counts and is logged. Every walk counts but one met by KIND 6 of the unit itself. A
completed walk serves the request that waits for it. TU_INV starts emptying the cache and its end clears BUSY. Rests
on the model's reading or choice in log entries 50, 169, 187. (R221, R222, R223, R224, R226, Table 8.8) -/
def Obligations.TranslationFollowsItsChecks : Prop :=
  (∀ (va : Nat) (es : List Ecc) (s : State), isSet s.hw aTU_CTL fTU_CTL_EN = false ∨ s.hw.dramGib = 0 → (walk s.mem
    s.hw va es) = (.fault 6 0, s.hw)) ∧
  (∀ (va : Nat) (es : List Ecc) (s : State), isSet s.hw aTU_CTL fTU_CTL_EN = true → s.hw.dramGib ≠ 0 → (getF s.hw
    aTU_ROOT fTU_ROOT_BASE) % 10 ≠ 0 → (walk s.mem s.hw va es) = (.fault 1 0, (bump s.hw aTU_STAT fTU_STAT_WALKCNT
    1))) ∧
  (∀ (va : Nat) (es : List Ecc) (s : State), isSet s.hw aTU_CTL fTU_CTL_EN = true → s.hw.dramGib ≠ 0 → (getF s.hw
    aTU_ROOT fTU_ROOT_BASE) % 10 = 0 → 2 ^ (getF s.hw aTU_ROOT fTU_ROOT_LOG2N) ≤ (va / 2 ^ 21 % 2 ^ 19) → (walk
    s.mem s.hw va es) = (.fault 4 0, (bump s.hw aTU_STAT fTU_STAT_WALKCNT 1))) ∧
  (∀ (va : Nat) (es : List Ecc) (s : State), isSet s.hw aTU_CTL fTU_CTL_EN = true → s.hw.dramGib ≠ 0 → (getF s.hw
    aTU_ROOT fTU_ROOT_BASE) % 10 = 0 → (va / 2 ^ 21 % 2 ^ 19) < 2 ^ (getF s.hw aTU_ROOT fTU_ROOT_LOG2N) → dramEnd
    s.hw < (getF s.hw aTU_ROOT fTU_ROOT_BASE) + 10 * 2 ^ (getF s.hw aTU_ROOT fTU_ROOT_LOG2N) → (walk s.mem s.hw va
    es) = (.fault 3 0, (bump s.hw aTU_STAT fTU_STAT_WALKCNT 1))) ∧
  (∀ (va : Nat) (es : List Ecc) (k : Nat) (s : State), isSet s.hw aTU_CTL fTU_CTL_EN = true → s.hw.dramGib ≠ 0 →
    (getF s.hw aTU_ROOT fTU_ROOT_BASE) % 10 = 0 → (va / 2 ^ 21 % 2 ^ 19) < 2 ^ (getF s.hw aTU_ROOT fTU_ROOT_LOG2N) →
    (getF s.hw aTU_ROOT fTU_ROOT_BASE) + 10 * 2 ^ (getF s.hw aTU_ROOT fTU_ROOT_LOG2N) ≤ dramEnd s.hw → (readEntry
    s.mem (bump s.hw aTU_STAT fTU_STAT_WALKCNT 1) ((getF s.hw aTU_ROOT fTU_ROOT_BASE) + 10 * (va / 2 ^ 21 % 2 ^ 19))
    (es.getD 0 .ok)).1 = .inl k → (walk s.mem s.hw va es) = (.fault k 0, (readEntry s.mem (bump s.hw aTU_STAT
    fTU_STAT_WALKCNT 1) ((getF s.hw aTU_ROOT fTU_ROOT_BASE) + 10 * (va / 2 ^ 21 % 2 ^ 19)) (es.getD 0 .ok)).2)) ∧
  (∀ (va : Nat) (es : List Ecc) (e : Nat) (s : State), isSet s.hw aTU_CTL fTU_CTL_EN = true → s.hw.dramGib ≠ 0 →
    (getF s.hw aTU_ROOT fTU_ROOT_BASE) % 10 = 0 → (va / 2 ^ 21 % 2 ^ 19) < 2 ^ (getF s.hw aTU_ROOT fTU_ROOT_LOG2N) →
    (getF s.hw aTU_ROOT fTU_ROOT_BASE) + 10 * 2 ^ (getF s.hw aTU_ROOT fTU_ROOT_LOG2N) ≤ dramEnd s.hw → (readEntry
    s.mem (bump s.hw aTU_STAT fTU_STAT_WALKCNT 1) ((getF s.hw aTU_ROOT fTU_ROOT_BASE) + 10 * (va / 2 ^ 21 % 2 ^ 19))
    (es.getD 0 .ok)).1 = .inr e → e.testBit 1 = true → e / 2 ^ 8 % 2 ^ 21 = 0 → e / 2 ^ 8 + 2 ^ 21 ≤ dramEnd s.hw →
    (walk s.mem s.hw va es) = (.page ⟨va / 2 ^ 21, true, e.testBit 2, e.testBit 3, e / 2 ^ 8⟩, (readEntry s.mem
    (bump s.hw aTU_STAT fTU_STAT_WALKCNT 1) ((getF s.hw aTU_ROOT fTU_ROOT_BASE) + 10 * (va / 2 ^ 21 % 2 ^ 19))
    (es.getD 0 .ok)).2)) ∧
  (∀ (va : Nat) (es : List Ecc) (e : Nat) (s : State), isSet s.hw aTU_CTL fTU_CTL_EN = true → s.hw.dramGib ≠ 0 →
    (getF s.hw aTU_ROOT fTU_ROOT_BASE) % 10 = 0 → (va / 2 ^ 21 % 2 ^ 19) < 2 ^ (getF s.hw aTU_ROOT fTU_ROOT_LOG2N) →
    (getF s.hw aTU_ROOT fTU_ROOT_BASE) + 10 * 2 ^ (getF s.hw aTU_ROOT fTU_ROOT_LOG2N) ≤ dramEnd s.hw → (readEntry
    s.mem (bump s.hw aTU_STAT fTU_STAT_WALKCNT 1) ((getF s.hw aTU_ROOT fTU_ROOT_BASE) + 10 * (va / 2 ^ 21 % 2 ^ 19))
    (es.getD 0 .ok)).1 = .inr e → e.testBit 1 = true → e / 2 ^ 8 % 2 ^ 21 ≠ 0 → (walk s.mem s.hw va es) = (.fault 1
    0, (readEntry s.mem (bump s.hw aTU_STAT fTU_STAT_WALKCNT 1) ((getF s.hw aTU_ROOT fTU_ROOT_BASE) + 10 * (va / 2 ^
    21 % 2 ^ 19)) (es.getD 0 .ok)).2)) ∧
  (∀ (va : Nat) (es : List Ecc) (e : Nat) (s : State), isSet s.hw aTU_CTL fTU_CTL_EN = true → s.hw.dramGib ≠ 0 →
    (getF s.hw aTU_ROOT fTU_ROOT_BASE) % 10 = 0 → (va / 2 ^ 21 % 2 ^ 19) < 2 ^ (getF s.hw aTU_ROOT fTU_ROOT_LOG2N) →
    (getF s.hw aTU_ROOT fTU_ROOT_BASE) + 10 * 2 ^ (getF s.hw aTU_ROOT fTU_ROOT_LOG2N) ≤ dramEnd s.hw → (readEntry
    s.mem (bump s.hw aTU_STAT fTU_STAT_WALKCNT 1) ((getF s.hw aTU_ROOT fTU_ROOT_BASE) + 10 * (va / 2 ^ 21 % 2 ^ 19))
    (es.getD 0 .ok)).1 = .inr e → e.testBit 1 = true → e / 2 ^ 8 % 2 ^ 21 = 0 → dramEnd s.hw < e / 2 ^ 8 + 2 ^ 21 →
    (walk s.mem s.hw va es) = (.fault 3 0, (readEntry s.mem (bump s.hw aTU_STAT fTU_STAT_WALKCNT 1) ((getF s.hw
    aTU_ROOT fTU_ROOT_BASE) + 10 * (va / 2 ^ 21 % 2 ^ 19)) (es.getD 0 .ok)).2)) ∧
  (∀ (va : Nat) (es : List Ecc) (e : Nat) (s : State), isSet s.hw aTU_CTL fTU_CTL_EN = true → s.hw.dramGib ≠ 0 →
    (getF s.hw aTU_ROOT fTU_ROOT_BASE) % 10 = 0 → (va / 2 ^ 21 % 2 ^ 19) < 2 ^ (getF s.hw aTU_ROOT fTU_ROOT_LOG2N) →
    (getF s.hw aTU_ROOT fTU_ROOT_BASE) + 10 * 2 ^ (getF s.hw aTU_ROOT fTU_ROOT_LOG2N) ≤ dramEnd s.hw → (readEntry
    s.mem (bump s.hw aTU_STAT fTU_STAT_WALKCNT 1) ((getF s.hw aTU_ROOT fTU_ROOT_BASE) + 10 * (va / 2 ^ 21 % 2 ^ 19))
    (es.getD 0 .ok)).1 = .inr e → e.testBit 1 = false → e / 2 ^ 8 % 10 ≠ 0 → (walk s.mem s.hw va es) = (.fault 1 0,
    (readEntry s.mem (bump s.hw aTU_STAT fTU_STAT_WALKCNT 1) ((getF s.hw aTU_ROOT fTU_ROOT_BASE) + 10 * (va / 2 ^ 21
    % 2 ^ 19)) (es.getD 0 .ok)).2)) ∧
  (∀ (va : Nat) (es : List Ecc) (e : Nat) (s : State), isSet s.hw aTU_CTL fTU_CTL_EN = true → s.hw.dramGib ≠ 0 →
    (getF s.hw aTU_ROOT fTU_ROOT_BASE) % 10 = 0 → (va / 2 ^ 21 % 2 ^ 19) < 2 ^ (getF s.hw aTU_ROOT fTU_ROOT_LOG2N) →
    (getF s.hw aTU_ROOT fTU_ROOT_BASE) + 10 * 2 ^ (getF s.hw aTU_ROOT fTU_ROOT_LOG2N) ≤ dramEnd s.hw → (readEntry
    s.mem (bump s.hw aTU_STAT fTU_STAT_WALKCNT 1) ((getF s.hw aTU_ROOT fTU_ROOT_BASE) + 10 * (va / 2 ^ 21 % 2 ^ 19))
    (es.getD 0 .ok)).1 = .inr e → e.testBit 1 = false → e / 2 ^ 8 % 10 = 0 → dramEnd s.hw < e / 2 ^ 8 + 5120 → (walk
    s.mem s.hw va es) = (.fault 3 0, (readEntry s.mem (bump s.hw aTU_STAT fTU_STAT_WALKCNT 1) ((getF s.hw aTU_ROOT
    fTU_ROOT_BASE) + 10 * (va / 2 ^ 21 % 2 ^ 19)) (es.getD 0 .ok)).2)) ∧
  (∀ (va : Nat) (es : List Ecc) (e : Nat) (k : Nat) (s : State), isSet s.hw aTU_CTL fTU_CTL_EN = true → s.hw.dramGib
    ≠ 0 → (getF s.hw aTU_ROOT fTU_ROOT_BASE) % 10 = 0 → (va / 2 ^ 21 % 2 ^ 19) < 2 ^ (getF s.hw aTU_ROOT
    fTU_ROOT_LOG2N) → (getF s.hw aTU_ROOT fTU_ROOT_BASE) + 10 * 2 ^ (getF s.hw aTU_ROOT fTU_ROOT_LOG2N) ≤ dramEnd
    s.hw → (readEntry s.mem (bump s.hw aTU_STAT fTU_STAT_WALKCNT 1) ((getF s.hw aTU_ROOT fTU_ROOT_BASE) + 10 * (va /
    2 ^ 21 % 2 ^ 19)) (es.getD 0 .ok)).1 = .inr e → e.testBit 1 = false → e / 2 ^ 8 % 10 = 0 → e / 2 ^ 8 + 5120 ≤
    dramEnd s.hw → (readEntry s.mem (readEntry s.mem (bump s.hw aTU_STAT fTU_STAT_WALKCNT 1) ((getF s.hw aTU_ROOT
    fTU_ROOT_BASE) + 10 * (va / 2 ^ 21 % 2 ^ 19)) (es.getD 0 .ok)).2 (e / 2 ^ 8 + 10 * (va / 2 ^ 12 % 512)) (es.getD
    1 .ok)).1 = .inl k → (walk s.mem s.hw va es) = (.fault k 1, (readEntry s.mem (readEntry s.mem (bump s.hw
    aTU_STAT fTU_STAT_WALKCNT 1) ((getF s.hw aTU_ROOT fTU_ROOT_BASE) + 10 * (va / 2 ^ 21 % 2 ^ 19)) (es.getD 0
    .ok)).2 (e / 2 ^ 8 + 10 * (va / 2 ^ 12 % 512)) (es.getD 1 .ok)).2)) ∧
  (∀ (va : Nat) (es : List Ecc) (e : Nat) (e2 : Nat) (s : State), isSet s.hw aTU_CTL fTU_CTL_EN = true →
    s.hw.dramGib ≠ 0 → (getF s.hw aTU_ROOT fTU_ROOT_BASE) % 10 = 0 → (va / 2 ^ 21 % 2 ^ 19) < 2 ^ (getF s.hw
    aTU_ROOT fTU_ROOT_LOG2N) → (getF s.hw aTU_ROOT fTU_ROOT_BASE) + 10 * 2 ^ (getF s.hw aTU_ROOT fTU_ROOT_LOG2N) ≤
    dramEnd s.hw → (readEntry s.mem (bump s.hw aTU_STAT fTU_STAT_WALKCNT 1) ((getF s.hw aTU_ROOT fTU_ROOT_BASE) + 10
    * (va / 2 ^ 21 % 2 ^ 19)) (es.getD 0 .ok)).1 = .inr e → e.testBit 1 = false → e / 2 ^ 8 % 10 = 0 → e / 2 ^ 8 +
    5120 ≤ dramEnd s.hw → (readEntry s.mem (readEntry s.mem (bump s.hw aTU_STAT fTU_STAT_WALKCNT 1) ((getF s.hw
    aTU_ROOT fTU_ROOT_BASE) + 10 * (va / 2 ^ 21 % 2 ^ 19)) (es.getD 0 .ok)).2 (e / 2 ^ 8 + 10 * (va / 2 ^ 12 % 512))
    (es.getD 1 .ok)).1 = .inr e2 → e2.testBit 1 = false ∨ e2 / 2 ^ 8 % 2 ^ 12 ≠ 0 → (walk s.mem s.hw va es) =
    (.fault 1 1, (readEntry s.mem (readEntry s.mem (bump s.hw aTU_STAT fTU_STAT_WALKCNT 1) ((getF s.hw aTU_ROOT
    fTU_ROOT_BASE) + 10 * (va / 2 ^ 21 % 2 ^ 19)) (es.getD 0 .ok)).2 (e / 2 ^ 8 + 10 * (va / 2 ^ 12 % 512)) (es.getD
    1 .ok)).2)) ∧
  (∀ (va : Nat) (es : List Ecc) (e : Nat) (e2 : Nat) (s : State), isSet s.hw aTU_CTL fTU_CTL_EN = true →
    s.hw.dramGib ≠ 0 → (getF s.hw aTU_ROOT fTU_ROOT_BASE) % 10 = 0 → (va / 2 ^ 21 % 2 ^ 19) < 2 ^ (getF s.hw
    aTU_ROOT fTU_ROOT_LOG2N) → (getF s.hw aTU_ROOT fTU_ROOT_BASE) + 10 * 2 ^ (getF s.hw aTU_ROOT fTU_ROOT_LOG2N) ≤
    dramEnd s.hw → (readEntry s.mem (bump s.hw aTU_STAT fTU_STAT_WALKCNT 1) ((getF s.hw aTU_ROOT fTU_ROOT_BASE) + 10
    * (va / 2 ^ 21 % 2 ^ 19)) (es.getD 0 .ok)).1 = .inr e → e.testBit 1 = false → e / 2 ^ 8 % 10 = 0 → e / 2 ^ 8 +
    5120 ≤ dramEnd s.hw → (readEntry s.mem (readEntry s.mem (bump s.hw aTU_STAT fTU_STAT_WALKCNT 1) ((getF s.hw
    aTU_ROOT fTU_ROOT_BASE) + 10 * (va / 2 ^ 21 % 2 ^ 19)) (es.getD 0 .ok)).2 (e / 2 ^ 8 + 10 * (va / 2 ^ 12 % 512))
    (es.getD 1 .ok)).1 = .inr e2 → e2.testBit 1 = true → e2 / 2 ^ 8 % 2 ^ 12 = 0 → dramEnd s.hw < e2 / 2 ^ 8 + 2 ^
    12 → (walk s.mem s.hw va es) = (.fault 3 1, (readEntry s.mem (readEntry s.mem (bump s.hw aTU_STAT
    fTU_STAT_WALKCNT 1) ((getF s.hw aTU_ROOT fTU_ROOT_BASE) + 10 * (va / 2 ^ 21 % 2 ^ 19)) (es.getD 0 .ok)).2 (e / 2
    ^ 8 + 10 * (va / 2 ^ 12 % 512)) (es.getD 1 .ok)).2)) ∧
  (∀ (va : Nat) (es : List Ecc) (e : Nat) (e2 : Nat) (s : State), isSet s.hw aTU_CTL fTU_CTL_EN = true →
    s.hw.dramGib ≠ 0 → (getF s.hw aTU_ROOT fTU_ROOT_BASE) % 10 = 0 → (va / 2 ^ 21 % 2 ^ 19) < 2 ^ (getF s.hw
    aTU_ROOT fTU_ROOT_LOG2N) → (getF s.hw aTU_ROOT fTU_ROOT_BASE) + 10 * 2 ^ (getF s.hw aTU_ROOT fTU_ROOT_LOG2N) ≤
    dramEnd s.hw → (readEntry s.mem (bump s.hw aTU_STAT fTU_STAT_WALKCNT 1) ((getF s.hw aTU_ROOT fTU_ROOT_BASE) + 10
    * (va / 2 ^ 21 % 2 ^ 19)) (es.getD 0 .ok)).1 = .inr e → e.testBit 1 = false → e / 2 ^ 8 % 10 = 0 → e / 2 ^ 8 +
    5120 ≤ dramEnd s.hw → (readEntry s.mem (readEntry s.mem (bump s.hw aTU_STAT fTU_STAT_WALKCNT 1) ((getF s.hw
    aTU_ROOT fTU_ROOT_BASE) + 10 * (va / 2 ^ 21 % 2 ^ 19)) (es.getD 0 .ok)).2 (e / 2 ^ 8 + 10 * (va / 2 ^ 12 % 512))
    (es.getD 1 .ok)).1 = .inr e2 → e2.testBit 1 = true → e2 / 2 ^ 8 % 2 ^ 12 = 0 → e2 / 2 ^ 8 + 2 ^ 12 ≤ dramEnd
    s.hw → (walk s.mem s.hw va es) = (.page ⟨va / 2 ^ 12, false, e2.testBit 2, e2.testBit 3, e2 / 2 ^ 8⟩, (readEntry
    s.mem (readEntry s.mem (bump s.hw aTU_STAT fTU_STAT_WALKCNT 1) ((getF s.hw aTU_ROOT fTU_ROOT_BASE) + 10 * (va /
    2 ^ 21 % 2 ^ 19)) (es.getD 0 .ok)).2 (e / 2 ^ 8 + 10 * (va / 2 ^ 12 % 512)) (es.getD 1 .ok)).2)) ∧
  (∀ (a : Nat) (e : Ecc) (s : State), isSet s.hw (aDC_CFG (lineChannel (a / 60))) fDC_CFG_EN = false → readEntry
    s.mem s.hw a e = (.inl 6, countDrops s.hw [a / 60])) ∧
  (∀ (a : Nat) (s : State), isSet s.hw (aDC_CFG (lineChannel (a / 60))) fDC_CFG_EN = true → a % 10 = 0 → (readEntry
    s.mem s.hw a .uncorrectable).1 = .inl 2) ∧
  (∀ (va : Nat) (kind : Nat) (level : Nat) (wr : Bool) (src : Nat) (s : State), getF s.hw aTU_FAULT fTU_FAULT_KIND =
    0 → xlatFault s.hw va kind level wr src = postFinding (bump (setReg s.hw aTU_FAULT (BitVec.ofNat 64 (va % 2 ^ 40
    + kind * 2 ^ 40 + level * 2 ^ 43 + wr.toNat * 2 ^ 44 + src * 2 ^ 48))) aTU_STAT fTU_STAT_FLTCNT 1) 0x0003 0x084
    src va kind) ∧
  (∀ (va : Nat) (kind : Nat) (level : Nat) (wr : Bool) (src : Nat) (s : State), getF s.hw aTU_FAULT fTU_FAULT_KIND ≠
    0 → xlatFault s.hw va kind level wr src = postFinding (bump s.hw aTU_STAT fTU_STAT_FLTCNT 1) 0x0003 0x084 src va
    kind) ∧
  (∀ (va : BitVec 40) (wr : Bool) (src : Fin 40) (len : Nat) (es : List Ecc) (s : State), frozen s.hw = false → (∀ r
    ∈ s.hw.noc.walks, awaits r va wr src = false) → GivesHw (.translationWalk va wr src len es) s (translate s.mem
    s.hw false va.toNat len wr src es).2) ∧
  (∀ (va : BitVec 40) (wr : Bool) (src : Fin 40) (len : Nat) (es : List Ecc) (r : DmaReq) (q : List DmaReq) (s :
    State), frozen s.hw = false → s.hw.noc.walks = r :: q → awaits r va wr src = true → GivesHw (.translationWalk va
    wr src len es) s (serveXlat s.mem (withWalks s.hw q) false r.kind r.f es)) ∧
  (∀ (s : State), Up s → GivesHw .tuInv s (setF s.hw aTU_INV fTU_INV_BUSY 1)) ∧
  (∀ (s : State), isSet s.hw aTU_INV fTU_INV_BUSY = true → frozen s.hw = false → GivesHw .invalidationComplete s
    (setF (cacheEmptied s.hw) aTU_INV fTU_INV_BUSY 0))

/-- O31. Requests at their destinations on the network. A request packet that is the next on the network from its source,
and whose flits all pass their checks, is served. At a DRAM controller that is open, a request for words of its
channel is read or written with status OK; a restricted requester is refused FAULT and logged, an address that does
not fit, or staging, is refused FAULT; while the channel pauses or the controller is in reset the request is held. At
a yard that takes requests, a trough request on the network's side waits in the pen's trough queue, on another side it
is refused with DISOP, and a window request waits at its memory; at a yard that sleeps every request waits for a wake.
The translation unit translates at once what it holds and queues a walk else. An operation that the endpoint does not
take is refused, and a closed crossing refuses every request. Register requests read or write the register, or are
refused. At a lead router a request with a route flit waits for its chain credits. A packet of which something is
missing has only what its checks do. Routes run along the row and then the column; a router corrects or discards a
flit by its header check; a flit whose CRC fails is NACKed, and a second time answered POISON. Rests on the model's
reading or choice in log entries 52, 53, 186, 188, 203. (R20, R32, R176, R211, R212, R221, R230, R231, R236, R237,
R238, R240) -/
def Obligations.RequestsArriveAndAreServed : Prop :=
  (∀ (op : Fin 12) (f : Flit) (p : Passage) (es : List Ecc) (c : Nat) (s : State), Arrives s op f p → endpointOf
    f.dst = .dc c → acceptsOp (.dc c) op = true → DramOpen (arrived s op f p) c → restrictedReq (arrived s op f p) f
    = false → SpanFits (arrived s op f p) c op f → isRead op = true → GivesHw (requestOf op f p es) s (respond
    (dramRead s.mem (arrived s op f p) (dramSpan op f).1 (dramSpan op f).2 es).2 op f 0 (wordsOfBytes (wordsAsked op
    f) (dramRead s.mem (arrived s op f p) (dramSpan op f).1 (dramSpan op f).2 es).1))) ∧
  (∀ (op : Fin 12) (f : Flit) (p : Passage) (es : List Ecc) (c : Nat) (s : State), Arrives s op f p → endpointOf
    f.dst = .dc c → acceptsOp (.dc c) op = true → DramOpen (arrived s op f p) c → restrictedReq (arrived s op f p) f
    = false → SpanFits (arrived s op f p) c op f → isRead op = false → f.src = 38 ∨ hitsStaging (arrived s op f p)
    (dramSpan op f).1 (dramSpan op f).2 = false → GivesMem (requestOf op f p es) s ((dramMask s.mem (arrived s op f
    p) (linesOf (dramSpan op f).1 (dramSpan op f).2) (if op = 2 then maskedBytes f else placeBytes (dramSpan op f).1
    (bytesOfWords (f.words.take (wordsAsked op f)))) es).1, respond (dramMask s.mem (arrived s op f p) (linesOf
    (dramSpan op f).1 (dramSpan op f).2) (if op = 2 then maskedBytes f else placeBytes (dramSpan op f).1
    (bytesOfWords (f.words.take (wordsAsked op f)))) es).2 op f 0 [])) ∧
  (∀ (op : Fin 12) (f : Flit) (p : Passage) (es : List Ecc) (c : Nat) (s : State), Arrives s op f p → endpointOf
    f.dst = .dc c → acceptsOp (.dc c) op = true → DramOpen (arrived s op f p) c → restrictedReq (arrived s op f p) f
    = true → GivesHw (requestOf op f p es) s (refuseReq (postFinding (arrived s op f p) 0x0003 0x084 f.src
    f.addr.toNat 3) op f 1)) ∧
  (∀ (op : Fin 12) (f : Flit) (p : Passage) (es : List Ecc) (c : Nat) (s : State), Arrives s op f p → endpointOf
    f.dst = .dc c → acceptsOp (.dc c) op = true → DramOpen (arrived s op f p) c → restrictedReq (arrived s op f p) f
    = false → ¬ SpanFits (arrived s op f p) c op f ∨ (isRead op = false ∧ f.src ≠ 38 ∧ hitsStaging (arrived s op f
    p) (dramSpan op f).1 (dramSpan op f).2 = true) → GivesHw (requestOf op f p es) s (refuseReq (arrived s op f p)
    op f 1)) ∧
  (∀ (op : Fin 12) (f : Flit) (p : Passage) (es : List Ecc) (c : Nat) (s : State), Arrives s op f p → endpointOf
    f.dst = .dc c → acceptsOp (.dc c) op = true → ¬ DramOpen (arrived s op f p) c → GivesHw (requestOf op f p es) s
    (heldAt (arrived s op f p) c op f es)) ∧
  (∀ (op : Fin 12) (f : Flit) (p : Passage) (es : List Ecc) (y : Nat) (s : State), Arrives s op f p → endpointOf
    f.dst = .yard y → yardTakes (arrived s op f p) y = true → 3 ≤ op ∧ op ≤ 7 → f.addr.toNat < 64 → netSide (arrived
    s op f p) (troughKey y f) op = true → GivesHw (requestOf op f p es) s (troughQueued (arrived s op f p)
    ((troughKey y f) / 8) (DmaReq.of op f))) ∧
  (∀ (op : Fin 12) (f : Flit) (p : Passage) (es : List Ecc) (y : Nat) (s : State), Arrives s op f p → endpointOf
    f.dst = .yard y → yardTakes (arrived s op f p) y = true → 3 ≤ op ∧ op ≤ 7 → f.addr.toNat < 64 → netSide (arrived
    s op f p) (troughKey y f) op = false → GivesHw (requestOf op f p es) s (refuseReq (raiseBit (arrived s op f p)
    (aTst (troughKey y f)) fTRG_STAT_DISOP) op f 1)) ∧
  (∀ (op : Fin 12) (f : Flit) (p : Passage) (es : List Ecc) (y : Nat) (s : State), Arrives s op f p → endpointOf
    f.dst = .yard y → yardTakes (arrived s op f p) y = true → 3 ≤ op ∧ op ≤ 7 → 64 ≤ f.addr.toNat → GivesHw
    (requestOf op f p es) s (refuseReq (arrived s op f p) op f 1)) ∧
  (∀ (op : Fin 12) (f : Flit) (p : Passage) (es : List Ecc) (y : Nat) (mem : Nat) (s : State), Arrives s op f p →
    endpointOf f.dst = .yard y → yardTakes (arrived s op f p) y = true → op < 3 ∨ 9 < op → windowMem op f = some mem
    → slotYard mem = y → GivesHw (requestOf op f p es) s (windowQueued (arrived s op f p) mem (DmaReq.of op f))) ∧
  (∀ (op : Fin 12) (f : Flit) (p : Passage) (es : List Ecc) (y : Nat) (s : State), Arrives s op f p → endpointOf
    f.dst = .yard y → yardTakes (arrived s op f p) y = true → op < 3 ∨ 9 < op → (windowMem op f).map slotYard ≠ some
    y → GivesHw (requestOf op f p es) s (refuseLogged (arrived s op f p) op f)) ∧
  (∀ (op : Fin 12) (f : Flit) (p : Passage) (es : List Ecc) (y : Nat) (s : State), Arrives s op f p → endpointOf
    f.dst = .yard y → ¬ yardTakes (arrived s op f p) y = true → ¬ (op = 8 ∨ op = 9) ∨ behindQuarantine (arrived s op
    f p) f.addr.toNat = false → GivesHw (requestOf op f p es) s (waitForWake (arrived s op f p) y op f)) ∧
  (∀ (op : Fin 12) (f : Flit) (p : Passage) (es : List Ecc) (s : State), Arrives s op f p → endpointOf f.dst = .tu →
    acceptsOp .tu op = true → f.addr.toNat % 10 = 0 → cached (arrived s op f p) f.addr.toNat (10 * wordsAsked op f)
    = false → GivesHw (requestOf op f p es) s (withWalks (arrived s op f p) ((arrived s op f p).noc.walks ++
    [DmaReq.of op f]))) ∧
  (∀ (op : Fin 12) (f : Flit) (p : Passage) (es : List Ecc) (s : State), Arrives s op f p → endpointOf f.dst = .tu →
    acceptsOp .tu op = true → f.addr.toNat % 10 = 0 → cached (arrived s op f p) f.addr.toNat (10 * wordsAsked op f)
    = true → GivesHw (requestOf op f p es) s (serveXlat s.mem (arrived s op f p) true op f [])) ∧
  (∀ (op : Fin 12) (f : Flit) (p : Passage) (es : List Ecc) (s : State), Arrives s op f p → endpointOf f.dst = .tu →
    acceptsOp .tu op = true → f.addr.toNat % 10 ≠ 0 → GivesHw (requestOf op f p es) s (refuseLogged (arrived s op f
    p) op f)) ∧
  (∀ (op : Fin 12) (f : Flit) (p : Passage) (es : List Ecc) (s : State), Arrives s op f p → ¬ (op = 8 ∨ op = 9) →
    acceptsOp (endpointOf f.dst) op = false → GivesHw (requestOf op f p es) s (refuse (arrived s op f p) op f)) ∧
  (∀ (op : Fin 12) (f : Flit) (p : Passage) (es : List Ecc) (s : State), (arrivePacket s.hw op f p).1.isSome = true
    → quarantinedAt (arrived s op f p) f.dst = true → GivesHw (requestOf op f p es) s (refuseClosed (arrived s op f
    p) op f)) ∧
  (∀ (op : Fin 12) (f : Flit) (p : Passage) (es : List Ecc) (s : State), Arrives s op f p → op = 8 → takesRegs
    (arrived s op f p) f = true → restrictedReq (arrived s op f p) f = false → f.addr.toNat < bar0Base →
    f.addr.toNat % 8 = 0 → regExists f.addr.toNat = true → f.addr.toNat < 0x1004000000 ∨ 0x1004400000 ≤ f.addr.toNat
    → GivesHw (requestOf op f p es) s (respond (readReg (arrived s op f p) f.addr.toNat).2 8 f 0 [TW.data ((readReg
    (arrived s op f p) f.addr.toNat).1.setWidth 72)])) ∧
  (∀ (op : Fin 12) (f : Flit) (p : Passage) (es : List Ecc) (s : State), Arrives s op f p → op = 9 → takesRegs
    (arrived s op f p) f = true → restrictedReq (arrived s op f p) f = false → f.addr.toNat < bar0Base →
    f.addr.toNat % (if f.cnt = 0 then 8 else 4) = 0 → regExists (f.addr.toNat / 8 * 8) = true → GivesMem (requestOf
    op f p es) s ((writeWide s.mem (arrived s op f p) f.addr.toNat (decide (f.cnt = 0)) (((f.words.headD
    TW.notValid).d).setWidth 64)).1, respond (writeWide s.mem (arrived s op f p) f.addr.toNat (decide (f.cnt = 0))
    (((f.words.headD TW.notValid).d).setWidth 64)).2 9 f 0 [])) ∧
  (∀ (op : Fin 12) (f : Flit) (p : Passage) (es : List Ecc) (s : State), Arrives s op f p → op = 8 ∨ op = 9 →
    takesRegs (arrived s op f p) f = true → restrictedReq (arrived s op f p) f = true ∨ bar0Base ≤ f.addr.toNat ∨
    f.addr.toNat % (if op = 9 ∧ f.cnt ≠ 0 then 4 else 8) ≠ 0 → GivesHw (requestOf op f p es) s (refuseLogged
    (arrived s op f p) op f)) ∧
  (∀ (op : Fin 12) (f : Flit) (p : Passage) (es : List Ecc) (s : State), Arrives s op f p → op = 8 ∨ op = 9 →
    takesRegs (arrived s op f p) f = true → regExists (f.addr.toNat / 8 * 8) = false → f.addr.toNat < 0x1004000000 ∨
    0x1004400000 ≤ f.addr.toNat → GivesHw (requestOf op f p es) s (refuseLogged (arrived s op f p) op f)) ∧
  (∀ (op : Fin 12) (f : Flit) (p : Passage) (es : List Ecc) (s : State), Arrives s op f p → op = 8 → f.dst = 25 →
    takesRegs (arrived s op f p) f = true → restrictedReq (arrived s op f p) f = false → f.addr.toNat % 8 = 0 →
    0x1004000000 ≤ f.addr.toNat → f.addr.toNat < 0x1004400000 → GivesHw (requestOf op f p es) s (respond (arrived s
    op f p) 8 f 0 [TW.data (BitVec.ofNat 72 (leNat (readBytes s.mem f.addr.toNat 8)))])) ∧
  (∀ (op : Fin 12) (f : Flit) (p : Passage) (es : List Ecc) (r : RouteFlit) (k : Nat) (s : State), (arrivePacket
    s.hw op f p).1.isSome = true → f.route = some r → endpointOf f.dst = .lead k → quarantinedAt (arrived s op f p)
    f.dst = false → GivesHw (requestOf op f p es) s (retryLeads (withLeads (arrived s op f p) ((arrived s op f
    p).noc.leads ++ [DmaReq.of op f])))) ∧
  (∀ (op : Fin 12) (f : Flit) (p : Passage) (es : List Ecc) (s : State), (arrivePacket s.hw op f p).1 = none →
    GivesHw (requestOf op f p es) s (arrived s op f p)) ∧
  (∀ (h : Hw) (op : Nat) (f : Flit) (w : NocFly) (g : Hw), takeWire h op f = some (w, g) → h.noc.wire.find? (fun x
    => x.req.f.src == f.src && x.req.f.dst == f.dst) = some w ∧ w.req.op = op ∧ w.req.f = f ∧ g.noc.wire =
    h.noc.wire.erase w) ∧
  (∀ (w : List Nat) (a : Nat) (b : Nat) (op : Nat) (h : Hw) (x : Hop), w.contains x.router.val = true → x.chk =
    .uncorrectable → hopCheck w a b op (true, h) x = (false, raiseAlarm (raiseBit h (aNR_STAT x.router)
    fNR_STAT_HDRUE) 0x0C0 x.router 0 (op + 16 * a + 1024 * b))) ∧
  (∀ (w : List Nat) (a : Nat) (b : Nat) (op : Nat) (h : Hw) (x : Hop), w.contains x.router.val = true → x.chk =
    .corrected → hopCheck w a b op (true, h) x = (true, bump h (aNR_STAT x.router) fNR_STAT_HDRCE 1)) ∧
  (∀ (a : Fin 40) (b : Fin 40), (routeOf a b).head? = some a.val ∧ (routeOf a b).getLast? = some b.val ∧ (routeOf a
    b).length ≤ 12 ∧ (∀ r ∈ routeOf a b, r < 40) ∧ (routeOf a b).length = (max (a.val % 8) (b.val % 8) - min (a.val
    % 8) (b.val % 8)) + (max (a.val / 8) (b.val / 8) - min (a.val / 8) (b.val / 8)) + 1) ∧
  (∀ (bad : BitVec 8) (q : NocReq) (h : Hw) (j : Nat) (o : NocOut) (i : Nat), outAt h q.f.src ((q.f.rb.toNat + j) %
    32) = some (o, i) → o.cred ≠ 0 → awaited h q.f.dst q.f.src = [] → bad.getLsbD j = true → checkFlit bad q h j =
    sendNack (bump (setAwaited h q.f.dst q.f.src [(q.f.rb.toNat + j) % 32]) (aNR_STAT q.f.dst) fNR_STAT_CRCCNT 1)
    q.f ((q.f.rb.toNat + j) % 32)) ∧
  (∀ (bad : BitVec 8) (q : NocReq) (h : Hw) (j : Nat) (o : NocOut) (i : Nat), outAt h q.f.src ((q.f.rb.toNat + j) %
    32) = some (o, i) → o.cred ≠ 0 → awaited h q.f.dst q.f.src = [(q.f.rb.toNat + j) % 32] → bad.getLsbD j = true →
    checkFlit bad q h j = refuseReq (poisonedAt (bump (setAwaited h q.f.dst q.f.src []) (aNR_STAT q.f.dst)
    fNR_STAT_CRCCNT 1) q.f.dst q.f.addr.toNat) q.op q.f 2)

/-- O32. Sending requests and receiving RDATA, ACK and NACK. A requester with no pool at the destination completes at once
as FAULT with NOCRED. Where no request that must go first waits, and the credits and response buffers are held, a
request leaves; else it waits in its requester's queue, once. A push of a JESD link that ends a block raises the
link's event. The flit of an answer completes its request when it is the last awaited, with the status and words of
all; a flit whose CRC fails is asked for once more, and delivered with P set, counted once for its answer, when it
fails again or answers a PULL. An ACK frees the entry of its request, with a failing CRC too, which counts. A NACK
makes the requester send the flit again. A flit lost on its way has only its header check's effect. When a wake
completes, the yard runs, and what waited for it is served in arrival order. Rests on the model's reading or choice in
log entries 53, 55, 183, 184, 196. (R231, R233, R234, R235, R237, R238, R239, R240, R405) -/
def Obligations.RequestersSendAndTakeAnswers : Prop :=
  (∀ (op : BitVec 4) (f : Flit) (s : State), frozen s.hw = false → op.toNat < 0xC → pushHeld s.hw op.toNat f = false
    → poolOf s.hw f.dst f.src = 0 → GivesHw (.nocRequestSend op f) s (answeredFor (noCredit s.hw op.toNat f)
    (takeQueued s.hw op.toNat f).2.1 1 (noCredit s.hw op.toNat f).noc.words)) ∧
  (∀ (op : BitVec 4) (f : Flit) (s : State), (noCredit s.hw op.toNat f).noc.status = 1 ∧ isSet (noCredit s.hw
    op.toNat f) (aNR_STAT f.src) fNR_STAT_NOCRED = true ∧ (noCredit s.hw op.toNat f).noc.words = if isRead op.toNat
    = true then List.replicate (wordsAsked op.toNat f) TW.refusedWord else []) ∧
  (∀ (op : BitVec 4) (f : Flit) (s : State), frozen s.hw = false → op.toNat < 0xC → pushHeld s.hw op.toNat f = false
    → poolOf s.hw f.dst f.src ≠ 0 → mayPass s.hw (takeQueued s.hw op.toNat f).1 (takeQueued s.hw op.toNat f).2.1 =
    true → holdsRoom s.hw (takeQueued s.hw op.toNat f).2.1 = true → op ≠ 3 ∨ f.words.any (fun w => w.l) = false →
    GivesHw (.nocRequestSend op f) s (launchReq (setQueue s.hw f.src ((takeQueued s.hw op.toNat f).1 ++ (takeQueued
    s.hw op.toNat f).2.2)) (takeQueued s.hw op.toNat f).2.1)) ∧
  (∀ (op : BitVec 4) (f : Flit) (j : Nat) (s : State), frozen s.hw = false → op.toNat < 0xC → pushHeld s.hw op.toNat
    f = false → poolOf s.hw f.dst f.src ≠ 0 → mayPass s.hw (takeQueued s.hw op.toNat f).1 (takeQueued s.hw op.toNat
    f).2.1 = true → holdsRoom s.hw (takeQueued s.hw op.toNat f).2.1 = true → endpointOf f.src = .jesd j →
    (takeQueued s.hw op.toNat f).2.1.origin ≠ .again → op = 3 → f.words.any (fun w => w.l) = true → GivesHw
    (.nocRequestSend op f) s (raiseEventAll (launchReq (setQueue s.hw f.src ((takeQueued s.hw op.toNat f).1 ++
    (takeQueued s.hw op.toNat f).2.2)) (takeQueued s.hw op.toNat f).2.1) (0xC2 + 4 * j))) ∧
  (∀ (op : BitVec 4) (f : Flit) (s : State), frozen s.hw = false → op.toNat < 0xC → pushHeld s.hw op.toNat f = false
    → poolOf s.hw f.dst f.src ≠ 0 → mayPass s.hw (takeQueued s.hw op.toNat f).1 (takeQueued s.hw op.toNat f).2.1 =
    false ∨ holdsRoom s.hw (takeQueued s.hw op.toNat f).2.1 = false → (queueOf s.hw f.src).findIdx? (sameReq
    op.toNat f) = none → GivesHw (.nocRequestSend op f) s (queueRequest s.hw ⟨op.toNat, f, .own⟩)) ∧
  (∀ (op : BitVec 4) (f : Flit) (i : Nat) (s : State), frozen s.hw = false → op.toNat < 0xC → pushHeld s.hw op.toNat
    f = false → poolOf s.hw f.dst f.src ≠ 0 → mayPass s.hw (takeQueued s.hw op.toNat f).1 (takeQueued s.hw op.toNat
    f).2.1 = false ∨ holdsRoom s.hw (takeQueued s.hw op.toNat f).2.1 = false → (queueOf s.hw f.src).findIdx?
    (sameReq op.toNat f) = some i → GivesHw (.nocRequestSend op f) s s.hw) ∧
  (∀ (op : BitVec 4) (f : Flit) (s : State), 0xC ≤ op.toNat ∨ pushHeld s.hw op.toNat f = true → GivesHw
    (.nocRequestSend op f) s s.hw) ∧
  (∀ (r : Fin 40) (rb : BitVec 5) (p : Passage) (x : NocResp) (h : Hw) (o : NocOut) (i : Nat) (s : State), frozen
    s.hw = false → takeResp s.hw r rb.toNat 0xC p.hops = some (x, true, h) → p.bad.getLsbD 0 = false → outAt h r
    rb.toNat = some (o, i) → o.k ≤ (withFlit o i x.status x.words false).got.length → (withFlit o i x.status x.words
    false).bad = false → GivesHw (.rdata r rb p) s (answeredFor (withAnswer (outTaken h r o) (withFlit o i x.status
    x.words false).status (((withFlit o i x.status x.words false).got).map (fun e => e.2)).flatten) o.req (withFlit
    o i x.status x.words false).status (((withFlit o i x.status x.words false).got).map (fun e => e.2)).flatten)) ∧
  (∀ (r : Fin 40) (rb : BitVec 5) (p : Passage) (x : NocResp) (h : Hw) (o : NocOut) (i : Nat) (s : State), frozen
    s.hw = false → takeResp s.hw r rb.toNat 0xC p.hops = some (x, true, h) → p.bad.getLsbD 0 = false → outAt h r
    rb.toNat = some (o, i) → o.k ≤ (withFlit o i x.status x.words false).got.length → (withFlit o i x.status x.words
    false).bad = true → GivesHw (.rdata r rb p) s (answeredFor (withAnswer (poisonedAt (outTaken h r o) r
    o.req.f.addr.toNat) (withFlit o i x.status x.words false).status (((withFlit o i x.status x.words
    false).got).map (fun e => e.2)).flatten) o.req (withFlit o i x.status x.words false).status (((withFlit o i
    x.status x.words false).got).map (fun e => e.2)).flatten)) ∧
  (∀ (r : Fin 40) (rb : BitVec 5) (p : Passage) (x : NocResp) (h : Hw) (o : NocOut) (i : Nat) (s : State), frozen
    s.hw = false → takeResp s.hw r rb.toNat 0xC p.hops = some (x, true, h) → p.bad.getLsbD 0 = true → outAt h r
    rb.toNat = some (o, i) → o.req.op = 4 ∨ o.asked.contains i = true → o.k ≤ (withFlit o i x.status (spoiled true
    x.words) true).got.length → GivesHw (.rdata r rb p) s (answeredFor (withAnswer (poisonedAt (outTaken (bump h
    (aNR_STAT r) fNR_STAT_CRCCNT 1) r o) r o.req.f.addr.toNat) (withFlit o i x.status (spoiled true x.words)
    true).status (((withFlit o i x.status (spoiled true x.words) true).got).map (fun e => e.2)).flatten) o.req
    (withFlit o i x.status (spoiled true x.words) true).status (((withFlit o i x.status (spoiled true x.words)
    true).got).map (fun e => e.2)).flatten)) ∧
  (∀ (r : Fin 40) (rb : BitVec 5) (p : Passage) (x : NocResp) (h : Hw) (o : NocOut) (i : Nat) (s : State), frozen
    s.hw = false → takeResp s.hw r rb.toNat 0xC p.hops = some (x, true, h) → p.bad.getLsbD 0 = true → outAt h r
    rb.toNat = some (o, i) → o.req.op ≠ 4 → o.asked.contains i = false → GivesHw (.rdata r rb p) s (queueRequest
    (askedAgain (bump h (aNR_STAT r) fNR_STAT_CRCCNT 1) r rb.toNat i) (againReq o.req i))) ∧
  (∀ (r : Fin 40) (rb : BitVec 5) (p : Passage) (x : NocResp) (h : Hw) (o : NocOut) (i : Nat) (b : Bool) (s :
    State), frozen s.hw = false → takeResp s.hw r rb.toNat 0xC p.hops = some (x, true, h) → b = p.bad.getLsbD 0 →
    outAt h r rb.toNat = some (o, i) → b = false ∨ o.req.op = 4 ∨ o.asked.contains i = true → (withFlit o i x.status
    (spoiled b x.words) b).got.length < o.k → GivesHw (.rdata r rb p) s (setOut (if p.bad.getLsbD 0 = true then bump
    h (aNR_STAT r) fNR_STAT_CRCCNT 1 else h) r ((outOf (if p.bad.getLsbD 0 = true then bump h (aNR_STAT r)
    fNR_STAT_CRCCNT 1 else h) r).map fun e => if e = o then withFlit o i x.status (spoiled b x.words) b else e))) ∧
  (∀ (r : Fin 40) (rb : BitVec 5) (p : Passage) (x : NocResp) (h : Hw) (o : NocOut) (i : Nat) (s : State), frozen
    s.hw = false → takeResp s.hw r rb.toNat 0xD p.hops = some (x, true, h) → outAt h r rb.toNat = some (o, i) →
    GivesHw (.ack r rb p) s (answeredFor (withAnswer (outTaken (if p.bad.getLsbD 0 = true then bump h (aNR_STAT r)
    fNR_STAT_CRCCNT 1 else h) r o) x.status []) o.req x.status [])) ∧
  (∀ (r : Fin 40) (rb : BitVec 5) (p : Passage) (x : NocResp) (h : Hw) (o : NocOut) (i : Nat) (s : State), frozen
    s.hw = false → takeResp s.hw r rb.toNat 0xE p.hops = some (x, true, h) → outAt h r rb.toNat = some (o, i) →
    o.asked.contains i = false → GivesHw (.nack r rb p) s (probeReq (onWire h ⟨o.req, [i], true⟩) true o.req [i]
    true)) ∧
  (∀ (r : Fin 40) (rb : BitVec 5) (p : Passage) (x : NocResp) (h : Hw) (o : NocOut) (i : Nat) (s : State), frozen
    s.hw = false → takeResp s.hw r rb.toNat 0xE p.hops = some (x, true, h) → outAt h r rb.toNat = some (o, i) →
    o.asked.contains i = true → GivesHw (.nack r rb p) s (probeReq (onWire h ⟨againReq o.req i, [0], true⟩) true
    (againReq o.req i) [0] true)) ∧
  (∀ (r : Fin 40) (rb : BitVec 5) (p : Passage) (x : NocResp) (h : Hw) (s : State), frozen s.hw = false → takeResp
    s.hw r rb.toNat 0xC p.hops = some (x, false, h) → GivesHw (.rdata r rb p) s h) ∧
  (∀ (r : Fin 40) (rb : BitVec 5) (p : Passage) (x : NocResp) (h : Hw) (s : State), frozen s.hw = false → takeResp
    s.hw r rb.toNat 0xD p.hops = some (x, false, h) → GivesHw (.ack r rb p) s h) ∧
  (∀ (r : Fin 40) (rb : BitVec 5) (p : Passage) (x : NocResp) (h : Hw) (s : State), frozen s.hw = false → takeResp
    s.hw r rb.toNat 0xE p.hops = some (x, false, h) → GivesHw (.nack r rb p) s h) ∧
  (∀ (r : Fin 40) (rb : BitVec 5) (p : Passage) (x : NocResp) (h : Hw) (s : State), frozen s.hw = false → takeResp
    s.hw r rb.toNat 0xC p.hops = some (x, true, h) → outAt h r rb.toNat = none → GivesHw (.rdata r rb p) s
    (withAnswer (if p.bad.getLsbD 0 = true then poisonedAt (bump h (aNR_STAT r) fNR_STAT_CRCCNT 1) r 0 else h)
    x.status (spoiled (p.bad.getLsbD 0) x.words))) ∧
  (∀ (r : Fin 40) (rb : BitVec 5) (p : Passage) (x : NocResp) (h : Hw) (s : State), frozen s.hw = false → takeResp
    s.hw r rb.toNat 0xD p.hops = some (x, true, h) → outAt h r rb.toNat = none → GivesHw (.ack r rb p) s (withAnswer
    (if p.bad.getLsbD 0 = true then bump h (aNR_STAT r) fNR_STAT_CRCCNT 1 else h) x.status [])) ∧
  (∀ (r : Fin 40) (rb : BitVec 5) (p : Passage) (x : NocResp) (h : Hw) (s : State), frozen s.hw = false → takeResp
    s.hw r rb.toNat 0xE p.hops = some (x, true, h) → outAt h r rb.toNat = none → GivesHw (.nack r rb p) s h) ∧
  (∀ (r : Fin 40) (rb : BitVec 5) (p : Passage) (s : State), takeResp s.hw r rb.toNat 0xC p.hops = none → GivesHw
    (.rdata r rb p) s s.hw) ∧
  (∀ (r : Fin 40) (rb : BitVec 5) (p : Passage) (s : State), takeResp s.hw r rb.toNat 0xD p.hops = none → GivesHw
    (.ack r rb p) s s.hw) ∧
  (∀ (r : Fin 40) (rb : BitVec 5) (p : Passage) (s : State), takeResp s.hw r rb.toNat 0xE p.hops = none → GivesHw
    (.nack r rb p) s s.hw) ∧
  (∀ (h : Hw) (q : NocReq) (st : Nat) (ws : List TW), q.origin = .own → ∀ j, endpointOf q.f.src ≠ .jesd j →
    answeredFor h q st ws = h) ∧
  (∀ (h : Hw) (q : NocReq) (st : Nat) (ws : List TW) (key : Nat) (n : Nat), q.origin = .forwarder key n →
    answeredFor h q st ws = if st = 0 then fwdAccept h key n else h) ∧
  (∀ (y : Fin 16) (s : State), yardTakes (wakeDone s.hw y) y = true → yardTakes s.hw y = false → GivesMem
    (.yardWakeComplete y) s ((getD [] (wakeDone s.hw y).noc.asleep y).foldl (fun t q => dispatchAny t.1 t.2 q.kind
    q.f []) (s.mem, nothingWaits (wakeDone s.hw y) y))) ∧
  (∀ (y : Fin 16) (s : State), yardTakes (wakeDone s.hw y) y = false ∨ yardTakes s.hw y = true → GivesHw
    (.yardWakeComplete y) s (wakeDone s.hw y)) ∧
  (∀ (y : Fin 16) (s : State), (yardPw s.hw y).wake = true → (yardPw s.hw y).stopped = true → (yardPw s.hw
    y).settling = false → s.hw.aclk % 4 = 0 → frozen s.hw = false → (yardPw (wakeDone s.hw y) y).stopped = false ∧
    (yardPw (wakeDone s.hw y) y).wake = false ∧ getF (wakeDone s.hw y) (aYP_STAT y) fYP_STAT_MODE = 0 ∧ getF
    (wakeDone s.hw y) (aNY_WAKE y) fNY_WAKE_WAITING = 0 ∧ yardRuns (wakeDone s.hw y) y = true)

/-- O33. What each chain packet does on the device it is delivered to. IDLE records a change of the neighbour's FROZEN
state and routes are worked out anew. EVENT raises line 0xFC + k in the named yards. FREEZE freezes at once, arms a
timed freeze or asks a FROZEN device to resume, which ignores it while FREEZE_N is low. A ROLL on LU gives the value
it carries + 1 as the address; device 0 ends the roll call by it; one that carries 63 gives no address. ROLL_END ends
the roll call on device 0. HB arms the watch and is answered; HB_ACK is taken by device 0 alone; a DM reply gives the
four times and a DM request is answered; LINK sets the report of a port; NAK starts a replay, or takes the link down
after eight; an ALARM summary is logged by device 0. CREDIT does nothing besides what reception does. Rests on the
model's reading or choice in log entries 60, 64, 168, 190. (R248, R249, R255, R256, R257, R259, R266, R267, R268,
R269, R270, R442) -/
def Obligations.ChainPacketsActWhereDelivered : Prop :=
  (∀ (port : Fin 2) (p : Pkt) (s : State), (received s port 0 p).1 = true → isSet (received s port 0 p).2 (aLK_STAT
    port) fLK_STAT_NBFRZ ≠ p.arg.getLsbD 0 → GivesHw (.idle port p true) s (reroute (setF (received s port 0 p).2
    (aLK_STAT port) fLK_STAT_NBFRZ (p.arg.getLsbD 0).toNat))) ∧
  (∀ (port : Fin 2) (p : Pkt) (s : State), (received s port 0 p).1 = true → isSet (received s port 0 p).2 (aLK_STAT
    port) fLK_STAT_NBFRZ = p.arg.getLsbD 0 → GivesHw (.idle port p true) s (received s port 0 p).2) ∧
  (∀ (port : Fin 2) (p : Pkt) (s : State), (received s port 3 p).1 = true → GivesHw (.chainEvent port p true) s
    (takeEvent (received s port 3 p).2 p.arg.toNat)) ∧
  (∀ (h : Hw) (arg : Nat), arg < 2 ^ 18 → arg % 2 ^ 16 = 1 → takeEvent h arg = raiseLater h 0 (0xFC + arg / 2 ^ 16)
    (dueIn h 0 1)) ∧
  (∀ (port : Fin 2) (p : Pkt) (low : Bool) (s : State), (received s port 4 p).1 = true → p.arg.getLsbD 1 = true →
    GivesHw (.chainFreeze port p true low) s (resumeRequest (received s port 4 p).2 low)) ∧
  (∀ (port : Fin 2) (p : Pkt) (low : Bool) (s : State), (received s port 4 p).1 = true → p.arg.getLsbD 1 = false →
    p.arg.getLsbD 0 = true → GivesHw (.chainFreeze port p true low) s (freezeRequest (received s port 4 p).2 4)) ∧
  (∀ (port : Fin 2) (p : Pkt) (low : Bool) (d : Nat) (s : State), (received s port 4 p).1 = true → p.arg.getLsbD 1 =
    false → p.arg.getLsbD 0 = false → d = (p.words.headD TW.notValid).d.toNat → GivesHw (.chainFreeze port p true
    low) s (freezeArm (received s port 4 p).2 4 (d / 2 ^ 32) (d % 2 ^ 32))) ∧
  (∀ (port : Fin 2) (p : Pkt) (low : Bool) (s : State), s.hw.mode = .frozen → s.hw.clocked = true → linkUp s.hw port
    = true → p.arg.getLsbD 1 = true → p.seq = (linkSt s.hw port).rxSeq → Completes (.chainFreeze port p true low) s
    (fun t => t.hw.frz.resuming = if low = true then s.hw.frz.resuming else true)) ∧
  (∀ (port : Fin 2) (p : Pkt) (s : State), (received s port 5 p).1 = true → GivesHw (.roll port p true) s (takeRoll
    (received s port 5 p).2 port (p.arg.toNat % 64))) ∧
  (∀ (h : Hw) (port : Nat) (a : Nat), port ≠ 0 → takeRoll h port a = h) ∧
  (∀ (h : Hw) (a : Nat), isDev0 h = true → h.chain.rolling = true → takeRoll h 0 a = rollDone h (a + 1) true false) ∧
  (∀ (h : Hw), isDev0 h = false → takeRoll h 0 63 = sendOn h 0 (packet h 6 0 (63 + 64))) ∧
  (∀ (h : Hw) (a : Nat), isDev0 h = false → a < 63 → ownAddr (takeRoll h 0 a) = a + 1 ∧ addressed (takeRoll h 0 a) =
    true) ∧
  (∀ (port : Fin 2) (p : Pkt) (s : State), (received s port 6 p).1 = true → isDev0 (received s port 6 p).2 = true →
    (received s port 6 p).2.chain.rolling = true → p.arg.toNat / 64 % 2 = 0 → GivesHw (.rollEnd port p true) s
    (rollDone (received s port 6 p).2 (p.arg.toNat % 64 + 1) false false)) ∧
  (∀ (port : Fin 2) (p : Pkt) (s : State), (received s port 6 p).1 = true → isDev0 (received s port 6 p).2 = true →
    (received s port 6 p).2.chain.rolling = true → p.arg.toNat / 64 % 2 = 1 → GivesHw (.rollEnd port p true) s
    (rollDone (received s port 6 p).2 64 false true)) ∧
  (∀ (port : Fin 2) (p : Pkt) (s : State), (received s port 6 p).1 = true → isDev0 (received s port 6 p).2 = false ∨
    (received s port 6 p).2.chain.rolling = false → GivesHw (.rollEnd port p true) s (received s port 6 p).2) ∧
  (∀ (port : Fin 2) (p : Pkt) (s : State), (received s port 7 p).1 = true → GivesHw (.hb port p true) s (takeHb
    (received s port 7 p).2 port (p.arg.toNat % 2 ^ 32))) ∧
  (∀ (h : Hw) (port : Nat) (n : Nat), addressed h = true → n < 2 ^ 32 → (takeHb h port n).chain.armed = true ∧
    (takeHb h port n).chain.misses = 0 ∧ getF (takeHb h port n) aCH_HB fCH_HB_HBSEQ = n ∧ getF (takeHb h port n)
    aCH_HB fCH_HB_HBAGE = 0) ∧
  (∀ (port : Fin 2) (p : Pkt) (s : State), (received s port 8 p).1 = true → isDev0 (received s port 8 p).2 = true →
    GivesHw (.hbAck port p true) s (setPeer (received s port 8 p).2 p.sdev.toNat ⟨p.arg.toNat / 2 ^ 32 % 8,
    p.arg.toNat / 2 ^ 35 % 2 == 1, true, 0⟩)) ∧
  (∀ (port : Fin 2) (p : Pkt) (s : State), (received s port 8 p).1 = true → isDev0 (received s port 8 p).2 = false →
    GivesHw (.hbAck port p true) s (received s port 8 p).2) ∧
  (∀ (port : Fin 2) (p : Pkt) (t1 : Int) (t2 : Int) (t3 : Int) (t4 : Int) (s : State), (received s port 9 p).1 =
    true → p.arg.getLsbD 0 = true → GivesHw (.dm port p true t1 t2 t3 t4) s (takeDm (received s port 9 p).2 port t1
    t2 t3 t4)) ∧
  (∀ (port : Fin 2) (p : Pkt) (t1 : Int) (t2 : Int) (t3 : Int) (t4 : Int) (s : State), (received s port 9 p).1 =
    true → p.arg.getLsbD 0 = false → GivesHw (.dm port p true t1 t2 t3 t4) s (dmReply (received s port 9 p).2 port)) ∧
  (∀ (port : Fin 2) (p : Pkt) (s : State), (received s port 0xA p).1 = true → GivesHw (.link port p true) s (reroute
    (withReport (received s port 0xA p).2 (p.arg.toNat % 64) (p.arg.toNat / 64 % 2) (p.arg.toNat / 128 % 2 == 1)))) ∧
  (∀ (port : Fin 2) (p : Pkt) (s : State), (received s port 0xB p).1 = true → GivesHw (.credit port p true) s
    (received s port 0xB p).2) ∧
  (∀ (port : Fin 2) (p : Pkt) (s : State), (received s port 0xC p).1 = true → GivesHw (.nak port p true) s (takeNak
    (received s port 0xC p).2 port (p.arg.setWidth 8))) ∧
  (∀ (h : Hw) (port : Nat) (q : BitVec 8), (linkSt h port).replay.any (fun e => e.1.p.seq == q) = true → ((linkSt h
    port).replay.dropWhile (fun e => e.1.p.seq != q)).any (fun e => 8 ≤ e.2) = true → takeNak h port q = linkDown h
    port) ∧
  (∀ (port : Fin 2) (p : Pkt) (s : State), (received s port 0xD p).1 = true → isDev0 (received s port 0xD p).2 =
    true → GivesHw (.chainAlarm port p true) s (takeSummaries (received s port 0xD p).2 p.words)) ∧
  (∀ (port : Fin 2) (p : Pkt) (s : State), (received s port 0xD p).1 = true → isDev0 (received s port 0xD p).2 =
    false → GivesHw (.chainAlarm port p true) s (received s port 0xD p).2)

/-- O34. Reception on a lead port, and requests between devices. A packet that fails its CRC, holds a reserved value or is
out of sequence only counts and is NAKed; nothing arrives over a link that is down or, but for a resume, on a FROZEN
device; one that is not delivered here has only the effects of its reception. No packet for another device is
delivered, nor one that this device sent to all. A delivered REQ is queued at the lead router it came in at, or
answered FAULT while ISOLATED, with its pool full or with an operation that no request has; one that carries a command
is taken by the MP. A RSP answers the request whose entry it matches, else LATECNT counts. FW bytes are taken while
the boot ROM listens, and the image is authenticated once it is whole. A timeout completes FAULT, or as a device that
was not found, counts, and is logged for a request. Rests on the model's reading or choice in log entries 58, 113,
191, 197. (R248, R249, R250, R252, R255, R260, R262, R263, R264, R267, R275, R279) -/
def Obligations.ChainReceptionAndRequestsFollowTheRules : Prop :=
  (∀ (k : Fin 15) (port : Fin 2) (p : Pkt) (ok : Bool) (low : Bool) (t : Int × Int × Int × Int) (s : State),
    s.hw.clocked = true → linkUp s.hw port = true → s.hw.mode ≠ .frozen → ok = false ∨ badPkt k p = true ∨ (reliable
    k = true ∧ p.seq ≠ (linkSt s.hw port).rxSeq) → GivesHw (packetOf k port p ok low t) s (sendNak (bump s.hw
    (aLK_ERR port) fLK_ERR_CRCCNT 1) port)) ∧
  (∀ (p : Pkt) (k : Nat), p.rsv = true ∨ k = 0xF ∨ ((k = 1 ∨ k = 2) ∧ p.op = 0xF) ∨ 64 < p.words.length ∨ (0x40 ≤
    p.tgt.toNat ∧ p.tgt.toNat ≤ 0xFC) ∨ 3 < p.rstat.toNat → badPkt k p = true) ∧
  (∀ (k : Fin 15) (port : Fin 2) (p : Pkt) (ok : Bool) (low : Bool) (t : Int × Int × Int × Int) (s : State),
    s.hw.clocked = false ∨ linkUp s.hw port = false → GivesHw (packetOf k port p ok low t) s s.hw) ∧
  (∀ (k : Fin 15) (port : Fin 2) (p : Pkt) (ok : Bool) (low : Bool) (t : Int × Int × Int × Int) (s : State),
    s.hw.mode = .frozen → k ≠ 4 ∨ p.arg.getLsbD 1 = false ∨ ok = false ∨ p.seq ≠ (linkSt s.hw port).rxSeq → GivesHw
    (packetOf k port p ok low t) s s.hw) ∧
  (∀ (k : Fin 15) (port : Fin 2) (p : Pkt) (low : Bool) (t : Int × Int × Int × Int) (s : State), (received s port k
    p).1 = false → GivesHw (packetOf k port p true low t) s (received s port k p).2) ∧
  (∀ (p : Pkt) (k : Nat) (h : Hw), p.tgt.toNat < 0xFD → p.tgt.toNat ≠ ownAddr h → forHere h k p = false) ∧
  (∀ (p : Pkt) (k : Nat) (h : Hw), p.tgt = 0xFF → addressed h = true → p.sdev.toNat = ownAddr h → forHere h k p =
    false ∧ goesOn h p = false) ∧
  (∀ (p : Pkt) (k : Nat) (h : Hw), addressed h = false → k = 1 ∨ k = 3 ∨ k = 4 → forHere h k p = false) ∧
  (∀ (port : Fin 2) (p : Pkt) (s : State), (received s port 1 p).1 = true → GivesHw (.req port p true none) s
    (takeReq (received s port 1 p).2 port p)) ∧
  (∀ (port : Fin 2) (p : Pkt) (s : State), s.hw.mode = .isolated ∨ 0xC ≤ p.op.toNat → takeReq s.hw port p = (sendRsp
    (poolTaken s.hw p.sdev.toNat) p.sdev.toNat p.op.toNat p.cnt.toNat p.src p.rb.toNat 1 (faultWords p.op.toNat
    p.cnt.toNat) none)) ∧
  (∀ (port : Fin 2) (p : Pkt) (s : State), s.hw.mode ≠ .isolated → p.op.toNat < 0xC → poolHere s.hw p.sdev.toNat ≤
    getD 0 s.hw.chain.poolUsed p.sdev.toNat → takeReq s.hw port p = (sendRsp (bump (poolTaken s.hw p.sdev.toNat)
    aCH_CNT fCH_CNT_POOLOVF 1) p.sdev.toNat p.op.toNat p.cnt.toNat p.src p.rb.toNat 1 (faultWords p.op.toNat
    p.cnt.toNat) none)) ∧
  (∀ (port : Fin 2) (p : Pkt) (s : State), s.hw.mode ≠ .isolated → p.op.toNat < 0xC → getD 0 s.hw.chain.poolUsed
    p.sdev.toNat < poolHere s.hw p.sdev.toNat → takeReq s.hw port p = queueRequest (poolTaken s.hw p.sdev.toNat)
    (issuedFor p port)) ∧
  (∀ (port : Fin 2) (p : Pkt) (c : FwdCmd) (s : State), (rxPacket s.hw port ⟨1, p, some c, none, false⟩ true).1 =
    true → GivesHw (.req port p true (some c)) s (takeCmd (rxPacket s.hw port ⟨1, p, some c, none, false⟩ true).2 p
    c)) ∧
  (∀ (port : Fin 2) (p : Pkt) (c : FwdCmd) (s : State), (rxPacket s.hw port ⟨1, p, some c, none, false⟩ true).1 =
    false → GivesHw (.req port p true (some c)) s (rxPacket s.hw port ⟨1, p, some c, none, false⟩ true).2) ∧
  (∀ (port : Fin 2) (p : Pkt) (i : Nat) (d : Nat) (op : Nat) (f : Flit) (sl : Option Nat) (s : State), (received s
    port 2 p).1 = true → p.src.val ≠ 38 ∨ forwardEntry (received s port 2 p).2 p.sdev.toNat (p.rb.toNat % 16) = none
    → outFor (received s port 2 p).2 p.sdev.toNat p.src p.rb.toNat = some (i, ⟨d, op, some f, sl⟩) → GivesHw (.rsp
    port p true none) s (respond (noteHole (outRemoved (received s port 2 p).2 i) d op f p.rstat.toNat) op (cameBy f
    port) p.rstat.toNat p.words)) ∧
  (∀ (port : Fin 2) (p : Pkt) (s : State), (received s port 2 p).1 = true → p.src.val ≠ 38 ∨ forwardEntry (received
    s port 2 p).2 p.sdev.toNat (p.rb.toNat % 16) = none → outFor (received s port 2 p).2 p.sdev.toNat p.src
    p.rb.toNat = none → GivesHw (.rsp port p true none) s (bump (received s port 2 p).2 aCH_TMO fCH_TMO_LATECNT 1)) ∧
  (∀ (port : Fin 2) (p : Pkt) (i : Nat) (o : ChOut) (sl : Nat) (s : State), (received s port 2 p).1 = true →
    p.src.val = 38 → forwardEntry (received s port 2 p).2 p.sdev.toNat (p.rb.toNat % 16) = some (i, o, sl) → GivesHw
    (.rsp port p true none) s (noteDevice (outRemoved (received s port 2 p).2 i) sl p.sdev.toNat stNoTarget false
    [])) ∧
  (∀ (port : Fin 2) (p : Pkt) (a : FwdAns) (s : State), (rxPacket s.hw port ⟨2, p, none, some a, false⟩ true).1 =
    true → GivesHw (.rsp port p true (some a)) s (takeAns (rxPacket s.hw port ⟨2, p, none, some a, false⟩ true).2
    p.sdev.toNat a)) ∧
  (∀ (port : Fin 2) (p : Pkt) (a : FwdAns) (s : State), (rxPacket s.hw port ⟨2, p, none, some a, false⟩ true).1 =
    false → GivesHw (.rsp port p true (some a)) s (rxPacket s.hw port ⟨2, p, none, some a, false⟩ true).2) ∧
  (∀ (port : Fin 2) (p : Pkt) (c : Option FwCheck) (s : State), (received s port 0xE p).1 = true → port ≠ 0 ∨
    fwWhole (takeFw (received s port 0xE p).2 port (p.arg.toNat % 2 ^ 32) p.words) (p.arg.toNat % 2 ^ 32) p.words =
    false → GivesHw (.fw port p true c) s (takeFw (received s port 0xE p).2 port (p.arg.toNat % 2 ^ 32) p.words)) ∧
  (∀ (port : Fin 2) (p : Pkt) (c : FwCheck) (s : State), (received s port 0xE p).1 = true → port = 0 → fwWhole
    (takeFw (received s port 0xE p).2 port (p.arg.toNat % 2 ^ 32) p.words) (p.arg.toNat % 2 ^ 32) p.words = true →
    GivesHw (.fw port p true (some c)) s (fwReceived (takeFw (received s port 0xE p).2 port (p.arg.toNat % 2 ^ 32)
    p.words) c)) ∧
  (∀ (port : Fin 2) (p : Pkt) (s : State), (received s port 0xE p).1 = true → port = 0 → fwWhole (takeFw (received s
    port 0xE p).2 port (p.arg.toNat % 2 ^ 32) p.words) (p.arg.toNat % 2 ^ 32) p.words = true → GivesHw (.fw port p
    true none) s (fwReceived (takeFw (received s port 0xE p).2 port (p.arg.toNat % 2 ^ 32) p.words) (checkFirmware
    s.nv s.mem (takeFw (received s port 0xE p).2 port (p.arg.toNat % 2 ^ 32) p.words) (fwImage (takeFw (received s
    port 0xE p).2 port (p.arg.toNat % 2 ^ 32) p.words)) (fwLength (takeFw (received s port 0xE p).2 port
    (p.arg.toNat % 2 ^ 32) p.words))))) ∧
  (∀ (i : BitVec 8) (d : Nat) (op : Nat) (f : Flit) (sl : Option Nat) (s : State), frozen s.hw = false → lookup
    s.hw.chain.out i.toNat = some ⟨d, op, some f, sl⟩ → GivesHw (.chainTimeout i) s (postFinding (refuseReq (bump
    (outRemoved s.hw i.toNat) aCH_TMO fCH_TMO_TMOCNT 1) op f 1) 0x0004 0x106 f.src f.addr.toNat d)) ∧
  (∀ (i : BitVec 8) (d : Nat) (sl : Nat) (s : State), frozen s.hw = false → lookup s.hw.chain.out i.toNat = some ⟨d,
    0, none, some sl⟩ → GivesHw (.chainTimeout i) s (noteDevice (bump (outRemoved s.hw i.toNat) aCH_TMO
    fCH_TMO_TMOCNT 1) sl d stNoTarget false [])) ∧
  (∀ (i : BitVec 8) (s : State), lookup s.hw.chain.out i.toNat = none → GivesHw (.chainTimeout i) s s.hw)

/-- O35. Links, heartbeats, events, chain-ready and summaries. A link that goes down loses its replay buffer, counts,
reports and raises its alarm, and what was not sent moves to the other port where that leads on; one that trains is up
again. Device 0 numbers each heartbeat. Outside the watch's exceptions the third miss in a row puts a device of RUN in
ISOLATED with ISOL set, an earlier one counts. A delay exchange sends a request upstream. HOLD after ISOLATED mutes
transmit under CONTINUE-THEN-MUTE. A write of CH_EVSEND with GO sends its event. Chain-ready is reported once, and
late devices are named. A summary pending leaves for device 0. Where its condition does not hold, each of these does
nothing. Rests on the model's reading or choice in log entries 4, 65, 189, 192, 193. (R252, R256, R259, R266, R268,
R269, R270, R276, R280, R281, R442) -/
def Obligations.ChainTimersAndLinksAct : Prop :=
  (∀ (port : Fin 2) (s : State), frozen s.hw = false → GivesHw (.linkDown port) s (linkDown s.hw port)) ∧
  (∀ (port : Fin 2) (s : State), linkUp s.hw port = true → linkDown s.hw port = raiseAlarm (applyAll (fun h c => if
    moves (isSet s.hw aCH_ID fCH_ID_CLOSED) h port c = true then sendOn h (1 - port.val) c else h) (sendLink (bump
    (setLinkSt (bump (raiseBit (setF (setF s.hw (aLK_STAT port) fLK_STAT_UP 0) (aLK_STAT port) fLK_STAT_LOCK 0)
    (aLK_STAT port) fLK_STAT_DOWNEV) (aLK_STAT port) fLK_STAT_DOWNCNT 1) port LinkSt.reset) (aLK_ERR port)
    fLK_ERR_LOSTCNT (linkSt s.hw port).replay.length) port false) (linkSt s.hw port).txq) 0x100 (if port.val = 0
    then 24 else 31) 0 port) ∧
  (∀ (port : Fin 2) (s : State), linkUp s.hw port = false → linkDown s.hw port = s.hw) ∧
  (∀ (port : Fin 2) (s : State), frozen s.hw = false → linkUp s.hw port = false → isSet s.hw (aLK_CTL port)
    fLK_CTL_EN = true → Completes (.linkUp port) s (fun t => linkUp t.hw port = true)) ∧
  (∀ (port : Fin 2) (s : State), linkUp s.hw port = true ∨ isSet s.hw (aLK_CTL port) fLK_CTL_EN = false → GivesHw
    (.linkUp port) s s.hw) ∧
  (∀ (port : Fin 2) (s : State), Up s → GivesHw (.lkRetrain port) s (linkDown (writePlain s.hw .lk port 0 (aLK_CTL
    port) (oneField s.hw (aLK_CTL port) fLK_CTL_RETRAIN 1).toNat) port)) ∧
  (∀ (s : State), frozen s.hw = false → isDev0 s.hw = true → getF s.hw aCH_ID fCH_ID_COUNT ≠ 0 → Completes
    .heartbeatSend s (fun t => getF t.hw aCH_HB fCH_HB_HBSEQ = (getF s.hw aCH_HB fCH_HB_HBSEQ + 1) % 2 ^ 32)) ∧
  (∀ (s : State), isDev0 s.hw = false ∨ getF s.hw aCH_ID fCH_ID_COUNT = 0 → GivesHw .heartbeatSend s s.hw) ∧
  (∀ (s : State), frozen s.hw = false → isDev0 s.hw = false → s.hw.chain.armed = true → isSet s.hw aCH_PART
    fCH_PART_BEHINDFRZ = false → s.hw.chain.misses = 2 → s.hw.mode = .run → Completes .heartbeatMiss s (fun t =>
    t.hw.mode = .isolated ∧ isSet t.hw aCH_PART fCH_PART_ISOL = true)) ∧
  (∀ (s : State), frozen s.hw = false → isDev0 s.hw = false → s.hw.chain.armed = true → isSet s.hw aCH_PART
    fCH_PART_BEHINDFRZ = false → s.hw.chain.misses < 2 → GivesHw .heartbeatMiss s (bump (withMisses s.hw
    (s.hw.chain.misses + 1)) aCH_HB fCH_HB_MISSCNT 1)) ∧
  (∀ (s : State), isDev0 s.hw = true ∨ s.hw.chain.armed = false ∨ isSet s.hw aCH_PART fCH_PART_BEHINDFRZ = true ∨ 3
    ≤ s.hw.chain.misses → GivesHw .heartbeatMiss s s.hw) ∧
  (∀ (x : Int) (s : State), frozen s.hw = false → isDev0 s.hw = false → addressed s.hw = true → GivesHw (.dmExchange
    x) s (dmRequest s.hw)) ∧
  (∀ (x : Int) (s : State), isDev0 s.hw = true ∨ addressed s.hw = false → GivesHw (.dmExchange x) s s.hw) ∧
  (∀ (s : State), frozen s.hw = false → s.hw.mode = .isolated → getF s.hw aCH_PART fCH_PART_POL = 0 → GivesHw
    .muteHold s (setMuted s.hw true)) ∧
  (∀ (s : State), s.hw.mode ≠ .isolated ∨ getF s.hw aCH_PART fCH_PART_POL ≠ 0 → GivesHw .muteHold s s.hw) ∧
  (∀ (v : BitVec 64) (e : Hw) (s : State), Up s → e = writePlain s.hw .ch 0 0x8038 aCH_EVSEND (v ||| BitVec.ofNat 64
    (2 ^ 63)).toNat → GivesHw (.chEvsend v) s (sendEvent e (getF e aCH_EVSEND fCH_EVSEND_K) (getF e aCH_EVSEND
    fCH_EVSEND_TGT) (getF e aCH_EVSEND fCH_EVSEND_YARDS))) ∧
  (∀ (s : State), frozen s.hw = false → isDev0 s.hw = true → getF s.hw aCH_ID fCH_ID_COUNT ≠ 0 → allReady s.hw =
    true → isSet s.hw aHI_STAT fHI_STAT_CHRDY = false → GivesHw .chainReady s (sendVector (raiseBit s.hw aHI_STAT
    fHI_STAT_CHRDY) 19)) ∧
  (∀ (s : State), isDev0 s.hw = false ∨ getF s.hw aCH_ID fCH_ID_COUNT = 0 ∨ allReady s.hw = false ∨ isSet s.hw
    aHI_STAT fHI_STAT_CHRDY = true → GivesHw .chainReady s s.hw) ∧
  (∀ (s : State), frozen s.hw = false → isDev0 s.hw = true → getF s.hw aCH_ID fCH_ID_COUNT ≠ 0 → allReady s.hw =
    false → GivesHw .chainDeviceLate s (reportReady (raiseAlarm s.hw 0x104 0xFF (absentDevices s.hw) 0))) ∧
  (∀ (s : State), isDev0 s.hw = false ∨ getF s.hw aCH_ID fCH_ID_COUNT = 0 ∨ allReady s.hw = true → GivesHw
    .chainDeviceLate s s.hw) ∧
  (∀ (code : BitVec 9) (x : Summary) (s : State), lookup s.hw.obs.summaries code.toNat = some x → frozen s.hw =
    false → isDev0 s.hw = false → addressed s.hw = true → GivesHw (.alarmSummarySend code) s (sendPkt (summaryTaken
    s.hw code.toNat) (summaryPkt s.hw code.toNat x))) ∧
  (∀ (code : BitVec 9) (s : State), lookup s.hw.obs.summaries code.toNat = none ∨ isDev0 s.hw = true ∨ addressed
    s.hw = false → GivesHw (.alarmSummarySend code) s s.hw)

/-- O36. SYSREF, establishment, loss, boundaries and samples of the JESD links. A SYSREF edge is stamped in every link,
gives every armed direction its boundary OFS cycles later and disarms it; a direction in continuous mode that it
misses by more than its tolerance counts it. Establishment of a valid configuration whose SYNC~ stands sets the
direction up with its lanes locked; any other raises CFGERR. A lane in use that is lost puts a direction down that
notices it. A boundary raises its event and starts a block with ALIGN = 1. Samples of a direction that is up and
releases them are formed into words and pushed; what the buffer has no room for is lost and counts; a CRC-12 failure
of a multiblock counts and raises JESD_CRC. Transmit pulls while its buffer has room, and sends zeros muted, blanked,
in a gap, for a block that waits for its boundary or for a poisoned word, which the last and the gap count, and else
the samples of the next word. Without its condition each of these does nothing. Rests on the model's reading or choice
in log entries 4, 67, 68, 69, 70, 206, 209, 216. (R284, R287, R288, R289, R290, R291, R292, R293, R294, R306, R432) -/
def Obligations.JesdLinksAct : Prop :=
  (∀ (s : State), frozen s.hw = false → Completes .sysrefEdge s (fun t => (∀ d : Fin 8, (jdir s.hw d).armed = true →
    (jdir t.hw d).bnd = some (s.hw.aclk + getF s.hw (aJsr d) fJL_RXSR_OFS) ∧ (jdir t.hw d).armed = false) ∧ ∀ j :
    Fin 4, reg t.hw (aJL_SRTS j) = BitVec.ofNat 64 (s.hw.tb.ns + s.hw.tb.sec % 2 ^ 32 * 2 ^ 32))) ∧
  (∀ (h : Hw) (d : Fin 8) (b : Nat) (p : Nat) (x : Nat), (jdir h d).armed = false → (jdir h d).bnd = some b → getF h
    (aJsr d) fJL_RXSR_MODE ≠ 0 → p = jPeriod h d → p ≠ 0 → x = (toBoundary p b h.aclk + p - getF h (aJsr d)
    fJL_RXSR_OFS % p) % p → getF h (aJsr d) fJL_RXSR_TOL < min x (p - x) → getF h (aJsr d) fJL_RXSR_REALIGN ≠ 1 →
    sysrefDir h d = bump (jRaise h (d.val / 2) fJL_STAT_SRMISS) (aJL_CNT2 (d.val / 2)) fJL_CNT2_SRMISSCNT 1) ∧
  (∀ (j : Fin 4) (tx : Bool) (s : State), Up s → Completes (.jlArm j tx) s (fun t => (jdir t.hw (dirOf j tx)).armed
    = true)) ∧
  (∀ (j : Fin 4) (tx : Bool) (s : State), Up s → GivesHw (.jesdDirectionReset j tx) s (jReset (writePlain s.hw .jl j
    0 (aJL_CTL j) (oneField s.hw (aJL_CTL j) (if tx = true then fJL_CTL_TXRST else fJL_CTL_RXRST) 1).toNat) (dirOf j
    tx))) ∧
  (∀ (j : Fin 4) (tx : Bool) (ilas : Bool) (s : State), frozen s.hw = false → jEn s.hw (dirOf j tx) = true → jUp
    s.hw (dirOf j tx) = false → jCfgOk s.hw (dirOf j tx) = true → syncOk s.hw (dirOf j tx) = true → Completes
    (.jesdLinkEstablished j tx ilas) s (fun t => t.mem = s.mem ∧ jUp t.hw (dirOf j tx) = true ∧ (jdir t.hw (dirOf j
    tx)).since = s.hw.aclk ∧ (jdir t.hw (dirOf j tx)).half = none ∧ (jdir t.hw (dirOf j tx)).blk = 0 ∧ (tx = false →
    getF t.hw (aJL_STAT j) fJL_STAT_RXLOCK = (jLanes s.hw (dirOf j tx)).foldl (fun acc i => acc ||| 2 ^ i) 0) ∧ (tx
    = false ∧ jIsB s.hw (dirOf j tx) = true ∧ ilas = false → isSet t.hw (aJL_STAT j) fJL_STAT_ILASERR = true))) ∧
  (∀ (j : Fin 4) (tx : Bool) (ilas : Bool) (s : State), frozen s.hw = false → jEn s.hw (dirOf j tx) = true → jUp
    s.hw (dirOf j tx) = false → jCfgOk s.hw (dirOf j tx) = false ∨ syncOk s.hw (dirOf j tx) = false → GivesHw
    (.jesdLinkEstablished j tx ilas) s (jDownErr s.hw (dirOf j tx))) ∧
  (∀ (j : Fin 4) (tx : Bool) (ilas : Bool) (s : State), jEn s.hw (dirOf j tx) = false ∨ jUp s.hw (dirOf j tx) = true
    → GivesHw (.jesdLinkEstablished j tx ilas) s s.hw) ∧
  (∀ (j : Fin 4) (lane : Fin 8) (s : State), frozen s.hw = false → jEn s.hw (2 * j.val + 1) = true → (jLanes s.hw (2
    * j.val + 1)).contains lane.val = true → jIsB s.hw (2 * j.val + 1) = true → GivesHw (.jesdLaneLoss j true lane)
    s (jSetUp (setJdir s.hw (2 * j.val + 1) (blockDropped (jdir s.hw (2 * j.val + 1)))) (2 * j.val + 1) false)) ∧
  (∀ (j : Fin 4) (lane : Fin 8) (s : State), frozen s.hw = false → jEn s.hw (2 * j.val) = true → (jLanes s.hw (2 *
    j.val)).contains lane.val = true → jIsB s.hw (2 * j.val) = false → GivesHw (.jesdLaneLoss j false lane) s
    (jSetUp (setJdir (setF s.hw (aJL_STAT j) fJL_STAT_RXLOCK (getF s.hw (aJL_STAT j) fJL_STAT_RXLOCK &&& (0xFF - 2 ^
    lane.val))) (2 * j.val) (blockDropped (jdir s.hw (2 * j.val)))) (2 * j.val) false)) ∧
  (∀ (j : Fin 4) (lane : Fin 8) (s : State), frozen s.hw = false → jEn s.hw (2 * j.val) = true → (jLanes s.hw (2 *
    j.val)).contains lane.val = true → jIsB s.hw (2 * j.val) = true → GivesHw (.jesdLaneLoss j false lane) s (jSetUp
    (setJdir (bump (setF s.hw (aJL_STAT j) fJL_STAT_RXLOCK (getF s.hw (aJL_STAT j) fJL_STAT_RXLOCK &&& (0xFF - 2 ^
    lane.val))) (aJL_CNT j) fJL_CNT_CGERR 1) (2 * j.val) (blockDropped (jdir s.hw (2 * j.val)))) (2 * j.val) false)) ∧
  (∀ (j : Fin 4) (tx : Bool) (lane : Fin 8) (s : State), jEn s.hw (dirOf j tx) = false ∨ (jLanes s.hw (dirOf j
    tx)).contains lane.val = false ∨ (tx = true ∧ jIsB s.hw (dirOf j tx) = false) → GivesHw (.jesdLaneLoss j tx
    lane) s s.hw) ∧
  (∀ (j : Fin 4) (tx : Bool) (s : State), frozen s.hw = false → jAtBoundary s.hw (dirOf j tx) = true → GivesHw
    (.jesdBoundary j tx) s (raiseEventAll (boundaryMet s.hw (dirOf j tx)) (0xC0 + 4 * ((dirOf j tx) / 2) + (dirOf j
    tx) % 2))) ∧
  (∀ (j : Fin 4) (tx : Bool) (s : State), jAtBoundary s.hw (dirOf j tx) = false → GivesHw (.jesdBoundary j tx) s
    s.hw) ∧
  (∀ (h : Hw) (j : Fin 4) (bad : BitVec 8), jField h (2 * j.val) fJL_RXCFG_CRC = 1 → jIsB h (2 * j.val) = false →
    (bad &&& BitVec.ofNat 8 (2 ^ jL h (2 * j.val) - 1)) ≠ 0 → crcCounted h j bad = raiseAlarm (bump (jRaise h j
    fJL_STAT_CRCERR) (aJL_CNT j) fJL_CNT_CRCCNT 1) 0x141 (jesdRouter j) 0 j) ∧
  (∀ (j : Fin 4) (xs : List (BitVec 32 × BitVec 32)) (bad : BitVec 8) (s : State), jEn s.hw (2 * j.val) = false ∨
    jUp s.hw (2 * j.val) = false ∨ jReleases s.hw (2 * j.val) = false → GivesHw (.jesdRxData j xs bad) s s.hw) ∧
  (∀ (j : Fin 4) (xs : List (BitVec 32 × BitVec 32)) (bad : BitVec 8) (h : Hw) (ws : List TW) (half : Option ((Int ×
    Int) × Bool)) (s : State), frozen s.hw = false → jEn s.hw (2 * j.val) = true → jUp s.hw (2 * j.val) = true →
    jReleases s.hw (2 * j.val) = true → rxWords s.hw j xs bad = (ws, half) → h = setJdir (crcCounted s.hw j bad) (2
    * j.val) (afterWords s.hw j half ws.length xs.length) → ws.length ≤ (1024 - pushesWaiting h (jesdRouter j)) →
    GivesHw (.jesdRxData j xs bad) s (queuePushes h (jesdRouter j) (getF h (aJL_TRG j) fJL_TRG_RXPEN) (getF h
    (aJL_TRG j) fJL_TRG_RXTRG) (ws).length (ws))) ∧
  (∀ (j : Fin 4) (xs : List (BitVec 32 × BitVec 32)) (bad : BitVec 8) (h : Hw) (ws : List TW) (half : Option ((Int ×
    Int) × Bool)) (s : State), frozen s.hw = false → jEn s.hw (2 * j.val) = true → jUp s.hw (2 * j.val) = true →
    jReleases s.hw (2 * j.val) = true → rxWords s.hw j xs bad = (ws, half) → h = setJdir (crcCounted s.hw j bad) (2
    * j.val) (afterWords s.hw j half ws.length xs.length) → (1024 - pushesWaiting h (jesdRouter j)) < ws.length →
    GivesHw (.jesdRxData j xs bad) s (queuePushes (bump (jRaise h j fJL_STAT_RXOVF) (aJL_CNT2 j) fJL_CNT2_RXOVFCNT
    (ws.length - (1024 - pushesWaiting h (jesdRouter j)))) (jesdRouter j) (getF (bump (jRaise h j fJL_STAT_RXOVF)
    (aJL_CNT2 j) fJL_CNT2_RXOVFCNT (ws.length - (1024 - pushesWaiting h (jesdRouter j)))) (aJL_TRG j) fJL_TRG_RXPEN)
    (getF (bump (jRaise h j fJL_STAT_RXOVF) (aJL_CNT2 j) fJL_CNT2_RXOVFCNT (ws.length - (1024 - pushesWaiting h
    (jesdRouter j)))) (aJL_TRG j) fJL_TRG_RXTRG) (ws.take (1024 - pushesWaiting h (jesdRouter j))).length (ws.take
    (1024 - pushesWaiting h (jesdRouter j))))) ∧
  (∀ (j : Fin 4) (room : Nat) (s : State), frozen s.hw = false → jEn s.hw (2 * j.val + 1) = true → room = 256 -
    (jdir s.hw (2 * j.val + 1)).buf.length - pullsAsked s.hw (jesdRouter j) → room ≠ 0 → GivesHw (.jesdTxPull j) s
    (queueRequest s.hw (pullOf s.hw j (min 8 room)))) ∧
  (∀ (j : Fin 4) (s : State), jEn s.hw (2 * j.val + 1) = false ∨ 256 ≤ (jdir s.hw (2 * j.val + 1)).buf.length +
    pullsAsked s.hw (jesdRouter j) → GivesHw (.jesdTxPull j) s s.hw) ∧
  (∀ (j : Fin 4) (s : State), jEn s.hw (2 * j.val + 1) = false ∨ jUp s.hw (2 * j.val + 1) = false → GivesHw
    (.jesdTxSample j) s s.hw) ∧
  (∀ (j : Fin 4) (s : State), frozen s.hw = false → jEn s.hw (2 * j.val + 1) = true → jUp s.hw (2 * j.val + 1) =
    true → isSet s.hw (aJL_STAT j) fJL_STAT_MUTED = true → GivesHw (.jesdTxSample j) s (slotsSent s.hw (2 * j.val +
    1) ((jdir s.hw (2 * j.val + 1)).buf.drop 1) (zeroSlots s.hw (2 * j.val + 1)))) ∧
  (∀ (j : Fin 4) (s : State), frozen s.hw = false → jEn s.hw (2 * j.val + 1) = true → jUp s.hw (2 * j.val + 1) =
    true → isSet s.hw (aJL_STAT j) fJL_STAT_MUTED = false → s.hw.fab.blank.getLsbD j = true → GivesHw (.jesdTxSample
    j) s (blankSent s.hw (2 * j.val + 1))) ∧
  (∀ (j : Fin 4) (s : State), frozen s.hw = false → jEn s.hw (2 * j.val + 1) = true → jUp s.hw (2 * j.val + 1) =
    true → isSet s.hw (aJL_STAT j) fJL_STAT_MUTED = false → s.hw.fab.blank.getLsbD j = false → (jdir s.hw (2 * j.val
    + 1)).buf = [] → GivesHw (.jesdTxSample j) s (slotsSent (bump (jRaise s.hw j fJL_STAT_TXGAP) (aJL_CNT2 j)
    fJL_CNT2_TXGAPCNT (perWord s.hw (2 * j.val + 1))) (2 * j.val + 1) [] (zeroSlots s.hw (2 * j.val + 1)))) ∧
  (∀ (j : Fin 4) (w : TW) (ws : List TW) (s : State), frozen s.hw = false → jEn s.hw (2 * j.val + 1) = true → jUp
    s.hw (2 * j.val + 1) = true → isSet s.hw (aJL_STAT j) fJL_STAT_MUTED = false → s.hw.fab.blank.getLsbD j = false
    → (jdir s.hw (2 * j.val + 1)).buf = w :: ws → jField s.hw (2 * j.val + 1) fJL_RXCFG_ALIGN = 1 → w.f = true →
    (jdir s.hw (2 * j.val + 1)).go = false → GivesHw (.jesdTxSample j) s (slotsSent s.hw (2 * j.val + 1) (w :: ws)
    (zeroSlots s.hw (2 * j.val + 1)))) ∧
  (∀ (j : Fin 4) (w : TW) (ws : List TW) (s : State), frozen s.hw = false → jEn s.hw (2 * j.val + 1) = true → jUp
    s.hw (2 * j.val + 1) = true → isSet s.hw (aJL_STAT j) fJL_STAT_MUTED = false → s.hw.fab.blank.getLsbD j = false
    → (jdir s.hw (2 * j.val + 1)).buf = w :: ws → jField s.hw (2 * j.val + 1) fJL_RXCFG_ALIGN ≠ 1 ∨ w.f = false ∨
    (jdir s.hw (2 * j.val + 1)).go = true → w.p = true → GivesHw (.jesdTxSample j) s (slotsSent (poisonSent s.hw j)
    (2 * j.val + 1) ws (zeroSlots s.hw (2 * j.val + 1)))) ∧
  (∀ (j : Fin 4) (w : TW) (ws : List TW) (s : State), frozen s.hw = false → jEn s.hw (2 * j.val + 1) = true → jUp
    s.hw (2 * j.val + 1) = true → isSet s.hw (aJL_STAT j) fJL_STAT_MUTED = false → s.hw.fab.blank.getLsbD j = false
    → (jdir s.hw (2 * j.val + 1)).buf = w :: ws → jField s.hw (2 * j.val + 1) fJL_RXCFG_ALIGN ≠ 1 ∨ w.f = false ∨
    (jdir s.hw (2 * j.val + 1)).go = true → w.p = false → GivesHw (.jesdTxSample j) s (slotsSent s.hw (2 * j.val +
    1) ws (wireSamples s.hw (2 * j.val + 1) w.d)))

/-- O37. Frames, shapers, time stamps and link state of the Ethernet ports. A frame that is too long, too short, fails its
FCS, finds no room or is not addressed here counts as that; MAC control, unmatched and firmware frames count as
theirs; a message that its flow accepts is committed as a packet, counted and raises its event, and one that it does
not is taken back, counted and raises the error event. The highest eligible class sends the packet at the head of its
trough; a muted port discards it; a descriptor that is not valid, poisoned, with reserved bits or of another sub-port
sends nothing and counts. A due refill tick adds RATE up to the burst; FORGIVE makes a debt 0. ETH_TSLO pops the
oldest stamp. Squelch and link changes show themselves. A type 5 request is answered, with a follow-up where it asks
for one, and a timing record written or counted lost. Without its condition each of these does nothing. Rests on the
model's reading or choice in log entries 71, 72, 73, 75, 207, 208. (R295, R296, R297, R298, R300, R301, R302, R303,
R304, R305, R307, R314) -/
def Obligations.EthernetPortsAct : Prop :=
  (∀ (m : Fin 4) (sp : Fin 4) (fr : RxFrame) (s : State), ethOn s.hw (subPort m sp) = false → GivesHw
    (.ethFrameReceive m sp fr) s s.hw) ∧
  (∀ (m : Fin 4) (sp : Fin 4) (fr : RxFrame) (s : State), frozen s.hw = false → ethOn s.hw (subPort m sp) = true →
    classify s.hw (subPort m sp) fr.bytes = .macctl → GivesHw (.ethFrameReceive m sp fr) s (ethCount s.hw (subPort m
    sp) ((discardOf s.hw (subPort m sp) fr).getD 5) 1)) ∧
  (∀ (m : Fin 4) (sp : Fin 4) (fr : RxFrame) (k : Nat) (s : State), frozen s.hw = false → ethOn s.hw (subPort m sp)
    = true → classify s.hw (subPort m sp) fr.bytes = .unmatched ∨ classify s.hw (subPort m sp) fr.bytes = .mp true ∨
    classify s.hw (subPort m sp) fr.bytes = .mp false → discardOf s.hw (subPort m sp) fr = some k → GivesHw
    (.ethFrameReceive m sp fr) s (ethCount s.hw (subPort m sp) k 1)) ∧
  (∀ (m : Fin 4) (sp : Fin 4) (fr : RxFrame) (s : State), frozen s.hw = false → ethOn s.hw (subPort m sp) = true →
    classify s.hw (subPort m sp) fr.bytes = .unmatched → discardOf s.hw (subPort m sp) fr = none → isSet s.hw
    (aETH_PCTL (subPort m sp)) fETH_PCTL_EXC = false → GivesHw (.ethFrameReceive m sp fr) s (ethCount s.hw (subPort
    m sp) 6 1)) ∧
  (∀ (m : Fin 4) (sp : Fin 4) (fr : RxFrame) (s : State), frozen s.hw = false → ethOn s.hw (subPort m sp) = true →
    classify s.hw (subPort m sp) fr.bytes = .unmatched → discardOf s.hw (subPort m sp) fr = none → isSet s.hw
    (aETH_PCTL (subPort m sp)) fETH_PCTL_EXC = true → GivesHw (.ethFrameReceive m sp fr) s (frameCounted s.hw
    (subPort m sp) fr)) ∧
  (∀ (m : Fin 4) (sp : Fin 4) (fr : RxFrame) (s : State), frozen s.hw = false → ethOn s.hw (subPort m sp) = true →
    classify s.hw (subPort m sp) fr.bytes = .mp true → discardOf s.hw (subPort m sp) fr = none → GivesHw
    (.ethFrameReceive m sp fr) s (ethCount (frameCounted s.hw (subPort m sp) fr) (subPort m sp) 9 1)) ∧
  (∀ (m : Fin 4) (sp : Fin 4) (fr : RxFrame) (s : State), frozen s.hw = false → ethOn s.hw (subPort m sp) = true →
    classify s.hw (subPort m sp) fr.bytes = .mp false → discardOf s.hw (subPort m sp) fr = none → delayOk (messageOf
    fr) = true → GivesHw (.ethFrameReceive m sp fr) s (frameCounted s.hw (subPort m sp) fr)) ∧
  (∀ (m : Fin 4) (sp : Fin 4) (fr : RxFrame) (s : State), frozen s.hw = false → ethOn s.hw (subPort m sp) = true →
    classify s.hw (subPort m sp) fr.bytes = .mp false → discardOf s.hw (subPort m sp) fr = none → delayOk (messageOf
    fr) = false → GivesHw (.ethFrameReceive m sp fr) s (ethCount s.hw (subPort m sp) 7 1)) ∧
  (∀ (m : Fin 4) (sp : Fin 4) (fr : RxFrame) (k : Nat) (ty : Nat) (s : State), frozen s.hw = false → ethOn s.hw
    (subPort m sp) = true → classify s.hw (subPort m sp) fr.bytes = .flow k ty → addressTaken s.hw (subPort m sp) fr
    = false → GivesHw (.ethFrameReceive m sp fr) s (ethCount s.hw (subPort m sp) ((discardOf s.hw (subPort m sp)
    fr).getD 10) 1)) ∧
  (∀ (m : Fin 4) (sp : Fin 4) (fr : RxFrame) (k : Nat) (ty : Nat) (s : State), frozen s.hw = false → ethOn s.hw
    (subPort m sp) = true → classify s.hw (subPort m sp) fr.bytes = .flow k ty → addressTaken s.hw (subPort m sp) fr
    = true → headerOk (messageOf fr) = false → GivesHw (.ethFrameReceive m sp fr) s (flowEvent s.hw (ethCount s.hw
    (subPort m sp) ((discardOf s.hw (subPort m sp) fr).getD 7) 1) (subPort m sp) k 0xD3)) ∧
  (∀ (m : Fin 4) (sp : Fin 4) (fr : RxFrame) (k : Nat) (ty : Nat) (c : Nat) (s : State), frozen s.hw = false → ethOn
    s.hw (subPort m sp) = true → classify s.hw (subPort m sp) fr.bytes = .flow k ty → addressTaken s.hw (subPort m
    sp) fr = true → headerOk (messageOf fr) = true → discardOf s.hw (subPort m sp) fr = some c → GivesHw
    (.ethFrameReceive m sp fr) s (flowEvent s.hw (rxAborted (parityCount s.hw (subPort m sp) (parityInside fr))
    (subPort m sp) k (rxPacketOf s.hw (subPort m sp) k ty fr) c) (subPort m sp) k 0xD3)) ∧
  (∀ (m : Fin 4) (sp : Fin 4) (fr : RxFrame) (k : Nat) (ty : Nat) (s : State), frozen s.hw = false → ethOn s.hw
    (subPort m sp) = true → classify s.hw (subPort m sp) fr.bytes = .flow k ty → addressTaken s.hw (subPort m sp) fr
    = true → headerOk (messageOf fr) = true → discardOf s.hw (subPort m sp) fr = none → messageOk s.hw ((subPort m
    sp) / 4) k ty (messageOf fr) = false → GivesHw (.ethFrameReceive m sp fr) s (flowEvent s.hw (rxAborted
    (parityCount s.hw (subPort m sp) (parityInside fr)) (subPort m sp) k (rxPacketOf s.hw (subPort m sp) k ty fr) 7)
    (subPort m sp) k 0xD3)) ∧
  (∀ (m : Fin 4) (sp : Fin 4) (fr : RxFrame) (k : Nat) (ty : Nat) (s : State), frozen s.hw = false → ethOn s.hw
    (subPort m sp) = true → classify s.hw (subPort m sp) fr.bytes = .flow k ty → addressTaken s.hw (subPort m sp) fr
    = true → headerOk (messageOf fr) = true → discardOf s.hw (subPort m sp) fr = none → messageOk s.hw ((subPort m
    sp) / 4) k ty (messageOf fr) = true → (rxPacketOf s.hw (subPort m sp) k ty fr).2.2.2 = false → GivesHw
    (.ethFrameReceive m sp fr) s (flowEvent s.hw (frameCounted (rxCommitted (parityCount s.hw (subPort m sp)
    (parityInside fr)) (subPort m sp) k (rxPacketOf s.hw (subPort m sp) k ty fr)) (subPort m sp) fr) (subPort m sp)
    k (if ty = 0 then 0xD0 else 0xD1))) ∧
  (∀ (m : Fin 4) (sp : Fin 4) (fr : RxFrame) (k : Nat) (ty : Nat) (s : State), frozen s.hw = false → ethOn s.hw
    (subPort m sp) = true → classify s.hw (subPort m sp) fr.bytes = .flow k ty → addressTaken s.hw (subPort m sp) fr
    = true → headerOk (messageOf fr) = true → discardOf s.hw (subPort m sp) fr = none → messageOk s.hw ((subPort m
    sp) / 4) k ty (messageOf fr) = true → (rxPacketOf s.hw (subPort m sp) k ty fr).2.2.2 = true → GivesHw
    (.ethFrameReceive m sp fr) s (flowEvent s.hw (frameCounted (ethCount (rxCommitted (parityCount s.hw (subPort m
    sp) (parityInside fr)) (subPort m sp) k (rxPacketOf s.hw (subPort m sp) k ty fr)) (subPort m sp) 11 1) (subPort
    m sp) fr) (subPort m sp) k (if ty = 0 then 0xD0 else 0xD1))) ∧
  (∀ (m : Fin 4) (sp : Fin 4) (bad : Bool) (es : List Ecc) (c : Nat) (s : State), frozen s.hw = false → ethOn s.hw
    (subPort m sp) = true → [7, 6, 5, 4, 3, 2, 1, 0].find? (classReady s.mem s.hw (subPort m sp)) = some c → isSet
    s.hw (aETH_PSTAT (subPort m sp)) fETH_PSTAT_MUTED = false → GivesHw (.ethFrameTransmit m sp bad es) s
    (sendPacket (headTaken s.mem s.hw (subPort m sp) c es).2 (subPort m sp) c ((headTaken s.mem s.hw (subPort m sp)
    c es).1.drop 1) bad)) ∧
  (∀ (m : Fin 4) (sp : Fin 4) (bad : Bool) (es : List Ecc) (c : Nat) (s : State), frozen s.hw = false → ethOn s.hw
    (subPort m sp) = true → [7, 6, 5, 4, 3, 2, 1, 0].find? (classReady s.mem s.hw (subPort m sp)) = some c → isSet
    s.hw (aETH_PSTAT (subPort m sp)) fETH_PSTAT_MUTED = true → GivesHw (.ethFrameTransmit m sp bad es) s (ethCount
    (headTaken s.mem s.hw (subPort m sp) c es).2 (subPort m sp) 18 1)) ∧
  (∀ (m : Fin 4) (sp : Fin 4) (bad : Bool) (es : List Ecc) (s : State), ethOn s.hw (subPort m sp) = false ∨ [7, 6,
    5, 4, 3, 2, 1, 0].find? (classReady s.mem s.hw (subPort m sp)) = none → GivesHw (.ethFrameTransmit m sp bad es)
    s s.hw) ∧
  (∀ (h : Hw) (i : Nat) (c : Nat) (w : TW) (ws : List TW) (bad : Bool), w.v = false ∨ w.p = true ∨ 2 ^ 38 ≤
    w.d.toNat ∨ getF h (aETH_TXFLOW0 (i / 4) (w.d.toNat % 64)) fETH_TXFLOW0_SUB ≠ i % 4 ∨ ws = [] → sendPacket h i c
    (w :: ws) bad = ethCount h i 16 1) ∧
  (∀ (s : State), frozen s.hw = false → refillDue s.hw = true → s.hw.eth.refillAt ≠ s.hw.aclk + 1 → GivesHw
    .shaperRefillTick s (applyAll (fun h k => refill h (k / 8) (k % 8)) (refillNoted s.hw) (List.range 128))) ∧
  (∀ (s : State), refillDue s.hw = false ∨ s.hw.eth.refillAt = s.hw.aclk + 1 → GivesHw .shaperRefillTick s s.hw) ∧
  (∀ (i : Nat) (c : Nat) (s : State), isSet s.hw (aETH_TC i c) fETH_TC_SHEN = true → refill s.hw i c = setBucket
    s.hw i c (min (bucket s.hw i c + getF s.hw (aETH_TC i c) fETH_TC_RATE) ((16 * getF s.hw (aETH_TC i c)
    fETH_TC_BURST : Nat) : Int))) ∧
  (∀ (m : Fin 4) (sp : Fin 4) (c : Fin 8) (h : Hw) (s : State), Up s → h = tcRewritten s.hw (subPort m sp) c → 0 ≤
    bucket (tcWritten s.hw h (subPort m sp) c) (subPort m sp) c → GivesHw (.forgive m sp c) s (tcWritten s.hw h
    (subPort m sp) c)) ∧
  (∀ (m : Fin 4) (sp : Fin 4) (c : Fin 8) (h : Hw) (s : State), Up s → h = tcRewritten s.hw (subPort m sp) c →
    bucket (tcWritten s.hw h (subPort m sp) c) (subPort m sp) c < 0 → GivesHw (.forgive m sp c) s (setBucket
    (tcWritten s.hw h (subPort m sp) c) (subPort m sp) c 0)) ∧
  (∀ (m : Fin 4) (sp : Fin 4) (s : State), Up s → getD [] s.hw.eth.fifo (subPort m sp) = [] → GivesHw (.ethTsloRead
    m sp) s (answerRead s.hw (leBytes 8 0))) ∧
  (∀ (m : Fin 4) (sp : Fin 4) (e : Nat × Nat × Nat) (es : List (Nat × Nat × Nat)) (s : State), Up s → getD []
    s.hw.eth.fifo (subPort m sp) = e :: es → GivesHw (.ethTsloRead m sp) s (answerRead (setReg (stampPopped s.hw
    (subPort m sp) es) (aETH_TSHI (subPort m sp)) (BitVec.ofNat 64 e.1)) (leBytes 8 (BitVec.ofNat 64 (e.2.1 + e.2.2
    * 2 ^ 32 + 2 ^ 48)).toNat))) ∧
  (∀ (s : State), frozen s.hw = false → isSet s.hw (aETH_RCLK 0) fETH_RCLK_EN = true → isSet s.hw (aETH_RCLK 0)
    fETH_RCLK_SQ = false → GivesHw .rclkSquelch s (raiseBit (setF s.hw (aETH_RCLK 0) fETH_RCLK_SQ 1) (aETH_RCLK 0)
    fETH_RCLK_SQCHG)) ∧
  (∀ (s : State), frozen s.hw = false → isSet s.hw (aETH_RCLK 0) fETH_RCLK_EN = true → isSet s.hw (aETH_RCLK 0)
    fETH_RCLK_SQ = true → GivesHw .rclkResume s (raiseBit (setF s.hw (aETH_RCLK 0) fETH_RCLK_SQ 0) (aETH_RCLK 0)
    fETH_RCLK_SQCHG)) ∧
  (∀ (s : State), isSet s.hw (aETH_RCLK 0) fETH_RCLK_EN = false → GivesHw .rclkSquelch s s.hw) ∧
  (∀ (s : State), isSet s.hw (aETH_RCLK 0) fETH_RCLK_EN = false → GivesHw .rclkResume s s.hw) ∧
  (∀ (m : Fin 4) (sp : Fin 4) (up : Bool) (s : State), frozen s.hw = false → isSet s.hw (aETH_PSTAT (subPort m sp))
    fETH_PSTAT_LINK ≠ up → GivesHw (.ethLinkChange m sp up) s (raiseBit (setF s.hw (aETH_PSTAT (subPort m sp))
    fETH_PSTAT_LINK up.toNat) (aETH_PSTAT (subPort m sp)) fETH_PSTAT_LINKCHG)) ∧
  (∀ (m : Fin 4) (sp : Fin 4) (up : Bool) (s : State), isSet s.hw (aETH_PSTAT (subPort m sp)) fETH_PSTAT_LINK = up →
    GivesHw (.ethLinkChange m sp up) s s.hw) ∧
  (∀ (m : Fin 4) (sp : Fin 4) (req : List Byte) (secs : BitVec 48) (ns : BitVec 32) (s : State), frozen s.hw = false
    → ethOn s.hw (subPort m sp) = true → isSet s.hw (aETH_PSTAT (subPort m sp)) fETH_PSTAT_MUTED = false →
    (frameHead req).et = 0xAEFE → beNat (slice (req.drop (frameHead req).body) 1 1) = 5 → beNat (slice (req.drop
    (frameHead req).body) 5 1) = 0 → GivesHw (.ecpriDelayResponse m sp req secs ns) s (sendFrame s.hw (subPort m sp)
    (delayFrame s.hw (subPort m sp) req 2 secs.toNat ns.toNat (compOf s.hw (subPort m sp))) false)) ∧
  (∀ (m : Fin 4) (sp : Fin 4) (req : List Byte) (secs : BitVec 48) (ns : BitVec 32) (s : State), frozen s.hw = false
    → ethOn s.hw (subPort m sp) = true → isSet s.hw (aETH_PSTAT (subPort m sp)) fETH_PSTAT_MUTED = false →
    (frameHead req).et = 0xAEFE → beNat (slice (req.drop (frameHead req).body) 1 1) = 5 → beNat (slice (req.drop
    (frameHead req).body) 5 1) = 1 → GivesHw (.ecpriDelayResponse m sp req secs ns) s (sendFrame (sendFrame s.hw
    (subPort m sp) (delayFrame s.hw (subPort m sp) req 2 secs.toNat ns.toNat (compOf s.hw (subPort m sp))) false)
    (subPort m sp) (delayFrame s.hw (subPort m sp) req 5 (egressTime s.hw (subPort m sp)).1 (egressTime s.hw
    (subPort m sp)).2 (compOf s.hw (subPort m sp))) false)) ∧
  (∀ (m : Fin 4) (sp : Fin 4) (req : List Byte) (secs : BitVec 48) (ns : BitVec 32) (s : State), ethOn s.hw (subPort
    m sp) = false ∨ isSet s.hw (aETH_PSTAT (subPort m sp)) fETH_PSTAT_MUTED = true ∨ (frameHead req).et ≠ 0xAEFE ∨
    beNat (slice (req.drop (frameHead req).body) 1 1) ≠ 5 ∨ 2 ≤ beNat (slice (req.drop (frameHead req).body) 5 1) →
    GivesHw (.ecpriDelayResponse m sp req secs ns) s s.hw) ∧
  (∀ (m : Fin 4) (sp : Fin 4) (rec : RingRec) (r : PtpRing) (s : State), frozen s.hw = false → lookup s.hw.eth.ptp
    (subPort m sp) = some r → 1 ≤ rec.kind.toNat → rec.kind.toNat ≤ 4 → timingRoom r ≤ ringHeld s.mem r → GivesMem
    (.timingRingRecord m sp rec) s (ringPut s.mem r.base 16 (leBytes 8 (ringRead s.mem r.base 16 8 + 1)), s.hw)) ∧
  (∀ (m : Fin 4) (sp : Fin 4) (rec : RingRec) (r : PtpRing) (m1 : Sparse Byte) (s : State), frozen s.hw = false →
    lookup s.hw.eth.ptp (subPort m sp) = some r → 1 ≤ rec.kind.toNat → rec.kind.toNat ≤ 4 → ringHeld s.mem r <
    timingRoom r → m1 = ringPut s.mem r.base (32 + 256 * (ringRead s.mem r.base 0 8 % timingRoom r)) (ringBytes rec
    (subPort m sp)) → GivesMem (.timingRingRecord m sp rec) s (ringPut m1 r.base 0 (leBytes 8 (ringRead s.mem r.base
    0 8 + 1)), sendVector s.hw 21)) ∧
  (∀ (m : Fin 4) (sp : Fin 4) (rec : RingRec) (s : State), lookup s.hw.eth.ptp (subPort m sp) = none ∨ rec.kind = 0
    ∨ 4 < rec.kind.toNat → GivesHw (.timingRingRecord m sp rec) s s.hw)

/-- O38. Increment, steps, sets, reads, holdover, capture and PPS. TB_INC takes a value within its limits and else sets
RSVVAL; while the chain servo owns the timebase a write of TB_INC, TB_STEP or TB_SET1 only sets CHOWN. A step or a set
within its limits is asked of the counter for the next cycle with STEPPED, any other sets RSVVAL. A read of TB_TIME0
gives fraction and nanoseconds and latches the seconds. In a cycle in which nothing is asked the counter moves by EFF,
with a step by the step besides, and a set puts it at its time. The holdover update of a due millisecond gives h and
the ageing sum, and does nothing in another cycle. A selected edge captures the time and sets VALID, with OVR where
VALID stood; the PPS pad rises in the cycle in which NS = 0 and falls WIDTH later. Rests on the model's reading or
choice in log entries 78, 208, 210. (R308, R309, R310, R311, R312, R315, R316) -/
def Obligations.TimebaseActs : Prop :=
  (∀ (v : BitVec 64) (s : State), Up s → chainOwned s.hw = false → 0xD04AAAAA ≤ v.toNat → v.toNat ≤ 0xD0600000 →
    GivesHw (.tbIncWrite v) s (setReg s.hw aTB_INC v)) ∧
  (∀ (v : BitVec 64) (s : State), Up s → chainOwned s.hw = false → v.toNat < 0xD04AAAAA ∨ 0xD0600000 < v.toNat →
    GivesHw (.tbIncWrite v) s (raiseBit s.hw aTB_CTL fTB_CTL_RSVVAL)) ∧
  (∀ (v : BitVec 64) (s : State), Up s → chainOwned s.hw = true → GivesHw (.tbIncWrite v) s (raiseBit s.hw aTB_CTL
    fTB_CTL_CHOWN)) ∧
  (∀ (v : BitVec 64) (s : State), Up s → chainOwned s.hw = true → GivesHw (.tbStep v) s (raiseBit s.hw aTB_CTL
    fTB_CTL_CHOWN)) ∧
  (∀ (v : BitVec 64) (s : State), Up s → chainOwned s.hw = true → GivesHw (.tbSet v) s (raiseBit s.hw aTB_CTL
    fTB_CTL_CHOWN)) ∧
  (∀ (v : BitVec 64) (w : BitVec 64) (s : State), Up s → chainOwned s.hw = false → w = v ||| BitVec.ofNat 64 (2 ^
    63) → stepOk (setF s.hw aTB_STEP fTB_STEP_OFS w.toNat) (signed 48 (w.toNat % 2 ^ 48)) = true → GivesHw (.tbStep
    v) s (askTb (setF s.hw aTB_STEP fTB_STEP_OFS w.toNat) (.step (signed 48 (w.toNat % 2 ^ 48))))) ∧
  (∀ (v : BitVec 64) (w : BitVec 64) (s : State), Up s → chainOwned s.hw = false → w = v ||| BitVec.ofNat 64 (2 ^
    63) → stepOk (setF s.hw aTB_STEP fTB_STEP_OFS w.toNat) (signed 48 (w.toNat % 2 ^ 48)) = false → GivesHw (.tbStep
    v) s (raiseBit (setF s.hw aTB_STEP fTB_STEP_OFS w.toNat) aTB_CTL fTB_CTL_RSVVAL)) ∧
  (∀ (v : BitVec 64) (w : BitVec 64) (s : State), Up s → chainOwned s.hw = false → w = v ||| BitVec.ofNat 64 (2 ^
    63) → fieldOf fTB_SET1_NS w.toNat < nsPerSec → GivesHw (.tbSet v) s (askTb (setF s.hw aTB_SET1 fTB_SET1_NS
    (fieldOf fTB_SET1_NS w.toNat)) (.set (getF (setF s.hw aTB_SET1 fTB_SET1_NS (fieldOf fTB_SET1_NS w.toNat))
    aTB_SET0 fTB_SET0_SEC) (fieldOf fTB_SET1_NS w.toNat)))) ∧
  (∀ (v : BitVec 64) (w : BitVec 64) (s : State), Up s → chainOwned s.hw = false → w = v ||| BitVec.ofNat 64 (2 ^
    63) → nsPerSec ≤ fieldOf fTB_SET1_NS w.toNat → GivesHw (.tbSet v) s (raiseBit (setF s.hw aTB_SET1 fTB_SET1_NS
    (fieldOf fTB_SET1_NS w.toNat)) aTB_CTL fTB_CTL_RSVVAL)) ∧
  (∀ (s : State), Up s → GivesHw .tbTime0Read s (answerRead (setReg s.hw aTB_TIME1 (BitVec.ofNat 64 s.hw.tb.sec))
    (leBytes 8 (BitVec.ofNat 64 (now32 s.hw % 2 ^ 32 + now32 s.hw / 2 ^ 32 % nsPerSec * 2 ^ 32)).toNat))) ∧
  (∀ (s : State), s.hw.tb.ops = [] → s.hw.tb.frac < 2 ^ 32 → s.hw.tb.ns < nsPerSec → s.hw.tb.sec + 1 < 2 ^ 48 →
    now32 (tickTime s.hw) = now32 s.hw + (effOf s.hw).1) ∧
  (∀ (k : Int) (n : Int) (s : State), s.hw.tb.ops = [.step k] → s.hw.tb.frac < 2 ^ 32 → s.hw.tb.ns < nsPerSec →
    s.hw.tb.sec + 1 < 2 ^ 48 → n = ((now32 s.hw + (effOf s.hw).1) / 2 ^ 32 : Nat) → 0 ≤ n + k → n + k < tbEnd →
    (now32 (tickTime s.hw) : Int) = now32 s.hw + (effOf s.hw).1 + k * 2 ^ 32) ∧
  (∀ (sec : Nat) (ns : Nat) (s : State), s.hw.tb.ops = [.set sec ns] → now32 (tickTime s.hw) = (sec * nsPerSec + ns)
    * 2 ^ 32) ∧
  (∀ (die : BitVec 13) (s : State), frozen s.hw = false → holdoverDue s.hw = true → Completes (.holdoverUpdate die)
    s (fun t => t.mem = s.mem ∧ t.hw.tb = withHoldover s.hw.tb (holdoverTerm s.hw die) (s.hw.aclk + 1) ∧ reg t.hw
    aTB_AGEACC = ageSum s.hw)) ∧
  (∀ (die : BitVec 13) (s : State), holdoverDue s.hw = false → GivesHw (.holdoverUpdate die) s s.hw) ∧
  (∀ (fall : Bool) (half : Bool) (s : State), frozen s.hw = false → isSet s.hw aTB_CAPIN fTB_CAPIN_EN = true → isSet
    s.hw aTB_CAPIN fTB_CAPIN_EDGE = fall → isSet s.hw aTB_CAPIN fTB_CAPIN_VALID = false → GivesHw (.timeCapture fall
    half) s (captureStored s.hw (now32 s.hw + (if half = true then (effOf s.hw).1 / 2 else 0)))) ∧
  (∀ (fall : Bool) (half : Bool) (s : State), frozen s.hw = false → isSet s.hw aTB_CAPIN fTB_CAPIN_EN = true → isSet
    s.hw aTB_CAPIN fTB_CAPIN_EDGE = fall → isSet s.hw aTB_CAPIN fTB_CAPIN_VALID = true → GivesHw (.timeCapture fall
    half) s (captureStored (raiseBit s.hw aTB_CAPIN fTB_CAPIN_OVR) (now32 s.hw + (if half = true then (effOf s.hw).1
    / 2 else 0)))) ∧
  (∀ (fall : Bool) (half : Bool) (s : State), isSet s.hw aTB_CAPIN fTB_CAPIN_EN = false ∨ isSet s.hw aTB_CAPIN
    fTB_CAPIN_EDGE ≠ fall → GivesHw (.timeCapture fall half) s s.hw) ∧
  (∀ (s : State), frozen s.hw = false → ppsGranted s.hw = true → s.hw.ppsHigh = false → (s.hw.tb.ns * 2 ^ 32 +
    s.hw.tb.frac) < (effOf s.hw).1 → GivesHw .ppsRise s (ppsAt s.hw true (slotOfTime s.hw (now32 s.hw - (s.hw.tb.ns
    * 2 ^ 32 + s.hw.tb.frac)) + 1))) ∧
  (∀ (s : State), ppsGranted s.hw = false ∨ s.hw.ppsHigh = true ∨ (effOf s.hw).1 ≤ (s.hw.tb.ns * 2 ^ 32 +
    s.hw.tb.frac) → GivesHw .ppsRise s s.hw) ∧
  (∀ (s : State), frozen s.hw = false → s.hw.ppsHigh = true → (getF s.hw aTB_PPS fTB_PPS_WIDTH * 1000) ≤ s.hw.tb.ns
    → GivesHw .ppsFall s (ppsAt s.hw false (slotOfTime s.hw ((s.hw.tb.sec * nsPerSec + (getF s.hw aTB_PPS
    fTB_PPS_WIDTH * 1000)) * 2 ^ 32) + 1))) ∧
  (∀ (s : State), s.hw.ppsHigh = false ∨ s.hw.tb.ns < (getF s.hw aTB_PPS fTB_PPS_WIDTH * 1000) → GivesHw .ppsFall s
    s.hw)

/-- O39. Commits, starts and stops of the gate schedule. A commit that R319 refuses only sets INVWR; any other takes the
staged start, stop, period and count with the control word. At a start that is reached, an occurrence shorter than a
resolution step, or a late one whose stop comes before its rise, counts as empty and is over; an entry that uses no
stop fires its strobe, counts, and is over; one with a window counts and opens it. A stop reached closes the window,
gives its strobe where the entry has one, and the occurrence is over. When an occurrence is over, an entry without a
period, or whose count ends, disarms, and else comes to its next occurrence. Nothing happens to an entry that is not
armed, or before its time. Rests on the model's reading or choice in log entries 79, 81. (R317, R318, R319, R320,
R321, R322, R323, R325) -/
def Obligations.GateEntriesAct : Prop :=
  (∀ (i : Fin 64) (v : BitVec 64) (s : State), Up s → commitRefused s.hw i v.toNat (stagedGate s.hw i).1 (stagedGate
    s.hw i).2.1 (stagedGate s.hw i).2.2.1 = true → GivesHw (.gsCtlCommit i v) s (raiseBit s.hw (aGS_STAT i)
    fGS_STAT_INVWR)) ∧
  (∀ (i : Fin 64) (v : BitVec 64) (s : State), Up s → commitRefused s.hw i v.toNat (stagedGate s.hw i).1 (stagedGate
    s.hw i).2.1 (stagedGate s.hw i).2.2.1 = false → GivesHw (.gsCtlCommit i v) s (commitGate s.hw i v.toNat
    (stagedGate s.hw i).1 (stagedGate s.hw i).2.1 (stagedGate s.hw i).2.2.1 (stagedGate s.hw i).2.2.2 false)) ∧
  (∀ (h : Hw) (i : Nat) (v : Nat) (a : Nat) (b : Nat) (p : Nat) (c : Nat) (g : Gate), g = gate (commitGate h i v a b
    p c false) i → g.start = a ∧ g.stop = b ∧ g.per = p ∧ g.cnt = c) ∧
  (∀ (i : Fin 64) (s : State), frozen s.hw = false → gArmed s.hw i = true → gOpen s.hw i = false → gateDue s.hw i =
    true → emptyOcc s.hw i (gate s.hw i) = true → GivesHw (.gateStart i) s (endOcc (bump s.hw (aGS_STAT i)
    fGS_STAT_EMPTYCNT 1) i)) ∧
  (∀ (i : Fin 64) (s : State), frozen s.hw = false → gArmed s.hw i = true → gOpen s.hw i = false → gateDue s.hw i =
    true → emptyOcc s.hw i (gate s.hw i) = false → usesStop (reg s.hw (aGS_CTL i)).toNat = false → GivesHw
    (.gateStart i) s (endOcc (bump (gateFired s.hw i) (aGS_STAT i) fGS_STAT_FIRECNT 1) i)) ∧
  (∀ (i : Fin 64) (s : State), frozen s.hw = false → gArmed s.hw i = true → gOpen s.hw i = false → gateDue s.hw i =
    true → emptyOcc s.hw i (gate s.hw i) = false → usesStop (reg s.hw (aGS_CTL i)).toNat = true → gateLate s.hw i =
    true ∧ (t32 (gate s.hw i).stop : Int) ≤ lateRise s.hw i → GivesHw (.gateStart i) s (endOcc (bump (gateFired s.hw
    i) (aGS_STAT i) fGS_STAT_EMPTYCNT 1) i)) ∧
  (∀ (i : Fin 64) (s : State), frozen s.hw = false → gArmed s.hw i = true → gOpen s.hw i = false → gateDue s.hw i =
    true → emptyOcc s.hw i (gate s.hw i) = false → usesStop (reg s.hw (aGS_CTL i)).toNat = true → ¬ (gateLate s.hw i
    = true ∧ (t32 (gate s.hw i).stop : Int) ≤ lateRise s.hw i) → GivesHw (.gateStart i) s (setGate (bump (gateFired
    s.hw i) (aGS_STAT i) fGS_STAT_FIRECNT 1) i (windowOpened (gate (gateFired s.hw i) i) (riseSlot s.hw i + 1)))) ∧
  (∀ (i : Fin 64) (s : State), gArmed s.hw i = false ∨ gOpen s.hw i = true ∨ gateDue s.hw i = false → GivesHw
    (.gateStart i) s s.hw) ∧
  (∀ (i : Fin 64) (h : Hw) (s : State), frozen s.hw = false → gOpen s.hw i = true → t32 (gate s.hw i).stop ≤ now32
    s.hw → h = (if 2 ≤ getF s.hw (aGS_CTL i) fGS_CTL_EVMODE then strobe s.hw i else s.hw) → GivesHw (.gateStop i) s
    (endOcc (setGate h i (windowClosed (gate h i) (max (slotOfTime s.hw (t32 (gate s.hw i).stop) + 1) (gate s.hw
    i).closeAt))) i)) ∧
  (∀ (i : Fin 64) (s : State), gOpen s.hw i = false ∨ now32 s.hw < t32 (gate s.hw i).stop → GivesHw (.gateStop i) s
    s.hw) ∧
  (∀ (h : Hw) (i : Nat), (gate h i).per = 0 ∨ (gate h i).cnt = 1 → gArmed (endOcc h i) i = false) ∧
  (∀ (h : Hw) (i : Nat) (g : Gate), g = gate h i → g.per ≠ 0 → g.cnt ≠ 1 → g.skip = none → (gate (endOcc h i)
    i).start = g.start + g.per ∧ (gate (endOcc h i) i).stop = g.stop + g.per ∧ (gate (endOcc h i) i).cnt = g.cnt - 1
    ∧ gArmed (endOcc h i) i = gArmed h i)

/-- O40. Clock edges, event wires, pads and capture of the tack fabric. At a falling edge of FCLK or ACLK/4 every block is
clocked where the fabric runs, at a rising one the registers, pads, event wires and inputs besides, once in its cycle;
an edge at an input clocks its block; a reserved segment select acts as constant 0. A raised event wire raises event
0xE0 + k of its yard, and a chain event wire sends its EVENT. A bank goes to 3.3 V with VIN at 3.6 V and else sets
VLOW; VIN below 3.55 V turns it off with its alarm and holds the SYNC~ of the 204B directions there. FCLAIM claims or
gives up a pad, and a pad whose claim has ended passes on at the next edge. ARM and CANCEL begin and end a capture,
which at its edge fills the shadow registers, and one cycle of FCLK later sets DONE and advances SEQ. Without its
condition each of these does nothing. Rests on the model's reading or choice in log entries 82, 83, 84, 211. (R327,
R329, R330, R334, R335, R337, R340, R341, R344, R478, R479) -/
def Obligations.FabricPadsAndCaptureAct : Prop :=
  (∀ (c : FabClk) (r : Bool) (pads : List (Nat × BitVec 8)) (s : State), c = .fclk r ∨ c = .aclk4 r → frozen s.hw =
    false → r = false → s.hw.aclk % 4 = 2 → s.hw.fab.edge ≠ s.hw.aclk + 1 → GivesHw (.fabricClockEdge c pads) s
    (blocksClocked s.mem s.hw r)) ∧
  (∀ (c : FabClk) (r : Bool) (pads : List (Nat × BitVec 8)) (s : State), c = .fclk r ∨ c = .aclk4 r → frozen s.hw =
    false → r = true → s.hw.aclk % 4 = 0 → s.hw.fab.edge ≠ s.hw.aclk + 1 → GivesHw (.fabricClockEdge c pads) s
    (clockInputs (clockEvents s.mem s.hw (clockPads s.mem s.hw (segmentsClocked s.mem s.hw (blocksClocked s.mem s.hw
    r)))) pads)) ∧
  (∀ (c : FabClk) (r : Bool) (pads : List (Nat × BitVec 8)) (s : State), c = .fclk r ∨ c = .aclk4 r → s.hw.aclk % 4
    ≠ (if r = true then 0 else 2) ∨ s.hw.fab.edge = s.hw.aclk + 1 → GivesHw (.fabricClockEdge c pads) s s.hw) ∧
  (∀ (b : Fin 256) (i : Fin 48) (r : Bool) (pads : List (Nat × BitVec 8)) (s : State), frozen s.hw = false → fabOn
    s.hw = true → GivesHw (.fabricClockEdge (.clkin b i r) pads) s (movesNoted s.hw (clockBlock s.mem s.hw
    (firesUser i r) s.hw b) b)) ∧
  (∀ (m : Sparse Byte) (b : Nat) (k : Nat), turnsBack k (segRec m b k % 256) = true ∨ selectFits (segRec m b k %
    256) = false → segCode m b k = 0x40) ∧
  (∀ (b : Fin 256) (i : Fin 48) (r : Bool) (pads : List (Nat × BitVec 8)) (s : State), fabOn s.hw = false → GivesHw
    (.fabricClockEdge (.clkin b i r) pads) s s.hw) ∧
  (∀ (y : Fin 16) (k : Fin 16) (s : State), frozen s.hw = false → s.hw.fab.evs.contains (16 * y.val + k.val) = true
    → GivesHw (.fabricEventWire y k) s (raiseEvent (wireTaken s.hw (16 * y.val + k.val)) y (0xE0 + k))) ∧
  (∀ (y : Fin 16) (k : Fin 16) (s : State), s.hw.fab.evs.contains (16 * y.val + k.val) = false → GivesHw
    (.fabricEventWire y k) s s.hw) ∧
  (∀ (k : Fin 4) (s : State), frozen s.hw = false → s.hw.fab.chEvs.contains k.val = true → GivesHw
    (.fabricChainEventWire k) s (sendEvent (chainWireTaken s.hw k) k (getF s.hw aCH_EVSEND fCH_EVSEND_TGT) (getF
    s.hw aCH_EVSEND fCH_EVSEND_YARDS))) ∧
  (∀ (k : Fin 4) (s : State), s.hw.fab.chEvs.contains k.val = false → GivesHw (.fabricChainEventWire k) s s.hw) ∧
  (∀ (b : Fin 4) (v : Bool) (mv : BitVec 16) (h : Hw) (s : State), Up s → h = setF s.hw aPW_VIN fPW_VIN_MV mv.toNat
    → bankStands h b v = false → GivesHw (.fioBankLevelChange b v mv) s (writeBank h b v (getF h aPW_VIN
    fPW_VIN_MV))) ∧
  (∀ (b : Fin 4) (v : Bool) (mv : BitVec 16) (h : Hw) (s : State), Up s → h = setF s.hw aPW_VIN fPW_VIN_MV mv.toNat
    → bankStands h b v = true → GivesHw (.fioBankLevelChange b v mv) s h) ∧
  (∀ (b : Fin 4) (mv : Nat) (s : State), frozen s.hw = false → 3600 ≤ mv → writeBank s.hw b true mv = setF (setF
    (setF s.hw (aFIO_BANK b) fFIO_BANK_V33 1) (aFIO_BANK b) fFIO_BANK_ACT33 1) (aFIO_BANK b) fFIO_BANK_OFF 0) ∧
  (∀ (b : Fin 4) (mv : Nat) (s : State), frozen s.hw = false → mv < 3600 → writeBank s.hw b true mv = raiseBit (setF
    s.hw (aFIO_BANK b) fFIO_BANK_V33 1) (aFIO_BANK b) fFIO_BANK_VLOW) ∧
  (∀ (b : Fin 4) (mv : Nat) (s : State), frozen s.hw = false → writeBank s.hw b false mv = setF (setF (setF s.hw
    (aFIO_BANK b) fFIO_BANK_V33 0) (aFIO_BANK b) fFIO_BANK_ACT33 0) (aFIO_BANK b) fFIO_BANK_OFF 0) ∧
  (∀ (b : Fin 4) (s : State), s.hw.clocked = true → isSet s.hw (aFIO_BANK b) fFIO_BANK_ACT33 = true → GivesHw
    (.fioBankLow b) s (raiseAlarm (syncsHeld (raiseBit (setF s.hw (aFIO_BANK b) fFIO_BANK_ACT33 0) (aFIO_BANK b)
    fFIO_BANK_OFF) b) 0x140 0xFF 0 b)) ∧
  (∀ (b : Fin 4) (s : State), s.hw.clocked = false ∨ isSet s.hw (aFIO_BANK b) fFIO_BANK_ACT33 = false → GivesHw
    (.fioBankLow b) s s.hw) ∧
  (∀ (p : Fin 64) (c : Bool) (s : State), Up s → Completes (.fclaim p c) s (fun t => isSet t.hw (aFIO_PAD p)
    fFIO_PAD_FCLAIM = c)) ∧
  (∀ (p : Fin 64) (s : State), frozen s.hw = false → padOwner s.hw p ≠ 0 → padClaimed s.hw p (padOwner s.hw p) =
    false → GivesHw (.resourceRelease p) s (padAtEdge s.hw p)) ∧
  (∀ (p : Fin 64) (s : State), padOwner s.hw p = 0 ∨ padClaimed s.hw p (padOwner s.hw p) = true → GivesHw
    (.resourceRelease p) s s.hw) ∧
  (∀ (h : Hw), h.aclk % 4 = 0 → passPads h = applyAll settlePad (padsTaken h) h.padDue) ∧
  (∀ (mode : BitVec 2) (s : State), Up s → mode = 0 → Completes (.capArm mode) s (fun t => t.hw.cap = some ⟨0, some
    (nextEdge s.hw), false⟩ ∧ isSet t.hw aCAP_STAT fCAP_STAT_BUSY = true)) ∧
  (∀ (mode : BitVec 2) (s : State), Up s → mode = 1 → (reg s.hw aCAP_EDGE).toNat < nextEdge s.hw → Completes
    (.capArm mode) s (fun t => t.hw.cap = some ⟨1, some (nextEdge s.hw), true⟩ ∧ isSet t.hw aCAP_STAT fCAP_STAT_BUSY
    = true)) ∧
  (∀ (mode : BitVec 2) (s : State), Up s → mode = 1 → nextEdge s.hw ≤ (reg s.hw aCAP_EDGE).toNat → Completes
    (.capArm mode) s (fun t => t.hw.cap = some ⟨1, some (reg s.hw aCAP_EDGE).toNat, false⟩ ∧ isSet t.hw aCAP_STAT
    fCAP_STAT_BUSY = true)) ∧
  (∀ (mode : BitVec 2) (s : State), Up s → mode = 2 → capTime s.hw ≤ now32 s.hw → Completes (.capArm mode) s (fun t
    => t.hw.cap = some ⟨2, some (nextEdge s.hw), true⟩ ∧ isSet t.hw aCAP_STAT fCAP_STAT_BUSY = true)) ∧
  (∀ (mode : BitVec 2) (s : State), Up s → mode = 2 → now32 s.hw < capTime s.hw → Completes (.capArm mode) s (fun t
    => t.hw.cap = some ⟨2, none, false⟩ ∧ isSet t.hw aCAP_STAT fCAP_STAT_BUSY = true)) ∧
  (∀ (mode : BitVec 2) (s : State), Up s → mode = 3 → Completes (.capArm mode) s (fun t => t.hw.cap = some ⟨3, none,
    false⟩ ∧ isSet t.hw aCAP_STAT fCAP_STAT_BUSY = true)) ∧
  (∀ (s : State), Up s → Completes .capCancel s (fun t => t.mem = s.mem ∧ t.hw.cap = none ∧ isSet t.hw aCAP_STAT
    fCAP_STAT_BUSY = false)) ∧
  (∀ (x : CapArm) (s : State), frozen s.hw = false → s.hw.cap = some x → s.hw.aclk % 4 = 0 → s.hw.fab.edge ≠
    s.hw.aclk + 1 → captureDue s.mem s.hw x = some true → GivesHw .capture s (captureTaken (fillShadow s.mem s.hw)
    x)) ∧
  (∀ (x : CapArm) (s : State), frozen s.hw = false → s.hw.cap = some x → s.hw.aclk % 4 = 0 → s.hw.fab.edge ≠
    s.hw.aclk + 1 → captureDue s.mem s.hw x = some false → GivesHw .capture s s.hw) ∧
  (∀ (x : CapArm) (h : Hw) (s : State), frozen s.hw = false → s.hw.cap = some x → s.hw.aclk % 4 = 0 → s.hw.fab.edge
    ≠ s.hw.aclk + 1 → captureDue s.mem s.hw x = none → h = (settle s.hw none).2 → GivesHw .capture s (if (settle
    s.hw none).1 = true then captureTaken (fillShadow s.mem h) x else h)) ∧
  (∀ (s : State), s.hw.cap = none ∨ s.hw.aclk % 4 ≠ 0 ∨ s.hw.fab.edge = s.hw.aclk + 1 → GivesHw .capture s s.hw) ∧
  (∀ (h : Hw) (e : Nat), h.capEnd = some e → e ≤ h.aclk → finishCapture h = setF (raiseBit (capEnded h) aCAP_STAT
    fCAP_STAT_DONE) aCAP_STAT fCAP_STAT_SEQ (getF h aCAP_STAT fCAP_STAT_SEQ + 1))

/-- O41. Requests, doorbells, taking, progress, aborts, freeing and PCIe resets of mailbox slots. Bytes written to the
request area of FREE slots are stored; where any byte of a write is not one, the write is counted once and sets MBWR.
A doorbell posts the FREE slots that it names, from the lowest up, after those posted before, and sets DBERR where one
is not FREE; HI_DONE frees the DONE slots named, and only those. The slot that is next is taken with the request that
its SRAM holds, a forwarded one as it came; a header check that fails completes it with its status, an uncorrectable
request of the host with HW_FAULT and MBUCE. Progress of a RUNNING slot never goes back, stays short of TOTAL, and
stands while FROZEN but for the readout engine; POSITION of a memory test on this device is what it has done, and of a
command forwarded what the device reports. An abort completes a POSTED slot with ABORTED, marks a RUNNING one and is
sent on where it was forwarded, and leaves others. A PCIe reset frees every host slot and keeps every register outside
BAR0; a command that executes goes on apart from its slot. Nothing happens without clocks. Rests on the model's
reading or choice in log entries 112, 117. (R347, R350, R351, R352, R353, R354, R355, R356, R357, R361) -/
def Obligations.MailboxSlotsFollowTheirStates : Prop :=
  (∀ (off : BitVec 14) (bs : List (BitVec 8)) (s : State), s.hw.clocked = true → ∀ i : Fin bs.length, requestByte
    s.hw (off.toNat + i) = true → GivesHw (.mailboxRequestWrite off bs) s (withMbox s.hw (requestStored s.hw
    s.hw.mbox off.toNat bs))) ∧
  (∀ (off : BitVec 14) (bs : List (BitVec 8)) (i : Fin bs.length) (s : State), s.hw.clocked = true → requestByte
    s.hw (off.toNat + i) = false → GivesHw (.mailboxRequestWrite off bs) s (raiseBit (hostDrop (withMbox s.hw
    (requestStored s.hw s.hw.mbox off.toNat bs))) aHI_STAT fHI_STAT_MBWR)) ∧
  (∀ (v : BitVec 64) (s : State), s.hw.clocked = true → Completes (.hiDbell v) s (fun t => t.mem = s.mem ∧ t.nv =
    s.nv ∧ t.hw.mbox = s.hw.mbox ∧ t.hw.posted = s.hw.posted ++ newlyPosted s.hw v.toNat ∧ ∀ sl : Fin 16, slot t.hw
    sl = (if v.getLsbD sl && (slot s.hw sl).st == .free then withState Slot.free .posted else slot s.hw sl))) ∧
  (∀ (sl : Fin 16) (s : State), s.hw.clocked = true → (slot s.hw sl).st ≠ .free → GivesHw (.hiDbell (BitVec.ofNat 64
    (2 ^ sl.val))) s (raiseBit s.hw aHI_STAT fHI_STAT_DBERR)) ∧
  (∀ (sl : Fin 48) (uce : Bool) (s : State), nextTaken s.hw = some sl.val → uce = false ∨ 16 ≤ sl.val → headerStatus
    (takenBy s.hw sl) sl (takenSlot s.hw sl) = stOk → GivesHw (.slotTaken sl uce) s (takenBy s.hw sl)) ∧
  (∀ (sl : Fin 48) (uce : Bool) (st : Nat) (s : State), nextTaken s.hw = some sl.val → uce = false ∨ 16 ≤ sl.val →
    st = headerStatus (takenBy s.hw sl) sl (takenSlot s.hw sl) → st ≠ stOk → GivesHw (.slotTaken sl uce) s
    (completeSlot (takenBy s.hw sl) sl st [])) ∧
  (∀ (sl : Fin 48) (s : State), sl.val < 16 → nextTaken s.hw = some sl.val → GivesHw (.slotTaken sl true) s
    (completeSlot (raiseBit (takenBy s.hw sl) aHI_STAT fHI_STAT_MBUCE) sl stHwFault [])) ∧
  (∀ (sl : Fin 48) (uce : Bool) (s : State), nextTaken s.hw ≠ some sl.val → GivesHw (.slotTaken sl uce) s s.hw) ∧
  (∀ (sl : Fin 48) (pos : BitVec 64) (total : BitVec 64) (x : Slot) (y : Slot) (s : State), frozen s.hw = false ∨
    engineOp x.opc = true → x = slot s.hw sl → y = progressed s.hw sl pos.toNat total.toNat → x.st = .running →
    y.pos < y.total → progressOf x ≤ progressOf y → GivesHw (.progressUpdate sl pos total) s (setSlot s.hw sl y)) ∧
  (∀ (sl : Fin 48) (pos : BitVec 64) (total : BitVec 64) (x : Slot) (y : Slot) (s : State), x = slot s.hw sl → y =
    progressed s.hw sl pos.toNat total.toNat → x.st ≠ .running ∨ y.total ≤ y.pos ∨ progressOf y < progressOf x ∨
    (frozen s.hw = true ∧ engineOp x.opc = false) → GivesHw (.progressUpdate sl pos total) s s.hw) ∧
  (∀ (h : Hw) (sl : Nat) (pos : Nat) (total : Nat) (x : Slot), x = slot h sl → sl < 16 → x.tgt ≠ selfAddr h →
    progressed h sl pos total = { x with pos := pos, total := total }) ∧
  (∀ (h : Hw) (sl : Nat) (pos : Nat) (total : Nat) (x : Slot) (t : MemTest), x = slot h sl → 16 ≤ sl ∨ x.tgt =
    selfAddr h → x.opc = 0x801 → h.memTest = some t → progressed h sl pos total = { x with pos := x.total -
    (t.left.map (·.2)).sum }) ∧
  (∀ (v : BitVec 64) (s : State), s.hw.clocked = true → s.hw.justSet.contains (aHI_DONE, 0) = false → Completes
    (.hiDoneClear v) s (fun t => t.mem = s.mem ∧ t.nv = s.nv ∧ t.hw.mbox = s.hw.mbox ∧ t.hw.posted = s.hw.posted ∧ ∀
    sl : Fin 16, slot t.hw sl = (if v.getLsbD sl && (slot s.hw sl).st == .done then Slot.free else slot s.hw sl))) ∧
  (∀ (sl : Fin 16) (s : State), s.hw.clocked = true → (slot s.hw sl).st = .posted → GivesHw (.hiAbort (BitVec.ofNat
    64 (2 ^ sl.val))) s (completeSlot (unposted s.hw (sl.castLE (by decide))) sl stAborted [])) ∧
  (∀ (sl : Fin 16) (s : State), s.hw.clocked = true → (slot s.hw sl).st = .running → ∀ i : Fin
    s.hw.chain.out.length, (s.hw.chain.out.get i).2.slot ≠ some sl.val → GivesHw (.hiAbort (BitVec.ofNat 64 (2 ^
    sl.val))) s (setSlot s.hw sl (toAbort (slot s.hw sl)))) ∧
  (∀ (sl : Fin 16) (i : Nat) (o : ChOut) (s : State), s.hw.clocked = true → (slot s.hw sl).st = .running →
    s.hw.chain.out = [(i, o)] → o.slot = some sl.val → GivesHw (.hiAbort (BitVec.ofNat 64 (2 ^ sl.val))) s
    (abortSent (setSlot s.hw sl (toAbort (slot s.hw sl))) sl o.dev)) ∧
  (∀ (sl : Fin 16) (s : State), s.hw.clocked = true → (slot s.hw sl).st = .taken ∨ (slot s.hw sl).st = .free ∨ (slot
    s.hw sl).st = .done → GivesHw (.hiAbort (BitVec.ofNat 64 (2 ^ sl.val))) s s.hw) ∧
  (∀ (s : State), s.hw.clocked = true → Completes (.perstN false) s (fun t => t.mem = s.mem ∧ t.nv = s.nv ∧
    t.hw.mbox = [] ∧ (∀ sl : Fin 16, (slot t.hw sl).st = .free) ∧ (t.hw.regs.filter fun e => e.1 < bar0Base) =
    s.hw.regs.filter fun e => e.1 < bar0Base)) ∧
  (∀ (s : State), s.hw.clocked = true → Completes .functionLevelReset s (fun t => t.mem = s.mem ∧ t.nv = s.nv ∧
    t.hw.mbox = [] ∧ (∀ sl : Fin 16, (slot t.hw sl).st = .free) ∧ (t.hw.regs.filter fun e => e.1 < bar0Base) =
    s.hw.regs.filter fun e => e.1 < bar0Base)) ∧
  (∀ (sl : Fin 16) (x : Slot) (s : State), s.hw.clocked = true → s.hw.slots = [(sl.val, x)] → x.st = .taken ∨ x.st =
    .running → Completes (.perstN false) s (fun t => slot t.hw (32 + sl) = withIrq x false)) ∧
  (∀ (sl : Fin 16) (x : Slot) (s : State), s.hw.clocked = true → s.hw.slots = [(sl.val, x)] → x.st = .taken ∨ x.st =
    .running → Completes .functionLevelReset s (fun t => slot t.hw (32 + sl) = withIrq x false)) ∧
  (∀ (s : State), s.hw.clocked = true → isDev0 s.hw = false → GivesHw (.perstN true) s s.hw) ∧
  (∀ (s : State), s.hw.clocked = true → isDev0 s.hw = true → GivesHw (.perstN true) s (setF (setF (freshNat
    (freshNat s.hw).2).2 aHI_STAT fHI_STAT_LSPD (3 + (freshNat s.hw).1 % 3)) aHI_STAT fHI_STAT_LWID (2 ^ ((freshNat
    (freshNat s.hw).2).1 % 4)))) ∧
  (∀ (off : BitVec 14) (bs : List (BitVec 8)) (s : State), s.hw.clocked = false → GivesHw (.mailboxRequestWrite off
    bs) s s.hw) ∧
  (∀ (v : BitVec 64) (s : State), s.hw.clocked = false → GivesHw (.hiDbell v) s s.hw) ∧
  (∀ (v : BitVec 64) (s : State), s.hw.clocked = false → GivesHw (.hiDoneClear v) s s.hw) ∧
  (∀ (v : BitVec 64) (s : State), s.hw.clocked = false → GivesHw (.hiAbort v) s s.hw) ∧
  (∀ (level : Bool) (s : State), s.hw.clocked = false → GivesHw (.perstN level) s s.hw) ∧
  (∀ (s : State), s.hw.clocked = false → GivesHw .functionLevelReset s s.hw)

/-- O42. How RUNNING commands end. A RUNNING command ends with its result: a domain reset once the domain has left reset
and its crossings are open, a roll call once it is over, with its count, a digest check with the first differing
chunk, a key with OK where what it was to blow reads back and else HW_FAULT, a memory test with its findings, a
re-plan once no yard asked for owes one, a readout with the shadow filled, a firmware store that a check turns away
with the status of that check. Until then, and where it does not run here, nothing happens. A hardware step that fails
ends it with HW_FAULT and gives up what it held. An abort ends an image load, a digest check, a firmware store, a
memory test between segments and a re-plan with ABORTED. An image is checked once staged: one of the first four checks
that fails ends the load with its status. Its application ends it, with OK and its payload or with the status of what
failed. A forwarded command that no device accepted ends with NO_TARGET; nothing is timed while FROZEN. Rests on the
model's reading or choice in log entries 4, 44, 143, 144. (R202, R256, R351, R356, R359, R373, R374, R382, R383, R386,
R387, R463) -/
def Obligations.LongCommandsEndWithTheirResult : Prop :=
  (∀ (sl : Fin 48) (s : State), Runs s sl 0x102 → s.hw.inDom.contains (pay (slot s.hw sl) 0 1) = false →
    s.hw.quarantined.getLsbD (pay (slot s.hw sl) 0 1) = false → GivesHw (.longCommandComplete sl false) s
    (endRunning s.hw sl stOk [])) ∧
  (∀ (sl : Fin 48) (s : State), Runs s sl 0x102 → s.hw.inDom.contains (pay (slot s.hw sl) 0 1) = true ∨
    s.hw.quarantined.getLsbD (pay (slot s.hw sl) 0 1) = true → GivesHw (.longCommandComplete sl false) s s.hw) ∧
  (∀ (sl : Fin 48) (s : State), Runs s sl 0x201 → s.hw.chain.rolling = false → GivesHw (.longCommandComplete sl
    false) s (endRunning (rollTotal s.hw sl) sl stOk (rollPayload s.hw))) ∧
  (∀ (sl : Fin 48) (s : State), Runs s sl 0x201 → s.hw.chain.rolling = true → GivesHw (.longCommandComplete sl
    false) s s.hw) ∧
  (∀ (sl : Fin 48) (s : State), Runs s sl 0x301 → GivesHw (.longCommandComplete sl false) s (endRunning
    (verifyPayload s.mem s.hw).2 sl stOk (verifyPayload s.mem s.hw).1)) ∧
  (∀ (sl : Fin 48) (s : State), Runs s sl 0x302 → (keySlot s.nv (pay (slot s.hw sl) 0 1)).prov = true → GivesHw
    (.longCommandComplete sl false) s (endRunning s.hw sl stOk [])) ∧
  (∀ (sl : Fin 48) (s : State), Runs s sl 0x303 → s.nv.revoked.getLsbD (pay (slot s.hw sl) 0 1) = true → GivesHw
    (.longCommandComplete sl false) s (endRunning s.hw sl stOk [])) ∧
  (∀ (sl : Fin 48) (s : State), Runs s sl 0x304 → s.nv.aesOk = true → GivesHw (.longCommandComplete sl false) s
    (endRunning s.hw sl stOk [])) ∧
  (∀ (sl : Fin 48) (s : State), Runs s sl 0x302 → (keySlot s.nv (pay (slot s.hw sl) 0 1)).prov = false → GivesHw
    (.longCommandComplete sl false) s (endRunning s.hw sl stHwFault [])) ∧
  (∀ (sl : Fin 48) (s : State), Runs s sl 0x303 → s.nv.revoked.getLsbD (pay (slot s.hw sl) 0 1) = false → GivesHw
    (.longCommandComplete sl false) s (endRunning s.hw sl stHwFault [])) ∧
  (∀ (sl : Fin 48) (s : State), Runs s sl 0x304 → s.nv.aesOk = false → GivesHw (.longCommandComplete sl false) s
    (endRunning s.hw sl stHwFault [])) ∧
  (∀ (sl : Fin 48) (m : MemTest) (s : State), Runs s sl 0x801 → s.hw.memTest = some m → m.left = [] → GivesHw
    (.longCommandComplete sl false) s (endRunning (withMemTest s.hw none) sl stOk (memTestPayload s.hw m))) ∧
  (∀ (sl : Fin 48) (m : MemTest) (s : State), Runs s sl 0x801 → s.hw.memTest = some m → m.left ≠ [] → GivesHw
    (.longCommandComplete sl false) s s.hw) ∧
  (∀ (sl : Fin 48) (s : State), Runs s sl 0x904 → ∀ y : Fin 16, (pay (slot s.hw sl) 0 2).testBit y = true → yardRuns
    s.hw y = true → (yardAge s.hw y).owed = false → GivesHw (.longCommandComplete sl false) s (endRunning s.hw sl
    stOk [])) ∧
  (∀ (sl : Fin 48) (y : Fin 16) (s : State), Runs s sl 0x904 → (pay (slot s.hw sl) 0 2).testBit y = true → yardRuns
    s.hw y = true → (yardAge s.hw y).owed = true → GivesHw (.longCommandComplete sl false) s s.hw) ∧
  (∀ (sl : Fin 48) (s : State), Runs s sl 0xA10 → GivesHw (.longCommandComplete sl false) s (endRunning
    (frozenReadout s.mem s.hw) sl stOk [])) ∧
  (∀ (sl : Fin 48) (l : FwLoad) (k : Nat) (s : State), Runs s sl 0x306 → s.hw.fwLoad = some l → l.sl = sl.val → k =
    (checkImage s.nv s.mem (withoutFwLoad s.hw) l.bytes l.bytes.length [] true).1 → k ≠ 0 → GivesHw
    (.longCommandComplete sl false) s (endRunning (rejectImage (withoutFwLoad s.hw) k) sl (stepStatus k) [])) ∧
  (∀ (sl : Fin 48) (opc : Nat) (s : State), Runs s sl opc → GivesHw (.longCommandComplete sl true) s (endRunning
    (faultCleanup s.hw (slot s.hw sl)) sl stHwFault [])) ∧
  (∀ (sl : Fin 48) (hf : Bool) (s : State), (slot s.hw sl).st ≠ .running ∨ mpRuns s.hw (slot s.hw sl).opc = false →
    GivesHw (.longCommandComplete sl hf) s s.hw) ∧
  (∀ (sl : Fin 48) (hf : Bool) (s : State), RunsHere s sl → (slot s.hw sl).opc = 0x301 → (slot s.hw sl).abort = true
    → GivesHw (.longCommandComplete sl hf) s (endRunning s.hw sl stAborted [])) ∧
  (∀ (sl : Fin 48) (hf : Bool) (l : Load) (s : State), RunsHere s sl → (slot s.hw sl).opc = 0x300 → (slot s.hw
    sl).abort = true → s.hw.load = some l → l.sl = sl.val → GivesHw (.longCommandComplete sl hf) s (endRunning
    (withoutLoad s.hw) sl stAborted [])) ∧
  (∀ (sl : Fin 48) (hf : Bool) (s : State), RunsHere s sl → (slot s.hw sl).opc = 0x306 → (slot s.hw sl).abort = true
    → GivesHw (.longCommandComplete sl hf) s (endRunning (withoutFwLoad s.hw) sl stAborted [])) ∧
  (∀ (sl : Fin 48) (hf : Bool) (m : MemTest) (s : State), RunsHere s sl → (slot s.hw sl).opc = 0x801 → (slot s.hw
    sl).abort = true → s.hw.memTest = some m → (m.left.any fun e => (muck s.hw e.1).holding) = false → GivesHw
    (.longCommandComplete sl hf) s (endRunning (withMemTest s.hw none) sl stAborted [])) ∧
  (∀ (sl : Fin 48) (hf : Bool) (s : State), RunsHere s sl → (slot s.hw sl).opc = 0x904 → (slot s.hw sl).abort = true
    → GivesHw (.longCommandComplete sl hf) s (endRunning (noneOwing s.hw (pay (slot s.hw sl) 0 2)) sl stAborted [])) ∧
  (∀ (sl : Fin 48) (l : Load) (k : Nat) (s : State), loadAt s.hw sl .staged = some l → k = (checkImage s.nv s.mem
    s.hw (stagedBytes s.mem l) l.len l.yards false).1 → 0 < k → k < 5 → GivesHw (.imageCheck sl) s (loadEnd
    (rejectImage s.hw k) sl (stepStatus k) [])) ∧
  (∀ (h : Hw) (l : Load) (img : List Byte), l.mode = 0 → parkedAll h img = false → checkStep h l (0, img) = 8) ∧
  (∀ (sl : Fin 48) (s : State), loadAt s.hw sl .staged = none → GivesHw (.imageCheck sl) s s.hw) ∧
  (∀ (sl : Fin 48) (fails : Option (Fin 3)) (s : State), loadAt s.hw sl .checked = none → GivesHw (.imageApplication
    sl fails) s s.hw) ∧
  (∀ (sl : Fin 48) (l : Load) (fails : Option (Fin 3)) (s : State), loadAt s.hw sl .checked = some l → (appliedBy s
    l fails).2.1 = stOk → (appliedBy s l fails).2.2 = true → GivesMem (.imageApplication sl fails) s ((appliedBy s l
    fails).1.1, loadEnd (afterStartUp (appliedBy s l fails).1.2 (stagedBytes s.mem l)) sl stOk (loadPayload l.digest
    (stagedBytes s.mem l)))) ∧
  (∀ (sl : Fin 48) (l : Load) (fails : Option (Fin 3)) (st : Nat) (s : State), loadAt s.hw sl .checked = some l → st
    = (appliedBy s l fails).2.1 → st ≠ stOk → GivesMem (.imageApplication sl fails) s ((appliedBy s l fails).1.1,
    loadEnd (appliedBy s l fails).1.2 sl st [])) ∧
  (∀ (sl : Fin 48) (i : Nat) (o : ChOut) (s : State), frozen s.hw = false → s.hw.chain.out = [(i, o)] → o.slot =
    some sl.val → o.op = 0 → GivesHw (.forwardTimeout sl) s (noteDevice (outRemoved s.hw i) sl o.dev stNoTarget
    false [])) ∧
  (∀ (sl : Fin 48) (s : State), frozen s.hw = true ∨ ∀ i : Fin s.hw.chain.out.length, (s.hw.chain.out.get i).2.slot
    ≠ some sl.val ∨ (s.hw.chain.out.get i).2.op ≠ 0 → GivesHw (.forwardTimeout sl) s s.hw)

/-- O43. Device and chain commands where no check turns them away. Each command answers its payload, acts and answers OK,
or becomes RUNNING with its TOTAL: identity, health, a domain reset that begins, TEST and the return to RUN
(WRONG_STATE where they are not permitted), the chain registers, a roll call, the partition policy, RESUME, the credit
pools, a retrain, and the health of the chain. Rests on the model's reading or choice in log entries 121, 122, 123.
(R256, R262, R276, R277, R366, R462, R467, Table 14.10) -/
def Obligations.DeviceAndChainCommandsRun : Prop :=
  (∀ (sl : Fin 48) (s : State), Ready s sl 0x100 → GivesHw (.devInfo sl) s (replied sl (devInfoPayload (held s sl)
    (asked s sl).hw))) ∧
  (∀ (sl : Fin 48) (s : State), Ready s sl 0x101 → GivesHw (.health sl) s (replied sl (healthPayload (held s sl)
    (asked s sl).hw))) ∧
  (∀ (sl : Fin 48) (s : State), Ready s sl 0x102 → pay (held s sl) 0 1 ≤ 0x20 → domainFree (asked s sl).hw (pay
    (held s sl) 0 1) = true → GivesHw (.domainReset sl) s (becomeRunning (domainBegin (asked s sl).hw (pay (held s
    sl) 0 1)) sl 1)) ∧
  (∀ (sl : Fin 48) (s : State), Ready s sl 0x102 → pay (held s sl) 0 1 ≤ 0x20 → domainFree (asked s sl).hw (pay
    (held s sl) 0 1) = false → GivesHw (.domainReset sl) s (reply (asked s sl).hw sl stWrong [])) ∧
  (∀ (sl : Fin 48) (s : State), Ready s sl 0x103 → pay (held s sl) 0 1 = 1 → testAllowed (asked s sl).hw = true →
    GivesHw (.stateSet sl) s (acted sl (setMode (asked s sl).hw .test))) ∧
  (∀ (sl : Fin 48) (s : State), Ready s sl 0x103 → pay (held s sl) 0 1 = 2 → runAllowed (asked s sl).hw = true →
    GivesHw (.stateSet sl) s (acted sl (returnToRun (asked s sl).hw))) ∧
  (∀ (sl : Fin 48) (s : State), Ready s sl 0x103 → pay (held s sl) 0 1 = 2 → runAllowed (asked s sl).hw = false →
    GivesHw (.stateSet sl) s (reply (asked s sl).hw sl stWrong [])) ∧
  (∀ (sl : Fin 48) (s : State), Ready s sl 0x103 → pay (held s sl) 0 1 = 1 → testAllowed (asked s sl).hw = false →
    GivesHw (.stateSet sl) s (reply (asked s sl).hw sl stWrong [])) ∧
  (∀ (sl : Fin 48) (s : State), Ready s sl 0x200 → GivesHw (.chainInfo sl) s (replied sl (readRegs (asked s sl).hw
    [aCH_ID, aCH_REACH, aCH_DIR, aCH_PART]))) ∧
  (∀ (sl : Fin 48) (s : State), Ready s sl 0x201 → GivesHw (.rollCall sl) s (becomeRunning (rollStart (asked s
    sl).hw) sl 64)) ∧
  (∀ (sl : Fin 48) (s : State), Ready s sl 0x202 → pay (held s sl) 0 1 ≤ 2 → GivesHw (.partPolicy sl) s (acted sl
    (setF (setF (asked s sl).hw aCH_PART fCH_PART_POL (pay (held s sl) 0 1)) aCH_PART fCH_PART_HOLD (pay (held s sl)
    2 2)))) ∧
  (∀ (sl : Fin 48) (s : State), Ready s sl 0x203 → s.hw.mode = .isolated → GivesHw (.resume sl) s (acted sl
    (chainResume (asked s sl).hw))) ∧
  (∀ (sl : Fin 48) (s : State), Ready s sl 0x203 → s.hw.mode ≠ .isolated → GivesHw (.resume sl) s (reply (asked s
    sl).hw sl stWrong [])) ∧
  (∀ (sl : Fin 48) (s : State), Ready s sl 0x204 → (List.range 64).foldl (fun acc d => acc + pay (held s sl) d 1) 0
    ≤ 256 → GivesHw (.chainPool sl) s (acted sl (applyAll (fun h d => setPoolHere h d (pay (held s sl) d 1)) (asked
    s sl).hw (List.range 64)))) ∧
  (∀ (sl : Fin 48) (s : State), Ready s sl 0x205 → pay (held s sl) 0 1 ≤ 1 → GivesHw (.linkRetrain sl) s (acted sl
    (linkDown (asked s sl).hw (pay (held s sl) 0 1)))) ∧
  (∀ (sl : Fin 48) (s : State), Ready s sl 0x206 → GivesHw (.chainHealth sl) s (replied sl (chainHealthPayload (held
    s sl) (asked s sl).hw)))

/-- O44. Image, firmware and key commands where no check turns them away. IMAGE_LOAD stages the image, read here or sent
by another device, at the staging area, or in the lofts of a device without DRAM, and becomes RUNNING, as FW_STORE
does; a failed read answers HW_FAULT, another image in staging WRONG_STATE, and an image that no lofts hold INVALID.
IMAGE_VERIFY becomes RUNNING. A key command blows the bits of its slot, its revocation bit or the AES key and becomes
RUNNING; a slot that is provisioned, a bit that both firmware copies name or an AES key that is present answers
WRONG_STATE. KEY_STATUS answers which keys are present. Rests on the model's reading or choice in log entries 137,
142, 144, 198, 199, 200. (R373, R374, R379, R380, R383, R386, R387, R366, Table 14.10) -/
def Obligations.ImageAndKeyCommandsRun : Prop :=
  (∀ (sl : Fin 48) (ok : Bool) (remote : List (BitVec 8)) (bytes : List Byte) (s : State), Ready s sl 0x300 → pay
    (held s sl) 0 8 < 2 ^ 46 → pay (held s sl) 8 4 ≤ 0x4000000 → pay (held s sl) 12 1 ≤ 2 → loading (asked s sl).hw
    = false → s.hw.dramGib ≠ 0 → (sourceBytes s.mem (asked s sl).hw (pay (held s sl) 0 8) (pay (held s sl) 8 4) ok
    remote).1 = some bytes → GivesMem (.imageLoad sl ok remote) s ((writeBytes s.mem (stagingBase (asked s sl).hw)
    bytes, becomeRunning (withLoad (freshNat (sourceBytes s.mem (asked s sl).hw (pay (held s sl) 0 8) (pay (held s
    sl) 8 4) ok remote).2).2 ⟨sl, pay (held s sl) 8 4, pay (held s sl) 12 1, .staged, [], some (stagingBase (asked s
    sl).hw), []⟩) sl (tableTotal (held s sl))))) ∧
  (∀ (sl : Fin 48) (ok : Bool) (remote : List (BitVec 8)) (bytes : List Byte) (ys : List Nat) (s : State), Ready s
    sl 0x300 → pay (held s sl) 0 8 < 2 ^ 46 → pay (held s sl) 8 4 ≤ 0x4000000 → pay (held s sl) 12 1 ≤ 2 → loading
    (asked s sl).hw = false → s.hw.dramGib = 0 → stagingLofts (asked s sl).hw (pay (held s sl) 8 4) = some ys →
    (sourceBytes s.mem (asked s sl).hw (pay (held s sl) 0 8) (pay (held s sl) 8 4) ok remote).1 = some bytes →
    GivesMem (.imageLoad sl ok remote) s ((stageLofts s.mem (BitVec.ofNat 8 (freshNat (sourceBytes s.mem (asked s
    sl).hw (pay (held s sl) 0 8) (pay (held s sl) 8 4) ok remote).2).1) ys bytes, becomeRunning (withLoad (freshNat
    (sourceBytes s.mem (asked s sl).hw (pay (held s sl) 0 8) (pay (held s sl) 8 4) ok remote).2).2 ⟨sl, pay (held s
    sl) 8 4, pay (held s sl) 12 1, .staged, [], none, ys⟩) sl (tableTotal (held s sl))))) ∧
  (∀ (sl : Fin 48) (ok : Bool) (remote : List (BitVec 8)) (s : State), Ready s sl 0x300 → pay (held s sl) 0 8 < 2 ^
    46 → pay (held s sl) 8 4 ≤ 0x4000000 → pay (held s sl) 12 1 ≤ 2 → loading (asked s sl).hw = false → s.hw.dramGib
    ≠ 0 ∨ (stagingLofts (asked s sl).hw (pay (held s sl) 8 4)).isSome = true → (sourceBytes s.mem (asked s sl).hw
    (pay (held s sl) 0 8) (pay (held s sl) 8 4) ok remote).1 = none → GivesHw (.imageLoad sl ok remote) s (reply
    (sourceBytes s.mem (asked s sl).hw (pay (held s sl) 0 8) (pay (held s sl) 8 4) ok remote).2 sl stHwFault [])) ∧
  (∀ (sl : Fin 48) (ok : Bool) (remote : List (BitVec 8)) (s : State), Ready s sl 0x300 → pay (held s sl) 0 8 < 2 ^
    46 → pay (held s sl) 8 4 ≤ 0x4000000 → pay (held s sl) 12 1 ≤ 2 → loading (asked s sl).hw = true → s.hw.dramGib
    ≠ 0 ∨ (stagingLofts (asked s sl).hw (pay (held s sl) 8 4)).isSome = true → GivesHw (.imageLoad sl ok remote) s
    (reply (asked s sl).hw sl stWrong [])) ∧
  (∀ (sl : Fin 48) (ok : Bool) (remote : List (BitVec 8)) (s : State), Ready s sl 0x300 → pay (held s sl) 0 8 < 2 ^
    46 → pay (held s sl) 8 4 ≤ 0x4000000 → pay (held s sl) 12 1 ≤ 2 → s.hw.dramGib = 0 → stagingLofts (asked s
    sl).hw (pay (held s sl) 8 4) = none → GivesHw (.imageLoad sl ok remote) s (reply (asked s sl).hw sl stInvalid
    [])) ∧
  (∀ (sl : Fin 48) (s : State), Ready s sl 0x301 → GivesHw (.imageVerify sl) s (becomeRunning (asked s sl).hw sl
    3670016)) ∧
  (∀ (sl : Fin 48) (ok : Bool) (remote : List (BitVec 8)) (bytes : List Byte) (s : State), Ready s sl 0x306 → pay
    (held s sl) 0 8 < 2 ^ 46 → pay (held s sl) 8 4 ≤ 0x4000000 → loading (asked s sl).hw = false → (sourceBytes
    s.mem (asked s sl).hw (pay (held s sl) 0 8) (pay (held s sl) 8 4) ok remote).1 = some bytes → GivesHw (.fwStore
    sl ok remote) s (becomeRunning (withFwLoad (sourceBytes s.mem (asked s sl).hw (pay (held s sl) 0 8) (pay (held s
    sl) 8 4) ok remote).2 ⟨sl, bytes⟩) sl (2 * pay (held s sl) 8 4))) ∧
  (∀ (sl : Fin 48) (ok : Bool) (remote : List (BitVec 8)) (s : State), Ready s sl 0x306 → pay (held s sl) 0 8 < 2 ^
    46 → pay (held s sl) 8 4 ≤ 0x4000000 → loading (asked s sl).hw = false → (sourceBytes s.mem (asked s sl).hw (pay
    (held s sl) 0 8) (pay (held s sl) 8 4) ok remote).1 = none → GivesHw (.fwStore sl ok remote) s (reply
    (sourceBytes s.mem (asked s sl).hw (pay (held s sl) 0 8) (pay (held s sl) 8 4) ok remote).2 sl stHwFault [])) ∧
  (∀ (sl : Fin 48) (ok : Bool) (remote : List (BitVec 8)) (s : State), Ready s sl 0x306 → pay (held s sl) 0 8 < 2 ^
    46 → pay (held s sl) 8 4 ≤ 0x4000000 → loading (asked s sl).hw = true → GivesHw (.fwStore sl ok remote) s (reply
    (asked s sl).hw sl stWrong [])) ∧
  (∀ (sl : Fin 48) (ok : Bool) (k : KeySlot) (r : BitVec 384 × Bool) (s : State), Ready s sl 0x302 → pay (held s sl)
    0 1 = 1 ∨ pay (held s sl) 0 1 = 2 → k = keySlot s.nv (pay (held s sl) 0 1) → k.prov = false → r = blowBits
    k.bits (BitVec.ofNat 384 (pay (held s sl) 8 48)) ok (freshNat (asked s sl).hw).1 → Completes (.keyOwner sl ok) s
    ((fun t => t = withNv s (setKeySlot s.nv (pay (held s sl) 0 1) ⟨r.1, r.2⟩) (becomeRunning (freshNat (asked s
    sl).hw).2 sl (fuseTotal 384 k.bits.toNat (pay (held s sl) 8 48)))))) ∧
  (∀ (sl : Fin 48) (ok : Bool) (s : State), Ready s sl 0x302 → pay (held s sl) 0 1 = 1 ∨ pay (held s sl) 0 1 = 2 →
    (keySlot s.nv (pay (held s sl) 0 1)).prov = true → GivesHw (.keyOwner sl ok) s (reply (asked s sl).hw sl stWrong
    [])) ∧
  (∀ (sl : Fin 48) (s : State), Ready s sl 0x303 → pay (held s sl) 0 1 ≤ 31 → namedByBoth s.nv (pay (held s sl) 0 1)
    = false → Completes (.keyRevoke sl true) s ((fun t => t = withNv s (withRevoked s.nv (pay (held s sl) 0 1))
    (becomeRunning (asked s sl).hw sl (if s.nv.revoked.getLsbD (pay (held s sl) 0 1) then 0 else 1))))) ∧
  (∀ (sl : Fin 48) (s : State), Ready s sl 0x303 → pay (held s sl) 0 1 ≤ 31 → namedByBoth s.nv (pay (held s sl) 0 1)
    = false → GivesHw (.keyRevoke sl false) s (becomeRunning (asked s sl).hw sl (if s.nv.revoked.getLsbD (pay (held
    s sl) 0 1) then 0 else 1))) ∧
  (∀ (sl : Fin 48) (ok : Bool) (s : State), Ready s sl 0x304 → s.nv.aesOk = true → GivesHw (.keyAes sl ok) s (reply
    (asked s sl).hw sl stWrong [])) ∧
  (∀ (sl : Fin 48) (ok : Bool) (s : State), Ready s sl 0x303 → pay (held s sl) 0 1 ≤ 31 → namedByBoth s.nv (pay
    (held s sl) 0 1) = true → GivesHw (.keyRevoke sl ok) s (reply (asked s sl).hw sl stWrong [])) ∧
  (∀ (sl : Fin 48) (ok : Bool) (s : State), Ready s sl 0x304 → s.nv.aesOk = false → Completes (.keyAes sl ok) s
    ((fun t => t = withNv s (withAes s.nv (blowBits s.nv.aes (BitVec.ofNat 256 (pay (held s sl) 0 32)) ok (freshNat
    (asked s sl).hw).1)) (becomeRunning (freshNat (asked s sl).hw).2 sl (fuseTotal 256 s.nv.aes.toNat (pay (held s
    sl) 0 32)))))) ∧
  (∀ (sl : Fin 48) (s : State), Ready s sl 0x305 → GivesHw (.keyStatus sl) s (reply (asked s sl).hw sl stOk
    (keyBytes s.nv)))

/-- O45. Function, context, event and port commands where no check turns them away. A function is stopped with cause 1,
configured with all records or none, started, and its state and cause answered. A context load of a resident context
answers OK, one of a locked context WRONG_STATE; any other waits for its load, and answers OK or WRONG_STATE as it
ended. The context, task and port registers are answered; a task entry is written through the check of FUNC_CONFIG;
doorbells ring; a host vector gets or loses its scheduler event; port counts are cleared; rate, burst and forgive of a
class are set live; SYSREF arming waits for its edge. Rests on the model's reading or choice in log entries 120, 131,
133, 212. (R124, R287, R303, R349, R363, R364, R365, R366, Table 14.11) -/
def Obligations.FunctionContextAndPortCommandsRun : Prop :=
  (∀ (sl : Fin 48) (s : State), Ready s sl 0x400 → fnValid (pay (held s sl) 0 2) = true → GivesHw (.funcStop sl) s
    (acted sl (stopFn (asked s sl).hw (pay (held s sl) 0 2) 1))) ∧
  (∀ (sl : Fin 48) (r : (Sparse Byte × Hw) × Nat) (s : State), Ready s sl 0x401 → fnValid (pay (held s sl) 0 2) =
    true → r = configFn s.mem (asked s sl).hw (pay (held s sl) 0 2) (recordsOf (held s sl)) → GivesMem (.funcConfig
    sl) s ((r.1.1, reply r.1.2 sl r.2 []))) ∧
  (∀ (sl : Fin 48) (s : State), Ready s sl 0x402 → fnValid (pay (held s sl) 0 2) = true → GivesMem (.funcStart sl) s
    (((startFn s.mem (asked s sl).hw (pay (held s sl) 0 2)).1.1, reply (startFn s.mem (asked s sl).hw (pay (held s
    sl) 0 2)).1.2 sl (startFn s.mem (asked s sl).hw (pay (held s sl) 0 2)).2 []))) ∧
  (∀ (h : Hw) (id : Nat) (rs : List (Nat × Nat × Nat)), fnValid id = false ∨ (rs.all fun r => recordFits h id r) =
    false → configFn [] h id rs = (([], h), stInvalid)) ∧
  (∀ (h : Hw) (id : Nat), fnRunning h id = true → startFn [] h id = (([], h), stOk)) ∧
  (∀ (sl : Fin 48) (s : State), Ready s sl 0x403 → fnValid (pay (held s sl) 0 2) = true → GivesHw (.funcStatus sl) s
    (reply (asked s sl).hw sl stOk (leBytes 1 (fnOf (asked s sl).hw (pay (held s sl) 0 2)).running.toNat ++ leBytes
    1 (fnOf (asked s sl).hw (pay (held s sl) 0 2)).cause ++ List.replicate 6 0))) ∧
  (∀ (sl : Fin 48) (s : State), Ready s sl 0x500 → pay (held s sl) 0 1 < 128 → pay (held s sl) 1 1 < 16 → (startLoad
    s.mem (asked s sl).hw (pay (held s sl) 0 1) (pay (held s sl) 1 1) none).2 = false → (pen (startLoad s.mem (asked
    s sl).hw (pay (held s sl) 0 1) (pay (held s sl) 1 1) none).1.2 (pay (held s sl) 0 1)).load = none → GivesMem
    (.ctxLoad sl) s (((startLoad s.mem (asked s sl).hw (pay (held s sl) 0 1) (pay (held s sl) 1 1) none).1.1, acted
    sl (startLoad s.mem (asked s sl).hw (pay (held s sl) 0 1) (pay (held s sl) 1 1) none).1.2))) ∧
  (∀ (sl : Fin 48) (s : State), Ready s sl 0x500 → pay (held s sl) 0 1 < 128 → pay (held s sl) 1 1 < 16 → (startLoad
    s.mem (asked s sl).hw (pay (held s sl) 0 1) (pay (held s sl) 1 1) none).2 = false → (pen (startLoad s.mem (asked
    s sl).hw (pay (held s sl) 0 1) (pay (held s sl) 1 1) none).1.2 (pay (held s sl) 0 1)).load.isSome = true →
    GivesMem (.ctxLoad sl) s (((startLoad s.mem (asked s sl).hw (pay (held s sl) 0 1) (pay (held s sl) 1 1)
    none).1.1, loadAwaited (startLoad s.mem (asked s sl).hw (pay (held s sl) 0 1) (pay (held s sl) 1 1) none).1.2
    (pay (held s sl) 0 1)))) ∧
  (∀ (sl : Fin 48) (s : State), Ready s sl 0x500 → pay (held s sl) 0 1 < 128 → pay (held s sl) 1 1 < 16 → (startLoad
    s.mem (asked s sl).hw (pay (held s sl) 0 1) (pay (held s sl) 1 1) none).2 = true → GivesMem (.ctxLoad sl) s
    (((startLoad s.mem (asked s sl).hw (pay (held s sl) 0 1) (pay (held s sl) 1 1) none).1.1, reply (startLoad s.mem
    (asked s sl).hw (pay (held s sl) 0 1) (pay (held s sl) 1 1) none).1.2 sl stWrong []))) ∧
  (∀ (h : Hw) (sl : Fin 48) (x : Slot) (ok : Bool), frozen h = false → x = slot h sl → x.st = .taken → x.opc = 0x500
    → x.left = 2 ^ selfAddr h → h.slots = [(sl.val, x)] → (pen h (pay x 0 1)).loadRes = some ok → settleCtxLoads h =
    reply h sl (if ok then stOk else stWrong) []) ∧
  (∀ (h : Hw) (sl : Fin 48) (x : Slot), frozen h = false → x = slot h sl → x.st = .taken → x.opc = 0x500 → x.left =
    2 ^ selfAddr h → h.slots = [(sl.val, x)] → (pen h (pay x 0 1)).loadRes = none → (pen h (pay x 0 1)).load.isSome
    = true → settleCtxLoads h = h) ∧
  (∀ (sl : Fin 48) (s : State), Ready s sl 0x501 → pay (held s sl) 0 1 < 128 → GivesHw (.ctxStatus sl) s (replied sl
    (readRegs (asked s sl).hw [aPEN_CTXRES (pay (held s sl) 0 1), aPEN_CTXKIND (pay (held s sl) 0 1), aPEN_CTXSTAT
    (pay (held s sl) 0 1)]))) ∧
  (∀ (sl : Fin 48) (r : (Sparse Byte × Hw) × Nat) (s : State), Ready s sl 0x502 → pay (held s sl) 0 1 < 16 → pay
    (held s sl) 1 1 < 64 → r = configFn s.mem (asked s sl).hw (fnId 4 (pay (held s sl) 0 1)) [(aSCH_TASK0 (pay (held
    s sl) 0 1) (pay (held s sl) 1 1), 2 ^ 64 - 1, pay (held s sl) 8 8), (aSCH_TASK1 (pay (held s sl) 0 1) (pay (held
    s sl) 1 1), 2 ^ 64 - 1, pay (held s sl) 16 8)] → GivesMem (.taskSet sl) s ((r.1.1, reply r.1.2 sl r.2 []))) ∧
  (∀ (sl : Fin 48) (s : State), Ready s sl 0x503 → pay (held s sl) 0 1 < 16 → GivesHw (.taskState sl) s (replied sl
    (readRegs (asked s sl).hw [aSCH_TSTATE (pay (held s sl) 0 1) 0, aSCH_TSTATE (pay (held s sl) 0 1) 1,
    aSCH_PENSTAT (pay (held s sl) 0 1), aSCH_STAT (pay (held s sl) 0 1)]))) ∧
  (∀ (sl : Fin 48) (s : State), Ready s sl 0x504 → pay (held s sl) 0 1 < 16 → GivesHw (.schDoorbell sl) s (acted sl
    (ringDoorbell (asked s sl).hw (pay (held s sl) 0 1) (pay (held s sl) 1 1)))) ∧
  (∀ (sl : Fin 48) (s : State), Ready s sl 0x504 → pay (held s sl) 0 1 = 0xFF → GivesHw (.schDoorbell sl) s (acted
    sl (applyAll (fun h y => ringDoorbell h y (pay (held s sl) 1 1)) (asked s sl).hw (List.range 16)))) ∧
  (∀ (sl : Fin 48) (s : State), Ready s sl 0x505 → pay (held s sl) 0 1 < 16 → eventReserved (pay (held s sl) 1 1) =
    false → 32 ≤ pay (held s sl) 2 1 → pay (held s sl) 2 1 < 64 → GivesHw (.evToHost sl) s (acted sl (withSource
    (asked s sl).hw (pay (held s sl) 2 1) (some (pay (held s sl) 0 1, pay (held s sl) 1 1))))) ∧
  (∀ (sl : Fin 48) (s : State), Ready s sl 0x506 → 32 ≤ pay (held s sl) 0 1 → pay (held s sl) 0 1 < 64 → GivesHw
    (.evHostClr sl) s (acted sl (withSource (asked s sl).hw (pay (held s sl) 0 1) none))) ∧
  (∀ (sl : Fin 48) (s : State), Ready s sl 0x600 → fnValid (pay (held s sl) 0 2) = true → pay (held s sl) 0 2 / 256
    = 1 → GivesHw (.portStatus sl) s (replied sl (readRegs (asked s sl).hw [aJL_STAT (pay (held s sl) 0 2 % 256),
    aJL_CNT (pay (held s sl) 0 2 % 256), aJL_CNT2 (pay (held s sl) 0 2 % 256), aJL_SRTS (pay (held s sl) 0 2 % 256),
    aJL_RATE (pay (held s sl) 0 2 % 256)]))) ∧
  (∀ (sl : Fin 48) (s : State), Ready s sl 0x600 → fnValid (pay (held s sl) 0 2) = true → pay (held s sl) 0 2 / 256
    = 2 → GivesHw (.portStatus sl) s (replied sl (readRegs (asked s sl).hw (aETH_PSTAT (pay (held s sl) 0 2 % 256)
    :: (List.range 21).map fun k => aETH_CNT (pay (held s sl) 0 2 % 256) k)))) ∧
  (∀ (sl : Fin 48) (s : State), Ready s sl 0x601 → fnValid (pay (held s sl) 0 2) = true → pay (held s sl) 0 2 / 256
    = 2 → GivesHw (.portCntclr sl) s (acted sl (clearCounts (asked s sl).hw (aETH_CNTCLR (pay (held s sl) 0 2 %
    256))))) ∧
  (∀ (sl : Fin 48) (s : State), Ready s sl 0x601 → fnValid (pay (held s sl) 0 2) = true → pay (held s sl) 0 2 / 256
    = 1 → GivesHw (.portCntclr sl) s (acted sl (clearCounts (asked s sl).hw (aJL_CNT2 (pay (held s sl) 0 2 %
    256))))) ∧
  (∀ (sl : Fin 48) (s : State), Ready s sl 0x602 → shaperFits (held s sl) = true → GivesMem (.shaperSet sl) s
    (((configRecord (s.mem, (asked s sl).hw) (shaperRecord (held s sl))).1, acted sl (configRecord (s.mem, (asked s
    sl).hw) (shaperRecord (held s sl))).2))) ∧
  (∀ (sl : Fin 48) (s : State), Ready s sl 0x603 → pay (held s sl) 0 1 < 4 → pay (held s sl) 1 1 = 3 → GivesHw
    (.sysrefArm sl) s (acted sl (jArm (jArm (asked s sl).hw (2 * pay (held s sl) 0 1)) (2 * pay (held s sl) 0 1 +
    1)))) ∧
  (∀ (sl : Fin 48) (s : State), Ready s sl 0x603 → pay (held s sl) 0 1 < 4 → pay (held s sl) 1 1 = 1 → GivesHw
    (.sysrefArm sl) s (acted sl (jArm (asked s sl).hw (2 * pay (held s sl) 0 1)))) ∧
  (∀ (sl : Fin 48) (s : State), Ready s sl 0x603 → pay (held s sl) 0 1 < 4 → pay (held s sl) 1 1 = 2 → GivesHw
    (.sysrefArm sl) s (acted sl (jArm (asked s sl).hw (2 * pay (held s sl) 0 1 + 1)))) ∧
  (∀ (sl : Fin 48) (s : State), Ready s sl 0x603 → pay (held s sl) 0 1 < 4 → pay (held s sl) 1 1 = 0 → GivesHw
    (.sysrefArm sl) s (acted sl (asked s sl).hw))

/-- O46. Time, holdover, gate and PTP commands where no check turns them away. TIME_GET answers the time and the tick
latched in one cycle. TIME_STEER writes the increment, steps or sets, and answers RESOURCE_CONFLICT while the chain
servo steers. HOLDOVER_SET answers BUSY_RUNNING while the timebase function runs and else writes its set. GATE_SET
commits an entry unless its pad or entry is claimed; GATE_GET answers the occurrence in force. PTP_ASSIST gives a
sub-port its ring or takes it away. Rests on the model's reading or choice in log entries 124, 125. (R309, R310, R311,
R312, R313, R319, R366, R367, R477, R478, Table 14.12) -/
def Obligations.TimeAndGateCommandsRun : Prop :=
  (∀ (sl : Fin 48) (h : Hw) (s : State), Ready s sl 0x700 → h = latchTime (asked s sl).hw → GivesHw (.timeGet sl) s
    (reply h sl stOk (leBytes 8 (getF h aTB_LAT1 fTB_LAT1_SEC) ++ leBytes 4 (getF h aTB_LAT0 fTB_LAT0_NS) ++ leBytes
    4 (getF h aTB_LAT0 fTB_LAT0_FRAC) ++ leBytes 8 (reg h aCRD_TICKL).toNat))) ∧
  (∀ (sl : Fin 48) (s : State), Ready s sl 0x701 → pay (held s sl) 0 1 = 0 → incOk (pay (held s sl) 8 8) = true →
    chainOwned (asked s sl).hw = false → GivesHw (.timeSteer sl) s (acted sl (writeInc (asked s sl).hw (BitVec.ofNat
    64 (pay (held s sl) 8 8))))) ∧
  (∀ (sl : Fin 48) (x : Int) (s : State), Ready s sl 0x701 → pay (held s sl) 0 1 = 1 → -(2 ^ 47) ≤ x → x < 2 ^ 47 →
    x = paySigned (held s sl) 8 8 → stepOk (asked s sl).hw x = true → chainOwned (asked s sl).hw = false → GivesHw
    (.timeSteer sl) s (acted sl (askTb (asked s sl).hw (.step x)))) ∧
  (∀ (sl : Fin 48) (s : State), Ready s sl 0x701 → pay (held s sl) 0 1 = 2 → pay (held s sl) 8 8 < 2 ^ 48 → pay
    (held s sl) 16 4 < nsPerSec → chainOwned (asked s sl).hw = false → GivesHw (.timeSteer sl) s (acted sl (askTb
    (asked s sl).hw (.set (pay (held s sl) 8 8) (pay (held s sl) 16 4))))) ∧
  (∀ (sl : Fin 48) (s : State), Ready s sl 0x701 → steerFits (held s sl) (asked s sl).hw = true → chainOwned (asked
    s sl).hw = true → GivesHw (.timeSteer sl) s (reply (asked s sl).hw sl stConflict [])) ∧
  (∀ (sl : Fin 48) (s : State), Ready s sl 0x702 → -(2 ^ 12) ≤ paySigned (held s sl) 0 2 → paySigned (held s sl) 0 2
    < 2 ^ 12 → 1 ≤ pay (held s sl) 2 1 → pay (held s sl) 3 1 < 8 → fnRunning (asked s sl).hw (fnId 5 0) = true →
    GivesHw (.holdoverSet sl) s (reply (asked s sl).hw sl stBusy [])) ∧
  (∀ (sl : Fin 48) (s : State), Ready s sl 0x702 → -(2 ^ 12) ≤ paySigned (held s sl) 0 2 → paySigned (held s sl) 0 2
    < 2 ^ 12 → 1 ≤ pay (held s sl) 2 1 → pay (held s sl) 3 1 < 8 → fnRunning (asked s sl).hw (fnId 5 0) = false →
    GivesHw (.holdoverSet sl) s (acted sl (holdoverWritten (asked s sl).hw (held s sl)))) ∧
  (∀ (sl : Fin 48) (s : State), Ready s sl 0x703 → gateFits (held s sl) (asked s sl).hw = true → gateLoses (held s
    sl) (asked s sl).hw = false → GivesHw (.gateSet sl) s (acted sl (gateCommit (held s sl) (asked s sl).hw))) ∧
  (∀ (sl : Fin 48) (s : State), Ready s sl 0x703 → gateFits (held s sl) (asked s sl).hw = true → gateLoses (held s
    sl) (asked s sl).hw = true → GivesHw (.gateSet sl) s (reply (asked s sl).hw sl stConflict [])) ∧
  (∀ (sl : Fin 48) (s : State), Ready s sl 0x704 → pay (held s sl) 0 1 < 64 → GivesHw (.gateGet sl) s (replied sl
    (gatePayload (held s sl) (asked s sl).hw))) ∧
  (∀ (sl : Fin 48) (s : State), Ready s sl 0x705 → pay (held s sl) 0 1 < 16 → pay (held s sl) 1 1 = 1 → ringFits
    (asked s sl).hw (pay (held s sl) 8 8) (pay (held s sl) 16 4) = true → GivesHw (.ptpAssist sl) s (acted sl
    (withPtp (asked s sl).hw (pay (held s sl) 0 1) ⟨pay (held s sl) 8 8, pay (held s sl) 16 4, pay (held s sl) 24
    8⟩))) ∧
  (∀ (sl : Fin 48) (s : State), Ready s sl 0x705 → pay (held s sl) 0 1 < 16 → pay (held s sl) 1 1 = 0 → GivesHw
    (.ptpAssist sl) s (acted sl (withoutPtp (asked s sl).hw (pay (held s sl) 0 1))))

/-- O47. Memory, repair, power and ageing commands where no check turns them away. MUCK_SET writes EN and PACE. MEM_TEST
takes TEST, notes the findings so far and gives every yard named one pass; elsewhere it answers WRONG_STATE. Status,
repair and trough registers are answered. YARD_VOLT sets a code and its floor; YARD_MODE changes the divide and asks
for the mode, or answers WRONG_STATE while a task runs and BUSY_RUNNING where the divide would change under a running
program; it answers OK once the yard has the mode, and WRONG_STATE where a request aborted the power-down. DRAM_POLICY
sets HOTPOL of every channel; AGE_REPORT and CLOCK_STATUS answer; REPLAN makes the yards of its mask owe a re-plan.
Rests on the model's reading or choice in log entries 44, 120, 128. (R186, R202, R217, R366, R404, R405, R407, R415,
R421, Table 14.12) -/
def Obligations.MemoryAndPowerCommandsRun : Prop :=
  (∀ (sl : Fin 48) (s : State), Ready s sl 0x800 → pay (held s sl) 0 1 ≤ 1 → GivesHw (.muckSet sl) s (acted sl (setF
    (setF (asked s sl).hw aMO_CTL fMO_CTL_EN (pay (held s sl) 0 1)) aMO_CTL fMO_CTL_PACE (pay (held s sl) 2 2)))) ∧
  (∀ (sl : Fin 48) (s : State), Ready s sl 0x801 → s.hw.mode = .test → GivesHw (.memTest sl) s (becomeRunning
    (withMemTest (asked s sl).hw (some (memTestOf (asked s sl).hw (pay (held s sl) 0 2)))) sl (32848 * popCount 16
    (pay (held s sl) 0 2)))) ∧
  (∀ (sl : Fin 48) (s : State), Ready s sl 0x801 → s.hw.mode ≠ .test → GivesHw (.memTest sl) s (reply (asked s
    sl).hw sl stWrong [])) ∧
  (∀ (sl : Fin 48) (s : State), Ready s sl 0x802 → GivesHw (.memStatus sl) s (replied sl (readRegs (asked s sl).hw
    [aMO_STAT, aMO_FIND, aMO_CTL]))) ∧
  (∀ (sl : Fin 48) (s : State), Ready s sl 0x803 → pay (held s sl) 0 2 < 1280 → GivesHw (.repairRead sl) s (reply
    (asked s sl).hw sl stOk (leBytes 8 (reg (asked s sl).hw (aRPR_BANK (pay (held s sl) 0 2))).toNat ++ leBytes 8
    ((reg (asked s sl).hw (aRPR_DEGR (pay (held s sl) 0 2 / 64))).getLsbD (pay (held s sl) 0 2 % 64)).toNat))) ∧
  (∀ (sl : Fin 48) (n : Nat) (k : Nat) (s : State), Ready s sl 0x804 → pay (held s sl) 0 1 < 128 → pay (held s sl) 1
    1 < 8 → n = pay (held s sl) 0 1 → k = pay (held s sl) 1 1 → GivesHw (.troughRead sl) s (replied sl (readRegs
    (asked s sl).hw [aTRG_CFG n k, aTRG_PTR n k, aTRG_CNT n k, aTRG_HWM n k, aTRG_STAT n k, aTRG_ECC n k]))) ∧
  (∀ (sl : Fin 48) (s : State), Ready s sl 0x900 → pay (held s sl) 0 1 < 16 → pay (held s sl) 1 1 ≤ 1 → 620 ≤ pay
    (held s sl) 2 2 → pay (held s sl) 2 2 ≤ 900 → pay (held s sl) 2 2 % 5 = 0 → codeFits (asked s sl).hw (pay (held
    s sl) 0 1) ((pay (held s sl) 2 2 - 620) / 5) = true → GivesHw (.yardVolt sl) s (acted sl (withVoltage (asked s
    sl).hw (pay (held s sl) 0 1) ((pay (held s sl) 2 2 - 620) / 5) (pay (held s sl) 1 1 == 1)))) ∧
  (∀ (sl : Fin 48) (s : State), Ready s sl 0x901 → divFits (asked s sl).hw (pay (held s sl) 0 1) (pay (held s sl) 2
    1) = true → pay (held s sl) 0 1 < 16 → pay (held s sl) 1 1 ≤ 2 → pay (held s sl) 2 1 ≤ 2 → pay (held s sl) 1 1 ≠
    0 → taskRuns (asked s sl).hw (pay (held s sl) 0 1) = true → GivesHw (.yardMode sl) s (settleYardModes (reply
    (asked s sl).hw sl stWrong []))) ∧
  (∀ (sl : Fin 48) (s : State), Ready s sl 0x901 → divFits (asked s sl).hw (pay (held s sl) 0 1) (pay (held s sl) 2
    1) = true → pay (held s sl) 0 1 < 16 → pay (held s sl) 1 1 ≤ 2 → pay (held s sl) 2 1 ≤ 2 → pay (held s sl) 1 1 ≠
    0 → taskRuns (asked s sl).hw (pay (held s sl) 0 1) = false → pay (held s sl) 2 1 = yardDiv (asked s sl).hw (pay
    (held s sl) 0 1) → GivesHw (.yardMode sl) s (settleYardModes (powerDownRequest (asked s sl).hw (pay (held s sl)
    0 1) (pay (held s sl) 1 1)))) ∧
  (∀ (sl : Fin 48) (s : State), Ready s sl 0x901 → divFits (asked s sl).hw (pay (held s sl) 0 1) (pay (held s sl) 2
    1) = true → pay (held s sl) 0 1 < 16 → pay (held s sl) 1 1 ≤ 2 → pay (held s sl) 2 1 ≤ 2 → pay (held s sl) 1 1 =
    0 ∨ taskRuns (asked s sl).hw (pay (held s sl) 0 1) = false → pay (held s sl) 2 1 ≠ yardDiv (asked s sl).hw (pay
    (held s sl) 0 1) → fnRunning (asked s sl).hw (fnId 3 (pay (held s sl) 0 1)) = true → GivesHw (.yardMode sl) s
    (settleYardModes (reply (asked s sl).hw sl stBusy []))) ∧
  (∀ (sl : Fin 48) (s : State), Ready s sl 0x901 → divFits (asked s sl).hw (pay (held s sl) 0 1) (pay (held s sl) 2
    1) = true → pay (held s sl) 0 1 < 16 → pay (held s sl) 1 1 ≤ 2 → pay (held s sl) 2 1 ≤ 2 → pay (held s sl) 1 1 ≠
    0 → taskRuns (asked s sl).hw (pay (held s sl) 0 1) = false → pay (held s sl) 2 1 ≠ yardDiv (asked s sl).hw (pay
    (held s sl) 0 1) → fnRunning (asked s sl).hw (fnId 3 (pay (held s sl) 0 1)) = false → GivesHw (.yardMode sl) s
    (settleYardModes (powerDownRequest (writeDiv (asked s sl).hw (pay (held s sl) 0 1) (pay (held s sl) 2 1)) (pay
    (held s sl) 0 1) (pay (held s sl) 1 1)))) ∧
  (∀ (sl : Fin 48) (s : State), Ready s sl 0x901 → divFits (asked s sl).hw (pay (held s sl) 0 1) (pay (held s sl) 2
    1) = true → pay (held s sl) 0 1 < 16 → pay (held s sl) 1 1 ≤ 2 → pay (held s sl) 2 1 ≤ 2 → pay (held s sl) 1 1 =
    0 → pay (held s sl) 2 1 ≠ yardDiv (asked s sl).hw (pay (held s sl) 0 1) → fnRunning (asked s sl).hw (fnId 3 (pay
    (held s sl) 0 1)) = false → GivesHw (.yardMode sl) s (settleYardModes (wakeRequest (writeDiv (asked s sl).hw
    (pay (held s sl) 0 1) (pay (held s sl) 2 1)) (pay (held s sl) 0 1)))) ∧
  (∀ (sl : Fin 48) (s : State), Ready s sl 0x901 → divFits (asked s sl).hw (pay (held s sl) 0 1) (pay (held s sl) 2
    1) = true → pay (held s sl) 0 1 < 16 → pay (held s sl) 1 1 ≤ 2 → pay (held s sl) 2 1 ≤ 2 → pay (held s sl) 1 1 =
    0 → pay (held s sl) 2 1 = yardDiv (asked s sl).hw (pay (held s sl) 0 1) → GivesHw (.yardMode sl) s
    (settleYardModes (wakeRequest (asked s sl).hw (pay (held s sl) 0 1)))) ∧
  (∀ (h : Hw) (sl : Fin 48) (x : Slot) (y : Nat), frozen h = false → x = slot h sl → y = pay x 0 1 → x.st = .taken →
    x.opc = 0x901 → x.left = 2 ^ selfAddr h → h.slots = [(sl.val, x)] → pay x 1 1 = 0 → yardRuns h y = true →
    settleYardModes h = reply h sl stOk []) ∧
  (∀ (h : Hw) (sl : Fin 48) (x : Slot) (y : Nat), frozen h = false → x = slot h sl → y = pay x 0 1 → x.st = .taken →
    x.opc = 0x901 → x.left = 2 ^ selfAddr h → h.slots = [(sl.val, x)] → pay x 1 1 ≠ 0 → getF h (aYP_STAT y)
    fYP_STAT_MODE = pay x 1 1 → getF h (aYP_STAT y) fYP_STAT_TRANS = 0 → settleYardModes h = reply h sl stOk []) ∧
  (∀ (h : Hw) (sl : Fin 48) (x : Slot) (y : Nat), frozen h = false → x = slot h sl → y = pay x 0 1 → x.st = .taken →
    x.opc = 0x901 → x.left = 2 ^ selfAddr h → h.slots = [(sl.val, x)] → pay x 1 1 ≠ 0 → getF h (aYP_STAT y)
    fYP_STAT_MODE ≠ pay x 1 1 → yardRuns h y = true → (yardPw h y).want = none → settleYardModes h = reply h sl
    stWrong []) ∧
  (∀ (h : Hw) (sl : Fin 48) (x : Slot) (y : Nat), frozen h = false → x = slot h sl → y = pay x 0 1 → x.st = .taken →
    x.opc = 0x901 → x.left = 2 ^ selfAddr h → h.slots = [(sl.val, x)] → pay x 1 1 ≠ 0 → getF h (aYP_STAT y)
    fYP_STAT_MODE ≠ pay x 1 1 → (yardPw h y).want.isSome = true → settleYardModes h = h) ∧
  (∀ (sl : Fin 48) (s : State), Ready s sl 0x902 → pay (held s sl) 0 1 ≤ 1 → GivesHw (.dramPolicy sl) s (acted sl
    (applyAll (fun h c => setF h (aDC_CFG c) fDC_CFG_HOTPOL (pay (held s sl) 0 1)) (asked s sl).hw (List.range 4)))) ∧
  (∀ (sl : Fin 48) (s : State), Ready s sl 0x903 → GivesHw (.ageReport sl) s (reply (asked s sl).hw sl stOk
    (ageBytes (asked s sl).hw))) ∧
  (∀ (sl : Fin 48) (s : State), Ready s sl 0x904 → GivesHw (.replan sl) s (becomeRunning (owingYards (asked s sl).hw
    (pay (held s sl) 0 2)) sl (popCount 16 (pay (held s sl) 0 2)))) ∧
  (∀ (sl : Fin 48) (s : State), Ready s sl 0x905 → GivesHw (.clockStatus sl) s (reply (asked s sl).hw sl stOk
    (clockBytes (asked s sl).hw)))

/-- O48. Capture, probe, trace, alarm, log, readout and register commands where no check turns them away. CAPTURE_ARM arms
a capture with the edge or time given. FREEZE sends its packet where another device is named, and freezes this one
where it is named. PROBE_SET writes the four registers of a filter; TRACE_SET the ring of a yard, WRONG_STATE where an
enabled ring would change. Alarm entries and log records are answered; a cleared code loses count, first record and
findings. FREEZE_READOUT runs only while FROZEN; FREEZE_RESUME asks for the resume unless FREEZE_N is low. REG_READ
answers registers, and REG_WRITE merges its records in order. Rests on the model's reading or choice in log entries
98, 126, 127. (R242, R267, R340, R366, R436, R440, R447, R449, Table 14.13) -/
def Obligations.ObservationCommandsRun : Prop :=
  (∀ (sl : Fin 48) (s : State), Ready s sl 0xA00 → pay (held s sl) 0 1 = 0 ∨ pay (held s sl) 0 1 = 3 → GivesHw
    (.captureArm sl) s (acted sl (armCapture (asked s sl).hw (pay (held s sl) 0 1)))) ∧
  (∀ (sl : Fin 48) (s : State), Ready s sl 0xA00 → pay (held s sl) 0 1 = 1 → GivesHw (.captureArm sl) s (acted sl
    (armCapture (setReg (asked s sl).hw aCAP_EDGE (BitVec.ofNat 64 (pay (held s sl) 8 8))) 1))) ∧
  (∀ (sl : Fin 48) (s : State), Ready s sl 0xA00 → pay (held s sl) 0 1 = 2 → pay (held s sl) 8 8 < 2 ^ 48 → pay
    (held s sl) 16 4 < nsPerSec → GivesHw (.captureArm sl) s (acted sl (armCapture (setF (setF (asked s sl).hw
    aCAP_TSEC fCAP_TSEC_SEC (pay (held s sl) 8 8)) aCAP_TNS fCAP_TNS_NS (pay (held s sl) 16 4)) 2))) ∧
  (∀ (sl : Fin 48) (x : Slot) (h : Hw) (s : State), Starts s sl 0xA01 → s.hw.mode ≠ .isolated → x = slot s.hw sl →
    freezeFits x = true → h = setSlot s.hw sl (askedPart s.hw x) → GivesHw (.freeze sl) s (noteDevice (freezeHere h
    x) sl (selfAddr s.hw) stOk true [])) ∧
  (∀ (sl : Fin 48) (d : Nat) (x : Slot) (h : Hw) (s : State), x = slot s.hw sl → x.st = .taken → x.opc = 0xA01 →
    x.left = 0 → sl.val < 16 → d = x.tgt → d < 0x40 → d ≠ selfAddr s.hw → mpRuns s.hw 0xA01 = true → s.hw.mode ≠
    .isolated → freezeFits x = true → pay x 0 1 = 1 → h = sendPkt (setSlot s.hw sl (awaiting x d)) (freezePkt
    (setSlot s.hw sl (awaiting x d)) d false) → GivesHw (.freeze sl) s (if (portTo h d).isSome then noteDevice h sl
    d stOk true [] else noteDevice h sl d stNoTarget false [])) ∧
  (∀ (sl : Fin 48) (d : Nat) (x : Slot) (h : Hw) (s : State), x = slot s.hw sl → x.st = .taken → x.opc = 0xA01 →
    x.left = 0 → sl.val < 16 → d = x.tgt → d < 0x40 → d ≠ selfAddr s.hw → mpRuns s.hw 0xA01 = true → s.hw.mode ≠
    .isolated → freezeFits x = true → pay x 0 1 = 0 → h = sendPkt (setSlot s.hw sl (awaiting x d)) (timedFreezePkt
    (setSlot s.hw sl (awaiting x d)) d (pay x 8 8) (pay x 16 4)) → GivesHw (.freeze sl) s (if (portTo h d).isSome
    then noteDevice h sl d stOk true [] else noteDevice h sl d stNoTarget false [])) ∧
  (∀ (sl : Fin 48) (s : State), Starts s sl 0xA01 → freezeFits (slot s.hw sl) = true → s.hw.mode = .isolated →
    GivesHw (.freeze sl) s (reply (setSlot s.hw sl (askedPart s.hw (slot s.hw sl))) sl stWrong [])) ∧
  (∀ (sl : Fin 48) (s : State), Starts s sl 0xA01 → freezeFits (slot s.hw sl) = false → GivesHw (.freeze sl) s
    (completeSlot s.hw sl stInvalid [])) ∧
  (∀ (sl : Fin 48) (r : Sparse Byte × Hw) (s : State), Ready s sl 0xA02 → pay (held s sl) 0 1 < 16 → ((probeWrites
    (held s sl)).all fun w => valueFits w.1 w.2) = true → r = (probeWrites (held s sl)).foldl (fun s w => writeReg
    s.1 s.2 w.1 (BitVec.ofNat 64 w.2)) (s.mem, (asked s sl).hw) → GivesMem (.probeSet sl) s ((r.1, acted sl r.2))) ∧
  (∀ (sl : Fin 48) (s : State), Ready s sl 0xA03 → traceFits (held s sl) = true → isSet (asked s sl).hw (aSCH_CTL
    (pay (held s sl) 0 1)) fSCH_CTL_TREN = false → GivesHw (.traceSet sl) s (acted sl (traceSetTo (asked s sl).hw
    (held s sl)))) ∧
  (∀ (sl : Fin 48) (s : State), Ready s sl 0xA03 → traceFits (held s sl) = true → isSet (asked s sl).hw (aSCH_CTL
    (pay (held s sl) 0 1)) fSCH_CTL_TREN = true → getF (asked s sl).hw (aSCH_TRBASE (pay (held s sl) 0 1))
    fSCH_TRBASE_BASE ≠ pay (held s sl) 8 8 → GivesHw (.traceSet sl) s (reply (asked s sl).hw sl stWrong [])) ∧
  (∀ (sl : Fin 48) (s : State), Ready s sl 0xA04 → 1 ≤ pay (held s sl) 2 1 → pay (held s sl) 2 1 ≤ 14 → pay (held s
    sl) 0 2 + pay (held s sl) 2 1 ≤ 512 → GivesHw (.alarmRead sl) s (replied sl (entries (asked s sl).hw alarmBytes
    (pay (held s sl) 0 2) (pay (held s sl) 2 1)))) ∧
  (∀ (sl : Fin 48) (s : State), Ready s sl 0xA05 → 1 ≤ pay (held s sl) 4 1 → pay (held s sl) 4 1 ≤ 14 → GivesHw
    (.logRead sl) s (replied sl (entries (asked s sl).hw (fun h i => logBytes h (i % 2 ^ 32)) (pay (held s sl) 0 4)
    (pay (held s sl) 4 1)))) ∧
  (∀ (sl : Fin 48) (s : State), Ready s sl 0xA06 → pay (held s sl) 0 2 < 512 → GivesHw (.alarmClear sl) s (acted sl
    (clearAlarm (asked s sl).hw (pay (held s sl) 0 2)))) ∧
  (∀ (sl : Fin 48) (s : State), Ready s sl 0xA06 → pay (held s sl) 0 2 = 0xFFFF → GivesHw (.alarmClear sl) s (acted
    sl (applyAll clearAlarm (asked s sl).hw (List.range 512)))) ∧
  (∀ (sl : Fin 48) (s : State), Ready s sl 0xA10 → s.hw.mode = .frozen → GivesHw (.freezeReadout sl) s
    (becomeRunning (asked s sl).hw sl 33)) ∧
  (∀ (sl : Fin 48) (s : State), Ready s sl 0xA10 → s.hw.mode ≠ .frozen → GivesHw (.freezeReadout sl) s (reply (asked
    s sl).hw sl stWrong [])) ∧
  (∀ (sl : Fin 48) (low : Bool) (s : State), Ready s sl 0xA11 → s.hw.mode ≠ .frozen → GivesHw (.freezeResume sl low)
    s (reply (asked s sl).hw sl stWrong [])) ∧
  (∀ (sl : Fin 48) (s : State), Ready s sl 0xA11 → s.hw.mode = .frozen → GivesHw (.freezeResume sl false) s
    (resumeRequest (asked s sl).hw false)) ∧
  (∀ (sl : Fin 48) (s : State), Ready s sl 0xA11 → s.hw.mode = .frozen → GivesHw (.freezeResume sl true) s (reply
    (asked s sl).hw sl stWrong [])) ∧
  (∀ (sl : Fin 48) (s : State), Ready s sl 0xB00 → 1 ≤ pay (held s sl) 8 1 → pay (held s sl) 8 1 ≤ 56 → ∀ k : Fin
    56, k.val < pay (held s sl) 8 1 → pay (held s sl) 0 8 + 8 * k < bar0Base ∧ regExists (pay (held s sl) 0 8 + 8 *
    k) = true → GivesHw (.regRead sl) s (replied sl (readRegs (asked s sl).hw ((List.range (pay (held s sl) 8
    1)).map fun k => pay (held s sl) 0 8 + 8 * k)))) ∧
  (∀ (sl : Fin 48) (r : Sparse Byte × Hw) (s : State), Ready s sl 0xB01 → ((recordsOf (held s sl)).all fun r => r.1
    < bar0Base && regExists r.1) = true → r = (recordsOf (held s sl)).foldl (fun s r => mergeWrite s.1 s.2 r.1 r.2.1
    r.2.2) (s.mem, (asked s sl).hw) → GivesMem (.regWrite sl) s ((r.1, acted sl r.2)))

/-- O49. Statuses of commands that a check turns away, and forwarding. A payload with a bit outside its fields, and a
field outside its range, answers INVALID, command by command; a device that is ISOLATED answers WRONG_STATE to the
commands from 0x300 on; a long command while one of its opcode runs answers WRONG_STATE. A command for another device
that can be asked is sent there and nothing happens here; one that cannot be reached is NO_TARGET; a broadcast that
names no device ends at once. A command that its slot does not hold does nothing. Rests on the model's reading or
choice in log entries 115, 123. (R262, R275, R353, R358, R359, R361, Table 14.7) -/
def Obligations.CommandsFailByName : Prop :=
  (∀ (sl : Fin 48) (s : State), Starts s sl 0x301 → payloadClear (held s sl) = false → GivesHw (.imageVerify sl) s
    (reply (asked s sl).hw sl stInvalid [])) ∧
  (∀ (sl : Fin 48) (s : State), Starts s sl 0x102 → 0x20 < pay (held s sl) 0 1 → GivesHw (.domainReset sl) s (reply
    (asked s sl).hw sl stInvalid [])) ∧
  (∀ (sl : Fin 48) (s : State), Starts s sl 0x103 → pay (held s sl) 0 1 ≠ 1 ∧ pay (held s sl) 0 1 ≠ 2 → GivesHw
    (.stateSet sl) s (reply (asked s sl).hw sl stInvalid [])) ∧
  (∀ (sl : Fin 48) (s : State), Starts s sl 0x202 → 2 < pay (held s sl) 0 1 → GivesHw (.partPolicy sl) s (reply
    (asked s sl).hw sl stInvalid [])) ∧
  (∀ (sl : Fin 48) (s : State), Starts s sl 0x204 → 256 < (List.range 64).foldl (fun acc d => acc + pay (held s sl)
    d 1) 0 → GivesHw (.chainPool sl) s (reply (asked s sl).hw sl stInvalid [])) ∧
  (∀ (sl : Fin 48) (s : State), Starts s sl 0x205 → 1 < pay (held s sl) 0 1 → GivesHw (.linkRetrain sl) s (reply
    (asked s sl).hw sl stInvalid [])) ∧
  (∀ (sl : Fin 48) (ok : Bool) (bs : List (BitVec 8)) (s : State), Starts s sl 0x300 → 2 ^ 46 ≤ pay (held s sl) 0 8
    ∨ 0x4000000 < pay (held s sl) 8 4 ∨ 2 < pay (held s sl) 12 1 → GivesHw (.imageLoad sl ok bs) s (reply (asked s
    sl).hw sl stInvalid [])) ∧
  (∀ (sl : Fin 48) (ok : Bool) (s : State), Starts s sl 0x302 → pay (held s sl) 0 1 ≠ 1 ∧ pay (held s sl) 0 1 ≠ 2 →
    GivesHw (.keyOwner sl ok) s (reply (asked s sl).hw sl stInvalid [])) ∧
  (∀ (sl : Fin 48) (ok : Bool) (s : State), Starts s sl 0x303 → 31 < pay (held s sl) 0 1 → GivesHw (.keyRevoke sl
    ok) s (reply (asked s sl).hw sl stInvalid [])) ∧
  (∀ (sl : Fin 48) (ok : Bool) (bs : List (BitVec 8)) (s : State), Starts s sl 0x306 → 2 ^ 46 ≤ pay (held s sl) 0 8
    ∨ 0x4000000 < pay (held s sl) 8 4 → GivesHw (.fwStore sl ok bs) s (reply (asked s sl).hw sl stInvalid [])) ∧
  (∀ (sl : Fin 48) (s : State), Starts s sl 0x400 → fnValid (pay (held s sl) 0 2) = false → GivesHw (.funcStop sl) s
    (reply (asked s sl).hw sl stInvalid [])) ∧
  (∀ (sl : Fin 48) (s : State), Starts s sl 0x401 → fnValid (pay (held s sl) 0 2) = false → GivesHw (.funcConfig sl)
    s (reply (asked s sl).hw sl stInvalid [])) ∧
  (∀ (sl : Fin 48) (s : State), Starts s sl 0x402 → fnValid (pay (held s sl) 0 2) = false → GivesHw (.funcStart sl)
    s (reply (asked s sl).hw sl stInvalid [])) ∧
  (∀ (sl : Fin 48) (s : State), Starts s sl 0x403 → fnValid (pay (held s sl) 0 2) = false → GivesHw (.funcStatus sl)
    s (reply (asked s sl).hw sl stInvalid [])) ∧
  (∀ (sl : Fin 48) (s : State), Starts s sl 0x500 → 128 ≤ pay (held s sl) 0 1 ∨ 16 ≤ pay (held s sl) 1 1 → GivesHw
    (.ctxLoad sl) s (reply (asked s sl).hw sl stInvalid [])) ∧
  (∀ (sl : Fin 48) (s : State), Starts s sl 0x501 → 128 ≤ pay (held s sl) 0 1 → GivesHw (.ctxStatus sl) s (reply
    (asked s sl).hw sl stInvalid [])) ∧
  (∀ (sl : Fin 48) (s : State), Starts s sl 0x502 → 16 ≤ pay (held s sl) 0 1 ∨ 64 ≤ pay (held s sl) 1 1 → GivesHw
    (.taskSet sl) s (reply (asked s sl).hw sl stInvalid [])) ∧
  (∀ (sl : Fin 48) (s : State), Starts s sl 0x503 → 16 ≤ pay (held s sl) 0 1 → GivesHw (.taskState sl) s (reply
    (asked s sl).hw sl stInvalid [])) ∧
  (∀ (sl : Fin 48) (s : State), Starts s sl 0x504 → 16 ≤ pay (held s sl) 0 1 → pay (held s sl) 0 1 ≠ 0xFF → GivesHw
    (.schDoorbell sl) s (reply (asked s sl).hw sl stInvalid [])) ∧
  (∀ (sl : Fin 48) (s : State), Starts s sl 0x505 → 16 ≤ pay (held s sl) 0 1 ∨ eventReserved (pay (held s sl) 1 1) =
    true ∨ pay (held s sl) 2 1 < 32 ∨ 64 ≤ pay (held s sl) 2 1 → GivesHw (.evToHost sl) s (reply (asked s sl).hw sl
    stInvalid [])) ∧
  (∀ (sl : Fin 48) (s : State), Starts s sl 0x506 → pay (held s sl) 0 1 < 32 ∨ 64 ≤ pay (held s sl) 0 1 → GivesHw
    (.evHostClr sl) s (reply (asked s sl).hw sl stInvalid [])) ∧
  (∀ (sl : Fin 48) (s : State), Starts s sl 0x600 → fnValid (pay (held s sl) 0 2) = false ∨ 3 ≤ pay (held s sl) 0 2
    / 256 → GivesHw (.portStatus sl) s (reply (asked s sl).hw sl stInvalid [])) ∧
  (∀ (sl : Fin 48) (s : State), Starts s sl 0x601 → fnValid (pay (held s sl) 0 2) = false ∨ 3 ≤ pay (held s sl) 0 2
    / 256 → GivesHw (.portCntclr sl) s (reply (asked s sl).hw sl stInvalid [])) ∧
  (∀ (sl : Fin 48) (s : State), Starts s sl 0x602 → shaperFits (held s sl) = false → GivesHw (.shaperSet sl) s
    (reply (asked s sl).hw sl stInvalid [])) ∧
  (∀ (sl : Fin 48) (s : State), Starts s sl 0x603 → 4 ≤ pay (held s sl) 0 1 ∨ 4 ≤ pay (held s sl) 1 1 → GivesHw
    (.sysrefArm sl) s (reply (asked s sl).hw sl stInvalid [])) ∧
  (∀ (sl : Fin 48) (s : State), Starts s sl 0x701 → steerFits (held s sl) (asked s sl).hw = false → GivesHw
    (.timeSteer sl) s (reply (asked s sl).hw sl stInvalid [])) ∧
  (∀ (sl : Fin 48) (s : State), Starts s sl 0x702 → pay (held s sl) 2 1 = 0 ∨ 8 ≤ pay (held s sl) 3 1 ∨ paySigned
    (held s sl) 0 2 < -(2 ^ 12) ∨ 2 ^ 12 ≤ paySigned (held s sl) 0 2 → GivesHw (.holdoverSet sl) s (reply (asked s
    sl).hw sl stInvalid [])) ∧
  (∀ (sl : Fin 48) (s : State), Starts s sl 0x703 → gateFits (held s sl) (asked s sl).hw = false → GivesHw (.gateSet
    sl) s (reply (asked s sl).hw sl stInvalid [])) ∧
  (∀ (sl : Fin 48) (s : State), Starts s sl 0x704 → 64 ≤ pay (held s sl) 0 1 → GivesHw (.gateGet sl) s (reply (asked
    s sl).hw sl stInvalid [])) ∧
  (∀ (sl : Fin 48) (s : State), Starts s sl 0x705 → 16 ≤ pay (held s sl) 0 1 ∨ 1 < pay (held s sl) 1 1 ∨ (pay (held
    s sl) 1 1 = 1 ∧ ringFits (asked s sl).hw (pay (held s sl) 8 8) (pay (held s sl) 16 4) = false) → GivesHw
    (.ptpAssist sl) s (reply (asked s sl).hw sl stInvalid [])) ∧
  (∀ (sl : Fin 48) (s : State), Starts s sl 0x800 → 1 < pay (held s sl) 0 1 → GivesHw (.muckSet sl) s (reply (asked
    s sl).hw sl stInvalid [])) ∧
  (∀ (sl : Fin 48) (s : State), Starts s sl 0x803 → 1280 ≤ pay (held s sl) 0 2 → GivesHw (.repairRead sl) s (reply
    (asked s sl).hw sl stInvalid [])) ∧
  (∀ (sl : Fin 48) (s : State), Starts s sl 0x804 → 128 ≤ pay (held s sl) 0 1 ∨ 8 ≤ pay (held s sl) 1 1 → GivesHw
    (.troughRead sl) s (reply (asked s sl).hw sl stInvalid [])) ∧
  (∀ (sl : Fin 48) (s : State), Starts s sl 0x900 → 16 ≤ pay (held s sl) 0 1 ∨ 1 < pay (held s sl) 1 1 ∨ pay (held s
    sl) 2 2 < 620 ∨ 900 < pay (held s sl) 2 2 ∨ pay (held s sl) 2 2 % 5 ≠ 0 ∨ codeFits (asked s sl).hw (pay (held s
    sl) 0 1) ((pay (held s sl) 2 2 - 620) / 5) = false → GivesHw (.yardVolt sl) s (reply (asked s sl).hw sl
    stInvalid [])) ∧
  (∀ (sl : Fin 48) (s : State), Starts s sl 0x902 → 1 < pay (held s sl) 0 1 → GivesHw (.dramPolicy sl) s (reply
    (asked s sl).hw sl stInvalid [])) ∧
  (∀ (sl : Fin 48) (s : State), Starts s sl 0xA00 → 3 < pay (held s sl) 0 1 ∨ (pay (held s sl) 0 1 = 2 ∧ (2 ^ 48 ≤
    pay (held s sl) 8 8 ∨ nsPerSec ≤ pay (held s sl) 16 4)) → GivesHw (.captureArm sl) s (reply (asked s sl).hw sl
    stInvalid [])) ∧
  (∀ (sl : Fin 48) (s : State), Starts s sl 0xA02 → 16 ≤ pay (held s sl) 0 1 ∨ ((probeWrites (held s sl)).all fun w
    => valueFits w.1 w.2) = false → GivesHw (.probeSet sl) s (reply (asked s sl).hw sl stInvalid [])) ∧
  (∀ (sl : Fin 48) (s : State), Starts s sl 0xA03 → traceFits (held s sl) = false → GivesHw (.traceSet sl) s (reply
    (asked s sl).hw sl stInvalid [])) ∧
  (∀ (sl : Fin 48) (s : State), Starts s sl 0xA04 → pay (held s sl) 2 1 = 0 ∨ 14 < pay (held s sl) 2 1 ∨ 512 < pay
    (held s sl) 0 2 + pay (held s sl) 2 1 → GivesHw (.alarmRead sl) s (reply (asked s sl).hw sl stInvalid [])) ∧
  (∀ (sl : Fin 48) (s : State), Starts s sl 0xA05 → pay (held s sl) 4 1 = 0 ∨ 14 < pay (held s sl) 4 1 → GivesHw
    (.logRead sl) s (reply (asked s sl).hw sl stInvalid [])) ∧
  (∀ (sl : Fin 48) (s : State), Starts s sl 0xA06 → 512 ≤ pay (held s sl) 0 2 → pay (held s sl) 0 2 ≠ 0xFFFF →
    GivesHw (.alarmClear sl) s (reply (asked s sl).hw sl stInvalid [])) ∧
  (∀ (sl : Fin 48) (s : State), Starts s sl 0xB00 → pay (held s sl) 8 1 = 0 ∨ 56 < pay (held s sl) 8 1 ∨ ∃ k : Fin
    56, k.val < pay (held s sl) 8 1 ∧ (bar0Base ≤ pay (held s sl) 0 8 + 8 * k ∨ regExists (pay (held s sl) 0 8 + 8 *
    k) = false) → GivesHw (.regRead sl) s (reply (asked s sl).hw sl stInvalid [])) ∧
  (∀ (sl : Fin 48) (s : State), Starts s sl 0xB01 → ((recordsOf (held s sl)).all fun r => r.1 < bar0Base &&
    regExists r.1) = false → GivesHw (.regWrite sl) s (reply (asked s sl).hw sl stInvalid [])) ∧
  (∀ (sl : Fin 48) (s : State), Starts s sl 0x402 → s.hw.mode = .isolated → payloadClear (held s sl) = true →
    fnValid (pay (held s sl) 0 2) = true → GivesHw (.funcStart sl) s (reply (asked s sl).hw sl stWrong [])) ∧
  (∀ (sl : Fin 48) (s : State), Starts s sl 0x904 → payloadClear (held s sl) = true → longBusy (asked s sl).hw 0x904
    = true → GivesHw (.replan sl) s (reply (asked s sl).hw sl stWrong [])) ∧
  (∀ (sl : Fin 48) (d : Nat) (s : State), (slot s.hw sl).st = .taken → (slot s.hw sl).opc = 0x400 → (slot s.hw
    sl).left = 0 → d = (slot s.hw sl).tgt → d < 0x40 → d ≠ selfAddr s.hw → sl.val < 16 → mpRuns s.hw 0x400 = true →
    creditsFor s.hw ([d].filter (canReach s.hw)) = true → GivesHw (.funcStop sl) s (if canReach s.hw d then
    forwardTo (sentTo s sl d) sl d else noteDevice (sentTo s sl d) sl d stNoTarget false [])) ∧
  (∀ (sl : Fin 48) (s : State), (slot s.hw sl).st = .taken → (slot s.hw sl).opc = 0x800 → (slot s.hw sl).left = 0 →
    sl.val < 16 → targetsOf s.hw (slot s.hw sl).tgt = [] → s.hw.chain.out.length ≤ 256 → mpRuns s.hw 0x800 = true →
    GivesHw (.muckSet sl) s (finishBroadcast s.hw sl)) ∧
  (∀ (sl : Fin 48) (s : State), (slot s.hw sl).st ≠ .taken ∨ (slot s.hw sl).opc ≠ 0x800 ∨ (slot s.hw sl).left ≠ 0 ∨
    mpRuns s.hw 0x800 = false → GivesHw (.muckSet sl) s s.hw)

/-- O50. Diagnostic register writes, cleared counts and accesses through BAR2. A diagnostic write of 8 or 4 aligned bytes
acts as its register states, one of HI_ABORT aborts the slots it names, and one of the configuration store writes it,
but for that of a context in use or write-locked and for the fabric part while the fabric is enabled, where it is
discarded with a status; one that is misaligned or holds no register, or while FROZEN lies outside BAR0, is discarded
and counted. A BAR2 access through an aperture that is off, or to a hole, is an Unsupported Request, where a write is
counted; a write whose TLP is poisoned is discarded and counted. An access to this device becomes requests of the PCIe
endpoint; it completes poisoned, and a write is counted, while the device is FROZEN or ISOLATED or where it meets a
quarantined crossing; a write to the configuration store is ignored. In the freeze view, of device 0 and while FROZEN
only, registers, window slots and the configuration store are read without side effects and a write is discarded. An
access to another device becomes requests of the chain where a route leads there. A whole register is one request; a
read that every part answered gives its bytes, and a refused write is counted once. Rests on the model's reading or
choice in log entries 89, 105, 106, 194, 195. (R13, R26, R29, R30, R31, R113, R356, R445, R447, R464, Table 1.10) -/
def Obligations.HostAccessesAreSteeredAndServed : Prop :=
  (∀ (addr : BitVec 41) (v : BitVec 64) (s : State), s.hw.clocked = true → s.hw.mode ≠ .frozen ∨ bar0Base ≤
    addr.toNat → addr.toNat % 8 = 0 → regExists addr.toNat = true → addr.toNat ≠ aHI_ABORT → GivesMem
    (.diagnosticRegisterWrite addr true v) s (writeReg s.mem s.hw addr.toNat v)) ∧
  (∀ (addr : BitVec 41) (v : BitVec 64) (s : State), s.hw.clocked = true → s.hw.mode ≠ .frozen ∨ bar0Base ≤
    addr.toNat → addr.toNat % 4 = 0 → regExists (addr.toNat / 8 * 8) = true → addr.toNat / 8 * 8 ≠ aHI_ABORT →
    GivesMem (.diagnosticRegisterWrite addr false v) s (writeReg s.mem s.hw (addr.toNat / 8 * 8) (widen s.hw
    addr.toNat v.toNat).2)) ∧
  (∀ (addr : BitVec 41) (v : BitVec 64) (s : State), s.hw.clocked = true → addr.toNat = aHI_ABORT → GivesHw
    (.diagnosticRegisterWrite addr true v) s (abortSlots s.hw v.toNat)) ∧
  (∀ (addr : BitVec 41) (v : BitVec 64) (s : State), s.hw.clocked = true → addr.toNat = aHI_ABORT → GivesHw
    (.diagnosticRegisterWrite addr false v) s (abortSlots s.hw (v.toNat % 2 ^ 32))) ∧
  (∀ (addr : BitVec 41) (v : BitVec 64) (s : State), s.hw.clocked = true → addr.toNat = aHI_ABORT + 4 → GivesHw
    (.diagnosticRegisterWrite addr false v) s s.hw) ∧
  (∀ (addr : BitVec 41) (wide : Bool) (v : BitVec 64) (s : State), Up s → inStore addr.toNat = true → addr.toNat %
    (if wide then 8 else 4) = 0 → GivesMem (.diagnosticRegisterWrite addr wide v) s (writeStore s.mem s.hw
    addr.toNat (writtenBytes wide v))) ∧
  (∀ (n : Fin 128) (c : Fin 16) (m : Sparse Byte) (h : Hw) (a : Nat) (bs : List Byte), storeOwner (a - 0x1004000000)
    = some (n.val, c.val) → inUse h n c = true ∨ (pen h n).locks.getLsbD c = true → writeStore m h a bs = (m,
    raiseBit h (aPEN_CTXSTAT n) fPEN_CTXSTAT_WRINUSE)) ∧
  (∀ (n : Fin 128) (c : Fin 16) (m : Sparse Byte) (h : Hw) (a : Nat) (bs : List Byte), storeOwner (a - 0x1004000000)
    = some (n.val, c.val) → inUse h n c = false → (pen h n).locks.getLsbD c = false → a < 0x1004200000 → writeStore
    m h a bs = (writeBytes m a bs, h)) ∧
  (∀ (m : Sparse Byte) (h : Hw) (a : Nat) (bs : List Byte), blockAddr 0 ≤ a → a < blockAddr 256 → isSet h aTF_CTL
    fTF_CTL_EN = true → writeStore m h a bs = (m, raiseBit h aTF_CTL fTF_CTL_CFGBUSY)) ∧
  (∀ (m : Sparse Byte) (h : Hw) (a : Nat) (bs : List Byte), blockAddr 0 ≤ a → a < blockAddr 256 → isSet h aTF_CTL
    fTF_CTL_EN = false → writeStore m h a bs = (writeBytes m a bs, if noReserved (writeBytes m a bs) ((a - blockAddr
    0) / 0x1000) then h else raiseBit h aTF_CTL fTF_CTL_RSVVAL)) ∧
  (∀ (addr : BitVec 41) (wide : Bool) (v : BitVec 64) (s : State), Up s → addr.toNat % (if wide then 8 else 4) ≠ 0 ∨
    (regExists (addr.toNat / 8 * 8) = false ∧ inStore addr.toNat = false) → GivesHw (.diagnosticRegisterWrite addr
    wide v) s (hostDrop s.hw)) ∧
  (∀ (addr : BitVec 41) (wide : Bool) (v : BitVec 64) (s : State), s.hw.clocked = true → s.hw.mode = .frozen →
    addr.toNat < bar0Base → GivesHw (.diagnosticRegisterWrite addr wide v) s (hostDrop s.hw)) ∧
  (∀ (addr : BitVec 41) (wide : Bool) (v : BitVec 64) (s : State), s.hw.clocked = false → GivesHw
    (.diagnosticRegisterWrite addr wide v) s s.hw) ∧
  (∀ (addr : BitVec 41) (s : State), s.hw.clocked = true → s.hw.mode ≠ .frozen ∨ bar0Base ≤ addr.toNat → GivesHw
    (.countClear addr) s (clearCounts s.hw addr.toNat)) ∧
  (∀ (addr : BitVec 41) (s : State), s.hw.clocked = true → s.hw.mode = .frozen → addr.toNat < bar0Base → GivesHw
    (.countClear addr) s (hostDrop s.hw)) ∧
  (∀ (addr : BitVec 41) (s : State), s.hw.clocked = false → GivesHw (.countClear addr) s s.hw) ∧
  (∀ (n : Fin 128) (k : Fin 8) (h : Hw), clearCounts h (aTRG_ECC n k) = setF (setF h (aTRG_ECC n k) fTRG_ECC_CECNT
    0) (aTRG_ECC n k) fTRG_ECC_UECNT 0) ∧
  (∀ (x : Bar2) (s : State), s.hw.clocked = true → x.wr = true → x.tlpEp = true → GivesHw (.hostBar2Access x) s
    (hostDrop s.hw)) ∧
  (∀ (x : Bar2) (s : State), s.hw.clocked = true → x.wr = true → x.data = [] → GivesHw (.hostBar2Access x) s (if
    x.tlpEp then hostDrop s.hw else s.hw)) ∧
  (∀ (x : Bar2) (s : State), s.hw.clocked = true → x.wr = false → x.len = 0 → GivesHw (.hostBar2Access x) s
    (answerRead s.hw [])) ∧
  (∀ (x : Bar2) (s : State), s.hw.clocked = false → GivesHw (.hostBar2Access x) s (if x.wr then s.hw else unserved
    s.hw x 1)) ∧
  (∀ (x : Bar2) (s : State), s.hw.clocked = true → ¬ (x.wr = true ∧ x.tlpEp = true) → barSize x ≠ 0 → isSet s.hw
    (aAP (x.off.toNat / 2 ^ 30)) fAP_EN = false → GivesHw (.hostBar2Access x) s (unserved s.hw x 1)) ∧
  (∀ (x : Bar2) (s : State), BarTaken s x → barView s x = true → barDev s x ≠ 0 ∨ s.hw.mode ≠ .frozen → GivesHw
    (.hostBar2Access x) s (unserved s.hw x 1)) ∧
  (∀ (x : Bar2) (s : State), BarTaken s x → barView s x = true → barDev s x = 0 → s.hw.mode = .frozen → x.wr = true
    → GivesHw (.hostBar2Access x) s (hostDrop s.hw)) ∧
  (∀ (x : Bar2) (s : State), BarTaken s x → barView s x = true → barDev s x = 0 → s.hw.mode = .frozen → x.wr = false
    → regionOf s.hw (barAddr s x) x.len = .register → GivesHw (.hostBar2Access x) s (answerRead s.hw (((leBytes 8
    (viewReg s.hw ((barAddr s x) / 8 * 8)).toNat).drop ((barAddr s x) % 8)).take x.len))) ∧
  (∀ (x : Bar2) (s : State), BarTaken s x → barView s x = true → barDev s x = 0 → s.hw.mode = .frozen → x.wr = false
    → regionOf s.hw (barAddr s x) x.len = .slots → GivesHw (.hostBar2Access x) s (answerRead s.hw (readSlots s.mem
    s.hw (barAddr s x) x.len x.ecc).1)) ∧
  (∀ (x : Bar2) (s : State), BarTaken s x → barView s x = true → barDev s x = 0 → s.hw.mode = .frozen → x.wr = false
    → regionOf s.hw (barAddr s x) x.len = .store → GivesHw (.hostBar2Access x) s (answerRead s.hw (readBytes s.mem
    (barAddr s x) x.len))) ∧
  (∀ (x : Bar2) (s : State), BarTaken s x → barView s x = true → barDev s x = 0 → s.hw.mode = .frozen → x.wr = false
    → regionOf s.hw (barAddr s x) x.len = .hole ∨ regionOf s.hw (barAddr s x) x.len = .badRegister → GivesHw
    (.hostBar2Access x) s (unserved s.hw x 1)) ∧
  (∀ (x : Bar2) (s : State), BarTaken s x → barView s x = false → barDev s x = selfAddr s.hw → regionOf s.hw
    (barAddr s x) (barSize x) = .hole ∨ regionOf s.hw (barAddr s x) (barSize x) = .badRegister → GivesHw
    (.hostBar2Access x) s (unserved s.hw x 1)) ∧
  (∀ (x : Bar2) (s : State), BarTaken s x → barView s x = false → barDev s x = selfAddr s.hw → x.wr = true →
    regionOf s.hw (barAddr s x) (barSize x) = .store → GivesHw (.hostBar2Access x) s s.hw) ∧
  (∀ (x : Bar2) (s : State), BarTaken s x → barView s x = false → barDev s x = selfAddr s.hw → regionOf s.hw
    (barAddr s x) (barSize x) ≠ .hole → regionOf s.hw (barAddr s x) (barSize x) ≠ .badRegister → x.wr = false ∨
    regionOf s.hw (barAddr s x) (barSize x) ≠ .store → s.hw.mode = .isolated ∨ s.hw.mode = .frozen ∨ barClosed s.hw
    (barAddr s x) x = true → GivesHw (.hostBar2Access x) s (unserved s.hw x 2)) ∧
  (∀ (x : Bar2) (s : State), BarTaken s x → barView s x = false → barDev s x = selfAddr s.hw → regionOf s.hw
    (barAddr s x) (barSize x) ≠ .hole → regionOf s.hw (barAddr s x) (barSize x) ≠ .badRegister → x.wr = false ∨
    regionOf s.hw (barAddr s x) (barSize x) ≠ .store → s.hw.mode ≠ .isolated → s.hw.mode ≠ .frozen → barClosed s.hw
    (barAddr s x) x = false → GivesHw (.hostBar2Access x) s (beginHost s.hw x fun id => hostParts (regionOf s.hw
    (barAddr s x) (barSize x)) id (barAddr s x) x)) ∧
  (∀ (x : Bar2) (d : Nat) (s : State), BarTaken s x → barView s x = false → d = barDev s x → d ≠ selfAddr s.hw →
    addressed s.hw = false ∨ chainCount s.hw ≤ d → GivesHw (.hostBar2Access x) s (unserved s.hw x 1)) ∧
  (∀ (x : Bar2) (d : Nat) (s : State), BarTaken s x → barView s x = false → d = barDev s x → d ≠ selfAddr s.hw →
    addressed s.hw = true → d < chainCount s.hw → frozen s.hw = true ∨ portTo s.hw d = none → GivesHw
    (.hostBar2Access x) s (unserved s.hw x 2)) ∧
  (∀ (x : Bar2) (d : Nat) (p : Nat) (s : State), BarTaken s x → barView s x = false → d = barDev s x → d ≠ selfAddr
    s.hw → addressed s.hw = true → d < chainCount s.hw → frozen s.hw = false → portTo s.hw d = some p → GivesHw
    (.hostBar2Access x) s (hostRemote s.hw d p (barAddr s x) x)) ∧
  (∀ (h : Hw) (d : Nat) (p : Nat) (a : Nat) (x : Bar2), farRegion h a (barSize x) = .hole ∨ farRegion h a (barSize
    x) = .badRegister → hostRemote h d p a x = unserved h x 1) ∧
  (∀ (h : Hw) (d : Nat) (p : Nat) (a : Nat) (x : Bar2), barSize x ≠ 0 → farRegion h a (barSize x) = .dram ∨
    farRegion h a (barSize x) = .slots ∨ farRegion h a (barSize x) = .register → hostRemote h d p a x = beginHost h
    x fun id => (hostParts (farRegion h a (barSize x)) id a x).map (towards d p)) ∧
  (∀ (id : Nat) (a : Nat) (x : Bar2), x.wr = true → x.data.length = 8 → hostParts .register id a x = [hostPart id 9
    0 a 0 0 0 false [TW.data (BitVec.ofNat 72 (leNat x.data))]]) ∧
  (∀ (id : Nat) (a : Nat) (x : Bar2), x.wr = false → hostParts .register id a x = [hostPart id 8 0 (8 * (a / 8)) 0
    (a % 8) x.len false []]) ∧
  (∀ (h : Hw) (w : Whole) (n : Nat), w.status = 0 → hostAnswered h w false n = answerRead h (readBytes w.bytes 0 n)) ∧
  (∀ (h : Hw) (w : Whole) (n : Nat), w.status ≠ 0 → hostAnswered h w true n = hostDrop h)

/-- O51. Findings, the record queue, the alarm table, vectors and MP memory errors. A finding counts with its tick and
router, keeps its first record and queues its record of the moment, or counts a lost one when 256 wait; a code that no
finding raises does nothing. Firmware drains the oldest record into the log and raises its alarm; the counter of a
code is moved with its first record and starts again from 0. A first occurrence is kept whole and sends the vector of
its class, a further one only counts; a FATAL one stops every function and enters RECOVERY. An alarm that arises while
firmware does not run waits for it. A cause sends its message at once, or waits while its interval runs or its entry
is masked; the end of an interval sends what waits. A source event sends its vector. A correctable MP error is
counted; an uncorrectable one raises MP_UCE, which enters RECOVERY with the running functions recorded. While FROZEN,
or where nothing waits, nothing happens. Rests on the model's reading or choice in log entries 93, 94, 97, 129. (R349,
R428, R434, R435, R436, R438, R439, R440, R445, R468, R469) -/
def Obligations.FindingsBecomeAlarmsAndVectors : Prop :=
  (∀ (f : Finding) (s : State), frozen s.hw = false → findingCodes.contains f.code.toNat = true →
    s.hw.obs.queue.length < 256 → Completes (.findingPost f) s (fun t => t.mem = s.mem ∧ t.nv = s.nv ∧ t.hw.regs =
    s.hw.regs ∧ t.hw.obs.qLost = s.hw.obs.qLost ∧ t.hw.obs.queue = s.hw.obs.queue ++ [recNow s.hw f.kind.toNat
    f.code.toNat ((alarmClass f.code.toNat).getD 0xFF) f.router.toNat f.addr.toNat f.detail.toNat] ∧ findCnt t.hw
    f.code.toNat = ⟨min ((findCnt s.hw f.code.toNat).count + 1) 0xFFFFFFFF, some ((findCnt s.hw
    f.code.toNat).latch.getD (recNow s.hw f.kind.toNat f.code.toNat ((alarmClass f.code.toNat).getD 0xFF)
    f.router.toNat f.addr.toNat f.detail.toNat)), crdTick s.hw, f.router.toNat⟩)) ∧
  (∀ (f : Finding) (s : State), frozen s.hw = false → findingCodes.contains f.code.toNat = true → 256 ≤
    s.hw.obs.queue.length → Completes (.findingPost f) s (fun t => t.mem = s.mem ∧ t.nv = s.nv ∧ t.hw.regs = (bump
    s.hw aAL_STAT fAL_STAT_QDROP 1).regs ∧ t.hw.obs.queue = s.hw.obs.queue ∧ t.hw.obs.qLost = s.hw.obs.qLost + 1 ∧
    findCnt t.hw f.code.toNat = ⟨min ((findCnt s.hw f.code.toNat).count + 1) 0xFFFFFFFF, some ((findCnt s.hw
    f.code.toNat).latch.getD (recNow s.hw f.kind.toNat f.code.toNat ((alarmClass f.code.toNat).getD 0xFF)
    f.router.toNat f.addr.toNat f.detail.toNat)), crdTick s.hw, f.router.toNat⟩)) ∧
  (∀ (f : Finding) (s : State), frozen s.hw = true ∨ findingCodes.contains f.code.toNat = false → GivesHw
    (.findingPost f) s s.hw) ∧
  (∀ (r : LogRec) (rest : List LogRec) (s : State), fwRuns s.hw = true → s.hw.obs.queue = r :: rest → GivesHw
    .recordDrain s (transferFinding (writeLog (withQueue s.hw rest) r) r.code)) ∧
  (∀ (s : State), fwRuns s.hw = false ∨ s.hw.obs.queue = [] → GivesHw .recordDrain s s.hw) ∧
  (∀ (code : BitVec 9) (c : FindCnt) (r : LogRec) (s : State), fwRuns s.hw = true → c = findCnt s.hw code.toNat →
    c.count ≠ 0 → c.latch = some r → GivesHw (.findingCounterTransfer code) s (occur (findsTaken s.hw code.toNat)
    code.toNat c.count c.lastTick c.lastRouter r)) ∧
  (∀ (code : BitVec 9) (s : State), fwRuns s.hw = false ∨ (findCnt s.hw code.toNat).count = 0 → GivesHw
    (.findingCounterTransfer code) s s.hw) ∧
  (∀ (h : Hw) (r : LogRec), h.obs.qLost = 0 → writeLog h r = appendLog h r) ∧
  (∀ (h : Hw) (r : LogRec), h.obs.qLost ≠ 0 → writeLog h r = appendLog (appendLog (noneLost h) ⟨0x000A, 0xFFFF,
    crdTick h, 0xFF, recDevice h, 0xFF, 0, h.obs.qLost⟩) r) ∧
  (∀ (h : Hw) (code : Nat) (k : Nat) (tick : Nat) (router : Nat) (r : LogRec), (alarmClass code).isSome = true →
    (alarmClass code) ≠ some 0 → (alarm h code).count = 0 → k ≠ 0 → (alarm (occur h code k tick router r)
    code).count = min k 0xFFFFFFFF ∧ (alarm (occur h code k tick router r) code).firstRec = some r ∧ (alarm (occur h
    code k tick router r) code).first = r.tick ∧ (alarm (occur h code k tick router r) code).last = tick ∧ (alarm
    (occur h code k tick router r) code).raised = true) ∧
  (∀ (h : Hw) (code : Nat) (k : Nat) (tick : Nat) (router : Nat) (r : LogRec), (alarmClass code).isSome = true →
    (alarmClass code) ≠ some 0 → (alarm h code).count ≠ 0 → alarm (occur h code k tick router r) code = counted
    (alarm h code) k tick router ∧ (occur h code k tick router r).obs.msix = h.obs.msix) ∧
  (∀ (h : Hw) (code : Nat) (router : Nat) (addr : Nat) (detail : Nat), (alarmClass code).isSome = true → alarmClass
    code ≠ some 0 ∨ h.mode ≠ .startUp → fwRuns h = false → raiseAlarm h code router addr detail = deferring h (code,
    router, addr, detail)) ∧
  (∀ (h : Hw) (v : Nat), (msix h v).busy = false → vecMasked h v = false → sendVector h v = setMsix h v ⟨true, (msix
    h v).pend, (msix h v).sent + 1⟩) ∧
  (∀ (h : Hw) (v : Nat), (msix h v).busy = true ∨ vecMasked h v = true → sendVector h v = setMsix h v ⟨(msix h
    v).busy, true, (msix h v).sent⟩) ∧
  (∀ (v : Fin 64) (s : State), (msix s.hw v).busy = true → (msix s.hw v).pend = false → GivesHw (.msixHoldExpiry v)
    s (setMsix s.hw v ⟨false, false, (msix s.hw v).sent⟩)) ∧
  (∀ (v : Fin 64) (s : State), (msix s.hw v).busy = true → (msix s.hw v).pend = true → vecMasked s.hw v = true →
    GivesHw (.msixHoldExpiry v) s (setMsix s.hw v ⟨false, true, (msix s.hw v).sent⟩)) ∧
  (∀ (v : Fin 64) (s : State), (msix s.hw v).busy = true → (msix s.hw v).pend = true → vecMasked s.hw v = false →
    Completes (.msixHoldExpiry v) s (fun t => t.mem = s.mem ∧ t.nv = s.nv ∧ t.hw.regs = s.hw.regs ∧ msix t.hw v =
    ⟨true, false, (msix s.hw v).sent + 1⟩ ∧ ∀ w : Fin 64, w ≠ v → msix t.hw w = msix s.hw w)) ∧
  (∀ (v : Fin 64) (s : State), (msix s.hw v).busy = false → GivesHw (.msixHoldExpiry v) s s.hw) ∧
  (∀ (v : Fin 64) (s : State), s.hw.obs.evHit.contains v.val = true → GivesHw (.hostEventVector v) s (sendVector
    (hitTaken s.hw v) v)) ∧
  (∀ (v : Fin 64) (s : State), s.hw.obs.evHit.contains v.val = false → GivesHw (.hostEventVector v) s s.hw) ∧
  (∀ (s : State), frozen s.hw = false → GivesHw (.mpUce true) s (bump s.hw aAL_STAT fAL_STAT_MPCE 1)) ∧
  (∀ (s : State), frozen s.hw = false → GivesHw (.mpUce false) s (raiseAlarm s.hw 0x018 0xFF 0 0)) ∧
  (∀ (c : Bool) (s : State), frozen s.hw = true → GivesHw (.mpUce c) s s.hw) ∧
  (∀ (s : State), s.hw.clocked = true → s.hw.mode = .run ∨ s.hw.mode = .test ∨ s.hw.mode = .isolated → fwRuns s.hw =
    true → Completes (.mpUce false) s (fun t => t.hw.mode = .recovery ∧ t.hw.recovering = some 0x018 ∧ t.hw.recorded
    = allFns.filter (fun id => fnRunning s.hw id)))

/-- O52. Freezes asked for at once or for a time, and the stop edge. A fall of FREEZE_N or the HI_FRZ bit asks for a
freeze, which with PROP is sent to the whole chain; a request that waits is not asked again. TARM arms a freeze for
the registers' time, with a CAUSE that the spec does not give; TCANCEL disarms it until self-refresh entry has begun,
1 us before the time. At the stop edge, once no training pause runs, the device is FROZEN: the count advances, the
state before is kept and every enabled channel is in self-refresh. LATE and CAUSE tell why. While FROZEN, or with none
asked for, nothing happens. Rests on the model's reading or choice in log entries 99, 100. (R444, R445, R446, R475) -/
def Obligations.FreezeRequestsAndTheStopEdge : Prop :=
  (∀ (s : State), frozen s.hw = false → s.hw.clocked = true → s.hw.frz.req = none → isSet s.hw aFR_CTL fFR_CTL_PROP
    = false → GivesHw .freezeNFall s (withReq s.hw 1)) ∧
  (∀ (s : State), frozen s.hw = false → s.hw.clocked = true → s.hw.frz.req = none → isSet s.hw aFR_CTL fFR_CTL_PROP
    = true → GivesHw .freezeNFall s (sendPkt (withReq s.hw 1) (freezePkt (withReq s.hw 1) 0xFF false))) ∧
  (∀ (s : State), s.hw.clocked = false ∨ s.hw.mode = .frozen ∨ s.hw.frz.req.isSome = true → GivesHw .freezeNFall s
    s.hw) ∧
  (∀ (h : Hw) (s : State), Up s → h = writePlain s.hw .hi 0 0x38 aHI_FRZ 1 → s.hw.frz.req = none → isSet s.hw
    aFR_CTL fFR_CTL_PROP = false → Completes .hiFrzFreeze s (fun t => t.mem = s.mem ∧ t.hw.frz.req = some 2)) ∧
  (∀ (s : State), Up s → Completes .tarm s (fun t => t.mem = s.mem ∧ t.hw.frz.timed = some (Config.freeNat s.hw.free
    % 8, getF s.hw aFR_TSEC fFR_TSEC_SEC, getF s.hw aFR_TNS fFR_TNS_NS) ∧ t.hw.mode = s.hw.mode ∧ t.hw.frz.req =
    s.hw.frz.req ∧ t.hw.frz.entering = decide (time32 (getF s.hw aFR_TSEC fFR_TSEC_SEC) (getF s.hw aFR_TNS
    fFR_TNS_NS) < now32 s.hw + 1000 * 2 ^ 32))) ∧
  (∀ (s : State), Up s → s.hw.frz.entering = false → Completes .tcancel s (fun t => t.mem = s.mem ∧ t.nv = s.nv ∧
    t.hw.frz.timed = none ∧ t.hw.frz.req = s.hw.frz.req ∧ t.hw.mode = s.hw.mode)) ∧
  (∀ (s : State), Up s → s.hw.frz.timed = none → Completes .tcancel s (fun t => t.mem = s.mem ∧ t.hw.frz =
    s.hw.frz)) ∧
  (∀ (s : State), Up s → s.hw.frz.entering = true → Completes .tcancel s (fun t => t.mem = s.mem ∧ t.hw.frz =
    s.hw.frz)) ∧
  (∀ (sec : Nat) (ns : Nat) (k : Nat) (s : State), frozen s.hw = false → s.hw.frz.timed = some (k, sec, ns) → time32
    sec ns ≤ now32 s.hw + 1000 * 2 ^ 32 → GivesHw .timedFreezeStart s (entryBegun s.hw)) ∧
  (∀ (sec : Nat) (ns : Nat) (k : Nat) (s : State), s.hw.frz.timed = some (k, sec, ns) → now32 s.hw + 1000 * 2 ^ 32 <
    time32 sec ns → GivesHw .timedFreezeStart s s.hw) ∧
  (∀ (s : State), s.hw.frz.timed = none ∨ frozen s.hw = true → GivesHw .timedFreezeStart s s.hw) ∧
  (∀ (k : Nat) (s : State), frozen s.hw = false → s.hw.frz.req = some k → ∀ c : Fin 4, (dramCh s.hw c).paused =
    false → GivesHw .freezeStop s (freezeNow s.hw k false)) ∧
  (∀ (sec : Nat) (ns : Nat) (k : Nat) (s : State), frozen s.hw = false → s.hw.frz.req = none → s.hw.frz.timed = some
    (k, sec, ns) → s.hw.frz.entering = true → time32 sec ns ≤ now32 s.hw → ∀ c : Fin 4, (dramCh s.hw c).paused =
    false → GivesHw .freezeStop s (freezeNow s.hw k (s.hw.frz.past || decide (time32 sec ns + refPeriod32 s.hw ≤
    now32 s.hw)))) ∧
  (∀ (c : Fin 4) (s : State), (dramCh s.hw c).paused = true → GivesHw .freezeStop s s.hw) ∧
  (∀ (s : State), frozen s.hw = true ∨ (s.hw.frz.req = none ∧ s.hw.frz.timed = none) → GivesHw .freezeStop s s.hw) ∧
  (∀ (sec : Nat) (ns : Nat) (k : Nat) (s : State), s.hw.frz.req = none → s.hw.frz.timed = some (k, sec, ns) →
    s.hw.frz.entering = false ∨ now32 s.hw < time32 sec ns → GivesHw .freezeStop s s.hw) ∧
  (∀ (h : Hw) (k : Nat) (late : Bool), h.mode ≠ .frozen → (freezeNow h k late).mode = .frozen ∧ (freezeNow h k
    late).before = h.mode ∧ (freezeNow h k late).frz.req = none ∧ (freezeNow h k late).frz.timed = none ∧ (freezeNow
    h k late).arr = h.arr ∧ (freezeNow h k late).aclk = h.aclk ∧ (freezeNow h k late).tb = h.tb ∧ getF (freezeNow h
    k late) aFR_STAT fFR_STAT_LATE = late.toNat ∧ getF (freezeNow h k late) aHI_FRZ fHI_FRZ_CAUSE = k % 2 ^
    fHI_FRZ_CAUSE.w ∧ isSet (freezeNow h k late) aHI_FRZ fHI_FRZ_FROZEN = true ∧ getF (freezeNow h k late) aFR_STAT
    fFR_STAT_FRZCNT = min (getF h aFR_STAT fFR_STAT_FRZCNT + 1) (2 ^ fFR_STAT_FRZCNT.w - 1)) ∧
  (∀ (h : Hw) (k : Nat) (late : Bool) (c : Fin 4), h.mode ≠ .frozen → chanLive h c = true → (dramCh (freezeNow h k
    late) c).selfRefresh = true)

/-- O53. The TAP, readout, self-refresh and resume of a FROZEN device. While FROZEN the TAP selects an address that is a
multiple of 8 (any other leaves the address open), reads 8 bytes with their status and advances by 8; a readout fills
the shadow pages and advances SEQ. A controller that was out for readout returns to self-refresh; DRAMSR is set once
all have. A resume is asked for by the register or the TAP unless FREEZE_N is low. When it completes the device is
back in the state that it had, with LINKRT told, its channels out of self-refresh, and the commands that asked
answered. A device that is not FROZEN takes none of it. Rests on the model's reading or choice in log entries 101,
102. (R447, R448, R449, R267, R475) -/
def Obligations.FrozenReadoutAndResume : Prop :=
  (∀ (a : BitVec 48) (s : State), s.hw.mode = .frozen → a.toNat % 8 = 0 → GivesHw (.frzAddr a) s (tapAt s.hw
    (a.setWidth 40))) ∧
  (∀ (a : BitVec 48) (s : State), s.hw.mode = .frozen → a.toNat % 8 ≠ 0 → GivesHw (.frzAddr a) s (tapAt (freshNat
    s.hw).2 (BitVec.ofNat 40 (8 * (freshNat s.hw).1)))) ∧
  (∀ (r : Option (List Byte) × Hw) (bs : List Byte) (s : State), s.hw.mode = .frozen → r = frozenRead s.mem s.hw
    s.hw.frz.tapAddr.toNat 8 .ok → r.1 = some bs → GivesHw .frzData s (tapLoaded r.2 (leNat bs) 0 (s.hw.frz.tapAddr
    + 8))) ∧
  (∀ (r : Option (List Byte) × Hw) (s : State), s.hw.mode = .frozen → r = frozenRead s.mem s.hw
    s.hw.frz.tapAddr.toNat 8 .ok → r.1 = none → regionOf s.hw s.hw.frz.tapAddr.toNat 8 ≠ .dram → GivesHw .frzData s
    (tapLoaded (freshNat r.2).2 ((freshNat r.2).1 % 2 ^ 64) 1 (s.hw.frz.tapAddr + 8))) ∧
  (∀ (r : Option (List Byte) × Hw) (s : State), s.hw.mode = .frozen → r = frozenRead s.mem s.hw
    s.hw.frz.tapAddr.toNat 8 .ok → r.1 = none → regionOf s.hw s.hw.frz.tapAddr.toNat 8 = .dram → GivesHw .frzData s
    (tapLoaded (freshNat r.2).2 ((freshNat r.2).1 % 2 ^ 64) 2 (s.hw.frz.tapAddr + 8))) ∧
  (∀ (a : BitVec 48) (s : State), s.hw.mode ≠ .frozen → GivesHw (.frzAddr a) s s.hw) ∧
  (∀ (s : State), s.hw.mode ≠ .frozen → GivesHw .frzData s s.hw) ∧
  (∀ (s : State), s.hw.mode ≠ .frozen → GivesHw .tapReadout s s.hw) ∧
  (∀ (s : State), s.hw.mode = .frozen → GivesHw .tapReadout s (frozenReadout s.mem s.hw)) ∧
  (∀ (m : Sparse Byte) (h : Hw), h.mode = .frozen → (frozenReadout m h).shadow = (fillShadow m h).shadow ∧
    (frozenReadout m h).arr = h.arr ∧ (frozenReadout m h).mode = .frozen) ∧
  (∀ (c : Fin 4) (o : BitVec 4) (s : State), s.hw.mode = .frozen → o = BitVec.ofNat 4 (2 ^ c.val) → s.hw.frz.out = o
    → GivesHw (.selfRefreshReturn c) s (setF (setF (channelBack s.hw c) aFR_STAT fFR_STAT_DRAMOUT 0) aHI_FRZ
    fHI_FRZ_DRAMSR 1)) ∧
  (∀ (c : Fin 4) (s : State), s.hw.mode = .frozen → s.hw.frz.out.getLsbD c.val = true → s.hw.frz.out ≠ BitVec.ofNat
    4 (2 ^ c.val) → GivesHw (.selfRefreshReturn c) s (channelBack s.hw c)) ∧
  (∀ (c : Fin 4) (s : State), s.hw.mode ≠ .frozen ∨ s.hw.frz.out.getLsbD c.val = false → GivesHw (.selfRefreshReturn
    c) s s.hw) ∧
  (∀ (s : State), s.hw.mode = .frozen → GivesHw (.tapResume false) s (resuming s.hw)) ∧
  (∀ (s : State), s.hw.mode = .frozen → GivesHw (.hiFrzResume false) s (resuming s.hw)) ∧
  (∀ (s : State), GivesHw (.hiFrzResume true) s s.hw) ∧
  (∀ (s : State), GivesHw (.tapResume true) s s.hw) ∧
  (∀ (s : State), s.hw.mode ≠ .frozen → GivesHw (.hiFrzResume false) s s.hw) ∧
  (∀ (s : State), s.hw.mode ≠ .frozen → GivesHw (.tapResume false) s s.hw) ∧
  (∀ (dropped : Bool) (ds : List (BitVec 8)) (s : State), frozen s.hw = true → s.hw.mode ≠ .frozen ∨
    s.hw.frz.resuming = false → s.hw.slots = [] → GivesHw (.resumeComplete dropped ds) s s.hw) ∧
  (∀ (h : Hw) (sl : Fin 48) (x : Slot), h.mode ≠ .frozen → h.slots = [(sl.val, x)] → x.st = .taken → x.opc = 0xA11 →
    x.left.testBit (selfAddr h) = true → answerResume h = reply h sl stOk (leBytes 8 (getF h aHI_FRZ
    fHI_FRZ_LINKRT))) ∧
  (∀ (dropped : Bool) (ds : List (BitVec 8)) (s : State), s.hw.mode = .frozen → s.hw.frz.resuming = true →
    s.hw.slots = [] → s.hw.noc.held = [] → GivesHw (.resumeComplete dropped ds) s (resumeDone s.hw dropped ds)) ∧
  (∀ (dropped : Bool) (ds : List (BitVec 8)) (s : State), s.hw.mode = .frozen → s.hw.frz.resuming = true →
    s.hw.before ≠ .frozen → s.hw.frz.deferred = [] → s.hw.slots = [] → s.hw.noc.held = [] → Completes
    (.resumeComplete dropped ds) s (fun t => t.mem = s.mem ∧ t.nv = s.nv ∧ t.hw.mode = s.hw.before ∧
    t.hw.frz.resuming = false ∧ t.hw.arr = s.hw.arr ∧ t.hw.tb = s.hw.tb ∧ isSet t.hw aHI_FRZ fHI_FRZ_FROZEN = false
    ∧ getF t.hw aHI_FRZ fHI_FRZ_LINKRT = dropped.toNat ∧ ∀ c : Fin 4, isSet s.hw (aDC_CFG c) fDC_CFG_EN = true →
    isSet s.hw (aDC_STAT c) fDC_STAT_STOPPED = false → (dramCh t.hw c).selfRefresh = false))

/-- O54. Power-on reset, rails, PLLs, the boot ROM and the start of firmware. POR, by the supply or a thermal trip, puts
everything but fuses and flash at its reset value. After a trip POR stays while a sensor reads 115 °C or more. A good
supply samples the straps with its rails on, and keeps rail 22 off below 3.6 V. With the PLLs locked the boot ROM
runs, unless the straps allow no source. The passing copy with the higher SEQNO boots, A where both are equal; with
none, BOOTSEL 2 listens and 0 has failed; BOOTSEL 1 listens. A copy given is taken as checked, else its bytes are.
Firmware that starts raises what waited, reads the ledger, checks the DRAM, four like channels of which are enabled,
and lets its reset go; when ready it releases the yards, sets FWRDY and sends vector 19, and device 0 begins a roll
call. Rests on the model's reading or choice in log entries 4, 11, 146, 147, 148. (R388, R451, R452, R455, R456, R457,
R460, R482, R208, R256, Table 19.3) -/
def Obligations.PowerOnRunsItsSequence : Prop :=
  (∀ (s : State), Completes .por s (fun t => t.mem = [] ∧ t.nv = s.nv ∧ t.pending = s.pending ∧ t.hw.regs = [] ∧
    t.hw.arr = Arr.reset ∧ t.hw.clocked = false ∧ t.hw.locked = false ∧ t.hw.phase = .por ∧ t.hw.mode = .startUp ∧
    t.hw.tripped = s.hw.tripped)) ∧
  (∀ (s : State), Completes .thermalTrip s (fun t => t.mem = [] ∧ t.nv = s.nv ∧ t.pending = s.pending ∧ t.hw.regs =
    [] ∧ t.hw.arr = Arr.reset ∧ t.hw.clocked = false ∧ t.hw.locked = false ∧ t.hw.phase = .por ∧ t.hw.mode =
    .startUp ∧ t.hw.tripped = true)) ∧
  (∀ (st : Straps) (mv : BitVec 16) (hot : Bool) (s : State), s.hw.phase = .por → 2600 ≤ mv.toNat → s.hw.tripped =
    false ∨ hot = false → GivesHw (.vinGood st mv hot) s (sampleStraps (railsUp s.hw mv.toNat) st)) ∧
  (∀ (st : Straps) (mv : BitVec 16) (hot : Bool) (s : State), s.hw.phase ≠ .por ∨ mv.toNat < 2600 ∨ (s.hw.tripped =
    true ∧ hot = true) → GivesHw (.vinGood st mv hot) s s.hw) ∧
  (∀ (s : State), s.hw.phase ≠ .rails ∨ getF s.hw aDV_BOOT fDV_BOOT_REFSEL = 3 → GivesHw .pllLock s s.hw) ∧
  (∀ (s : State), s.hw.phase = .rails → getF s.hw aDV_BOOT fDV_BOOT_REFSEL ≠ 3 → s.hw.locked = true → bootSel s.hw ≠
    3 → bootSel s.hw = 1 → isDev0 s.hw = false → GivesHw .pllLock s (romRuns s.hw)) ∧
  (∀ (s : State), s.hw.phase = .rails → getF s.hw aDV_BOOT fDV_BOOT_REFSEL ≠ 3 → s.hw.locked = false → bootSel s.hw
    ≠ 3 → bootSel s.hw = 1 → isDev0 s.hw = false → GivesHw .pllLock s (romRuns (raiseBit s.hw aCLK_STAT
    fCLK_STAT_REFPRES))) ∧
  (∀ (s : State), s.hw.phase = .rails → getF s.hw aDV_BOOT fDV_BOOT_REFSEL ≠ 3 → s.hw.locked = true → bootSel s.hw =
    3 ∨ (isDev0 s.hw = true ∧ bootSel s.hw = 1) → GivesHw .pllLock s (bootFailed (romRuns s.hw))) ∧
  (∀ (s : State), s.hw.phase = .rails → getF s.hw aDV_BOOT fDV_BOOT_REFSEL ≠ 3 → s.hw.locked = false → bootSel s.hw
    = 3 ∨ (isDev0 s.hw = true ∧ bootSel s.hw = 1) → GivesHw .pllLock s (bootFailed (romRuns (raiseBit s.hw aCLK_STAT
    fCLK_STAT_REFPRES)))) ∧
  (∀ (a : Option FwCheck) (b : Option FwCheck) (ca : FwCheck) (cb : FwCheck) (s : State), s.hw.phase = .rom →
    s.hw.recovering = none → frozen s.hw = false → copyCheck s false a = ca → copyCheck s true b = cb → bootSel s.hw
    ≠ 1 → ca.step = 0 → cb.step ≠ 0 ∨ newer cb.seqno ca.seqno = false → GivesHw (.firmwareBoot a b) s (runFirmware
    (bothNoted s.hw ca cb) false ca.seqno)) ∧
  (∀ (a : Option FwCheck) (b : Option FwCheck) (ca : FwCheck) (cb : FwCheck) (s : State), s.hw.phase = .rom →
    s.hw.recovering = none → frozen s.hw = false → copyCheck s false a = ca → copyCheck s true b = cb → bootSel s.hw
    ≠ 1 → cb.step = 0 → ca.step ≠ 0 ∨ newer cb.seqno ca.seqno = true → GivesHw (.firmwareBoot a b) s (runFirmware
    (bothNoted s.hw ca cb) true cb.seqno)) ∧
  (∀ (a : Option FwCheck) (b : Option FwCheck) (ca : FwCheck) (cb : FwCheck) (s : State), s.hw.phase = .rom →
    s.hw.recovering = none → frozen s.hw = false → copyCheck s false a = ca → copyCheck s true b = cb → bootSel s.hw
    = 2 → ca.step ≠ 0 → cb.step ≠ 0 → GivesHw (.firmwareBoot a b) s (listening (bothNoted s.hw ca cb))) ∧
  (∀ (a : Option FwCheck) (b : Option FwCheck) (ca : FwCheck) (cb : FwCheck) (s : State), s.hw.phase = .rom →
    s.hw.recovering = none → frozen s.hw = false → copyCheck s false a = ca → copyCheck s true b = cb → bootSel s.hw
    ≠ 1 → bootSel s.hw ≠ 2 → ca.step ≠ 0 → cb.step ≠ 0 → GivesHw (.firmwareBoot a b) s (bootFailed (bothNoted s.hw
    ca cb))) ∧
  (∀ (a : Option FwCheck) (b : Option FwCheck) (ca : FwCheck) (cb : FwCheck) (s : State), s.hw.phase = .rom →
    s.hw.recovering = none → frozen s.hw = false → copyCheck s false a = ca → copyCheck s true b = cb → bootSel s.hw
    = 1 → GivesHw (.firmwareBoot a b) s (listening s.hw)) ∧
  (∀ (a : Option FwCheck) (b : Option FwCheck) (s : State), s.hw.phase ≠ .rom ∨ s.hw.recovering.isSome = true ∨
    frozen s.hw = true → GivesHw (.firmwareBoot a b) s s.hw) ∧
  (∀ (c : FwCheck) (b : Bool) (s : State), copyCheck s b (some c) = c) ∧
  (∀ (b : Bool) (s : State), copyCheck s b none = checkFirmware s.nv s.mem s.hw (copyImage s.nv.flash b) (leNat
    (flashBytes s.nv.flash (copyBase b + 8) 4))) ∧
  (∀ (x : BitVec 32) (y : BitVec 32), newer x y = decide (x ≠ y ∧ (x - y).toNat < 2 ^ 31)) ∧
  (∀ (chans : List DramChan) (differ : List (Fin 2)) (s : State), s.hw.phase = .firmware → s.hw.recovering = none →
    frozen s.hw = false → GivesHw (.firmwareStart chans differ) s (started (dramConfigCheck (twiddlesStandard
    (setDefaultPools (ledgerRead s.nv (flushDeferred s.hw) differ))) chans))) ∧
  (∀ (chans : List DramChan) (differ : List (Fin 2)) (s : State), s.hw.phase ≠ .firmware ∨ s.hw.recovering.isSome =
    true ∨ frozen s.hw = true → GivesHw (.firmwareStart chans differ) s s.hw) ∧
  (∀ (h : Hw) (a : DramChan) (b : DramChan) (c : DramChan) (d : DramChan), h.mode = .startUp → frozen h = false →
    dramSupported [a, b, c, d] = true → (dramConfigCheck h [a, b, c, d]).dramGib = a.gib ∧ ∀ k : Fin 4, isSet
    (dramConfigCheck h [a, b, c, d]) (aDC_CFG k) fDC_CFG_EN = true ∧ getF (dramConfigCheck h [a, b, c, d]) (aDC_CFG
    k) fDC_CFG_RANKS = a.ranks - 1) ∧
  (∀ (s : State), s.hw.phase ≠ .started ∨ s.hw.recovering.isSome = true ∨ frozen s.hw = true → GivesHw
    .firmwareReady s s.hw) ∧
  (∀ (chans : List DramChan) (h : Hw), h.mode = .startUp → frozen h = false → dramSupported chans = false →
    dramConfigCheck h chans = raiseAlarm (applyAll (fun h c => setF h (aDC_CFG c) fDC_CFG_EN 0) (withGib h 0)
    (List.range 4)) 0x080 0xFF 0 0) ∧
  (∀ (s : State), s.hw.phase = .started → s.hw.recovering = none → frozen s.hw = false → isDev0 s.hw = false →
    GivesHw .firmwareReady s (sendVector (raiseBit (released6 s.hw) aHI_STAT fHI_STAT_FWRDY) 19)) ∧
  (∀ (s : State), s.hw.phase = .started → s.hw.recovering = none → frozen s.hw = false → isDev0 s.hw = true →
    GivesHw .firmwareReady s (rollStart (sendVector (raiseBit (released6 s.hw) aHI_STAT fHI_STAT_FWRDY) 19)))

/-- O55. RESET_N, the end of a domain reset, reopening, and the recovery action. RESET_N clears memory and what its column
names, keeps the supply, straps and rails, and lets the time and tick counts run on; its rise samples the straps, also
that of device 0 for CH_ID, and runs the sequence from step 2. Before POR ends it only holds the sequence. The end of
a domain reset clears what is the domain's and leaves the quarantine for the reopening, which needs an edge with a = 0
mod 4 and the surviving side running, recounts it, and lets a controller serve what waited. A recovery action that
ends lets the device back to RUN with what it recorded restarted where AUTORUN is 1; while the condition remains it is
repeated. A fault of a rail restarts it and resets its yard; the action of another alarm leaves nothing else. Rests on
the model's reading or choice in log entries 17, 149, 150, 152, 153, 154, 204. (R460, R461, R462, R463, R464, R466,
R468, R469, Table 19.4) -/
def Obligations.ResetsAndRecoveryAct : Prop :=
  (∀ (s : State), s.hw.phase ≠ .por → Completes (.resetNAssert true) s (fun t => t.mem = [] ∧ t.nv = s.nv ∧
    t.pending = s.pending ∧ t.hw.phase = .reset ∧ t.hw.rstLow = true ∧ t.hw.clocked = false ∧ t.hw.aclk = s.hw.aclk
    ∧ t.hw.locked = s.hw.locked ∧ t.hw.arr = Arr.reset ∧ now32 t.hw = now32 s.hw ∧ getF t.hw aDV_RST fDV_RST_CAUSE =
    2 ∧ t.hw.mcReset = s.hw.mcReset)) ∧
  (∀ (s : State), Completes (.resetNAssert false) s (fun t => t = s)) ∧
  (∀ (s : State), s.hw.phase = .por → Completes (.resetNAssert true) s (fun t => t.mem = s.mem ∧ t.nv = s.nv ∧
    t.pending = s.pending ∧ t.hw = heldLow s.hw)) ∧
  (∀ (st : Straps) (s : State), s.hw.phase = .reset → Completes (.resetNRelease st) s (fun t => t.mem = s.mem ∧
    t.hw.phase = .rails ∧ t.hw.rstLow = false ∧ t.hw.clocked = s.hw.clocked ∧ getF t.hw aDV_BOOT fDV_BOOT_BOOTSEL =
    st.bootsel.toNat ∧ getF t.hw aDV_BOOT fDV_BOOT_REFSEL = st.refsel.toNat ∧ isDev0 t.hw = st.hostport ∧ isSet t.hw
    aCH_ID fCH_ID_DEV0 = st.hostport)) ∧
  (∀ (st : Straps) (s : State), s.hw.phase ≠ .reset → GivesHw (.resetNRelease st) s (letGo s.hw)) ∧
  (∀ (c : Nat) (rest : List Nat) (s : State), frozen s.hw = false → s.hw.inDom = c :: rest → GivesHw .domainResetEnd
    s (domainClear (withInDom s.hw rest) c)) ∧
  (∀ (s : State), s.hw.inDom = [] ∨ frozen s.hw = true → GivesHw .domainResetEnd s s.hw) ∧
  (∀ (h : Hw), (domainClear h 0x1B).gates = []) ∧
  (∀ (code : BitVec 8) (s : State), s.hw.quarantined.getLsbD code.toNat = true → s.hw.inDom.contains code.toNat =
    false → survivorRuns s.hw code.toNat = true → s.hw.aclk % 4 = 0 → code.toNat < 0x1C ∨ 0x20 ≤ code.toNat →
    GivesHw (.crossingReopen code 0) s (countQuarantine (outOfQuarantine s.hw code.toNat))) ∧
  (∀ (code : BitVec 8) (n : Nat) (s : State), s.hw.quarantined.getLsbD code.toNat = true → s.hw.inDom.contains
    code.toNat = false → survivorRuns s.hw code.toNat = true → s.hw.aclk % 4 = 0 → n ≠ 0 → code.toNat < 0x1C ∨ 0x20
    ≤ code.toNat → GivesHw (.crossingReopen code n) s (countQuarantine (outOfQuarantine (bump s.hw aDV_XQ
    fDV_XQ_XDISC n) code.toNat))) ∧
  (∀ (code : BitVec 8) (c : Fin 4) (s : State), s.hw.quarantined.getLsbD code.toNat = true → s.hw.inDom.contains
    code.toNat = false → frozen s.hw = false → s.hw.aclk % 4 = 0 → code.toNat = 0x1C + c → GivesMem (.crossingReopen
    code 0) s (serveHeld s.mem (countQuarantine (outOfQuarantine s.hw code.toNat)) c)) ∧
  (∀ (code : BitVec 8) (n : Nat) (s : State), s.hw.aclk % 4 ≠ 0 ∨ s.hw.inDom.contains code.toNat = true ∨
    s.hw.quarantined.getLsbD code.toNat = false ∨ survivorRuns s.hw code.toNat = false → GivesHw (.crossingReopen
    code n) s s.hw) ∧
  (∀ (code : Nat) (failed : List (BitVec 16)) (s : State), s.hw.recovering = some code → s.hw.mode ≠ .frozen →
    GivesHw (.recoveryActionEnd true failed) s (recoveryAction s.hw code)) ∧
  (∀ (p : Bool) (failed : List (BitVec 16)) (s : State), s.hw.recovering = none ∨ s.hw.mode = .frozen → GivesHw
    (.recoveryActionEnd p failed) s s.hw) ∧
  (∀ (h : Hw) (code : Nat), code ≠ 0x008 → recoveryAction h code = h) ∧
  (∀ (h : Hw) (r : Nat), r = getF h aPW_STAT fPW_STAT_FLTRAIL → r < 16 → recoveryAction h 0x008 = domainClear (setF
    h (aPW_RAIL r) fPW_RAIL_OK 1) r) ∧
  (∀ (h : Hw) (r : Nat), r = getF h aPW_STAT fPW_STAT_FLTRAIL → 16 ≤ r → recoveryAction h 0x008 = setF h (aPW_RAIL
    r) fPW_RAIL_OK 1) ∧
  (∀ (code : Nat) (failed : List (BitVec 16)) (s : State), s.hw.recovering = some code → s.hw.mode ≠ .recovery →
    s.hw.mode ≠ .frozen → GivesHw (.recoveryActionEnd false failed) s (recovered (recoveryAction s.hw code))) ∧
  (∀ (code : Nat) (failed : List (BitVec 16)) (s : State), s.hw.recovering = some code → s.hw.mode = .recovery →
    code ≠ 0x008 → isSet s.hw aDV_CTL fDV_CTL_AUTORUN = true → Completes (.recoveryActionEnd false failed) s (fun t
    => t = onMem s (fun m h => restarted m h (failed.map BitVec.toNat)))) ∧
  (∀ (code : Nat) (failed : List (BitVec 16)) (s : State), s.hw.recovering = some code → s.hw.mode = .recovery →
    code ≠ 0x008 → isSet s.hw aDV_CTL fDV_CTL_AUTORUN = false → GivesHw (.recoveryActionEnd false failed) s
    (recovered s.hw)) ∧
  (∀ (code : Nat) (failed : List (BitVec 16)) (s : State), s.hw.recovering = some code → s.hw.mode = .recovery →
    code ≠ 0x008 → isSet s.hw aDV_CTL fDV_CTL_AUTORUN = true → s.hw.recorded = [] → GivesHw (.recoveryActionEnd
    false failed) s (returnToRun (recovered s.hw)))

/-- O56. A word written into an accumulator sets AE under R44. A write of a B16x2 word sets the lanes to its mantissas,
and AE to its exponent, or to -512 where all four mantissas are zero; a write in any other format sets AE to -512. A
read in any other format does not depend on AE. (R44) -/
def Obligations.AccumulatorExponentIsSetByWrites : Prop :=
  (∀ (t : TW), lanes 6 (Accum.ofWord 6 t).v = comps 6 t.d) ∧
  (∀ (t : TW), ∃ m ∈ comps 6 t.d, m ≠ 0 → (Accum.ofWord 6 t).ae = expOf t.d) ∧
  (∀ (t : TW), ∀ m ∈ comps 6 t.d, m = 0 → (Accum.ofWord 6 t).ae = -512) ∧
  (∀ (fmt : Nat) (t : TW), fmt ≠ 6 → (Accum.ofWord fmt t).ae = -512) ∧
  (∀ (v : BitVec 192) (p : Bool) (a : Int) (b : Int) (fmt : Nat) (sh : Nat) (rnd : Rnd) (sat : Bool), fmt ≠ 6 →
    Accum.read ⟨v, a, p⟩ fmt sh rnd sat = Accum.read ⟨v, b, p⟩ fmt sh rnd sat)

/-- O57. A PLL that loses lock with its reference present. While the reference is present a root or DRAM PLL that loses
lock sets CLK_STAT.UNLOCK. Firmware raises PLL_UNLOCK, which is FATAL, and a device in RUN, TEST or ISOLATED enters
RECOVERY (R467 gives no other state that does). (R397) -/
def Obligations.LossOfPllLockIsFatal : Prop :=
  (∀ (dram : Bool) (s : State), isSet s.hw aCLK_STAT fCLK_STAT_REFPRES = true → Completes (.pllUnlock dram) s (fun t
    => isSet t.hw aCLK_STAT fCLK_STAT_UNLOCK = true)) ∧
  (∀ (dram : Bool) (s : State), isSet s.hw aCLK_STAT fCLK_STAT_REFPRES = true → fwRuns s.hw = true → Completes
    (.pllUnlock dram) s (fun t => (alarm t.hw 0x001).raised = true ∧ (alarm t.hw 0x001).count = min ((alarm s.hw
    0x001).count + 1) 0xFFFFFFFF ∧ alarmClass 0x001 = some 0)) ∧
  (∀ (dram : Bool) (s : State), isSet s.hw aCLK_STAT fCLK_STAT_REFPRES = true → fwRuns s.hw = true → s.hw.mode =
    .run ∨ s.hw.mode = .test ∨ s.hw.mode = .isolated → Completes (.pllUnlock dram) s (fun t => t.hw.mode =
    .recovery))

/-- O58. A request that its SRAM copy spoils completes with HW_FAULT. Taking a slot of the host whose copy meets an
uncorrectable error completes it with HW_FAULT, executes nothing, and sets MBUCE. With no such error, a corrected one
included, taking the slot leaves MBUCE as it was. (R355) -/
def Obligations.UncorrectableRequestsCompleteHwFault : Prop :=
  (∀ (sl : Fin 48) (s : State), sl.val < 16 → nextTaken s.hw = some sl.val → Completes (.slotTaken sl true) s (fun t
    => t.mem = s.mem ∧ t.nv = s.nv ∧ (slot t.hw sl).st = .done ∧ (slot t.hw sl).status = stHwFault ∧ (slot t.hw
    sl).resp = [] ∧ t.hw.arr = s.hw.arr ∧ isSet t.hw aHI_STAT fHI_STAT_MBUCE = true)) ∧
  (∀ (sl : Fin 48) (s : State), sl.val < 16 → nextTaken s.hw = some sl.val → Completes (.slotTaken sl false) s (fun
    t => isSet t.hw aHI_STAT fHI_STAT_MBUCE = isSet s.hw aHI_STAT fHI_STAT_MBUCE))

/-- O59. Which slots a FROZEN device takes. While FROZEN a posted slot with any opcode but FREEZE_READOUT and
FREEZE_RESUME stays POSTED, and a command of any other opcode does not run; a slot with one of the two is taken. After
the resume the oldest posted slot is taken. (R354) -/
def Obligations.FrozenDevicesTakeReadoutSlotsOnly : Prop :=
  (∀ (sl : Fin 48) (u : Bool) (s : State), s.hw.mode = .frozen → postedOpc s.hw sl ≠ 0xA10 → postedOpc s.hw sl ≠
    0xA11 → GivesHw (.slotTaken sl u) s s.hw) ∧
  (∀ (sl : Fin 48) (o : Nat) (s : State), s.hw.mode = .frozen → s.hw.clocked = true → o = mboxNat s.hw sl 0 2 → o =
    0xA10 ∨ o = 0xA11 → s.hw.posted = [sl.val] → sl.val < 16 → takenWaits s.hw (fun x => engineOp x.opc) = false →
    headerStatus (takenBy s.hw sl) sl (takenSlot s.hw sl) = stOk → Completes (.slotTaken sl false) s (fun t => (slot
    t.hw sl).st = .taken ∧ (slot t.hw sl).opc = o ∧ t.hw.posted = [])) ∧
  (∀ (sl : Fin 48) (s : State), s.hw.mode = .frozen → (slot s.hw sl).opc ≠ 0xA10 → (slot s.hw sl).opc ≠ 0xA11 →
    GivesHw (.memStatus sl) s s.hw) ∧
  (∀ (sl : Fin 48) (rest : List Nat) (s : State), s.hw.clocked = true → s.hw.mode ≠ .frozen → fwReady s.hw = true →
    takenWaits s.hw (fun _ => true) = false → s.hw.posted = sl.val :: rest → sl.val < 16 → headerStatus (takenBy
    s.hw sl) sl (takenSlot s.hw sl) = stOk → Completes (.slotTaken sl false) s (fun t => (slot t.hw sl).st = .taken
    ∧ t.hw.posted = rest))

/-- O60. An access that covers bytes of two pages. An access of n bytes that goes past the end of its first page is
translated twice, once for each part; it gives both parts where both translations succeed, and none where either
fails, whose fault is latched with the address of the part. (R222) -/
def Obligations.PageCrossingAccessesAreTranslatedTwice : Prop :=
  (∀ (m : Sparse Byte) (h : Hw) (c : Bool) (va : Nat) (n : Nat) (wr : Bool) (src : Nat) (es : List Ecc) (x : Xlat)
    (y : Xlat) (h1 : Hw) (h2 : Hw), translateOne m h c va wr es = (.page x, h1) → pageRoom x va < n → translateOne m
    h1 c (va + pageRoom x va) wr (es.drop 2) = (.page y, h2) → translate m h c va n wr src es = (some [(x.place va,
    pageRoom x va), (y.place (va + pageRoom x va), n - pageRoom x va)], h2)) ∧
  (∀ (m : Sparse Byte) (h : Hw) (c : Bool) (va : Nat) (n : Nat) (wr : Bool) (src : Nat) (es : List Ecc) (x : Xlat)
    (k : Nat) (l : Nat) (h1 : Hw) (h2 : Hw), translateOne m h c va wr es = (.page x, h1) → pageRoom x va < n →
    translateOne m h1 c (va + pageRoom x va) wr (es.drop 2) = (.fault k l, h2) → translate m h c va n wr src es =
    (none, xlatFault h2 (va + pageRoom x va) k l wr src)) ∧
  (∀ (m : Sparse Byte) (h : Hw) (c : Bool) (va : Nat) (n : Nat) (wr : Bool) (src : Nat) (es : List Ecc) (k : Nat) (l
    : Nat) (h1 : Hw), translateOne m h c va wr es = (.fault k l, h1) → translate m h c va n wr src es = (none,
    xlatFault h1 va k l wr src))
end

