-- ==== Sys2Proof/Laws/Sparse.lean ====
section
/-!
SUPPORT. Laws of tables: what a key reads after an update, and that updates keep the canonical form.
-/

namespace Sys2Proof.Machine

variable {α : Type}

/-! ## Reads -/

@[simp] theorem lookup_insertAt_same (m : Sparse α) (a : Nat) (x : α) : lookup (insertAt m a x) a = some x := by
  induction m with
  | nil => simp [insertAt, lookup]
  | cons e m ih =>
    obtain ⟨k, v⟩ := e
    simp only [insertAt]
    split
    · simp [lookup]
    · split
      · simp [lookup]
      · simp [lookup, *]

theorem lookup_insertAt_ne (m : Sparse α) {a b : Nat} (x : α) (h : b ≠ a) : lookup (insertAt m a x) b = lookup m b := by
  induction m with
  | nil => simp [insertAt, lookup, Ne.symm h]
  | cons e m ih =>
    obtain ⟨k, v⟩ := e
    simp only [insertAt]
    split
    · simp [lookup, Ne.symm h]
    · split
      · next hk => subst hk; simp [lookup, Ne.symm h]
      · simp only [lookup, ih]

theorem lookup_removeAt_ne (m : Sparse α) {a b : Nat} (h : b ≠ a) : lookup (removeAt m a) b = lookup m b := by
  induction m with
  | nil => rfl
  | cons e m ih =>
    obtain ⟨k, v⟩ := e
    simp only [removeAt]
    split
    · next hk => subst hk; simp only [lookup, Ne.symm h, if_false, ih]
    · simp only [lookup, ih]

@[simp] theorem lookup_removeAt_same (m : Sparse α) (a : Nat) : lookup (removeAt m a) a = none := by
  induction m with
  | nil => rfl
  | cons e m ih =>
    obtain ⟨k, v⟩ := e
    simp only [removeAt]
    split
    · exact ih
    · next hk => simp only [lookup, hk, if_false]; exact ih

theorem getD_setD_ne [DecidableEq α] (d : α) (m : Sparse α) {a b : Nat} (x : α) (h : b ≠ a) :
    getD d (setD d m a x) b = getD d m b := by
  unfold getD setD
  split
  · rw [lookup_removeAt_ne m h]
  · rw [lookup_insertAt_ne m x h]

/-- Any value reads back, in any table. -/
@[simp] theorem getD_setD_same [DecidableEq α] (d : α) (m : Sparse α) (a : Nat) (x : α) : getD d (setD d m a x) a = x := by
  unfold getD setD
  split
  · simp [*]
  · simp

/-! ## The canonical form -/

theorem rising_mono {m : Sparse α} {lo lo' : Nat} (h : rising lo m = true) (hl : lo' ≤ lo) : rising lo' m = true := by
  cases m with
  | nil => rfl
  | cons e m =>
    obtain ⟨k, v⟩ := e
    simp only [rising, Bool.and_eq_true, decide_eq_true_eq] at h ⊢
    exact ⟨by omega, h.2⟩

theorem rising_insertAt {m : Sparse α} {lo a : Nat} (x : α) (h : rising lo m = true) (ha : lo ≤ a) :
    rising lo (insertAt m a x) = true := by
  induction m generalizing lo with
  | nil => simpa [insertAt, rising] using ha
  | cons e m ih =>
    obtain ⟨k, v⟩ := e
    simp only [rising, Bool.and_eq_true, decide_eq_true_eq] at h
    simp only [insertAt]
    split
    · simp only [rising, Bool.and_eq_true, decide_eq_true_eq]
      exact ⟨ha, by omega, h.2⟩
    · split
      · next hk => subst hk; simpa [rising, ha] using h.2
      · simp only [rising, Bool.and_eq_true, decide_eq_true_eq]
        exact ⟨h.1, ih h.2 (by omega)⟩

theorem rising_removeAt {m : Sparse α} {lo : Nat} (a : Nat) (h : rising lo m = true) : rising lo (removeAt m a) = true := by
  induction m generalizing lo with
  | nil => rfl
  | cons e m ih =>
    obtain ⟨k, v⟩ := e
    simp only [rising, Bool.and_eq_true, decide_eq_true_eq] at h
    simp only [removeAt]
    split
    · exact rising_mono (ih h.2) (by omega)
    · simp only [rising, Bool.and_eq_true, decide_eq_true_eq]
      exact ⟨h.1, ih h.2⟩

theorem rising_filter {m : Sparse α} {lo : Nat} (p : Nat × α → Bool) (h : rising lo m = true) :
    rising lo (m.filter p) = true := by
  induction m generalizing lo with
  | nil => rfl
  | cons e m ih =>
    obtain ⟨k, v⟩ := e
    simp only [rising, Bool.and_eq_true, decide_eq_true_eq] at h
    rw [List.filter_cons]
    split
    · simp only [rising, Bool.and_eq_true, decide_eq_true_eq]
      exact ⟨h.1, ih h.2⟩
    · exact rising_mono (ih h.2) (by omega)

theorem noDefault_insertAt [DecidableEq α] {d : Nat → α} {m : Sparse α} {a : Nat} {x : α} (h : noDefault d m = true)
    (hx : x ≠ d a) : noDefault d (insertAt m a x) = true := by
  induction m with
  | nil => simpa [insertAt, noDefault] using hx
  | cons e m ih =>
    obtain ⟨k, v⟩ := e
    simp only [noDefault, List.all_cons, Bool.and_eq_true, decide_eq_true_eq] at h ih ⊢
    simp only [insertAt]
    split
    · simp only [List.all_cons, Bool.and_eq_true, decide_eq_true_eq]
      exact ⟨hx, h.1, h.2⟩
    · split
      · simp only [List.all_cons, Bool.and_eq_true, decide_eq_true_eq]
        exact ⟨hx, h.2⟩
      · simp only [List.all_cons, Bool.and_eq_true, decide_eq_true_eq]
        exact ⟨h.1, ih h.2⟩

theorem noDefault_removeAt [DecidableEq α] {d : Nat → α} {m : Sparse α} (a : Nat) (h : noDefault d m = true) :
    noDefault d (removeAt m a) = true := by
  induction m with
  | nil => rfl
  | cons e m ih =>
    obtain ⟨k, v⟩ := e
    simp only [noDefault, List.all_cons, Bool.and_eq_true, decide_eq_true_eq] at h ih ⊢
    simp only [removeAt]
    split
    · exact ih h.2
    · simp only [List.all_cons, Bool.and_eq_true, decide_eq_true_eq]
      exact ⟨h.1, ih h.2⟩

theorem noDefault_filter [DecidableEq α] {d : Nat → α} {m : Sparse α} (p : Nat × α → Bool) (h : noDefault d m = true) :
    noDefault d (m.filter p) = true := by
  simp only [noDefault, List.all_eq_true] at h ⊢
  exact fun e he => h e (List.mem_filter.mp he).1

/-- Setting one key keeps the canonical form of a table with one default. -/
theorem sparseWf_setD [DecidableEq α] {d : α} {m : Sparse α} (a : Nat) (x : α) (h : sparseWf (fun _ => d) m = true) :
    sparseWf (fun _ => d) (setD d m a x) = true := by
  simp only [sparseWf, Bool.and_eq_true] at h ⊢
  unfold setD
  split
  · exact ⟨rising_removeAt a h.1, noDefault_removeAt a h.2⟩
  · next hx => exact ⟨rising_insertAt x h.1 (Nat.zero_le a), noDefault_insertAt h.2 hx⟩

theorem sparseWf_filter [DecidableEq α] {d : Nat → α} {m : Sparse α} (p : Nat × α → Bool) (h : sparseWf d m = true) :
    sparseWf d (m.filter p) = true := by
  simp only [sparseWf, Bool.and_eq_true] at h ⊢
  exact ⟨rising_filter p h.1, noDefault_filter p h.2⟩

end Sys2Proof.Machine
end

