-- ==== Sys2Proof/Laws/Memory.lean ====
section
/-!
SUPPORT. Laws of the byte memories: reads after writes, and that every memory operation keeps the canonical form.
-/

namespace Sys2Proof.Machine

/-! ## Reads after writes -/

theorem readByte_writeByte_ne (m : Sparse Byte) {a b : Nat} (x : Byte) (h : b ≠ a) :
    readByte (writeByte m a x) b = readByte m b := getD_setD_ne 0 m x h

@[simp] theorem readByte_writeByte_same (m : Sparse Byte) (a : Nat) (x : Byte) : readByte (writeByte m a x) a = x :=
  getD_setD_same 0 m a x

theorem readByte_writeBytes_outside (bs : List Byte) (m : Sparse Byte) {a b : Nat} (h : b < a ∨ a + bs.length ≤ b) :
    readByte (writeBytes m a bs) b = readByte m b := by
  induction bs generalizing m a with
  | nil => rfl
  | cons x bs ih =>
    simp only [List.length_cons] at h
    rw [writeBytes, ih (writeByte m a x) (by omega), readByte_writeByte_ne m x (by omega)]

/-! ## The canonical form -/

theorem reset_memWf : memWf State.reset.mem = true := rfl
theorem reset_flashWf : flashWf State.reset.nv.flash = true := rfl

theorem writeByte_wf {m : Sparse Byte} (a : Nat) (b : Byte) (h : memWf m = true) : memWf (writeByte m a b) = true :=
  sparseWf_setD a b h

theorem writeBytes_wf (bs : List Byte) {m : Sparse Byte} (a : Nat) (h : memWf m = true) :
    memWf (writeBytes m a bs) = true := by
  induction bs generalizing m a with
  | nil => exact h
  | cons b bs ih => exact ih (a + 1) (writeByte_wf a b h)

theorem writeWord_wf {m : Sparse Byte} (a : Nat) (t : TW) (h : memWf m = true) : memWf (writeWord m a t) = true :=
  writeBytes_wf _ a h

/-- A fold of updates keeps the canonical form where each does. -/
theorem foldl_memWf {β : Type} {f : Sparse Byte → β → Sparse Byte} (hf : ∀ m b, memWf m = true → memWf (f m b) = true)
    (bs : List β) {m : Sparse Byte} (h : memWf m = true) : memWf (bs.foldl f m) = true := by
  induction bs generalizing m with
  | nil => exact h
  | cons b bs ih => exact ih (hf m b h)

/-- The same for a fold that carries more. -/
theorem foldl_fst_memWf {β γ : Type} {f : Sparse Byte × γ → β → Sparse Byte × γ}
    (hf : ∀ s b, memWf s.1 = true → memWf (f s b).1 = true) (bs : List β) {s : Sparse Byte × γ} (h : memWf s.1 = true) :
    memWf (bs.foldl f s).1 = true := by
  induction bs generalizing s with
  | nil => exact h
  | cons b bs ih => exact ih (hf s b h)

theorem windowWrite_wf {m : Sparse Byte} (h : Hw) (mem w : Nat) (t : TW) (hm : memWf m = true) :
    memWf (windowWrite m h mem w t) = true := by
  unfold windowWrite
  split
  · exact hm
  · exact writeWord_wf _ _ hm

theorem lineMask_wf {m : Sparse Byte} (h : Hw) (l : Nat) (bs : List (Nat × Byte)) (e : Ecc) (hm : memWf m = true) :
    memWf (lineMask m h l bs e).1 = true := by
  have put (xs : List (Nat × Byte)) {m' : Sparse Byte} (h' : memWf m' = true) :
      memWf (xs.foldl (fun m b => writeByte m b.1 b.2) m') = true :=
    foldl_memWf (fun m b hm => writeByte_wf b.1 b.2 hm) xs h'
  unfold lineMask
  dsimp only
  split
  · exact hm
  · split
    · exact put _ hm
    · cases e
      · exact put _ hm
      · exact put _ hm
      · exact put _ (writeBytes_wf _ _ hm)

theorem dramMask_wf {m : Sparse Byte} (h : Hw) (ls : List Nat) (bs : List (Nat × Byte)) (es : List Ecc)
    (hm : memWf m = true) : memWf (dramMask m h ls bs es).1 = true :=
  foldl_fst_memWf (fun _ _ hs => lineMask_wf _ _ _ _ hs) _ hm

theorem dramWrite_wf {m : Sparse Byte} (h : Hw) (a : Nat) (bytes : List Byte) (es : List Ecc) (hm : memWf m = true) :
    memWf (dramWrite m h a bytes es).1 = true := dramMask_wf _ _ _ _ hm

theorem dramLineAccess_wf {m : Sparse Byte} (h : Hw) (l : Nat) (wr : Option LineWrite) (err : List (Fin 32 × Fin 16))
    (hm : memWf m = true) : memWf (dramLineAccess m h l wr err).1 = true := by
  unfold dramLineAccess
  dsimp only
  split
  · exact hm
  · cases wr with
    | none =>
      dsimp only
      split
      · exact hm
      · split
        · exact hm
        · exact writeBytes_wf _ _ hm
    | some w =>
      dsimp only
      split
      · exact dramMask_wf _ _ _ _ hm
      · split
        · exact dramMask_wf _ _ _ _ hm
        · exact dramMask_wf _ _ _ _ (writeBytes_wf _ _ hm)

theorem drainTail_wf {m : Sparse Byte} (h : Hw) (key : Nat) (hm : memWf m = true) : memWf (drainTail m h key).1 = true := by
  unfold drainTail
  dsimp only
  split
  · exact hm
  · dsimp only
    split
    · exact hm
    · exact writeWord_wf _ _ hm

theorem grantedTransfer_wf {m : Sparse Byte} (h : Hw) (key : Nat) (drain : Bool) (hm : memWf m = true) :
    memWf (grantedTransfer m h key drain).1 = true := by
  unfold grantedTransfer bufferTransfer
  split
  · exact hm
  · split
    · cases drain
      · exact hm
      · exact drainTail_wf _ _ hm
    · exact hm

theorem endTransfer_wf {s : Sparse Byte × Hw} (e : Nat × Claim) (hm : memWf s.1 = true) : memWf (endTransfer s e).1 = true := by
  unfold endTransfer
  dsimp only
  split
  · exact grantedTransfer_wf _ _ _ hm
  · exact hm

theorem finishStore_wf {s : Sparse Byte × Hw} (x : Flight) (hm : memWf s.1 = true) : memWf (finishStore s x).1 = true := by
  unfold finishStore
  split
  · split
    · exact hm
    · split
      · exact hm
      · exact writeWord_wf _ _ hm
  · exact hm

theorem closeAccesses_wf {m : Sparse Byte} (h : Hw) (n : Nat) (hm : memWf m = true) :
    memWf (closeAccesses m h n).1 = true := by
  unfold closeAccesses
  dsimp only
  split
  · exact hm
  · exact foldl_fst_memWf (fun _ x hs => finishStore_wf x hs) _ hm

/-- The end of a yard's cycle: STOREs and the transfers that were granted a port (R173 to R175). -/
theorem closeCycle_wf {m : Sparse Byte} (h : Hw) (y : Nat) (hm : memWf m = true) : memWf (closeCycle m h y).1 = true := by
  unfold closeCycle
  dsimp only
  exact foldl_fst_memWf (fun _ e hs => endTransfer_wf e hs) _
    (foldl_fst_memWf (fun s n hs => closeAccesses_wf s.2 n hs) _ hm)

theorem serveItem_wf {m : Sparse Byte} (h : Hw) (mem : Nat) (r : DmaReq) (i : Item) (e : Ecc) (hm : memWf m = true) :
    memWf (serveItem m h mem r i e).1 = true := by
  unfold serveItem
  dsimp only
  split
  · exact hm
  · exact windowWrite_wf _ _ _ _ hm

/-- A request served at a DMA port (R176, R177). -/
theorem serveWindow_wf (mem fuel : Nat) (es : List Ecc) {m : Sparse Byte} (h : Hw) (r : DmaReq) (hm : memWf m = true) :
    memWf (serveWindow mem fuel es m h r).1 = true := by
  induction fuel generalizing es m h r with
  | zero => exact hm
  | succ n ih =>
    unfold serveWindow
    split
    · exact hm
    · split
      · exact hm
      · dsimp only
        split
        · exact serveItem_wf _ _ _ _ _ hm
        · exact ih _ _ _ (serveItem_wf _ _ _ _ _ hm)

theorem streamerTransfer_wf {m : Sparse Byte} (h : Hw) (n s : Nat) (e : Ecc) (hm : memWf m = true) :
    memWf (streamerTransfer m h n s e).1 = true := by
  unfold streamerTransfer
  dsimp only
  repeat' split
  all_goals first
    | exact hm
    | exact writeWord_wf _ _ hm

theorem scrubWord_wf {m : Sparse Byte} (h : Hw) (y mem b row : Nat) (serves : Bool) (e : Ecc) (hm : memWf m = true) :
    memWf (scrubWord m h y mem b row serves e).1 = true := by
  unfold scrubWord
  split
  · exact hm
  · exact hm
  · dsimp only
    split
    · exact writeWord_wf _ _ hm
    · exact hm

theorem scrubAt_wf {m : Sparse Byte} (h : Hw) (y seg j : Nat) (e : Ecc) (hm : memWf m = true) :
    memWf (scrubAt m h y seg j e).1 = true := by
  unfold scrubAt
  dsimp only
  repeat' split
  all_goals first
    | exact hm
    | exact scrubWord_wf _ _ _ _ _ _ _ hm

/-- Muck-out takes a segment (R197 to R199). -/
theorem muckStart_wf {m : Sparse Byte} (h : Hw) (y : Nat) (saved : List Ecc) (hm : memWf m = true) :
    memWf (muckStart m h y saved).1 = true := by
  unfold muckStart
  split
  · exact foldl_fst_memWf (fun s e hs => scrubAt_wf _ _ _ _ _ hs) _ hm
  · exact hm

theorem evict_wf {m : Sparse Byte} (h : Hw) (n b : Nat) (hm : memWf m = true) : memWf (evict m h n b).1 = true := by
  unfold evict
  split
  · exact hm
  · refine foldl_memWf (fun m x hx => ?_) _ hm
    split
    · exact hx
    · exact writeWord_wf _ _ hx

theorem ringPut_wf (bs : List Byte) {m : Sparse Byte} (base k : Nat) (hm : memWf m = true) :
    memWf (ringPut m base k bs) = true := by
  induction bs generalizing m k with
  | nil => exact hm
  | cons b bs ih => exact ih (k + 1) (writeByte_wf _ b hm)

theorem writeFrames_wf {m : Sparse Byte} (img : List Byte) (ps : List (Nat × Nat)) (hm : memWf m = true) :
    memWf (writeFrames m img ps) = true := foldl_memWf (fun _ _ hx => writeBytes_wf _ _ hx) ps hm

theorem stageLofts_wf {m : Sparse Byte} (tag : Byte) (ys : List Nat) (bytes : List Byte) (hm : memWf m = true) :
    memWf (stageLofts m tag ys bytes) = true :=
  foldl_memWf (fun _ _ hx => foldl_memWf (fun _ _ hy => writeBytes_wf _ _ (writeBytes_wf _ _ hy)) _ hx) _ hm

theorem restage_wf {m : Sparse Byte} (l : Load) (o : Nat) (bytes : List Byte) (hm : memWf m = true) :
    memWf (restage m l o bytes) = true := by
  unfold restage
  split
  · exact writeBytes_wf _ _ hm
  · exact foldl_memWf (fun m b hx => writeByte_wf _ b.2 hx) _ hm

theorem writeDest_wf (r : Nat × List TW) {s : Sparse Byte × Hw} (hm : memWf s.1 = true) : memWf (writeDest s r).1 = true := by
  unfold writeDest
  split
  · exact foldl_memWf (fun m x hx => windowWrite_wf _ _ _ _ hx) _ hm
  · exact dramWrite_wf _ _ _ _ hm

/-! ## Boot flash -/

theorem programFlash_wf (bs : List Byte) {fl : Sparse Byte} (a : Nat) (h : flashWf fl = true) :
    flashWf (programFlash fl a bs) = true := by
  induction bs generalizing fl a with
  | nil => exact h
  | cons b bs ih => exact ih (a + 1) (sparseWf_setD a b h)

theorem eraseFlash_wf {fl : Sparse Byte} (a n : Nat) (h : flashWf fl = true) : flashWf (eraseFlash fl a n) = true :=
  sparseWf_filter _ h

theorem ledgerWrite_wf {nv : Nv} (h : Hw) (uid : Nat) (cut : Option Nat) (hf : flashWf nv.flash = true) :
    flashWf (ledgerWrite nv h uid cut).1.flash = true := by
  have put (n a : Nat) (bs : List Byte) : flashWf (programFlash (eraseFlash nv.flash a n) a bs) = true :=
    programFlash_wf bs _ (eraseFlash_wf _ _ hf)
  unfold ledgerWrite
  generalize 0x10000 = n
  cases cut with
  | none =>
    dsimp only
    apply put
  | some k =>
    dsimp only
    split <;> dsimp only <;> apply put

end Sys2Proof.Machine
end

