-- ==== Sys2Proof/Laws/State.lean ====
section
/-!
SUPPORT. One lemma per field and update: what an update of the state leaves as it was.
-/

namespace Sys2Proof.Machine

/-! ## Commands on the hardware and on memory -/

@[simp] theorem onHw_hw (s : State) (f : Hw → Hw) : (onHw s f).hw = f s.hw := rfl
@[simp] theorem onHw_mem (s : State) (f : Hw → Hw) : (onHw s f).mem = s.mem := rfl
@[simp] theorem onHw_nv (s : State) (f : Hw → Hw) : (onHw s f).nv = s.nv := rfl
@[simp] theorem onHw_pending (s : State) (f : Hw → Hw) : (onHw s f).pending = s.pending := rfl
@[simp] theorem onMem_hw (s : State) (f : Sparse Byte → Hw → Sparse Byte × Hw) : (onMem s f).hw = (f s.mem s.hw).2 := rfl
@[simp] theorem onMem_mem (s : State) (f : Sparse Byte → Hw → Sparse Byte × Hw) : (onMem s f).mem = (f s.mem s.hw).1 := rfl
@[simp] theorem onMem_nv (s : State) (f : Sparse Byte → Hw → Sparse Byte × Hw) : (onMem s f).nv = s.nv := rfl
@[simp] theorem onMem_pending (s : State) (f : Sparse Byte → Hw → Sparse Byte × Hw) : (onMem s f).pending = s.pending := rfl

/-! ## Registers -/

@[simp] theorem setReg_aclk (h : Hw) (a : Nat) (v : BitVec 64) : (setReg h a v).aclk = h.aclk := rfl
@[simp] theorem setReg_free (h : Hw) (a : Nat) (v : BitVec 64) : (setReg h a v).free = h.free := rfl
@[simp] theorem setReg_arr (h : Hw) (a : Nat) (v : BitVec 64) : (setReg h a v).arr = h.arr := rfl
@[simp] theorem setReg_obs (h : Hw) (a : Nat) (v : BitVec 64) : (setReg h a v).obs = h.obs := rfl
@[simp] theorem setReg_yardsUp (h : Hw) (a : Nat) (v : BitVec 64) : (setReg h a v).yardsUp = h.yardsUp := rfl
@[simp] theorem setReg_quarantined (h : Hw) (a : Nat) (v : BitVec 64) : (setReg h a v).quarantined = h.quarantined := rfl
@[simp] theorem setReg_mode (h : Hw) (a : Nat) (v : BitVec 64) : (setReg h a v).mode = h.mode := rfl
@[simp] theorem setReg_before (h : Hw) (a : Nat) (v : BitVec 64) : (setReg h a v).before = h.before := rfl
@[simp] theorem setReg_recovering (h : Hw) (a : Nat) (v : BitVec 64) : (setReg h a v).recovering = h.recovering := rfl
@[simp] theorem setReg_fns (h : Hw) (a : Nat) (v : BitVec 64) : (setReg h a v).fns = h.fns := rfl
@[simp] theorem setReg_loftDma (h : Hw) (a : Nat) (v : BitVec 64) : (setReg h a v).loftDma = h.loftDma := rfl
@[simp] theorem setReg_dramGib (h : Hw) (a : Nat) (v : BitVec 64) : (setReg h a v).dramGib = h.dramGib := rfl
@[simp] theorem setReg_dram (h : Hw) (a : Nat) (v : BitVec 64) : (setReg h a v).dram = h.dram := rfl
@[simp] theorem setReg_noc (h : Hw) (a : Nat) (v : BitVec 64) : (setReg h a v).noc = h.noc := rfl
@[simp] theorem setReg_clocked (h : Hw) (a : Nat) (v : BitVec 64) : (setReg h a v).clocked = h.clocked := rfl
@[simp] theorem setReg_chain (h : Hw) (a : Nat) (v : BitVec 64) : (setReg h a v).chain = h.chain := rfl
@[simp] theorem setReg_mbox (h : Hw) (a : Nat) (v : BitVec 64) : (setReg h a v).mbox = h.mbox := rfl
@[simp] theorem setReg_slots (h : Hw) (a : Nat) (v : BitVec 64) : (setReg h a v).slots = h.slots := rfl
@[simp] theorem setReg_posted (h : Hw) (a : Nat) (v : BitVec 64) : (setReg h a v).posted = h.posted := rfl
@[simp] theorem setReg_pw (h : Hw) (a : Nat) (v : BitVec 64) : (setReg h a v).pw = h.pw := rfl
@[simp] theorem setReg_age (h : Hw) (a : Nat) (v : BitVec 64) : (setReg h a v).age = h.age := rfl
@[simp] theorem setReg_tb (h : Hw) (a : Nat) (v : BitVec 64) : (setReg h a v).tb = h.tb := rfl
@[simp] theorem setReg_gates (h : Hw) (a : Nat) (v : BitVec 64) : (setReg h a v).gates = h.gates := rfl
@[simp] theorem setReg_jesd (h : Hw) (a : Nat) (v : BitVec 64) : (setReg h a v).jesd = h.jesd := rfl
@[simp] theorem setReg_eth (h : Hw) (a : Nat) (v : BitVec 64) : (setReg h a v).eth = h.eth := rfl
@[simp] theorem setReg_fab (h : Hw) (a : Nat) (v : BitVec 64) : (setReg h a v).fab = h.fab := rfl
@[simp] theorem setReg_cap (h : Hw) (a : Nat) (v : BitVec 64) : (setReg h a v).cap = h.cap := rfl
@[simp] theorem setReg_shadow (h : Hw) (a : Nat) (v : BitVec 64) : (setReg h a v).shadow = h.shadow := rfl
@[simp] theorem setReg_phase (h : Hw) (a : Nat) (v : BitVec 64) : (setReg h a v).phase = h.phase := rfl
@[simp] theorem setReg_locked (h : Hw) (a : Nat) (v : BitVec 64) : (setReg h a v).locked = h.locked := rfl
@[simp] theorem setReg_frz (h : Hw) (a : Nat) (v : BitVec 64) : (setReg h a v).frz = h.frz := rfl
@[simp] theorem setReg_inDom (h : Hw) (a : Nat) (v : BitVec 64) : (setReg h a v).inDom = h.inDom := rfl
@[simp] theorem setReg_load (h : Hw) (a : Nat) (v : BitVec 64) : (setReg h a v).load = h.load := rfl
@[simp] theorem setReg_granted (h : Hw) (a : Nat) (v : BitVec 64) : (setReg h a v).granted = h.granted := rfl
@[simp] theorem setReg_justSet (h : Hw) (a : Nat) (v : BitVec 64) : (setReg h a v).justSet = h.justSet := rfl
@[simp] theorem setReg_recorded (h : Hw) (a : Nat) (v : BitVec 64) : (setReg h a v).recorded = h.recorded := rfl
@[simp] theorem setReg_badRows (h : Hw) (a : Nat) (v : BitVec 64) : (setReg h a v).badRows = h.badRows := rfl
@[simp] theorem setReg_hours (h : Hw) (a : Nat) (v : BitVec 64) : (setReg h a v).hours = h.hours := rfl
@[simp] theorem setReg_rateRef (h : Hw) (a : Nat) (v : BitVec 64) : (setReg h a v).rateRef = h.rateRef := rfl
@[simp] theorem setReg_ledger (h : Hw) (a : Nat) (v : BitVec 64) : (setReg h a v).ledger = h.ledger := rfl
@[simp] theorem setReg_staging (h : Hw) (a : Nat) (v : BitVec 64) : (setReg h a v).staging = h.staging := rfl
@[simp] theorem setReg_ppsHigh (h : Hw) (a : Nat) (v : BitVec 64) : (setReg h a v).ppsHigh = h.ppsHigh := rfl
@[simp] theorem setReg_ppsSlot (h : Hw) (a : Nat) (v : BitVec 64) : (setReg h a v).ppsSlot = h.ppsSlot := rfl
@[simp] theorem setReg_padSync (h : Hw) (a : Nat) (v : BitVec 64) : (setReg h a v).padSync = h.padSync := rfl
@[simp] theorem setReg_padDue (h : Hw) (a : Nat) (v : BitVec 64) : (setReg h a v).padDue = h.padDue := rfl
@[simp] theorem setReg_capEnd (h : Hw) (a : Nat) (v : BitVec 64) : (setReg h a v).capEnd = h.capEnd := rfl
@[simp] theorem setReg_rdata (h : Hw) (a : Nat) (v : BitVec 64) : (setReg h a v).rdata = h.rdata := rfl
@[simp] theorem setReg_rstatus (h : Hw) (a : Nat) (v : BitVec 64) : (setReg h a v).rstatus = h.rstatus := rfl
@[simp] theorem setReg_rstLow (h : Hw) (a : Nat) (v : BitVec 64) : (setReg h a v).rstLow = h.rstLow := rfl
@[simp] theorem setReg_mcReset (h : Hw) (a : Nat) (v : BitVec 64) : (setReg h a v).mcReset = h.mcReset := rfl
@[simp] theorem setReg_tripped (h : Hw) (a : Nat) (v : BitVec 64) : (setReg h a v).tripped = h.tripped := rfl
@[simp] theorem setReg_fwLoad (h : Hw) (a : Nat) (v : BitVec 64) : (setReg h a v).fwLoad = h.fwLoad := rfl
@[simp] theorem setReg_memTest (h : Hw) (a : Nat) (v : BitVec 64) : (setReg h a v).memTest = h.memTest := rfl
@[simp] theorem setReg_refs (h : Hw) (a : Nat) (v : BitVec 64) : (setReg h a v).refs = h.refs := rfl
@[simp] theorem setF_aclk (h : Hw) (a : Nat) (f : Fld) (x : Nat) : (setF h a f x).aclk = h.aclk := rfl
@[simp] theorem setF_free (h : Hw) (a : Nat) (f : Fld) (x : Nat) : (setF h a f x).free = h.free := rfl
@[simp] theorem setF_arr (h : Hw) (a : Nat) (f : Fld) (x : Nat) : (setF h a f x).arr = h.arr := rfl
@[simp] theorem setF_obs (h : Hw) (a : Nat) (f : Fld) (x : Nat) : (setF h a f x).obs = h.obs := rfl
@[simp] theorem setF_yardsUp (h : Hw) (a : Nat) (f : Fld) (x : Nat) : (setF h a f x).yardsUp = h.yardsUp := rfl
@[simp] theorem setF_quarantined (h : Hw) (a : Nat) (f : Fld) (x : Nat) : (setF h a f x).quarantined = h.quarantined := rfl
@[simp] theorem setF_mode (h : Hw) (a : Nat) (f : Fld) (x : Nat) : (setF h a f x).mode = h.mode := rfl
@[simp] theorem setF_before (h : Hw) (a : Nat) (f : Fld) (x : Nat) : (setF h a f x).before = h.before := rfl
@[simp] theorem setF_recovering (h : Hw) (a : Nat) (f : Fld) (x : Nat) : (setF h a f x).recovering = h.recovering := rfl
@[simp] theorem setF_fns (h : Hw) (a : Nat) (f : Fld) (x : Nat) : (setF h a f x).fns = h.fns := rfl
@[simp] theorem setF_loftDma (h : Hw) (a : Nat) (f : Fld) (x : Nat) : (setF h a f x).loftDma = h.loftDma := rfl
@[simp] theorem setF_dramGib (h : Hw) (a : Nat) (f : Fld) (x : Nat) : (setF h a f x).dramGib = h.dramGib := rfl
@[simp] theorem setF_dram (h : Hw) (a : Nat) (f : Fld) (x : Nat) : (setF h a f x).dram = h.dram := rfl
@[simp] theorem setF_noc (h : Hw) (a : Nat) (f : Fld) (x : Nat) : (setF h a f x).noc = h.noc := rfl
@[simp] theorem setF_clocked (h : Hw) (a : Nat) (f : Fld) (x : Nat) : (setF h a f x).clocked = h.clocked := rfl
@[simp] theorem setF_chain (h : Hw) (a : Nat) (f : Fld) (x : Nat) : (setF h a f x).chain = h.chain := rfl
@[simp] theorem setF_mbox (h : Hw) (a : Nat) (f : Fld) (x : Nat) : (setF h a f x).mbox = h.mbox := rfl
@[simp] theorem setF_slots (h : Hw) (a : Nat) (f : Fld) (x : Nat) : (setF h a f x).slots = h.slots := rfl
@[simp] theorem setF_posted (h : Hw) (a : Nat) (f : Fld) (x : Nat) : (setF h a f x).posted = h.posted := rfl
@[simp] theorem setF_pw (h : Hw) (a : Nat) (f : Fld) (x : Nat) : (setF h a f x).pw = h.pw := rfl
@[simp] theorem setF_age (h : Hw) (a : Nat) (f : Fld) (x : Nat) : (setF h a f x).age = h.age := rfl
@[simp] theorem setF_tb (h : Hw) (a : Nat) (f : Fld) (x : Nat) : (setF h a f x).tb = h.tb := rfl
@[simp] theorem setF_gates (h : Hw) (a : Nat) (f : Fld) (x : Nat) : (setF h a f x).gates = h.gates := rfl
@[simp] theorem setF_jesd (h : Hw) (a : Nat) (f : Fld) (x : Nat) : (setF h a f x).jesd = h.jesd := rfl
@[simp] theorem setF_eth (h : Hw) (a : Nat) (f : Fld) (x : Nat) : (setF h a f x).eth = h.eth := rfl
@[simp] theorem setF_fab (h : Hw) (a : Nat) (f : Fld) (x : Nat) : (setF h a f x).fab = h.fab := rfl
@[simp] theorem setF_cap (h : Hw) (a : Nat) (f : Fld) (x : Nat) : (setF h a f x).cap = h.cap := rfl
@[simp] theorem setF_shadow (h : Hw) (a : Nat) (f : Fld) (x : Nat) : (setF h a f x).shadow = h.shadow := rfl
@[simp] theorem setF_phase (h : Hw) (a : Nat) (f : Fld) (x : Nat) : (setF h a f x).phase = h.phase := rfl
@[simp] theorem setF_locked (h : Hw) (a : Nat) (f : Fld) (x : Nat) : (setF h a f x).locked = h.locked := rfl
@[simp] theorem setF_frz (h : Hw) (a : Nat) (f : Fld) (x : Nat) : (setF h a f x).frz = h.frz := rfl
@[simp] theorem setF_inDom (h : Hw) (a : Nat) (f : Fld) (x : Nat) : (setF h a f x).inDom = h.inDom := rfl
@[simp] theorem setF_load (h : Hw) (a : Nat) (f : Fld) (x : Nat) : (setF h a f x).load = h.load := rfl
@[simp] theorem setF_granted (h : Hw) (a : Nat) (f : Fld) (x : Nat) : (setF h a f x).granted = h.granted := rfl
@[simp] theorem setF_justSet (h : Hw) (a : Nat) (f : Fld) (x : Nat) : (setF h a f x).justSet = h.justSet := rfl
@[simp] theorem setF_recorded (h : Hw) (a : Nat) (f : Fld) (x : Nat) : (setF h a f x).recorded = h.recorded := rfl
@[simp] theorem setF_badRows (h : Hw) (a : Nat) (f : Fld) (x : Nat) : (setF h a f x).badRows = h.badRows := rfl
@[simp] theorem setF_hours (h : Hw) (a : Nat) (f : Fld) (x : Nat) : (setF h a f x).hours = h.hours := rfl
@[simp] theorem setF_rateRef (h : Hw) (a : Nat) (f : Fld) (x : Nat) : (setF h a f x).rateRef = h.rateRef := rfl
@[simp] theorem setF_ledger (h : Hw) (a : Nat) (f : Fld) (x : Nat) : (setF h a f x).ledger = h.ledger := rfl
@[simp] theorem setF_staging (h : Hw) (a : Nat) (f : Fld) (x : Nat) : (setF h a f x).staging = h.staging := rfl
@[simp] theorem setF_ppsHigh (h : Hw) (a : Nat) (f : Fld) (x : Nat) : (setF h a f x).ppsHigh = h.ppsHigh := rfl
@[simp] theorem setF_ppsSlot (h : Hw) (a : Nat) (f : Fld) (x : Nat) : (setF h a f x).ppsSlot = h.ppsSlot := rfl
@[simp] theorem setF_padSync (h : Hw) (a : Nat) (f : Fld) (x : Nat) : (setF h a f x).padSync = h.padSync := rfl
@[simp] theorem setF_padDue (h : Hw) (a : Nat) (f : Fld) (x : Nat) : (setF h a f x).padDue = h.padDue := rfl
@[simp] theorem setF_capEnd (h : Hw) (a : Nat) (f : Fld) (x : Nat) : (setF h a f x).capEnd = h.capEnd := rfl
@[simp] theorem setF_rdata (h : Hw) (a : Nat) (f : Fld) (x : Nat) : (setF h a f x).rdata = h.rdata := rfl
@[simp] theorem setF_rstatus (h : Hw) (a : Nat) (f : Fld) (x : Nat) : (setF h a f x).rstatus = h.rstatus := rfl
@[simp] theorem setF_rstLow (h : Hw) (a : Nat) (f : Fld) (x : Nat) : (setF h a f x).rstLow = h.rstLow := rfl
@[simp] theorem setF_mcReset (h : Hw) (a : Nat) (f : Fld) (x : Nat) : (setF h a f x).mcReset = h.mcReset := rfl
@[simp] theorem setF_tripped (h : Hw) (a : Nat) (f : Fld) (x : Nat) : (setF h a f x).tripped = h.tripped := rfl
@[simp] theorem setF_fwLoad (h : Hw) (a : Nat) (f : Fld) (x : Nat) : (setF h a f x).fwLoad = h.fwLoad := rfl
@[simp] theorem setF_memTest (h : Hw) (a : Nat) (f : Fld) (x : Nat) : (setF h a f x).memTest = h.memTest := rfl
@[simp] theorem setF_refs (h : Hw) (a : Nat) (f : Fld) (x : Nat) : (setF h a f x).refs = h.refs := rfl
@[simp] theorem raiseBit_aclk (h : Hw) (a : Nat) (f : Fld) : (raiseBit h a f).aclk = h.aclk := rfl
@[simp] theorem raiseBit_arr (h : Hw) (a : Nat) (f : Fld) : (raiseBit h a f).arr = h.arr := rfl
@[simp] theorem raiseBit_obs (h : Hw) (a : Nat) (f : Fld) : (raiseBit h a f).obs = h.obs := rfl
@[simp] theorem raiseBit_mode (h : Hw) (a : Nat) (f : Fld) : (raiseBit h a f).mode = h.mode := rfl
@[simp] theorem raiseBit_dram (h : Hw) (a : Nat) (f : Fld) : (raiseBit h a f).dram = h.dram := rfl
@[simp] theorem raiseBit_noc (h : Hw) (a : Nat) (f : Fld) : (raiseBit h a f).noc = h.noc := rfl
@[simp] theorem raiseBit_clocked (h : Hw) (a : Nat) (f : Fld) : (raiseBit h a f).clocked = h.clocked := rfl
@[simp] theorem raiseBit_chain (h : Hw) (a : Nat) (f : Fld) : (raiseBit h a f).chain = h.chain := rfl
@[simp] theorem raiseBit_slots (h : Hw) (a : Nat) (f : Fld) : (raiseBit h a f).slots = h.slots := rfl
@[simp] theorem raiseBit_phase (h : Hw) (a : Nat) (f : Fld) : (raiseBit h a f).phase = h.phase := rfl
@[simp] theorem raiseBit_frz (h : Hw) (a : Nat) (f : Fld) : (raiseBit h a f).frz = h.frz := rfl
@[simp] theorem raiseBit_tb (h : Hw) (a : Nat) (f : Fld) : (raiseBit h a f).tb = h.tb := rfl
@[simp] theorem raiseBit_gates (h : Hw) (a : Nat) (f : Fld) : (raiseBit h a f).gates = h.gates := rfl
@[simp] theorem raiseBit_eth (h : Hw) (a : Nat) (f : Fld) : (raiseBit h a f).eth = h.eth := rfl
@[simp] theorem raiseBit_fab (h : Hw) (a : Nat) (f : Fld) : (raiseBit h a f).fab = h.fab := rfl
@[simp] theorem bump_aclk (h : Hw) (a : Nat) (f : Fld) (n : Nat) : (bump h a f n).aclk = h.aclk := rfl
@[simp] theorem bump_arr (h : Hw) (a : Nat) (f : Fld) (n : Nat) : (bump h a f n).arr = h.arr := rfl
@[simp] theorem bump_obs (h : Hw) (a : Nat) (f : Fld) (n : Nat) : (bump h a f n).obs = h.obs := rfl
@[simp] theorem bump_mode (h : Hw) (a : Nat) (f : Fld) (n : Nat) : (bump h a f n).mode = h.mode := rfl
@[simp] theorem bump_dram (h : Hw) (a : Nat) (f : Fld) (n : Nat) : (bump h a f n).dram = h.dram := rfl
@[simp] theorem bump_noc (h : Hw) (a : Nat) (f : Fld) (n : Nat) : (bump h a f n).noc = h.noc := rfl
@[simp] theorem bump_clocked (h : Hw) (a : Nat) (f : Fld) (n : Nat) : (bump h a f n).clocked = h.clocked := rfl
@[simp] theorem bump_chain (h : Hw) (a : Nat) (f : Fld) (n : Nat) : (bump h a f n).chain = h.chain := rfl
@[simp] theorem bump_slots (h : Hw) (a : Nat) (f : Fld) (n : Nat) : (bump h a f n).slots = h.slots := rfl
@[simp] theorem bump_phase (h : Hw) (a : Nat) (f : Fld) (n : Nat) : (bump h a f n).phase = h.phase := rfl
@[simp] theorem bump_frz (h : Hw) (a : Nat) (f : Fld) (n : Nat) : (bump h a f n).frz = h.frz := rfl
@[simp] theorem bump_tb (h : Hw) (a : Nat) (f : Fld) (n : Nat) : (bump h a f n).tb = h.tb := rfl
@[simp] theorem bump_gates (h : Hw) (a : Nat) (f : Fld) (n : Nat) : (bump h a f n).gates = h.gates := rfl
@[simp] theorem bump_eth (h : Hw) (a : Nat) (f : Fld) (n : Nat) : (bump h a f n).eth = h.eth := rfl
@[simp] theorem bump_fab (h : Hw) (a : Nat) (f : Fld) (n : Nat) : (bump h a f n).fab = h.fab := rfl

/-! ## Parts of the array -/

@[simp] theorem setFu_flights (h : Hw) (g : Nat) (x : Fu) : (setFu h g x).arr.flights = h.arr.flights := rfl
@[simp] theorem setFu_pens (h : Hw) (g : Nat) (x : Fu) : (setFu h g x).arr.pens = h.arr.pens := rfl
@[simp] theorem setFu_troughs (h : Hw) (g : Nat) (x : Fu) : (setFu h g x).arr.troughs = h.arr.troughs := rfl
@[simp] theorem setFu_tracks (h : Hw) (g : Nat) (x : Fu) : (setFu h g x).arr.tracks = h.arr.tracks := rfl
@[simp] theorem setFu_xq (h : Hw) (g : Nat) (x : Fu) : (setFu h g x).arr.xq = h.arr.xq := rfl
@[simp] theorem setFu_xout (h : Hw) (g : Nat) (x : Fu) : (setFu h g x).arr.xout = h.arr.xout := rfl
@[simp] theorem setFu_twiddle (h : Hw) (g : Nat) (x : Fu) : (setFu h g x).arr.twiddle = h.arr.twiddle := rfl
@[simp] theorem setFu_scheds (h : Hw) (g : Nat) (x : Fu) : (setFu h g x).arr.scheds = h.arr.scheds := rfl
@[simp] theorem setFu_mucks (h : Hw) (g : Nat) (x : Fu) : (setFu h g x).arr.mucks = h.arr.mucks := rfl
@[simp] theorem setFu_ports (h : Hw) (g : Nat) (x : Fu) : (setFu h g x).arr.ports = h.arr.ports := rfl
@[simp] theorem setFu_loftLast (h : Hw) (g : Nat) (x : Fu) : (setFu h g x).arr.loftLast = h.arr.loftLast := rfl
@[simp] theorem setFu_signals (h : Hw) (g : Nat) (x : Fu) : (setFu h g x).arr.signals = h.arr.signals := rfl
@[simp] theorem setFu_regs (h : Hw) (g : Nat) (x : Fu) : (setFu h g x).regs = h.regs := rfl
@[simp] theorem setFu_obs (h : Hw) (g : Nat) (x : Fu) : (setFu h g x).obs = h.obs := rfl
@[simp] theorem setFu_mode (h : Hw) (g : Nat) (x : Fu) : (setFu h g x).mode = h.mode := rfl
@[simp] theorem setFu_clocked (h : Hw) (g : Nat) (x : Fu) : (setFu h g x).clocked = h.clocked := rfl
@[simp] theorem setFu_aclk (h : Hw) (g : Nat) (x : Fu) : (setFu h g x).aclk = h.aclk := rfl
@[simp] theorem setFu_free (h : Hw) (g : Nat) (x : Fu) : (setFu h g x).free = h.free := rfl
@[simp] theorem setFu_noc (h : Hw) (g : Nat) (x : Fu) : (setFu h g x).noc = h.noc := rfl
@[simp] theorem setPen_fus (h : Hw) (n : Nat) (x : Pen) : (setPen h n x).arr.fus = h.arr.fus := rfl
@[simp] theorem setPen_flights (h : Hw) (n : Nat) (x : Pen) : (setPen h n x).arr.flights = h.arr.flights := rfl
@[simp] theorem setPen_troughs (h : Hw) (n : Nat) (x : Pen) : (setPen h n x).arr.troughs = h.arr.troughs := rfl
@[simp] theorem setPen_tracks (h : Hw) (n : Nat) (x : Pen) : (setPen h n x).arr.tracks = h.arr.tracks := rfl
@[simp] theorem setPen_xq (h : Hw) (n : Nat) (x : Pen) : (setPen h n x).arr.xq = h.arr.xq := rfl
@[simp] theorem setPen_xout (h : Hw) (n : Nat) (x : Pen) : (setPen h n x).arr.xout = h.arr.xout := rfl
@[simp] theorem setPen_twiddle (h : Hw) (n : Nat) (x : Pen) : (setPen h n x).arr.twiddle = h.arr.twiddle := rfl
@[simp] theorem setPen_scheds (h : Hw) (n : Nat) (x : Pen) : (setPen h n x).arr.scheds = h.arr.scheds := rfl
@[simp] theorem setPen_mucks (h : Hw) (n : Nat) (x : Pen) : (setPen h n x).arr.mucks = h.arr.mucks := rfl
@[simp] theorem setPen_ports (h : Hw) (n : Nat) (x : Pen) : (setPen h n x).arr.ports = h.arr.ports := rfl
@[simp] theorem setPen_loftLast (h : Hw) (n : Nat) (x : Pen) : (setPen h n x).arr.loftLast = h.arr.loftLast := rfl
@[simp] theorem setPen_signals (h : Hw) (n : Nat) (x : Pen) : (setPen h n x).arr.signals = h.arr.signals := rfl
@[simp] theorem setPen_regs (h : Hw) (n : Nat) (x : Pen) : (setPen h n x).regs = h.regs := rfl
@[simp] theorem setPen_obs (h : Hw) (n : Nat) (x : Pen) : (setPen h n x).obs = h.obs := rfl
@[simp] theorem setPen_mode (h : Hw) (n : Nat) (x : Pen) : (setPen h n x).mode = h.mode := rfl
@[simp] theorem setPen_clocked (h : Hw) (n : Nat) (x : Pen) : (setPen h n x).clocked = h.clocked := rfl
@[simp] theorem setPen_aclk (h : Hw) (n : Nat) (x : Pen) : (setPen h n x).aclk = h.aclk := rfl
@[simp] theorem setPen_free (h : Hw) (n : Nat) (x : Pen) : (setPen h n x).free = h.free := rfl
@[simp] theorem setPen_noc (h : Hw) (n : Nat) (x : Pen) : (setPen h n x).noc = h.noc := rfl
@[simp] theorem setTrough_fus (h : Hw) (key : Nat) (x : Trough) : (setTrough h key x).arr.fus = h.arr.fus := rfl
@[simp] theorem setTrough_flights (h : Hw) (key : Nat) (x : Trough) : (setTrough h key x).arr.flights = h.arr.flights := rfl
@[simp] theorem setTrough_pens (h : Hw) (key : Nat) (x : Trough) : (setTrough h key x).arr.pens = h.arr.pens := rfl
@[simp] theorem setTrough_tracks (h : Hw) (key : Nat) (x : Trough) : (setTrough h key x).arr.tracks = h.arr.tracks := rfl
@[simp] theorem setTrough_xq (h : Hw) (key : Nat) (x : Trough) : (setTrough h key x).arr.xq = h.arr.xq := rfl
@[simp] theorem setTrough_xout (h : Hw) (key : Nat) (x : Trough) : (setTrough h key x).arr.xout = h.arr.xout := rfl
@[simp] theorem setTrough_twiddle (h : Hw) (key : Nat) (x : Trough) : (setTrough h key x).arr.twiddle = h.arr.twiddle := rfl
@[simp] theorem setTrough_scheds (h : Hw) (key : Nat) (x : Trough) : (setTrough h key x).arr.scheds = h.arr.scheds := rfl
@[simp] theorem setTrough_mucks (h : Hw) (key : Nat) (x : Trough) : (setTrough h key x).arr.mucks = h.arr.mucks := rfl
@[simp] theorem setTrough_ports (h : Hw) (key : Nat) (x : Trough) : (setTrough h key x).arr.ports = h.arr.ports := rfl
@[simp] theorem setTrough_loftLast (h : Hw) (key : Nat) (x : Trough) : (setTrough h key x).arr.loftLast = h.arr.loftLast := rfl
@[simp] theorem setTrough_signals (h : Hw) (key : Nat) (x : Trough) : (setTrough h key x).arr.signals = h.arr.signals := rfl
@[simp] theorem setTrough_regs (h : Hw) (key : Nat) (x : Trough) : (setTrough h key x).regs = h.regs := rfl
@[simp] theorem setTrough_obs (h : Hw) (key : Nat) (x : Trough) : (setTrough h key x).obs = h.obs := rfl
@[simp] theorem setTrough_mode (h : Hw) (key : Nat) (x : Trough) : (setTrough h key x).mode = h.mode := rfl
@[simp] theorem setTrough_clocked (h : Hw) (key : Nat) (x : Trough) : (setTrough h key x).clocked = h.clocked := rfl
@[simp] theorem setTrough_aclk (h : Hw) (key : Nat) (x : Trough) : (setTrough h key x).aclk = h.aclk := rfl
@[simp] theorem setTrough_free (h : Hw) (key : Nat) (x : Trough) : (setTrough h key x).free = h.free := rfl
@[simp] theorem setTrough_noc (h : Hw) (key : Nat) (x : Trough) : (setTrough h key x).noc = h.noc := rfl
@[simp] theorem setSched_fus (h : Hw) (y : Nat) (x : Sched) : (setSched h y x).arr.fus = h.arr.fus := rfl
@[simp] theorem setSched_flights (h : Hw) (y : Nat) (x : Sched) : (setSched h y x).arr.flights = h.arr.flights := rfl
@[simp] theorem setSched_pens (h : Hw) (y : Nat) (x : Sched) : (setSched h y x).arr.pens = h.arr.pens := rfl
@[simp] theorem setSched_troughs (h : Hw) (y : Nat) (x : Sched) : (setSched h y x).arr.troughs = h.arr.troughs := rfl
@[simp] theorem setSched_tracks (h : Hw) (y : Nat) (x : Sched) : (setSched h y x).arr.tracks = h.arr.tracks := rfl
@[simp] theorem setSched_xq (h : Hw) (y : Nat) (x : Sched) : (setSched h y x).arr.xq = h.arr.xq := rfl
@[simp] theorem setSched_xout (h : Hw) (y : Nat) (x : Sched) : (setSched h y x).arr.xout = h.arr.xout := rfl
@[simp] theorem setSched_twiddle (h : Hw) (y : Nat) (x : Sched) : (setSched h y x).arr.twiddle = h.arr.twiddle := rfl
@[simp] theorem setSched_mucks (h : Hw) (y : Nat) (x : Sched) : (setSched h y x).arr.mucks = h.arr.mucks := rfl
@[simp] theorem setSched_ports (h : Hw) (y : Nat) (x : Sched) : (setSched h y x).arr.ports = h.arr.ports := rfl
@[simp] theorem setSched_loftLast (h : Hw) (y : Nat) (x : Sched) : (setSched h y x).arr.loftLast = h.arr.loftLast := rfl
@[simp] theorem setSched_signals (h : Hw) (y : Nat) (x : Sched) : (setSched h y x).arr.signals = h.arr.signals := rfl
@[simp] theorem setSched_regs (h : Hw) (y : Nat) (x : Sched) : (setSched h y x).regs = h.regs := rfl
@[simp] theorem setSched_obs (h : Hw) (y : Nat) (x : Sched) : (setSched h y x).obs = h.obs := rfl
@[simp] theorem setSched_mode (h : Hw) (y : Nat) (x : Sched) : (setSched h y x).mode = h.mode := rfl
@[simp] theorem setSched_clocked (h : Hw) (y : Nat) (x : Sched) : (setSched h y x).clocked = h.clocked := rfl
@[simp] theorem setSched_aclk (h : Hw) (y : Nat) (x : Sched) : (setSched h y x).aclk = h.aclk := rfl
@[simp] theorem setSched_free (h : Hw) (y : Nat) (x : Sched) : (setSched h y x).free = h.free := rfl
@[simp] theorem setSched_noc (h : Hw) (y : Nat) (x : Sched) : (setSched h y x).noc = h.noc := rfl

/-! ## Slots, channels, alarms and vectors -/

@[simp] theorem setSlot_regs (h : Hw) (sl : Nat) (x : Slot) : (setSlot h sl x).regs = h.regs := rfl
@[simp] theorem setSlot_arr (h : Hw) (sl : Nat) (x : Slot) : (setSlot h sl x).arr = h.arr := rfl
@[simp] theorem setSlot_obs (h : Hw) (sl : Nat) (x : Slot) : (setSlot h sl x).obs = h.obs := rfl
@[simp] theorem setSlot_mode (h : Hw) (sl : Nat) (x : Slot) : (setSlot h sl x).mode = h.mode := rfl
@[simp] theorem setSlot_clocked (h : Hw) (sl : Nat) (x : Slot) : (setSlot h sl x).clocked = h.clocked := rfl
@[simp] theorem setSlot_chain (h : Hw) (sl : Nat) (x : Slot) : (setSlot h sl x).chain = h.chain := rfl
@[simp] theorem setSlot_dram (h : Hw) (sl : Nat) (x : Slot) : (setSlot h sl x).dram = h.dram := rfl
@[simp] theorem setSlot_posted (h : Hw) (sl : Nat) (x : Slot) : (setSlot h sl x).posted = h.posted := rfl
@[simp] theorem setDramCh_regs (h : Hw) (c : Nat) (x : DramCh) : (setDramCh h c x).regs = h.regs := rfl
@[simp] theorem setDramCh_arr (h : Hw) (c : Nat) (x : DramCh) : (setDramCh h c x).arr = h.arr := rfl
@[simp] theorem setDramCh_obs (h : Hw) (c : Nat) (x : DramCh) : (setDramCh h c x).obs = h.obs := rfl
@[simp] theorem setDramCh_mode (h : Hw) (c : Nat) (x : DramCh) : (setDramCh h c x).mode = h.mode := rfl
@[simp] theorem setDramCh_clocked (h : Hw) (c : Nat) (x : DramCh) : (setDramCh h c x).clocked = h.clocked := rfl
@[simp] theorem setDramCh_chain (h : Hw) (c : Nat) (x : DramCh) : (setDramCh h c x).chain = h.chain := rfl
@[simp] theorem setDramCh_slots (h : Hw) (c : Nat) (x : DramCh) : (setDramCh h c x).slots = h.slots := rfl
@[simp] theorem setDramCh_posted (h : Hw) (c : Nat) (x : DramCh) : (setDramCh h c x).posted = h.posted := rfl
@[simp] theorem setAlarm_regs (h : Hw) (code : Nat) (x : AlarmEntry) : (setAlarm h code x).regs = h.regs := rfl
@[simp] theorem setAlarm_arr (h : Hw) (code : Nat) (x : AlarmEntry) : (setAlarm h code x).arr = h.arr := rfl
@[simp] theorem setAlarm_mode (h : Hw) (code : Nat) (x : AlarmEntry) : (setAlarm h code x).mode = h.mode := rfl
@[simp] theorem setAlarm_clocked (h : Hw) (code : Nat) (x : AlarmEntry) : (setAlarm h code x).clocked = h.clocked := rfl
@[simp] theorem setAlarm_chain (h : Hw) (code : Nat) (x : AlarmEntry) : (setAlarm h code x).chain = h.chain := rfl
@[simp] theorem setAlarm_slots (h : Hw) (code : Nat) (x : AlarmEntry) : (setAlarm h code x).slots = h.slots := rfl
@[simp] theorem setAlarm_frz (h : Hw) (code : Nat) (x : AlarmEntry) : (setAlarm h code x).frz = h.frz := rfl
@[simp] theorem setMsix_regs (h : Hw) (v : Nat) (x : Msix) : (setMsix h v x).regs = h.regs := rfl
@[simp] theorem setMsix_arr (h : Hw) (v : Nat) (x : Msix) : (setMsix h v x).arr = h.arr := rfl
@[simp] theorem setMsix_mode (h : Hw) (v : Nat) (x : Msix) : (setMsix h v x).mode = h.mode := rfl
@[simp] theorem setMsix_clocked (h : Hw) (v : Nat) (x : Msix) : (setMsix h v x).clocked = h.clocked := rfl
@[simp] theorem setMsix_chain (h : Hw) (v : Nat) (x : Msix) : (setMsix h v x).chain = h.chain := rfl
@[simp] theorem setMsix_slots (h : Hw) (v : Nat) (x : Msix) : (setMsix h v x).slots = h.slots := rfl
@[simp] theorem setMsix_frz (h : Hw) (v : Nat) (x : Msix) : (setMsix h v x).frz = h.frz := rfl
@[simp] theorem setMsix_queue (h : Hw) (v : Nat) (x : Msix) : (setMsix h v x).obs.queue = h.obs.queue := rfl
@[simp] theorem setMsix_finds (h : Hw) (v : Nat) (x : Msix) : (setMsix h v x).obs.finds = h.obs.finds := rfl
@[simp] theorem setMsix_log (h : Hw) (v : Nat) (x : Msix) : (setMsix h v x).obs.log = h.obs.log := rfl

end Sys2Proof.Machine
end

