-- ==== Sys2Proof/Laws/Ops.lean ====
section
/-!
SUPPORT. What the shared operations read back and all that they change: registers, parts of the array, events, context
status, vectors, the log and the record path.
-/

namespace Sys2Proof.Machine

/-! ## Registers -/

theorem reg_setReg_ne (h : Hw) {a b : Nat} (v : BitVec 64) (hb : b ≠ a) : reg (setReg h a v) b = reg h b := by
  unfold reg setReg
  dsimp only
  split
  · rw [lookup_removeAt_ne _ hb]
  · rw [lookup_insertAt_ne _ v hb]

/-- A written value reads back. -/
@[simp] theorem reg_setReg_same (h : Hw) (a : Nat) (v : BitVec 64) : reg (setReg h a v) a = v := by
  by_cases hv : v = resetAt a <;> simp [reg, setReg, hv]

theorem reg_setF_ne (h : Hw) {a b : Nat} (f : Fld) (x : Nat) (hb : b ≠ a) : reg (setF h a f x) b = reg h b :=
  reg_setReg_ne h _ hb

theorem getF_setF_ne (h : Hw) {a b : Nat} (f g : Fld) (x : Nat) (hb : b ≠ a) : getF (setF h a f x) b g = getF h b g := by
  simp only [getF, reg_setF_ne h f x hb]

theorem isSet_setF_ne (h : Hw) {a b : Nat} (f g : Fld) (x : Nat) (hb : b ≠ a) :
    isSet (setF h a f x) b g = isSet h b g := by
  simp only [isSet, getF_setF_ne h f g x hb]

/-! ## Parts of the array -/

theorem fu_setFu_ne (h : Hw) {g g' : Nat} (x : Fu) (hg : g' ≠ g) : fu (setFu h g x) g' = fu h g' :=
  getD_setD_ne Fu.reset h.arr.fus x hg

theorem pen_setPen_ne (h : Hw) {n n' : Nat} (x : Pen) (hn : n' ≠ n) : pen (setPen h n x) n' = pen h n' :=
  getD_setD_ne Pen.reset h.arr.pens x hn

theorem trough_setTrough_ne (h : Hw) {k k' : Nat} (x : Trough) (hk : k' ≠ k) : trough (setTrough h k x) k' = trough h k' :=
  getD_setD_ne Trough.reset h.arr.troughs x hk

theorem sched_setSched_ne (h : Hw) {y y' : Nat} (x : Sched) (hy : y' ≠ y) : sched (setSched h y x) y' = sched h y' :=
  getD_setD_ne Sched.reset h.arr.scheds x hy

theorem slot_setSlot_ne (h : Hw) {k k' : Nat} (x : Slot) (hk : k' ≠ k) : slot (setSlot h k x) k' = slot h k' :=
  getD_setD_ne Slot.free h.slots x hk

@[simp] theorem fu_setFu_same (h : Hw) (g : Nat) (x : Fu) : fu (setFu h g x) g = x :=
  getD_setD_same Fu.reset h.arr.fus g x

@[simp] theorem pen_setPen_same (h : Hw) (n : Nat) (x : Pen) : pen (setPen h n x) n = x :=
  getD_setD_same Pen.reset h.arr.pens n x

@[simp] theorem trough_setTrough_same (h : Hw) (k : Nat) (x : Trough) : trough (setTrough h k x) k = x :=
  getD_setD_same Trough.reset h.arr.troughs k x

@[simp] theorem sched_setSched_same (h : Hw) (y : Nat) (x : Sched) : sched (setSched h y x) y = x :=
  getD_setD_same Sched.reset h.arr.scheds y x

@[simp] theorem task_setTask_same (h : Hw) (y t : Nat) (x : Task) : task (setTask h y t x) y t = x := by
  simp [task, setTask]

@[simp] theorem slot_setSlot_same (h : Hw) (k : Nat) (x : Slot) : slot (setSlot h k x) k = x :=
  getD_setD_same Slot.free h.slots k x

/-! ## Updates that reach registers, vectors and the record path only -/

/-- Nothing but registers, and which bits were set in this cycle, differs. -/
def OnlyRegs (h t : Hw) : Prop := ∃ r j, t = { h with regs := r, justSet := j }

/-- Nothing but registers, which bits were set in this cycle, and what alarms, log and vectors keep, differs. -/
def OnlyRegsObs (h t : Hw) : Prop := ∃ r j o, t = { h with regs := r, justSet := j, obs := o }

theorem OnlyRegs.same (h : Hw) : OnlyRegs h h := ⟨_, _, rfl⟩

theorem OnlyRegs.trans {a b c : Hw} (h1 : OnlyRegs a b) (h2 : OnlyRegs b c) : OnlyRegs a c := by
  obtain ⟨r, j, rfl⟩ := h1
  obtain ⟨r', j', rfl⟩ := h2
  exact ⟨r', j', rfl⟩

theorem OnlyRegsObs.same (h : Hw) : OnlyRegsObs h h := ⟨_, _, _, rfl⟩

theorem OnlyRegsObs.trans {a b c : Hw} (h1 : OnlyRegsObs a b) (h2 : OnlyRegsObs b c) : OnlyRegsObs a c := by
  obtain ⟨r, j, o, rfl⟩ := h1
  obtain ⟨r', j', o', rfl⟩ := h2
  exact ⟨r', j', o', rfl⟩

theorem OnlyRegs.obs {a b : Hw} (h : OnlyRegs a b) : OnlyRegsObs a b := by
  obtain ⟨r, j, rfl⟩ := h
  exact ⟨r, j, a.obs, rfl⟩

theorem setReg_only (h : Hw) (a : Nat) (v : BitVec 64) : OnlyRegs h (setReg h a v) := ⟨_, _, rfl⟩
theorem setF_only (h : Hw) (a : Nat) (f : Fld) (x : Nat) : OnlyRegs h (setF h a f x) := ⟨_, _, rfl⟩
theorem raiseBit_only (h : Hw) (a : Nat) (f : Fld) : OnlyRegs h (raiseBit h a f) := ⟨_, _, rfl⟩
theorem bump_only (h : Hw) (a : Nat) (f : Fld) (n : Nat) : OnlyRegs h (bump h a f n) := ⟨_, _, rfl⟩

theorem applyAll_only {α : Type} {f : Hw → α → Hw} (hf : ∀ h x, OnlyRegs h (f h x)) (xs : List α) (h : Hw) :
    OnlyRegs h (applyAll f h xs) := by
  induction xs generalizing h with
  | nil => exact OnlyRegs.same h
  | cons x xs ih => exact (hf h x).trans (ih (f h x))

theorem clearFields_only (h : Hw) (a : Nat) (fs : List Fld) : OnlyRegs h (clearFields h a fs) :=
  applyAll_only (fun h f => setF_only h a f 0) fs h

theorem clearPair_only (h : Hw) (e : Nat × List Fld) : OnlyRegs h (clearFields h e.1 e.2) := clearFields_only h e.1 e.2

/-- Cleared counts touch registers only (R113). -/
theorem clearCounts_only (h : Hw) (a : Nat) : OnlyRegs h (clearCounts h a) := by
  unfold clearCounts
  generalize locate a = l
  cases l with
  | none => exact OnlyRegs.same h
  | some x =>
    obtain ⟨b, i, o⟩ := x
    exact applyAll_only (f := fun h (e : Nat × List Fld) => clearFields h e.1 e.2) clearPair_only _ h

theorem setMsix_only (h : Hw) (v : Nat) (x : Msix) : OnlyRegsObs h (setMsix h v x) := ⟨_, _, _, rfl⟩
theorem setAlarm_only (h : Hw) (code : Nat) (x : AlarmEntry) : OnlyRegsObs h (setAlarm h code x) := ⟨_, _, _, rfl⟩

/-- A vector's cause changes what vectors keep, and no register (R349). -/
theorem sendVector_only (h : Hw) (v : Nat) : OnlyRegsObs h (sendVector h v) := by
  unfold sendVector
  dsimp only
  split <;> exact setMsix_only h v _

theorem appendLog_only (h : Hw) (r : LogRec) : OnlyRegsObs h (appendLog h r) := ⟨_, _, _, rfl⟩

/-- A record written to the log (R434, R436). -/
theorem writeLog_only (h : Hw) (r : LogRec) : OnlyRegsObs h (writeLog h r) := by
  unfold writeLog
  dsimp only
  split
  · exact appendLog_only h r
  · exact ⟨_, _, _, rfl⟩

/-- A finding posted (R434, R435). -/
theorem postFinding_only (h : Hw) (kind code router addr detail : Nat) :
    OnlyRegsObs h (postFinding h kind code router addr detail) := by
  unfold postFinding
  dsimp only
  split <;> exact ⟨_, _, _, rfl⟩

theorem uncorrectable_only (h : Hw) (addr : Nat) : OnlyRegsObs h (uncorrectable h addr) := postFinding_only h _ _ _ _ _

/-- The minimum interval of a vector has passed (R350). -/
theorem vectorInterval_only (h : Hw) (v : Nat) : OnlyRegsObs h (vectorInterval h v) := by
  unfold vectorInterval
  dsimp only
  split
  · exact OnlyRegsObs.same h
  · split
    · exact ((setMsix_only h v _).trans (setMsix_only _ v _)).trans (sendVector_only _ v)
    · exact setMsix_only h v _

/-! ## Events and context status -/

/-- Nothing but registers, which bits were set in this cycle, noted host events and schedulers differs. -/
def OnlyEvents (h t : Hw) : Prop :=
  ∃ r j o s, t = { h with regs := r, justSet := j, obs := o, arr := { h.arr with scheds := s } }

theorem OnlyEvents.same (h : Hw) : OnlyEvents h h := ⟨_, _, _, _, rfl⟩

theorem OnlyEvents.trans {a b c : Hw} (h1 : OnlyEvents a b) (h2 : OnlyEvents b c) : OnlyEvents a c := by
  obtain ⟨r, j, o, s, rfl⟩ := h1
  obtain ⟨r', j', o', s', rfl⟩ := h2
  exact ⟨r', j', o', s', rfl⟩

theorem OnlyRegs.events {a b : Hw} (h : OnlyRegs a b) : OnlyEvents a b := by
  obtain ⟨r, j, rfl⟩ := h
  exact ⟨r, j, a.obs, a.arr.scheds, rfl⟩

theorem evHit_only (h : Hw) (xs : List Nat) : OnlyEvents h { h with obs.evHit := xs } := ⟨_, _, _, _, rfl⟩
theorem setSched_only (h : Hw) (y : Nat) (x : Sched) : OnlyEvents h (setSched h y x) := ⟨_, _, _, _, rfl⟩

/-- An event raised (R147). -/
theorem raiseEventAt_only (h : Hw) (y e cyc : Nat) : OnlyEvents h (raiseEventAt h y e cyc) := by
  unfold raiseEventAt
  split
  · exact OnlyEvents.same h
  · extract_lets a hits src h1
    have hh : OnlyEvents h h1 := (evHit_only h _).trans (setReg_only _ _ _).events
    clear_value h1
    split
    · exact hh.trans (setSched_only h1 y _)
    · exact hh

theorem raiseEvent_only (h : Hw) (y e : Nat) : OnlyEvents h (raiseEvent h y e) := raiseEventAt_only h y e h.aclk

/-- A context-status flag set (R66, R67). -/
theorem setCst_only (h : Hw) (g c : Nat) (f : Fld) : OnlyEvents h (setCst h g c f) := by
  unfold setCst
  dsimp only
  split
  · exact (raiseBit_only h _ f).events
  · split
    · exact (raiseBit_only h _ f).events.trans (raiseEvent_only _ _ _)
    · exact (raiseBit_only h _ f).events

theorem setCstIf_only (h : Hw) (g c : Nat) (f : Fld) (b : Bool) : OnlyEvents h (setCstIf h g c f b) := by
  unfold setCstIf
  split
  · exact setCst_only h g c f
  · exact OnlyEvents.same h

/-- The arithmetic flags of a step recorded (R66). -/
theorem setFlags_only (h : Hw) (g c : Nat) (fl : Flags) : OnlyEvents h (setFlags h g c fl) := by
  unfold setFlags
  exact ((((setCstIf_only h g c _ _).trans (setCstIf_only _ g c _ _)).trans (setCstIf_only _ g c _ _)).trans
    (setCstIf_only _ g c _ _)).trans (setCstIf_only _ g c _ _)

/-- Poisoned results counted (R56). -/
theorem countPoison_only (h : Hw) (g c k : Nat) : OnlyEvents h (countPoison h g c k) :=
  (setCst_only h g c _).trans (bump_only _ _ _ k).events

end Sys2Proof.Machine
end

