-- ==== Sys2Proof/Laws/Registers.lean ====
section
/-!
SUPPORT. Writes of registers: a value with no 1 at a W1C field is written as it is, and a write of a register of BAR1
while the clocks run and the device is not FROZEN is `writeReg`.
-/

namespace Sys2Proof.Machine

/-- Only W1C fields that the value clears keep what hardware set in this cycle (R68). -/
theorem keepJustSet_of_clear (h : Hw) {a : Nat} {v : BitVec 64}
    (hv : ∀ f ∈ fieldsOf a, f.acc = .w1c → v &&& ~~~(BitVec.ofNat 64 (2 ^ f.lo)) = v) : keepJustSet h a v = v := by
  unfold keepJustSet
  generalize fieldsOf a = fs at hv
  induction fs with
  | nil => rfl
  | cons f fs ih =>
    rw [List.foldl_cons]
    split
    · rename_i hc
      rw [hv f (by simp) hc.1]
      exact ih fun g hg => hv g (by simp [hg])
    · exact ih fun g hg => hv g (by simp [hg])

/-- A write over the bus of an up device goes to its register. -/
theorem busWrite_up {m : Sparse Byte} {h : Hw} (hc : h.clocked = true) (hm : h.mode ≠ .frozen) (a : Nat) (v : BitVec 64) :
    busWrite m h a v = writeReg m h a v := by
  simp [busWrite, hc, hm]

end Sys2Proof.Machine
end

