-- ==== Sys2Proof/Machine/Wire.lean ====
section
/-!
DEFINITION. The bits that flits and chain packets are on their links (R228, R229, R247, R248, Tables 9.2 and 10.1). The
commands take a flit or packet by its fields and `crcOk`: whether the check that arrived with it equals the one here.
-/

namespace Sys2Proof.Machine

/-! ## Flits -/

/-- The 80-bit words of a list one after the other from bit 0. -/
def wordsBits : List TW → Nat
  | [] => 0
  | w :: ws => w.bits.toNat + 2 ^ 80 * wordsBits ws

/-- A flit of 704 bits: the header, then eight slots, the unused ones not-valid words (R228). -/
def flitBits (header : Nat) (ws : List TW) : Nat := header % 2 ^ 64 + 2 ^ 64 * wordsBits (ws.take 8)

/-- The flit of a request (Table 9.2). -/
def requestBits (op : Nat) (f : Flit) : Nat :=
  flitBits (flitHeader f.dst f.src op f.cnt.toNat f.rb.toNat f.addr.toNat) f.words

/-- The flit of a response: `RSTAT` in the low byte of `ADDR` (Table 9.2). -/
def responseBits (dst src op cnt rb rstat : Nat) (ws : List TW) : Nat :=
  flitBits (flitHeader dst src op cnt rb (rstat % 256)) ws

/-- Slot i of a flit (R228). -/
def flitSlot (b i : Nat) : TW := TW.ofBits (BitVec.ofNat 80 (b / 2 ^ (64 + 80 * i)))

/-- One bit through the CRC-16 register (R229). (DEDUCED, log 161) -/
def crc16Step (c : Nat) (b : Bool) : Nat :=
  let c2 := 2 * c % 2 ^ 16
  if c.testBit 15 != b then c2 ^^^ 0x1021 else c2

/-- The CRC-16 of a flit: polynomial x^16 + x^12 + x^5 + 1 from 0xFFFF, over bits 0 to 703 in ascending order. -/
def flitCrc (b : Nat) : Nat := (List.range 704).foldl (fun c i => crc16Step c (b.testBit i)) 0xFFFF

/-! ## Chain packets -/

/-- Data units of a packet: two words each (R247). -/
def unitsOf (p : Pkt) : Nat := (p.words.length + 1) / 2

/-- The 128-bit header of a chain packet (Table 10.1). -/
def chainHeader (kind : Nat) (p : Pkt) : Nat :=
  kind % 16 + p.tgt.toNat * 2 ^ 4 + p.sdev.toNat * 2 ^ 12 + p.seq.toNat * 2 ^ 18 + p.ackSeq.toNat * 2 ^ 26 +
    unitsOf p % 64 * 2 ^ 34 + p.hops.toNat * 2 ^ 40 + p.clsB.toNat * 2 ^ 46 + p.lccls.toNat * 2 ^ 47 +
    p.lccnt.toNat * 2 ^ 50 + p.op.toNat * 2 ^ 55 + p.cnt.toNat * 2 ^ 59 + p.src.val * 2 ^ 62 + p.rb.toNat * 2 ^ 68 +
    p.xl.toNat * 2 ^ 73 + p.arg.toNat * 2 ^ 74 + p.rstat.toNat * 2 ^ 114

/-- Header and data units, an odd number of words filled up with the not-valid word (R247). -/
def chainBody (kind : Nat) (p : Pkt) : Nat := chainHeader kind p + 2 ^ 128 * wordsBits p.words

/-- Bytes of header and data units. -/
def chainBytes (p : Pkt) : Nat := 16 + 20 * unitsOf p

/-- The CRC-32 trailer: the IEEE 802.3 CRC of header and data units in ascending order of bits (R247). -/
def chainCrc (kind : Nat) (p : Pkt) : Nat := crc32 (leBytes (chainBytes p) (chainBody kind p))

/-- A packet on the link: 160 bits for each data unit and 160 for header and trailer (R247). -/
def chainBits (kind : Nat) (p : Pkt) : Nat := chainBody kind p + 2 ^ (8 * chainBytes p) * chainCrc kind p

/-- A field of a header. -/
def headerField (b lo w : Nat) : Nat := b / 2 ^ lo % 2 ^ w

/-- The kind and fields that a received header gives; the reserved bits and values of a header make a packet that is
discarded (R248, Table 10.2). -/
def chainFields (b : Nat) (ws : List TW) : Nat × Pkt :=
  let g := headerField b
  (g 0 4,
   { tgt := BitVec.ofNat 8 (g 4 8), sdev := BitVec.ofNat 6 (g 12 6), seq := BitVec.ofNat 8 (g 18 8)
     ackSeq := BitVec.ofNat 8 (g 26 8), hops := BitVec.ofNat 6 (g 40 6), clsB := g 46 1 == 1, lccls := BitVec.ofNat 3 (g 47 3)
     lccnt := BitVec.ofNat 5 (g 50 5), op := BitVec.ofNat 4 (g 55 4), cnt := BitVec.ofNat 3 (g 59 3)
     src := Fin.ofNat 40 (g 62 6), rb := BitVec.ofNat 5 (g 68 5), xl := g 73 1 == 1, arg := BitVec.ofNat 40 (g 74 40)
     rstat := BitVec.ofNat 8 (g 114 8), words := ws
     rsv := g 122 6 != 0 || g 0 4 == 15 || 40 ≤ g 62 6 || 32 < g 34 6 || (0x40 ≤ g 4 8 && g 4 8 < 0xFD) })

end Sys2Proof.Machine
end

