-- ==== Sys2Proof/WellFormed.lean ====
section
/-!
DEFINITION. Which commands a sender that the spec describes can send: the limits on operands that their types do not
already give.
-/

namespace Sys2Proof

/-- A write brings as many bytes as its length says, a read brings none (R31). -/
def Bar2.wf (a : Bar2) : Bool := if a.wr then a.len == a.data.length else a.data.isEmpty

/-- A request brings at most the eight tagged words of a flit, a block write at most those of eight (R228, R229). -/
def Flit.wf (op : Nat) (f : Flit) : Bool := f.words.length ≤ (if op = 0xB then 64 else 8)

/-- A chain packet holds at most the tagged words of eight flits (R247). -/
def Pkt.wf (p : Pkt) : Bool := p.words.length ≤ 64

/-- A check fails at a step of Table 15.7, or at none (R455). -/
def FwCheck.wf (c : FwCheck) : Bool := c.step ≤ 7

/-- The operands lie within the limits that the spec gives them. (DESIGN CHOICE, log 6) -/
def wellFormed (i : Instr) : Bool :=
  match i with
  | .diagnosticRegisterWrite _ wide v => wide || v.toNat < 2 ^ 32
  | .countClear _ => true
  | .hostBar2Access a => a.wf
  | .nop _ _ => true
  | .mov _ _ => true
  | .selv _ _ => true
  | .selnz _ _ => true
  | .selneg _ _ => true
  | .lixset _ _ => true
  | .acclr _ _ => true
  | .add _ _ => true
  | .sub _ _ => true
  | .neg _ _ => true
  | .abs _ _ => true
  | .min _ _ => true
  | .max _ _ => true
  | .cmpeq _ _ => true
  | .cmpgt _ _ => true
  | .shla _ _ => true
  | .shra _ _ => true
  | .mul _ _ => true
  | .mac _ _ => true
  | .msu _ _ => true
  | .cmul _ _ => true
  | .cmac _ _ => true
  | .cmsu _ _ => true
  | .cjmac _ _ => true
  | .cmag2 _ _ => true
  | .cmagac _ _ => true
  | .cscl _ _ => true
  | .crot _ _ => true
  | .cconj _ _ => true
  | .bpack _ _ => true
  | .bexpd _ _ => true
  | .balign _ _ => true
  | .brenorm _ _ => true
  | .badd _ _ => true
  | .bsub _ _ => true
  | .bmul _ _ => true
  | .bmac _ _ => true
  | .bexpr _ _ => true
  | .beset _ _ => true
  | .and _ _ => true
  | .or _ _ => true
  | .xor _ _ => true
  | .andn _ _ => true
  | .not _ _ => true
  | .bitsel _ _ => true
  | .lsl _ _ => true
  | .lsr _ _ => true
  | .rol _ _ => true
  | .popc _ _ => true
  | .clz _ _ => true
  | .erev _ _ => true
  | .ebcst _ _ => true
  | .eins _ _ => true
  | .epick _ _ => true
  | .iqswap _ _ => true
  | .ziplo _ _ => true
  | .ziphi _ _ => true
  | .perm _ _ => true
  | .load _ _ _ => true
  | .store _ _ => true
  | .push _ _ => true
  | .pop _ _ _ => true
  | .mark _ _ => true
  | .rewind _ _ => true
  | .release _ _ => true
  | .pktOpen _ _ => true
  | .pktClose _ _ => true
  | .pktAbort _ _ => true
  | .setfl _ _ => true
  | .setep _ _ => true
  | .clrp _ _ => true
  | .tstv _ _ => true
  | .tstf _ _ => true
  | .tstl _ _ => true
  | .tstp _ _ => true
  | .signal _ _ => true
  | .bfly2 _ _ => true
  | .bfly4 _ _ => true
  | .twmul _ _ => true
  | .undefinedOpcode _ _ _ => true
  | .resultLand _ => true
  | .yardCrossingDelivery _ _ _ => true
  | .yardDivideWrite _ _ => true
  | .divideChange _ => true
  | .broadcastSwitch _ => true
  | .novictRetry _ => true
  | .contextRestoreComplete _ bad => bad.all fun i => i < 352
  | .epochSwitch _ => true
  | .penCtxload _ _ => true
  | .contextLoadDone _ bad => bad.all fun i => i < 352
  | .penCtxkindWrite _ _ => true
  | .schedulerEvaluation _ => true
  | .groupDispatch _ => true
  | .taskRetire _ _ => true
  | .taskEntryWrite _ _ _ _ => true
  | .preload _ => true
  | .sync => true
  | .schTrrdWrite _ _ => true
  | .schDbell _ _ => true
  | .crdLatch => true
  | .troughBufferTransfer _ _ _ => true
  | .dmaPortService _ _ => true
  | .starvation _ => true
  | .streamerTransfer _ _ _ => true
  | .streamerEnable _ _ => true
  | .forwarderSend _ _ _ => true
  | .forwarderRelease _ _ count => 1 ≤ count && count ≤ 8
  | .trgHwmRead _ _ => true
  | .trgCfgWrite _ _ _ => true
  | .flush _ _ => true
  | .muckOutSegmentStart _ _ => true
  | .muckOutSegmentComplete _ badRows => badRows.all fun r => r < 8
  | .ledgerWrite _ => true
  | .dramConfigCheck chans => chans.length == 4
  | .dramLineAccess _ wr _ => (match wr with | none => true | some w => w.first + w.bytes.length ≤ 60)
  | .dramRefresh _ => true
  | .mr4Read _ _ => true
  | .hotpolApply _ => true
  | .trainingPauseDue _ => true
  | .trainingPauseStart _ => true
  | .graceExpiry _ => true
  | .trainingPauseEnd _ _ => true
  | .translationWalk _ _ _ len _ => 1 ≤ len && len ≤ 80
  | .tuInv => true
  | .invalidationComplete => true
  | .nocRequestSend op f => f.wf op.toNat && op.toNat < 12
  | .read f _ _ => f.wf 0
  | .write f _ _ => f.wf 1
  | .wrmask f _ _ => f.wf 2
  | .nocPush f _ => f.wf 3
  | .pull f _ => f.wf 4
  | .nocPktOpen f _ => f.wf 5
  | .nocPktClose f _ => f.wf 6
  | .nocPktAbort f _ => f.wf 7
  | .regrd f _ => f.wf 8
  | .regwr f _ => f.wf 9
  | .rdblk f _ _ => f.wf 0xA
  | .wrblk f _ _ => f.wf 0xB
  | .rdata _ _ _ => true
  | .ack _ _ _ => true
  | .nack _ _ _ => true
  | .yardWakeComplete _ => true
  | .idle _ p _ => p.wf
  | .req _ p _ cmd => p.wf && cmd.all fun c => c.params.length ≤ 496
  | .rsp _ p _ ans => p.wf && ans.all fun f => f.data.length ≤ 496
  | .chainEvent _ p _ => p.wf
  | .chainFreeze _ p _ _ => p.wf
  | .roll _ p _ => p.wf
  | .rollEnd _ p _ => p.wf
  | .hb _ p _ => p.wf
  | .hbAck _ p _ => p.wf
  | .dm _ p _ _ _ _ _ => p.wf
  | .link _ p _ => p.wf
  | .credit _ p _ => p.wf
  | .nak _ p _ => p.wf
  | .chainAlarm _ p _ => p.wf
  | .fw _ p _ check => p.wf && check.all FwCheck.wf
  | .linkDown _ => true
  | .linkUp _ => true
  | .lkRetrain _ => true
  | .heartbeatSend => true
  | .heartbeatMiss => true
  | .dmExchange _ => true
  | .chainTimeout _ => true
  | .muteHold => true
  | .chEvsend _ => true
  | .chainReady => true
  | .chainDeviceLate => true
  | .sysrefEdge => true
  | .jlArm _ _ => true
  | .jesdDirectionReset _ _ => true
  | .jesdLinkEstablished _ _ _ => true
  | .jesdLaneLoss _ _ _ => true
  | .jesdBoundary _ _ => true
  | .jesdRxData _ samples _ => samples.length ≤ 8
  | .jesdTxPull _ => true
  | .jesdTxSample _ => true
  | .ethFrameReceive _ _ fr => fr.badParity.all fun i => i < fr.bytes.length
  | .ethFrameTransmit _ _ _ _ => true
  | .shaperRefillTick => true
  | .forgive _ _ _ => true
  | .ethTsloRead _ _ => true
  | .rclkSquelch => true
  | .rclkResume => true
  | .ecpriDelayResponse _ _ _ _ _ => true
  | .timingRingRecord _ _ _ => true
  | .tbIncWrite _ => true
  | .tbStep _ => true
  | .tbSet _ => true
  | .tbTime0Read => true
  | .holdoverUpdate _ => true
  | .timeCapture _ _ => true
  | .ppsRise => true
  | .ppsFall => true
  | .gsCtlCommit _ _ => true
  | .gateStart _ => true
  | .gateStop _ => true
  | .fabricEventWire _ _ => true
  | .fabricChainEventWire _ => true
  | .fioBankLevelChange _ _ _ => true
  | .fioBankLow _ => true
  | .fclaim _ _ => true
  | .resourceRelease _ => true
  | .capArm _ => true
  | .capCancel => true
  | .capture => true
  | .perstN _ => true
  | .functionLevelReset => true
  | .mailboxRequestWrite _ _ => true
  | .hiDbell _ => true
  | .slotTaken _ _ => true
  | .forwardTimeout _ => true
  | .longCommandComplete _ _ => true
  | .progressUpdate _ pos total => pos.toNat ≤ total.toNat
  | .hiDoneClear _ => true
  | .hiAbort _ => true
  | .msixHoldExpiry _ => true
  | .devInfo _ => true
  | .health _ => true
  | .domainReset _ => true
  | .domainResetEnd => true
  | .crossingReopen code _ => code.toNat ≤ 0x20
  | .stateSet _ => true
  | .chainInfo _ => true
  | .rollCall _ => true
  | .partPolicy _ => true
  | .resume _ => true
  | .chainPool _ => true
  | .linkRetrain _ => true
  | .chainHealth _ => true
  | .imageLoad _ _ _ => true
  | .imageCheck _ => true
  | .imageApplication _ _ => true
  | .imageVerify _ => true
  | .keyOwner _ _ => true
  | .keyRevoke _ _ => true
  | .keyAes _ _ => true
  | .keyStatus _ => true
  | .fwStore _ _ _ => true
  | .funcStop _ => true
  | .funcConfig _ => true
  | .funcStart _ => true
  | .funcStatus _ => true
  | .ctxLoad _ => true
  | .ctxStatus _ => true
  | .taskSet _ => true
  | .taskState _ => true
  | .schDoorbell _ => true
  | .evToHost _ => true
  | .evHostClr _ => true
  | .hostEventVector _ => true
  | .portStatus _ => true
  | .portCntclr _ => true
  | .shaperSet _ => true
  | .sysrefArm _ => true
  | .timeGet _ => true
  | .timeSteer _ => true
  | .holdoverSet _ => true
  | .gateSet _ => true
  | .gateGet _ => true
  | .ptpAssist _ => true
  | .muckSet _ => true
  | .memTest _ => true
  | .memStatus _ => true
  | .repairRead _ => true
  | .troughRead _ => true
  | .yardVolt _ => true
  | .yardMode _ => true
  | .dramPolicy _ => true
  | .ageReport _ => true
  | .replan _ => true
  | .clockStatus _ => true
  | .captureArm _ => true
  | .freeze _ => true
  | .probeSet _ => true
  | .traceSet _ => true
  | .alarmRead _ => true
  | .logRead _ => true
  | .alarmClear _ => true
  | .freezeReadout _ => true
  | .freezeResume _ _ => true
  | .regRead _ => true
  | .regWrite _ => true
  | .refclkLost => true
  | .deadSourceSwitch _ => true
  | .refclkPresent => true
  | .relock => true
  | .relockComplete => true
  | .pllUnlock _ => true
  | .railFault _ _ => true
  | .vinLow _ => true
  | .vinHigh _ => true
  | .ypVoltWrite _ _ => true
  | .railSlewComplete _ => true
  | .yardPowerDownRequest _ _ => true
  | .yardClockStop _ => true
  | .railRetention _ => true
  | .yardWakeRequest _ => true
  | .yardTempSpread _ _ _ _ => true
  | .wingo _ => true
  | .slackWindowEnd _ _ _ _ => true
  | .rogo _ => true
  | .roMeasurementEnd _ counts => counts.length == 4
  | .emUpdate _ _ => true
  | .yardReplan _ _ _ => true
  | .rateReference _ => true
  | .findingPost f => f.router.toNat < 40 || f.router == 0xFF
  | .recordDrain => true
  | .findingCounterTransfer _ => true
  | .alarmSummarySend _ => true
  | .freezeNFall => true
  | .hiFrzFreeze => true
  | .hiFrzResume _ => true
  | .freezeStop => true
  | .tarm => true
  | .tcancel => true
  | .timedFreezeStart => true
  | .selfRefreshReturn _ => true
  | .frzAddr _ => true
  | .frzData => true
  | .tapResume _ => true
  | .tapReadout => true
  | .resumeComplete _ drifts => drifts.length ≤ 4
  | .por => true
  | .thermalTrip => true
  | .vinGood _ _ _ => true
  | .pllLock => true
  | .firmwareBoot a b => a.all FwCheck.wf && b.all FwCheck.wf
  | .firmwareStart chans _ => chans.length == 4
  | .firmwareReady => true
  | .resetNAssert _ => true
  | .resetNRelease _ => true
  | .recoveryActionEnd _ _ => true
  | .fabricClockEdge _ pads => pads.all fun e => e.1 < 64
  | .ethLinkChange _ _ _ => true
  | .mpUce _ => true

end Sys2Proof
end

