-- ==== Sys2Proof/Tests/Slice0.lean ====
section
/-!
SUPPORT. The model's own tests: ill-formed commands that the check refuses, results worked out by hand from the spec, and
for each statement a state that meets its hypotheses.
-/

set_option Elab.async false

namespace Sys2Proof.Tests

open Sys2Proof Sys2Proof.Machine

/-! ## States -/

/-- The device in RUN: powered, locked, started. -/
abbrev upState : State :=
  { State.reset with hw := { State.reset.hw with clocked := true, locked := true, yardsUp := true, mode := .run, phase := .ready } }

/-- A valid word. -/
abbrev vw (d : Word) : TW := ⟨d, true, false, false, false, 0⟩

/-- Yard 0 with pen 0 running context 0: FU 0 holds W1 = 7, W2 = 3 and an invalid W3 and pushes to trough 0; FU 1 pops
trough 1, which holds one word; FU 2 pops trough 2, which is empty. -/
abbrev fuState : State :=
  { upState with hw := { upState.hw with
      regs := [(aTRG_CFG 0 0, 0x401), (aTRG_CFG 0 1, 0x401), (aTRG_CFG 0 2, 0x401), (aFU_CTXCTL 0 0, 2), (aFU_CTXCTL 1 0, 6),
        (aFU_CTXCTL 2 0, 10)]
      arr := { upState.hw.arr with
        pens := [(0, { Pen.reset with halted := false })]
        fus := [(0, { Fu.reset with banks := [(0, { Bank.zero with w := [(1, vw 7), (2, vw 3)] })] })]
        troughs := [(1, { Trough.reset with wp := 1, lf0 := 1 })] } } }

/-- The same with a step stored as step 0 of context 0 of an FU. -/
abbrev stepState (g opc : Nat) (u : UStep) : State :=
  { fuState with mem := writeBytes [] (roundAddr g 0 0) (leBytes 8 (packStep opc u)) }
/-- FU 0 is due to push to trough 0, which is full. -/
abbrev refusedState : State :=
  { stepState 0 0x82 ⟨0, 23, 1, 0, 0, 0, 0, 0x80⟩ with hw := { fuState.hw with arr := { fuState.hw.arr with
      troughs := [(0, { Trough.reset with wp := depth fuState.hw 0 })] } } }
/-- FU 0 holds the read port and the write port of bank 0 of pen 0. -/
abbrev portHw : Hw := { upState.hw with arr := { upState.hw.arr with ports := [(0, ⟨3, 0, false⟩), (1, ⟨3, 0, false⟩)] } }

/-- FU 0 has one result due. -/
abbrev landState (f : Flight) : State :=
  { fuState with hw := { fuState.hw with arr := { fuState.hw.arr with flights := [f] } } }

/-- A word due on crossing 0 of FU 0. -/
abbrev crossState : State :=
  { fuState with hw := { fuState.hw with arr := { fuState.hw.arr with xq := [⟨0, TW.notValid, 0⟩] } } }
/-- Two words due on it at the same edge. -/
abbrev crossTwoState : State :=
  { fuState with hw := { fuState.hw with arr := { fuState.hw.arr with xq := [⟨0, TW.notValid, 0⟩, ⟨0, vw 9, 0⟩] } } }

/-- A step with every field 0. -/
abbrev zeroStep : UStep := ⟨0, 0, 0, 0, 0, 0, 0, 0⟩
/-- Reading not yet begun: nothing bound, nothing followed. -/
abbrev noReading : Reading := ⟨upState.hw, Flags.none, false, none, []⟩
/-- FU 0 bound to trough 0. -/
abbrev boundReading : Reading := ⟨fuState.hw, Flags.none, false, none, []⟩
/-- FU 0 follows epochs in context 1. -/
abbrev skewReading : Reading :=
  ⟨{ upState.hw with regs := [(aFU_CTXCTL 0 1, 1)], arr := { upState.hw.arr with fus := [(0, { Fu.reset with ctx := 1 })] } },
    Flags.none, false, none, []⟩

/-- A register with a value given. -/
abbrev withReg (s : State) (a : Nat) (v : BitVec 64) : State := { s with hw := { s.hw with regs := insertAt s.hw.regs a v } }
/-- Pen 0 replaced. -/
abbrev withPen0 (s : State) (p : Pen) : State := { s with hw := { s.hw with arr := { s.hw.arr with pens := [(0, p)] } } }
/-- Pen 0 holds context 1 in bank 2 and has an order to switch to it. -/
abbrev switchState : State := withPen0 upState { Pen.reset with held := [(2, 1)], orders := [⟨some 1, 0, none, 0⟩] }
/-- Pen 0 is in a non-resident switch to context 1. -/
abbrev nonresState (retry : Bool) : State := withPen0 upState { Pen.reset with nonres := some ⟨1, 0, 0, retry, none, 0, 0, [], []⟩ }
/-- The same with every bank pinned. -/
abbrev pinnedState : State :=
  withReg (withPen0 upState { Pen.reset with held := [(0, 2), (1, 3), (2, 4), (3, 5)], nonres := some ⟨1, 0, 0, true, none, 0, 0, [], []⟩ })
    (aPEN_CTXKIND 0) 0xAA0
/-- Context 1 of pen 0 is being loaded. -/
abbrev loadingState : State := withPen0 upState { Pen.reset with load := some ⟨1, 0, none, none, [], []⟩ }
/-- Context 1 of pen 0 is write-locked. -/
abbrev lockedState : State := withPen0 upState { Pen.reset with locks := 2 }
/-- Context 1 of pen 0 is to be preloaded for task 0. -/
abbrev preloadState : State :=
  withPen0 { upState with hw := { upState.hw with aclk := 8 } } { Pen.reset with preload := some ⟨1, 0, 0, 0⟩, issued := [(0, 5)] }
/-- The same, write-locked. -/
abbrev lockedPreload : State :=
  withPen0 { upState with hw := { upState.hw with aclk := 8 } }
    { Pen.reset with locks := 2, preload := some ⟨1, 0, 0, 0⟩, issued := [(0, 5)] }
/-- Every bank of pen 0 holds a pinned context. -/
abbrev fullPinned : State :=
  withReg (withPen0 upState { Pen.reset with held := [(0, 2), (1, 3), (2, 4), (3, 5)] }) (aPEN_CTXKIND 0) 0xAA0
/-- Every bank of pen 0 holds a context that may leave. -/
abbrev fullBanks : State := withPen0 upState { Pen.reset with held := [(0, 2), (1, 3), (2, 4), (3, 5)], lastUse := [(0, 9), (2, 7), (3, 8)] }
/-- Context 0 of FU 0: SRCA of step 0 is IN0, which takes OUT0 of its own tile. -/
abbrev epochMem : Sparse Byte := [(roundAddr 0 0 0 + 5, 0x40), (tileAddr 0 0 0, 0x0C)]
/-- FU 0 follows epochs in context 0; a word of context 1, resident in bank 2, stands on its lead port, which takes OUT0. -/
abbrev epochState : State :=
  { upState with
    mem := epochMem
    hw := { upState.hw with
      regs := [(aFU_CTXCTL 0 0, 0x201)]
      arr := { upState.hw.arr with
        pens := [(0, { Pen.reset with halted := false, held := [(0, 0), (2, 1)] })]
        fus := [(0, { Fu.reset with out0 := ⟨⟨5, true, false, false, false, 1⟩, 0⟩ })] } } }
/-- Yard 0 with EN = 1 and valid tasks 0 (IDLE), 1 (RUNNING) and 2 (READY), with one trigger each. -/
abbrev schedState : State :=
  { upState with hw := { upState.hw with
      regs := [(aSCH_CTL 0, 1), (aSCH_TASK0 0 0, 0x80001), (aSCH_TASK1 0 0, 0x0500), (aSCH_TASK0 0 1, 0x40041), (aSCH_TASK1 0 1, 6),
        (aSCH_TASK0 0 2, 0x200021), (aSCH_TASK1 0 2, 0x07000000)]
      arr := { upState.hw.arr with
        scheds := [(0, { Sched.reset with tasks := [(1, { Task.reset with st := .running }), (2, { Task.reset with st := .ready })] })] } } }
/-- Group 0 has one member, task 0 of yard 0, which could be dispatched. -/
abbrev groupState : State :=
  { upState with hw := { upState.hw with
      regs := [(aSCH_TASK0 0 0, 0x100000021), (aCRD_GRP 0, 0x10001)]
      arr := { upState.hw.arr with scheds := [(0, { Sched.reset with tasks := [(0, { Task.reset with st := .ready })], offers := [0] })] } } }

/-- The same, with its member not offered. -/
abbrev groupWaits : State :=
  { groupState with hw := { groupState.hw with arr := { groupState.hw.arr with scheds := [(0, { Sched.reset with tasks := [(0, { Task.reset with st := .ready })] })] } } }
/-- The context of task 2 is write-locked in pen 0. -/
abbrev lockedSched : State :=
  { schedState with hw := { schedState.hw with arr := { schedState.hw.arr with pens := [(0, { Pen.reset with locks := 1 })] } } }
/-- Task 1 runs on the pen that task 2 waits for. -/
abbrev heldSched : State := withReg schedState (aSCH_TASK0 0 2) 0x200041

/-- `CLK_STAT` with a value given. -/
abbrev clkState (v : BitVec 64) : State := withReg upState aCLK_STAT v
/-- The PLLs have not locked since POR. -/
abbrev unlocked (s : State) : State := { s with hw := { s.hw with locked := false } }
/-- Yard 0 in a power state given. -/
abbrev powerState (x : YardPw) : State := { upState with hw := { upState.hw with pw := [(0, x)] } }
abbrev divideState : State :=
  { upState with hw := { upState.hw with aclk := 8, pw := [(0, { YardPw.reset with divDue := some 3 })], regs := [(aYP_CTL 0, 4)] } }
abbrev slewState : State := powerState { YardPw.reset with slewing := true }
abbrev wantState (k : Nat) : State := powerState { YardPw.reset with want := some k }
abbrev settleState : State := powerState { YardPw.reset with stopped := true, settling := true }
/-- A slack window runs in yard 0, whose monitors are enabled. -/
abbrev agState : State := withReg (withReg upState (aAG_SLACKMAP 0) 0x100000000) (aYP_CLKEN 0) 0xFFFFFFFF
/-- The same with yard 0 in SLEEP. -/
abbrev agSleepState : State := withReg agState (aYP_STAT 0) 1

/-- Yard 0 in fall-back. -/
abbrev fallenState : State := { upState with hw := setYardAge upState.hw 0 { yardAge upState.hw 0 with fallback := true } }

/-- A flit from router 33 to router 8. -/
abbrev zeroFlit : Flit := ⟨8, 33, 0, 0, 0, [], none⟩
/-- Trough 0 of pen 0 holds a word in its tail buffer. -/
abbrev tailState : State :=
  { upState with hw := { upState.hw with arr := { upState.hw.arr with
      troughs := [(0, { Trough.reset with tail := [(3, vw 9)] })], ports := [(7, ⟨2, 0, false⟩)] } } }
/-- Trough 1 of pen 0 holds a word in its bank, and the read port of that bank for its head buffer. -/
abbrev refillState : State :=
  { fuState with hw := { fuState.hw with arr := { fuState.hw.arr with ports := [(0, ⟨2, 1, false⟩)] } } }
abbrev loftDmaState : State := { upState with hw := { upState.hw with loftDma := [(0, [DmaReq.of 0 zeroFlit])] } }
/-- A read of word 0 of loft 0, whose bank port another access holds. -/
abbrev loftHeldReq : DmaReq := DmaReq.of 0 { zeroFlit with addr := BitVec.ofNat 40 (loftWord 0 0) }
abbrev loftHeldState : State :=
  { upState with hw := { upState.hw with loftDma := [(0, [loftHeldReq])], arr := { upState.hw.arr with ports := [(2048, ⟨1, 0, false⟩)] } } }
abbrev penDmaState : State := withPen0 upState { Pen.reset with dmaOther := [DmaReq.of 1 zeroFlit] }
abbrev troughDmaState : State := withPen0 upState { Pen.reset with dmaTrough := [DmaReq.of 7 zeroFlit, DmaReq.of 7 zeroFlit] }
/-- A push of two words to trough 0 of pen 0. -/
abbrev pushFlit : Flit := { zeroFlit with cnt := 1, words := [vw 1, vw 2] }
abbrev pushReq : DmaReq := DmaReq.of 3 pushFlit
abbrev pushState : State := withPen0 (withReg upState (aTRG_CFG 0 0) (1 + 2 ^ fTRG_CFG_PSIDE.lo)) { Pen.reset with dmaTrough := [pushReq] }
/-- A read of words 0 and 1 of pen memory 0; another access holds the port of word 1. -/
abbrev twoReads : DmaReq := DmaReq.of 0 { zeroFlit with cnt := 1, addr := BitVec.ofNat 40 (penWord 0 0) }
abbrev twoReadsState : State :=
  withPen0 { upState with hw := { upState.hw with arr := { upState.hw.arr with ports := [(2, ⟨3, 0, false⟩)] } } }
    { Pen.reset with dmaOther := [twoReads] }
/-- DMA ports one cycle before starvation. -/
abbrev starvedPen : State := withReg penDmaState (aPM_STAT 0) (BitVec.ofNat 64 ((2 ^ 20 - 1) * 2 ^ fPM_STAT_RUN.lo))
abbrev starvedLoft : State := withReg loftDmaState (aLOFT_STAT 0) (BitVec.ofNat 64 ((2 ^ 20 - 1) * 2 ^ fLOFT_STAT_RUN.lo))
/-- A state with bank ports held and the troughs of pen 0. -/
abbrev withPorts (s : State) (ps : Sparse Claim) (ts : Sparse Trough) : State :=
  { s with hw := { s.hw with arr := { s.hw.arr with ports := ps, troughs := ts } } }
/-- A trough with one word, in its head buffer. -/
abbrev oneAtHand : Trough := { Trough.reset with wp := 1, lf0 := 1, head := [(0, vw 4)] }
/-- Streamer 0 of pen 0 takes words from trough 1, which names it and holds one; it holds its loft port. -/
abbrev streamOutState : State :=
  withPorts (withReg (withReg fuState (aPS_CTL 0 0) (1 + 2 ^ fPS_CTL_DIR.lo + 2 ^ fPS_CTL_TRG.lo)) (aTRG_CFG 0 1)
    (1 + 3 * 2 ^ fTRG_CFG_CSIDE.lo)) [(2049, ⟨1, 0, false⟩)] [(1, oneAtHand)]
/-- Streamer 0 of pen 0 moves loft words into trough 0, which names it; it has no port yet. -/
abbrev portlessState : State := withReg (withReg upState (aPS_CTL 0 0) 1) (aTRG_CFG 0 0) (1 + 2 * 2 ^ fTRG_CFG_PSIDE.lo)
/-- It holds its port; the word is not valid. -/
abbrev streamSkipState : State := withPorts portlessState [(2048, ⟨1, 0, false⟩)] []
/-- The word is valid. -/
abbrev streamInState : State := { streamSkipState with mem := [(loftWord 0 0, 5), (loftWord 0 0 + 9, 0x80)] }
/-- The forwarder of trough 1 of pen 0 with a word at hand, or none. -/
abbrev forwardState : State :=
  withPorts (withReg fuState (aTRG_CFG 0 1) (1 + 2 * 2 ^ fTRG_CFG_CSIDE.lo)) [] [(1, oneAtHand)]
abbrev forwardEmpty : State := withPorts forwardState [] []
/-- A forwarder that holds eight words, and one that has sent its packet. -/
abbrev eightHw : Hw := (withPorts upState [] [(0, { Trough.reset with fwdBuf := List.replicate 8 (vw 1) })]).hw
abbrev closeHw : Hw := (withPorts upState [] [(0, { Trough.reset with fwdPkt := some (0, vw 3) })]).hw
/-- The remote trough has accepted the word that it popped. -/
abbrev acceptedState : State :=
  { forwardState with hw := { forwardState.hw with arr := { forwardState.hw.arr with troughs := [(1, { Trough.reset with wp := 1, lf0 := 1, rp := 1, fwdAcc := 1 })] } } }
/-- The engine of yard 0 holds its first segment. -/
abbrev muckState : State := { upState with hw := { upState.hw with arr := { upState.hw.arr with mucks := [(0, ⟨0, true⟩)] } } }
/-- It holds the last segment of its pass. -/
abbrev lastSegment : State := { upState with hw := { upState.hw with arr := { upState.hw.arr with mucks := [(0, ⟨passSegs - 1, true⟩)] } } }
/-- Every spare of bank 0 is in use. -/
abbrev spentState : State :=
  withReg upState (aRPR_BANK 0) (2 ^ (fRPR_BANK_USED 0).lo + 2 ^ (fRPR_BANK_USED 1).lo + 2 ^ (fRPR_BANK_USED 2).lo + 2 ^ (fRPR_BANK_USED 3).lo)
abbrev fullRepairState : State := { spentState with hw := { spentState.hw with badRows := (List.range 64).map fun i => (1, i) } }
/-- Row 80 of bank 0 is bad. -/
abbrev badSpentState : State := { spentState with hw := { spentState.hw with badRows := [(0, 80)] } }
abbrev ledgerState : State := { upState with hw := { upState.hw with ledger := some (1, 7) } }
/-- START-UP with firmware running. -/
abbrev startingState : State := { upState with hw := { upState.hw with mode := .startUp, phase := .firmware } }
/-- 4 GiB on each channel, all enabled. -/
abbrev dramState : State :=
  { upState with hw := { upState.hw with dramGib := 4, regs := (List.range 4).map fun c => (aDC_CFG c, 1) } }
abbrev dramOffState : State := { upState with hw := { upState.hw with dramGib := 4 } }
abbrev hotState (cfg : BitVec 64) : State := withReg (withReg upState (aDC_CFG 1) cfg) (aDC_STAT 1) (2 ^ fDC_STAT_HOTLIM.lo)
/-- Two readings below the limit since it was met. -/
abbrev coolingState : State := { hotState 1 with hw := { (hotState 1).hw with dram := [(1, { DramCh.reset with inRangeRun := 2 })] } }
/-- Channel 2 refreshes at the rate of hot memory. -/
abbrev warmState : State := { dramState with hw := { dramState.hw with dram := [(2, { DramCh.reset with hotNext := true })] } }
abbrev pauseState (due paused : Bool) (align : BitVec 64) : State :=
  withReg { dramState with hw := { dramState.hw with dram := [(2, { DramCh.reset with due := due, paused := paused })] } } (aDC_TRALIGN 2) align
abbrev xlatState (base : BitVec 64) : State := withReg (withReg dramState aTU_CTL 1) aTU_ROOT base
/-- Its first entry maps 2 MiB at 0x200000, readable and writable. -/
abbrev leafState : State := { xlatState 0 with mem := [(0, 0x0F), (3, 0x20), (9, 0x80)] }
abbrev entryAt (m : Sparse Byte) (a e : Nat) : Sparse Byte := writeBytes m a (leBytes 6 e ++ [0, 0, 0, 0x80])
/-- It maps a page that is not aligned, or one past the end of memory. -/
abbrev oddLeaf : State := { xlatState 0 with mem := entryAt [] 0 0x10000F }
abbrev farLeaf : State := { xlatState 0 with mem := entryAt [] 0 0xFFFFE000000F }
/-- It points to a table, whose first entry is given. -/
abbrev tableTo (a : Nat) : State := { xlatState 0 with mem := entryAt [] 0 (256 * a + 1) }
abbrev twoLevels (e : Nat) : State := { xlatState 0 with mem := entryAt (entryAt [] 0 0x7801) 120 e }
abbrev walkState : State := { upState with hw := { upState.hw with noc := { upState.hw.noc with walks := [DmaReq.of 0 zeroFlit] } } }

/-- Trough 0 of pen 0 with the network on both sides. -/
abbrev netTroughState : State := withReg upState (aTRG_CFG 0 0) (1 + 2 ^ fTRG_CFG_PSIDE.lo + 2 ^ fTRG_CFG_CSIDE.lo)
/-- Router 33 has three credits at router 8. -/
abbrev poolState : State := withReg upState (aNC_POOL2 8) 0x30
/-- The answer to the one request of router 33. -/
abbrev answerState (op : Nat) : State :=
  { upState with hw := { upState.hw with noc := { upState.hw.noc with
      out := [(33, [sentOut op zeroFlit])], resp := [⟨33, 0, 8, if op = 0 then 0xC else 0xD, 0, 0, if op = 0 then [vw 5] else [], false⟩] } } }
abbrev nackState : State :=
  { upState with hw := { upState.hw with noc := { upState.hw.noc with out := [(33, [sentOut 1 zeroFlit])], resp := [⟨33, 0, 8, 0xE, 0, 0, [], false⟩] } } }
/-- A request of its requester's own is on its way. -/
abbrev sentState (op : Nat) (f : Flit) (s : State) : State :=
  { s with hw := { s.hw with noc := { s.hw.noc with
      out := [(f.src.val, [sentOut op f])], wire := [⟨⟨op, f, .own⟩, List.range (flitsOf op f), false⟩] } } }
abbrev upNoWire : State := { upState with hw := { upState.hw with noc := { upState.hw.noc with out := [(33, [sentOut 0 zeroFlit])] } } }
/-- Channel 0 pauses. -/
abbrev pausedState : State := { dramState with hw := { dramState.hw with dram := [(0, { DramCh.reset with paused := true })] } }
/-- The translation unit holds the first page. -/
abbrev cachedState : State := { dramState with hw := { dramState.hw with noc := { upState.hw.noc with cache := [⟨0, true, true, true, 0⟩] } } }
abbrev lastWord : TW := ⟨1, true, false, true, false, 0⟩
/-- Receive of link 0 is up; its router has three credits at router 10. -/
abbrev jesdPoolState : State := withReg (withReg upState (aNC_POOL0 10) 0x3) (aJL_STAT 0) (2 ^ fJL_STAT_RXUP.lo)
abbrev queuedState : State :=
  { poolState with hw := { poolState.hw with noc := { poolState.hw.noc with queued := [(33, [⟨0xA, { zeroFlit with cnt := 7 }, .own⟩])] } } }
/-- The hardware after the next answer flit for buffer 0 of router 33 has left the network. -/
abbrev gotResp (op : Nat) (s : State) (p : Passage) : Hw := ((takeResp s.hw 33 0 op p.hops).map (·.2.2)).getD s.hw
abbrev withOut (s : State) (o : NocOut) : State := { s with hw := { s.hw with noc := { s.hw.noc with out := [(33, [o])] } } }
/-- A flit of the answer has been asked for again, or delivered poisoned. -/
abbrev askedOut : NocOut := { sentOut 0 zeroFlit with asked := [0] }
abbrev badOut : NocOut := { sentOut 0 zeroFlit with bad := true }
abbrev againState : State := withOut (answerState 0) askedOut
abbrev badAnswerState : State := withOut (answerState 0) badOut
abbrev nackAskedState : State := withOut nackState askedOut
/-- The request is not outstanding. -/
abbrev noEntryState (k : Nat) : State :=
  { upState with hw := { upState.hw with noc := { upState.hw.noc with
      resp := [⟨33, 0, 8, if k = 0 then 0xC else if k = 1 then 0xD else 0xE, 0, 0, if k = 0 then [vw 5] else [], false⟩] } } }
/-- A block of two flits. -/
abbrev blockFlit : Flit := { zeroFlit with cnt := 1 }
abbrev blockAnswerState : State := withOut (answerState 0) (sentOut 0xA blockFlit)
/-- Yard 0 sleeps and is to wake. -/
abbrev wakeState : State := powerState { YardPw.reset with stopped := true, wake := true }

/-- A chain packet to a target with an argument. -/
abbrev pktOf (tgt : BitVec 8) (arg : BitVec 40) : Pkt := ⟨tgt, 5, 0, 0, 0, false, 0, 0, 0, 0, 0, 0, false, arg, 0, [], false⟩
abbrev withWords (p : Pkt) (ws : List TW) : Pkt := { p with words := ws }
abbrev withRsv (p : Pkt) : Pkt := { p with rsv := true }
abbrev withSeq (p : Pkt) (q : BitVec 8) : Pkt := { p with seq := q }
/-- Both lead links are up. -/
abbrev linkState : State := withReg (withReg upState (aLK_STAT 0) (2 ^ fLK_STAT_UP.lo)) (aLK_STAT 1) (2 ^ fLK_STAT_UP.lo)
/-- Device 0 with a roll call running. -/
abbrev rollingState : State :=
  withReg (withReg { linkState with hw := { linkState.hw with chain := { linkState.hw.chain with rolling := true } } }
    aDV_BOOT (2 ^ fDV_BOOT_HOSTPORT.lo)) aCH_ID (2 ^ fCH_ID_AVLD.lo)
/-- Device 0 by address, without its strap. -/
abbrev addressedState : State := withReg linkState aCH_ID (2 ^ fCH_ID_AVLD.lo)
/-- Device 0 of a chain of one. -/
abbrev countedState : State :=
  withReg (withReg linkState aDV_BOOT (2 ^ fDV_BOOT_HOSTPORT.lo)) aCH_ID (2 ^ fCH_ID_AVLD.lo + 2 ^ fCH_ID_COUNT.lo)
abbrev withSdev (p : Pkt) (d : BitVec 6) : Pkt := { p with sdev := d }
/-- A packet of port 1 has been sent again eight times. -/
abbrev eightHwLink : State :=
  { linkState with hw := { linkState.hw with chain := { linkState.hw.chain with
      links := [(1, { LinkSt.reset with replay := [(⟨3, pktOf 0xFD 0, none, none, true⟩, 8)] })] } } }
/-- The boot ROM listens for firmware. -/
abbrev listenLink : State :=
  withReg { linkState with hw := { linkState.hw with mode := .startUp, phase := .listen } } aDV_BOOT (4 * 2 ^ fDV_BOOT_STAGE.lo)
abbrev frozenState : State := { upState with hw := { upState.hw with mode := .frozen, before := .run } }
abbrev isolatedState : State := { upState with hw := { upState.hw with mode := .isolated } }
abbrev outstandingState : State :=
  { addressedState with hw := { addressedState.hw with chain := { addressedState.hw.chain with out := [(0, ⟨5, 0, some ⟨24, 0, 0, 0, 0, [], none⟩, none⟩)] } } }
abbrev watchState (k : Nat) : State :=
  { addressedState with hw := { addressedState.hw with chain := { addressedState.hw.chain with armed := true, misses := k } } }
abbrev summaryState : State :=
  { addressedState with hw := { addressedState.hw with obs := { addressedState.hw.obs with summaries := [(0x100, ⟨true⟩)] } } }

/-- Every receive direction waits for a SYSREF edge. -/
abbrev armedState : State :=
  { upState with hw := { upState.hw with jesd := (List.range 4).map fun j => (2 * j, { JDir.reset with armed := true }) } }
/-- Transmit of link 0 enabled: 204C, one lane, one converter pair, with words in its buffer and a boundary now. -/
abbrev jesdTxState (up : Bool) (buf : List TW) : State :=
  withReg (withReg (withReg { upState with hw := { upState.hw with jesd := [(1, { JDir.reset with buf := buf, bnd := some 0 })] } }
    (aJL_TXCFG 0) (1 + 2 ^ fJL_RXCFG_LOG2M.lo + 16 * 2 ^ fJL_RXCFG_N.lo + 0 * 2 ^ fJL_RXCFG_NP.lo)) (aJL_RATE 0) (16220160 * 2 ^ fJL_RATE_TXRATE.lo))
    (aJL_STAT 0) (if up then 2 ^ fJL_STAT_TXUP.lo else 0)
/-- Receive of link 0 enabled and up. -/
abbrev jesdRxState : State :=
  withReg (withReg (withReg { upState with hw := { upState.hw with jesd := [(0, { JDir.reset with bnd := some 0 })] } } (aJL_RXCFG 0) (1 + 2 ^ fJL_RXCFG_LOG2M.lo + 16 * 2 ^ fJL_RXCFG_N.lo)) (aJL_RATE 0)
    (16220160 * 2 ^ fJL_RATE_RXRATE.lo)) (aJL_STAT 0) (2 ^ fJL_STAT_RXUP.lo)
/-- Transmit of link 0 aligned to a boundary in continuous mode, with no tolerance. -/
abbrev missState : State :=
  { withReg (jesdTxState true []) (aJL_TXSR 0) (2 ^ fJL_RXSR_MODE.lo) with hw := { (withReg (jesdTxState true []) (aJL_TXSR 0) (2 ^ fJL_RXSR_MODE.lo)).hw with
      jesd := [(1, { JDir.reset with bnd := some 5 })] } }
abbrev jesdTxB : State := withReg (jesdTxState true []) (aJL_TXCFG 0) (1 + 2 ^ fJL_RXCFG_STD.lo)
/-- The receive buffer of link 0 is full. -/
abbrev jesdRxFull : State :=
  { jesdRxState with hw := { jesdRxState.hw with noc := { jesdRxState.hw.noc with
      queued := [(0, [⟨3, ⟨10, 0, 0, 0, 0, List.replicate 1024 TW.notValid, none⟩, .own⟩])] } } }
abbrev blankJesd : State := { jesdTxState true [] with hw := { (jesdTxState true []).hw with fab := { upState.hw.fab with blank := 1 } } }
/-- The next word starts a block that waits for its boundary. -/
abbrev alignJesd : State :=
  withReg (jesdTxState true [⟨3, true, true, false, false, 0⟩]) (aJL_TXCFG 0)
    (1 + 2 ^ fJL_RXCFG_LOG2M.lo + 16 * 2 ^ fJL_RXCFG_N.lo + 2 ^ fJL_RXCFG_ALIGN.lo)
/-- Sub-port 0 enabled and promiscuous with an MTU. -/
abbrev ethState (mtu : Nat) : State :=
  withReg upState (aETH_PCTL 0) (2 ^ fETH_PCTL_EN.lo + 2 ^ fETH_PCTL_PROMISC.lo + BitVec.ofNat 64 (mtu * 2 ^ fETH_PCTL_MTU.lo))
/-- Flow 0 takes messages of type 2 with identifier 5. -/
abbrev flowState : State :=
  withReg (ethState 1500) (aETH_RXFLOW0 0 0) (2 ^ fETH_RXFLOW0_VALID.lo + 2 ^ fETH_RXFLOW0_TYPE.lo + 5 * 2 ^ fETH_RXFLOW0_ID.lo)
/-- A message of type 2 with nine bytes. -/
abbrev flowFrame : RxFrame :=
  ⟨List.replicate 12 0 ++ [0xAE, 0xFE, 0x10, 2, 0, 13, 0, 5, 1, 0x80] ++ List.replicate 40 7, true, [], true⟩
/-- The same with a fault each: an address of another station, revision 2, a bad FCS, a size that its bytes do not fill. -/
abbrev strangeFrame : RxFrame := { flowFrame with bytes := [2] ++ flowFrame.bytes.drop 1 }
abbrev badHeadFrame : RxFrame := { flowFrame with bytes := flowFrame.bytes.take 14 ++ [0x20] ++ flowFrame.bytes.drop 15 }
abbrev badFcsFrame : RxFrame := { flowFrame with fcsOk := false }
abbrev longFrame : RxFrame := { flowFrame with bytes := flowFrame.bytes.take 16 ++ [1] ++ flowFrame.bytes.drop 17 }
/-- The sub-port takes its own address only. -/
abbrev strictFlow : State :=
  withReg flowState (aETH_PCTL 0) (2 ^ fETH_PCTL_EN.lo + BitVec.ofNat 64 (1500 * 2 ^ fETH_PCTL_MTU.lo))
/-- The message before had another number. -/
abbrev gapFlow : State := { flowState with hw := { flowState.hw with eth := { flowState.hw.eth with rxSeq := [(0, 7)] } } }
/-- Class 3 of sub-port 0 sends from trough 1 of pen 0, which holds a committed packet of two words. -/
abbrev sendState : State :=
  withReg (withReg { ethState 1500 with hw := { (ethState 1500).hw with arr := { (ethState 1500).hw.arr with
      troughs := [(1, { Trough.reset with wp := 3, lf0 := 3, lens := [0], tail := [(0, vw 2), (1, vw 0), (2, vw 9)] })] } } }
    (aETH_TC 0 3) (2 ^ fETH_TC_EN.lo + 2 ^ fETH_TC_TRG.lo)) (aTRG_CFG 0 1) (0x401 + 2 ^ fTRG_CFG_CSIDE.lo)
/-- The bucket of class 0 holds -1. -/
abbrev debtState : State :=
  withReg (withReg upState (aETH_TC 0 0) (2 ^ fETH_TC_SHEN.lo)) (aETH_TCBKT 0 0) 0xFFFFFFFFF
abbrev stampState : State := { upState with hw := { upState.hw with eth := { upState.hw.eth with fifo := [(0, [(7, 8, 9)])] } } }
/-- PTP assist of sub-port 0 with a ring of two records, or of none. -/
abbrev ringState (k : Nat) : State :=
  { ethState 1500 with hw := { (ethState 1500).hw with eth := { upState.hw.eth with ptp := [(0, if k = 0 then ⟨0, 544, 3⟩ else ⟨0, 32, 3⟩)] } } }

/-- The chain servo does not steer the timebase. -/
abbrev ownState : State := withReg upState aCH_TA 0
/-- PPS enabled on pad 0, which it has. -/
abbrev ppsState : State :=
  withReg (withReg upState aTB_PPS (2 ^ fTB_PPS_EN.lo)) (aFIO_PAD 0) (4 * 2 ^ fFIO_PAD_OWNER.lo)
abbrev withTbOps (ops : List TbOp) : State := { upState with hw := { upState.hw with tb := { upState.hw.tb with ops := ops } } }
abbrev steppedState : State := withTbOps [.step 5]
abbrev setState : State := withTbOps [.set 5 6]
/-- Gate entry 0 armed with start 0 and stop 1 ms, with the time at 2 ms. -/
abbrev gateState (ev : Nat) (wide : Bool) : State :=
  withReg { upState with hw := { upState.hw with tb := { upState.hw.tb with ns := 2000000 }, gates := [(0, { Gate.reset with stop := 256000000, isOpen := wide })] } }
    (aGS_CTL 0) (BitVec.ofNat 64 (1 + ev * 2 ^ fGS_CTL_EVMODE.lo))
/-- An occurrence of no length; a late one whose stop has passed. -/
abbrev emptyGate : State :=
  { gateState 2 false with hw := { (gateState 2 false).hw with gates := [(0, { Gate.reset with stop := 0 })] } }
abbrev lateGate : State :=
  { gateState 2 false with hw := { (gateState 2 false).hw with aclk := 1, gates := [(0, { Gate.reset with stop := 256000000, evLate := true })] } }
/-- An entry with a period and no count. -/
abbrev perGate : State :=
  { gateState 2 false with hw := { (gateState 2 false).hw with gates := [(0, { Gate.reset with stop := 1, per := 256000000 })] } }
/-- The fabric enabled at a falling edge, with wires raised. -/
abbrev fabState (a : Nat) : State :=
  withReg { upState with hw := { upState.hw with aclk := a, fab := { upState.hw.fab with evs := [3], chEvs := [2] } } } aTF_CTL 1
abbrev armedCapState : State := { upState with hw := { upState.hw with cap := some ⟨0, some 0, false⟩ } }

abbrev laterCapState : State := { upState with hw := { upState.hw with cap := some ⟨0, some 1, false⟩ } }
/-- Pin 8 of block 0x50 drives itself. -/
abbrev openCapState : State :=
  { withReg upState aTF_CTL 1 with
    mem := writeBytes (writeBytes [] (blockAddr 0x50) [1]) (blockAddr 0x50 + 0x480) [1]
    hw := { (withReg upState aTF_CTL 1).hw with cap := some ⟨3, none, false⟩ } }
abbrev endingCap : State := { upState with hw := { upState.hw with capEnd := some 0 } }
/-- Firmware is ready and slot 0 is TAKEN with a command. -/
abbrev cmdState (opc : Nat) (b : List Byte) : State :=
  withReg { upState with hw := { upState.hw with slots := [(0, { Slot.free with st := .taken, opc := opc, pay := b })] } } aHI_STAT
    (2 ^ fHI_STAT_FWRDY.lo)
/-- A `CTX_LOAD` of slot 0 waits for the load of context 15 of pen 127. -/
abbrev loadWaits : Hw :=
  setPen (asked (cmdState 0x500 [127, 15, 0, 0, 0, 0, 0, 0]) 0).hw 127 { Pen.reset with load := some ⟨15, 0, none, none, [], []⟩ }
/-- That load has ended. -/
abbrev loadDone : Hw := setPen loadWaits 127 { Pen.reset with loadRes := some true }
/-- Slot 0 is TAKEN with a `MUCK_SET` for every device but device 0, before any has an address. -/
abbrev emptyCast : State :=
  { cmdState 0x800 [] with hw := { (cmdState 0x800 []).hw with slots := [(0, { Slot.free with st := .taken, opc := 0x800, tgt := 0xFE })] } }
/-- Slot 0 is RUNNING with a command. -/
abbrev runState (opc : Nat) (b : List Byte) : State :=
  { cmdState opc b with hw := { (cmdState opc b).hw with slots := [(0, { Slot.free with st := .running, opc := opc, pay := b, total := 8 })] } }
abbrev inFrozen (s : State) : State := { s with hw := { s.hw with mode := .frozen, before := .run } }
/-- Half done. -/
abbrev progressState : State :=
  { runState 0x301 [] with hw := { (runState 0x301 []).hw with slots := [(0, { Slot.free with st := .running, opc := 0x301, pos := 4, total := 8 })] } }
abbrev abortedState : State :=
  { runState 0x301 [] with hw := { (runState 0x301 []).hw with slots := [(0, { Slot.free with st := .running, opc := 0x301, abort := true })] } }
abbrev doneState : State :=
  { upState with hw := { upState.hw with mbox := [(2, 7)], slots := [(0, { Slot.free with st := .done }), (5, { Slot.free with st := .running })] } }
/-- Slot 3 is POSTED with an opcode. -/
abbrev postedState (opc : List Byte) : State :=
  withReg { upState with hw := { upState.hw with
      mbox := writeBytes [] (512 * 3) opc, slots := [(3, { Slot.free with st := .posted })], posted := [3] } } aHI_STAT (2 ^ fHI_STAT_FWRDY.lo)
abbrev memTestState (left : Sparse Nat) : State :=
  { runState 0x801 [1, 0] with hw := { (runState 0x801 [1, 0]).hw with mode := .test, memTest := some ⟨left, 0, 0, 0, 0⟩ } }
/-- An image whose manifest replaces the fabric. -/
def touchesFabric : List Byte :=
  List.replicate 14 0 ++ [1] ++ List.replicate 161 0 ++ [2, 0, 0, 0, 0, 2, 0, 0] ++ List.replicate 584 0 ++ [1]
/-- An image of length 0 is staged. -/
abbrev stagedLoad : Load := ⟨0, 0, 2, .staged, [], some 0, []⟩
abbrev stagedState : State :=
  { runState 0x300 [] with hw := { (runState 0x300 []).hw with load := some stagedLoad, staging := true } }
abbrev checkedLoad : Load := ⟨0, 0, 0, .checked, [], some 0, []⟩
abbrev checkedState : State :=
  { runState 0x300 [] with hw := { (runState 0x300 []).hw with load := some checkedLoad, staging := true } }
/-- Slot 0 was forwarded to device 5. -/
abbrev forwardedState : State :=
  { cmdState 0x400 [] with hw := { (cmdState 0x400 []).hw with chain := { upState.hw.chain with out := [(4, ⟨5, 0, none, some 0⟩)] } } }

abbrev forwardedUp : State :=
  withReg { forwardedState with hw := { forwardedState.hw with regs := addressedState.hw.regs } } aHI_STAT (2 ^ fHI_STAT_FWRDY.lo)
/-- Slot 0 is TAKEN with a re-plan while another runs in slot 1. -/
abbrev busyState : State :=
  { cmdState 0x904 [1, 0, 0, 0, 0, 0, 0, 0] with hw := { (cmdState 0x904 []).hw with slots :=
      [(0, { Slot.free with st := .taken, opc := 0x904, pay := [1, 0, 0, 0, 0, 0, 0, 0] }), (1, { Slot.free with st := .running, opc := 0x904 })] } }
/-- Slot 0 is TAKEN with a command for device 5, to which no port leads. -/
abbrev targetState : State :=
  { cmdState 0x400 [] with hw := { (cmdState 0x400 []).hw with slots := [(0, { Slot.free with st := .taken, opc := 0x400, tgt := 5 })] } }

/-- 4 GiB on each channel, and aperture 0 of BAR2 with a value. -/
abbrev barState (v : BitVec 64) : State := withReg dramState (aAP 0) v
/-- Aperture 0 names device 5 of a chain of 6, reached through the port up. -/
abbrev farState : State :=
  withReg (withReg (withReg (barState (BitVec.ofNat 64 (1 + 5 * 2 ^ (fAP_DEV 0).lo))) aCH_ID (BitVec.ofNat 64 (2 ^ fCH_ID_AVLD.lo + 6 * 2 ^ fCH_ID_COUNT.lo)))
    aCH_REACH 32) aCH_DIR 32

/-- A record of an uncorrectable pen-memory read. -/
abbrev someRecord : LogRec := ⟨2, 0x40, 5, 1, 0xFF, 8, 0, 0⟩
/-- It waits in the queue, counted three times. -/
abbrev queueState : State :=
  { upState with hw := { upState.hw with obs := { upState.hw.obs with queue := [someRecord], finds := [(0x40, ⟨3, some someRecord, 5, 8⟩)] } } }
abbrev fullQueueState : State :=
  { upState with hw := { upState.hw with obs := { upState.hw.obs with queue := List.replicate 256 someRecord } } }
abbrev hitState : State := { upState with hw := { upState.hw with obs := { upState.hw.obs with evHit := [40, 41] } } }

/-- The table entry of vector 16 is unmasked. -/
abbrev openVec : State := withReg upState (aMSIX_CTL 16) 0

/-- A freeze is armed for a time of the first second. -/
abbrev timedState (ns : Nat) : State :=
  { upState with hw := { upState.hw with frz := { upState.hw.frz with timed := some (3, 0, ns) } } }
/-- Its self-refresh entry has begun. -/
abbrev enteringState (ns : Nat) : State :=
  { upState with hw := { upState.hw with frz := { upState.hw.frz with timed := some (3, 0, ns), entering := true } } }
/-- A freeze at once waits for its stop edge. -/
abbrev reqState : State := { upState with hw := { upState.hw with frz := { upState.hw.frz with req := some 1 } } }
/-- The TAP has selected an address. -/
abbrev tapState (a : BitVec 40) : State := { frozenState with hw := { frozenState.hw with frz := { frozenState.hw.frz with tapAddr := a } } }
/-- Controller 2 is out of self-refresh for readout. -/
abbrev outState : State := { frozenState with hw := { frozenState.hw with frz := { frozenState.hw.frz with out := 4 } } }

/-- A device in START-UP at a step of the power-on sequence, with `DV_BOOT` as given. -/
abbrev bootState (p : Phase) (boot : BitVec 64) : State :=
  withReg { State.reset with hw := { State.reset.hw with clocked := true, locked := true, phase := p } } aDV_BOOT boot
/-- A DRAM channel of 4 GiB as firmware finds it. -/
abbrev goodChan : DramChan := ⟨true, true, 16, 4, 32, 4, 1, 75000, true⟩
/-- A domain is in reset, in quarantine. -/
abbrev domState (code a : Nat) : State :=
  { upState with hw := { upState.hw with aclk := a, inDom := [code], quarantined := BitVec.ofNat 64 (2 ^ code) } }
/-- It has left reset. -/
abbrev outDomState (code a : Nat) : State := { domState code a with hw := { (domState code a).hw with inDom := [] } }
/-- Firmware restarts after MP_UCE. -/
abbrev recoveryState (autorun : BitVec 64) : State :=
  withReg { upState with hw := { upState.hw with mode := .recovery, recovering := some 0x018 } } aDV_CTL (autorun * 2 ^ fDV_CTL_AUTORUN.lo)

/-- The first two entries map 2 MiB each. -/
abbrev twoLeaves : State := { xlatState 0x10000000000 with mem := [(0, 0x0F), (3, 0x20), (9, 0x80), (10, 0x0F), (13, 0x40), (19, 0x80)] }

/-- The hypotheses of each clause of StepRunsTheFrontCommand are met. -/
theorem test_meets_StepRunsTheFrontCommand :
  (∃ c : Instr, ∃ rest : List Instr, ∃ s : State, (s.pending = c :: rest)) ∧
  (∃ s : State, (s.pending = [])) ∧
  (∃ s : State, (s.pending = []) ∧ (s.hw.mode = .frozen ∨ s.hw.locked = false)) :=
  ⟨⟨.nop 0 ⟨0, 0, 0, 0, 0, 0, 0, 0⟩, [], { upState with pending := [.nop 0 ⟨0, 0, 0, 0, 0, 0, 0, 0⟩] }, by decide +kernel⟩,
   ⟨upState, by decide +kernel⟩,
   ⟨frozenState, by decide +kernel⟩⟩

/-- The hypotheses of each clause of EveryStepKeepsTheInvariant are met. -/
theorem test_meets_EveryStepKeepsTheInvariant :
  ∃ t : State, ∃ s : State, (Inv s) ∧ (step s = .next t) :=
  ⟨tick upState, upState, ⟨by decide +kernel, rfl⟩⟩

/-- The hypotheses of each clause of FrozenDeviceDoesNothing are met. -/
theorem test_meets_FrozenDeviceDoesNothing :
  (∃ e : Ecc, ∃ _k : Fin (fuCommands e).length, ∃ _g : Fin 2048, ∃ _u : UStep, ∃ s : State, (frozen s.hw = true)) ∧
  (∃ _g : Fin 2048, ∃ _o : BitVec 8, ∃ _u : UStep, ∃ s : State, (frozen s.hw = true)) ∧
  (∃ _g : Fin 2048, ∃ s : State, (frozen s.hw = true)) ∧
  (∃ s : State, (frozen s.hw = true)) ∧
  (∃ s : State, (frozen s.hw = true)) ∧
  (∃ s : State, (frozen s.hw = true)) ∧
  (∃ _y : Fin 16, ∃ _a : BitVec 32, ∃ _b : BitVec 32, ∃ _m : BitVec 32, ∃ s : State, (frozen s.hw = true)) ∧
  (∃ _y : Fin 16, ∃ _p : BitVec 32, ∃ s : State, (frozen s.hw = true)) ∧
  (∃ _y : Fin 16, ∃ _a : List Ecc, ∃ s : State, (frozen s.hw = true)) ∧
  (∃ _y : Fin 16, ∃ _b : List Nat, ∃ s : State, (frozen s.hw = true)) ∧
  (∃ _y : Fin 16, ∃ s : State, (frozen s.hw = true)) ∧
  (∃ s : State, (frozen s.hw = true)) ∧
  (∃ _j : Fin 4, ∃ _tx : Bool, ∃ _b : Bool, ∃ s : State, (frozen s.hw = true)) ∧
  (∃ _j : Fin 4, ∃ _tx : Bool, ∃ _l : Fin 8, ∃ s : State, (frozen s.hw = true)) ∧
  (∃ _j : Fin 4, ∃ _tx : Bool, ∃ s : State, (frozen s.hw = true)) ∧
  (∃ s : State, (frozen s.hw = true)) ∧
  (∃ _m : Fin 4, ∃ _p : Fin 4, ∃ _up : Bool, ∃ s : State, (frozen s.hw = true)) ∧
  (∃ s : State, (frozen s.hw = true)) ∧
  (∃ _d : BitVec 13, ∃ s : State, (frozen s.hw = true)) ∧
  (∃ _a : Bool, ∃ _b : Bool, ∃ s : State, (frozen s.hw = true)) ∧
  (∃ s : State, (frozen s.hw = true)) ∧
  (∃ s : State, (frozen s.hw = true)) ∧
  (∃ _i : Fin 64, ∃ s : State, (frozen s.hw = true)) ∧
  (∃ _i : Fin 64, ∃ s : State, (frozen s.hw = true)) ∧
  (∃ _c : Fin 4, ∃ _d : BitVec 8, ∃ s : State, (frozen s.hw = true)) ∧
  (∃ _y : Fin 16, ∃ _k : Fin 16, ∃ s : State, (frozen s.hw = true)) ∧
  (∃ _k : Fin 4, ∃ s : State, (frozen s.hw = true)) ∧
  (∃ s : State, (frozen s.hw = true)) ∧
  (∃ _f : Finding, ∃ s : State, (frozen s.hw = true)) :=
  ⟨⟨.ok, (⟨0, by decide⟩ : Fin (fuCommands .ok).length), 0, ⟨0, 0, 0, 0, 0, 0, 0, 0⟩, inFrozen fuState, by decide +kernel⟩,
   ⟨0, 0xFF, ⟨0, 0, 0, 0, 0, 0, 0, 0⟩, frozenState, by decide +kernel⟩,
   ⟨0, frozenState, by decide +kernel⟩,
   ⟨frozenState, by decide +kernel⟩,
   ⟨frozenState, by decide +kernel⟩,
   ⟨frozenState, by decide +kernel⟩,
   ⟨0, 0, 0, 0, frozenState, by decide +kernel⟩,
   ⟨0, 0, frozenState, by decide +kernel⟩,
   ⟨0, [], frozenState, by decide +kernel⟩,
   ⟨0, [], frozenState, by decide +kernel⟩,
   ⟨0, frozenState, by decide +kernel⟩,
   ⟨frozenState, by decide +kernel⟩,
   ⟨0, true, true, frozenState, by decide +kernel⟩,
   ⟨0, true, 0, frozenState, by decide +kernel⟩,
   ⟨0, true, frozenState, by decide +kernel⟩,
   ⟨frozenState, by decide +kernel⟩,
   ⟨0, 0, true, frozenState, by decide +kernel⟩,
   ⟨frozenState, by decide +kernel⟩,
   ⟨0, frozenState, by decide +kernel⟩,
   ⟨false, false, frozenState, by decide +kernel⟩,
   ⟨frozenState, by decide +kernel⟩,
   ⟨frozenState, by decide +kernel⟩,
   ⟨0, frozenState, by decide +kernel⟩,
   ⟨0, frozenState, by decide +kernel⟩,
   ⟨0, 0, frozenState, by decide +kernel⟩,
   ⟨0, 0, frozenState, by decide +kernel⟩,
   ⟨0, frozenState, by decide +kernel⟩,
   ⟨frozenState, by decide +kernel⟩,
   ⟨⟨0x40, 2, 0, 0, 8⟩, frozenState, by decide +kernel⟩⟩

/-- The hypotheses of each clause of WordStepsLaunchTheirResults are met. -/
theorem test_meets_WordStepsLaunchTheirResults :
  (∃ k : Fin wordRows.length, ∃ g : Fin 2048, ∃ u : UStep, ∃ d : Word, ∃ fl : Flags, ∃ s : State, (StepFires s g
    (wordRows.get k).2.1 u (wordRows.get k).2.2) ∧ (dstOk .any false u.dst.toNat = true) ∧ (u.dst.toNat ≠ 0x16) ∧
    ((wordRows.get k).2.2.op (inputsOf s g u (wordRows.get k).2.2) = .words [d] fl)) ∧
  (∃ k : Fin wordRows.length, ∃ g : Fin 2048, ∃ u : UStep, ∃ d : Word, ∃ fl : Flags, ∃ key : Nat, ∃ t : Trough, ∃
    pos : Nat, ∃ n : Nat, ∃ sq : Bool, ∃ ov : Bool, ∃ s : State, (StepFires s g (wordRows.get k).2.1 u (wordRows.get
    k).2.2) ∧ (u.dst.toNat = 0x16) ∧ ((wordRows.get k).2.2.op (inputsOf s g u (wordRows.get k).2.2) = .words [d] fl)
    ∧ (Reaches (readied s g) g key true) ∧ (produce (depth (readied s g) key) false (troughNow (readied s g) key) =
    (.at t pos, n, sq, ov))) ∧
  (∃ k : Fin wordRows.length, ∃ g : Fin 2048, ∃ u : UStep, ∃ s : State, (Issues s g (wordRows.get k).2.1 u) ∧
    ((wordRows.get k).2.2.fmts.contains u.fmt.toNat = true) ∧ (fires (wordRows.get k).2.2 (operandsOf s g u
    (wordRows.get k).2.2) = false)) :=
  ⟨⟨⟨0, by decide⟩, 0, ⟨0, 5, 1, 2, 0, 0, 0, 128⟩, 7, Flags.none, stepState 0 1 ⟨0, 5, 1, 2, 0, 0, 0, 128⟩, by decide +kernel⟩,
   ⟨⟨0, by decide⟩, 0, ⟨0, 22, 1, 2, 0, 0, 0, 128⟩, 7, Flags.none, 0, ⟨1, 0, 0, 0, 0, false, false, [0], [], [], 0, 0, 0, 0, 0, none, none, [], none, [], 0, none⟩, 0, 0, false, false, stepState 0 1 ⟨0, 22, 1, 2, 0, 0, 0, 128⟩, by decide +kernel⟩,
   ⟨⟨0, by decide⟩, 0, ⟨0, 5, 3, 2, 0, 0, 0, 128⟩, stepState 0 1 ⟨0, 5, 3, 2, 0, 0, 0, 128⟩, by decide +kernel⟩⟩

/-- The hypotheses of each clause of ProductAndAccumulatingStepsLaunch are met. -/
theorem test_meets_ProductAndAccumulatingStepsLaunch :
  (∃ k : Fin productRows.length, ∃ g : Fin 2048, ∃ u : UStep, ∃ vs : List Int, ∃ pe : Int, ∃ fl : Flags, ∃ s :
    State, (StepFires s g (productRows.get k).2.1 u (productRows.get k).2.2) ∧ (u.dst.toNat ≤ 0x12 ∨ u.dst.toNat =
    0x17) ∧ ((productRows.get k).2.2.op (inputsOf s g u (productRows.get k).2.2) = .product vs pe fl)) ∧
  (∃ k : Fin productRows.length, ∃ g : Fin 2048, ∃ u : UStep, ∃ vs : List Int, ∃ pe : Int, ∃ fl : Flags, ∃ key :
    Nat, ∃ t : Trough, ∃ pos : Nat, ∃ n : Nat, ∃ sq : Bool, ∃ ov : Bool, ∃ s : State, (StepFires s g
    (productRows.get k).2.1 u (productRows.get k).2.2) ∧ (u.dst.toNat = 0x16) ∧ ((productRows.get k).2.2.op
    (inputsOf s g u (productRows.get k).2.2) = .product vs pe fl) ∧ (Reaches (readied s g) g key true) ∧ (produce
    (depth (readied s g) key) false (troughNow (readied s g) key) = (.at t pos, n, sq, ov))) ∧
  (∃ k : Fin productRows.length, ∃ g : Fin 2048, ∃ u : UStep, ∃ vs : List Int, ∃ pe : Int, ∃ fl : Flags, ∃ s :
    State, (StepFires s g (productRows.get k).2.1 u (productRows.get k).2.2) ∧ (u.dst.toNat = 0x14 ∨ u.dst.toNat =
    0x15) ∧ ((productRows.get k).2.2.op (inputsOf s g u (productRows.get k).2.2) = .product vs pe fl)) ∧
  (∃ k : Fin addendRows.length, ∃ g : Fin 2048, ∃ u : UStep, ∃ vs : List Int, ∃ pe : Int, ∃ fl : Flags, ∃ s : State,
    (StepFires s g (addendRows.get k).2.1 u (addendRows.get k).2.2) ∧ (u.dst.toNat = 0x14 ∨ u.dst.toNat = 0x15) ∧
    ((addendRows.get k).2.2.op (inputsOf s g u (addendRows.get k).2.2) = .addend vs pe fl)) ∧
  (∃ k : Fin productRows.length, ∃ g : Fin 2048, ∃ u : UStep, ∃ s : State, (Issues s g (productRows.get k).2.1 u) ∧
    ((productRows.get k).2.2.fmts.contains u.fmt.toNat = true) ∧ (fires (productRows.get k).2.2 (operandsOf s g u
    (productRows.get k).2.2) = false)) ∧
  (∃ k : Fin addendRows.length, ∃ g : Fin 2048, ∃ u : UStep, ∃ s : State, (Issues s g (addendRows.get k).2.1 u) ∧
    ((addendRows.get k).2.2.fmts.contains u.fmt.toNat = true) ∧ (fires (addendRows.get k).2.2 (operandsOf s g u
    (addendRows.get k).2.2) = false)) :=
  ⟨⟨⟨0, by decide⟩, 0, ⟨2, 5, 1, 2, 0, 0, 0, 128⟩, [0, 0, 0, 21], 0, Flags.none, stepState 0 26 ⟨2, 5, 1, 2, 0, 0, 0, 128⟩, by decide +kernel⟩,
   ⟨⟨0, by decide⟩, 0, ⟨2, 22, 1, 2, 0, 0, 0, 128⟩, [0, 0, 0, 21], 0, Flags.none, 0, ⟨1, 0, 0, 0, 0, false, false, [0], [], [], 0, 0, 0, 0, 0, none, none, [], none, [], 0, none⟩, 0, 0, false, false, stepState 0 26 ⟨2, 22, 1, 2, 0, 0, 0, 128⟩, by decide +kernel⟩,
   ⟨⟨0, by decide⟩, 0, ⟨2, 20, 1, 2, 0, 0, 0, 128⟩, [0, 0, 0, 21], 0, Flags.none, stepState 0 26 ⟨2, 20, 1, 2, 0, 0, 0, 128⟩, by decide +kernel⟩,
   ⟨⟨0, by decide⟩, 0, ⟨2, 20, 1, 2, 0, 0, 0, 128⟩, [0, 0, 0, 21], 0, Flags.none, stepState 0 27 ⟨2, 20, 1, 2, 0, 0, 0, 128⟩, by decide +kernel⟩,
   ⟨⟨0, by decide⟩, 0, ⟨2, 5, 3, 2, 0, 0, 0, 128⟩, stepState 0 26 ⟨2, 5, 3, 2, 0, 0, 0, 128⟩, by decide +kernel⟩,
   ⟨⟨0, by decide⟩, 0, ⟨2, 20, 3, 2, 0, 0, 0, 128⟩, stepState 0 27 ⟨2, 20, 3, 2, 0, 0, 0, 128⟩, by decide +kernel⟩⟩

/-- The hypotheses of each clause of TagStepsAndSelvLaunchTheirResults are met. -/
theorem test_meets_TagStepsAndSelvLaunchTheirResults :
  (∃ g : Fin 2048, ∃ u : UStep, ∃ s : State, (StepFires s g 0x2 u opSelv) ∧ ((operandsOf s g u opSelv).a.v = true) ∧
    (dstOk .any false u.dst.toNat = true) ∧ (u.dst.toNat ≠ 0x16)) ∧
  (∃ g : Fin 2048, ∃ u : UStep, ∃ s : State, (StepFires s g 0x2 u opSelv) ∧ ((operandsOf s g u opSelv).a.v = false)
    ∧ (dstOk .any false u.dst.toNat = true) ∧ (u.dst.toNat ≠ 0x16)) ∧
  (∃ g : Fin 2048, ∃ u : UStep, ∃ s : State, (StepFires s g 0x90 u opSetfl) ∧ (dstOk .any false u.dst.toNat = true)
    ∧ (u.dst.toNat ≠ 0x16)) ∧
  (∃ g : Fin 2048, ∃ u : UStep, ∃ s : State, (StepFires s g 0x91 u opSetep) ∧ (dstOk .any false u.dst.toNat = true)
    ∧ (u.dst.toNat ≠ 0x16)) ∧
  (∃ g : Fin 2048, ∃ u : UStep, ∃ s : State, (StepFires s g 0x92 u opClrp) ∧ (dstOk .any false u.dst.toNat = true) ∧
    (u.dst.toNat ≠ 0x16)) ∧
  (∃ g : Fin 2048, ∃ u : UStep, ∃ s : State, (StepFires s g 0x93 u opTstv) ∧ (dstOk .any false u.dst.toNat = true) ∧
    (u.dst.toNat ≠ 0x16)) ∧
  (∃ g : Fin 2048, ∃ u : UStep, ∃ s : State, (StepFires s g 0x94 u opTstf) ∧ (dstOk .any false u.dst.toNat = true) ∧
    (u.dst.toNat ≠ 0x16)) ∧
  (∃ g : Fin 2048, ∃ u : UStep, ∃ s : State, (StepFires s g 0x95 u opTstl) ∧ (dstOk .any false u.dst.toNat = true) ∧
    (u.dst.toNat ≠ 0x16)) ∧
  (∃ g : Fin 2048, ∃ u : UStep, ∃ s : State, (StepFires s g 0x96 u opTstp) ∧ (dstOk .any false u.dst.toNat = true) ∧
    (u.dst.toNat ≠ 0x16)) ∧
  (∃ k : Fin tagRows.length, ∃ g : Fin 2048, ∃ u : UStep, ∃ d : Word, ∃ fl : Flags, ∃ key : Nat, ∃ t : Trough, ∃ pos
    : Nat, ∃ n : Nat, ∃ sq : Bool, ∃ ov : Bool, ∃ s : State, (StepFires s g (tagRows.get k).2.1 u (tagRows.get
    k).2.2) ∧ (u.dst.toNat = 0x16) ∧ ((tagRows.get k).2.2.op (inputsOf s g u (tagRows.get k).2.2) = .words [d] fl) ∧
    (Reaches (readied s g) g key true) ∧ (produce (depth (readied s g) key) false (troughNow (readied s g) key) =
    (.at t pos, n, sq, ov))) ∧
  (∃ k : Fin tagRows.length, ∃ g : Fin 2048, ∃ u : UStep, ∃ s : State, (Issues s g (tagRows.get k).2.1 u) ∧
    ((tagRows.get k).2.2.fmts.contains u.fmt.toNat = true) ∧ (fires (tagRows.get k).2.2 (operandsOf s g u
    (tagRows.get k).2.2) = false)) :=
  ⟨⟨0, ⟨0, 5, 1, 2, 0, 0, 0, 128⟩, stepState 0 0x2 ⟨0, 5, 1, 2, 0, 0, 0, 128⟩, by decide +kernel⟩,
   ⟨0, ⟨0, 5, 3, 2, 0, 0, 0, 128⟩, stepState 0 0x2 ⟨0, 5, 3, 2, 0, 0, 0, 128⟩, by decide +kernel⟩,
   ⟨0, ⟨0, 5, 1, 2, 0, 0, 771, 128⟩, stepState 0 0x90 ⟨0, 5, 1, 2, 0, 0, 771, 128⟩, by decide +kernel⟩,
   ⟨0, ⟨0, 5, 1, 2, 0, 0, 9, 128⟩, stepState 0 0x91 ⟨0, 5, 1, 2, 0, 0, 9, 128⟩, by decide +kernel⟩,
   ⟨0, ⟨0, 5, 1, 2, 0, 0, 0, 128⟩, stepState 0 0x92 ⟨0, 5, 1, 2, 0, 0, 0, 128⟩, by decide +kernel⟩,
   ⟨0, ⟨0, 5, 1, 2, 0, 0, 0, 128⟩, stepState 0 0x93 ⟨0, 5, 1, 2, 0, 0, 0, 128⟩, by decide +kernel⟩,
   ⟨0, ⟨0, 5, 1, 2, 0, 0, 0, 128⟩, stepState 0 0x94 ⟨0, 5, 1, 2, 0, 0, 0, 128⟩, by decide +kernel⟩,
   ⟨0, ⟨0, 5, 1, 2, 0, 0, 0, 128⟩, stepState 0 0x95 ⟨0, 5, 1, 2, 0, 0, 0, 128⟩, by decide +kernel⟩,
   ⟨0, ⟨0, 5, 1, 2, 0, 0, 0, 128⟩, stepState 0 0x96 ⟨0, 5, 1, 2, 0, 0, 0, 128⟩, by decide +kernel⟩,
   ⟨⟨0, by decide⟩, 0, ⟨0, 22, 1, 2, 0, 0, 0, 128⟩, 7, Flags.none, 0, ⟨1, 0, 0, 0, 0, false, false, [0], [], [], 0, 0, 0, 0, 0, none, none, [], none, [], 0, none⟩, 0, 0, false, false, stepState 0 2 ⟨0, 22, 1, 2, 0, 0, 0, 128⟩, by decide +kernel⟩,
   ⟨⟨0, by decide⟩, 0, ⟨0, 5, 3, 3, 0, 0, 0, 128⟩, stepState 0 2 ⟨0, 5, 3, 3, 0, 0, 0, 128⟩, by decide +kernel⟩⟩

/-- The hypotheses of each clause of ControlAndTransformStepsAct are met. -/
theorem test_meets_ControlAndTransformStepsAct :
  (∃ g : Fin 2048, ∃ u : UStep, ∃ s : State, (Issues s g 0 u) ∧ (u.fmt.toNat < 8)) ∧
  (∃ g : Fin 2048, ∃ u : UStep, ∃ s : State, (Issues s g 5 u) ∧ (u.fmt.toNat < 8)) ∧
  (∃ g : Fin 2048, ∃ u : UStep, ∃ s : State, (Issues s g 6 u) ∧ (u.fmt.toNat < 8) ∧ (u.dst.toNat = 0x14 ∨
    u.dst.toNat = 0x15)) ∧
  (∃ g : Fin 2048, ∃ u : UStep, ∃ s : State, (StepFires s g 0x97 u opSignal)) ∧
  (∃ g : Fin 2048, ∃ u : UStep, ∃ s : State, (Issues s g 0x97 u) ∧ (u.fmt.toNat < 8) ∧ (fires opSignal (operandsOf s
    g u opSignal) = false)) ∧
  (∃ g : Fin 2048, ∃ u : UStep, ∃ ds : List Word, ∃ fl : Flags, ∃ s : State, (StepFires s g 0xa0 u opBfly2) ∧
    (u.dst.toNat < 0x10) ∧ (opBfly2.op (inputsOf s g u opBfly2) = .words ds fl)) ∧
  (∃ g : Fin 2048, ∃ u : UStep, ∃ d0 : Word, ∃ d1 : Word, ∃ fl : Flags, ∃ s : State, (StepFires s g 0xa0 u opBfly2)
    ∧ (u.dst.toNat = 0x12) ∧ (opBfly2.op (inputsOf s g u opBfly2) = .words [d0, d1] fl)) ∧
  (∃ g : Fin 2048, ∃ u : UStep, ∃ s : State, (Issues s g 0xa0 u) ∧ (opBfly2.fmts.contains u.fmt.toNat = true) ∧
    (fires opBfly2 (operandsOf s g u opBfly2) = false) ∧ (u.dst.toNat < 0x10)) ∧
  (∃ g : Fin 2048, ∃ u : UStep, ∃ s : State, (Issues s g 0xa0 u) ∧ (opBfly2.fmts.contains u.fmt.toNat = true) ∧
    (fires opBfly2 (operandsOf s g u opBfly2) = false) ∧ (u.dst.toNat = 0x12)) ∧
  (∃ g : Fin 2048, ∃ u : UStep, ∃ ds : List Word, ∃ fl : Flags, ∃ s : State, (StepFires s g 0xa1 u opBfly4) ∧
    (u.dst.toNat < 0x10) ∧ (opBfly4.op (inputsOf s g u opBfly4) = .words ds fl)) ∧
  (∃ g : Fin 2048, ∃ u : UStep, ∃ d0 : Word, ∃ d1 : Word, ∃ fl : Flags, ∃ s : State, (StepFires s g 0xa1 u opBfly4)
    ∧ (u.dst.toNat = 0x12) ∧ (quadOf opBfly4 u = false) ∧ (opBfly4.op (inputsOf s g u opBfly4) = .words [d0, d1]
    fl)) ∧
  (∃ g : Fin 2048, ∃ u : UStep, ∃ s : State, (Issues s g 0xa1 u) ∧ (opBfly4.fmts.contains u.fmt.toNat = true) ∧
    (fires opBfly4 (operandsOf s g u opBfly4) = false) ∧ (u.dst.toNat < 0x10)) ∧
  (∃ g : Fin 2048, ∃ u : UStep, ∃ s : State, (Issues s g 0xa1 u) ∧ (opBfly4.fmts.contains u.fmt.toNat = true) ∧
    (fires opBfly4 (operandsOf s g u opBfly4) = false) ∧ (u.dst.toNat = 0x12) ∧ (quadOf opBfly4 u = false)) ∧
  (∃ g : Fin 2048, ∃ opc : BitVec 8, ∃ u : UStep, ∃ s : State, (Issues s g opc.toNat u) ∧ ((opRow opc.toNat).any
    (fun op => op.fmts.contains u.fmt.toNat) = false)) ∧
  (∃ ecc : Ecc, ∃ k : Fin (fuRows ecc).length, ∃ g : Fin 2048, ∃ u : UStep, ∃ s : State, (Issues s g ((fuRows
    ecc).get k).2.1 u) ∧ (((fuRows ecc).get k).2.2.fmts.contains u.fmt.toNat = false)) :=
  ⟨⟨0, ⟨0, 5, 1, 2, 0, 0, 0, 128⟩, stepState 0 0x0 ⟨0, 5, 1, 2, 0, 0, 0, 128⟩, by decide +kernel⟩,
   ⟨0, ⟨0, 23, 1, 2, 0, 0, 5, 128⟩, stepState 0 0x5 ⟨0, 23, 1, 2, 0, 0, 5, 128⟩, by decide +kernel⟩,
   ⟨0, ⟨0, 20, 1, 2, 0, 0, 0, 128⟩, stepState 0 0x6 ⟨0, 20, 1, 2, 0, 0, 0, 128⟩, by decide +kernel⟩,
   ⟨0, ⟨0, 23, 1, 2, 0, 0, 63, 128⟩, stepState 0 0x97 ⟨0, 23, 1, 2, 0, 0, 63, 128⟩, by decide +kernel⟩,
   ⟨0, ⟨0, 23, 3, 2, 0, 0, 0, 128⟩, stepState 0 0x97 ⟨0, 23, 3, 2, 0, 0, 0, 128⟩, by decide +kernel⟩,
   ⟨0, ⟨4, 15, 1, 2, 0, 0, 0, 128⟩, [10, 4], Flags.none, stepState 0 0xa0 ⟨4, 15, 1, 2, 0, 0, 0, 128⟩, by decide +kernel⟩,
   ⟨0, ⟨4, 18, 1, 2, 0, 0, 0, 128⟩, 10, 4, Flags.none, stepState 0 0xa0 ⟨4, 18, 1, 2, 0, 0, 0, 128⟩, by decide +kernel⟩,
   ⟨0, ⟨4, 5, 3, 2, 0, 0, 0, 128⟩, stepState 0 0xa0 ⟨4, 5, 3, 2, 0, 0, 0, 128⟩, by decide +kernel⟩,
   ⟨0, ⟨5, 18, 3, 2, 0, 0, 0, 128⟩, stepState 0 0xa0 ⟨5, 18, 3, 2, 0, 0, 0, 128⟩, by decide +kernel⟩,
   ⟨0, ⟨5, 15, 1, 2, 0, 0, 0, 128⟩, [687195815936, 18013780033142784], Flags.none, stepState 0 0xa1 ⟨5, 15, 1, 2, 0, 0, 0, 128⟩, by decide +kernel⟩,
   ⟨0, ⟨5, 18, 1, 2, 0, 0, 0, 128⟩, 687195815936, 18013780033142784, Flags.none, stepState 0 0xa1 ⟨5, 18, 1, 2, 0, 0, 0, 128⟩, by decide +kernel⟩,
   ⟨0, ⟨4, 5, 3, 2, 0, 0, 0, 128⟩, stepState 0 0xa1 ⟨4, 5, 3, 2, 0, 0, 0, 128⟩, by decide +kernel⟩,
   ⟨0, ⟨5, 18, 3, 2, 0, 0, 0, 128⟩, stepState 0 0xa1 ⟨5, 18, 3, 2, 0, 0, 0, 128⟩, by decide +kernel⟩,
   ⟨0, 0xFF, ⟨0, 5, 1, 2, 0, 0, 0, 128⟩, stepState 0 0xFF ⟨0, 5, 1, 2, 0, 0, 0, 128⟩, by decide +kernel⟩,
   ⟨Ecc.ok, ⟨0, by decide⟩, 0, ⟨9, 5, 1, 2, 0, 0, 0, 128⟩, stepState 0 1 ⟨9, 5, 1, 2, 0, 0, 0, 128⟩, by decide +kernel⟩⟩

/-- The hypotheses of each clause of MemoryAndTroughStepsAct are met. -/
theorem test_meets_MemoryAndTroughStepsAct :
  (∃ g : Fin 2048, ∃ u : UStep, ∃ _ecc : Ecc, ∃ s : State, (StepFires s g 0x80 u (memRow true false .any)) ∧ (dstOk
    .any false u.dst.toNat = true) ∧ (u.dst.toNat ≠ 0x16)) ∧
  (∃ g : Fin 2048, ∃ u : UStep, ∃ _ecc : Ecc, ∃ key : Nat, ∃ t0 : Trough, ∃ pos : Nat, ∃ n : Nat, ∃ sq : Bool, ∃ ov
    : Bool, ∃ s : State, (StepFires s g 0x80 u (memRow true false .any)) ∧ (u.dst.toNat = 0x16) ∧ (Reaches (readied
    s g) g key true) ∧ (produce (depth (readied s g) key) false (troughNow (readied s g) key) = (.at t0 pos, n, sq,
    ov))) ∧
  (∃ _m : Sparse Byte, ∃ h : Hw, ∃ g : Nat, ∃ w : Nat, ∃ e : Ecc, (holdsPort h (penBank (g / 16) w).1 false 3 g =
    true) ∧ (rowBad h (penBank (g / 16) w) = false) ∧ (e ≠ .uncorrectable)) ∧
  (∃ _m : Sparse Byte, ∃ h : Hw, ∃ g : Nat, ∃ w : Nat, ∃ e : Ecc, (holdsPort h (penBank (g / 16) w).1 false 3 g =
    true) ∧ (rowBad h (penBank (g / 16) w) = true ∨ e = .uncorrectable)) ∧
  (∃ _m : Sparse Byte, ∃ h : Hw, ∃ g : Nat, ∃ w : Nat, ∃ _e : Ecc, (holdsPort h (penBank (g / 16) w).1 false 3 g =
    false)) ∧
  (∃ g : Fin 2048, ∃ u : UStep, ∃ s : State, (StepFires s g 0x81 u (memRow true true .discard))) ∧
  (∃ _m : Sparse Byte, ∃ h : Hw, ∃ f : Flight, ∃ n : Nat, ∃ w : Nat, ∃ t : TW, (f.dest = .store n w) ∧ (f.pay =
    .word t) ∧ (holdsPort h (penBank n w).1 true 3 f.g = true)) ∧
  (∃ _m : Sparse Byte, ∃ h : Hw, ∃ f : Flight, ∃ n : Nat, ∃ w : Nat, ∃ t : TW, (f.dest = .store n w) ∧ (f.pay =
    .word t) ∧ (holdsPort h (penBank n w).1 true 3 f.g = false)) ∧
  (∃ g : Fin 2048, ∃ u : UStep, ∃ key : Nat, ∃ t0 : Trough, ∃ pos : Nat, ∃ n : Nat, ∃ sq : Bool, ∃ ov : Bool, ∃ s :
    State, (TroughStepActs s g 0x82 u key true) ∧ (produce (depth (readied s g) key) false (troughNow (readied s g)
    key) = (.at t0 pos, n, sq, ov))) ∧
  (∃ g : Fin 2048, ∃ u : UStep, ∃ key : Nat, ∃ ecc : Ecc, ∃ s : State, (StepFires s g 0x83 u (memRow false false
    .any)) ∧ (Reaches (readied s g) g key false) ∧ (readableNow (depth (readied s g) key) (troughNow (readied s g)
    key) ≠ 0) ∧ (dstOk .any false u.dst.toNat = true) ∧ (u.dst.toNat ≠ 0x16) ∧ ((popWord s.mem (readied s g) key
    (troughNow (readied s g) key) ecc).1.v = true ∨ u.dst.toNat < 0x13)) ∧
  (∃ g : Fin 2048, ∃ u : UStep, ∃ key : Nat, ∃ _ecc : Ecc, ∃ s : State, (StepFires s g 0x83 u (memRow false false
    .any)) ∧ (Reaches (readied s g) g key false) ∧ (readableNow (depth (readied s g) key) (troughNow (readied s g)
    key) = 0) ∧ (emptyRefuses (readied s g) key = false) ∧ (dstOk .any false u.dst.toNat = true) ∧ (u.dst.toNat ≠
    0x16)) ∧
  (∃ _m : Sparse Byte, ∃ h : Hw, ∃ key : Nat, ∃ t : Trough, ∃ e : Ecc, (lookup t.tail t.rp = none) ∧ (rowBad h
    (penBank (key / 8) (troughSlot h key t.rp)) = false) ∧ (e ≠ .uncorrectable)) ∧
  (∃ _m : Sparse Byte, ∃ h : Hw, ∃ key : Nat, ∃ t : Trough, ∃ e : Ecc, (lookup t.tail t.rp = none) ∧ (rowBad h
    (penBank (key / 8) (troughSlot h key t.rp)) = true ∨ e = .uncorrectable)) ∧
  (∃ g : Fin 2048, ∃ u : UStep, ∃ key : Nat, ∃ s : State, (TroughStepActs s g 0x84 u key false)) ∧
  (∃ g : Fin 2048, ∃ u : UStep, ∃ key : Nat, ∃ s : State, (TroughStepActs s g 0x85 u key false)) ∧
  (∃ g : Fin 2048, ∃ u : UStep, ∃ key : Nat, ∃ s : State, (TroughStepActs s g 0x86 u key false)) ∧
  (∃ g : Fin 2048, ∃ u : UStep, ∃ key : Nat, ∃ t0 : Trough, ∃ pos : Nat, ∃ n : Nat, ∃ sq : Bool, ∃ ov : Bool, ∃ s :
    State, (TroughStepActs s g 0x87 u key true) ∧ (produce (depth (readied s g) key) true (troughNow (readied s g)
    key) = (.at t0 pos, n, sq, ov))) ∧
  (∃ g : Fin 2048, ∃ u : UStep, ∃ key : Nat, ∃ s : State, (TroughStepActs s g 0x88 u key true)) ∧
  (∃ g : Fin 2048, ∃ u : UStep, ∃ key : Nat, ∃ s : State, (TroughStepActs s g 0x89 u key true)) :=
  ⟨⟨0, ⟨0, 5, 1, 0, 0, 0, 0, 128⟩, Ecc.ok, stepState 0 0x80 ⟨0, 5, 1, 0, 0, 0, 0, 128⟩, by decide +kernel⟩,
   ⟨0, ⟨0, 22, 1, 0, 0, 0, 0, 128⟩, Ecc.ok, 0, ⟨1, 0, 0, 0, 0, false, false, [0], [], [], 0, 0, 0, 0, 0, none, none, [], none, [], 0, none⟩, 0, 0, false, false, stepState 0 0x80 ⟨0, 22, 1, 0, 0, 0, 0, 128⟩, by decide +kernel⟩,
   ⟨[], portHw, 0, 0, .ok, by decide +kernel⟩,
   ⟨[], portHw, 0, 0, .uncorrectable, by decide +kernel⟩,
   ⟨[], upState.hw, 0, 0, .ok, by decide +kernel⟩,
   ⟨0, ⟨0, 23, 1, 2, 0, 0, 0, 128⟩, stepState 0 0x81 ⟨0, 23, 1, 2, 0, 0, 0, 128⟩, by decide +kernel⟩,
   ⟨[], portHw, ⟨0, 0, 0, 0, .store 0 0, .word (vw 5)⟩, 0, 0, vw 5, by decide +kernel⟩,
   ⟨[], upState.hw, ⟨0, 0, 0, 0, .store 0 0, .word (vw 5)⟩, 0, 0, vw 5, by decide +kernel⟩,
   ⟨0, ⟨0, 23, 1, 2, 0, 0, 0, 128⟩, 0, ⟨1, 0, 0, 0, 0, false, false, [0], [], [], 0, 0, 0, 0, 0, none, none, [], none, [], 0, none⟩, 0, 0, false, false, stepState 0 0x82 ⟨0, 23, 1, 2, 0, 0, 0, 128⟩, by decide +kernel⟩,
   ⟨1, ⟨0, 5, 1, 2, 0, 0, 0, 128⟩, 1, .ok, stepState 1 0x83 ⟨0, 5, 1, 2, 0, 0, 0, 128⟩, by decide +kernel⟩,
   ⟨2, ⟨0, 5, 1, 2, 0, 0, 0, 128⟩, 2, Ecc.ok, stepState 2 0x83 ⟨0, 5, 1, 2, 0, 0, 0, 128⟩, by decide +kernel⟩,
   ⟨[], upState.hw, 0, Trough.reset, .corrected, by decide +kernel⟩,
   ⟨[], upState.hw, 0, Trough.reset, .uncorrectable, by decide +kernel⟩,
   ⟨1, ⟨0, 23, 23, 2, 0, 0, 0, 128⟩, 1, stepState 1 0x84 ⟨0, 23, 23, 2, 0, 0, 0, 128⟩, by decide +kernel⟩,
   ⟨1, ⟨0, 23, 23, 2, 0, 0, 0, 128⟩, 1, stepState 1 0x85 ⟨0, 23, 23, 2, 0, 0, 0, 128⟩, by decide +kernel⟩,
   ⟨1, ⟨0, 23, 23, 2, 0, 0, 1, 128⟩, 1, stepState 1 0x86 ⟨0, 23, 23, 2, 0, 0, 1, 128⟩, by decide +kernel⟩,
   ⟨0, ⟨0, 23, 1, 2, 0, 0, 0, 128⟩, 0, ⟨1, 0, 0, 0, 0, true, false, [], [], [], 0, 0, 0, 0, 0, none, none, [], none, [], 0, none⟩, 0, 0, false, false, stepState 0 0x87 ⟨0, 23, 1, 2, 0, 0, 0, 128⟩, by decide +kernel⟩,
   ⟨0, ⟨0, 23, 23, 2, 0, 0, 0, 128⟩, 0, stepState 0 0x88 ⟨0, 23, 23, 2, 0, 0, 0, 128⟩, by decide +kernel⟩,
   ⟨0, ⟨0, 23, 23, 2, 0, 0, 0, 128⟩, 0, stepState 0 0x89 ⟨0, 23, 23, 2, 0, 0, 0, 128⟩, by decide +kernel⟩⟩

/-- The hypotheses of each clause of ResultsLandInTheirDestinations are met. -/
theorem test_meets_ResultsLandInTheirDestinations :
  (∃ g : Fin 2048, ∃ f : Flight, ∃ k : Nat, ∃ w : TW, ∃ s : State, (arrayRuns s.hw (g / 128) = true) ∧ (dueFlights
    (judgePen s.mem s.hw (g / 16)) g = [f]) ∧ (f.g = g) ∧ (f.dest = .w k) ∧ (landing f = .word w)) ∧
  (∃ g : Fin 2048, ∃ f : Flight, ∃ k : Nat, ∃ a : Accum, ∃ s : State, (arrayRuns s.hw (g / 128) = true) ∧
    (dueFlights (judgePen s.mem s.hw (g / 16)) g = [f]) ∧ (f.g = g) ∧ (f.dest = .acc k) ∧ (landing f = .setAcc a) ∧
    (bringsNothing f = false)) ∧
  (∃ g : Fin 2048, ∃ f : Flight, ∃ k : Nat, ∃ s : State, (arrayRuns s.hw (g / 128) = true) ∧ (dueFlights (judgePen
    s.mem s.hw (g / 16)) g = [f]) ∧ (f.g = g) ∧ (f.dest = .acc k) ∧ (bringsNothing f = true)) ∧
  (∃ g : Fin 2048, ∃ f : Flight, ∃ k : Nat, ∃ fmt : Nat, ∃ vs : List Int, ∃ pe : Int, ∃ rnd : Rnd, ∃ sat : Bool, ∃ p
    : Bool, ∃ s : State, (arrayRuns s.hw (g / 128) = true) ∧ (dueFlights (judgePen s.mem s.hw (g / 16)) g = [f]) ∧
    (f.g = g) ∧ (f.dest = .acc k) ∧ (f.pay = .addAcc fmt vs pe rnd sat p)) ∧
  (∃ g : Fin 2048, ∃ f : Flight, ∃ w : TW, ∃ s : State, (arrayRuns s.hw (g / 128) = true) ∧ (dueFlights (judgePen
    s.mem s.hw (g / 16)) g = [f]) ∧ (f.g = g) ∧ (f.dest = .out 0) ∧ (landing f = .word w)) ∧
  (∃ g : Fin 2048, ∃ f : Flight, ∃ w : TW, ∃ s : State, (arrayRuns s.hw (g / 128) = true) ∧ (dueFlights (judgePen
    s.mem s.hw (g / 16)) g = [f]) ∧ (f.g = g) ∧ (f.dest = .out 1) ∧ (landing f = .word w)) ∧
  (∃ g : Fin 2048, ∃ f : Flight, ∃ key : Nat, ∃ pos : Nat, ∃ w : TW, ∃ s : State, (arrayRuns s.hw (g / 128) = true)
    ∧ (dueFlights (judgePen s.mem s.hw (g / 16)) g = [f]) ∧ (f.g = g) ∧ (f.dest = .trough key pos) ∧ (landing f =
    .word w)) ∧
  (∃ f : Flight, ∃ n : Nat, ∃ w : Nat, ∃ fmt : Nat, ∃ e : Ecc, ∃ r : LoadRead, (f.pay = .load n w fmt e r) ∧ ((∀ k,
    f.dest ≠ .acc k))) ∧
  (∃ f : Flight, ∃ n : Nat, ∃ w : Nat, ∃ fmt : Nat, ∃ e : Ecc, ∃ r : LoadRead, ∃ k : Nat, (f.pay = .load n w fmt e
    r) ∧ (f.dest = .acc k)) ∧
  (∃ g : Fin 2048, ∃ t : Fin 12, ∃ g2 : Nat, ∃ x : XWord, ∃ s : State, (farEnd g t = some g2) ∧ (arrayRuns s.hw (g2
    / 128) = true) ∧ (onEdge s.hw (g2 / 128) = true) ∧ (s.hw.arr.xq.filter (fun w => w.key = 12 * g.val + t.val ∧
    w.due ≤ s.hw.aclk) = [x])) ∧
  (∃ g : Fin 2048, ∃ t : Fin 12, ∃ g2 : Nat, ∃ x : XWord, ∃ ws : List XWord, ∃ s : State, (farEnd g t = some g2) ∧
    (arrayRuns s.hw (g2 / 128) = true) ∧ (onEdge s.hw (g2 / 128) = true) ∧ (s.hw.arr.xq.filter (fun w => w.key = 12
    * g.val + t.val ∧ w.due ≤ s.hw.aclk) = ws ++ [x]) ∧ (ws ≠ [])) :=
  ⟨⟨0, ⟨0, 0, 0, 0, .w 3, .load 0 9 0 .ok (.got (vw 6))⟩, 3, vw 6, landState (⟨0, 0, 0, 0, .w 3, .load 0 9 0 .ok (.got (vw 6))⟩), by decide +kernel⟩,
   ⟨0, ⟨0, 0, 0, 0, .acc 1, .setAcc Accum.zero⟩, 1, Accum.zero, landState (⟨0, 0, 0, 0, .acc 1, .setAcc Accum.zero⟩), by decide +kernel⟩,
   ⟨0, ⟨0, 0, 0, 0, .acc 1, .load 0 9 0 .ok .lost⟩, 1, landState (⟨0, 0, 0, 0, .acc 1, .load 0 9 0 .ok .lost⟩), by decide +kernel⟩,
   ⟨0, ⟨0, 0, 0, 0, .acc 0, .addAcc 2 [1, 2, 3, 4] 0 .truncate false false⟩, 0, 2, [1, 2, 3, 4], 0, .truncate, false, false, landState (⟨0, 0, 0, 0, .acc 0, .addAcc 2 [1, 2, 3, 4] 0 .truncate false false⟩), by decide +kernel⟩,
   ⟨0, ⟨0, 0, 0, 0, .out 0, .word TW.notValid⟩, TW.notValid, landState (⟨0, 0, 0, 0, .out 0, .word TW.notValid⟩), by decide +kernel⟩,
   ⟨0, ⟨0, 0, 0, 0, .out 1, .word TW.notValid⟩, TW.notValid, landState (⟨0, 0, 0, 0, .out 1, .word TW.notValid⟩), by decide +kernel⟩,
   ⟨0, ⟨0, 0, 0, 0, .trough 0 0, .word TW.notValid⟩, 0, 0, TW.notValid, landState (⟨0, 0, 0, 0, .trough 0 0, .word TW.notValid⟩), by decide +kernel⟩,
   ⟨⟨0, 0, 0, 0, .w 3, .load 0 9 0 .ok (.got (vw 6))⟩, 0, 9, 0, .ok, (.got (vw 6)), ⟨by decide, fun _ => by simp⟩⟩,
   ⟨⟨0, 0, 0, 0, .acc 1, .load 0 9 0 .ok (.got (vw 6))⟩, 0, 9, 0, .ok, (.got (vw 6)), 1, by decide +kernel⟩,
   ⟨0, 0, 1, ⟨0, TW.notValid, 0⟩, crossState, by decide +kernel⟩,
   ⟨0, 0, 1, ⟨0, vw 9, 0⟩, [⟨0, TW.notValid, 0⟩], crossTwoState, by decide +kernel⟩⟩

/-- The hypotheses of each clause of StoppedUnitsIssueNothing are met. -/
theorem test_meets_StoppedUnitsIssueNothing :
  (∃ ecc : Ecc, ∃ _k : Fin (fuCommands ecc).length, ∃ g : Fin 2048, ∃ _u : UStep, ∃ s : State, (arrayRuns s.hw (g /
    128) = false)) ∧
  (∃ ecc : Ecc, ∃ _k : Fin (fuCommands ecc).length, ∃ g : Fin 2048, ∃ _u : UStep, ∃ s : State, (arrayRuns s.hw (g /
    128) = true) ∧ (canIssue s.mem (readied s g) g = false)) ∧
  (∃ ecc : Ecc, ∃ k : Fin (fuRows ecc).length, ∃ g : Fin 2048, ∃ u : UStep, ∃ s : State, (arrayRuns s.hw (g / 128) =
    true) ∧ (stepAt s.mem (readied s g) g ≠ (((fuRows ecc).get k).2.1, u))) ∧
  (∃ ecc : Ecc, ∃ k : Fin (fuRows ecc).length, ∃ g : Fin 2048, ∃ u : UStep, ∃ s : State, (StandsAt s g ((fuRows
    ecc).get k).2.1 u) ∧ (((fuRows ecc).get k).2.2.fmts.contains u.fmt.toNat = true) ∧ (gateOpen (gateOf u) (bankOf
    (fu (readied s g) g) (fu (readied s g) g).bank).lix.toNat (fu (readied s g) g).first = false)) ∧
  (∃ ecc : Ecc, ∃ _k : Fin (fuCommands ecc).length, ∃ g : Fin 2048, ∃ _u : UStep, ∃ r : Nat × Bool, ∃ rs : List (Nat
    × Bool), ∃ s : State, (arrayRuns s.hw (g / 128) = true) ∧ (orderDue s.hw (g / 16) = false) ∧ (inCycle s.hw (g /
    128) (pen s.hw (g / 16)).judged = false) ∧ ((pen s.hw (g / 16)).halted = false) ∧ (penRefusals s.mem (judgedNow
    s.hw (g / 16)) (g / 16) = r :: rs)) :=
  ⟨⟨Ecc.ok, (⟨0, by decide⟩ : Fin (fuCommands Ecc.ok).length), 0, ⟨0, 5, 1, 2, 0, 0, 0, 128⟩, State.reset, by decide +kernel⟩,
   ⟨Ecc.ok, (⟨0, by decide⟩ : Fin (fuCommands Ecc.ok).length), 0, ⟨0, 5, 1, 2, 0, 0, 0, 128⟩, upState, by decide +kernel⟩,
   ⟨Ecc.ok, (⟨0, by decide⟩ : Fin (fuRows Ecc.ok).length), 0, ⟨0, 5, 1, 2, 0, 0, 0, 128⟩, fuState, by decide +kernel⟩,
   ⟨Ecc.ok, (⟨0, by decide⟩ : Fin (fuRows Ecc.ok).length), 0, ⟨0, 5, 1, 2, 0, 0, 0, 142⟩, stepState 0 1 ⟨0, 5, 1, 2, 0, 0, 0, 142⟩, by decide +kernel⟩,
   ⟨Ecc.ok, (⟨0, by decide⟩ : Fin (fuCommands Ecc.ok).length), 5, ⟨0, 5, 1, 2, 0, 0, 0, 128⟩, (0, false), [], refusedState, by decide +kernel⟩⟩

/-- The hypotheses of each clause of OperandsAreReadAsSelected are met. -/
theorem test_meets_OperandsAreReadAsSelected :
  (∃ _m : Sparse Byte, ∃ _r : Reading, ∃ _g : Nat, ∃ _u : UStep, ∃ sel : Nat, (sel < 0x10)) ∧
  (∃ _m : Sparse Byte, ∃ r : Reading, ∃ g : Nat, ∃ _u : UStep, ∃ k : Nat, (k < 4) ∧ (follows r.h g (fu r.h g).ctx =
    false)) ∧
  (∃ m : Sparse Byte, ∃ r : Reading, ∃ g : Nat, ∃ _u : UStep, ∃ k : Nat, (k < 4) ∧ (follows r.h g (fu r.h g).ctx =
    true) ∧ ((portWord m r.h g k).ep.toNat ≠ (fu r.h g).ctx)) ∧
  (∃ _m : Sparse Byte, ∃ _r : Reading, ∃ _g : Nat, ∃ _u : UStep, ∃ k : Nat, (k < 2)) ∧
  (∃ _m : Sparse Byte, ∃ r : Reading, ∃ g : Nat, ∃ _u : UStep, ∃ key : Nat, (boundTrough r.h g (fu r.h g).ctx = some
    key)) ∧
  (∃ _m : Sparse Byte, ∃ r : Reading, ∃ g : Nat, ∃ _u : UStep, (boundTrough r.h g (fu r.h g).ctx = none)) ∧
  (∃ _m : Sparse Byte, ∃ _r : Reading, ∃ _g : Nat, ∃ _u : UStep, ∃ sel : Nat, (0x1A ≤ sel)) :=
  ⟨⟨[], noReading, 0, zeroStep, 0xF, by decide +kernel⟩,
   ⟨[], noReading, 0, zeroStep, 3, by decide +kernel⟩,
   ⟨(List.range 10).map fun i => (tileAddr 0 1 0 + i, 0xEE), skewReading, 0, zeroStep, 0, by decide +kernel⟩,
   ⟨[], noReading, 0, zeroStep, 1, by decide +kernel⟩,
   ⟨[], boundReading, 0, zeroStep, 0, by decide +kernel⟩,
   ⟨[], noReading, 0, zeroStep, by decide +kernel⟩,
   ⟨[], noReading, 0, zeroStep, 0x1A, by decide +kernel⟩⟩

/-- The hypotheses of each clause of NarrowingFollowsRoundingAndLimits are met. -/
theorem test_meets_NarrowingFollowsRoundingAndLimits :
  (∃ rnd : Rnd, ∃ _sat : Bool, ∃ n : Nat, ∃ w : Nat, ∃ v : Int, (minOf w ≤ roundShift rnd n v) ∧ (roundShift rnd n v
    ≤ maxOf w)) ∧
  (∃ rnd : Rnd, ∃ n : Nat, ∃ w : Nat, ∃ v : Int, (1 ≤ w) ∧ (maxOf w < roundShift rnd n v)) ∧
  (∃ rnd : Rnd, ∃ n : Nat, ∃ w : Nat, ∃ v : Int, (1 ≤ w) ∧ (roundShift rnd n v < minOf w)) ∧
  (∃ rnd : Rnd, ∃ n : Nat, ∃ w : Nat, ∃ v : Int, (1 ≤ w) ∧ (roundShift rnd n v < minOf w ∨ maxOf w < roundShift rnd
    n v)) :=
  ⟨⟨.halfUp, true, 1, 8, 255 - 2, by decide +kernel⟩,
   ⟨.halfUp, 1, 8, 255, by decide +kernel⟩,
   ⟨.truncate, 1, 8, -257, by decide +kernel⟩,
   ⟨.truncate, 1, 8, -257, by decide +kernel⟩⟩

/-- The hypotheses of each clause of AccumulatorReturnsTheWordWritten are met. -/
theorem test_meets_AccumulatorReturnsTheWordWritten :
  ∃ fmt : Nat, ∃ _w : TW, ∃ _rnd : Rnd, ∃ _sat : Bool, (fmt < 8) ∧ (fmt ≠ 6) :=
  ⟨7, TW.poisoned, .halfUp, true, by decide +kernel⟩

/-- The hypotheses of each clause of LaneSumsAreLimitedAndFlagged are met. -/
theorem test_meets_LaneSumsAreLimitedAndFlagged :
  (∃ _sat : Bool, ∃ _w : Nat, ∃ xs : List Int, ∃ ys : List Int, (xs.length = ys.length)) ∧
  (∃ _sat : Bool, ∃ w : Nat, ∃ t : Int, (minOf w ≤ t) ∧ (t ≤ maxOf w)) ∧
  (∃ w : Nat, ∃ t : Int, (1 ≤ w) ∧ (t < minOf w ∨ maxOf w < t)) ∧
  (∃ w : Nat, ∃ t : Int, (1 ≤ w) ∧ (t < minOf w ∨ maxOf w < t)) ∧
  (∃ g : Fin 2048, ∃ f : Flight, ∃ k : Nat, ∃ fmt : Nat, ∃ vs : List Int, ∃ pe : Int, ∃ rnd : Rnd, ∃ sat : Bool, ∃ p
    : Bool, ∃ s : State, (arrayRuns s.hw (g / 128) = true) ∧ (dueFlights (judgePen s.mem s.hw (g / 16)) g = [f]) ∧
    (f.g = g) ∧ (f.dest = .acc k) ∧ (f.pay = .addAcc fmt vs pe rnd sat p) ∧ (((accOf (bankOf (fu (judgePen s.mem
    s.hw (g / 16)) g) f.bank) k).accumulate fmt vs pe rnd sat p).2 = true)) :=
  ⟨⟨true, 8, [1], [2], by decide +kernel⟩,
   ⟨true, 8, 127, by decide +kernel⟩,
   ⟨8, 128, by decide +kernel⟩,
   ⟨8, -129, by decide +kernel⟩,
   ⟨0, (⟨0, 0, 0, 0, .acc 0, .addAcc 3 [8388608] 0 .truncate true false⟩), 0, 3, [8388608], 0, .truncate, true, false, landState (⟨0, 0, 0, 0, .acc 0, .addAcc 3 [8388608] 0 .truncate true false⟩), by decide +kernel⟩⟩

/-- The hypotheses of each clause of PackedWordsFitTheirFormat are met. -/
theorem test_meets_PackedWordsFitTheirFormat :
  ∃ _rnd : Rnd, ∃ _sh : Nat, ∃ vs : List Int, ∃ _a : Int, (∀ v ∈ vs, v = 0) :=
  ⟨.truncate, 0, [0, 0], 5, by decide +kernel⟩

/-- The hypotheses of each clause of MicroInstructionFieldsAgree are met. -/
theorem test_meets_MicroInstructionFieldsAgree :
  ∃ x : Nat, (x < 2 ^ 64) :=
  ⟨2 ^ 64 - 1, by decide +kernel⟩

/-- The hypotheses of each clause of SwitchesAndLoadsActOnPens are met. -/
theorem test_meets_SwitchesAndLoadsActOnPens :
  (∃ n : Fin 128, ∃ o : SwitchOrder, ∃ os : List SwitchOrder, ∃ c : Nat, ∃ b : Nat, ∃ s : State, ((pen s.hw
    n).orders = o :: os) ∧ (o.d ≤ s.hw.aclk) ∧ ((pen s.hw n).nonres = none) ∧ (arrayRuns s.hw (n / 8) = true) ∧
    (o.ctx = some c) ∧ (bankHolding (pen (stopLoad s.hw n) n) c = some b)) ∧
  (∃ n : Fin 128, ∃ o : SwitchOrder, ∃ os : List SwitchOrder, ∃ c : Nat, ∃ s : State, ((pen s.hw n).orders = o ::
    os) ∧ (o.d ≤ s.hw.aclk) ∧ ((pen s.hw n).nonres = none) ∧ (arrayRuns s.hw (n / 8) = true) ∧ (o.ctx = some c) ∧
    (bankHolding (pen (stopLoad s.hw n) n) c = none)) ∧
  (∃ n : Fin 128, ∃ o : SwitchOrder, ∃ os : List SwitchOrder, ∃ s : State, ((pen s.hw n).orders = o :: os) ∧ (o.d ≤
    s.hw.aclk) ∧ ((pen s.hw n).nonres = none) ∧ (arrayRuns s.hw (n / 8) = true) ∧ (o.ctx = none)) ∧
  (∃ n : Fin 128, ∃ r : NonRes, ∃ b : Nat, ∃ s : State, ((pen s.hw n).nonres = some r) ∧ (r.retry = true) ∧ (r.ready
    ≤ s.hw.aclk) ∧ (arrayRuns s.hw (n / 8) = true) ∧ (chooseVictim s.hw n = some b)) ∧
  (∃ n : Fin 128, ∃ r : NonRes, ∃ s : State, ((pen s.hw n).nonres = some r) ∧ (r.retry = true) ∧ (r.ready ≤
    s.hw.aclk) ∧ (arrayRuns s.hw (n / 8) = true) ∧ (chooseVictim s.hw n = none)) ∧
  (∃ n : Fin 128, ∃ r : NonRes, ∃ _bad : List Nat, ∃ s : State, ((pen s.hw n).nonres = some r) ∧ (r.retry = false) ∧
    (r.ready ≤ s.hw.aclk) ∧ (arrayRuns s.hw (n / 8) = true) ∧ ((∀ o ∈ (pen s.hw n).orders, s.hw.aclk < o.d))) ∧
  (∃ n : Fin 128, ∃ r : NonRes, ∃ _bad : List Nat, ∃ o : SwitchOrder, ∃ s : State, ((pen s.hw n).nonres = some r) ∧
    (r.retry = false) ∧ (r.ready ≤ s.hw.aclk) ∧ (arrayRuns s.hw (n / 8) = true) ∧ (((pen s.hw n).orders.filter fun o
    => o.d ≤ s.hw.aclk).getLast? = some o)) ∧
  (∃ g : Fin 2048, ∃ b : Nat, ∃ k : Nat, ∃ s : State, (epochTarget s.mem s.hw g = some b) ∧ (bankHolding (pen s.hw
    (g / 16)) b = some k)) ∧
  (∃ _n : Fin 128, ∃ _ctx : BitVec 4, ∃ s : State, (Up s)) ∧
  (∃ n : Fin 128, ∃ l : CtxLoad, ∃ _bad : List Nat, ∃ s : State, ((pen s.hw n).load = some l) ∧ (arrayRuns s.hw (n /
    8) = true) ∧ (l.moved = true)) ∧
  (∃ n : Fin 128, ∃ p : Preload, ∃ s : State, ((pen s.hw n).preload = some p) ∧ (arrayRuns s.hw (n / 8) = true) ∧
    (preloadDue s.hw n p = true) ∧ ((startLoad s.mem (setPen s.hw n (withPreload (pen s.hw n) none)) n p.ctx (some
    p.task)).2 = false)) ∧
  (∃ n : Fin 128, ∃ p : Preload, ∃ m : Sparse Byte, ∃ h : Hw, ∃ s : State, ((pen s.hw n).preload = some p) ∧
    (arrayRuns s.hw (n / 8) = true) ∧ (preloadDue s.hw n p = true) ∧ (startLoad s.mem (setPen s.hw n (withPreload
    (pen s.hw n) none)) n p.ctx (some p.task) = ((m, h), true))) ∧
  (∃ _n : Fin 128, ∃ _v : BitVec 64, ∃ s : State, (Up s)) :=
  ⟨⟨0, ⟨some 1, 0, none, 0⟩, [], 1, 2, switchState, by decide +kernel⟩,
   ⟨0, ⟨some 4, 0, none, 0⟩, [], 4, (withPen0 upState { Pen.reset with held := [(2, 1)], orders := [⟨some 4, 0, none, 0⟩] }), by decide +kernel⟩,
   ⟨0, ⟨none, 0, none, 0⟩, [], (withPen0 upState { Pen.reset with halted := false, orders := [⟨none, 0, none, 0⟩] }), by decide +kernel⟩,
   ⟨0, ⟨1, 0, 0, true, none, 0, 0, [], []⟩, 0, nonresState true, by decide +kernel⟩,
   ⟨0, ⟨1, 0, 0, true, none, 0, 0, [], []⟩, pinnedState, by decide +kernel⟩,
   ⟨0, ⟨1, 0, 0, false, none, 0, 0, [], []⟩, [], nonresState false, by decide +kernel⟩,
   ⟨0, ⟨1, 0, 0, false, none, 0, 0, [], []⟩, [], ⟨some 3, 0, none, 0⟩, (withPen0 upState { Pen.reset with nonres := some ⟨1, 0, 0, false, none, 0, 0, [], []⟩, orders := [⟨some 2, 0, none, 0⟩, ⟨some 3, 0, none, 0⟩] }), by decide +kernel⟩,
   ⟨0, 1, 2, epochState, by decide +kernel⟩,
   ⟨0, 1, upState, by decide +kernel⟩,
   ⟨0, ⟨1, 0, none, none, [], []⟩, [], loadingState, by decide +kernel⟩,
   ⟨0, ⟨1, 0, 0, 0⟩, preloadState, by decide +kernel⟩,
   ⟨0, ⟨1, 0, 0, 0⟩, [], (startLoad [] (setPen lockedPreload.hw 0 (withPreload (pen lockedPreload.hw 0) none)) 0 1 (some 0)).1.2, lockedPreload, by decide +kernel⟩,
   ⟨127, 0xFFFFFFFFFFFFFFFF, upState, by decide +kernel⟩⟩

/-- The hypotheses of each clause of ContextLoadsStartOrFailAsR124States are met. -/
theorem test_meets_ContextLoadsStartOrFailAsR124States :
  (∃ n : Fin 128, ∃ _c : Nat, ∃ _p : Option Nat, ∃ s : State, ((pen s.hw n).load ≠ none ∨ (pen s.hw n).nonres ≠
    none)) ∧
  (∃ n : Fin 128, ∃ c : Nat, ∃ _p : Option Nat, ∃ s : State, ((pen s.hw n).load = none) ∧ ((pen s.hw n).nonres =
    none) ∧ ((pen s.hw n).locks.getLsbD c = true)) ∧
  (∃ n : Fin 128, ∃ c : Nat, ∃ _p : Option Nat, ∃ b : Nat, ∃ s : State, ((pen s.hw n).load = none) ∧ ((pen s.hw
    n).nonres = none) ∧ ((pen s.hw n).locks.getLsbD c = false) ∧ (bankHolding (pen s.hw n) c = some b)) ∧
  (∃ n : Fin 128, ∃ c : Nat, ∃ _p : Option Nat, ∃ s : State, ((pen s.hw n).load = none) ∧ ((pen s.hw n).nonres =
    none) ∧ ((pen s.hw n).locks.getLsbD c = false) ∧ (bankHolding (pen s.hw n) c = none) ∧ (chooseVictim (setF s.hw
    (aPEN_CTXLOAD n) fPEN_CTXLOAD_CTX c) n = none)) ∧
  (∃ n : Fin 128, ∃ c : Nat, ∃ _p : Option Nat, ∃ b : Nat, ∃ s : State, ((pen s.hw n).load = none) ∧ ((pen s.hw
    n).nonres = none) ∧ ((pen s.hw n).locks.getLsbD c = false) ∧ (bankHolding (pen s.hw n) c = none) ∧ (chooseVictim
    (setF s.hw (aPEN_CTXLOAD n) fPEN_CTXLOAD_CTX c) n = some b)) ∧
  (∃ n : Fin 128, ∃ b : Nat, ∃ s : State, ((List.range 4).find? (fun b => (lookup (pen s.hw n).held b).isNone &&
    takenBank (pen s.hw n) != some b) = some b)) ∧
  (∃ n : Fin 128, ∃ b : Nat, ∃ s : State, ((∀ k < 4, (lookup (pen s.hw n).held k).isNone = true → takenBank (pen
    s.hw n) = some k)) ∧ (chooseVictim s.hw n = some b)) :=
  ⟨⟨0, 1, none, loadingState, by decide +kernel⟩,
   ⟨0, 1, none, lockedState, by decide +kernel⟩,
   ⟨0, 1, none, 2, switchState, by decide +kernel⟩,
   ⟨0, 1, none, fullPinned, by decide +kernel⟩,
   ⟨0, 1, none, 0, upState, by decide +kernel⟩,
   ⟨0, 0, upState, by decide +kernel⟩,
   ⟨0, 1, fullBanks, by decide +kernel⟩⟩

/-- The hypotheses of each clause of SchedulerCommandsAct are met. -/
theorem test_meets_SchedulerCommandsAct :
  (∃ y : Fin 16, ∃ s : State, (arrayRuns s.hw y = true) ∧ (onEdge s.hw y = true) ∧ (isSet s.hw (aSCH_CTL y)
    fSCH_CTL_EN = true)) ∧
  (∃ gr : Fin 16, ∃ s : State, (isSet s.hw (aCRD_GRP gr) fCRD_GRP_EN = true) ∧ (frozen s.hw = false) ∧
    ((groupMembers s.hw gr) ≠ []) ∧ (groupWhole s.hw gr = true) ∧ ((∀ u ∈ (groupMembers s.hw gr), (task s.hw u.1
    u.2).st = .ready ∧ (sched s.hw u.1).offers.contains u.2 = true ∧ (pensOf (taskMask s.hw u.1 u.2)).filterMap (fun
    q => holderOf s.hw u.1 q) = []))) ∧
  (∃ gr : Fin 16, ∃ s : State, (isSet s.hw (aCRD_GRP gr) fCRD_GRP_EN = true) ∧ (frozen s.hw = false) ∧
    ((groupMembers s.hw gr) ≠ []) ∧ ((∀ u ∈ (groupMembers s.hw gr), (task s.hw u.1 u.2).st = .ready)) ∧ ((∃ u ∈
    (groupMembers s.hw gr), (sched s.hw u.1).offers.contains u.2 = false))) ∧
  (∃ y : Fin 16, ∃ k : Fin 64, ∃ s : State, (Up s) ∧ (taskValid s.hw y k = true) ∧ ((task s.hw y k).st = .idle)) ∧
  (∃ y : Fin 16, ∃ k : Fin 64, ∃ s : State, (Up s) ∧ (taskValid s.hw y k = true) ∧ ((task s.hw y k).st ≠ .idle) ∧
    (isSet s.hw (aSCH_CTL y) fSCH_CTL_EN = true)) ∧
  (∃ y : Fin 16, ∃ k : Fin 64, ∃ s : State, (Up s) ∧ (taskValid s.hw y k = true) ∧ ((task s.hw y k).st ≠ .idle) ∧
    (isSet s.hw (aSCH_CTL y) fSCH_CTL_EN = false)) ∧
  (∃ y : Fin 16, ∃ k : Fin 64, ∃ w1 : Bool, ∃ v : BitVec 64, ∃ s : State, (Up s) ∧ ((task s.hw y k).st = .idle) ∧
    ((w1 = true ∨ taskValid s.hw y k = false ∨ (mergeFields (fieldsOf (if w1 then aSCH_TASK1 y k else aSCH_TASK0 y
    k)) (reg s.hw (if w1 then aSCH_TASK1 y k else aSCH_TASK0 y k)).toNat v.toNat).1 ≠ putField fSCH_TASK0_VALID (reg
    s.hw (aSCH_TASK0 y k)).toNat 0))) ∧
  (∃ y : Fin 16, ∃ k : Fin 64, ∃ w1 : Bool, ∃ v : BitVec 64, ∃ s : State, (Up s) ∧ ((task s.hw y k).st ≠ .idle) ∧
    (isSet s.hw (aSCH_CTL y) fSCH_CTL_EN = true) ∧ ((w1 = true ∨ taskValid s.hw y k = false ∨ (mergeFields (fieldsOf
    (if w1 then aSCH_TASK1 y k else aSCH_TASK0 y k)) (reg s.hw (if w1 then aSCH_TASK1 y k else aSCH_TASK0 y
    k)).toNat v.toNat).1 ≠ putField fSCH_TASK0_VALID (reg s.hw (aSCH_TASK0 y k)).toNat 0))) ∧
  (∃ y : Fin 16, ∃ k : Fin 64, ∃ w1 : Bool, ∃ v : BitVec 64, ∃ s : State, (Up s) ∧ ((task s.hw y k).st ≠ .idle) ∧
    (isSet s.hw (aSCH_CTL y) fSCH_CTL_EN = false) ∧ ((w1 = true ∨ taskValid s.hw y k = false ∨ (mergeFields
    (fieldsOf (if w1 then aSCH_TASK1 y k else aSCH_TASK0 y k)) (reg s.hw (if w1 then aSCH_TASK1 y k else aSCH_TASK0
    y k)).toNat v.toNat).1 ≠ putField fSCH_TASK0_VALID (reg s.hw (aSCH_TASK0 y k)).toNat 0))) ∧
  (∃ s : State, (crdTick s.hw % 2 ^ 29 = 0) ∧ (frozen s.hw = false)) ∧
  (∃ y : Fin 16, ∃ v : BitVec 32, ∃ s : State, (Up s) ∧ ((getF s.hw (aSCH_TRWR y) fSCH_TRWR_WR + 2 ^ 32 - v.toNat) %
    2 ^ 32 ≤ 2 ^ getF s.hw (aSCH_TRSIZE y) fSCH_TRSIZE_LOG2)) ∧
  (∃ y : Fin 16, ∃ v : BitVec 32, ∃ s : State, (Up s) ∧ (2 ^ getF s.hw (aSCH_TRSIZE y) fSCH_TRSIZE_LOG2 < (getF s.hw
    (aSCH_TRWR y) fSCH_TRWR_WR + 2 ^ 32 - v.toNat) % 2 ^ 32)) ∧
  (∃ _y : Fin 16, ∃ _bits : BitVec 8, ∃ s : State, (Up s)) ∧
  (∃ s : State, (Up s)) :=
  ⟨⟨0, schedState, by decide +kernel⟩,
   ⟨0, groupState, by decide +kernel⟩,
   ⟨0, groupWaits, by decide +kernel⟩,
   ⟨0, 0, schedState, by decide +kernel⟩,
   ⟨0, 1, schedState, by decide +kernel⟩,
   ⟨0, 1, (withReg schedState (aSCH_CTL 0) 0), by decide +kernel⟩,
   ⟨15, 63, true, 0x1FFFFFFFF, schedState, by decide +kernel⟩,
   ⟨0, 1, true, 0, schedState, by decide +kernel⟩,
   ⟨0, 1, false, 0, (withReg schedState (aSCH_CTL 0) 0), by decide +kernel⟩,
   ⟨upState, by decide +kernel⟩,
   ⟨0, 0, upState, by decide +kernel⟩,
   ⟨0, 1, upState, by decide +kernel⟩,
   ⟨15, 0xFF, upState, by decide +kernel⟩,
   ⟨upState, by decide +kernel⟩⟩

/-- The hypotheses of each clause of TriggersAndDispatchFollowTheTables are met. -/
theorem test_meets_TriggersAndDispatchFollowTheTables :
  (∃ y : Nat, ∃ k : Nat, ∃ i : Fin 4, ∃ _e : Nat, ∃ _v : Nat, ∃ s : State, (taskValid s.hw y k = true) ∧ (inGroup
    s.hw y k = false) ∧ (isSet s.hw (aSCH_TASK0 y k) fSCH_TASK0_ALL = false) ∧ (getF s.hw (aSCH_TASK0 y k)
    fSCH_TASK0_TRGEN = 2 ^ i.val) ∧ ((task s.hw y k).st = .idle)) ∧
  (∃ y : Nat, ∃ k : Nat, ∃ i : Fin 4, ∃ _e : Nat, ∃ _v : Nat, ∃ s : State, (taskValid s.hw y k = true) ∧ (inGroup
    s.hw y k = false) ∧ (isSet s.hw (aSCH_TASK0 y k) fSCH_TASK0_ALL = false) ∧ (getF s.hw (aSCH_TASK0 y k)
    fSCH_TASK0_TRGEN = 2 ^ i.val) ∧ ((task s.hw y k).st = .running)) ∧
  (∃ y : Nat, ∃ k : Nat, ∃ i : Fin 4, ∃ _e : Nat, ∃ _v : Nat, ∃ s : State, (taskValid s.hw y k = true) ∧ (inGroup
    s.hw y k = false) ∧ (isSet s.hw (aSCH_TASK0 y k) fSCH_TASK0_ALL = false) ∧ (getF s.hw (aSCH_TASK0 y k)
    fSCH_TASK0_TRGEN = 2 ^ i.val) ∧ ((task s.hw y k).st = .ready ∨ (task s.hw y k).st = .pending)) ∧
  (∃ y : Nat, ∃ k : Nat, ∃ _e : Nat, ∃ _v : Nat, ∃ s : State, (taskValid s.hw y k = true) ∧ (inGroup s.hw y k =
    false) ∧ ((task s.hw y k).st = .ready) ∧ (lockedOut s.hw y k = false) ∧ ((∀ q ∈ pensOf (taskMask s.hw y k),
    holderOf s.hw y q = none))) ∧
  (∃ y : Nat, ∃ k : Nat, ∃ _e : Nat, ∃ _v : Nat, ∃ s : State, (taskValid s.hw y k = true) ∧ ((task s.hw y k).st =
    .ready) ∧ (lockedOut s.hw y k = true)) ∧
  (∃ y : Nat, ∃ k : Nat, ∃ _e : Nat, ∃ _v : Nat, ∃ q : Nat, ∃ u : Nat, ∃ s : State, (taskValid s.hw y k = true) ∧
    (inGroup s.hw y k = false) ∧ ((task s.hw y k).st = .ready) ∧ (lockedOut s.hw y k = false) ∧ (q ∈ pensOf
    (taskMask s.hw y k)) ∧ (holderOf s.hw y q = some u) ∧ (taskPrio s.hw y k ≤ taskPrio s.hw y u)) ∧
  (∃ y : Nat, ∃ e : Nat, ∃ v : Nat, ∃ a : Nat, ∃ s : State, (e + 3 ≤ a) ∧ (a ≤ e + 6) ∧ (a % 2 ^ yardShift s.hw y =
    0) ∧ (v + 4 ≤ a)) ∧
  (∃ y : Nat, ∃ e : Nat, ∃ v : Nat, ∃ a : Nat, ∃ s : State, ((∀ c, e + 3 ≤ c → c ≤ e + 6 → c % 2 ^ yardShift s.hw y
    = 0 → c < v + 4)) ∧ (a % 2 ^ yardShift s.hw y = 0) ∧ (v + 4 ≤ a)) :=
  ⟨⟨0, 0, 1, 0, 0, schedState, by decide +kernel⟩,
   ⟨0, 1, 0, 0, 0, schedState, by decide +kernel⟩,
   ⟨0, 2, 3, 0, 0, schedState, by decide +kernel⟩,
   ⟨0, 2, 6, 9, schedState, by decide +kernel⟩,
   ⟨0, 2, 6, 9, lockedSched, by decide +kernel⟩,
   ⟨0, 2, 6, 9, 1, 1, heldSched, by decide +kernel⟩,
   ⟨0, 4, 4, 8, upState, by decide +kernel⟩,
   ⟨0, 0, 4, 8, upState, ⟨fun c h1 h2 _ => by omega, by decide +kernel, by decide⟩⟩⟩

/-- The hypotheses of each clause of ClocksAndSupplyReact are met. -/
theorem test_meets_ClocksAndSupplyReact :
  (∃ s : State, (s.hw.phase ≠ .por) ∧ (s.hw.locked = true) ∧ (isSet s.hw aCLK_STAT fCLK_STAT_REFPRES = true)) ∧
  (∃ s : State, (s.hw.phase ≠ .por) ∧ (s.hw.locked = false) ∧ (isSet s.hw aCLK_STAT fCLK_STAT_REFPRES = true)) ∧
  (∃ _mux : BitVec 5, ∃ s : State, (s.hw.phase ≠ .por)) ∧
  (∃ s : State, (s.hw.phase ≠ .por) ∧ (isSet s.hw aCLK_STAT fCLK_STAT_ROOTHOLD = true) ∧ (isSet s.hw aCLK_CTL
    fCLK_CTL_AUTORELOCK = true)) ∧
  (∃ s : State, (s.hw.phase ≠ .por) ∧ (isSet s.hw aCLK_STAT fCLK_STAT_ROOTHOLD = false ∨ isSet s.hw aCLK_CTL
    fCLK_CTL_AUTORELOCK = false)) ∧
  (∃ s : State, (Up s) ∧ (isSet s.hw aCLK_STAT fCLK_STAT_ROOTHOLD = true) ∧ (isSet s.hw aCLK_STAT fCLK_STAT_REFPRES
    = true)) ∧
  (∃ s : State, (s.hw.phase ≠ .por) ∧ (isSet s.hw aCLK_STAT fCLK_STAT_RELOCKING = true)) ∧
  (∃ _dram : Bool, ∃ s : State, (s.hw.phase ≠ .por) ∧ (isSet s.hw aCLK_STAT fCLK_STAT_REFPRES = true)) ∧
  (∃ _rail : Fin 25, ∃ s : State, (s.hw.phase ≠ .por)) ∧
  (∃ _rail : Fin 25, ∃ s : State, (s.hw.phase ≠ .por)) ∧
  (∃ mv : BitVec 16, ∃ s : State, (s.hw.phase ≠ .por) ∧ (mv.toNat < 2700)) ∧
  (∃ mv : BitVec 16, ∃ s : State, (s.hw.phase ≠ .por) ∧ (5500 < mv.toNat)) :=
  ⟨⟨clkState 1, by decide +kernel⟩,
   ⟨unlocked (clkState 1), by decide +kernel⟩,
   ⟨31, upState, by decide +kernel⟩,
   ⟨clkState 0x1C, by decide +kernel⟩,
   ⟨clkState 0, by decide +kernel⟩,
   ⟨clkState 0x1D, by decide +kernel⟩,
   ⟨clkState 0x3D, by decide +kernel⟩,
   ⟨true, clkState 1, by decide +kernel⟩,
   ⟨24, upState, by decide +kernel⟩,
   ⟨0, upState, by decide +kernel⟩,
   ⟨2699, upState, by decide +kernel⟩,
   ⟨5501, upState, by decide +kernel⟩⟩

/-- The hypotheses of each clause of YardPowerCommandsAct are met. -/
theorem test_meets_YardPowerCommandsAct :
  (∃ y : Fin 16, ∃ s : State, (Up s) ∧ (getF s.hw (aYP_CTL y) fYP_CTL_MODE ≠ 3) ∧ (yardDiv s.hw y ≠ 3)) ∧
  (∃ y : Fin 16, ∃ d : BitVec 2, ∃ s : State, (Up s) ∧ (getF s.hw (aYP_CTL y) fYP_CTL_MODE ≠ 3) ∧ (yardDiv s.hw y =
    d.toNat)) ∧
  (∃ y : Fin 16, ∃ d : BitVec 2, ∃ s : State, (Up s) ∧ (getF s.hw (aYP_CTL y) fYP_CTL_MODE ≠ 3) ∧ (d.toNat ≤ 2) ∧
    (yardDiv s.hw y ≠ d.toNat) ∧ (divFits s.hw y d.toNat = false)) ∧
  (∃ y : Fin 16, ∃ d : BitVec 2, ∃ s : State, (Up s) ∧ (getF s.hw (aYP_CTL y) fYP_CTL_MODE ≠ 3) ∧ (d.toNat ≤ 2) ∧
    (yardDiv s.hw y ≠ d.toNat) ∧ (divFits s.hw y d.toNat = true)) ∧
  (∃ y : Fin 16, ∃ a : Nat, ∃ s : State, ((yardPw s.hw y).divDue = some a) ∧ (frozen s.hw = false) ∧ (s.hw.aclk % 4
    = 0) ∧ (a < s.hw.aclk) ∧ ((yardPw s.hw y).stopped = false)) ∧
  (∃ y : Fin 16, ∃ code : BitVec 8, ∃ s : State, (Up s) ∧ (yardCode s.hw y = code.toNat)) ∧
  (∃ y : Fin 16, ∃ code : BitVec 8, ∃ s : State, (Up s) ∧ (56 < code.toNat) ∧ (yardCode s.hw y ≠ code.toNat)) ∧
  (∃ y : Fin 16, ∃ code : BitVec 8, ∃ s : State, (Up s) ∧ (code.toNat ≤ 56) ∧ (yardCode s.hw y ≠ code.toNat) ∧
    (codeFits s.hw y code.toNat = false)) ∧
  (∃ y : Fin 16, ∃ code : BitVec 8, ∃ s : State, (Up s) ∧ (code.toNat ≤ 56) ∧ (yardCode s.hw y ≠ code.toNat) ∧
    (codeFits s.hw y code.toNat = true)) ∧
  (∃ y : Fin 16, ∃ s : State, (s.hw.phase ≠ .por) ∧ ((yardPw s.hw y).toSleep = false) ∧ ((yardPw s.hw y).slewing =
    true)) ∧
  (∃ y : Fin 16, ∃ s : State, (s.hw.phase ≠ .por) ∧ ((yardPw s.hw y).toSleep = true)) ∧
  (∃ y : Fin 16, ∃ deep : Bool, ∃ s : State, (Up s) ∧ (getF s.hw (aYP_CTL y) fYP_CTL_MODE = 1 + deep.toNat)) ∧
  (∃ y : Fin 16, ∃ deep : Bool, ∃ s : State, (Up s) ∧ (anyHeld s.hw y = true) ∧ (getF s.hw (aYP_CTL y) fYP_CTL_MODE
    ≠ 1 + deep.toNat)) ∧
  (∃ y : Fin 16, ∃ deep : Bool, ∃ s : State, (Up s) ∧ (anyHeld s.hw y = false) ∧ (getF s.hw (aYP_CTL y) fYP_CTL_MODE
    ≠ 1 + deep.toNat) ∧ (getF s.hw (aYP_STAT y) fYP_STAT_MODE = 0) ∧ ((yardPw s.hw y).stopped = false)) ∧
  (∃ y : Fin 16, ∃ deep : Bool, ∃ s : State, (Up s) ∧ (anyHeld s.hw y = false) ∧ (getF s.hw (aYP_CTL y) fYP_CTL_MODE
    ≠ 1 + deep.toNat) ∧ (getF s.hw (aYP_STAT y) fYP_STAT_MODE = 1 + deep.toNat)) ∧
  (∃ y : Fin 16, ∃ s : State, (Up s) ∧ (anyHeld s.hw y = false) ∧ (getF s.hw (aYP_CTL y) fYP_CTL_MODE ≠ 2) ∧ (getF
    s.hw (aYP_STAT y) fYP_STAT_MODE ≠ 2) ∧ ((yardPw s.hw y).stopped = true)) ∧
  (∃ y : Fin 16, ∃ s : State, (Up s) ∧ (anyHeld s.hw y = false) ∧ (getF s.hw (aYP_CTL y) fYP_CTL_MODE ≠ 1) ∧ (getF
    s.hw (aYP_STAT y) fYP_STAT_MODE ≠ 1) ∧ ((yardPw s.hw y).stopped = true)) ∧
  (∃ y : Fin 16, ∃ s : State, ((yardPw s.hw y).want = none ∨ s.hw.aclk % 4 ≠ 0 ∨ anyHeld s.hw y = true ∨ anyLoad
    s.hw y = true ∨ noRequests s.hw y = false)) ∧
  (∃ y : Fin 16, ∃ s : State, ((yardPw s.hw y).want = some 1) ∧ (frozen s.hw = false) ∧ (s.hw.aclk % 4 = 0) ∧
    (anyHeld s.hw y = false) ∧ (anyLoad s.hw y = false) ∧ (noRequests s.hw y = true)) ∧
  (∃ y : Fin 16, ∃ s : State, ((yardPw s.hw y).want = some 2) ∧ (frozen s.hw = false) ∧ (s.hw.aclk % 4 = 0) ∧
    (anyHeld s.hw y = false) ∧ (anyLoad s.hw y = false) ∧ (noRequests s.hw y = true)) ∧
  (∃ y : Fin 16, ∃ s : State, ((yardPw s.hw y).settling = true) ∧ (frozen s.hw = false)) ∧
  (∃ y : Fin 16, ∃ s : State, (Up s) ∧ (getF s.hw (aYP_CTL y) fYP_CTL_MODE ≠ 0) ∧ ((yardPw s.hw y).stopped = true ∨
    (yardPw s.hw y).want ≠ none)) ∧
  (∃ y : Fin 16, ∃ s : State, (Up s) ∧ (getF s.hw (aYP_CTL y) fYP_CTL_MODE ≠ 0) ∧ ((yardPw s.hw y).stopped = false)
    ∧ ((yardPw s.hw y).want = none)) ∧
  (∃ a : Fin 16, ∃ b : Fin 16, ∃ ta : BitVec 13, ∃ tb : BitVec 13, ∃ s : State, ((neighbours a).contains b.val =
    false ∨ yardRuns s.hw a = false ∨ yardRuns s.hw b = false ∨ (ta.toInt - tb.toInt).natAbs ≤ 400)) ∧
  (∃ a : Fin 16, ∃ b : Fin 16, ∃ ta : BitVec 13, ∃ tb : BitVec 13, ∃ s : State, ((neighbours a).contains b.val =
    true) ∧ (yardRuns s.hw a = true) ∧ (yardRuns s.hw b = true) ∧ (400 < (ta.toInt - tb.toInt).natAbs)) :=
  ⟨⟨0, upState, by decide +kernel⟩,
   ⟨0, 0, upState, by decide +kernel⟩,
   ⟨0, 2, upState, by decide +kernel⟩,
   ⟨0, 1, upState, by decide +kernel⟩,
   ⟨0, 3, divideState, by decide +kernel⟩,
   ⟨15, 56, upState, by decide +kernel⟩,
   ⟨15, 57, upState, by decide +kernel⟩,
   ⟨5, 25, upState, by decide +kernel⟩,
   ⟨5, 26, upState, by decide +kernel⟩,
   ⟨0, slewState, by decide +kernel⟩,
   ⟨0, powerState { YardPw.reset with toSleep := true }, by decide +kernel⟩,
   ⟨0, false, withReg upState (aYP_CTL 0) 1, by decide +kernel⟩,
   ⟨0, true, withReg upState (aSCH_PENSTAT 0) 0xFFFFFFFFFFFFFFFF, by decide +kernel⟩,
   ⟨0, false, upState, by decide +kernel⟩,
   ⟨0, true, withReg (powerState { YardPw.reset with stopped := true }) (aYP_STAT 0) 2, by decide +kernel⟩,
   ⟨0, withReg (powerState { YardPw.reset with stopped := true }) (aYP_STAT 0) 1, by decide +kernel⟩,
   ⟨0, withReg (powerState { YardPw.reset with stopped := true }) (aYP_STAT 0) 2, by decide +kernel⟩,
   ⟨0, upState, by decide +kernel⟩,
   ⟨0, wantState 1, by decide +kernel⟩,
   ⟨0, wantState 2, by decide +kernel⟩,
   ⟨0, settleState, by decide +kernel⟩,
   ⟨0, withReg (wantState 1) (aYP_CTL 0) 1, by decide +kernel⟩,
   ⟨0, withReg upState (aYP_CTL 0) 1, by decide +kernel⟩,
   ⟨0, 5, 401, 0, upState, by decide +kernel⟩,
   ⟨0, 4, 401, 0, upState, by decide +kernel⟩⟩

/-- The hypotheses of each clause of AgeingAndMarginCommandsAct are met. -/
theorem test_meets_AgeingAndMarginCommandsAct :
  (∃ y : Fin 16, ∃ s : State, (Up s) ∧ (isSet s.hw (aAG_SLACKMAP y) fAG_SLACKMAP_BUSY = false)) ∧
  (∃ y : Fin 16, ∃ _near : BitVec 32, ∃ _trans : BitVec 32, ∃ _map : BitVec 32, ∃ s : State, (isSet s.hw
    (aAG_SLACKMAP y) fAG_SLACKMAP_BUSY = true) ∧ (frozen s.hw = false) ∧ (yardRuns s.hw y = true) ∧ (monOn s.hw y =
    true)) ∧
  (∃ y : Fin 16, ∃ _near : BitVec 32, ∃ _trans : BitVec 32, ∃ _map : BitVec 32, ∃ s : State, (isSet s.hw
    (aAG_SLACKMAP y) fAG_SLACKMAP_BUSY = true) ∧ (frozen s.hw = false) ∧ (yardRuns s.hw y = false ∨ monOn s.hw y =
    false)) ∧
  (∃ y : Fin 16, ∃ s : State, (Up s) ∧ (isSet s.hw (aAG_STAT y) fAG_STAT_ROBUSY = false) ∧ (monOn s.hw y = true)) ∧
  (∃ y : Fin 16, ∃ _counts : List (BitVec 32 × BitVec 32), ∃ s : State, (isSet s.hw (aAG_STAT y) fAG_STAT_ROBUSY =
    true) ∧ (frozen s.hw = false)) ∧
  (∃ _y : Fin 16, ∃ _ppm : BitVec 32, ∃ s : State, (frozen s.hw = false)) ∧
  (∃ y : Fin 16, ∃ _ws : List SlackWin, ∃ s : State, (fwRuns s.hw = true) ∧ (frozen s.hw = false) ∧ (movedEnough
    s.hw y = false)) ∧
  (∃ y : Fin 16, ∃ why : ReplanWhy, ∃ _ws : List SlackWin, ∃ s : State, (fwRuns s.hw = true) ∧ (frozen s.hw = false)
    ∧ (yardRuns s.hw y = false) ∧ (why ≠ .moved ∨ movedEnough s.hw y = true)) ∧
  (∃ y : Fin 16, ∃ why : ReplanWhy, ∃ ws : List SlackWin, ∃ s : State, (fwRuns s.hw = true) ∧ (frozen s.hw = false)
    ∧ (yardRuns s.hw y = true) ∧ (why ≠ .moved ∨ movedEnough s.hw y = true) ∧ (why ≠ .commanded ∨ triesFullRate s.hw
    y = false) ∧ ((planBody (planNoted s.hw y why) y (why == .daily) ws).2.1 = true)) ∧
  (∃ y : Fin 16, ∃ why : ReplanWhy, ∃ ws : List SlackWin, ∃ s : State, (fwRuns s.hw = true) ∧ (frozen s.hw = false)
    ∧ (yardRuns s.hw y = true) ∧ (why ≠ .moved ∨ movedEnough s.hw y = true) ∧ (why ≠ .commanded ∨ triesFullRate s.hw
    y = false) ∧ ((planBody (planNoted s.hw y why) y (why == .daily) ws).2.1 = false)) ∧
  (∃ y : Fin 16, ∃ _ws : List SlackWin, ∃ s : State, (fwRuns s.hw = true) ∧ (frozen s.hw = false) ∧ (yardRuns s.hw y
    = true) ∧ (triesFullRate s.hw y = true)) ∧
  (∃ _hours : BitVec 32, ∃ s : State, (fwRuns s.hw = true) ∧ (frozen s.hw = false)) :=
  ⟨⟨0, upState, by decide +kernel⟩,
   ⟨0, 1, 65536, 1, agState, by decide +kernel⟩,
   ⟨0, 1, 65536, 1, agSleepState, by decide +kernel⟩,
   ⟨0, agState, by decide +kernel⟩,
   ⟨0, [(1, 2), (3, 4), (5, 6), (7, 8)], withReg upState (aAG_STAT 0) 1, by decide +kernel⟩,
   ⟨0, 80000, upState, by decide +kernel⟩,
   ⟨0, [], agSleepState, by decide +kernel⟩,
   ⟨0, .daily, [], agSleepState, by decide +kernel⟩,
   ⟨0, .daily, [⟨0, 65536⟩, ⟨1, 65536⟩], upState, by decide +kernel⟩,
   ⟨0, .startUp, [⟨1, 65536⟩], upState, by decide +kernel⟩,
   ⟨0, [⟨0, 65536⟩], fallenState, by decide +kernel⟩,
   ⟨2160, upState, by decide +kernel⟩⟩

/-- The hypotheses of each clause of MemoryPortsTroughsAndStreamersAct are met. -/
theorem test_meets_MemoryPortsTroughsAndStreamersAct :
  (∃ n : Fin 128, ∃ k : Fin 8, ∃ p : Nat, ∃ pos : Nat, ∃ w : TW, ∃ ws : List (Nat × TW), ∃ s : State, (arrayRuns
    s.hw ((keyOf n k) / 64) = true) ∧ (orderDue s.hw n = false) ∧ (bufferPort s.hw (keyOf n k) true = some p) ∧
    (lookup s.hw.arr.ports p = some ⟨bufferClass s.hw (keyOf n k) true, k.val, false⟩) ∧ ((trough s.hw (keyOf n
    k)).tail = (pos, w) :: ws)) ∧
  (∃ n : Fin 128, ∃ k : Fin 8, ∃ p : Nat, ∃ pos : Nat, ∃ s : State, (arrayRuns s.hw ((keyOf n k) / 64) = true) ∧
    (orderDue s.hw n = false) ∧ (bufferPort s.hw (keyOf n k) false = some p) ∧ (lookup s.hw.arr.ports p = some
    ⟨bufferClass s.hw (keyOf n k) false, k.val, false⟩) ∧ (refillPos s.hw (keyOf n k) = some pos)) ∧
  (∃ n : Fin 128, ∃ k : Fin 8, ∃ d : Bool, ∃ s : State, (bufferPort s.hw (keyOf n k) d = none ∨ (∀ p, bufferPort
    s.hw (keyOf n k) d = some p → lookup s.hw.arr.ports p ≠ some ⟨bufferClass s.hw (keyOf n k) d, k.val, false⟩))) ∧
  (∃ y : Fin 16, ∃ r : DmaReq, ∃ q : List DmaReq, ∃ es : List Ecc, ∃ s : State, (arrayRuns s.hw y = true) ∧ (getD []
    s.hw.loftDma y = r :: q) ∧ (nextItem (serveWindow (128 + y.val) 64 es s.mem s.hw r).2.2 = none)) ∧
  (∃ y : Fin 16, ∃ r : DmaReq, ∃ q : List DmaReq, ∃ es : List Ecc, ∃ i : Item, ∃ s : State, (arrayRuns s.hw y =
    true) ∧ (getD [] s.hw.loftDma y = r :: q) ∧ (nextItem (serveWindow (128 + y.val) 64 es s.mem s.hw r).2.2 = some
    i)) ∧
  (∃ n : Fin 128, ∃ r : DmaReq, ∃ q : List DmaReq, ∃ es : List Ecc, ∃ st : Nat, ∃ ws : List TW, ∃ h : Hw, ∃ s :
    State, (arrayRuns s.hw (n / 8) = true) ∧ (orderDue s.hw n = false) ∧ (inCycle s.hw (n / 8) (pen s.hw n).dmaAt =
    false) ∧ ((pen s.hw n).dmaTrough = r :: q) ∧ (troughReady s.hw (troughKey (n / 8) r.f) r = true) ∧ ((pen s.hw
    n).dmaLastTrough = false ∨ (∀ x xs, (pen s.hw n).dmaOther = x :: xs → itemReady s.hw n x = false)) ∧
    ((serveTrough s.mem s.hw (troughKey (n / 8) r.f) r es) = (.done st ws, h))) ∧
  (∃ n : Fin 128, ∃ r : DmaReq, ∃ q : List DmaReq, ∃ es : List Ecc, ∃ r1 : DmaReq, ∃ h : Hw, ∃ s : State, (arrayRuns
    s.hw (n / 8) = true) ∧ (orderDue s.hw n = false) ∧ (inCycle s.hw (n / 8) (pen s.hw n).dmaAt = false) ∧ ((pen
    s.hw n).dmaTrough = r :: q) ∧ (troughReady s.hw (troughKey (n / 8) r.f) r = true) ∧ ((pen s.hw n).dmaLastTrough
    = false ∨ (∀ x xs, (pen s.hw n).dmaOther = x :: xs → itemReady s.hw n x = false)) ∧ ((serveTrough s.mem s.hw
    (troughKey (n / 8) r.f) r es) = (.more r1, h))) ∧
  (∃ n : Fin 128, ∃ r : DmaReq, ∃ q : List DmaReq, ∃ es : List Ecc, ∃ s : State, (arrayRuns s.hw (n / 8) = true) ∧
    (orderDue s.hw n = false) ∧ (inCycle s.hw (n / 8) (pen s.hw n).dmaAt = false) ∧ ((pen s.hw n).dmaOther = r :: q)
    ∧ (itemReady s.hw n r = true) ∧ ((pen s.hw n).dmaLastTrough = true ∨ (∀ x xs, (pen s.hw n).dmaTrough = x :: xs →
    troughReady s.hw (troughKey (n / 8) x.f) x = false)) ∧ (nextItem (serveWindow n 64 es s.mem s.hw r).2.2 = none)) ∧
  (∃ n : Fin 128, ∃ r : DmaReq, ∃ q : List DmaReq, ∃ es : List Ecc, ∃ i : Item, ∃ s : State, (arrayRuns s.hw (n / 8)
    = true) ∧ (orderDue s.hw n = false) ∧ (inCycle s.hw (n / 8) (pen s.hw n).dmaAt = false) ∧ ((pen s.hw n).dmaOther
    = r :: q) ∧ (itemReady s.hw n r = true) ∧ ((pen s.hw n).dmaLastTrough = true ∨ (∀ x xs, (pen s.hw n).dmaTrough =
    x :: xs → troughReady s.hw (troughKey (n / 8) x.f) x = false)) ∧ (nextItem (serveWindow n 64 es s.mem s.hw
    r).2.2 = some i)) ∧
  (∃ n : Fin 128, ∃ s : State, (arrayRuns s.hw (n / 8) = true) ∧ (portWaits s.hw n = true) ∧ (s.hw.granted.contains
    n.val = false) ∧ (getF s.hw (aPM_STAT n) fPM_STAT_RUN = 2 ^ 20 - 1)) ∧
  (∃ y : Fin 16, ∃ s : State, (arrayRuns s.hw y = true) ∧ (portWaits s.hw (128 + y) = true) ∧ (s.hw.granted.contains
    (128 + y.val) = false) ∧ (getF s.hw (aLOFT_STAT y) fLOFT_STAT_RUN = 2 ^ 20 - 1)) ∧
  (∃ mem : Fin 144, ∃ s : State, (portWaits s.hw mem = false ∨ s.hw.granted.contains mem.val = true)) ∧
  (∃ n : Fin 128, ∃ st : Fin 2, ∃ _e : Ecc, ∃ s : State, (isSet s.hw (aPS_CTL n st) fPS_CTL_EN = true) ∧ (arrayRuns
    s.hw (n / 8) = true) ∧ (sidesName s.hw n st = false)) ∧
  (∃ n : Fin 128, ∃ st : Fin 2, ∃ _e : Ecc, ∃ s : State, (streamReady s.hw n st = true) ∧ (holdsPort s.hw (loftBank
    (n / 8) (streamWord s.hw n st)).1 true 1 (streamNum n st) = true) ∧ (isSet s.hw (aPS_CTL n st) fPS_CTL_DIR =
    true)) ∧
  (∃ n : Fin 128, ∃ st : Fin 2, ∃ e : Ecc, ∃ s : State, (streamReady s.hw n st = true) ∧ (holdsPort s.hw (loftBank
    (n / 8) (streamWord s.hw n st)).1 false 1 (streamNum n st) = true) ∧ (isSet s.hw (aPS_CTL n st) fPS_CTL_DIR =
    false) ∧ ((readLoftWord s.mem s.hw (n / 8) (streamWord s.hw n st) e).1.v = true) ∧ ((pushFrom (readLoftWord
    s.mem s.hw (n / 8) (streamWord s.hw n st) e).2 (streamTrough s.hw n st) (readLoftWord s.mem s.hw (n / 8)
    (streamWord s.hw n st) e).1).2 = true)) ∧
  (∃ n : Fin 128, ∃ st : Fin 2, ∃ e : Ecc, ∃ s : State, (streamReady s.hw n st = true) ∧ (holdsPort s.hw (loftBank
    (n / 8) (streamWord s.hw n st)).1 false 1 (streamNum n st) = true) ∧ (isSet s.hw (aPS_CTL n st) fPS_CTL_DIR =
    false) ∧ ((readLoftWord s.mem s.hw (n / 8) (streamWord s.hw n st) e).1.v = false)) ∧
  (∃ n : Fin 128, ∃ st : Fin 2, ∃ _e : Ecc, ∃ s : State, (sidesName s.hw n st = true) ∧ (streamReady s.hw n st =
    false ∨ holdsPort s.hw (loftBank (n / 8) (streamWord s.hw n st)).1 (isSet s.hw (aPS_CTL n st) fPS_CTL_DIR) 1
    (streamNum n st) = false)) ∧
  (∃ n : Fin 128, ∃ st : Fin 2, ∃ s : State, (Up s) ∧ (isSet s.hw (aPS_CTL n st) fPS_CTL_EN = false)) ∧
  (∃ n : Fin 128, ∃ k : Fin 8, ∃ e : Ecc, ∃ x : Nat × List TW × Nat, ∃ s : State, (fwdLive s.hw (keyOf n k) = true)
    ∧ ((fwdNext (fwdTake s.mem s.hw (keyOf n k) e).2 (keyOf n k) (fwdTake s.mem s.hw (keyOf n k) e).1).1 = some x)) ∧
  (∃ n : Fin 128, ∃ k : Fin 8, ∃ e : Ecc, ∃ s : State, (fwdLive s.hw (keyOf n k) = true) ∧ ((fwdNext (fwdTake s.mem
    s.hw (keyOf n k) e).2 (keyOf n k) (fwdTake s.mem s.hw (keyOf n k) e).1).1 = none)) ∧
  (∃ h : Hw, ∃ key : Nat, ((trough h key).fwdBuf.length = 8)) ∧
  (∃ h : Hw, ∃ key : Nat, ∃ w : TW, ((trough h key).fwdBuf = []) ∧ ((trough h key).fwdPkt = some (0, w))) ∧
  (∃ n : Fin 128, ∃ k : Fin 8, ∃ c : Nat, ∃ j : Nat, ∃ s : State, (arrayRuns s.hw ((keyOf n k) / 64) = true) ∧ (j =
    min (min c (trough s.hw (keyOf n k)).fwdAcc) (ptrSub (depth s.hw (keyOf n k)) (trough s.hw (keyOf n k)).rp
    (trough s.hw (keyOf n k)).rl)) ∧ (j ≠ 0)) ∧
  (∃ n : Fin 128, ∃ k : Fin 8, ∃ c : Nat, ∃ s : State, (min (min c (trough s.hw (keyOf n k)).fwdAcc) (ptrSub (depth
    s.hw (keyOf n k)) (trough s.hw (keyOf n k)).rp (trough s.hw (keyOf n k)).rl) = 0)) ∧
  (∃ _n : Fin 128, ∃ _k : Fin 8, ∃ s : State, (Up s)) ∧
  (∃ _n : Fin 128, ∃ _k : Fin 8, ∃ _v : BitVec 64, ∃ s : State, (Up s)) ∧
  (∃ h : Hw, ∃ key : Nat, ∃ _v : Nat, (isSet h (aCfg key) fTRG_CFG_EN = true)) ∧
  (∃ _n : Fin 128, ∃ _k : Fin 8, ∃ s : State, (Up s)) ∧
  (∃ n : Fin 128, ∃ k : Fin 8, ∃ wp : Nat, ∃ s : State, (Up s) ∧ (wp = (if (troughNow s.hw (keyOf n k)).isOpen then
    (troughNow s.hw (keyOf n k)).slot else (troughNow s.hw (keyOf n k)).wp))) :=
  ⟨⟨0, 0, 7, 3, vw 9, [], tailState, by decide +kernel⟩,
   ⟨0, 1, 0, 0, refillState, by decide +kernel⟩,
   ⟨0, 0, true, fuState, Or.inl (by decide +kernel)⟩,
   ⟨0, ⟨0, zeroFlit, 0, [], none⟩, [], [], loftDmaState, by decide +kernel⟩,
   ⟨0, loftHeldReq, [], [], (nextItem loftHeldReq).getD ⟨0, [], false⟩, loftHeldState, by decide +kernel⟩,
   ⟨0, ⟨7, zeroFlit, 0, [], none⟩, [⟨7, zeroFlit, 0, [], none⟩], [], 0, [], (serveTrough [] troughDmaState.hw 0 ⟨7, zeroFlit, 0, [], none⟩ []).2, troughDmaState, ⟨by decide +kernel, by decide +kernel, by decide +kernel, by decide +kernel, by decide +kernel, Or.inl (by decide +kernel), by decide +kernel⟩⟩,
   ⟨0, pushReq, [], [], ⟨3, pushFlit, 1, [], none⟩, (serveTrough [] pushState.hw 0 pushReq []).2, pushState, ⟨by decide +kernel, by decide +kernel, by decide +kernel, by decide +kernel, by decide +kernel, Or.inl (by decide +kernel), by decide +kernel⟩⟩,
   ⟨0, ⟨1, zeroFlit, 0, [], none⟩, [], [], penDmaState, ⟨by decide +kernel, by decide +kernel, by decide +kernel, by decide +kernel, by decide +kernel, Or.inr (by intro x xs h; cases h), by decide +kernel⟩⟩,
   ⟨0, twoReads, [], [], ⟨1, [], false⟩, twoReadsState, ⟨by decide +kernel, by decide +kernel, by decide +kernel, by decide +kernel, by decide +kernel, Or.inr (by intro x xs h; cases h), by decide +kernel⟩⟩,
   ⟨0, starvedPen, by decide +kernel⟩,
   ⟨0, starvedLoft, by decide +kernel⟩,
   ⟨0, upState, by decide +kernel⟩,
   ⟨127, 1, .ok, withReg upState (aPS_CTL 127 1) 1, by decide +kernel⟩,
   ⟨0, 0, .ok, streamOutState, by decide +kernel⟩,
   ⟨0, 0, .ok, streamInState, by decide +kernel⟩,
   ⟨0, 0, .ok, streamSkipState, by decide +kernel⟩,
   ⟨0, 0, .ok, portlessState, by decide +kernel⟩,
   ⟨127, 1, upState, by decide +kernel⟩,
   ⟨0, 1, .ok, (3, [vw 4], 1), forwardState, by decide +kernel⟩,
   ⟨0, 1, .ok, forwardEmpty, by decide +kernel⟩,
   ⟨eightHw, 0, by decide +kernel⟩,
   ⟨closeHw, 0, vw 3, by decide +kernel⟩,
   ⟨0, 1, 2, 1, acceptedState, by decide +kernel⟩,
   ⟨0, 1, 2, forwardState, by decide +kernel⟩,
   ⟨127, 7, upState, by decide +kernel⟩,
   ⟨127, 7, 0xFFFFFFFF, upState, by decide +kernel⟩,
   ⟨fuState.hw, 1, 0x55, by decide +kernel⟩,
   ⟨0, 1, fuState, by decide +kernel⟩,
   ⟨0, 1, 1, fuState, by decide +kernel⟩⟩

/-- The hypotheses of each clause of MuckOutRepairsAndTheLedgerIsKept are met. -/
theorem test_meets_MuckOutRepairsAndTheLedgerIsKept :
  (∃ y : Fin 16, ∃ _saved : List Ecc, ∃ s : State, (isSet s.hw aMO_CTL fMO_CTL_EN = true ∨ memTesting s.hw y = true)
    ∧ ((muck s.hw y).holding = false) ∧ (s.hw.yardsUp = true) ∧ (muckClocked s.hw y = true) ∧ (frozen s.hw = false)) ∧
  (∃ y : Fin 16, ∃ _bad : List Nat, ∃ s : State, ((muck s.hw y).holding = true) ∧ (muckClocked s.hw y = true) ∧
    (frozen s.hw = false) ∧ ((muck s.hw y).seg + 1 < passSegs)) ∧
  (∃ y : Fin 16, ∃ _bad : List Nat, ∃ s : State, ((muck s.hw y).holding = true) ∧ (muckClocked s.hw y = true) ∧
    (frozen s.hw = false) ∧ ((muck s.hw y).seg + 1 = passSegs)) ∧
  (∃ i : Nat, ∃ _row : Nat, ∃ _addr : Nat, ∃ j : Nat, ∃ s : State, (freeSpare s.hw i = some j)) ∧
  (∃ i : Nat, ∃ row : Nat, ∃ _addr : Nat, ∃ s : State, (freeSpare s.hw i = none) ∧ (s.hw.badRows.contains (i, row) =
    false) ∧ (64 ≤ s.hw.badRows.length)) ∧
  (∃ i : Nat, ∃ row : Nat, ∃ _addr : Nat, ∃ s : State, (freeSpare s.hw i = none) ∧ (s.hw.badRows.contains (i, row) =
    false) ∧ (s.hw.badRows.length < 64)) ∧
  (∃ i : Nat, ∃ row : Nat, ∃ _addr : Nat, ∃ s : State, (freeSpare s.hw i = none) ∧ (s.hw.badRows.contains (i, row) =
    true)) ∧
  (∃ y : Nat, ∃ mem : Nat, ∃ b : Nat, ∃ j : Nat, ∃ s : State, (isSet s.hw (aRPR_BANK (bankIndex y mem b))
    (fRPR_BANK_FAILED j) = false) ∧ (isSet s.hw (aRPR_BANK (bankIndex y mem b)) (fRPR_BANK_USED j) = true)) ∧
  (∃ cut : Option (Fin 257), ∃ s : State, (fwRuns s.hw = true) ∧ ((∀ k, cut = some k → (ledgerPages s.hw (uidOf
    s.hw)).length < k.val))) ∧
  (∃ k : Fin 257, ∃ s : State, (fwRuns s.hw = true) ∧ (k.val ≤ (ledgerPages s.hw (uidOf s.hw)).length)) :=
  ⟨⟨0, [.ok, .uncorrectable], withReg upState aMO_CTL 1, by decide +kernel⟩,
   ⟨0, [0], muckState, by decide +kernel⟩,
   ⟨0, [], lastSegment, by decide +kernel⟩,
   ⟨0, 5, 80, 0, upState, by decide +kernel⟩,
   ⟨0, 5, 80, fullRepairState, by decide +kernel⟩,
   ⟨0, 5, 80, spentState, by decide +kernel⟩,
   ⟨0, 80, 0, badSpentState, by decide +kernel⟩,
   ⟨0, 0, 0, 0, spentState, by decide +kernel⟩,
   ⟨none, ledgerState, ⟨by decide +kernel, fun _ h => nomatch h⟩⟩,
   ⟨0, ledgerState, by decide +kernel⟩⟩

/-- The hypotheses of each clause of DramControllersAct are met. -/
theorem test_meets_DramControllersAct :
  (∃ chans : List DramChan, ∃ s : State, (s.hw.mode = .startUp) ∧ (s.hw.clocked = true) ∧ (dramSupported chans =
    true)) ∧
  (∃ chans : List DramChan, ∃ s : State, (s.hw.mode = .startUp) ∧ (s.hw.clocked = true) ∧ (dramSupported chans =
    false)) ∧
  (∃ line : BitVec 30, ∃ err : List (Fin 32 × Fin 16), ∃ xs : List Nat, ∃ fixed : Bool, ∃ s : State, (frozen s.hw =
    false) ∧ (lineByte line.toNat < dramEnd s.hw) ∧ (chanHolds s.hw (lineChannel line.toNat) = false) ∧ (chanServes
    s.hw (lineChannel line.toNat) = true) ∧ (rsDecode (codewordOf s.mem line.toNat err) = some (xs, fixed))) ∧
  (∃ line : BitVec 30, ∃ err : List (Fin 32 × Fin 16), ∃ s : State, (frozen s.hw = false) ∧ (lineByte line.toNat <
    dramEnd s.hw) ∧ (chanHolds s.hw (lineChannel line.toNat) = false) ∧ (chanServes s.hw (lineChannel line.toNat) =
    true) ∧ (rsDecode (codewordOf s.mem line.toNat err) = none)) ∧
  (∃ line : BitVec 30, ∃ _err : List (Fin 32 × Fin 16), ∃ s : State, (frozen s.hw = false) ∧ (lineByte line.toNat <
    dramEnd s.hw) ∧ (chanHolds s.hw (lineChannel line.toNat) = false) ∧ (chanServes s.hw (lineChannel line.toNat) =
    false)) ∧
  (∃ line : BitVec 30, ∃ bytes : List Byte, ∃ _err : List (Fin 32 × Fin 16), ∃ s : State, (frozen s.hw = false) ∧
    (lineByte line.toNat < dramEnd s.hw) ∧ (chanHolds s.hw (lineChannel line.toNat) = false) ∧ (chanServes s.hw
    (lineChannel line.toNat) = true) ∧ (bytes.length = 60)) ∧
  (∃ line : BitVec 30, ∃ first : Nat, ∃ bytes : List Byte, ∃ err : List (Fin 32 × Fin 16), ∃ xs : List Nat, ∃ fixed
    : Bool, ∃ s : State, (frozen s.hw = false) ∧ (lineByte line.toNat < dramEnd s.hw) ∧ (chanHolds s.hw (lineChannel
    line.toNat) = false) ∧ (chanServes s.hw (lineChannel line.toNat) = true) ∧ (first + bytes.length ≤ 60) ∧ (1 ≤
    bytes.length) ∧ (bytes.length < 60) ∧ (rsDecode (codewordOf s.mem line.toNat err) = some (xs, fixed))) ∧
  (∃ line : BitVec 30, ∃ first : Nat, ∃ bytes : List Byte, ∃ err : List (Fin 32 × Fin 16), ∃ s : State, (frozen s.hw
    = false) ∧ (lineByte line.toNat < dramEnd s.hw) ∧ (chanHolds s.hw (lineChannel line.toNat) = false) ∧
    (chanServes s.hw (lineChannel line.toNat) = true) ∧ (first + bytes.length ≤ 60) ∧ (1 ≤ bytes.length) ∧
    (bytes.length < 60) ∧ (rsDecode (codewordOf s.mem line.toNat err) = none)) ∧
  (∃ line : BitVec 30, ∃ _w : LineWrite, ∃ _err : List (Fin 32 × Fin 16), ∃ s : State, (frozen s.hw = false) ∧
    (lineByte line.toNat < dramEnd s.hw) ∧ (chanHolds s.hw (lineChannel line.toNat) = false) ∧ (chanServes s.hw
    (lineChannel line.toNat) = false)) ∧
  (∃ line : BitVec 30, ∃ _wr : Option LineWrite, ∃ _err : List (Fin 32 × Fin 16), ∃ s : State, (chanHolds s.hw
    (lineChannel line.toNat) = true)) ∧
  (∃ c : Fin 4, ∃ s : State, (chanLive s.hw c = true) ∧ ((dramCh s.hw c).paused = false)) ∧
  (∃ c : Fin 4, ∃ s : State, (chanLive s.hw c = true) ∧ ((dramCh s.hw c).paused = true)) ∧
  (∃ c : Fin 4, ∃ rs : List (BitVec 8), ∃ v : BitVec 8, ∃ s : State, (chanLive s.hw c = true) ∧ (hottest rs = some
    v) ∧ (bandOf v = .limit)) ∧
  (∃ c : Fin 4, ∃ rs : List (BitVec 8), ∃ v : BitVec 8, ∃ s : State, (chanLive s.hw c = true) ∧ (hottest rs = some
    v) ∧ (bandOf v ≠ .limit) ∧ (isSet s.hw (aDC_STAT c) fDC_STAT_HOTLIM = true) ∧ ((dramCh s.hw c).inRangeRun < 2)) ∧
  (∃ c : Fin 4, ∃ rs : List (BitVec 8), ∃ v : BitVec 8, ∃ s : State, (chanLive s.hw c = true) ∧ (hottest rs = some
    v) ∧ (bandOf v ≠ .limit) ∧ (isSet s.hw (aDC_STAT c) fDC_STAT_HOTLIM = true) ∧ (2 ≤ (dramCh s.hw c).inRangeRun)) ∧
  (∃ c : Fin 4, ∃ rs : List (BitVec 8), ∃ v : BitVec 8, ∃ s : State, (chanLive s.hw c = true) ∧ (hottest rs = some
    v) ∧ (bandOf v = .hot) ∧ (isSet s.hw (aDC_STAT c) fDC_STAT_HOTLIM = false)) ∧
  (∃ c : Fin 4, ∃ rs : List (BitVec 8), ∃ v : BitVec 8, ∃ s : State, (chanLive s.hw c = true) ∧ (hottest rs = some
    v) ∧ (bandOf v = .normal) ∧ (isSet s.hw (aDC_STAT c) fDC_STAT_HOTLIM = false) ∧ ((dramCh s.hw c).hotNext =
    true)) ∧
  (∃ c : Fin 4, ∃ rs : List (BitVec 8), ∃ v : BitVec 8, ∃ s : State, (chanLive s.hw c = true) ∧ (hottest rs = some
    v) ∧ (bandOf v = .normal) ∧ (isSet s.hw (aDC_STAT c) fDC_STAT_HOTLIM = false) ∧ ((dramCh s.hw c).hotNext =
    false)) ∧
  (∃ rs : List (BitVec 8), ∃ v : BitVec 8, (hottest rs = some v)) ∧
  (∃ c : Fin 4, ∃ s : State, (chanLive s.hw c = true) ∧ (isSet s.hw (aDC_STAT c) fDC_STAT_HOTLIM = true) ∧ (getF
    s.hw (aDC_CFG c) fDC_CFG_HOTPOL = 0)) ∧
  (∃ c : Fin 4, ∃ s : State, (chanLive s.hw c = true) ∧ (isSet s.hw (aDC_STAT c) fDC_STAT_HOTLIM = true) ∧ (getF
    s.hw (aDC_CFG c) fDC_CFG_HOTPOL ≠ 0)) ∧
  (∃ c : Fin 4, ∃ s : State, (isSet s.hw (aDC_STAT c) fDC_STAT_HOTLIM = false)) ∧
  (∃ c : Fin 4, ∃ s : State, (chanLive s.hw c = true) ∧ ((dramCh s.hw c).due = false) ∧ ((dramCh s.hw c).paused =
    false)) ∧
  (∃ c : Fin 4, ∃ s : State, (chanLive s.hw c = true) ∧ ((dramCh s.hw c).due = true) ∧ (isSet s.hw (aDC_TRALIGN c)
    fDC_TRALIGN_EN = false ∨ (dramCh s.hw c).strobed = true)) ∧
  (∃ c : Fin 4, ∃ s : State, (isSet s.hw (aDC_TRALIGN c) fDC_TRALIGN_EN = true) ∧ ((dramCh s.hw c).strobed = false)) ∧
  (∃ c : Fin 4, ∃ s : State, (chanLive s.hw c = true) ∧ ((dramCh s.hw c).due = true) ∧ (isSet s.hw (aDC_TRALIGN c)
    fDC_TRALIGN_EN = true) ∧ ((dramCh s.hw c).strobed = false)) ∧
  (∃ c : Fin 4, ∃ drift : BitVec 8, ∃ h : Hw, ∃ s : State, ((dramCh s.hw c).paused = true) ∧ (frozen s.hw = false) ∧
    (h = (if (dramCh s.hw c).waiting = 0 then setDramCh s.hw c (pauseOver (dramCh s.hw c) drift) else setF
    (setDramCh s.hw c (pauseOver (dramCh s.hw c) drift)) (aDC_STAT c) fDC_STAT_HOT2X (dramCh s.hw
    c).hotNext.toNat))) :=
  ⟨⟨List.replicate 4 ⟨true, true, 16, 4, 32, 8, 2, 85333, true⟩, startingState, by decide +kernel⟩,
   ⟨[], startingState, by decide +kernel⟩,
   ⟨0, [(2, 9)], List.replicate 64 0, true, dramState, by decide +kernel⟩,
   ⟨0, [(2, 9), (5, 1), (7, 3)], dramState, by decide +kernel⟩,
   ⟨0, [], dramOffState, by decide +kernel⟩,
   ⟨0, List.replicate 60 7, [(1, 1)], dramState, by decide +kernel⟩,
   ⟨0, 58, [7, 8], [(2, 9)], List.replicate 64 0, true, dramState, by decide +kernel⟩,
   ⟨0, 58, [7, 8], [(2, 9), (5, 1), (7, 3)], dramState, by decide +kernel⟩,
   ⟨0, ⟨0, [1]⟩, [], dramOffState, by decide +kernel⟩,
   ⟨2, none, [], pauseState false true 0, by decide +kernel⟩,
   ⟨3, dramState, by decide +kernel⟩,
   ⟨2, pauseState false true 0, by decide +kernel⟩,
   ⟨0, [9, 31], 31, dramState, by decide +kernel⟩,
   ⟨1, [9], 9, hotState 1, by decide +kernel⟩,
   ⟨1, [9], 9, coolingState, by decide +kernel⟩,
   ⟨0, [3, 12], 12, dramState, by decide +kernel⟩,
   ⟨2, [3, 7], 7, warmState, by decide +kernel⟩,
   ⟨0, [3, 7], 7, dramState, by decide +kernel⟩,
   ⟨[3, 7], 7, by decide +kernel⟩,
   ⟨1, hotState 1, by decide +kernel⟩,
   ⟨1, hotState (1 + 2 ^ fDC_CFG_HOTPOL.lo), by decide +kernel⟩,
   ⟨1, dramState, by decide +kernel⟩,
   ⟨2, dramState, by decide +kernel⟩,
   ⟨2, pauseState true false 0, by decide +kernel⟩,
   ⟨2, pauseState true false (2 ^ fDC_TRALIGN_EN.lo), by decide +kernel⟩,
   ⟨2, pauseState true false (2 ^ fDC_TRALIGN_EN.lo), by decide +kernel⟩,
   ⟨2, 0xF0, setDramCh (pauseState false true 0).hw 2 (pauseOver (dramCh (pauseState false true 0).hw 2) 0xF0), pauseState false true 0, by decide +kernel⟩⟩

/-- The hypotheses of each clause of LineCodeAndPlacementFollowTheSpec are met. -/
theorem test_meets_LineCodeAndPlacementFollowTheSpec :
  (∃ dat : List Nat, (dat.length = 60) ∧ (dat.all (fun x => x < 256) = true)) ∧
  (∃ k : Nat, ∃ b : Nat, (k < 64) ∧ (b < 8)) ∧
  (∃ two : Bool, ∃ a : Fin 1073741824, ∃ b : Fin 1073741824, (linePlace two a = linePlace two b)) :=
  ⟨⟨List.replicate 60 1, by decide +kernel⟩,
   ⟨63, 7, by decide +kernel⟩,
   ⟨true, 1, 1, by decide +kernel⟩⟩

/-- The hypotheses of each clause of TranslationFollowsItsChecks are met. -/
theorem test_meets_TranslationFollowsItsChecks :
  (∃ _va : Nat, ∃ _es : List Ecc, ∃ s : State, (isSet s.hw aTU_CTL fTU_CTL_EN = false ∨ s.hw.dramGib = 0)) ∧
  (∃ _va : Nat, ∃ _es : List Ecc, ∃ s : State, (isSet s.hw aTU_CTL fTU_CTL_EN = true) ∧ (s.hw.dramGib ≠ 0) ∧ ((getF
    s.hw aTU_ROOT fTU_ROOT_BASE) % 10 ≠ 0)) ∧
  (∃ va : Nat, ∃ _es : List Ecc, ∃ s : State, (isSet s.hw aTU_CTL fTU_CTL_EN = true) ∧ (s.hw.dramGib ≠ 0) ∧ ((getF
    s.hw aTU_ROOT fTU_ROOT_BASE) % 10 = 0) ∧ (2 ^ (getF s.hw aTU_ROOT fTU_ROOT_LOG2N) ≤ (va / 2 ^ 21 % 2 ^ 19))) ∧
  (∃ va : Nat, ∃ _es : List Ecc, ∃ s : State, (isSet s.hw aTU_CTL fTU_CTL_EN = true) ∧ (s.hw.dramGib ≠ 0) ∧ ((getF
    s.hw aTU_ROOT fTU_ROOT_BASE) % 10 = 0) ∧ ((va / 2 ^ 21 % 2 ^ 19) < 2 ^ (getF s.hw aTU_ROOT fTU_ROOT_LOG2N)) ∧
    (dramEnd s.hw < (getF s.hw aTU_ROOT fTU_ROOT_BASE) + 10 * 2 ^ (getF s.hw aTU_ROOT fTU_ROOT_LOG2N))) ∧
  (∃ va : Nat, ∃ es : List Ecc, ∃ k : Nat, ∃ s : State, (isSet s.hw aTU_CTL fTU_CTL_EN = true) ∧ (s.hw.dramGib ≠ 0)
    ∧ ((getF s.hw aTU_ROOT fTU_ROOT_BASE) % 10 = 0) ∧ ((va / 2 ^ 21 % 2 ^ 19) < 2 ^ (getF s.hw aTU_ROOT
    fTU_ROOT_LOG2N)) ∧ ((getF s.hw aTU_ROOT fTU_ROOT_BASE) + 10 * 2 ^ (getF s.hw aTU_ROOT fTU_ROOT_LOG2N) ≤ dramEnd
    s.hw) ∧ ((readEntry s.mem (bump s.hw aTU_STAT fTU_STAT_WALKCNT 1) ((getF s.hw aTU_ROOT fTU_ROOT_BASE) + 10 * (va
    / 2 ^ 21 % 2 ^ 19)) (es.getD 0 .ok)).1 = .inl k)) ∧
  (∃ va : Nat, ∃ es : List Ecc, ∃ e : Nat, ∃ s : State, (isSet s.hw aTU_CTL fTU_CTL_EN = true) ∧ (s.hw.dramGib ≠ 0)
    ∧ ((getF s.hw aTU_ROOT fTU_ROOT_BASE) % 10 = 0) ∧ ((va / 2 ^ 21 % 2 ^ 19) < 2 ^ (getF s.hw aTU_ROOT
    fTU_ROOT_LOG2N)) ∧ ((getF s.hw aTU_ROOT fTU_ROOT_BASE) + 10 * 2 ^ (getF s.hw aTU_ROOT fTU_ROOT_LOG2N) ≤ dramEnd
    s.hw) ∧ ((readEntry s.mem (bump s.hw aTU_STAT fTU_STAT_WALKCNT 1) ((getF s.hw aTU_ROOT fTU_ROOT_BASE) + 10 * (va
    / 2 ^ 21 % 2 ^ 19)) (es.getD 0 .ok)).1 = .inr e) ∧ (e.testBit 1 = true) ∧ (e / 2 ^ 8 % 2 ^ 21 = 0) ∧ (e / 2 ^ 8
    + 2 ^ 21 ≤ dramEnd s.hw)) ∧
  (∃ va : Nat, ∃ es : List Ecc, ∃ e : Nat, ∃ s : State, (isSet s.hw aTU_CTL fTU_CTL_EN = true) ∧ (s.hw.dramGib ≠ 0)
    ∧ ((getF s.hw aTU_ROOT fTU_ROOT_BASE) % 10 = 0) ∧ ((va / 2 ^ 21 % 2 ^ 19) < 2 ^ (getF s.hw aTU_ROOT
    fTU_ROOT_LOG2N)) ∧ ((getF s.hw aTU_ROOT fTU_ROOT_BASE) + 10 * 2 ^ (getF s.hw aTU_ROOT fTU_ROOT_LOG2N) ≤ dramEnd
    s.hw) ∧ ((readEntry s.mem (bump s.hw aTU_STAT fTU_STAT_WALKCNT 1) ((getF s.hw aTU_ROOT fTU_ROOT_BASE) + 10 * (va
    / 2 ^ 21 % 2 ^ 19)) (es.getD 0 .ok)).1 = .inr e) ∧ (e.testBit 1 = true) ∧ (e / 2 ^ 8 % 2 ^ 21 ≠ 0)) ∧
  (∃ va : Nat, ∃ es : List Ecc, ∃ e : Nat, ∃ s : State, (isSet s.hw aTU_CTL fTU_CTL_EN = true) ∧ (s.hw.dramGib ≠ 0)
    ∧ ((getF s.hw aTU_ROOT fTU_ROOT_BASE) % 10 = 0) ∧ ((va / 2 ^ 21 % 2 ^ 19) < 2 ^ (getF s.hw aTU_ROOT
    fTU_ROOT_LOG2N)) ∧ ((getF s.hw aTU_ROOT fTU_ROOT_BASE) + 10 * 2 ^ (getF s.hw aTU_ROOT fTU_ROOT_LOG2N) ≤ dramEnd
    s.hw) ∧ ((readEntry s.mem (bump s.hw aTU_STAT fTU_STAT_WALKCNT 1) ((getF s.hw aTU_ROOT fTU_ROOT_BASE) + 10 * (va
    / 2 ^ 21 % 2 ^ 19)) (es.getD 0 .ok)).1 = .inr e) ∧ (e.testBit 1 = true) ∧ (e / 2 ^ 8 % 2 ^ 21 = 0) ∧ (dramEnd
    s.hw < e / 2 ^ 8 + 2 ^ 21)) ∧
  (∃ va : Nat, ∃ es : List Ecc, ∃ e : Nat, ∃ s : State, (isSet s.hw aTU_CTL fTU_CTL_EN = true) ∧ (s.hw.dramGib ≠ 0)
    ∧ ((getF s.hw aTU_ROOT fTU_ROOT_BASE) % 10 = 0) ∧ ((va / 2 ^ 21 % 2 ^ 19) < 2 ^ (getF s.hw aTU_ROOT
    fTU_ROOT_LOG2N)) ∧ ((getF s.hw aTU_ROOT fTU_ROOT_BASE) + 10 * 2 ^ (getF s.hw aTU_ROOT fTU_ROOT_LOG2N) ≤ dramEnd
    s.hw) ∧ ((readEntry s.mem (bump s.hw aTU_STAT fTU_STAT_WALKCNT 1) ((getF s.hw aTU_ROOT fTU_ROOT_BASE) + 10 * (va
    / 2 ^ 21 % 2 ^ 19)) (es.getD 0 .ok)).1 = .inr e) ∧ (e.testBit 1 = false) ∧ (e / 2 ^ 8 % 10 ≠ 0)) ∧
  (∃ va : Nat, ∃ es : List Ecc, ∃ e : Nat, ∃ s : State, (isSet s.hw aTU_CTL fTU_CTL_EN = true) ∧ (s.hw.dramGib ≠ 0)
    ∧ ((getF s.hw aTU_ROOT fTU_ROOT_BASE) % 10 = 0) ∧ ((va / 2 ^ 21 % 2 ^ 19) < 2 ^ (getF s.hw aTU_ROOT
    fTU_ROOT_LOG2N)) ∧ ((getF s.hw aTU_ROOT fTU_ROOT_BASE) + 10 * 2 ^ (getF s.hw aTU_ROOT fTU_ROOT_LOG2N) ≤ dramEnd
    s.hw) ∧ ((readEntry s.mem (bump s.hw aTU_STAT fTU_STAT_WALKCNT 1) ((getF s.hw aTU_ROOT fTU_ROOT_BASE) + 10 * (va
    / 2 ^ 21 % 2 ^ 19)) (es.getD 0 .ok)).1 = .inr e) ∧ (e.testBit 1 = false) ∧ (e / 2 ^ 8 % 10 = 0) ∧ (dramEnd s.hw
    < e / 2 ^ 8 + 5120)) ∧
  (∃ va : Nat, ∃ es : List Ecc, ∃ e : Nat, ∃ k : Nat, ∃ s : State, (isSet s.hw aTU_CTL fTU_CTL_EN = true) ∧
    (s.hw.dramGib ≠ 0) ∧ ((getF s.hw aTU_ROOT fTU_ROOT_BASE) % 10 = 0) ∧ ((va / 2 ^ 21 % 2 ^ 19) < 2 ^ (getF s.hw
    aTU_ROOT fTU_ROOT_LOG2N)) ∧ ((getF s.hw aTU_ROOT fTU_ROOT_BASE) + 10 * 2 ^ (getF s.hw aTU_ROOT fTU_ROOT_LOG2N) ≤
    dramEnd s.hw) ∧ ((readEntry s.mem (bump s.hw aTU_STAT fTU_STAT_WALKCNT 1) ((getF s.hw aTU_ROOT fTU_ROOT_BASE) +
    10 * (va / 2 ^ 21 % 2 ^ 19)) (es.getD 0 .ok)).1 = .inr e) ∧ (e.testBit 1 = false) ∧ (e / 2 ^ 8 % 10 = 0) ∧ (e /
    2 ^ 8 + 5120 ≤ dramEnd s.hw) ∧ ((readEntry s.mem (readEntry s.mem (bump s.hw aTU_STAT fTU_STAT_WALKCNT 1) ((getF
    s.hw aTU_ROOT fTU_ROOT_BASE) + 10 * (va / 2 ^ 21 % 2 ^ 19)) (es.getD 0 .ok)).2 (e / 2 ^ 8 + 10 * (va / 2 ^ 12 %
    512)) (es.getD 1 .ok)).1 = .inl k)) ∧
  (∃ va : Nat, ∃ es : List Ecc, ∃ e : Nat, ∃ e2 : Nat, ∃ s : State, (isSet s.hw aTU_CTL fTU_CTL_EN = true) ∧
    (s.hw.dramGib ≠ 0) ∧ ((getF s.hw aTU_ROOT fTU_ROOT_BASE) % 10 = 0) ∧ ((va / 2 ^ 21 % 2 ^ 19) < 2 ^ (getF s.hw
    aTU_ROOT fTU_ROOT_LOG2N)) ∧ ((getF s.hw aTU_ROOT fTU_ROOT_BASE) + 10 * 2 ^ (getF s.hw aTU_ROOT fTU_ROOT_LOG2N) ≤
    dramEnd s.hw) ∧ ((readEntry s.mem (bump s.hw aTU_STAT fTU_STAT_WALKCNT 1) ((getF s.hw aTU_ROOT fTU_ROOT_BASE) +
    10 * (va / 2 ^ 21 % 2 ^ 19)) (es.getD 0 .ok)).1 = .inr e) ∧ (e.testBit 1 = false) ∧ (e / 2 ^ 8 % 10 = 0) ∧ (e /
    2 ^ 8 + 5120 ≤ dramEnd s.hw) ∧ ((readEntry s.mem (readEntry s.mem (bump s.hw aTU_STAT fTU_STAT_WALKCNT 1) ((getF
    s.hw aTU_ROOT fTU_ROOT_BASE) + 10 * (va / 2 ^ 21 % 2 ^ 19)) (es.getD 0 .ok)).2 (e / 2 ^ 8 + 10 * (va / 2 ^ 12 %
    512)) (es.getD 1 .ok)).1 = .inr e2) ∧ (e2.testBit 1 = false ∨ e2 / 2 ^ 8 % 2 ^ 12 ≠ 0)) ∧
  (∃ va : Nat, ∃ es : List Ecc, ∃ e : Nat, ∃ e2 : Nat, ∃ s : State, (isSet s.hw aTU_CTL fTU_CTL_EN = true) ∧
    (s.hw.dramGib ≠ 0) ∧ ((getF s.hw aTU_ROOT fTU_ROOT_BASE) % 10 = 0) ∧ ((va / 2 ^ 21 % 2 ^ 19) < 2 ^ (getF s.hw
    aTU_ROOT fTU_ROOT_LOG2N)) ∧ ((getF s.hw aTU_ROOT fTU_ROOT_BASE) + 10 * 2 ^ (getF s.hw aTU_ROOT fTU_ROOT_LOG2N) ≤
    dramEnd s.hw) ∧ ((readEntry s.mem (bump s.hw aTU_STAT fTU_STAT_WALKCNT 1) ((getF s.hw aTU_ROOT fTU_ROOT_BASE) +
    10 * (va / 2 ^ 21 % 2 ^ 19)) (es.getD 0 .ok)).1 = .inr e) ∧ (e.testBit 1 = false) ∧ (e / 2 ^ 8 % 10 = 0) ∧ (e /
    2 ^ 8 + 5120 ≤ dramEnd s.hw) ∧ ((readEntry s.mem (readEntry s.mem (bump s.hw aTU_STAT fTU_STAT_WALKCNT 1) ((getF
    s.hw aTU_ROOT fTU_ROOT_BASE) + 10 * (va / 2 ^ 21 % 2 ^ 19)) (es.getD 0 .ok)).2 (e / 2 ^ 8 + 10 * (va / 2 ^ 12 %
    512)) (es.getD 1 .ok)).1 = .inr e2) ∧ (e2.testBit 1 = true) ∧ (e2 / 2 ^ 8 % 2 ^ 12 = 0) ∧ (dramEnd s.hw < e2 / 2
    ^ 8 + 2 ^ 12)) ∧
  (∃ va : Nat, ∃ es : List Ecc, ∃ e : Nat, ∃ e2 : Nat, ∃ s : State, (isSet s.hw aTU_CTL fTU_CTL_EN = true) ∧
    (s.hw.dramGib ≠ 0) ∧ ((getF s.hw aTU_ROOT fTU_ROOT_BASE) % 10 = 0) ∧ ((va / 2 ^ 21 % 2 ^ 19) < 2 ^ (getF s.hw
    aTU_ROOT fTU_ROOT_LOG2N)) ∧ ((getF s.hw aTU_ROOT fTU_ROOT_BASE) + 10 * 2 ^ (getF s.hw aTU_ROOT fTU_ROOT_LOG2N) ≤
    dramEnd s.hw) ∧ ((readEntry s.mem (bump s.hw aTU_STAT fTU_STAT_WALKCNT 1) ((getF s.hw aTU_ROOT fTU_ROOT_BASE) +
    10 * (va / 2 ^ 21 % 2 ^ 19)) (es.getD 0 .ok)).1 = .inr e) ∧ (e.testBit 1 = false) ∧ (e / 2 ^ 8 % 10 = 0) ∧ (e /
    2 ^ 8 + 5120 ≤ dramEnd s.hw) ∧ ((readEntry s.mem (readEntry s.mem (bump s.hw aTU_STAT fTU_STAT_WALKCNT 1) ((getF
    s.hw aTU_ROOT fTU_ROOT_BASE) + 10 * (va / 2 ^ 21 % 2 ^ 19)) (es.getD 0 .ok)).2 (e / 2 ^ 8 + 10 * (va / 2 ^ 12 %
    512)) (es.getD 1 .ok)).1 = .inr e2) ∧ (e2.testBit 1 = true) ∧ (e2 / 2 ^ 8 % 2 ^ 12 = 0) ∧ (e2 / 2 ^ 8 + 2 ^ 12 ≤
    dramEnd s.hw)) ∧
  (∃ a : Nat, ∃ _e : Ecc, ∃ s : State, (isSet s.hw (aDC_CFG (lineChannel (a / 60))) fDC_CFG_EN = false)) ∧
  (∃ a : Nat, ∃ s : State, (isSet s.hw (aDC_CFG (lineChannel (a / 60))) fDC_CFG_EN = true) ∧ (a % 10 = 0)) ∧
  (∃ _va : Nat, ∃ _kind : Nat, ∃ _level : Nat, ∃ _wr : Bool, ∃ _src : Nat, ∃ s : State, (getF s.hw aTU_FAULT
    fTU_FAULT_KIND = 0)) ∧
  (∃ _va : Nat, ∃ _kind : Nat, ∃ _level : Nat, ∃ _wr : Bool, ∃ _src : Nat, ∃ s : State, (getF s.hw aTU_FAULT
    fTU_FAULT_KIND ≠ 0)) ∧
  (∃ va : BitVec 40, ∃ wr : Bool, ∃ src : Fin 40, ∃ _len : Nat, ∃ _es : List Ecc, ∃ s : State, (frozen s.hw = false)
    ∧ ((∀ r ∈ s.hw.noc.walks, awaits r va wr src = false))) ∧
  (∃ va : BitVec 40, ∃ wr : Bool, ∃ src : Fin 40, ∃ _len : Nat, ∃ _es : List Ecc, ∃ r : DmaReq, ∃ q : List DmaReq, ∃
    s : State, (frozen s.hw = false) ∧ (s.hw.noc.walks = r :: q) ∧ (awaits r va wr src = true)) ∧
  (∃ s : State, (Up s)) ∧
  (∃ s : State, (isSet s.hw aTU_INV fTU_INV_BUSY = true) ∧ (frozen s.hw = false)) :=
  ⟨⟨0, [], upState, by decide +kernel⟩,
   ⟨0x200000, [], xlatState 5, by decide +kernel⟩,
   ⟨0x200000, [], xlatState 0, by decide +kernel⟩,
   ⟨0, [], xlatState 0xFFFFFFFFFA, by decide +kernel⟩,
   ⟨0x1234, [.uncorrectable], 2, leafState, by decide +kernel⟩,
   ⟨0x1234, [], 0x2000000F, leafState, by decide +kernel⟩,
   ⟨0x1234, [], 0x10000F, oddLeaf, by decide +kernel⟩,
   ⟨0x1234, [], 0xFFFFE000000F, farLeaf, by decide +kernel⟩,
   ⟨0, [], 0x501, tableTo 5, by decide +kernel⟩,
   ⟨0, [], 0xFFFFFFFFFA01, tableTo 0xFFFFFFFFFA, by decide +kernel⟩,
   ⟨0, [], 0x7801, 2, tableTo 120, by decide +kernel⟩,
   ⟨0, [], 0x7801, 0x500D, twoLevels 0x500D, by decide +kernel⟩,
   ⟨0, [], 0x7801, 0xFFFFFFF0000F, twoLevels 0xFFFFFFF0000F, by decide +kernel⟩,
   ⟨0, [], 0x7801, 0x50000F, twoLevels 0x50000F, by decide +kernel⟩,
   ⟨120, .ok, upState, by decide +kernel⟩,
   ⟨120, dramState, by decide +kernel⟩,
   ⟨16, 4, 0, true, 10, upState, by decide +kernel⟩,
   ⟨16, 4, 0, true, 10, withReg upState aTU_FAULT 0x30000000000, by decide +kernel⟩,
   ⟨0, true, 10, 20, [], upState, by decide +kernel⟩,
   ⟨0, false, 33, 20, [], ⟨0, zeroFlit, 0, [], none⟩, [], walkState, by decide +kernel⟩,
   ⟨upState, by decide +kernel⟩,
   ⟨withReg upState aTU_INV (2 ^ fTU_INV_BUSY.lo), by decide +kernel⟩⟩

/-- The hypotheses of each clause of RequestsArriveAndAreServed are met. -/
theorem test_meets_RequestsArriveAndAreServed :
  (∃ op : Fin 12, ∃ f : Flit, ∃ p : Passage, ∃ _es : List Ecc, ∃ c : Nat, ∃ s : State, (Arrives s op f p) ∧
    (endpointOf f.dst = .dc c) ∧ (acceptsOp (.dc c) op = true) ∧ (DramOpen (arrived s op f p) c) ∧ (restrictedReq
    (arrived s op f p) f = false) ∧ (SpanFits (arrived s op f p) c op f) ∧ (isRead op = true)) ∧
  (∃ op : Fin 12, ∃ f : Flit, ∃ p : Passage, ∃ _es : List Ecc, ∃ c : Nat, ∃ s : State, (Arrives s op f p) ∧
    (endpointOf f.dst = .dc c) ∧ (acceptsOp (.dc c) op = true) ∧ (DramOpen (arrived s op f p) c) ∧ (restrictedReq
    (arrived s op f p) f = false) ∧ (SpanFits (arrived s op f p) c op f) ∧ (isRead op = false) ∧ (f.src = 38 ∨
    hitsStaging (arrived s op f p) (dramSpan op f).1 (dramSpan op f).2 = false)) ∧
  (∃ op : Fin 12, ∃ f : Flit, ∃ p : Passage, ∃ _es : List Ecc, ∃ c : Nat, ∃ s : State, (Arrives s op f p) ∧
    (endpointOf f.dst = .dc c) ∧ (acceptsOp (.dc c) op = true) ∧ (DramOpen (arrived s op f p) c) ∧ (restrictedReq
    (arrived s op f p) f = true)) ∧
  (∃ op : Fin 12, ∃ f : Flit, ∃ p : Passage, ∃ _es : List Ecc, ∃ c : Nat, ∃ s : State, (Arrives s op f p) ∧
    (endpointOf f.dst = .dc c) ∧ (acceptsOp (.dc c) op = true) ∧ (DramOpen (arrived s op f p) c) ∧ (restrictedReq
    (arrived s op f p) f = false) ∧ (¬ SpanFits (arrived s op f p) c op f ∨ (isRead op = false ∧ f.src ≠ 38 ∧
    hitsStaging (arrived s op f p) (dramSpan op f).1 (dramSpan op f).2 = true))) ∧
  (∃ op : Fin 12, ∃ f : Flit, ∃ p : Passage, ∃ _es : List Ecc, ∃ c : Nat, ∃ s : State, (Arrives s op f p) ∧
    (endpointOf f.dst = .dc c) ∧ (acceptsOp (.dc c) op = true) ∧ (¬ DramOpen (arrived s op f p) c)) ∧
  (∃ op : Fin 12, ∃ f : Flit, ∃ p : Passage, ∃ _es : List Ecc, ∃ y : Nat, ∃ s : State, (Arrives s op f p) ∧
    (endpointOf f.dst = .yard y) ∧ (yardTakes (arrived s op f p) y = true) ∧ (3 ≤ op ∧ op ≤ 7) ∧ (f.addr.toNat < 64)
    ∧ (netSide (arrived s op f p) (troughKey y f) op = true)) ∧
  (∃ op : Fin 12, ∃ f : Flit, ∃ p : Passage, ∃ _es : List Ecc, ∃ y : Nat, ∃ s : State, (Arrives s op f p) ∧
    (endpointOf f.dst = .yard y) ∧ (yardTakes (arrived s op f p) y = true) ∧ (3 ≤ op ∧ op ≤ 7) ∧ (f.addr.toNat < 64)
    ∧ (netSide (arrived s op f p) (troughKey y f) op = false)) ∧
  (∃ op : Fin 12, ∃ f : Flit, ∃ p : Passage, ∃ _es : List Ecc, ∃ y : Nat, ∃ s : State, (Arrives s op f p) ∧
    (endpointOf f.dst = .yard y) ∧ (yardTakes (arrived s op f p) y = true) ∧ (3 ≤ op ∧ op ≤ 7) ∧ (64 ≤
    f.addr.toNat)) ∧
  (∃ op : Fin 12, ∃ f : Flit, ∃ p : Passage, ∃ _es : List Ecc, ∃ y : Nat, ∃ mem : Nat, ∃ s : State, (Arrives s op f
    p) ∧ (endpointOf f.dst = .yard y) ∧ (yardTakes (arrived s op f p) y = true) ∧ (op < 3 ∨ 9 < op) ∧ (windowMem op
    f = some mem) ∧ (slotYard mem = y)) ∧
  (∃ op : Fin 12, ∃ f : Flit, ∃ p : Passage, ∃ _es : List Ecc, ∃ y : Nat, ∃ s : State, (Arrives s op f p) ∧
    (endpointOf f.dst = .yard y) ∧ (yardTakes (arrived s op f p) y = true) ∧ (op < 3 ∨ 9 < op) ∧ ((windowMem op
    f).map slotYard ≠ some y)) ∧
  (∃ op : Fin 12, ∃ f : Flit, ∃ p : Passage, ∃ _es : List Ecc, ∃ y : Nat, ∃ s : State, (Arrives s op f p) ∧
    (endpointOf f.dst = .yard y) ∧ (¬ yardTakes (arrived s op f p) y = true) ∧ (¬ (op = 8 ∨ op = 9) ∨
    behindQuarantine (arrived s op f p) f.addr.toNat = false)) ∧
  (∃ op : Fin 12, ∃ f : Flit, ∃ p : Passage, ∃ _es : List Ecc, ∃ s : State, (Arrives s op f p) ∧ (endpointOf f.dst =
    .tu) ∧ (acceptsOp .tu op = true) ∧ (f.addr.toNat % 10 = 0) ∧ (cached (arrived s op f p) f.addr.toNat (10 *
    wordsAsked op f) = false)) ∧
  (∃ op : Fin 12, ∃ f : Flit, ∃ p : Passage, ∃ _es : List Ecc, ∃ s : State, (Arrives s op f p) ∧ (endpointOf f.dst =
    .tu) ∧ (acceptsOp .tu op = true) ∧ (f.addr.toNat % 10 = 0) ∧ (cached (arrived s op f p) f.addr.toNat (10 *
    wordsAsked op f) = true)) ∧
  (∃ op : Fin 12, ∃ f : Flit, ∃ p : Passage, ∃ _es : List Ecc, ∃ s : State, (Arrives s op f p) ∧ (endpointOf f.dst =
    .tu) ∧ (acceptsOp .tu op = true) ∧ (f.addr.toNat % 10 ≠ 0)) ∧
  (∃ op : Fin 12, ∃ f : Flit, ∃ p : Passage, ∃ _es : List Ecc, ∃ s : State, (Arrives s op f p) ∧ (¬ (op = 8 ∨ op =
    9)) ∧ (acceptsOp (endpointOf f.dst) op = false)) ∧
  (∃ op : Fin 12, ∃ f : Flit, ∃ p : Passage, ∃ _es : List Ecc, ∃ s : State, ((arrivePacket s.hw op f p).1.isSome =
    true) ∧ (quarantinedAt (arrived s op f p) f.dst = true)) ∧
  (∃ op : Fin 12, ∃ f : Flit, ∃ p : Passage, ∃ _es : List Ecc, ∃ s : State, (Arrives s op f p) ∧ (op = 8) ∧
    (takesRegs (arrived s op f p) f = true) ∧ (restrictedReq (arrived s op f p) f = false) ∧ (f.addr.toNat <
    bar0Base) ∧ (f.addr.toNat % 8 = 0) ∧ (regExists f.addr.toNat = true) ∧ (f.addr.toNat < 0x1004000000 ∨
    0x1004400000 ≤ f.addr.toNat)) ∧
  (∃ op : Fin 12, ∃ f : Flit, ∃ p : Passage, ∃ _es : List Ecc, ∃ s : State, (Arrives s op f p) ∧ (op = 9) ∧
    (takesRegs (arrived s op f p) f = true) ∧ (restrictedReq (arrived s op f p) f = false) ∧ (f.addr.toNat <
    bar0Base) ∧ (f.addr.toNat % (if f.cnt = 0 then 8 else 4) = 0) ∧ (regExists (f.addr.toNat / 8 * 8) = true)) ∧
  (∃ op : Fin 12, ∃ f : Flit, ∃ p : Passage, ∃ _es : List Ecc, ∃ s : State, (Arrives s op f p) ∧ (op = 8 ∨ op = 9) ∧
    (takesRegs (arrived s op f p) f = true) ∧ (restrictedReq (arrived s op f p) f = true ∨ bar0Base ≤ f.addr.toNat ∨
    f.addr.toNat % (if op = 9 ∧ f.cnt ≠ 0 then 4 else 8) ≠ 0)) ∧
  (∃ op : Fin 12, ∃ f : Flit, ∃ p : Passage, ∃ _es : List Ecc, ∃ s : State, (Arrives s op f p) ∧ (op = 8 ∨ op = 9) ∧
    (takesRegs (arrived s op f p) f = true) ∧ (regExists (f.addr.toNat / 8 * 8) = false) ∧ (f.addr.toNat <
    0x1004000000 ∨ 0x1004400000 ≤ f.addr.toNat)) ∧
  (∃ op : Fin 12, ∃ f : Flit, ∃ p : Passage, ∃ _es : List Ecc, ∃ s : State, (Arrives s op f p) ∧ (op = 8) ∧ (f.dst =
    25) ∧ (takesRegs (arrived s op f p) f = true) ∧ (restrictedReq (arrived s op f p) f = false) ∧ (f.addr.toNat % 8
    = 0) ∧ (0x1004000000 ≤ f.addr.toNat) ∧ (f.addr.toNat < 0x1004400000)) ∧
  (∃ op : Fin 12, ∃ f : Flit, ∃ p : Passage, ∃ _es : List Ecc, ∃ r : RouteFlit, ∃ k : Nat, ∃ s : State,
    ((arrivePacket s.hw op f p).1.isSome = true) ∧ (f.route = some r) ∧ (endpointOf f.dst = .lead k) ∧
    (quarantinedAt (arrived s op f p) f.dst = false)) ∧
  (∃ op : Fin 12, ∃ f : Flit, ∃ p : Passage, ∃ _es : List Ecc, ∃ s : State, ((arrivePacket s.hw op f p).1 = none)) ∧
  (∃ h : Hw, ∃ op : Nat, ∃ f : Flit, ∃ w : NocFly, ∃ g : Hw, (takeWire h op f = some (w, g))) ∧
  (∃ w : List Nat, ∃ _a : Nat, ∃ _b : Nat, ∃ _op : Nat, ∃ _h : Hw, ∃ x : Hop, (w.contains x.router.val = true) ∧
    (x.chk = .uncorrectable)) ∧
  (∃ w : List Nat, ∃ _a : Nat, ∃ _b : Nat, ∃ _op : Nat, ∃ _h : Hw, ∃ x : Hop, (w.contains x.router.val = true) ∧
    (x.chk = .corrected)) ∧
  (∃ bad : BitVec 8, ∃ q : NocReq, ∃ h : Hw, ∃ j : Nat, ∃ o : NocOut, ∃ i : Nat, (outAt h q.f.src ((q.f.rb.toNat +
    j) % 32) = some (o, i)) ∧ (o.cred ≠ 0) ∧ (awaited h q.f.dst q.f.src = []) ∧ (bad.getLsbD j = true)) ∧
  (∃ bad : BitVec 8, ∃ q : NocReq, ∃ h : Hw, ∃ j : Nat, ∃ o : NocOut, ∃ i : Nat, (outAt h q.f.src ((q.f.rb.toNat +
    j) % 32) = some (o, i)) ∧ (o.cred ≠ 0) ∧ (awaited h q.f.dst q.f.src = [(q.f.rb.toNat + j) % 32]) ∧ (bad.getLsbD
    j = true)) :=
  ⟨⟨0, zeroFlit, ⟨[], 0, false⟩, [], 0, sentState 0 (zeroFlit) dramState, by decide +kernel⟩,
   ⟨1, zeroFlit, ⟨[], 0, false⟩, [], 0, sentState 1 (zeroFlit) dramState, by decide +kernel⟩,
   ⟨2, ⟨8, 10, 0, 0, 0, [], none⟩, ⟨[], 0, false⟩, [], 0, sentState 2 (⟨8, 10, 0, 0, 0, [], none⟩) dramState, by decide +kernel⟩,
   ⟨0, ⟨8, 33, 0, 0, 5, [], none⟩, ⟨[], 0, false⟩, [], 0, sentState 0 (⟨8, 33, 0, 0, 5, [], none⟩) dramState, by decide +kernel⟩,
   ⟨0, zeroFlit, ⟨[], 0, false⟩, [], 0, sentState 0 (zeroFlit) pausedState, by decide +kernel⟩,
   ⟨3, ⟨10, 33, 0, 0, 0, [], none⟩, ⟨[], 0, false⟩, [], 0, sentState 3 (⟨10, 33, 0, 0, 0, [], none⟩) netTroughState, by decide +kernel⟩,
   ⟨4, ⟨10, 33, 0, 0, 0, [], none⟩, ⟨[], 0, false⟩, [], 0, sentState 4 (⟨10, 33, 0, 0, 0, [], none⟩) upState, by decide +kernel⟩,
   ⟨7, ⟨10, 33, 0, 0, 64, [], none⟩, ⟨[], 0, false⟩, [], 0, sentState 7 (⟨10, 33, 0, 0, 64, [], none⟩) upState, by decide +kernel⟩,
   ⟨11, ⟨10, 33, 0, 0, BitVec.ofNat 40 (penWord 3 0), List.replicate 8 (vw 1), none⟩, ⟨[], 0, false⟩, [], 0, 3, sentState 11 (⟨10, 33, 0, 0, BitVec.ofNat 40 (penWord 3 0), List.replicate 8 (vw 1), none⟩) upState, by decide +kernel⟩,
   ⟨10, ⟨10, 33, 0, 0, 0, [], none⟩, ⟨[], 0, false⟩, [], 0, sentState 10 (⟨10, 33, 0, 0, 0, [], none⟩) upState, by decide +kernel⟩,
   ⟨9, ⟨10, 33, 0, 0, BitVec.ofNat 40 (aYP_CTL 0), [vw 1], none⟩, ⟨[], 0, false⟩, [], 0, sentState 9 (⟨10, 33, 0, 0, BitVec.ofNat 40 (aYP_CTL 0), [vw 1], none⟩) agSleepState, by decide +kernel⟩,
   ⟨0, ⟨17, 33, 0, 0, 0, [], none⟩, ⟨[], 0, false⟩, [], sentState 0 (⟨17, 33, 0, 0, 0, [], none⟩) dramState, by decide +kernel⟩,
   ⟨0, ⟨17, 33, 0, 0, 0, [], none⟩, ⟨[], 0, false⟩, [], sentState 0 (⟨17, 33, 0, 0, 0, [], none⟩) cachedState, by decide +kernel⟩,
   ⟨1, ⟨17, 33, 0, 0, 5, [], none⟩, ⟨[], 0, false⟩, [], sentState 1 (⟨17, 33, 0, 0, 5, [], none⟩) dramState, by decide +kernel⟩,
   ⟨3, zeroFlit, ⟨[], 0, false⟩, [], sentState 3 (zeroFlit) dramState, by decide +kernel⟩,
   ⟨8, ⟨0, 33, 0, 0, BitVec.ofNat 40 aCLK_CTL, [], none⟩, ⟨[], 0, false⟩, [], sentState 8 (⟨0, 33, 0, 0, BitVec.ofNat 40 aCLK_CTL, [], none⟩) (domState 0x10 0), by decide +kernel⟩,
   ⟨8, ⟨38, 33, 0, 0, BitVec.ofNat 40 aCLK_CTL, [], none⟩, ⟨[], 0, false⟩, [], sentState 8 (⟨38, 33, 0, 0, BitVec.ofNat 40 aCLK_CTL, [], none⟩) upState, by decide +kernel⟩,
   ⟨9, ⟨38, 33, 0, 0, BitVec.ofNat 40 aCLK_CTL, [vw 2], none⟩, ⟨[], 0, false⟩, [], sentState 9 (⟨38, 33, 0, 0, BitVec.ofNat 40 aCLK_CTL, [vw 2], none⟩) upState, by decide +kernel⟩,
   ⟨8, ⟨38, 10, 0, 0, BitVec.ofNat 40 aCLK_CTL, [], none⟩, ⟨[], 0, false⟩, [], sentState 8 (⟨38, 10, 0, 0, BitVec.ofNat 40 aCLK_CTL, [], none⟩) upState, by decide +kernel⟩,
   ⟨9, ⟨38, 33, 0, 0, 68803358720, [], none⟩, ⟨[], 0, false⟩, [], sentState 9 (⟨38, 33, 0, 0, 68803358720, [], none⟩) upState, by decide +kernel⟩,
   ⟨8, ⟨25, 33, 0, 0, 68786585600, [], none⟩, ⟨[], 0, false⟩, [], sentState 8 (⟨25, 33, 0, 0, 68786585600, [], none⟩) upState, by decide +kernel⟩,
   ⟨0, ⟨24, 33, 0, 0, 0, [], some ⟨5, false, 0⟩⟩, ⟨[], 0, false⟩, [], ⟨5, false, 0⟩, 0, sentState 0 (⟨24, 33, 0, 0, 0, [], some ⟨5, false, 0⟩⟩) linkState, by decide +kernel⟩,
   ⟨6, ⟨10, 33, 0, 0, 0, [], none⟩, ⟨[], 1, false⟩, [], sentState 6 (⟨10, 33, 0, 0, 0, [], none⟩) upState, by decide +kernel⟩,
   ⟨(sentState 0 zeroFlit upState).hw, 0, zeroFlit, ⟨⟨0, zeroFlit, .own⟩, [0], false⟩, upNoWire.hw, by decide +kernel⟩,
   ⟨[5], 3, 7, 1, upState.hw, ⟨5, 0, .uncorrectable⟩, by decide +kernel⟩,
   ⟨[5], 3, 7, 1, upState.hw, ⟨5, 0, .corrected⟩, by decide +kernel⟩,
   ⟨1, ⟨0, zeroFlit, .own⟩, (sentState 0 zeroFlit upState).hw, 0, sentOut 0 zeroFlit, 0, by decide +kernel⟩,
   ⟨1, ⟨0, zeroFlit, .own⟩, (setAwaited (sentState 0 zeroFlit upState).hw 8 33 [0]), 0, sentOut 0 zeroFlit, 0, by decide +kernel⟩⟩

/-- The hypotheses of each clause of RequestersSendAndTakeAnswers are met. -/
theorem test_meets_RequestersSendAndTakeAnswers :
  (∃ op : BitVec 4, ∃ f : Flit, ∃ s : State, (frozen s.hw = false) ∧ (op.toNat < 0xC) ∧ (pushHeld s.hw op.toNat f =
    false) ∧ (poolOf s.hw f.dst f.src = 0)) ∧
  (∃ op : BitVec 4, ∃ f : Flit, ∃ s : State, (frozen s.hw = false) ∧ (op.toNat < 0xC) ∧ (pushHeld s.hw op.toNat f =
    false) ∧ (poolOf s.hw f.dst f.src ≠ 0) ∧ (mayPass s.hw (takeQueued s.hw op.toNat f).1 (takeQueued s.hw op.toNat
    f).2.1 = true) ∧ (holdsRoom s.hw (takeQueued s.hw op.toNat f).2.1 = true) ∧ (op ≠ 3 ∨ f.words.any (fun w => w.l)
    = false)) ∧
  (∃ op : BitVec 4, ∃ f : Flit, ∃ j : Nat, ∃ s : State, (frozen s.hw = false) ∧ (op.toNat < 0xC) ∧ (pushHeld s.hw
    op.toNat f = false) ∧ (poolOf s.hw f.dst f.src ≠ 0) ∧ (mayPass s.hw (takeQueued s.hw op.toNat f).1 (takeQueued
    s.hw op.toNat f).2.1 = true) ∧ (holdsRoom s.hw (takeQueued s.hw op.toNat f).2.1 = true) ∧ (endpointOf f.src =
    .jesd j) ∧ ((takeQueued s.hw op.toNat f).2.1.origin ≠ .again) ∧ (op = 3) ∧ (f.words.any (fun w => w.l) = true)) ∧
  (∃ op : BitVec 4, ∃ f : Flit, ∃ s : State, (frozen s.hw = false) ∧ (op.toNat < 0xC) ∧ (pushHeld s.hw op.toNat f =
    false) ∧ (poolOf s.hw f.dst f.src ≠ 0) ∧ (mayPass s.hw (takeQueued s.hw op.toNat f).1 (takeQueued s.hw op.toNat
    f).2.1 = false ∨ holdsRoom s.hw (takeQueued s.hw op.toNat f).2.1 = false) ∧ ((queueOf s.hw f.src).findIdx?
    (sameReq op.toNat f) = none)) ∧
  (∃ op : BitVec 4, ∃ f : Flit, ∃ i : Nat, ∃ s : State, (frozen s.hw = false) ∧ (op.toNat < 0xC) ∧ (pushHeld s.hw
    op.toNat f = false) ∧ (poolOf s.hw f.dst f.src ≠ 0) ∧ (mayPass s.hw (takeQueued s.hw op.toNat f).1 (takeQueued
    s.hw op.toNat f).2.1 = false ∨ holdsRoom s.hw (takeQueued s.hw op.toNat f).2.1 = false) ∧ ((queueOf s.hw
    f.src).findIdx? (sameReq op.toNat f) = some i)) ∧
  (∃ op : BitVec 4, ∃ f : Flit, ∃ s : State, (0xC ≤ op.toNat ∨ pushHeld s.hw op.toNat f = true)) ∧
  (∃ r : Fin 40, ∃ rb : BitVec 5, ∃ p : Passage, ∃ x : NocResp, ∃ h : Hw, ∃ o : NocOut, ∃ i : Nat, ∃ s : State,
    (frozen s.hw = false) ∧ (takeResp s.hw r rb.toNat 0xC p.hops = some (x, true, h)) ∧ (p.bad.getLsbD 0 = false) ∧
    (outAt h r rb.toNat = some (o, i)) ∧ (o.k ≤ (withFlit o i x.status x.words false).got.length) ∧ ((withFlit o i
    x.status x.words false).bad = false)) ∧
  (∃ r : Fin 40, ∃ rb : BitVec 5, ∃ p : Passage, ∃ x : NocResp, ∃ h : Hw, ∃ o : NocOut, ∃ i : Nat, ∃ s : State,
    (frozen s.hw = false) ∧ (takeResp s.hw r rb.toNat 0xC p.hops = some (x, true, h)) ∧ (p.bad.getLsbD 0 = false) ∧
    (outAt h r rb.toNat = some (o, i)) ∧ (o.k ≤ (withFlit o i x.status x.words false).got.length) ∧ ((withFlit o i
    x.status x.words false).bad = true)) ∧
  (∃ r : Fin 40, ∃ rb : BitVec 5, ∃ p : Passage, ∃ x : NocResp, ∃ h : Hw, ∃ o : NocOut, ∃ i : Nat, ∃ s : State,
    (frozen s.hw = false) ∧ (takeResp s.hw r rb.toNat 0xC p.hops = some (x, true, h)) ∧ (p.bad.getLsbD 0 = true) ∧
    (outAt h r rb.toNat = some (o, i)) ∧ (o.req.op = 4 ∨ o.asked.contains i = true) ∧ (o.k ≤ (withFlit o i x.status
    (spoiled true x.words) true).got.length)) ∧
  (∃ r : Fin 40, ∃ rb : BitVec 5, ∃ p : Passage, ∃ x : NocResp, ∃ h : Hw, ∃ o : NocOut, ∃ i : Nat, ∃ s : State,
    (frozen s.hw = false) ∧ (takeResp s.hw r rb.toNat 0xC p.hops = some (x, true, h)) ∧ (p.bad.getLsbD 0 = true) ∧
    (outAt h r rb.toNat = some (o, i)) ∧ (o.req.op ≠ 4) ∧ (o.asked.contains i = false)) ∧
  (∃ r : Fin 40, ∃ rb : BitVec 5, ∃ p : Passage, ∃ x : NocResp, ∃ h : Hw, ∃ o : NocOut, ∃ i : Nat, ∃ b : Bool, ∃ s :
    State, (frozen s.hw = false) ∧ (takeResp s.hw r rb.toNat 0xC p.hops = some (x, true, h)) ∧ (b = p.bad.getLsbD 0)
    ∧ (outAt h r rb.toNat = some (o, i)) ∧ (b = false ∨ o.req.op = 4 ∨ o.asked.contains i = true) ∧ ((withFlit o i
    x.status (spoiled b x.words) b).got.length < o.k)) ∧
  (∃ r : Fin 40, ∃ rb : BitVec 5, ∃ p : Passage, ∃ x : NocResp, ∃ h : Hw, ∃ o : NocOut, ∃ i : Nat, ∃ s : State,
    (frozen s.hw = false) ∧ (takeResp s.hw r rb.toNat 0xD p.hops = some (x, true, h)) ∧ (outAt h r rb.toNat = some
    (o, i))) ∧
  (∃ r : Fin 40, ∃ rb : BitVec 5, ∃ p : Passage, ∃ x : NocResp, ∃ h : Hw, ∃ o : NocOut, ∃ i : Nat, ∃ s : State,
    (frozen s.hw = false) ∧ (takeResp s.hw r rb.toNat 0xE p.hops = some (x, true, h)) ∧ (outAt h r rb.toNat = some
    (o, i)) ∧ (o.asked.contains i = false)) ∧
  (∃ r : Fin 40, ∃ rb : BitVec 5, ∃ p : Passage, ∃ x : NocResp, ∃ h : Hw, ∃ o : NocOut, ∃ i : Nat, ∃ s : State,
    (frozen s.hw = false) ∧ (takeResp s.hw r rb.toNat 0xE p.hops = some (x, true, h)) ∧ (outAt h r rb.toNat = some
    (o, i)) ∧ (o.asked.contains i = true)) ∧
  (∃ r : Fin 40, ∃ rb : BitVec 5, ∃ p : Passage, ∃ x : NocResp, ∃ h : Hw, ∃ s : State, (frozen s.hw = false) ∧
    (takeResp s.hw r rb.toNat 0xC p.hops = some (x, false, h))) ∧
  (∃ r : Fin 40, ∃ rb : BitVec 5, ∃ p : Passage, ∃ x : NocResp, ∃ h : Hw, ∃ s : State, (frozen s.hw = false) ∧
    (takeResp s.hw r rb.toNat 0xD p.hops = some (x, false, h))) ∧
  (∃ r : Fin 40, ∃ rb : BitVec 5, ∃ p : Passage, ∃ x : NocResp, ∃ h : Hw, ∃ s : State, (frozen s.hw = false) ∧
    (takeResp s.hw r rb.toNat 0xE p.hops = some (x, false, h))) ∧
  (∃ r : Fin 40, ∃ rb : BitVec 5, ∃ p : Passage, ∃ x : NocResp, ∃ h : Hw, ∃ s : State, (frozen s.hw = false) ∧
    (takeResp s.hw r rb.toNat 0xC p.hops = some (x, true, h)) ∧ (outAt h r rb.toNat = none)) ∧
  (∃ r : Fin 40, ∃ rb : BitVec 5, ∃ p : Passage, ∃ x : NocResp, ∃ h : Hw, ∃ s : State, (frozen s.hw = false) ∧
    (takeResp s.hw r rb.toNat 0xD p.hops = some (x, true, h)) ∧ (outAt h r rb.toNat = none)) ∧
  (∃ r : Fin 40, ∃ rb : BitVec 5, ∃ p : Passage, ∃ x : NocResp, ∃ h : Hw, ∃ s : State, (frozen s.hw = false) ∧
    (takeResp s.hw r rb.toNat 0xE p.hops = some (x, true, h)) ∧ (outAt h r rb.toNat = none)) ∧
  (∃ r : Fin 40, ∃ rb : BitVec 5, ∃ p : Passage, ∃ s : State, (takeResp s.hw r rb.toNat 0xC p.hops = none)) ∧
  (∃ r : Fin 40, ∃ rb : BitVec 5, ∃ p : Passage, ∃ s : State, (takeResp s.hw r rb.toNat 0xD p.hops = none)) ∧
  (∃ r : Fin 40, ∃ rb : BitVec 5, ∃ p : Passage, ∃ s : State, (takeResp s.hw r rb.toNat 0xE p.hops = none)) ∧
  (∃ _h : Hw, ∃ q : NocReq, ∃ _st : Nat, ∃ _ws : List TW, (q.origin = .own) ∧ (∀ j, endpointOf q.f.src ≠ .jesd j)) ∧
  (∃ _h : Hw, ∃ q : NocReq, ∃ _st : Nat, ∃ _ws : List TW, ∃ key : Nat, ∃ n : Nat, (q.origin = .forwarder key n)) ∧
  (∃ y : Fin 16, ∃ s : State, (yardTakes (wakeDone s.hw y) y = true) ∧ (yardTakes s.hw y = false)) ∧
  (∃ y : Fin 16, ∃ s : State, (yardTakes (wakeDone s.hw y) y = false ∨ yardTakes s.hw y = true)) ∧
  (∃ y : Fin 16, ∃ s : State, ((yardPw s.hw y).wake = true) ∧ ((yardPw s.hw y).stopped = true) ∧ ((yardPw s.hw
    y).settling = false) ∧ (s.hw.aclk % 4 = 0) ∧ (frozen s.hw = false)) :=
  ⟨⟨0, ⟨8, 9, 0, 0, 0, [], none⟩, upState, by decide +kernel⟩,
   ⟨0, zeroFlit, poolState, by decide +kernel⟩,
   ⟨3, ⟨10, 0, 0, 0, 0, [lastWord], none⟩, 0, jesdPoolState, by decide +kernel⟩,
   ⟨0xA, ⟨8, 33, 7, 0, 0, [], none⟩, poolState, by decide +kernel⟩,
   ⟨0xA, ⟨8, 33, 7, 0, 0, [], none⟩, 0, queuedState, by decide +kernel⟩,
   ⟨3, ⟨10, 0, 0, 0, 0, [], none⟩, upState, by decide +kernel⟩,
   ⟨33, 0, ⟨[], 0, false⟩, ⟨33, 0, 8, 0xC, 0, 0, [vw 5], false⟩, (gotResp 0xC (answerState 0) ⟨[], 0, false⟩), sentOut 0 zeroFlit, 0, answerState 0, by decide +kernel⟩,
   ⟨33, 0, ⟨[], 0, false⟩, ⟨33, 0, 8, 0xC, 0, 0, [vw 5], false⟩, (gotResp 0xC (badAnswerState) ⟨[], 0, false⟩), badOut, 0, badAnswerState, by decide +kernel⟩,
   ⟨33, 0, ⟨[], 1, false⟩, ⟨33, 0, 8, 0xC, 0, 0, [vw 5], false⟩, (gotResp 0xC (againState) ⟨[], 1, false⟩), askedOut, 0, againState, by decide +kernel⟩,
   ⟨33, 0, ⟨[], 1, false⟩, ⟨33, 0, 8, 0xC, 0, 0, [vw 5], false⟩, (gotResp 0xC (answerState 0) ⟨[], 1, false⟩), sentOut 0 zeroFlit, 0, answerState 0, by decide +kernel⟩,
   ⟨33, 0, ⟨[], 0, false⟩, ⟨33, 0, 8, 0xC, 0, 0, [vw 5], false⟩, (gotResp 0xC (blockAnswerState) ⟨[], 0, false⟩), sentOut 0xA (blockFlit), 0, false, blockAnswerState, by decide +kernel⟩,
   ⟨33, 0, ⟨[], 1, false⟩, ⟨33, 0, 8, 0xD, 0, 0, [], false⟩, (gotResp 0xD (answerState 1) ⟨[], 1, false⟩), sentOut 1 zeroFlit, 0, answerState 1, by decide +kernel⟩,
   ⟨33, 0, ⟨[], 0, false⟩, ⟨33, 0, 8, 0xE, 0, 0, [], false⟩, (gotResp 0xE (nackState) ⟨[], 0, false⟩), sentOut 1 zeroFlit, 0, nackState, by decide +kernel⟩,
   ⟨33, 0, ⟨[], 0, false⟩, ⟨33, 0, 8, 0xE, 0, 0, [], false⟩, (gotResp 0xE (nackAskedState) ⟨[], 0, false⟩), askedOut, 0, nackAskedState, by decide +kernel⟩,
   ⟨33, 0, ⟨[⟨8, 0, .uncorrectable⟩], 0, false⟩, ⟨33, 0, 8, 0xC, 0, 0, [vw 5], false⟩, (gotResp 0xC (answerState 0) ⟨[⟨8, 0, .uncorrectable⟩], 0, false⟩), answerState 0, by decide +kernel⟩,
   ⟨33, 0, ⟨[⟨8, 0, .uncorrectable⟩], 0, false⟩, ⟨33, 0, 8, 0xD, 0, 0, [], false⟩, (gotResp 0xD (answerState 1) ⟨[⟨8, 0, .uncorrectable⟩], 0, false⟩), answerState 1, by decide +kernel⟩,
   ⟨33, 0, ⟨[⟨8, 0, .uncorrectable⟩], 0, false⟩, ⟨33, 0, 8, 0xE, 0, 0, [], false⟩, (gotResp 0xE (nackState) ⟨[⟨8, 0, .uncorrectable⟩], 0, false⟩), nackState, by decide +kernel⟩,
   ⟨33, 0, ⟨[], 0, false⟩, ⟨33, 0, 8, 0xC, 0, 0, [vw 5], false⟩, (gotResp 0xC (noEntryState 0) ⟨[], 0, false⟩), noEntryState 0, by decide +kernel⟩,
   ⟨33, 0, ⟨[], 0, false⟩, ⟨33, 0, 8, 0xD, 0, 0, [], false⟩, (gotResp 0xD (noEntryState 1) ⟨[], 0, false⟩), noEntryState 1, by decide +kernel⟩,
   ⟨33, 0, ⟨[], 0, false⟩, ⟨33, 0, 8, 0xE, 0, 0, [], false⟩, (gotResp 0xE (noEntryState 2) ⟨[], 0, false⟩), noEntryState 2, by decide +kernel⟩,
   ⟨0, 0, ⟨[], 0, false⟩, upState, by decide +kernel⟩,
   ⟨0, 0, ⟨[], 0, false⟩, upState, by decide +kernel⟩,
   ⟨0, 0, ⟨[], 0, false⟩, upState, by decide +kernel⟩,
   ⟨upState.hw, ⟨0, zeroFlit, .own⟩, 0, [], ⟨rfl, by intro j h; cases h⟩⟩,
   ⟨upState.hw, ⟨3, zeroFlit, .forwarder 0 2⟩, 0, [], 0, 2, by decide +kernel⟩,
   ⟨0, wakeState, by decide +kernel⟩,
   ⟨0, upState, by decide +kernel⟩,
   ⟨0, wakeState, by decide +kernel⟩⟩

/-- The hypotheses of each clause of ChainPacketsActWhereDelivered are met. -/
theorem test_meets_ChainPacketsActWhereDelivered :
  (∃ port : Fin 2, ∃ p : Pkt, ∃ s : State, ((received s port 0 p).1 = true) ∧ (isSet (received s port 0 p).2
    (aLK_STAT port) fLK_STAT_NBFRZ ≠ p.arg.getLsbD 0)) ∧
  (∃ port : Fin 2, ∃ p : Pkt, ∃ s : State, ((received s port 0 p).1 = true) ∧ (isSet (received s port 0 p).2
    (aLK_STAT port) fLK_STAT_NBFRZ = p.arg.getLsbD 0)) ∧
  (∃ port : Fin 2, ∃ p : Pkt, ∃ s : State, ((received s port 3 p).1 = true)) ∧
  (∃ _h : Hw, ∃ arg : Nat, (arg < 2 ^ 18) ∧ (arg % 2 ^ 16 = 1)) ∧
  (∃ port : Fin 2, ∃ p : Pkt, ∃ _low : Bool, ∃ s : State, ((received s port 4 p).1 = true) ∧ (p.arg.getLsbD 1 =
    true)) ∧
  (∃ port : Fin 2, ∃ p : Pkt, ∃ _low : Bool, ∃ s : State, ((received s port 4 p).1 = true) ∧ (p.arg.getLsbD 1 =
    false) ∧ (p.arg.getLsbD 0 = true)) ∧
  (∃ port : Fin 2, ∃ p : Pkt, ∃ _low : Bool, ∃ d : Nat, ∃ s : State, ((received s port 4 p).1 = true) ∧
    (p.arg.getLsbD 1 = false) ∧ (p.arg.getLsbD 0 = false) ∧ (d = (p.words.headD TW.notValid).d.toNat)) ∧
  (∃ port : Fin 2, ∃ p : Pkt, ∃ _low : Bool, ∃ s : State, (s.hw.mode = .frozen) ∧ (s.hw.clocked = true) ∧ (linkUp
    s.hw port = true) ∧ (p.arg.getLsbD 1 = true) ∧ (p.seq = (linkSt s.hw port).rxSeq)) ∧
  (∃ port : Fin 2, ∃ p : Pkt, ∃ s : State, ((received s port 5 p).1 = true)) ∧
  (∃ _h : Hw, ∃ port : Nat, ∃ _a : Nat, (port ≠ 0)) ∧
  (∃ h : Hw, ∃ _a : Nat, (isDev0 h = true) ∧ (h.chain.rolling = true)) ∧
  (∃ h : Hw, (isDev0 h = false)) ∧
  (∃ h : Hw, ∃ a : Nat, (isDev0 h = false) ∧ (a < 63)) ∧
  (∃ port : Fin 2, ∃ p : Pkt, ∃ s : State, ((received s port 6 p).1 = true) ∧ (isDev0 (received s port 6 p).2 =
    true) ∧ ((received s port 6 p).2.chain.rolling = true) ∧ (p.arg.toNat / 64 % 2 = 0)) ∧
  (∃ port : Fin 2, ∃ p : Pkt, ∃ s : State, ((received s port 6 p).1 = true) ∧ (isDev0 (received s port 6 p).2 =
    true) ∧ ((received s port 6 p).2.chain.rolling = true) ∧ (p.arg.toNat / 64 % 2 = 1)) ∧
  (∃ port : Fin 2, ∃ p : Pkt, ∃ s : State, ((received s port 6 p).1 = true) ∧ (isDev0 (received s port 6 p).2 =
    false ∨ (received s port 6 p).2.chain.rolling = false)) ∧
  (∃ port : Fin 2, ∃ p : Pkt, ∃ s : State, ((received s port 7 p).1 = true)) ∧
  (∃ h : Hw, ∃ _port : Nat, ∃ n : Nat, (addressed h = true) ∧ (n < 2 ^ 32)) ∧
  (∃ port : Fin 2, ∃ p : Pkt, ∃ s : State, ((received s port 8 p).1 = true) ∧ (isDev0 (received s port 8 p).2 =
    true)) ∧
  (∃ port : Fin 2, ∃ p : Pkt, ∃ s : State, ((received s port 8 p).1 = true) ∧ (isDev0 (received s port 8 p).2 =
    false)) ∧
  (∃ port : Fin 2, ∃ p : Pkt, ∃ _t1 : Int, ∃ _t2 : Int, ∃ _t3 : Int, ∃ _t4 : Int, ∃ s : State, ((received s port 9
    p).1 = true) ∧ (p.arg.getLsbD 0 = true)) ∧
  (∃ port : Fin 2, ∃ p : Pkt, ∃ _t1 : Int, ∃ _t2 : Int, ∃ _t3 : Int, ∃ _t4 : Int, ∃ s : State, ((received s port 9
    p).1 = true) ∧ (p.arg.getLsbD 0 = false)) ∧
  (∃ port : Fin 2, ∃ p : Pkt, ∃ s : State, ((received s port 0xA p).1 = true)) ∧
  (∃ port : Fin 2, ∃ p : Pkt, ∃ s : State, ((received s port 0xB p).1 = true)) ∧
  (∃ port : Fin 2, ∃ p : Pkt, ∃ s : State, ((received s port 0xC p).1 = true)) ∧
  (∃ h : Hw, ∃ port : Nat, ∃ q : BitVec 8, ((linkSt h port).replay.any (fun e => e.1.p.seq == q) = true) ∧ (((linkSt
    h port).replay.dropWhile (fun e => e.1.p.seq != q)).any (fun e => 8 ≤ e.2) = true)) ∧
  (∃ port : Fin 2, ∃ p : Pkt, ∃ s : State, ((received s port 0xD p).1 = true) ∧ (isDev0 (received s port 0xD p).2 =
    true)) ∧
  (∃ port : Fin 2, ∃ p : Pkt, ∃ s : State, ((received s port 0xD p).1 = true) ∧ (isDev0 (received s port 0xD p).2 =
    false)) :=
  ⟨⟨1, pktOf 0xFD 1, linkState, by decide +kernel⟩,
   ⟨1, pktOf 0xFD 0, linkState, by decide +kernel⟩,
   ⟨1, pktOf 0xFD 3, addressedState, by decide +kernel⟩,
   ⟨upState.hw, 0x20001, by decide +kernel⟩,
   ⟨1, pktOf 0xFD 2, false, addressedState, by decide +kernel⟩,
   ⟨1, pktOf 0xFD 1, false, addressedState, by decide +kernel⟩,
   ⟨1, withWords (pktOf 0xFD 0) [vw 5], false, 5, addressedState, by decide +kernel⟩,
   ⟨1, pktOf 0xFD 2, false, inFrozen linkState, by decide +kernel⟩,
   ⟨0, pktOf 0xFD 2, linkState, by decide +kernel⟩,
   ⟨upState.hw, 1, 5, by decide +kernel⟩,
   ⟨rollingState.hw, 5, by decide +kernel⟩,
   ⟨linkState.hw, by decide +kernel⟩,
   ⟨linkState.hw, 2, by decide +kernel⟩,
   ⟨1, pktOf 0xFD 2, rollingState, by decide +kernel⟩,
   ⟨1, pktOf 0xFD 127, rollingState, by decide +kernel⟩,
   ⟨1, pktOf 0xFD 2, linkState, by decide +kernel⟩,
   ⟨1, pktOf 0xFD 2, addressedState, by decide +kernel⟩,
   ⟨addressedState.hw, 1, 7, by decide +kernel⟩,
   ⟨1, pktOf 0xFD 2, rollingState, by decide +kernel⟩,
   ⟨1, pktOf 0xFD 2, addressedState, by decide +kernel⟩,
   ⟨1, pktOf 0xFD 1, 0, 5, 9, 20, linkState, by decide +kernel⟩,
   ⟨1, pktOf 0xFD 0, 0, 5, 9, 20, linkState, by decide +kernel⟩,
   ⟨1, pktOf 0xFF 0x81, linkState, by decide +kernel⟩,
   ⟨1, pktOf 0xFD 0, linkState, by decide +kernel⟩,
   ⟨1, pktOf 0xFD 0, linkState, by decide +kernel⟩,
   ⟨eightHwLink.hw, 1, 0, by decide +kernel⟩,
   ⟨1, pktOf 0 0, rollingState, by decide +kernel⟩,
   ⟨1, pktOf 0xFD 0, addressedState, by decide +kernel⟩⟩

/-- The hypotheses of each clause of ChainReceptionAndRequestsFollowTheRules are met. -/
theorem test_meets_ChainReceptionAndRequestsFollowTheRules :
  (∃ k : Fin 15, ∃ port : Fin 2, ∃ p : Pkt, ∃ ok : Bool, ∃ _low : Bool, ∃ _t : Int × Int × Int × Int, ∃ s : State,
    (s.hw.clocked = true) ∧ (linkUp s.hw port = true) ∧ (s.hw.mode ≠ .frozen) ∧ (ok = false ∨ badPkt k p = true ∨
    (reliable k = true ∧ p.seq ≠ (linkSt s.hw port).rxSeq))) ∧
  (∃ p : Pkt, ∃ k : Nat, (p.rsv = true ∨ k = 0xF ∨ ((k = 1 ∨ k = 2) ∧ p.op = 0xF) ∨ 64 < p.words.length ∨ (0x40 ≤
    p.tgt.toNat ∧ p.tgt.toNat ≤ 0xFC) ∨ 3 < p.rstat.toNat)) ∧
  (∃ _k : Fin 15, ∃ port : Fin 2, ∃ _p : Pkt, ∃ _ok : Bool, ∃ _low : Bool, ∃ _t : Int × Int × Int × Int, ∃ s :
    State, (s.hw.clocked = false ∨ linkUp s.hw port = false)) ∧
  (∃ k : Fin 15, ∃ port : Fin 2, ∃ p : Pkt, ∃ ok : Bool, ∃ _low : Bool, ∃ _t : Int × Int × Int × Int, ∃ s : State,
    (s.hw.mode = .frozen) ∧ (k ≠ 4 ∨ p.arg.getLsbD 1 = false ∨ ok = false ∨ p.seq ≠ (linkSt s.hw port).rxSeq)) ∧
  (∃ k : Fin 15, ∃ port : Fin 2, ∃ p : Pkt, ∃ _low : Bool, ∃ _t : Int × Int × Int × Int, ∃ s : State, ((received s
    port k p).1 = false)) ∧
  (∃ p : Pkt, ∃ _k : Nat, ∃ h : Hw, (p.tgt.toNat < 0xFD) ∧ (p.tgt.toNat ≠ ownAddr h)) ∧
  (∃ p : Pkt, ∃ _k : Nat, ∃ h : Hw, (p.tgt = 0xFF) ∧ (addressed h = true) ∧ (p.sdev.toNat = ownAddr h)) ∧
  (∃ _p : Pkt, ∃ k : Nat, ∃ h : Hw, (addressed h = false) ∧ (k = 1 ∨ k = 3 ∨ k = 4)) ∧
  (∃ port : Fin 2, ∃ p : Pkt, ∃ s : State, ((received s port 1 p).1 = true)) ∧
  (∃ _port : Fin 2, ∃ p : Pkt, ∃ s : State, (s.hw.mode = .isolated ∨ 0xC ≤ p.op.toNat)) ∧
  (∃ _port : Fin 2, ∃ p : Pkt, ∃ s : State, (s.hw.mode ≠ .isolated) ∧ (p.op.toNat < 0xC) ∧ (poolHere s.hw
    p.sdev.toNat ≤ getD 0 s.hw.chain.poolUsed p.sdev.toNat)) ∧
  (∃ _port : Fin 2, ∃ p : Pkt, ∃ s : State, (s.hw.mode ≠ .isolated) ∧ (p.op.toNat < 0xC) ∧ (getD 0
    s.hw.chain.poolUsed p.sdev.toNat < poolHere s.hw p.sdev.toNat)) ∧
  (∃ port : Fin 2, ∃ p : Pkt, ∃ c : FwdCmd, ∃ s : State, ((rxPacket s.hw port ⟨1, p, some c, none, false⟩ true).1 =
    true)) ∧
  (∃ port : Fin 2, ∃ p : Pkt, ∃ c : FwdCmd, ∃ s : State, ((rxPacket s.hw port ⟨1, p, some c, none, false⟩ true).1 =
    false)) ∧
  (∃ port : Fin 2, ∃ p : Pkt, ∃ i : Nat, ∃ d : Nat, ∃ op : Nat, ∃ f : Flit, ∃ sl : Option Nat, ∃ s : State,
    ((received s port 2 p).1 = true) ∧ (p.src.val ≠ 38 ∨ forwardEntry (received s port 2 p).2 p.sdev.toNat
    (p.rb.toNat % 16) = none) ∧ (outFor (received s port 2 p).2 p.sdev.toNat p.src p.rb.toNat = some (i, ⟨d, op,
    some f, sl⟩))) ∧
  (∃ port : Fin 2, ∃ p : Pkt, ∃ s : State, ((received s port 2 p).1 = true) ∧ (p.src.val ≠ 38 ∨ forwardEntry
    (received s port 2 p).2 p.sdev.toNat (p.rb.toNat % 16) = none) ∧ (outFor (received s port 2 p).2 p.sdev.toNat
    p.src p.rb.toNat = none)) ∧
  (∃ port : Fin 2, ∃ p : Pkt, ∃ i : Nat, ∃ o : ChOut, ∃ sl : Nat, ∃ s : State, ((received s port 2 p).1 = true) ∧
    (p.src.val = 38) ∧ (forwardEntry (received s port 2 p).2 p.sdev.toNat (p.rb.toNat % 16) = some (i, o, sl))) ∧
  (∃ port : Fin 2, ∃ p : Pkt, ∃ a : FwdAns, ∃ s : State, ((rxPacket s.hw port ⟨2, p, none, some a, false⟩ true).1 =
    true)) ∧
  (∃ port : Fin 2, ∃ p : Pkt, ∃ a : FwdAns, ∃ s : State, ((rxPacket s.hw port ⟨2, p, none, some a, false⟩ true).1 =
    false)) ∧
  (∃ port : Fin 2, ∃ p : Pkt, ∃ _c : Option FwCheck, ∃ s : State, ((received s port 0xE p).1 = true) ∧ (port ≠ 0 ∨
    fwWhole (takeFw (received s port 0xE p).2 port (p.arg.toNat % 2 ^ 32) p.words) (p.arg.toNat % 2 ^ 32) p.words =
    false)) ∧
  (∃ port : Fin 2, ∃ p : Pkt, ∃ _c : FwCheck, ∃ s : State, ((received s port 0xE p).1 = true) ∧ (port = 0) ∧
    (fwWhole (takeFw (received s port 0xE p).2 port (p.arg.toNat % 2 ^ 32) p.words) (p.arg.toNat % 2 ^ 32) p.words =
    true)) ∧
  (∃ port : Fin 2, ∃ p : Pkt, ∃ s : State, ((received s port 0xE p).1 = true) ∧ (port = 0) ∧ (fwWhole (takeFw
    (received s port 0xE p).2 port (p.arg.toNat % 2 ^ 32) p.words) (p.arg.toNat % 2 ^ 32) p.words = true)) ∧
  (∃ i : BitVec 8, ∃ d : Nat, ∃ op : Nat, ∃ f : Flit, ∃ sl : Option Nat, ∃ s : State, (frozen s.hw = false) ∧
    (lookup s.hw.chain.out i.toNat = some ⟨d, op, some f, sl⟩)) ∧
  (∃ i : BitVec 8, ∃ d : Nat, ∃ sl : Nat, ∃ s : State, (frozen s.hw = false) ∧ (lookup s.hw.chain.out i.toNat = some
    ⟨d, 0, none, some sl⟩)) ∧
  (∃ i : BitVec 8, ∃ s : State, (lookup s.hw.chain.out i.toNat = none)) :=
  ⟨⟨7, 1, pktOf 0xFD 0, false, false, (0, 0, 0, 0), linkState, by decide +kernel⟩,
   ⟨withRsv (pktOf 0xFD 0), 3, by decide +kernel⟩,
   ⟨3, 1, pktOf 0xFD 0, true, false, (0, 0, 0, 0), upState, by decide +kernel⟩,
   ⟨1, 1, pktOf 0xFD 0, true, false, (0, 0, 0, 0), inFrozen linkState, by decide +kernel⟩,
   ⟨3, 1, pktOf 0xFD 0, false, (0, 0, 0, 0), linkState, by decide +kernel⟩,
   ⟨pktOf 7 0, 3, upState.hw, by decide +kernel⟩,
   ⟨withSdev (pktOf 0xFF 0) 0, 3, addressedState.hw, by decide +kernel⟩,
   ⟨pktOf 0xFF 0, 3, upState.hw, by decide +kernel⟩,
   ⟨1, pktOf 0 0, addressedState, by decide +kernel⟩,
   ⟨1, pktOf 0 0, isolatedState, by decide +kernel⟩,
   ⟨1, pktOf 0 0, upState, by decide +kernel⟩,
   ⟨1, pktOf 0 0, withReg upState (aCH_POOL 0) 0x40000000000, by decide +kernel⟩,
   ⟨1, pktOf 0 0, ⟨0x101, 0, []⟩, addressedState, by decide +kernel⟩,
   ⟨1, pktOf 5 0, ⟨0x101, 0, []⟩, addressedState, by decide +kernel⟩,
   ⟨1, pktOf 0 0, 0, 5, 0, ⟨24, 0, 0, 0, 0, [], none⟩, none, outstandingState, by decide +kernel⟩,
   ⟨1, pktOf 0 0, addressedState, by decide +kernel⟩,
   ⟨1, ⟨0, 5, 0, 0, 0, false, 0, 0, 0, 0, 38, 0, false, 0, 0, [], false⟩, 4, ⟨5, 0, none, some 0⟩, 0, forwardedUp, by decide +kernel⟩,
   ⟨1, pktOf 0 0, ⟨0, 0, []⟩, addressedState, by decide +kernel⟩,
   ⟨1, pktOf 5 0, ⟨0, 0, []⟩, addressedState, by decide +kernel⟩,
   ⟨0, pktOf 0xFE 0, none, listenLink, by decide +kernel⟩,
   ⟨0, withWords (pktOf 0xFE 0) [vw 0, vw 0], ⟨3, 0⟩, listenLink, by decide +kernel⟩,
   ⟨0, withWords (pktOf 0xFE 0) [vw 0, vw 0], listenLink, by decide +kernel⟩,
   ⟨0, 5, 0, ⟨24, 0, 0, 0, 0, [], none⟩, none, outstandingState, by decide +kernel⟩,
   ⟨4, 5, 0, forwardedState, by decide +kernel⟩,
   ⟨4, upState, by decide +kernel⟩⟩

/-- The hypotheses of each clause of ChainTimersAndLinksAct are met. -/
theorem test_meets_ChainTimersAndLinksAct :
  (∃ _port : Fin 2, ∃ s : State, (frozen s.hw = false)) ∧
  (∃ port : Fin 2, ∃ s : State, (linkUp s.hw port = true)) ∧
  (∃ port : Fin 2, ∃ s : State, (linkUp s.hw port = false)) ∧
  (∃ port : Fin 2, ∃ s : State, (frozen s.hw = false) ∧ (linkUp s.hw port = false) ∧ (isSet s.hw (aLK_CTL port)
    fLK_CTL_EN = true)) ∧
  (∃ port : Fin 2, ∃ s : State, (linkUp s.hw port = true ∨ isSet s.hw (aLK_CTL port) fLK_CTL_EN = false)) ∧
  (∃ _port : Fin 2, ∃ s : State, (Up s)) ∧
  (∃ s : State, (frozen s.hw = false) ∧ (isDev0 s.hw = true) ∧ (getF s.hw aCH_ID fCH_ID_COUNT ≠ 0)) ∧
  (∃ s : State, (isDev0 s.hw = false ∨ getF s.hw aCH_ID fCH_ID_COUNT = 0)) ∧
  (∃ s : State, (frozen s.hw = false) ∧ (isDev0 s.hw = false) ∧ (s.hw.chain.armed = true) ∧ (isSet s.hw aCH_PART
    fCH_PART_BEHINDFRZ = false) ∧ (s.hw.chain.misses = 2) ∧ (s.hw.mode = .run)) ∧
  (∃ s : State, (frozen s.hw = false) ∧ (isDev0 s.hw = false) ∧ (s.hw.chain.armed = true) ∧ (isSet s.hw aCH_PART
    fCH_PART_BEHINDFRZ = false) ∧ (s.hw.chain.misses < 2)) ∧
  (∃ s : State, (isDev0 s.hw = true ∨ s.hw.chain.armed = false ∨ isSet s.hw aCH_PART fCH_PART_BEHINDFRZ = true ∨ 3 ≤
    s.hw.chain.misses)) ∧
  (∃ _x : Int, ∃ s : State, (frozen s.hw = false) ∧ (isDev0 s.hw = false) ∧ (addressed s.hw = true)) ∧
  (∃ _x : Int, ∃ s : State, (isDev0 s.hw = true ∨ addressed s.hw = false)) ∧
  (∃ s : State, (frozen s.hw = false) ∧ (s.hw.mode = .isolated) ∧ (getF s.hw aCH_PART fCH_PART_POL = 0)) ∧
  (∃ s : State, (s.hw.mode ≠ .isolated ∨ getF s.hw aCH_PART fCH_PART_POL ≠ 0)) ∧
  (∃ v : BitVec 64, ∃ e : Hw, ∃ s : State, (Up s) ∧ (e = writePlain s.hw .ch 0 0x8038 aCH_EVSEND (v ||| BitVec.ofNat
    64 (2 ^ 63)).toNat)) ∧
  (∃ s : State, (frozen s.hw = false) ∧ (isDev0 s.hw = true) ∧ (getF s.hw aCH_ID fCH_ID_COUNT ≠ 0) ∧ (allReady s.hw
    = true) ∧ (isSet s.hw aHI_STAT fHI_STAT_CHRDY = false)) ∧
  (∃ s : State, (isDev0 s.hw = false ∨ getF s.hw aCH_ID fCH_ID_COUNT = 0 ∨ allReady s.hw = false ∨ isSet s.hw
    aHI_STAT fHI_STAT_CHRDY = true)) ∧
  (∃ s : State, (frozen s.hw = false) ∧ (isDev0 s.hw = true) ∧ (getF s.hw aCH_ID fCH_ID_COUNT ≠ 0) ∧ (allReady s.hw
    = false)) ∧
  (∃ s : State, (isDev0 s.hw = false ∨ getF s.hw aCH_ID fCH_ID_COUNT = 0 ∨ allReady s.hw = true)) ∧
  (∃ code : BitVec 9, ∃ x : Summary, ∃ s : State, (lookup s.hw.obs.summaries code.toNat = some x) ∧ (frozen s.hw =
    false) ∧ (isDev0 s.hw = false) ∧ (addressed s.hw = true)) ∧
  (∃ code : BitVec 9, ∃ s : State, (lookup s.hw.obs.summaries code.toNat = none ∨ isDev0 s.hw = true ∨ addressed
    s.hw = false)) :=
  ⟨⟨1, linkState, by decide +kernel⟩,
   ⟨1, linkState, by decide +kernel⟩,
   ⟨1, upState, by decide +kernel⟩,
   ⟨1, withReg upState (aLK_CTL 1) 1, by decide +kernel⟩,
   ⟨1, linkState, by decide +kernel⟩,
   ⟨1, linkState, by decide +kernel⟩,
   ⟨countedState, by decide +kernel⟩,
   ⟨upState, by decide +kernel⟩,
   ⟨watchState 2, by decide +kernel⟩,
   ⟨watchState 1, by decide +kernel⟩,
   ⟨upState, by decide +kernel⟩,
   ⟨0, addressedState, by decide +kernel⟩,
   ⟨0, upState, by decide +kernel⟩,
   ⟨isolatedState, by decide +kernel⟩,
   ⟨upState, by decide +kernel⟩,
   ⟨0, writePlain upState.hw .ch 0 0x8038 aCH_EVSEND (2 ^ 63), upState, by decide +kernel⟩,
   ⟨countedState, by decide +kernel⟩,
   ⟨upState, by decide +kernel⟩,
   ⟨(withReg countedState aCH_ID (2 ^ fCH_ID_AVLD.lo + 3 * 2 ^ fCH_ID_COUNT.lo)), by decide +kernel⟩,
   ⟨upState, by decide +kernel⟩,
   ⟨0x100, ⟨true⟩, summaryState, by decide +kernel⟩,
   ⟨0x100, upState, by decide +kernel⟩⟩

/-- The hypotheses of each clause of JesdLinksAct are met. -/
theorem test_meets_JesdLinksAct :
  (∃ s : State, (frozen s.hw = false)) ∧
  (∃ h : Hw, ∃ d : Fin 8, ∃ b : Nat, ∃ p : Nat, ∃ x : Nat, ((jdir h d).armed = false) ∧ ((jdir h d).bnd = some b) ∧
    (getF h (aJsr d) fJL_RXSR_MODE ≠ 0) ∧ (p = jPeriod h d) ∧ (p ≠ 0) ∧ (x = (toBoundary p b h.aclk + p - getF h
    (aJsr d) fJL_RXSR_OFS % p) % p) ∧ (getF h (aJsr d) fJL_RXSR_TOL < min x (p - x)) ∧ (getF h (aJsr d)
    fJL_RXSR_REALIGN ≠ 1)) ∧
  (∃ _j : Fin 4, ∃ _tx : Bool, ∃ s : State, (Up s)) ∧
  (∃ _j : Fin 4, ∃ _tx : Bool, ∃ s : State, (Up s)) ∧
  (∃ j : Fin 4, ∃ tx : Bool, ∃ _ilas : Bool, ∃ s : State, (frozen s.hw = false) ∧ (jEn s.hw (dirOf j tx) = true) ∧
    (jUp s.hw (dirOf j tx) = false) ∧ (jCfgOk s.hw (dirOf j tx) = true) ∧ (syncOk s.hw (dirOf j tx) = true)) ∧
  (∃ j : Fin 4, ∃ tx : Bool, ∃ _ilas : Bool, ∃ s : State, (frozen s.hw = false) ∧ (jEn s.hw (dirOf j tx) = true) ∧
    (jUp s.hw (dirOf j tx) = false) ∧ (jCfgOk s.hw (dirOf j tx) = false ∨ syncOk s.hw (dirOf j tx) = false)) ∧
  (∃ j : Fin 4, ∃ tx : Bool, ∃ _ilas : Bool, ∃ s : State, (jEn s.hw (dirOf j tx) = false ∨ jUp s.hw (dirOf j tx) =
    true)) ∧
  (∃ j : Fin 4, ∃ lane : Fin 8, ∃ s : State, (frozen s.hw = false) ∧ (jEn s.hw (2 * j.val + 1) = true) ∧ ((jLanes
    s.hw (2 * j.val + 1)).contains lane.val = true) ∧ (jIsB s.hw (2 * j.val + 1) = true)) ∧
  (∃ j : Fin 4, ∃ lane : Fin 8, ∃ s : State, (frozen s.hw = false) ∧ (jEn s.hw (2 * j.val) = true) ∧ ((jLanes s.hw
    (2 * j.val)).contains lane.val = true) ∧ (jIsB s.hw (2 * j.val) = false)) ∧
  (∃ j : Fin 4, ∃ lane : Fin 8, ∃ s : State, (frozen s.hw = false) ∧ (jEn s.hw (2 * j.val) = true) ∧ ((jLanes s.hw
    (2 * j.val)).contains lane.val = true) ∧ (jIsB s.hw (2 * j.val) = true)) ∧
  (∃ j : Fin 4, ∃ tx : Bool, ∃ lane : Fin 8, ∃ s : State, (jEn s.hw (dirOf j tx) = false ∨ (jLanes s.hw (dirOf j
    tx)).contains lane.val = false ∨ (tx = true ∧ jIsB s.hw (dirOf j tx) = false))) ∧
  (∃ j : Fin 4, ∃ tx : Bool, ∃ s : State, (frozen s.hw = false) ∧ (jAtBoundary s.hw (dirOf j tx) = true)) ∧
  (∃ j : Fin 4, ∃ tx : Bool, ∃ s : State, (jAtBoundary s.hw (dirOf j tx) = false)) ∧
  (∃ h : Hw, ∃ j : Fin 4, ∃ bad : BitVec 8, (jField h (2 * j.val) fJL_RXCFG_CRC = 1) ∧ (jIsB h (2 * j.val) = false)
    ∧ ((bad &&& BitVec.ofNat 8 (2 ^ jL h (2 * j.val) - 1)) ≠ 0)) ∧
  (∃ j : Fin 4, ∃ _xs : List (BitVec 32 × BitVec 32), ∃ _bad : BitVec 8, ∃ s : State, (jEn s.hw (2 * j.val) = false
    ∨ jUp s.hw (2 * j.val) = false ∨ jReleases s.hw (2 * j.val) = false)) ∧
  (∃ j : Fin 4, ∃ xs : List (BitVec 32 × BitVec 32), ∃ bad : BitVec 8, ∃ h : Hw, ∃ ws : List TW, ∃ half : Option
    ((Int × Int) × Bool), ∃ s : State, (frozen s.hw = false) ∧ (jEn s.hw (2 * j.val) = true) ∧ (jUp s.hw (2 * j.val)
    = true) ∧ (jReleases s.hw (2 * j.val) = true) ∧ (rxWords s.hw j xs bad = (ws, half)) ∧ (h = setJdir (crcCounted
    s.hw j bad) (2 * j.val) (afterWords s.hw j half ws.length xs.length)) ∧ (ws.length ≤ (1024 - pushesWaiting h
    (jesdRouter j)))) ∧
  (∃ j : Fin 4, ∃ xs : List (BitVec 32 × BitVec 32), ∃ bad : BitVec 8, ∃ h : Hw, ∃ ws : List TW, ∃ half : Option
    ((Int × Int) × Bool), ∃ s : State, (frozen s.hw = false) ∧ (jEn s.hw (2 * j.val) = true) ∧ (jUp s.hw (2 * j.val)
    = true) ∧ (jReleases s.hw (2 * j.val) = true) ∧ (rxWords s.hw j xs bad = (ws, half)) ∧ (h = setJdir (crcCounted
    s.hw j bad) (2 * j.val) (afterWords s.hw j half ws.length xs.length)) ∧ ((1024 - pushesWaiting h (jesdRouter j))
    < ws.length)) ∧
  (∃ j : Fin 4, ∃ room : Nat, ∃ s : State, (frozen s.hw = false) ∧ (jEn s.hw (2 * j.val + 1) = true) ∧ (room = 256 -
    (jdir s.hw (2 * j.val + 1)).buf.length - pullsAsked s.hw (jesdRouter j)) ∧ (room ≠ 0)) ∧
  (∃ j : Fin 4, ∃ s : State, (jEn s.hw (2 * j.val + 1) = false ∨ 256 ≤ (jdir s.hw (2 * j.val + 1)).buf.length +
    pullsAsked s.hw (jesdRouter j))) ∧
  (∃ j : Fin 4, ∃ s : State, (jEn s.hw (2 * j.val + 1) = false ∨ jUp s.hw (2 * j.val + 1) = false)) ∧
  (∃ j : Fin 4, ∃ s : State, (frozen s.hw = false) ∧ (jEn s.hw (2 * j.val + 1) = true) ∧ (jUp s.hw (2 * j.val + 1) =
    true) ∧ (isSet s.hw (aJL_STAT j) fJL_STAT_MUTED = true)) ∧
  (∃ j : Fin 4, ∃ s : State, (frozen s.hw = false) ∧ (jEn s.hw (2 * j.val + 1) = true) ∧ (jUp s.hw (2 * j.val + 1) =
    true) ∧ (isSet s.hw (aJL_STAT j) fJL_STAT_MUTED = false) ∧ (s.hw.fab.blank.getLsbD j = true)) ∧
  (∃ j : Fin 4, ∃ s : State, (frozen s.hw = false) ∧ (jEn s.hw (2 * j.val + 1) = true) ∧ (jUp s.hw (2 * j.val + 1) =
    true) ∧ (isSet s.hw (aJL_STAT j) fJL_STAT_MUTED = false) ∧ (s.hw.fab.blank.getLsbD j = false) ∧ ((jdir s.hw (2 *
    j.val + 1)).buf = [])) ∧
  (∃ j : Fin 4, ∃ w : TW, ∃ ws : List TW, ∃ s : State, (frozen s.hw = false) ∧ (jEn s.hw (2 * j.val + 1) = true) ∧
    (jUp s.hw (2 * j.val + 1) = true) ∧ (isSet s.hw (aJL_STAT j) fJL_STAT_MUTED = false) ∧ (s.hw.fab.blank.getLsbD j
    = false) ∧ ((jdir s.hw (2 * j.val + 1)).buf = w :: ws) ∧ (jField s.hw (2 * j.val + 1) fJL_RXCFG_ALIGN = 1) ∧
    (w.f = true) ∧ ((jdir s.hw (2 * j.val + 1)).go = false)) ∧
  (∃ j : Fin 4, ∃ w : TW, ∃ ws : List TW, ∃ s : State, (frozen s.hw = false) ∧ (jEn s.hw (2 * j.val + 1) = true) ∧
    (jUp s.hw (2 * j.val + 1) = true) ∧ (isSet s.hw (aJL_STAT j) fJL_STAT_MUTED = false) ∧ (s.hw.fab.blank.getLsbD j
    = false) ∧ ((jdir s.hw (2 * j.val + 1)).buf = w :: ws) ∧ (jField s.hw (2 * j.val + 1) fJL_RXCFG_ALIGN ≠ 1 ∨ w.f
    = false ∨ (jdir s.hw (2 * j.val + 1)).go = true) ∧ (w.p = true)) ∧
  (∃ j : Fin 4, ∃ w : TW, ∃ ws : List TW, ∃ s : State, (frozen s.hw = false) ∧ (jEn s.hw (2 * j.val + 1) = true) ∧
    (jUp s.hw (2 * j.val + 1) = true) ∧ (isSet s.hw (aJL_STAT j) fJL_STAT_MUTED = false) ∧ (s.hw.fab.blank.getLsbD j
    = false) ∧ ((jdir s.hw (2 * j.val + 1)).buf = w :: ws) ∧ (jField s.hw (2 * j.val + 1) fJL_RXCFG_ALIGN ≠ 1 ∨ w.f
    = false ∨ (jdir s.hw (2 * j.val + 1)).go = true) ∧ (w.p = false)) :=
  ⟨⟨armedState, by decide +kernel⟩,
   ⟨missState.hw, 1, 5, jPeriod missState.hw 1, 5, by decide +kernel⟩,
   ⟨3, true, upState, by decide +kernel⟩,
   ⟨3, true, upState, by decide +kernel⟩,
   ⟨0, true, true, jesdTxState false [], by decide +kernel⟩,
   ⟨0, false, true, withReg upState (aJL_RXCFG 0) 1, by decide +kernel⟩,
   ⟨0, false, true, upState, by decide +kernel⟩,
   ⟨0, 0, jesdTxB, by decide +kernel⟩,
   ⟨0, 0, withReg upState (aJL_RXCFG 0) 1, by decide +kernel⟩,
   ⟨0, 0, withReg upState (aJL_RXCFG 0) (1 + 2 ^ fJL_RXCFG_STD.lo), by decide +kernel⟩,
   ⟨0, true, 0, upState, by decide +kernel⟩,
   ⟨0, true, jesdTxState true [], by decide +kernel⟩,
   ⟨0, true, upState, by decide +kernel⟩,
   ⟨(withReg upState (aJL_RXCFG 0) (BitVec.ofNat 64 (2 ^ fJL_RXCFG_CRC.lo))).hw, 0, 1, by decide +kernel⟩,
   ⟨0, [(1, 2)], 0, upState, by decide +kernel⟩,
   ⟨0, [(1, 2), (3, 4)], 0, setJdir jesdRxState.hw 0 (afterWords jesdRxState.hw 0 none 1 2), (rxWords jesdRxState.hw 0 [(1, 2), (3, 4)] 0).1, none, jesdRxState, by decide +kernel⟩,
   ⟨0, [(1, 2), (3, 4)], 0, setJdir jesdRxFull.hw 0 (afterWords jesdRxFull.hw 0 none 1 2), (rxWords jesdRxFull.hw 0 [(1, 2), (3, 4)] 0).1, none, jesdRxFull, by decide +kernel⟩,
   ⟨0, 256, jesdTxState true [], by decide +kernel⟩,
   ⟨0, upState, by decide +kernel⟩,
   ⟨0, upState, by decide +kernel⟩,
   ⟨0, withReg (jesdTxState true [vw 3]) (aJL_STAT 0) (2 ^ fJL_STAT_TXUP.lo + 2 ^ fJL_STAT_MUTED.lo), by decide +kernel⟩,
   ⟨0, blankJesd, by decide +kernel⟩,
   ⟨0, jesdTxState true [], by decide +kernel⟩,
   ⟨0, ⟨3, true, true, false, false, 0⟩, [], alignJesd, by decide +kernel⟩,
   ⟨0, ⟨3, true, false, false, true, 0⟩, [], jesdTxState true [⟨3, true, false, false, true, 0⟩], by decide +kernel⟩,
   ⟨0, vw 3, [], jesdTxState true [vw 3], by decide +kernel⟩⟩

/-- The hypotheses of each clause of EthernetPortsAct are met. -/
theorem test_meets_EthernetPortsAct :
  (∃ m : Fin 4, ∃ sp : Fin 4, ∃ _fr : RxFrame, ∃ s : State, (ethOn s.hw (subPort m sp) = false)) ∧
  (∃ m : Fin 4, ∃ sp : Fin 4, ∃ fr : RxFrame, ∃ s : State, (frozen s.hw = false) ∧ (ethOn s.hw (subPort m sp) =
    true) ∧ (classify s.hw (subPort m sp) fr.bytes = .macctl)) ∧
  (∃ m : Fin 4, ∃ sp : Fin 4, ∃ fr : RxFrame, ∃ k : Nat, ∃ s : State, (frozen s.hw = false) ∧ (ethOn s.hw (subPort m
    sp) = true) ∧ (classify s.hw (subPort m sp) fr.bytes = .unmatched ∨ classify s.hw (subPort m sp) fr.bytes = .mp
    true ∨ classify s.hw (subPort m sp) fr.bytes = .mp false) ∧ (discardOf s.hw (subPort m sp) fr = some k)) ∧
  (∃ m : Fin 4, ∃ sp : Fin 4, ∃ fr : RxFrame, ∃ s : State, (frozen s.hw = false) ∧ (ethOn s.hw (subPort m sp) =
    true) ∧ (classify s.hw (subPort m sp) fr.bytes = .unmatched) ∧ (discardOf s.hw (subPort m sp) fr = none) ∧
    (isSet s.hw (aETH_PCTL (subPort m sp)) fETH_PCTL_EXC = false)) ∧
  (∃ m : Fin 4, ∃ sp : Fin 4, ∃ fr : RxFrame, ∃ s : State, (frozen s.hw = false) ∧ (ethOn s.hw (subPort m sp) =
    true) ∧ (classify s.hw (subPort m sp) fr.bytes = .unmatched) ∧ (discardOf s.hw (subPort m sp) fr = none) ∧
    (isSet s.hw (aETH_PCTL (subPort m sp)) fETH_PCTL_EXC = true)) ∧
  (∃ m : Fin 4, ∃ sp : Fin 4, ∃ fr : RxFrame, ∃ s : State, (frozen s.hw = false) ∧ (ethOn s.hw (subPort m sp) =
    true) ∧ (classify s.hw (subPort m sp) fr.bytes = .mp true) ∧ (discardOf s.hw (subPort m sp) fr = none)) ∧
  (∃ m : Fin 4, ∃ sp : Fin 4, ∃ fr : RxFrame, ∃ s : State, (frozen s.hw = false) ∧ (ethOn s.hw (subPort m sp) =
    true) ∧ (classify s.hw (subPort m sp) fr.bytes = .mp false) ∧ (discardOf s.hw (subPort m sp) fr = none) ∧
    (delayOk (messageOf fr) = true)) ∧
  (∃ m : Fin 4, ∃ sp : Fin 4, ∃ fr : RxFrame, ∃ s : State, (frozen s.hw = false) ∧ (ethOn s.hw (subPort m sp) =
    true) ∧ (classify s.hw (subPort m sp) fr.bytes = .mp false) ∧ (discardOf s.hw (subPort m sp) fr = none) ∧
    (delayOk (messageOf fr) = false)) ∧
  (∃ m : Fin 4, ∃ sp : Fin 4, ∃ fr : RxFrame, ∃ k : Nat, ∃ ty : Nat, ∃ s : State, (frozen s.hw = false) ∧ (ethOn
    s.hw (subPort m sp) = true) ∧ (classify s.hw (subPort m sp) fr.bytes = .flow k ty) ∧ (addressTaken s.hw (subPort
    m sp) fr = false)) ∧
  (∃ m : Fin 4, ∃ sp : Fin 4, ∃ fr : RxFrame, ∃ k : Nat, ∃ ty : Nat, ∃ s : State, (frozen s.hw = false) ∧ (ethOn
    s.hw (subPort m sp) = true) ∧ (classify s.hw (subPort m sp) fr.bytes = .flow k ty) ∧ (addressTaken s.hw (subPort
    m sp) fr = true) ∧ (headerOk (messageOf fr) = false)) ∧
  (∃ m : Fin 4, ∃ sp : Fin 4, ∃ fr : RxFrame, ∃ k : Nat, ∃ ty : Nat, ∃ c : Nat, ∃ s : State, (frozen s.hw = false) ∧
    (ethOn s.hw (subPort m sp) = true) ∧ (classify s.hw (subPort m sp) fr.bytes = .flow k ty) ∧ (addressTaken s.hw
    (subPort m sp) fr = true) ∧ (headerOk (messageOf fr) = true) ∧ (discardOf s.hw (subPort m sp) fr = some c)) ∧
  (∃ m : Fin 4, ∃ sp : Fin 4, ∃ fr : RxFrame, ∃ k : Nat, ∃ ty : Nat, ∃ s : State, (frozen s.hw = false) ∧ (ethOn
    s.hw (subPort m sp) = true) ∧ (classify s.hw (subPort m sp) fr.bytes = .flow k ty) ∧ (addressTaken s.hw (subPort
    m sp) fr = true) ∧ (headerOk (messageOf fr) = true) ∧ (discardOf s.hw (subPort m sp) fr = none) ∧ (messageOk
    s.hw ((subPort m sp) / 4) k ty (messageOf fr) = false)) ∧
  (∃ m : Fin 4, ∃ sp : Fin 4, ∃ fr : RxFrame, ∃ k : Nat, ∃ ty : Nat, ∃ s : State, (frozen s.hw = false) ∧ (ethOn
    s.hw (subPort m sp) = true) ∧ (classify s.hw (subPort m sp) fr.bytes = .flow k ty) ∧ (addressTaken s.hw (subPort
    m sp) fr = true) ∧ (headerOk (messageOf fr) = true) ∧ (discardOf s.hw (subPort m sp) fr = none) ∧ (messageOk
    s.hw ((subPort m sp) / 4) k ty (messageOf fr) = true) ∧ ((rxPacketOf s.hw (subPort m sp) k ty fr).2.2.2 =
    false)) ∧
  (∃ m : Fin 4, ∃ sp : Fin 4, ∃ fr : RxFrame, ∃ k : Nat, ∃ ty : Nat, ∃ s : State, (frozen s.hw = false) ∧ (ethOn
    s.hw (subPort m sp) = true) ∧ (classify s.hw (subPort m sp) fr.bytes = .flow k ty) ∧ (addressTaken s.hw (subPort
    m sp) fr = true) ∧ (headerOk (messageOf fr) = true) ∧ (discardOf s.hw (subPort m sp) fr = none) ∧ (messageOk
    s.hw ((subPort m sp) / 4) k ty (messageOf fr) = true) ∧ ((rxPacketOf s.hw (subPort m sp) k ty fr).2.2.2 = true)) ∧
  (∃ m : Fin 4, ∃ sp : Fin 4, ∃ _bad : Bool, ∃ _es : List Ecc, ∃ c : Nat, ∃ s : State, (frozen s.hw = false) ∧
    (ethOn s.hw (subPort m sp) = true) ∧ ([7, 6, 5, 4, 3, 2, 1, 0].find? (classReady s.mem s.hw (subPort m sp)) =
    some c) ∧ (isSet s.hw (aETH_PSTAT (subPort m sp)) fETH_PSTAT_MUTED = false)) ∧
  (∃ m : Fin 4, ∃ sp : Fin 4, ∃ _bad : Bool, ∃ _es : List Ecc, ∃ c : Nat, ∃ s : State, (frozen s.hw = false) ∧
    (ethOn s.hw (subPort m sp) = true) ∧ ([7, 6, 5, 4, 3, 2, 1, 0].find? (classReady s.mem s.hw (subPort m sp)) =
    some c) ∧ (isSet s.hw (aETH_PSTAT (subPort m sp)) fETH_PSTAT_MUTED = true)) ∧
  (∃ m : Fin 4, ∃ sp : Fin 4, ∃ _bad : Bool, ∃ _es : List Ecc, ∃ s : State, (ethOn s.hw (subPort m sp) = false ∨ [7,
    6, 5, 4, 3, 2, 1, 0].find? (classReady s.mem s.hw (subPort m sp)) = none)) ∧
  (∃ h : Hw, ∃ i : Nat, ∃ _c : Nat, ∃ w : TW, ∃ ws : List TW, ∃ _bad : Bool, (w.v = false ∨ w.p = true ∨ 2 ^ 38 ≤
    w.d.toNat ∨ getF h (aETH_TXFLOW0 (i / 4) (w.d.toNat % 64)) fETH_TXFLOW0_SUB ≠ i % 4 ∨ ws = [])) ∧
  (∃ s : State, (frozen s.hw = false) ∧ (refillDue s.hw = true) ∧ (s.hw.eth.refillAt ≠ s.hw.aclk + 1)) ∧
  (∃ s : State, (refillDue s.hw = false ∨ s.hw.eth.refillAt = s.hw.aclk + 1)) ∧
  (∃ i : Nat, ∃ c : Nat, ∃ s : State, (isSet s.hw (aETH_TC i c) fETH_TC_SHEN = true)) ∧
  (∃ m : Fin 4, ∃ sp : Fin 4, ∃ c : Fin 8, ∃ h : Hw, ∃ s : State, (Up s) ∧ (h = tcRewritten s.hw (subPort m sp) c) ∧
    (0 ≤ bucket (tcWritten s.hw h (subPort m sp) c) (subPort m sp) c)) ∧
  (∃ m : Fin 4, ∃ sp : Fin 4, ∃ c : Fin 8, ∃ h : Hw, ∃ s : State, (Up s) ∧ (h = tcRewritten s.hw (subPort m sp) c) ∧
    (bucket (tcWritten s.hw h (subPort m sp) c) (subPort m sp) c < 0)) ∧
  (∃ m : Fin 4, ∃ sp : Fin 4, ∃ s : State, (Up s) ∧ (getD [] s.hw.eth.fifo (subPort m sp) = [])) ∧
  (∃ m : Fin 4, ∃ sp : Fin 4, ∃ e : Nat × Nat × Nat, ∃ es : List (Nat × Nat × Nat), ∃ s : State, (Up s) ∧ (getD []
    s.hw.eth.fifo (subPort m sp) = e :: es)) ∧
  (∃ s : State, (frozen s.hw = false) ∧ (isSet s.hw (aETH_RCLK 0) fETH_RCLK_EN = true) ∧ (isSet s.hw (aETH_RCLK 0)
    fETH_RCLK_SQ = false)) ∧
  (∃ s : State, (frozen s.hw = false) ∧ (isSet s.hw (aETH_RCLK 0) fETH_RCLK_EN = true) ∧ (isSet s.hw (aETH_RCLK 0)
    fETH_RCLK_SQ = true)) ∧
  (∃ s : State, (isSet s.hw (aETH_RCLK 0) fETH_RCLK_EN = false)) ∧
  (∃ s : State, (isSet s.hw (aETH_RCLK 0) fETH_RCLK_EN = false)) ∧
  (∃ m : Fin 4, ∃ sp : Fin 4, ∃ up : Bool, ∃ s : State, (frozen s.hw = false) ∧ (isSet s.hw (aETH_PSTAT (subPort m
    sp)) fETH_PSTAT_LINK ≠ up)) ∧
  (∃ m : Fin 4, ∃ sp : Fin 4, ∃ up : Bool, ∃ s : State, (isSet s.hw (aETH_PSTAT (subPort m sp)) fETH_PSTAT_LINK =
    up)) ∧
  (∃ m : Fin 4, ∃ sp : Fin 4, ∃ req : List Byte, ∃ _secs : BitVec 48, ∃ _ns : BitVec 32, ∃ s : State, (frozen s.hw =
    false) ∧ (ethOn s.hw (subPort m sp) = true) ∧ (isSet s.hw (aETH_PSTAT (subPort m sp)) fETH_PSTAT_MUTED = false)
    ∧ ((frameHead req).et = 0xAEFE) ∧ (beNat (slice (req.drop (frameHead req).body) 1 1) = 5) ∧ (beNat (slice
    (req.drop (frameHead req).body) 5 1) = 0)) ∧
  (∃ m : Fin 4, ∃ sp : Fin 4, ∃ req : List Byte, ∃ _secs : BitVec 48, ∃ _ns : BitVec 32, ∃ s : State, (frozen s.hw =
    false) ∧ (ethOn s.hw (subPort m sp) = true) ∧ (isSet s.hw (aETH_PSTAT (subPort m sp)) fETH_PSTAT_MUTED = false)
    ∧ ((frameHead req).et = 0xAEFE) ∧ (beNat (slice (req.drop (frameHead req).body) 1 1) = 5) ∧ (beNat (slice
    (req.drop (frameHead req).body) 5 1) = 1)) ∧
  (∃ m : Fin 4, ∃ sp : Fin 4, ∃ req : List Byte, ∃ _secs : BitVec 48, ∃ _ns : BitVec 32, ∃ s : State, (ethOn s.hw
    (subPort m sp) = false ∨ isSet s.hw (aETH_PSTAT (subPort m sp)) fETH_PSTAT_MUTED = true ∨ (frameHead req).et ≠
    0xAEFE ∨ beNat (slice (req.drop (frameHead req).body) 1 1) ≠ 5 ∨ 2 ≤ beNat (slice (req.drop (frameHead
    req).body) 5 1))) ∧
  (∃ m : Fin 4, ∃ sp : Fin 4, ∃ rec : RingRec, ∃ r : PtpRing, ∃ s : State, (frozen s.hw = false) ∧ (lookup
    s.hw.eth.ptp (subPort m sp) = some r) ∧ (1 ≤ rec.kind.toNat) ∧ (rec.kind.toNat ≤ 4) ∧ (timingRoom r ≤ ringHeld
    s.mem r)) ∧
  (∃ m : Fin 4, ∃ sp : Fin 4, ∃ rec : RingRec, ∃ r : PtpRing, ∃ m1 : Sparse Byte, ∃ s : State, (frozen s.hw = false)
    ∧ (lookup s.hw.eth.ptp (subPort m sp) = some r) ∧ (1 ≤ rec.kind.toNat) ∧ (rec.kind.toNat ≤ 4) ∧ (ringHeld s.mem
    r < timingRoom r) ∧ (m1 = ringPut s.mem r.base (32 + 256 * (ringRead s.mem r.base 0 8 % timingRoom r))
    (ringBytes rec (subPort m sp)))) ∧
  (∃ m : Fin 4, ∃ sp : Fin 4, ∃ rec : RingRec, ∃ s : State, (lookup s.hw.eth.ptp (subPort m sp) = none ∨ rec.kind =
    0 ∨ 4 < rec.kind.toNat)) :=
  ⟨⟨0, 0, ⟨List.replicate 60 0, true, [], true⟩, upState, by decide +kernel⟩,
   ⟨0, 0, ⟨List.replicate 12 0 ++ [0x88, 0x08] ++ List.replicate 46 0, true, [], true⟩, ethState 1500, by decide +kernel⟩,
   ⟨0, 0, ⟨List.replicate 20 0, true, [], true⟩, 3, ethState 3, by decide +kernel⟩,
   ⟨0, 0, ⟨List.replicate 60 0, true, [], true⟩, ethState 1500, by decide +kernel⟩,
   ⟨0, 0, ⟨List.replicate 60 0, true, [], true⟩, withReg (ethState 1500) (aETH_PCTL 0) (2 ^ fETH_PCTL_EN.lo + 2 ^ fETH_PCTL_PROMISC.lo + 2 ^ fETH_PCTL_EXC.lo + BitVec.ofNat 64 (1500 * 2 ^ fETH_PCTL_MTU.lo)), by decide +kernel⟩,
   ⟨0, 0, ⟨List.replicate 12 0 ++ [0x88, 0xF7] ++ List.replicate 46 0, true, [], true⟩, ethState 1500, by decide +kernel⟩,
   ⟨0, 0, ⟨List.replicate 12 0 ++ [0xAE, 0xFE, 0x10, 5] ++ List.replicate 46 0, true, [], true⟩, ethState 1500, by decide +kernel⟩,
   ⟨0, 0, ⟨List.replicate 12 0 ++ [0xAE, 0xFE, 0x20, 5] ++ List.replicate 46 0, true, [], true⟩, ethState 1500, by decide +kernel⟩,
   ⟨0, 0, strangeFrame, 0, 2, strictFlow, by decide +kernel⟩,
   ⟨0, 0, badHeadFrame, 0, 2, flowState, by decide +kernel⟩,
   ⟨0, 0, badFcsFrame, 0, 2, 4, flowState, by decide +kernel⟩,
   ⟨0, 0, longFrame, 0, 2, flowState, by decide +kernel⟩,
   ⟨0, 0, flowFrame, 0, 2, flowState, by decide +kernel⟩,
   ⟨0, 0, flowFrame, 0, 2, gapFlow, by decide +kernel⟩,
   ⟨0, 0, false, [], 3, sendState, by decide +kernel⟩,
   ⟨0, 0, false, [], 3, withReg sendState (aETH_PSTAT 0) (2 ^ fETH_PSTAT_MUTED.lo), by decide +kernel⟩,
   ⟨0, 0, false, [], upState, by decide +kernel⟩,
   ⟨upState.hw, 1, 0, vw 0, [vw 1], false, by decide +kernel⟩,
   ⟨upState, by decide +kernel⟩,
   ⟨divideState, by decide +kernel⟩,
   ⟨0, 0, withReg upState (aETH_TC 0 0) (2 ^ fETH_TC_SHEN.lo), by decide +kernel⟩,
   ⟨3, 3, 7, tcRewritten upState.hw 15 7, upState, by decide +kernel⟩,
   ⟨0, 0, 0, tcRewritten debtState.hw 0 0, debtState, by decide +kernel⟩,
   ⟨3, 3, upState, by decide +kernel⟩,
   ⟨0, 0, (7, 8, 9), [], stampState, by decide +kernel⟩,
   ⟨withReg upState (aETH_RCLK 0) (2 ^ fETH_RCLK_EN.lo), by decide +kernel⟩,
   ⟨withReg upState (aETH_RCLK 0) (2 ^ fETH_RCLK_EN.lo + 2 ^ fETH_RCLK_SQ.lo), by decide +kernel⟩,
   ⟨upState, by decide +kernel⟩,
   ⟨upState, by decide +kernel⟩,
   ⟨3, 3, true, upState, by decide +kernel⟩,
   ⟨3, 3, false, upState, by decide +kernel⟩,
   ⟨0, 0, List.replicate 12 0 ++ [0xAE, 0xFE, 0x10, 5, 0, 20, 1, 0], 5, 6, ringState 0, by decide +kernel⟩,
   ⟨0, 0, List.replicate 12 0 ++ [0xAE, 0xFE, 0x10, 5, 0, 20, 1, 1], 5, 6, ringState 0, by decide +kernel⟩,
   ⟨0, 0, [], 5, 6, upState, by decide +kernel⟩,
   ⟨0, 0, ⟨1, 2, 3, 4, []⟩, ⟨0, 32, 3⟩, ringState 1, by decide +kernel⟩,
   ⟨0, 0, ⟨1, 2, 3, 4, []⟩, ⟨0, 544, 3⟩, ringPut (ringState 0).mem 0 (32 + 256 * 0) (ringBytes ⟨1, 2, 3, 4, []⟩ 0), ringState 0, by decide +kernel⟩,
   ⟨0, 0, ⟨1, 2, 3, 4, []⟩, upState, by decide +kernel⟩⟩

/-- The hypotheses of each clause of TimebaseActs are met. -/
theorem test_meets_TimebaseActs :
  (∃ v : BitVec 64, ∃ s : State, (Up s) ∧ (chainOwned s.hw = false) ∧ (0xD04AAAAA ≤ v.toNat) ∧ (v.toNat ≤
    0xD0600000)) ∧
  (∃ v : BitVec 64, ∃ s : State, (Up s) ∧ (chainOwned s.hw = false) ∧ (v.toNat < 0xD04AAAAA ∨ 0xD0600000 < v.toNat)) ∧
  (∃ _v : BitVec 64, ∃ s : State, (Up s) ∧ (chainOwned s.hw = true)) ∧
  (∃ _v : BitVec 64, ∃ s : State, (Up s) ∧ (chainOwned s.hw = true)) ∧
  (∃ _v : BitVec 64, ∃ s : State, (Up s) ∧ (chainOwned s.hw = true)) ∧
  (∃ v : BitVec 64, ∃ w : BitVec 64, ∃ s : State, (Up s) ∧ (chainOwned s.hw = false) ∧ (w = v ||| BitVec.ofNat 64 (2
    ^ 63)) ∧ (stepOk (setF s.hw aTB_STEP fTB_STEP_OFS w.toNat) (signed 48 (w.toNat % 2 ^ 48)) = true)) ∧
  (∃ v : BitVec 64, ∃ w : BitVec 64, ∃ s : State, (Up s) ∧ (chainOwned s.hw = false) ∧ (w = v ||| BitVec.ofNat 64 (2
    ^ 63)) ∧ (stepOk (setF s.hw aTB_STEP fTB_STEP_OFS w.toNat) (signed 48 (w.toNat % 2 ^ 48)) = false)) ∧
  (∃ v : BitVec 64, ∃ w : BitVec 64, ∃ s : State, (Up s) ∧ (chainOwned s.hw = false) ∧ (w = v ||| BitVec.ofNat 64 (2
    ^ 63)) ∧ (fieldOf fTB_SET1_NS w.toNat < nsPerSec)) ∧
  (∃ v : BitVec 64, ∃ w : BitVec 64, ∃ s : State, (Up s) ∧ (chainOwned s.hw = false) ∧ (w = v ||| BitVec.ofNat 64 (2
    ^ 63)) ∧ (nsPerSec ≤ fieldOf fTB_SET1_NS w.toNat)) ∧
  (∃ s : State, (Up s)) ∧
  (∃ s : State, (s.hw.tb.ops = []) ∧ (s.hw.tb.frac < 2 ^ 32) ∧ (s.hw.tb.ns < nsPerSec) ∧ (s.hw.tb.sec + 1 < 2 ^ 48)) ∧
  (∃ k : Int, ∃ n : Int, ∃ s : State, (s.hw.tb.ops = [.step k]) ∧ (s.hw.tb.frac < 2 ^ 32) ∧ (s.hw.tb.ns < nsPerSec)
    ∧ (s.hw.tb.sec + 1 < 2 ^ 48) ∧ (n = ((now32 s.hw + (effOf s.hw).1) / 2 ^ 32 : Nat)) ∧ (0 ≤ n + k) ∧ (n + k <
    tbEnd)) ∧
  (∃ sec : Nat, ∃ ns : Nat, ∃ s : State, (s.hw.tb.ops = [.set sec ns])) ∧
  (∃ _die : BitVec 13, ∃ s : State, (frozen s.hw = false) ∧ (holdoverDue s.hw = true)) ∧
  (∃ _die : BitVec 13, ∃ s : State, (holdoverDue s.hw = false)) ∧
  (∃ fall : Bool, ∃ _half : Bool, ∃ s : State, (frozen s.hw = false) ∧ (isSet s.hw aTB_CAPIN fTB_CAPIN_EN = true) ∧
    (isSet s.hw aTB_CAPIN fTB_CAPIN_EDGE = fall) ∧ (isSet s.hw aTB_CAPIN fTB_CAPIN_VALID = false)) ∧
  (∃ fall : Bool, ∃ _half : Bool, ∃ s : State, (frozen s.hw = false) ∧ (isSet s.hw aTB_CAPIN fTB_CAPIN_EN = true) ∧
    (isSet s.hw aTB_CAPIN fTB_CAPIN_EDGE = fall) ∧ (isSet s.hw aTB_CAPIN fTB_CAPIN_VALID = true)) ∧
  (∃ fall : Bool, ∃ _half : Bool, ∃ s : State, (isSet s.hw aTB_CAPIN fTB_CAPIN_EN = false ∨ isSet s.hw aTB_CAPIN
    fTB_CAPIN_EDGE ≠ fall)) ∧
  (∃ s : State, (frozen s.hw = false) ∧ (ppsGranted s.hw = true) ∧ (s.hw.ppsHigh = false) ∧ ((s.hw.tb.ns * 2 ^ 32 +
    s.hw.tb.frac) < (effOf s.hw).1)) ∧
  (∃ s : State, (ppsGranted s.hw = false ∨ s.hw.ppsHigh = true ∨ (effOf s.hw).1 ≤ (s.hw.tb.ns * 2 ^ 32 +
    s.hw.tb.frac))) ∧
  (∃ s : State, (frozen s.hw = false) ∧ (s.hw.ppsHigh = true) ∧ ((getF s.hw aTB_PPS fTB_PPS_WIDTH * 1000) ≤
    s.hw.tb.ns)) ∧
  (∃ s : State, (s.hw.ppsHigh = false ∨ s.hw.tb.ns < (getF s.hw aTB_PPS fTB_PPS_WIDTH * 1000))) :=
  ⟨⟨0xD0555555, ownState, by decide +kernel⟩,
   ⟨0xD0600001, ownState, by decide +kernel⟩,
   ⟨0xD0555555, withReg upState aCH_TA (2 ^ fCH_TA_EN.lo), by decide +kernel⟩,
   ⟨5, withReg upState aCH_TA (2 ^ fCH_TA_EN.lo), by decide +kernel⟩,
   ⟨5, withReg upState aCH_TA (2 ^ fCH_TA_EN.lo), by decide +kernel⟩,
   ⟨1000, 0x80000000000003E8, ownState, by decide +kernel⟩,
   ⟨0xFFFFFFFFFFFF, 0x8000FFFFFFFFFFFF, ownState, by decide +kernel⟩,
   ⟨1000, 0x80000000000003E8, ownState, by decide +kernel⟩,
   ⟨1000000000, 0x800000003B9ACA00, ownState, by decide +kernel⟩,
   ⟨upState, by decide +kernel⟩,
   ⟨upState, by decide +kernel⟩,
   ⟨5, ((now32 upState.hw + (effOf upState.hw).1) / 2 ^ 32 : Nat), steppedState, by decide +kernel⟩,
   ⟨5, 6, setState, by decide +kernel⟩,
   ⟨400, upState, by decide +kernel⟩,
   ⟨400, divideState, by decide +kernel⟩,
   ⟨false, true, withReg upState aTB_CAPIN (2 ^ fTB_CAPIN_EN.lo), by decide +kernel⟩,
   ⟨false, true, withReg upState aTB_CAPIN (2 ^ fTB_CAPIN_EN.lo + 2 ^ fTB_CAPIN_VALID.lo), by decide +kernel⟩,
   ⟨false, true, upState, by decide +kernel⟩,
   ⟨ppsState, by decide +kernel⟩,
   ⟨upState, by decide +kernel⟩,
   ⟨{ ppsState with hw := { ppsState.hw with ppsHigh := true } }, by decide +kernel⟩,
   ⟨upState, by decide +kernel⟩⟩

/-- The hypotheses of each clause of GateEntriesAct are met. -/
theorem test_meets_GateEntriesAct :
  (∃ i : Fin 64, ∃ v : BitVec 64, ∃ s : State, (Up s) ∧ (commitRefused s.hw i v.toNat (stagedGate s.hw i).1
    (stagedGate s.hw i).2.1 (stagedGate s.hw i).2.2.1 = true)) ∧
  (∃ i : Fin 64, ∃ v : BitVec 64, ∃ s : State, (Up s) ∧ (commitRefused s.hw i v.toNat (stagedGate s.hw i).1
    (stagedGate s.hw i).2.1 (stagedGate s.hw i).2.2.1 = false)) ∧
  (∃ h : Hw, ∃ i : Nat, ∃ v : Nat, ∃ a : Nat, ∃ b : Nat, ∃ p : Nat, ∃ c : Nat, ∃ g : Gate, (g = gate (commitGate h i
    v a b p c false) i)) ∧
  (∃ i : Fin 64, ∃ s : State, (frozen s.hw = false) ∧ (gArmed s.hw i = true) ∧ (gOpen s.hw i = false) ∧ (gateDue
    s.hw i = true) ∧ (emptyOcc s.hw i (gate s.hw i) = true)) ∧
  (∃ i : Fin 64, ∃ s : State, (frozen s.hw = false) ∧ (gArmed s.hw i = true) ∧ (gOpen s.hw i = false) ∧ (gateDue
    s.hw i = true) ∧ (emptyOcc s.hw i (gate s.hw i) = false) ∧ (usesStop (reg s.hw (aGS_CTL i)).toNat = false)) ∧
  (∃ i : Fin 64, ∃ s : State, (frozen s.hw = false) ∧ (gArmed s.hw i = true) ∧ (gOpen s.hw i = false) ∧ (gateDue
    s.hw i = true) ∧ (emptyOcc s.hw i (gate s.hw i) = false) ∧ (usesStop (reg s.hw (aGS_CTL i)).toNat = true) ∧
    (gateLate s.hw i = true ∧ (t32 (gate s.hw i).stop : Int) ≤ lateRise s.hw i)) ∧
  (∃ i : Fin 64, ∃ s : State, (frozen s.hw = false) ∧ (gArmed s.hw i = true) ∧ (gOpen s.hw i = false) ∧ (gateDue
    s.hw i = true) ∧ (emptyOcc s.hw i (gate s.hw i) = false) ∧ (usesStop (reg s.hw (aGS_CTL i)).toNat = true) ∧ (¬
    (gateLate s.hw i = true ∧ (t32 (gate s.hw i).stop : Int) ≤ lateRise s.hw i))) ∧
  (∃ i : Fin 64, ∃ s : State, (gArmed s.hw i = false ∨ gOpen s.hw i = true ∨ gateDue s.hw i = false)) ∧
  (∃ i : Fin 64, ∃ h : Hw, ∃ s : State, (frozen s.hw = false) ∧ (gOpen s.hw i = true) ∧ (t32 (gate s.hw i).stop ≤
    now32 s.hw) ∧ (h = (if 2 ≤ getF s.hw (aGS_CTL i) fGS_CTL_EVMODE then strobe s.hw i else s.hw))) ∧
  (∃ i : Fin 64, ∃ s : State, (gOpen s.hw i = false ∨ now32 s.hw < t32 (gate s.hw i).stop)) ∧
  (∃ h : Hw, ∃ i : Nat, ((gate h i).per = 0 ∨ (gate h i).cnt = 1)) ∧
  (∃ h : Hw, ∃ i : Nat, ∃ g : Gate, (g = gate h i) ∧ (g.per ≠ 0) ∧ (g.cnt ≠ 1) ∧ (g.skip = none)) :=
  ⟨⟨0, BitVec.ofNat 64 (1 + 2 ^ fGS_CTL_PINEN.lo), withReg upState (aGS_STARTS 0) 1, by decide +kernel⟩,
   ⟨63, 0, upState, by decide +kernel⟩,
   ⟨upState.hw, 3, 1, 4, 5, 6, 7, gate (commitGate upState.hw 3 1 4 5 6 7 false) 3, by decide +kernel⟩,
   ⟨0, emptyGate, by decide +kernel⟩,
   ⟨0, gateState 1 false, by decide +kernel⟩,
   ⟨0, lateGate, by decide +kernel⟩,
   ⟨0, gateState 2 false, by decide +kernel⟩,
   ⟨0, upState, by decide +kernel⟩,
   ⟨0, (gateState 1 true).hw, gateState 1 true, by decide +kernel⟩,
   ⟨0, upState, by decide +kernel⟩,
   ⟨(gateState 1 true).hw, 0, by decide +kernel⟩,
   ⟨perGate.hw, 0, gate perGate.hw 0, by decide +kernel⟩⟩

/-- The hypotheses of each clause of FabricPadsAndCaptureAct are met. -/
theorem test_meets_FabricPadsAndCaptureAct :
  (∃ c : FabClk, ∃ r : Bool, ∃ _pads : List (Nat × BitVec 8), ∃ s : State, (c = .fclk r ∨ c = .aclk4 r) ∧ (frozen
    s.hw = false) ∧ (r = false) ∧ (s.hw.aclk % 4 = 2) ∧ (s.hw.fab.edge ≠ s.hw.aclk + 1)) ∧
  (∃ c : FabClk, ∃ r : Bool, ∃ _pads : List (Nat × BitVec 8), ∃ s : State, (c = .fclk r ∨ c = .aclk4 r) ∧ (frozen
    s.hw = false) ∧ (r = true) ∧ (s.hw.aclk % 4 = 0) ∧ (s.hw.fab.edge ≠ s.hw.aclk + 1)) ∧
  (∃ c : FabClk, ∃ r : Bool, ∃ _pads : List (Nat × BitVec 8), ∃ s : State, (c = .fclk r ∨ c = .aclk4 r) ∧ (s.hw.aclk
    % 4 ≠ (if r = true then 0 else 2) ∨ s.hw.fab.edge = s.hw.aclk + 1)) ∧
  (∃ _b : Fin 256, ∃ _i : Fin 48, ∃ _r : Bool, ∃ _pads : List (Nat × BitVec 8), ∃ s : State, (frozen s.hw = false) ∧
    (fabOn s.hw = true)) ∧
  (∃ m : Sparse Byte, ∃ b : Nat, ∃ k : Nat, (turnsBack k (segRec m b k % 256) = true ∨ selectFits (segRec m b k %
    256) = false)) ∧
  (∃ _b : Fin 256, ∃ _i : Fin 48, ∃ _r : Bool, ∃ _pads : List (Nat × BitVec 8), ∃ s : State, (fabOn s.hw = false)) ∧
  (∃ y : Fin 16, ∃ k : Fin 16, ∃ s : State, (frozen s.hw = false) ∧ (s.hw.fab.evs.contains (16 * y.val + k.val) =
    true)) ∧
  (∃ y : Fin 16, ∃ k : Fin 16, ∃ s : State, (s.hw.fab.evs.contains (16 * y.val + k.val) = false)) ∧
  (∃ k : Fin 4, ∃ s : State, (frozen s.hw = false) ∧ (s.hw.fab.chEvs.contains k.val = true)) ∧
  (∃ k : Fin 4, ∃ s : State, (s.hw.fab.chEvs.contains k.val = false)) ∧
  (∃ b : Fin 4, ∃ v : Bool, ∃ mv : BitVec 16, ∃ h : Hw, ∃ s : State, (Up s) ∧ (h = setF s.hw aPW_VIN fPW_VIN_MV
    mv.toNat) ∧ (bankStands h b v = false)) ∧
  (∃ b : Fin 4, ∃ v : Bool, ∃ mv : BitVec 16, ∃ h : Hw, ∃ s : State, (Up s) ∧ (h = setF s.hw aPW_VIN fPW_VIN_MV
    mv.toNat) ∧ (bankStands h b v = true)) ∧
  (∃ _b : Fin 4, ∃ mv : Nat, ∃ s : State, (frozen s.hw = false) ∧ (3600 ≤ mv)) ∧
  (∃ _b : Fin 4, ∃ mv : Nat, ∃ s : State, (frozen s.hw = false) ∧ (mv < 3600)) ∧
  (∃ _b : Fin 4, ∃ _mv : Nat, ∃ s : State, (frozen s.hw = false)) ∧
  (∃ b : Fin 4, ∃ s : State, (s.hw.clocked = true) ∧ (isSet s.hw (aFIO_BANK b) fFIO_BANK_ACT33 = true)) ∧
  (∃ b : Fin 4, ∃ s : State, (s.hw.clocked = false ∨ isSet s.hw (aFIO_BANK b) fFIO_BANK_ACT33 = false)) ∧
  (∃ _p : Fin 64, ∃ _c : Bool, ∃ s : State, (Up s)) ∧
  (∃ p : Fin 64, ∃ s : State, (frozen s.hw = false) ∧ (padOwner s.hw p ≠ 0) ∧ (padClaimed s.hw p (padOwner s.hw p) =
    false)) ∧
  (∃ p : Fin 64, ∃ s : State, (padOwner s.hw p = 0 ∨ padClaimed s.hw p (padOwner s.hw p) = true)) ∧
  (∃ h : Hw, (h.aclk % 4 = 0)) ∧
  (∃ mode : BitVec 2, ∃ s : State, (Up s) ∧ (mode = 0)) ∧
  (∃ mode : BitVec 2, ∃ s : State, (Up s) ∧ (mode = 1) ∧ ((reg s.hw aCAP_EDGE).toNat < nextEdge s.hw)) ∧
  (∃ mode : BitVec 2, ∃ s : State, (Up s) ∧ (mode = 1) ∧ (nextEdge s.hw ≤ (reg s.hw aCAP_EDGE).toNat)) ∧
  (∃ mode : BitVec 2, ∃ s : State, (Up s) ∧ (mode = 2) ∧ (capTime s.hw ≤ now32 s.hw)) ∧
  (∃ mode : BitVec 2, ∃ s : State, (Up s) ∧ (mode = 2) ∧ (now32 s.hw < capTime s.hw)) ∧
  (∃ mode : BitVec 2, ∃ s : State, (Up s) ∧ (mode = 3)) ∧
  (∃ s : State, (Up s)) ∧
  (∃ x : CapArm, ∃ s : State, (frozen s.hw = false) ∧ (s.hw.cap = some x) ∧ (s.hw.aclk % 4 = 0) ∧ (s.hw.fab.edge ≠
    s.hw.aclk + 1) ∧ (captureDue s.mem s.hw x = some true)) ∧
  (∃ x : CapArm, ∃ s : State, (frozen s.hw = false) ∧ (s.hw.cap = some x) ∧ (s.hw.aclk % 4 = 0) ∧ (s.hw.fab.edge ≠
    s.hw.aclk + 1) ∧ (captureDue s.mem s.hw x = some false)) ∧
  (∃ x : CapArm, ∃ h : Hw, ∃ s : State, (frozen s.hw = false) ∧ (s.hw.cap = some x) ∧ (s.hw.aclk % 4 = 0) ∧
    (s.hw.fab.edge ≠ s.hw.aclk + 1) ∧ (captureDue s.mem s.hw x = none) ∧ (h = (settle s.hw none).2)) ∧
  (∃ s : State, (s.hw.cap = none ∨ s.hw.aclk % 4 ≠ 0 ∨ s.hw.fab.edge = s.hw.aclk + 1)) ∧
  (∃ h : Hw, ∃ e : Nat, (h.capEnd = some e) ∧ (e ≤ h.aclk)) :=
  ⟨⟨.fclk false, false, [], fabState 2, by decide +kernel⟩,
   ⟨.aclk4 true, true, [], upState, by decide +kernel⟩,
   ⟨.fclk false, false, [], upState, by decide +kernel⟩,
   ⟨0, 0, true, [], fabState 2, by decide +kernel⟩,
   ⟨writeBytes [] (blockAddr 3 + 0x580) [16], 3, 0, by decide +kernel⟩,
   ⟨0, 0, true, [], upState, by decide +kernel⟩,
   ⟨0, 3, fabState 2, by decide +kernel⟩,
   ⟨0, 3, upState, by decide +kernel⟩,
   ⟨2, fabState 2, by decide +kernel⟩,
   ⟨2, upState, by decide +kernel⟩,
   ⟨3, true, 3700, setF upState.hw aPW_VIN fPW_VIN_MV 3700, upState, by decide +kernel⟩,
   ⟨3, false, 3700, setF upState.hw aPW_VIN fPW_VIN_MV 3700, upState, by decide +kernel⟩,
   ⟨0, 3600, upState, by decide +kernel⟩,
   ⟨0, 3599, upState, by decide +kernel⟩,
   ⟨0, 3599, upState, by decide +kernel⟩,
   ⟨0, withReg upState (aFIO_BANK 0) (2 ^ fFIO_BANK_ACT33.lo), by decide +kernel⟩,
   ⟨0, upState, by decide +kernel⟩,
   ⟨63, true, upState, by decide +kernel⟩,
   ⟨0, withReg upState (aFIO_PAD 0) (2 ^ fFIO_PAD_OWNER.lo), by decide +kernel⟩,
   ⟨0, upState, by decide +kernel⟩,
   ⟨upState.hw, by decide +kernel⟩,
   ⟨0, upState, by decide +kernel⟩,
   ⟨1, upState, by decide +kernel⟩,
   ⟨1, withReg upState aCAP_EDGE 9, by decide +kernel⟩,
   ⟨2, upState, by decide +kernel⟩,
   ⟨2, withReg upState aCAP_TSEC 9, by decide +kernel⟩,
   ⟨3, upState, by decide +kernel⟩,
   ⟨armedCapState, by decide +kernel⟩,
   ⟨⟨0, some 0, false⟩, armedCapState, by decide +kernel⟩,
   ⟨⟨0, some 1, false⟩, laterCapState, by decide +kernel⟩,
   ⟨⟨3, none, false⟩, (settle openCapState.hw none).2, openCapState, ⟨by decide +kernel, by decide +kernel, by decide +kernel, by decide +kernel, by decide +kernel, rfl⟩⟩,
   ⟨upState, by decide +kernel⟩,
   ⟨endingCap.hw, 0, by decide +kernel⟩⟩

/-- The hypotheses of each clause of MailboxSlotsFollowTheirStates are met. -/
theorem test_meets_MailboxSlotsFollowTheirStates :
  (∃ off : BitVec 14, ∃ bs : List (BitVec 8), ∃ s : State, (s.hw.clocked = true) ∧ (∀ i : Fin bs.length, requestByte
    s.hw (off.toNat + i) = true)) ∧
  (∃ off : BitVec 14, ∃ bs : List (BitVec 8), ∃ i : Fin bs.length, ∃ s : State, (s.hw.clocked = true) ∧ (requestByte
    s.hw (off.toNat + i) = false)) ∧
  (∃ _v : BitVec 64, ∃ s : State, (s.hw.clocked = true)) ∧
  (∃ sl : Fin 16, ∃ s : State, (s.hw.clocked = true) ∧ ((slot s.hw sl).st ≠ .free)) ∧
  (∃ sl : Fin 48, ∃ uce : Bool, ∃ s : State, (nextTaken s.hw = some sl.val) ∧ (uce = false ∨ 16 ≤ sl.val) ∧
    (headerStatus (takenBy s.hw sl) sl (takenSlot s.hw sl) = stOk)) ∧
  (∃ sl : Fin 48, ∃ uce : Bool, ∃ st : Nat, ∃ s : State, (nextTaken s.hw = some sl.val) ∧ (uce = false ∨ 16 ≤
    sl.val) ∧ (st = headerStatus (takenBy s.hw sl) sl (takenSlot s.hw sl)) ∧ (st ≠ stOk)) ∧
  (∃ sl : Fin 48, ∃ s : State, (sl.val < 16) ∧ (nextTaken s.hw = some sl.val)) ∧
  (∃ sl : Fin 48, ∃ _uce : Bool, ∃ s : State, (nextTaken s.hw ≠ some sl.val)) ∧
  (∃ sl : Fin 48, ∃ pos : BitVec 64, ∃ total : BitVec 64, ∃ x : Slot, ∃ y : Slot, ∃ s : State, (frozen s.hw = false
    ∨ engineOp x.opc = true) ∧ (x = slot s.hw sl) ∧ (y = progressed s.hw sl pos.toNat total.toNat) ∧ (x.st =
    .running) ∧ (y.pos < y.total) ∧ (progressOf x ≤ progressOf y)) ∧
  (∃ sl : Fin 48, ∃ pos : BitVec 64, ∃ total : BitVec 64, ∃ x : Slot, ∃ y : Slot, ∃ s : State, (x = slot s.hw sl) ∧
    (y = progressed s.hw sl pos.toNat total.toNat) ∧ (x.st ≠ .running ∨ y.total ≤ y.pos ∨ progressOf y < progressOf
    x ∨ (frozen s.hw = true ∧ engineOp x.opc = false))) ∧
  (∃ h : Hw, ∃ sl : Nat, ∃ _pos : Nat, ∃ _total : Nat, ∃ x : Slot, (x = slot h sl) ∧ (sl < 16) ∧ (x.tgt ≠ selfAddr
    h)) ∧
  (∃ h : Hw, ∃ sl : Nat, ∃ _pos : Nat, ∃ _total : Nat, ∃ x : Slot, ∃ t : MemTest, (x = slot h sl) ∧ (16 ≤ sl ∨ x.tgt
    = selfAddr h) ∧ (x.opc = 0x801) ∧ (h.memTest = some t)) ∧
  (∃ _v : BitVec 64, ∃ s : State, (s.hw.clocked = true) ∧ (s.hw.justSet.contains (aHI_DONE, 0) = false)) ∧
  (∃ sl : Fin 16, ∃ s : State, (s.hw.clocked = true) ∧ ((slot s.hw sl).st = .posted)) ∧
  (∃ sl : Fin 16, ∃ s : State, (s.hw.clocked = true) ∧ ((slot s.hw sl).st = .running) ∧ (∀ i : Fin
    s.hw.chain.out.length, (s.hw.chain.out.get i).2.slot ≠ some sl.val)) ∧
  (∃ sl : Fin 16, ∃ i : Nat, ∃ o : ChOut, ∃ s : State, (s.hw.clocked = true) ∧ ((slot s.hw sl).st = .running) ∧
    (s.hw.chain.out = [(i, o)]) ∧ (o.slot = some sl.val)) ∧
  (∃ sl : Fin 16, ∃ s : State, (s.hw.clocked = true) ∧ ((slot s.hw sl).st = .taken ∨ (slot s.hw sl).st = .free ∨
    (slot s.hw sl).st = .done)) ∧
  (∃ s : State, (s.hw.clocked = true)) ∧
  (∃ s : State, (s.hw.clocked = true)) ∧
  (∃ sl : Fin 16, ∃ x : Slot, ∃ s : State, (s.hw.clocked = true) ∧ (s.hw.slots = [(sl.val, x)]) ∧ (x.st = .taken ∨
    x.st = .running)) ∧
  (∃ sl : Fin 16, ∃ x : Slot, ∃ s : State, (s.hw.clocked = true) ∧ (s.hw.slots = [(sl.val, x)]) ∧ (x.st = .taken ∨
    x.st = .running)) ∧
  (∃ s : State, (s.hw.clocked = true) ∧ (isDev0 s.hw = false)) ∧
  (∃ s : State, (s.hw.clocked = true) ∧ (isDev0 s.hw = true)) ∧
  (∃ _off : BitVec 14, ∃ _bs : List (BitVec 8), ∃ s : State, (s.hw.clocked = false)) ∧
  (∃ _v : BitVec 64, ∃ s : State, (s.hw.clocked = false)) ∧
  (∃ _v : BitVec 64, ∃ s : State, (s.hw.clocked = false)) ∧
  (∃ _v : BitVec 64, ∃ s : State, (s.hw.clocked = false)) ∧
  (∃ _level : Bool, ∃ s : State, (s.hw.clocked = false)) ∧
  (∃ s : State, (s.hw.clocked = false)) :=
  ⟨⟨0x3DFF, [0xFF], upState, by decide +kernel⟩,
   ⟨0x1FF, [0xFE, 0xFF], 1, upState, by decide +kernel⟩,
   ⟨0x8003, upState, by decide +kernel⟩,
   ⟨0, cmdState 0x100 [], by decide +kernel⟩,
   ⟨3, false, postedState [0, 1], by decide +kernel⟩,
   ⟨3, false, stUnsupported, postedState [0, 0], by decide +kernel⟩,
   ⟨3, postedState [0, 1], by decide +kernel⟩,
   ⟨4, false, postedState [0, 1], by decide +kernel⟩,
   ⟨0, 3, 4, slot (runState 0x301 []).hw 0, progressed (runState 0x301 []).hw 0 3 4, runState 0x301 [], by decide +kernel⟩,
   ⟨0, 1, 4, slot (upState).hw 0, progressed (upState).hw 0 1 4, upState, by decide +kernel⟩,
   ⟨setSlot upState.hw 0 { Slot.free with tgt := 5 }, 0, 1, 4, { Slot.free with tgt := 5 }, by decide +kernel⟩,
   ⟨{ (setSlot upState.hw 0 { Slot.free with opc := 0x801 }) with memTest := some ⟨[(0, 3)], 0, 0, 0, 0⟩ }, 0, 1, 4, { Slot.free with opc := 0x801 }, ⟨[(0, 3)], 0, 0, 0, 0⟩, by decide +kernel⟩,
   ⟨0xFFFF, doneState, by decide +kernel⟩,
   ⟨3, postedState [0, 1], by decide +kernel⟩,
   ⟨0, runState 0x301 [], by decide +kernel⟩,
   ⟨0, 4, ⟨5, 1, none, some 0⟩, { forwardedState with hw := { forwardedState.hw with chain := { upState.hw.chain with out := [(4, ⟨5, 1, none, some 0⟩)] }, slots := [(0, { Slot.free with st := .running, tgt := 5 })] } }, by decide +kernel⟩,
   ⟨0, cmdState 0x100 [], by decide +kernel⟩,
   ⟨doneState, by decide +kernel⟩,
   ⟨doneState, by decide +kernel⟩,
   ⟨0, { Slot.free with st := .running, opc := 0x301, total := 8 }, runState 0x301 [], by decide +kernel⟩,
   ⟨0, { Slot.free with st := .running, opc := 0x301, total := 8 }, runState 0x301 [], by decide +kernel⟩,
   ⟨upState, by decide +kernel⟩,
   ⟨{ upState with hw := sampleStraps upState.hw ⟨0, 0, true⟩ }, by decide +kernel⟩,
   ⟨0, [1], State.reset, by decide +kernel⟩,
   ⟨1, State.reset, by decide +kernel⟩,
   ⟨1, State.reset, by decide +kernel⟩,
   ⟨1, State.reset, by decide +kernel⟩,
   ⟨false, State.reset, by decide +kernel⟩,
   ⟨State.reset, by decide +kernel⟩⟩

/-- The hypotheses of each clause of LongCommandsEndWithTheirResult are met. -/
theorem test_meets_LongCommandsEndWithTheirResult :
  (∃ sl : Fin 48, ∃ s : State, (Runs s sl 0x102) ∧ (s.hw.inDom.contains (pay (slot s.hw sl) 0 1) = false) ∧
    (s.hw.quarantined.getLsbD (pay (slot s.hw sl) 0 1) = false)) ∧
  (∃ sl : Fin 48, ∃ s : State, (Runs s sl 0x102) ∧ (s.hw.inDom.contains (pay (slot s.hw sl) 0 1) = true ∨
    s.hw.quarantined.getLsbD (pay (slot s.hw sl) 0 1) = true)) ∧
  (∃ sl : Fin 48, ∃ s : State, (Runs s sl 0x201) ∧ (s.hw.chain.rolling = false)) ∧
  (∃ sl : Fin 48, ∃ s : State, (Runs s sl 0x201) ∧ (s.hw.chain.rolling = true)) ∧
  (∃ sl : Fin 48, ∃ s : State, (Runs s sl 0x301)) ∧
  (∃ sl : Fin 48, ∃ s : State, (Runs s sl 0x302) ∧ ((keySlot s.nv (pay (slot s.hw sl) 0 1)).prov = true)) ∧
  (∃ sl : Fin 48, ∃ s : State, (Runs s sl 0x303) ∧ (s.nv.revoked.getLsbD (pay (slot s.hw sl) 0 1) = true)) ∧
  (∃ sl : Fin 48, ∃ s : State, (Runs s sl 0x304) ∧ (s.nv.aesOk = true)) ∧
  (∃ sl : Fin 48, ∃ s : State, (Runs s sl 0x302) ∧ ((keySlot s.nv (pay (slot s.hw sl) 0 1)).prov = false)) ∧
  (∃ sl : Fin 48, ∃ s : State, (Runs s sl 0x303) ∧ (s.nv.revoked.getLsbD (pay (slot s.hw sl) 0 1) = false)) ∧
  (∃ sl : Fin 48, ∃ s : State, (Runs s sl 0x304) ∧ (s.nv.aesOk = false)) ∧
  (∃ sl : Fin 48, ∃ m : MemTest, ∃ s : State, (Runs s sl 0x801) ∧ (s.hw.memTest = some m) ∧ (m.left = [])) ∧
  (∃ sl : Fin 48, ∃ m : MemTest, ∃ s : State, (Runs s sl 0x801) ∧ (s.hw.memTest = some m) ∧ (m.left ≠ [])) ∧
  (∃ sl : Fin 48, ∃ s : State, (Runs s sl 0x904) ∧ (∀ y : Fin 16, (pay (slot s.hw sl) 0 2).testBit y = true →
    yardRuns s.hw y = true → (yardAge s.hw y).owed = false)) ∧
  (∃ sl : Fin 48, ∃ y : Fin 16, ∃ s : State, (Runs s sl 0x904) ∧ ((pay (slot s.hw sl) 0 2).testBit y = true) ∧
    (yardRuns s.hw y = true) ∧ ((yardAge s.hw y).owed = true)) ∧
  (∃ sl : Fin 48, ∃ s : State, (Runs s sl 0xA10)) ∧
  (∃ sl : Fin 48, ∃ l : FwLoad, ∃ k : Nat, ∃ s : State, (Runs s sl 0x306) ∧ (s.hw.fwLoad = some l) ∧ (l.sl = sl.val)
    ∧ (k = (checkImage s.nv s.mem (withoutFwLoad s.hw) l.bytes l.bytes.length [] true).1) ∧ (k ≠ 0)) ∧
  (∃ sl : Fin 48, ∃ opc : Nat, ∃ s : State, (Runs s sl opc)) ∧
  (∃ sl : Fin 48, ∃ _hf : Bool, ∃ s : State, ((slot s.hw sl).st ≠ .running ∨ mpRuns s.hw (slot s.hw sl).opc =
    false)) ∧
  (∃ sl : Fin 48, ∃ _hf : Bool, ∃ s : State, (RunsHere s sl) ∧ ((slot s.hw sl).opc = 0x301) ∧ ((slot s.hw sl).abort
    = true)) ∧
  (∃ sl : Fin 48, ∃ _hf : Bool, ∃ l : Load, ∃ s : State, (RunsHere s sl) ∧ ((slot s.hw sl).opc = 0x300) ∧ ((slot
    s.hw sl).abort = true) ∧ (s.hw.load = some l) ∧ (l.sl = sl.val)) ∧
  (∃ sl : Fin 48, ∃ _hf : Bool, ∃ s : State, (RunsHere s sl) ∧ ((slot s.hw sl).opc = 0x306) ∧ ((slot s.hw sl).abort
    = true)) ∧
  (∃ sl : Fin 48, ∃ _hf : Bool, ∃ m : MemTest, ∃ s : State, (RunsHere s sl) ∧ ((slot s.hw sl).opc = 0x801) ∧ ((slot
    s.hw sl).abort = true) ∧ (s.hw.memTest = some m) ∧ ((m.left.any fun e => (muck s.hw e.1).holding) = false)) ∧
  (∃ sl : Fin 48, ∃ _hf : Bool, ∃ s : State, (RunsHere s sl) ∧ ((slot s.hw sl).opc = 0x904) ∧ ((slot s.hw sl).abort
    = true)) ∧
  (∃ sl : Fin 48, ∃ l : Load, ∃ k : Nat, ∃ s : State, (loadAt s.hw sl .staged = some l) ∧ (k = (checkImage s.nv
    s.mem s.hw (stagedBytes s.mem l) l.len l.yards false).1) ∧ (0 < k) ∧ (k < 5)) ∧
  (∃ h : Hw, ∃ l : Load, ∃ img : List Byte, (l.mode = 0) ∧ (parkedAll h img = false)) ∧
  (∃ sl : Fin 48, ∃ s : State, (loadAt s.hw sl .staged = none)) ∧
  (∃ sl : Fin 48, ∃ _fails : Option (Fin 3), ∃ s : State, (loadAt s.hw sl .checked = none)) ∧
  (∃ sl : Fin 48, ∃ l : Load, ∃ fails : Option (Fin 3), ∃ s : State, (loadAt s.hw sl .checked = some l) ∧
    ((appliedBy s l fails).2.1 = stOk) ∧ ((appliedBy s l fails).2.2 = true)) ∧
  (∃ sl : Fin 48, ∃ l : Load, ∃ fails : Option (Fin 3), ∃ st : Nat, ∃ s : State, (loadAt s.hw sl .checked = some l)
    ∧ (st = (appliedBy s l fails).2.1) ∧ (st ≠ stOk)) ∧
  (∃ sl : Fin 48, ∃ i : Nat, ∃ o : ChOut, ∃ s : State, (frozen s.hw = false) ∧ (s.hw.chain.out = [(i, o)]) ∧ (o.slot
    = some sl.val) ∧ (o.op = 0)) ∧
  (∃ sl : Fin 48, ∃ s : State, (frozen s.hw = true ∨ ∀ i : Fin s.hw.chain.out.length, (s.hw.chain.out.get i).2.slot
    ≠ some sl.val ∨ (s.hw.chain.out.get i).2.op ≠ 0)) :=
  ⟨⟨0, runState 0x102 [31, 0, 0, 0, 0, 0, 0, 0], by decide +kernel⟩,
   ⟨0, { runState 0x102 [0] with hw := { (runState 0x102 [0]).hw with quarantined := 1 } }, by decide +kernel⟩,
   ⟨0, runState 0x201 [], by decide +kernel⟩,
   ⟨0, { runState 0x201 [] with hw := { (runState 0x201 []).hw with chain := { upState.hw.chain with rolling := true } } }, by decide +kernel⟩,
   ⟨0, runState 0x301 [], by decide +kernel⟩,
   ⟨0, { runState 0x302 [1] with nv := setKeySlot Nv.reset 1 ⟨0, true⟩ }, by decide +kernel⟩,
   ⟨0, { runState 0x303 [31] with nv := { Nv.reset with revoked := 0x80000000 } }, by decide +kernel⟩,
   ⟨0, { runState 0x304 [] with nv := { Nv.reset with aesOk := true } }, by decide +kernel⟩,
   ⟨0, runState 0x302 [1], by decide +kernel⟩,
   ⟨0, runState 0x303 [31], by decide +kernel⟩,
   ⟨0, runState 0x304 [], by decide +kernel⟩,
   ⟨0, ⟨[], 0, 0, 0, 0⟩, memTestState [], by decide +kernel⟩,
   ⟨0, ⟨[(0, 5)], 0, 0, 0, 0⟩, memTestState [(0, 5)], by decide +kernel⟩,
   ⟨0, runState 0x904 [255, 255], by decide +kernel⟩,
   ⟨0, 15, { runState 0x904 [0, 0x80] with hw := setYardAge (runState 0x904 [0, 0x80]).hw 15 (owing (yardAge upState.hw 15)) }, by decide +kernel⟩,
   ⟨0, inFrozen (runState 0xA10 []), by decide +kernel⟩,
   ⟨0, ⟨0, []⟩, 1, { runState 0x306 [] with hw := { (runState 0x306 []).hw with fwLoad := some ⟨0, []⟩ } }, by decide +kernel⟩,
   ⟨0, 0x201, runState 0x201 [], by decide +kernel⟩,
   ⟨0, true, cmdState 0x201 [], by decide +kernel⟩,
   ⟨0, false, { runState 0x301 [] with hw := { (runState 0x301 []).hw with slots := [(0, { Slot.free with st := .running, opc := 0x301, abort := true })] } }, by decide +kernel⟩,
   ⟨0, false, stagedLoad, { runState 0x300 [] with hw := { (runState 0x300 []).hw with slots := [(0, { Slot.free with st := .running, opc := 0x300, abort := true })], load := some stagedLoad, staging := true } }, by decide +kernel⟩,
   ⟨0, false, { runState 0x306 [] with hw := { (runState 0x306 []).hw with slots := [(0, { Slot.free with st := .running, opc := 0x306, abort := true })] } }, by decide +kernel⟩,
   ⟨0, false, ⟨[(0, 5)], 0, 0, 0, 0⟩, { runState 0x801 [] with hw := { (runState 0x801 []).hw with slots := [(0, { Slot.free with st := .running, opc := 0x801, abort := true })], memTest := some ⟨[(0, 5)], 0, 0, 0, 0⟩ } }, by decide +kernel⟩,
   ⟨0, false, { runState 0x904 [] with hw := { (runState 0x904 []).hw with slots := [(0, { Slot.free with st := .running, opc := 0x904, abort := true })] } }, by decide +kernel⟩,
   ⟨0, stagedLoad, 1, stagedState, by decide +kernel⟩,
   ⟨{ upState.hw with fns := [(fnId 7 0, ⟨true, 0, []⟩)] }, { stagedLoad with mode := 0 }, touchesFabric, by decide +kernel⟩,
   ⟨0, upState, by decide +kernel⟩,
   ⟨0, none, upState, by decide +kernel⟩,
   ⟨0, checkedLoad, none, checkedState, by decide +kernel⟩,
   ⟨0, checkedLoad, some 0, stHwFault, checkedState, by decide +kernel⟩,
   ⟨0, 4, ⟨5, 0, none, some 0⟩, forwardedState, by decide +kernel⟩,
   ⟨1, forwardedState, by decide +kernel⟩⟩

/-- The hypotheses of each clause of DeviceAndChainCommandsRun are met. -/
theorem test_meets_DeviceAndChainCommandsRun :
  (∃ sl : Fin 48, ∃ s : State, (Ready s sl 0x100)) ∧
  (∃ sl : Fin 48, ∃ s : State, (Ready s sl 0x101)) ∧
  (∃ sl : Fin 48, ∃ s : State, (Ready s sl 0x102) ∧ (pay (held s sl) 0 1 ≤ 0x20) ∧ (domainFree (asked s sl).hw (pay
    (held s sl) 0 1) = true)) ∧
  (∃ sl : Fin 48, ∃ s : State, (Ready s sl 0x102) ∧ (pay (held s sl) 0 1 ≤ 0x20) ∧ (domainFree (asked s sl).hw (pay
    (held s sl) 0 1) = false)) ∧
  (∃ sl : Fin 48, ∃ s : State, (Ready s sl 0x103) ∧ (pay (held s sl) 0 1 = 1) ∧ (testAllowed (asked s sl).hw =
    true)) ∧
  (∃ sl : Fin 48, ∃ s : State, (Ready s sl 0x103) ∧ (pay (held s sl) 0 1 = 2) ∧ (runAllowed (asked s sl).hw = true)) ∧
  (∃ sl : Fin 48, ∃ s : State, (Ready s sl 0x103) ∧ (pay (held s sl) 0 1 = 2) ∧ (runAllowed (asked s sl).hw =
    false)) ∧
  (∃ sl : Fin 48, ∃ s : State, (Ready s sl 0x103) ∧ (pay (held s sl) 0 1 = 1) ∧ (testAllowed (asked s sl).hw =
    false)) ∧
  (∃ sl : Fin 48, ∃ s : State, (Ready s sl 0x200)) ∧
  (∃ sl : Fin 48, ∃ s : State, (Ready s sl 0x201)) ∧
  (∃ sl : Fin 48, ∃ s : State, (Ready s sl 0x202) ∧ (pay (held s sl) 0 1 ≤ 2)) ∧
  (∃ sl : Fin 48, ∃ s : State, (Ready s sl 0x203) ∧ (s.hw.mode = .isolated)) ∧
  (∃ sl : Fin 48, ∃ s : State, (Ready s sl 0x203) ∧ (s.hw.mode ≠ .isolated)) ∧
  (∃ sl : Fin 48, ∃ s : State, (Ready s sl 0x204) ∧ ((List.range 64).foldl (fun acc d => acc + pay (held s sl) d 1)
    0 ≤ 256)) ∧
  (∃ sl : Fin 48, ∃ s : State, (Ready s sl 0x205) ∧ (pay (held s sl) 0 1 ≤ 1)) ∧
  (∃ sl : Fin 48, ∃ s : State, (Ready s sl 0x206)) :=
  ⟨⟨0, cmdState 0x100 [], by decide +kernel⟩,
   ⟨0, cmdState 0x101 [], by decide +kernel⟩,
   ⟨0, cmdState 0x102 [27, 0, 0, 0, 0, 0, 0, 0], by decide +kernel⟩,
   ⟨0, ({ cmdState 0x102 [27, 0, 0, 0, 0, 0, 0, 0] with hw := setFn (cmdState 0x102 [27, 0, 0, 0, 0, 0, 0, 0]).hw (fnId 6 0) ⟨true, 0, []⟩ }), by decide +kernel⟩,
   ⟨0, cmdState 0x103 [1, 0, 0, 0, 0, 0, 0, 0], by decide +kernel⟩,
   ⟨0, ({ cmdState 0x103 [2, 0, 0, 0, 0, 0, 0, 0] with hw := { (cmdState 0x103 [2, 0, 0, 0, 0, 0, 0, 0]).hw with mode := .test } }), by decide +kernel⟩,
   ⟨0, cmdState 0x103 [2, 0, 0, 0, 0, 0, 0, 0], by decide +kernel⟩,
   ⟨0, ({ cmdState 0x103 [1, 0, 0, 0, 0, 0, 0, 0] with hw := { (cmdState 0x103 [1, 0, 0, 0, 0, 0, 0, 0]).hw with mode := .test } }), by decide +kernel⟩,
   ⟨0, cmdState 0x200 [], by decide +kernel⟩,
   ⟨0, cmdState 0x201 [], by decide +kernel⟩,
   ⟨0, cmdState 0x202 [2, 0, 100, 0, 0, 0, 0, 0], by decide +kernel⟩,
   ⟨0, ({ cmdState 0x203 [] with hw := { (cmdState 0x203 []).hw with mode := .isolated } }), by decide +kernel⟩,
   ⟨0, cmdState 0x203 [], by decide +kernel⟩,
   ⟨0, cmdState 0x204 (List.replicate 64 4), by decide +kernel⟩,
   ⟨0, cmdState 0x205 [1, 0, 0, 0, 0, 0, 0, 0], by decide +kernel⟩,
   ⟨0, cmdState 0x206 [], by decide +kernel⟩⟩

/-- The hypotheses of each clause of ImageAndKeyCommandsRun are met. -/
theorem test_meets_ImageAndKeyCommandsRun :
  (∃ sl : Fin 48, ∃ ok : Bool, ∃ remote : List (BitVec 8), ∃ bytes : List Byte, ∃ s : State, (Ready s sl 0x300) ∧
    (pay (held s sl) 0 8 < 2 ^ 46) ∧ (pay (held s sl) 8 4 ≤ 0x4000000) ∧ (pay (held s sl) 12 1 ≤ 2) ∧ (loading
    (asked s sl).hw = false) ∧ (s.hw.dramGib ≠ 0) ∧ ((sourceBytes s.mem (asked s sl).hw (pay (held s sl) 0 8) (pay
    (held s sl) 8 4) ok remote).1 = some bytes)) ∧
  (∃ sl : Fin 48, ∃ ok : Bool, ∃ remote : List (BitVec 8), ∃ bytes : List Byte, ∃ ys : List Nat, ∃ s : State, (Ready
    s sl 0x300) ∧ (pay (held s sl) 0 8 < 2 ^ 46) ∧ (pay (held s sl) 8 4 ≤ 0x4000000) ∧ (pay (held s sl) 12 1 ≤ 2) ∧
    (loading (asked s sl).hw = false) ∧ (s.hw.dramGib = 0) ∧ (stagingLofts (asked s sl).hw (pay (held s sl) 8 4) =
    some ys) ∧ ((sourceBytes s.mem (asked s sl).hw (pay (held s sl) 0 8) (pay (held s sl) 8 4) ok remote).1 = some
    bytes)) ∧
  (∃ sl : Fin 48, ∃ ok : Bool, ∃ remote : List (BitVec 8), ∃ s : State, (Ready s sl 0x300) ∧ (pay (held s sl) 0 8 <
    2 ^ 46) ∧ (pay (held s sl) 8 4 ≤ 0x4000000) ∧ (pay (held s sl) 12 1 ≤ 2) ∧ (loading (asked s sl).hw = false) ∧
    (s.hw.dramGib ≠ 0 ∨ (stagingLofts (asked s sl).hw (pay (held s sl) 8 4)).isSome = true) ∧ ((sourceBytes s.mem
    (asked s sl).hw (pay (held s sl) 0 8) (pay (held s sl) 8 4) ok remote).1 = none)) ∧
  (∃ sl : Fin 48, ∃ _ok : Bool, ∃ _remote : List (BitVec 8), ∃ s : State, (Ready s sl 0x300) ∧ (pay (held s sl) 0 8
    < 2 ^ 46) ∧ (pay (held s sl) 8 4 ≤ 0x4000000) ∧ (pay (held s sl) 12 1 ≤ 2) ∧ (loading (asked s sl).hw = true) ∧
    (s.hw.dramGib ≠ 0 ∨ (stagingLofts (asked s sl).hw (pay (held s sl) 8 4)).isSome = true)) ∧
  (∃ sl : Fin 48, ∃ _ok : Bool, ∃ _remote : List (BitVec 8), ∃ s : State, (Ready s sl 0x300) ∧ (pay (held s sl) 0 8
    < 2 ^ 46) ∧ (pay (held s sl) 8 4 ≤ 0x4000000) ∧ (pay (held s sl) 12 1 ≤ 2) ∧ (s.hw.dramGib = 0) ∧ (stagingLofts
    (asked s sl).hw (pay (held s sl) 8 4) = none)) ∧
  (∃ sl : Fin 48, ∃ s : State, (Ready s sl 0x301)) ∧
  (∃ sl : Fin 48, ∃ ok : Bool, ∃ remote : List (BitVec 8), ∃ bytes : List Byte, ∃ s : State, (Ready s sl 0x306) ∧
    (pay (held s sl) 0 8 < 2 ^ 46) ∧ (pay (held s sl) 8 4 ≤ 0x4000000) ∧ (loading (asked s sl).hw = false) ∧
    ((sourceBytes s.mem (asked s sl).hw (pay (held s sl) 0 8) (pay (held s sl) 8 4) ok remote).1 = some bytes)) ∧
  (∃ sl : Fin 48, ∃ ok : Bool, ∃ remote : List (BitVec 8), ∃ s : State, (Ready s sl 0x306) ∧ (pay (held s sl) 0 8 <
    2 ^ 46) ∧ (pay (held s sl) 8 4 ≤ 0x4000000) ∧ (loading (asked s sl).hw = false) ∧ ((sourceBytes s.mem (asked s
    sl).hw (pay (held s sl) 0 8) (pay (held s sl) 8 4) ok remote).1 = none)) ∧
  (∃ sl : Fin 48, ∃ _ok : Bool, ∃ _remote : List (BitVec 8), ∃ s : State, (Ready s sl 0x306) ∧ (pay (held s sl) 0 8
    < 2 ^ 46) ∧ (pay (held s sl) 8 4 ≤ 0x4000000) ∧ (loading (asked s sl).hw = true)) ∧
  (∃ sl : Fin 48, ∃ ok : Bool, ∃ k : KeySlot, ∃ r : BitVec 384 × Bool, ∃ s : State, (Ready s sl 0x302) ∧ (pay (held
    s sl) 0 1 = 1 ∨ pay (held s sl) 0 1 = 2) ∧ (k = keySlot s.nv (pay (held s sl) 0 1)) ∧ (k.prov = false) ∧ (r =
    blowBits k.bits (BitVec.ofNat 384 (pay (held s sl) 8 48)) ok (freshNat (asked s sl).hw).1)) ∧
  (∃ sl : Fin 48, ∃ _ok : Bool, ∃ s : State, (Ready s sl 0x302) ∧ (pay (held s sl) 0 1 = 1 ∨ pay (held s sl) 0 1 =
    2) ∧ ((keySlot s.nv (pay (held s sl) 0 1)).prov = true)) ∧
  (∃ sl : Fin 48, ∃ s : State, (Ready s sl 0x303) ∧ (pay (held s sl) 0 1 ≤ 31) ∧ (namedByBoth s.nv (pay (held s sl)
    0 1) = false)) ∧
  (∃ sl : Fin 48, ∃ s : State, (Ready s sl 0x303) ∧ (pay (held s sl) 0 1 ≤ 31) ∧ (namedByBoth s.nv (pay (held s sl)
    0 1) = false)) ∧
  (∃ sl : Fin 48, ∃ _ok : Bool, ∃ s : State, (Ready s sl 0x304) ∧ (s.nv.aesOk = true)) ∧
  (∃ sl : Fin 48, ∃ _ok : Bool, ∃ s : State, (Ready s sl 0x303) ∧ (pay (held s sl) 0 1 ≤ 31) ∧ (namedByBoth s.nv
    (pay (held s sl) 0 1) = true)) ∧
  (∃ sl : Fin 48, ∃ _ok : Bool, ∃ s : State, (Ready s sl 0x304) ∧ (s.nv.aesOk = false)) ∧
  (∃ sl : Fin 48, ∃ s : State, (Ready s sl 0x305)) :=
  ⟨⟨0, true, [7, 9], [7, 9], ({ cmdState 0x300 [0, 0, 0, 0, 0, 5, 0, 0, 2, 0, 0, 0, 1, 0, 0, 0] with hw := { (cmdState 0x300 [0, 0, 0, 0, 0, 5, 0, 0, 2, 0, 0, 0, 1, 0, 0, 0]).hw with dramGib := 4 } }), by decide +kernel⟩,
   ⟨0, true, [7, 9], [7, 9], (stagingLofts upState.hw 2).getD [], cmdState 0x300 [0, 0, 0, 0, 0, 5, 0, 0, 2, 0, 0, 0, 1, 0, 0, 0], by decide +kernel⟩,
   ⟨0, false, [], ({ cmdState 0x300 [0, 0, 0, 0, 0, 5, 0, 0, 2, 0, 0, 0, 1, 0, 0, 0] with hw := { (cmdState 0x300 [0, 0, 0, 0, 0, 5, 0, 0, 2, 0, 0, 0, 1, 0, 0, 0]).hw with dramGib := 4 } }), by decide +kernel⟩,
   ⟨0, true, [7, 9], ({ cmdState 0x300 [0, 0, 0, 0, 0, 5, 0, 0, 2, 0, 0, 0, 1, 0, 0, 0] with hw := { (cmdState 0x300 [0, 0, 0, 0, 0, 5, 0, 0, 2, 0, 0, 0, 1, 0, 0, 0]).hw with dramGib := 4, load := some stagedLoad, staging := true } }), by decide +kernel⟩,
   ⟨0, true, [], cmdState 0x300 [0, 0, 0, 0, 0, 5, 0, 0, 0, 0, 0, 4, 1, 0, 0, 0], by decide +kernel⟩,
   ⟨0, cmdState 0x301 [], by decide +kernel⟩,
   ⟨0, true, [7, 9], [7, 9], cmdState 0x306 [0, 0, 0, 0, 0, 5, 0, 0, 2, 0, 0, 0, 0, 0, 0, 0], by decide +kernel⟩,
   ⟨0, false, [], cmdState 0x306 [0, 0, 0, 0, 0, 5, 0, 0, 2, 0, 0, 0, 0, 0, 0, 0], by decide +kernel⟩,
   ⟨0, true, [7, 9], ({ cmdState 0x306 [0, 0, 0, 0, 0, 5, 0, 0, 2, 0, 0, 0, 0, 0, 0, 0] with hw := { (cmdState 0x306 [0, 0, 0, 0, 0, 5, 0, 0, 2, 0, 0, 0, 0, 0, 0, 0]).hw with load := some stagedLoad, staging := true } }), by decide +kernel⟩,
   ⟨0, true, ⟨0, false⟩, (5, true), (cmdState 0x302 ([2, 0, 0, 0, 0, 0, 0, 0, 5] ++ List.replicate 47 0)), by decide +kernel⟩,
   ⟨0, true, ({ cmdState 0x302 ([2, 0, 0, 0, 0, 0, 0, 0, 5] ++ List.replicate 47 0) with nv := setKeySlot Nv.reset 2 ⟨0, true⟩ }), by decide +kernel⟩,
   ⟨0, cmdState 0x303 [31, 0, 0, 0, 0, 0, 0, 0], by decide +kernel⟩,
   ⟨0, cmdState 0x303 [31, 0, 0, 0, 0, 0, 0, 0], by decide +kernel⟩,
   ⟨0, true, ({ cmdState 0x304 (List.replicate 32 1) with nv := { Nv.reset with aesOk := true } }), by decide +kernel⟩,
   ⟨0, true, ({ cmdState 0x303 [31, 0, 0, 0, 0, 0, 0, 0] with nv := { Nv.reset with flash := [(0x10000D, 31), (0x20000D, 31)] } }), by decide +kernel⟩,
   ⟨0, true, cmdState 0x304 (List.replicate 32 1), by decide +kernel⟩,
   ⟨0, cmdState 0x305 [], by decide +kernel⟩⟩

/-- The hypotheses of each clause of FunctionContextAndPortCommandsRun are met. -/
theorem test_meets_FunctionContextAndPortCommandsRun :
  (∃ sl : Fin 48, ∃ s : State, (Ready s sl 0x400) ∧ (fnValid (pay (held s sl) 0 2) = true)) ∧
  (∃ sl : Fin 48, ∃ r : (Sparse Byte × Hw) × Nat, ∃ s : State, (Ready s sl 0x401) ∧ (fnValid (pay (held s sl) 0 2) =
    true) ∧ (r = configFn s.mem (asked s sl).hw (pay (held s sl) 0 2) (recordsOf (held s sl)))) ∧
  (∃ sl : Fin 48, ∃ s : State, (Ready s sl 0x402) ∧ (fnValid (pay (held s sl) 0 2) = true)) ∧
  (∃ h : Hw, ∃ id : Nat, ∃ rs : List (Nat × Nat × Nat), (fnValid id = false ∨ (rs.all fun r => recordFits h id r) =
    false)) ∧
  (∃ h : Hw, ∃ id : Nat, (fnRunning h id = true)) ∧
  (∃ sl : Fin 48, ∃ s : State, (Ready s sl 0x403) ∧ (fnValid (pay (held s sl) 0 2) = true)) ∧
  (∃ sl : Fin 48, ∃ s : State, (Ready s sl 0x500) ∧ (pay (held s sl) 0 1 < 128) ∧ (pay (held s sl) 1 1 < 16) ∧
    ((startLoad s.mem (asked s sl).hw (pay (held s sl) 0 1) (pay (held s sl) 1 1) none).2 = false) ∧ ((pen
    (startLoad s.mem (asked s sl).hw (pay (held s sl) 0 1) (pay (held s sl) 1 1) none).1.2 (pay (held s sl) 0
    1)).load = none)) ∧
  (∃ sl : Fin 48, ∃ s : State, (Ready s sl 0x500) ∧ (pay (held s sl) 0 1 < 128) ∧ (pay (held s sl) 1 1 < 16) ∧
    ((startLoad s.mem (asked s sl).hw (pay (held s sl) 0 1) (pay (held s sl) 1 1) none).2 = false) ∧ ((pen
    (startLoad s.mem (asked s sl).hw (pay (held s sl) 0 1) (pay (held s sl) 1 1) none).1.2 (pay (held s sl) 0
    1)).load.isSome = true)) ∧
  (∃ sl : Fin 48, ∃ s : State, (Ready s sl 0x500) ∧ (pay (held s sl) 0 1 < 128) ∧ (pay (held s sl) 1 1 < 16) ∧
    ((startLoad s.mem (asked s sl).hw (pay (held s sl) 0 1) (pay (held s sl) 1 1) none).2 = true)) ∧
  (∃ h : Hw, ∃ sl : Fin 48, ∃ x : Slot, ∃ ok : Bool, (frozen h = false) ∧ (x = slot h sl) ∧ (x.st = .taken) ∧ (x.opc
    = 0x500) ∧ (x.left = 2 ^ selfAddr h) ∧ (h.slots = [(sl.val, x)]) ∧ ((pen h (pay x 0 1)).loadRes = some ok)) ∧
  (∃ h : Hw, ∃ sl : Fin 48, ∃ x : Slot, (frozen h = false) ∧ (x = slot h sl) ∧ (x.st = .taken) ∧ (x.opc = 0x500) ∧
    (x.left = 2 ^ selfAddr h) ∧ (h.slots = [(sl.val, x)]) ∧ ((pen h (pay x 0 1)).loadRes = none) ∧ ((pen h (pay x 0
    1)).load.isSome = true)) ∧
  (∃ sl : Fin 48, ∃ s : State, (Ready s sl 0x501) ∧ (pay (held s sl) 0 1 < 128)) ∧
  (∃ sl : Fin 48, ∃ r : (Sparse Byte × Hw) × Nat, ∃ s : State, (Ready s sl 0x502) ∧ (pay (held s sl) 0 1 < 16) ∧
    (pay (held s sl) 1 1 < 64) ∧ (r = configFn s.mem (asked s sl).hw (fnId 4 (pay (held s sl) 0 1)) [(aSCH_TASK0
    (pay (held s sl) 0 1) (pay (held s sl) 1 1), 2 ^ 64 - 1, pay (held s sl) 8 8), (aSCH_TASK1 (pay (held s sl) 0 1)
    (pay (held s sl) 1 1), 2 ^ 64 - 1, pay (held s sl) 16 8)])) ∧
  (∃ sl : Fin 48, ∃ s : State, (Ready s sl 0x503) ∧ (pay (held s sl) 0 1 < 16)) ∧
  (∃ sl : Fin 48, ∃ s : State, (Ready s sl 0x504) ∧ (pay (held s sl) 0 1 < 16)) ∧
  (∃ sl : Fin 48, ∃ s : State, (Ready s sl 0x504) ∧ (pay (held s sl) 0 1 = 0xFF)) ∧
  (∃ sl : Fin 48, ∃ s : State, (Ready s sl 0x505) ∧ (pay (held s sl) 0 1 < 16) ∧ (eventReserved (pay (held s sl) 1
    1) = false) ∧ (32 ≤ pay (held s sl) 2 1) ∧ (pay (held s sl) 2 1 < 64)) ∧
  (∃ sl : Fin 48, ∃ s : State, (Ready s sl 0x506) ∧ (32 ≤ pay (held s sl) 0 1) ∧ (pay (held s sl) 0 1 < 64)) ∧
  (∃ sl : Fin 48, ∃ s : State, (Ready s sl 0x600) ∧ (fnValid (pay (held s sl) 0 2) = true) ∧ (pay (held s sl) 0 2 /
    256 = 1)) ∧
  (∃ sl : Fin 48, ∃ s : State, (Ready s sl 0x600) ∧ (fnValid (pay (held s sl) 0 2) = true) ∧ (pay (held s sl) 0 2 /
    256 = 2)) ∧
  (∃ sl : Fin 48, ∃ s : State, (Ready s sl 0x601) ∧ (fnValid (pay (held s sl) 0 2) = true) ∧ (pay (held s sl) 0 2 /
    256 = 2)) ∧
  (∃ sl : Fin 48, ∃ s : State, (Ready s sl 0x601) ∧ (fnValid (pay (held s sl) 0 2) = true) ∧ (pay (held s sl) 0 2 /
    256 = 1)) ∧
  (∃ sl : Fin 48, ∃ s : State, (Ready s sl 0x602) ∧ (shaperFits (held s sl) = true)) ∧
  (∃ sl : Fin 48, ∃ s : State, (Ready s sl 0x603) ∧ (pay (held s sl) 0 1 < 4) ∧ (pay (held s sl) 1 1 = 3)) ∧
  (∃ sl : Fin 48, ∃ s : State, (Ready s sl 0x603) ∧ (pay (held s sl) 0 1 < 4) ∧ (pay (held s sl) 1 1 = 1)) ∧
  (∃ sl : Fin 48, ∃ s : State, (Ready s sl 0x603) ∧ (pay (held s sl) 0 1 < 4) ∧ (pay (held s sl) 1 1 = 2)) ∧
  (∃ sl : Fin 48, ∃ s : State, (Ready s sl 0x603) ∧ (pay (held s sl) 0 1 < 4) ∧ (pay (held s sl) 1 1 = 0)) :=
  ⟨⟨0, cmdState 0x400 [0, 6, 0, 0, 0, 0, 0, 0], by decide +kernel⟩,
   ⟨0, configFn [] (asked (cmdState 0x401 ([0, 6, 1, 0, 0, 0, 0, 0] ++ leBytes 8 (aGS_STARTS 0) ++ leBytes 8 1 ++ leBytes 8 1)) 0).hw 0x600 [(aGS_STARTS 0, 1, 1)], cmdState 0x401 ([0, 6, 1, 0, 0, 0, 0, 0] ++ leBytes 8 (aGS_STARTS 0) ++ leBytes 8 1 ++ leBytes 8 1), by decide +kernel⟩,
   ⟨0, cmdState 0x402 [0, 6, 0, 0, 0, 0, 0, 0], by decide +kernel⟩,
   ⟨upState.hw, 0x6FF, [], by decide +kernel⟩,
   ⟨setFn upState.hw 0x600 ⟨true, 0, []⟩, 0x600, by decide +kernel⟩,
   ⟨0, cmdState 0x403 [0, 3, 0, 0, 0, 0, 0, 0], by decide +kernel⟩,
   ⟨0, ({ cmdState 0x500 [127, 0, 0, 0, 0, 0, 0, 0] with hw := setPen (cmdState 0x500 [127, 0, 0, 0, 0, 0, 0, 0]).hw 127 { Pen.reset with held := [(0, 0)] } }), by decide +kernel⟩,
   ⟨0, cmdState 0x500 [127, 15, 0, 0, 0, 0, 0, 0], by decide +kernel⟩,
   ⟨0, ({ cmdState 0x500 [127, 15, 0, 0, 0, 0, 0, 0] with hw := setPen (cmdState 0x500 [127, 15, 0, 0, 0, 0, 0, 0]).hw 127 { Pen.reset with locks := 0x8000 } }), by decide +kernel⟩,
   ⟨loadDone, 0, slot loadDone 0, true, by decide +kernel⟩,
   ⟨loadWaits, 0, slot loadWaits 0, by decide +kernel⟩,
   ⟨0, cmdState 0x501 [127, 0, 0, 0, 0, 0, 0, 0], by decide +kernel⟩,
   ⟨0, configFn [] (asked (cmdState 0x502 (List.replicate 24 0)) 0).hw (fnId 4 0) [(aSCH_TASK0 0 0, 2 ^ 64 - 1, 0), (aSCH_TASK1 0 0, 2 ^ 64 - 1, 0)], cmdState 0x502 [0, 0, 0, 0, 0, 0, 0, 0, 0, 0, 0, 0, 0, 0, 0, 0, 0, 0, 0, 0, 0, 0, 0, 0], by decide +kernel⟩,
   ⟨0, cmdState 0x503 [15, 0, 0, 0, 0, 0, 0, 0], by decide +kernel⟩,
   ⟨0, cmdState 0x504 [15, 129, 0, 0, 0, 0, 0, 0], by decide +kernel⟩,
   ⟨0, cmdState 0x504 [255, 1, 0, 0, 0, 0, 0, 0], by decide +kernel⟩,
   ⟨0, ({ cmdState 0x505 [15, 248, 63, 0, 0, 0, 0, 0] with hw := sampleStraps (cmdState 0x505 [15, 248, 63, 0, 0, 0, 0, 0]).hw ⟨0, 0, true⟩ }), by decide +kernel⟩,
   ⟨0, cmdState 0x506 [32, 0, 0, 0, 0, 0, 0, 0], by decide +kernel⟩,
   ⟨0, cmdState 0x600 [3, 1, 0, 0, 0, 0, 0, 0], by decide +kernel⟩,
   ⟨0, cmdState 0x600 [15, 2, 0, 0, 0, 0, 0, 0], by decide +kernel⟩,
   ⟨0, cmdState 0x601 [15, 2, 0, 0, 0, 0, 0, 0], by decide +kernel⟩,
   ⟨0, cmdState 0x601 [3, 1, 0, 0, 0, 0, 0, 0], by decide +kernel⟩,
   ⟨0, cmdState 0x602 [15, 2, 7, 1, 232, 3, 0, 0, 0, 0, 0, 0, 0, 0, 0, 0], by decide +kernel⟩,
   ⟨0, cmdState 0x603 [3, 3, 0, 0, 0, 0, 0, 0], by decide +kernel⟩,
   ⟨0, cmdState 0x603 [3, 1, 0, 0, 0, 0, 0, 0], by decide +kernel⟩,
   ⟨0, cmdState 0x603 [0, 2, 0, 0, 0, 0, 0, 0], by decide +kernel⟩,
   ⟨0, cmdState 0x603 [0, 0, 0, 0, 0, 0, 0, 0], by decide +kernel⟩⟩

/-- The hypotheses of each clause of TimeAndGateCommandsRun are met. -/
theorem test_meets_TimeAndGateCommandsRun :
  (∃ sl : Fin 48, ∃ h : Hw, ∃ s : State, (Ready s sl 0x700) ∧ (h = latchTime (asked s sl).hw)) ∧
  (∃ sl : Fin 48, ∃ s : State, (Ready s sl 0x701) ∧ (pay (held s sl) 0 1 = 0) ∧ (incOk (pay (held s sl) 8 8) = true)
    ∧ (chainOwned (asked s sl).hw = false)) ∧
  (∃ sl : Fin 48, ∃ x : Int, ∃ s : State, (Ready s sl 0x701) ∧ (pay (held s sl) 0 1 = 1) ∧ (-(2 ^ 47) ≤ x) ∧ (x < 2
    ^ 47) ∧ (x = paySigned (held s sl) 8 8) ∧ (stepOk (asked s sl).hw x = true) ∧ (chainOwned (asked s sl).hw =
    false)) ∧
  (∃ sl : Fin 48, ∃ s : State, (Ready s sl 0x701) ∧ (pay (held s sl) 0 1 = 2) ∧ (pay (held s sl) 8 8 < 2 ^ 48) ∧
    (pay (held s sl) 16 4 < nsPerSec) ∧ (chainOwned (asked s sl).hw = false)) ∧
  (∃ sl : Fin 48, ∃ s : State, (Ready s sl 0x701) ∧ (steerFits (held s sl) (asked s sl).hw = true) ∧ (chainOwned
    (asked s sl).hw = true)) ∧
  (∃ sl : Fin 48, ∃ s : State, (Ready s sl 0x702) ∧ (-(2 ^ 12) ≤ paySigned (held s sl) 0 2) ∧ (paySigned (held s sl)
    0 2 < 2 ^ 12) ∧ (1 ≤ pay (held s sl) 2 1) ∧ (pay (held s sl) 3 1 < 8) ∧ (fnRunning (asked s sl).hw (fnId 5 0) =
    true)) ∧
  (∃ sl : Fin 48, ∃ s : State, (Ready s sl 0x702) ∧ (-(2 ^ 12) ≤ paySigned (held s sl) 0 2) ∧ (paySigned (held s sl)
    0 2 < 2 ^ 12) ∧ (1 ≤ pay (held s sl) 2 1) ∧ (pay (held s sl) 3 1 < 8) ∧ (fnRunning (asked s sl).hw (fnId 5 0) =
    false)) ∧
  (∃ sl : Fin 48, ∃ s : State, (Ready s sl 0x703) ∧ (gateFits (held s sl) (asked s sl).hw = true) ∧ (gateLoses (held
    s sl) (asked s sl).hw = false)) ∧
  (∃ sl : Fin 48, ∃ s : State, (Ready s sl 0x703) ∧ (gateFits (held s sl) (asked s sl).hw = true) ∧ (gateLoses (held
    s sl) (asked s sl).hw = true)) ∧
  (∃ sl : Fin 48, ∃ s : State, (Ready s sl 0x704) ∧ (pay (held s sl) 0 1 < 64)) ∧
  (∃ sl : Fin 48, ∃ s : State, (Ready s sl 0x705) ∧ (pay (held s sl) 0 1 < 16) ∧ (pay (held s sl) 1 1 = 1) ∧
    (ringFits (asked s sl).hw (pay (held s sl) 8 8) (pay (held s sl) 16 4) = true)) ∧
  (∃ sl : Fin 48, ∃ s : State, (Ready s sl 0x705) ∧ (pay (held s sl) 0 1 < 16) ∧ (pay (held s sl) 1 1 = 0)) :=
  ⟨⟨0, latchTime (asked (cmdState 0x700 []) 0).hw, cmdState 0x700 [], by decide +kernel⟩,
   ⟨0, ({ cmdState 0x701 [0, 0, 0, 0, 0, 0, 0, 0, 0, 0, 96, 208, 0, 0, 0, 0, 0, 0, 0, 0, 0, 0, 0, 0] with hw := setReg (cmdState 0x701 [0, 0, 0, 0, 0, 0, 0, 0, 0, 0, 96, 208, 0, 0, 0, 0, 0, 0, 0, 0, 0, 0, 0, 0]).hw aCH_TA 0 }), by decide +kernel⟩,
   ⟨0, 5, ({ cmdState 0x701 [1, 0, 0, 0, 0, 0, 0, 0, 5, 0, 0, 0, 0, 0, 0, 0, 0, 0, 0, 0, 0, 0, 0, 0] with hw := setReg (cmdState 0x701 [1, 0, 0, 0, 0, 0, 0, 0, 5, 0, 0, 0, 0, 0, 0, 0, 0, 0, 0, 0, 0, 0, 0, 0]).hw aCH_TA 0 }), by decide +kernel⟩,
   ⟨0, ({ cmdState 0x701 [2, 0, 0, 0, 0, 0, 0, 0, 255, 255, 255, 255, 255, 255, 0, 0, 255, 201, 154, 59, 0, 0, 0, 0] with hw := setReg (cmdState 0x701 [2, 0, 0, 0, 0, 0, 0, 0, 255, 255, 255, 255, 255, 255, 0, 0, 255, 201, 154, 59, 0, 0, 0, 0]).hw aCH_TA 0 }), by decide +kernel⟩,
   ⟨0, cmdState 0x701 [2, 0, 0, 0, 0, 0, 0, 0, 0, 0, 0, 0, 0, 0, 0, 0, 0, 0, 0, 0, 0, 0, 0, 0], by decide +kernel⟩,
   ⟨0, ({ cmdState 0x702 ([0, 0, 1] ++ List.replicate 141 0) with hw := setFn (cmdState 0x702 ([0, 0, 1] ++ List.replicate 141 0)).hw 0x500 ⟨true, 0, []⟩ }), by decide +kernel⟩,
   ⟨0, cmdState 0x702 ([0, 0xF0, 1, 7] ++ List.replicate 140 9), by decide +kernel⟩,
   ⟨0, cmdState 0x703 [63, 0, 0, 0, 0, 0, 0, 0, 0, 0, 0, 0, 0, 0, 0, 0, 0, 0, 0, 0, 0, 0, 0, 0, 0, 0, 0, 0, 0, 0, 0, 0, 0, 0, 0, 0, 0, 0, 0, 0, 0, 0, 0, 0, 0, 0, 0, 0], by decide +kernel⟩,
   ⟨0, ({ cmdState 0x703 [63, 19, 0, 0, 0, 0, 0, 0, 0, 0, 0, 0, 0, 0, 0, 0, 0, 0, 0, 0, 0, 0, 0, 0, 1, 0, 0, 0, 0, 0, 0, 0, 0, 0, 0, 0, 0, 0, 0, 0, 0, 0, 0, 0, 0, 0, 0, 0] with hw := setF (cmdState 0x703 [63, 19, 0, 0, 0, 0, 0, 0, 0, 0, 0, 0, 0, 0, 0, 0, 0, 0, 0, 0, 0, 0, 0, 0, 1, 0, 0, 0, 0, 0, 0, 0, 0, 0, 0, 0, 0, 0, 0, 0, 0, 0, 0, 0, 0, 0, 0, 0]).hw (aFIO_PAD 0) fFIO_PAD_OWNER 4 }), by decide +kernel⟩,
   ⟨0, cmdState 0x704 [63, 0, 0, 0, 0, 0, 0, 0], by decide +kernel⟩,
   ⟨0, ({ cmdState 0x705 [15, 1, 0, 0, 0, 0, 0, 0, 0, 0, 0, 0, 0, 0, 0, 0, 32, 16, 0, 0, 0, 0, 0, 0, 77, 0, 0, 0, 0, 0, 0, 0] with hw := { (cmdState 0x705 [15, 1, 0, 0, 0, 0, 0, 0, 0, 0, 0, 0, 0, 0, 0, 0, 32, 16, 0, 0, 0, 0, 0, 0, 77, 0, 0, 0, 0, 0, 0, 0]).hw with dramGib := 4 } }), by decide +kernel⟩,
   ⟨0, cmdState 0x705 [15, 0, 0, 0, 0, 0, 0, 0, 0, 0, 0, 0, 0, 0, 0, 0, 0, 0, 0, 0, 0, 0, 0, 0, 0, 0, 0, 0, 0, 0, 0, 0], by decide +kernel⟩⟩

/-- The hypotheses of each clause of MemoryAndPowerCommandsRun are met. -/
theorem test_meets_MemoryAndPowerCommandsRun :
  (∃ sl : Fin 48, ∃ s : State, (Ready s sl 0x800) ∧ (pay (held s sl) 0 1 ≤ 1)) ∧
  (∃ sl : Fin 48, ∃ s : State, (Ready s sl 0x801) ∧ (s.hw.mode = .test)) ∧
  (∃ sl : Fin 48, ∃ s : State, (Ready s sl 0x801) ∧ (s.hw.mode ≠ .test)) ∧
  (∃ sl : Fin 48, ∃ s : State, (Ready s sl 0x802)) ∧
  (∃ sl : Fin 48, ∃ s : State, (Ready s sl 0x803) ∧ (pay (held s sl) 0 2 < 1280)) ∧
  (∃ sl : Fin 48, ∃ n : Nat, ∃ k : Nat, ∃ s : State, (Ready s sl 0x804) ∧ (pay (held s sl) 0 1 < 128) ∧ (pay (held s
    sl) 1 1 < 8) ∧ (n = pay (held s sl) 0 1) ∧ (k = pay (held s sl) 1 1)) ∧
  (∃ sl : Fin 48, ∃ s : State, (Ready s sl 0x900) ∧ (pay (held s sl) 0 1 < 16) ∧ (pay (held s sl) 1 1 ≤ 1) ∧ (620 ≤
    pay (held s sl) 2 2) ∧ (pay (held s sl) 2 2 ≤ 900) ∧ (pay (held s sl) 2 2 % 5 = 0) ∧ (codeFits (asked s sl).hw
    (pay (held s sl) 0 1) ((pay (held s sl) 2 2 - 620) / 5) = true)) ∧
  (∃ sl : Fin 48, ∃ s : State, (Ready s sl 0x901) ∧ (divFits (asked s sl).hw (pay (held s sl) 0 1) (pay (held s sl)
    2 1) = true) ∧ (pay (held s sl) 0 1 < 16) ∧ (pay (held s sl) 1 1 ≤ 2) ∧ (pay (held s sl) 2 1 ≤ 2) ∧ (pay (held s
    sl) 1 1 ≠ 0) ∧ (taskRuns (asked s sl).hw (pay (held s sl) 0 1) = true)) ∧
  (∃ sl : Fin 48, ∃ s : State, (Ready s sl 0x901) ∧ (divFits (asked s sl).hw (pay (held s sl) 0 1) (pay (held s sl)
    2 1) = true) ∧ (pay (held s sl) 0 1 < 16) ∧ (pay (held s sl) 1 1 ≤ 2) ∧ (pay (held s sl) 2 1 ≤ 2) ∧ (pay (held s
    sl) 1 1 ≠ 0) ∧ (taskRuns (asked s sl).hw (pay (held s sl) 0 1) = false) ∧ (pay (held s sl) 2 1 = yardDiv (asked
    s sl).hw (pay (held s sl) 0 1))) ∧
  (∃ sl : Fin 48, ∃ s : State, (Ready s sl 0x901) ∧ (divFits (asked s sl).hw (pay (held s sl) 0 1) (pay (held s sl)
    2 1) = true) ∧ (pay (held s sl) 0 1 < 16) ∧ (pay (held s sl) 1 1 ≤ 2) ∧ (pay (held s sl) 2 1 ≤ 2) ∧ (pay (held s
    sl) 1 1 = 0 ∨ taskRuns (asked s sl).hw (pay (held s sl) 0 1) = false) ∧ (pay (held s sl) 2 1 ≠ yardDiv (asked s
    sl).hw (pay (held s sl) 0 1)) ∧ (fnRunning (asked s sl).hw (fnId 3 (pay (held s sl) 0 1)) = true)) ∧
  (∃ sl : Fin 48, ∃ s : State, (Ready s sl 0x901) ∧ (divFits (asked s sl).hw (pay (held s sl) 0 1) (pay (held s sl)
    2 1) = true) ∧ (pay (held s sl) 0 1 < 16) ∧ (pay (held s sl) 1 1 ≤ 2) ∧ (pay (held s sl) 2 1 ≤ 2) ∧ (pay (held s
    sl) 1 1 ≠ 0) ∧ (taskRuns (asked s sl).hw (pay (held s sl) 0 1) = false) ∧ (pay (held s sl) 2 1 ≠ yardDiv (asked
    s sl).hw (pay (held s sl) 0 1)) ∧ (fnRunning (asked s sl).hw (fnId 3 (pay (held s sl) 0 1)) = false)) ∧
  (∃ sl : Fin 48, ∃ s : State, (Ready s sl 0x901) ∧ (divFits (asked s sl).hw (pay (held s sl) 0 1) (pay (held s sl)
    2 1) = true) ∧ (pay (held s sl) 0 1 < 16) ∧ (pay (held s sl) 1 1 ≤ 2) ∧ (pay (held s sl) 2 1 ≤ 2) ∧ (pay (held s
    sl) 1 1 = 0) ∧ (pay (held s sl) 2 1 ≠ yardDiv (asked s sl).hw (pay (held s sl) 0 1)) ∧ (fnRunning (asked s
    sl).hw (fnId 3 (pay (held s sl) 0 1)) = false)) ∧
  (∃ sl : Fin 48, ∃ s : State, (Ready s sl 0x901) ∧ (divFits (asked s sl).hw (pay (held s sl) 0 1) (pay (held s sl)
    2 1) = true) ∧ (pay (held s sl) 0 1 < 16) ∧ (pay (held s sl) 1 1 ≤ 2) ∧ (pay (held s sl) 2 1 ≤ 2) ∧ (pay (held s
    sl) 1 1 = 0) ∧ (pay (held s sl) 2 1 = yardDiv (asked s sl).hw (pay (held s sl) 0 1))) ∧
  (∃ h : Hw, ∃ sl : Fin 48, ∃ x : Slot, ∃ y : Nat, (frozen h = false) ∧ (x = slot h sl) ∧ (y = pay x 0 1) ∧ (x.st =
    .taken) ∧ (x.opc = 0x901) ∧ (x.left = 2 ^ selfAddr h) ∧ (h.slots = [(sl.val, x)]) ∧ (pay x 1 1 = 0) ∧ (yardRuns
    h y = true)) ∧
  (∃ h : Hw, ∃ sl : Fin 48, ∃ x : Slot, ∃ y : Nat, (frozen h = false) ∧ (x = slot h sl) ∧ (y = pay x 0 1) ∧ (x.st =
    .taken) ∧ (x.opc = 0x901) ∧ (x.left = 2 ^ selfAddr h) ∧ (h.slots = [(sl.val, x)]) ∧ (pay x 1 1 ≠ 0) ∧ (getF h
    (aYP_STAT y) fYP_STAT_MODE = pay x 1 1) ∧ (getF h (aYP_STAT y) fYP_STAT_TRANS = 0)) ∧
  (∃ h : Hw, ∃ sl : Fin 48, ∃ x : Slot, ∃ y : Nat, (frozen h = false) ∧ (x = slot h sl) ∧ (y = pay x 0 1) ∧ (x.st =
    .taken) ∧ (x.opc = 0x901) ∧ (x.left = 2 ^ selfAddr h) ∧ (h.slots = [(sl.val, x)]) ∧ (pay x 1 1 ≠ 0) ∧ (getF h
    (aYP_STAT y) fYP_STAT_MODE ≠ pay x 1 1) ∧ (yardRuns h y = true) ∧ ((yardPw h y).want = none)) ∧
  (∃ h : Hw, ∃ sl : Fin 48, ∃ x : Slot, ∃ y : Nat, (frozen h = false) ∧ (x = slot h sl) ∧ (y = pay x 0 1) ∧ (x.st =
    .taken) ∧ (x.opc = 0x901) ∧ (x.left = 2 ^ selfAddr h) ∧ (h.slots = [(sl.val, x)]) ∧ (pay x 1 1 ≠ 0) ∧ (getF h
    (aYP_STAT y) fYP_STAT_MODE ≠ pay x 1 1) ∧ ((yardPw h y).want.isSome = true)) ∧
  (∃ sl : Fin 48, ∃ s : State, (Ready s sl 0x902) ∧ (pay (held s sl) 0 1 ≤ 1)) ∧
  (∃ sl : Fin 48, ∃ s : State, (Ready s sl 0x903)) ∧
  (∃ sl : Fin 48, ∃ s : State, (Ready s sl 0x904)) ∧
  (∃ sl : Fin 48, ∃ s : State, (Ready s sl 0x905)) :=
  ⟨⟨0, cmdState 0x800 [0, 0, 255, 255, 0, 0, 0, 0], by decide +kernel⟩,
   ⟨0, ({ cmdState 0x801 [1, 128, 0, 0, 0, 0, 0, 0] with hw := { (cmdState 0x801 [1, 128, 0, 0, 0, 0, 0, 0]).hw with mode := .test } }), by decide +kernel⟩,
   ⟨0, cmdState 0x801 [1, 128, 0, 0, 0, 0, 0, 0], by decide +kernel⟩,
   ⟨0, cmdState 0x802 [], by decide +kernel⟩,
   ⟨0, cmdState 0x803 [255, 4, 0, 0, 0, 0, 0, 0], by decide +kernel⟩,
   ⟨0, 127, 7, cmdState 0x804 [127, 7, 0, 0, 0, 0, 0, 0], by decide +kernel⟩,
   ⟨0, cmdState 0x900 [15, 1, 127, 3, 0, 0, 0, 0], by decide +kernel⟩,
   ⟨0, ({ cmdState 0x901 [0, 1, 0, 0, 0, 0, 0, 0] with hw := { (cmdState 0x901 [0, 1, 0, 0, 0, 0, 0, 0]).hw with arr := { (cmdState 0x901 [0, 1, 0, 0, 0, 0, 0, 0]).hw.arr with scheds := [(0, { Sched.reset with tasks := [(1, { Task.reset with st := .running })] })] } } }), by decide +kernel⟩,
   ⟨0, cmdState 0x901 [3, 2, 0, 0, 0, 0, 0, 0], by decide +kernel⟩,
   ⟨0, ({ cmdState 0x901 [3, 0, 1, 0, 0, 0, 0, 0] with hw := setFn (cmdState 0x901 [3, 0, 1, 0, 0, 0, 0, 0]).hw 0x303 ⟨true, 0, []⟩ }), by decide +kernel⟩,
   ⟨0, cmdState 0x901 [3, 1, 1, 0, 0, 0, 0, 0], by decide +kernel⟩,
   ⟨0, cmdState 0x901 [3, 0, 1, 0, 0, 0, 0, 0], by decide +kernel⟩,
   ⟨0, cmdState 0x901 [3, 0, 0, 0, 0, 0, 0, 0], by decide +kernel⟩,
   ⟨(asked (cmdState 0x901 [3, 0, 0, 0, 0, 0, 0, 0]) 0).hw, 0, held (cmdState 0x901 [3, 0, 0, 0, 0, 0, 0, 0]) 0, 3, by decide +kernel⟩,
   ⟨setReg (asked (cmdState 0x901 [3, 2, 0, 0, 0, 0, 0, 0]) 0).hw (aYP_STAT 3) 2, 0, held (cmdState 0x901 [3, 2, 0, 0, 0, 0, 0, 0]) 0, 3, by decide +kernel⟩,
   ⟨(asked (cmdState 0x901 [3, 2, 0, 0, 0, 0, 0, 0]) 0).hw, 0, held (cmdState 0x901 [3, 2, 0, 0, 0, 0, 0, 0]) 0, 3, by decide +kernel⟩,
   ⟨setYardPw (asked (cmdState 0x901 [3, 2, 0, 0, 0, 0, 0, 0]) 0).hw 3 { YardPw.reset with want := some 2 }, 0, held (cmdState 0x901 [3, 2, 0, 0, 0, 0, 0, 0]) 0, 3, by decide +kernel⟩,
   ⟨0, cmdState 0x902 [1, 0, 0, 0, 0, 0, 0, 0], by decide +kernel⟩,
   ⟨0, cmdState 0x903 [], by decide +kernel⟩,
   ⟨0, cmdState 0x904 [1, 128, 0, 0, 0, 0, 0, 0], by decide +kernel⟩,
   ⟨0, cmdState 0x905 [], by decide +kernel⟩⟩

/-- The hypotheses of each clause of ObservationCommandsRun are met. -/
theorem test_meets_ObservationCommandsRun :
  (∃ sl : Fin 48, ∃ s : State, (Ready s sl 0xA00) ∧ (pay (held s sl) 0 1 = 0 ∨ pay (held s sl) 0 1 = 3)) ∧
  (∃ sl : Fin 48, ∃ s : State, (Ready s sl 0xA00) ∧ (pay (held s sl) 0 1 = 1)) ∧
  (∃ sl : Fin 48, ∃ s : State, (Ready s sl 0xA00) ∧ (pay (held s sl) 0 1 = 2) ∧ (pay (held s sl) 8 8 < 2 ^ 48) ∧
    (pay (held s sl) 16 4 < nsPerSec)) ∧
  (∃ sl : Fin 48, ∃ x : Slot, ∃ h : Hw, ∃ s : State, (Starts s sl 0xA01) ∧ (s.hw.mode ≠ .isolated) ∧ (x = slot s.hw
    sl) ∧ (freezeFits x = true) ∧ (h = setSlot s.hw sl (askedPart s.hw x))) ∧
  (∃ sl : Fin 48, ∃ d : Nat, ∃ x : Slot, ∃ h : Hw, ∃ s : State, (x = slot s.hw sl) ∧ (x.st = .taken) ∧ (x.opc =
    0xA01) ∧ (x.left = 0) ∧ (sl.val < 16) ∧ (d = x.tgt) ∧ (d < 0x40) ∧ (d ≠ selfAddr s.hw) ∧ (mpRuns s.hw 0xA01 =
    true) ∧ (s.hw.mode ≠ .isolated) ∧ (freezeFits x = true) ∧ (pay x 0 1 = 1) ∧ (h = sendPkt (setSlot s.hw sl
    (awaiting x d)) (freezePkt (setSlot s.hw sl (awaiting x d)) d false))) ∧
  (∃ sl : Fin 48, ∃ d : Nat, ∃ x : Slot, ∃ h : Hw, ∃ s : State, (x = slot s.hw sl) ∧ (x.st = .taken) ∧ (x.opc =
    0xA01) ∧ (x.left = 0) ∧ (sl.val < 16) ∧ (d = x.tgt) ∧ (d < 0x40) ∧ (d ≠ selfAddr s.hw) ∧ (mpRuns s.hw 0xA01 =
    true) ∧ (s.hw.mode ≠ .isolated) ∧ (freezeFits x = true) ∧ (pay x 0 1 = 0) ∧ (h = sendPkt (setSlot s.hw sl
    (awaiting x d)) (timedFreezePkt (setSlot s.hw sl (awaiting x d)) d (pay x 8 8) (pay x 16 4)))) ∧
  (∃ sl : Fin 48, ∃ s : State, (Starts s sl 0xA01) ∧ (freezeFits (slot s.hw sl) = true) ∧ (s.hw.mode = .isolated)) ∧
  (∃ sl : Fin 48, ∃ s : State, (Starts s sl 0xA01) ∧ (freezeFits (slot s.hw sl) = false)) ∧
  (∃ sl : Fin 48, ∃ r : Sparse Byte × Hw, ∃ s : State, (Ready s sl 0xA02) ∧ (pay (held s sl) 0 1 < 16) ∧
    (((probeWrites (held s sl)).all fun w => valueFits w.1 w.2) = true) ∧ (r = (probeWrites (held s sl)).foldl (fun
    s w => writeReg s.1 s.2 w.1 (BitVec.ofNat 64 w.2)) (s.mem, (asked s sl).hw))) ∧
  (∃ sl : Fin 48, ∃ s : State, (Ready s sl 0xA03) ∧ (traceFits (held s sl) = true) ∧ (isSet (asked s sl).hw
    (aSCH_CTL (pay (held s sl) 0 1)) fSCH_CTL_TREN = false)) ∧
  (∃ sl : Fin 48, ∃ s : State, (Ready s sl 0xA03) ∧ (traceFits (held s sl) = true) ∧ (isSet (asked s sl).hw
    (aSCH_CTL (pay (held s sl) 0 1)) fSCH_CTL_TREN = true) ∧ (getF (asked s sl).hw (aSCH_TRBASE (pay (held s sl) 0
    1)) fSCH_TRBASE_BASE ≠ pay (held s sl) 8 8)) ∧
  (∃ sl : Fin 48, ∃ s : State, (Ready s sl 0xA04) ∧ (1 ≤ pay (held s sl) 2 1) ∧ (pay (held s sl) 2 1 ≤ 14) ∧ (pay
    (held s sl) 0 2 + pay (held s sl) 2 1 ≤ 512)) ∧
  (∃ sl : Fin 48, ∃ s : State, (Ready s sl 0xA05) ∧ (1 ≤ pay (held s sl) 4 1) ∧ (pay (held s sl) 4 1 ≤ 14)) ∧
  (∃ sl : Fin 48, ∃ s : State, (Ready s sl 0xA06) ∧ (pay (held s sl) 0 2 < 512)) ∧
  (∃ sl : Fin 48, ∃ s : State, (Ready s sl 0xA06) ∧ (pay (held s sl) 0 2 = 0xFFFF)) ∧
  (∃ sl : Fin 48, ∃ s : State, (Ready s sl 0xA10) ∧ (s.hw.mode = .frozen)) ∧
  (∃ sl : Fin 48, ∃ s : State, (Ready s sl 0xA10) ∧ (s.hw.mode ≠ .frozen)) ∧
  (∃ sl : Fin 48, ∃ _low : Bool, ∃ s : State, (Ready s sl 0xA11) ∧ (s.hw.mode ≠ .frozen)) ∧
  (∃ sl : Fin 48, ∃ s : State, (Ready s sl 0xA11) ∧ (s.hw.mode = .frozen)) ∧
  (∃ sl : Fin 48, ∃ s : State, (Ready s sl 0xA11) ∧ (s.hw.mode = .frozen)) ∧
  (∃ sl : Fin 48, ∃ s : State, (Ready s sl 0xB00) ∧ (1 ≤ pay (held s sl) 8 1) ∧ (pay (held s sl) 8 1 ≤ 56) ∧ (∀ k :
    Fin 56, k.val < pay (held s sl) 8 1 → pay (held s sl) 0 8 + 8 * k < bar0Base ∧ regExists (pay (held s sl) 0 8 +
    8 * k) = true)) ∧
  (∃ sl : Fin 48, ∃ r : Sparse Byte × Hw, ∃ s : State, (Ready s sl 0xB01) ∧ (((recordsOf (held s sl)).all fun r =>
    r.1 < bar0Base && regExists r.1) = true) ∧ (r = (recordsOf (held s sl)).foldl (fun s r => mergeWrite s.1 s.2 r.1
    r.2.1 r.2.2) (s.mem, (asked s sl).hw))) :=
  ⟨⟨0, cmdState 0xA00 [3, 0, 0, 0, 0, 0, 0, 0, 0, 0, 0, 0, 0, 0, 0, 0, 0, 0, 0, 0, 0, 0, 0, 0], by decide +kernel⟩,
   ⟨0, cmdState 0xA00 [1, 0, 0, 0, 0, 0, 0, 0, 9, 0, 0, 0, 0, 0, 0, 0, 0, 0, 0, 0, 0, 0, 0, 0], by decide +kernel⟩,
   ⟨0, cmdState 0xA00 [2, 0, 0, 0, 0, 0, 0, 0, 9, 0, 0, 0, 0, 0, 0, 0, 255, 201, 154, 59, 0, 0, 0, 0], by decide +kernel⟩,
   ⟨0, slot (cmdState 0xA01 ([1] ++ List.replicate 23 0)).hw 0, setSlot (cmdState 0xA01 ([1] ++ List.replicate 23 0)).hw 0 (askedPart (cmdState 0xA01 ([1] ++ List.replicate 23 0)).hw (slot (cmdState 0xA01 ([1] ++ List.replicate 23 0)).hw 0)), cmdState 0xA01 ([1] ++ List.replicate 23 0), by decide +kernel⟩,
   ⟨0, 5, { Slot.free with st := .taken, opc := 0xA01, tgt := 5, pay := [1] ++ List.replicate 23 0 }, sendPkt (setSlot ({ cmdState 0xA01 [] with hw := { (cmdState 0xA01 []).hw with slots := [(0, { Slot.free with st := .taken, opc := 0xA01, tgt := 5, pay := [1] ++ List.replicate 23 0 })] } }).hw 0 (awaiting ({ Slot.free with st := .taken, opc := 0xA01, tgt := 5, pay := [1] ++ List.replicate 23 0 }) 5)) (freezePkt (setSlot ({ cmdState 0xA01 [] with hw := { (cmdState 0xA01 []).hw with slots := [(0, { Slot.free with st := .taken, opc := 0xA01, tgt := 5, pay := [1] ++ List.replicate 23 0 })] } }).hw 0 (awaiting ({ Slot.free with st := .taken, opc := 0xA01, tgt := 5, pay := [1] ++ List.replicate 23 0 }) 5)) 5 false), { cmdState 0xA01 [] with hw := { (cmdState 0xA01 []).hw with slots := [(0, { Slot.free with st := .taken, opc := 0xA01, tgt := 5, pay := [1] ++ List.replicate 23 0 })] } }, by decide +kernel⟩,
   ⟨0, 5, { Slot.free with st := .taken, opc := 0xA01, tgt := 5, pay := [0] ++ List.replicate 23 0 }, sendPkt (setSlot ({ cmdState 0xA01 [] with hw := { (cmdState 0xA01 []).hw with slots := [(0, { Slot.free with st := .taken, opc := 0xA01, tgt := 5, pay := [0] ++ List.replicate 23 0 })] } }).hw 0 (awaiting ({ Slot.free with st := .taken, opc := 0xA01, tgt := 5, pay := [0] ++ List.replicate 23 0 }) 5)) (timedFreezePkt (setSlot ({ cmdState 0xA01 [] with hw := { (cmdState 0xA01 []).hw with slots := [(0, { Slot.free with st := .taken, opc := 0xA01, tgt := 5, pay := [0] ++ List.replicate 23 0 })] } }).hw 0 (awaiting ({ Slot.free with st := .taken, opc := 0xA01, tgt := 5, pay := [0] ++ List.replicate 23 0 }) 5)) 5 (pay ({ Slot.free with st := .taken, opc := 0xA01, tgt := 5, pay := [0] ++ List.replicate 23 0 }) 8 8) (pay ({ Slot.free with st := .taken, opc := 0xA01, tgt := 5, pay := [0] ++ List.replicate 23 0 }) 16 4)), { cmdState 0xA01 [] with hw := { (cmdState 0xA01 []).hw with slots := [(0, { Slot.free with st := .taken, opc := 0xA01, tgt := 5, pay := [0] ++ List.replicate 23 0 })] } }, by decide +kernel⟩,
   ⟨0, { cmdState 0xA01 ([1] ++ List.replicate 23 0) with hw := { (cmdState 0xA01 ([1] ++ List.replicate 23 0)).hw with mode := .isolated } }, by decide +kernel⟩,
   ⟨0, cmdState 0xA01 ([2] ++ List.replicate 23 0), by decide +kernel⟩,
   ⟨0, (probeWrites (held (cmdState 0xA02 ([15, 0, 0, 0, 0, 0, 0, 0] ++ leBytes 8 (4 * 2 ^ fNP_CTL_LOG2.lo) ++ List.replicate 24 0)) 0)).foldl (fun s w => writeReg s.1 s.2 w.1 (BitVec.ofNat 64 w.2)) ([], (asked (cmdState 0xA02 ([15, 0, 0, 0, 0, 0, 0, 0] ++ leBytes 8 (4 * 2 ^ fNP_CTL_LOG2.lo) ++ List.replicate 24 0)) 0).hw), cmdState 0xA02 ([15, 0, 0, 0, 0, 0, 0, 0] ++ leBytes 8 (4 * 2 ^ fNP_CTL_LOG2.lo) ++ List.replicate 24 0), by decide +kernel⟩,
   ⟨0, cmdState 0xA03 [15, 3, 20, 0, 0, 0, 0, 0, 232, 3, 0, 0, 0, 0, 0, 0], by decide +kernel⟩,
   ⟨0, ({ cmdState 0xA03 [0, 3, 20, 0, 0, 0, 0, 0, 232, 3, 0, 0, 0, 0, 0, 0] with hw := setF (cmdState 0xA03 [0, 3, 20, 0, 0, 0, 0, 0, 232, 3, 0, 0, 0, 0, 0, 0]).hw (aSCH_CTL 0) fSCH_CTL_TREN 1 }), by decide +kernel⟩,
   ⟨0, cmdState 0xA04 [64, 0, 3, 0, 0, 0, 0, 0], by decide +kernel⟩,
   ⟨0, cmdState 0xA05 [0, 0, 0, 0, 14, 0, 0, 0], by decide +kernel⟩,
   ⟨0, cmdState 0xA06 [64, 0, 0, 0, 0, 0, 0, 0], by decide +kernel⟩,
   ⟨0, cmdState 0xA06 [255, 255, 0, 0, 0, 0, 0, 0], by decide +kernel⟩,
   ⟨0, ({ inFrozen (cmdState 0xA10 []) with pending := [] }), by decide +kernel⟩,
   ⟨0, cmdState 0xA10 [], by decide +kernel⟩,
   ⟨0, false, cmdState 0xA11 [], by decide +kernel⟩,
   ⟨0, ({ inFrozen (cmdState 0xA11 []) with pending := [] }), by decide +kernel⟩,
   ⟨0, ({ inFrozen (cmdState 0xA11 []) with pending := [] }), by decide +kernel⟩,
   ⟨0, cmdState 0xB00 (leBytes 8 aCH_ID ++ [2, 0, 0, 0, 0, 0, 0, 0]), by decide +kernel⟩,
   ⟨0, mergeWrite [] (asked (cmdState 0xB01 ([1, 0, 0, 0, 0, 0, 0, 0] ++ leBytes 8 (aGS_STARTS 0) ++ leBytes 8 1 ++ leBytes 8 1)) 0).hw (aGS_STARTS 0) 1 1, cmdState 0xB01 ([1, 0, 0, 0, 0, 0, 0, 0] ++ leBytes 8 (aGS_STARTS 0) ++ leBytes 8 1 ++ leBytes 8 1), by decide +kernel⟩⟩

/-- The hypotheses of each clause of CommandsFailByName are met. -/
theorem test_meets_CommandsFailByName :
  (∃ sl : Fin 48, ∃ s : State, (Starts s sl 0x301) ∧ (payloadClear (held s sl) = false)) ∧
  (∃ sl : Fin 48, ∃ s : State, (Starts s sl 0x102) ∧ (0x20 < pay (held s sl) 0 1)) ∧
  (∃ sl : Fin 48, ∃ s : State, (Starts s sl 0x103) ∧ (pay (held s sl) 0 1 ≠ 1 ∧ pay (held s sl) 0 1 ≠ 2)) ∧
  (∃ sl : Fin 48, ∃ s : State, (Starts s sl 0x202) ∧ (2 < pay (held s sl) 0 1)) ∧
  (∃ sl : Fin 48, ∃ s : State, (Starts s sl 0x204) ∧ (256 < (List.range 64).foldl (fun acc d => acc + pay (held s
    sl) d 1) 0)) ∧
  (∃ sl : Fin 48, ∃ s : State, (Starts s sl 0x205) ∧ (1 < pay (held s sl) 0 1)) ∧
  (∃ sl : Fin 48, ∃ _ok : Bool, ∃ _bs : List (BitVec 8), ∃ s : State, (Starts s sl 0x300) ∧ (2 ^ 46 ≤ pay (held s
    sl) 0 8 ∨ 0x4000000 < pay (held s sl) 8 4 ∨ 2 < pay (held s sl) 12 1)) ∧
  (∃ sl : Fin 48, ∃ _ok : Bool, ∃ s : State, (Starts s sl 0x302) ∧ (pay (held s sl) 0 1 ≠ 1 ∧ pay (held s sl) 0 1 ≠
    2)) ∧
  (∃ sl : Fin 48, ∃ _ok : Bool, ∃ s : State, (Starts s sl 0x303) ∧ (31 < pay (held s sl) 0 1)) ∧
  (∃ sl : Fin 48, ∃ _ok : Bool, ∃ _bs : List (BitVec 8), ∃ s : State, (Starts s sl 0x306) ∧ (2 ^ 46 ≤ pay (held s
    sl) 0 8 ∨ 0x4000000 < pay (held s sl) 8 4)) ∧
  (∃ sl : Fin 48, ∃ s : State, (Starts s sl 0x400) ∧ (fnValid (pay (held s sl) 0 2) = false)) ∧
  (∃ sl : Fin 48, ∃ s : State, (Starts s sl 0x401) ∧ (fnValid (pay (held s sl) 0 2) = false)) ∧
  (∃ sl : Fin 48, ∃ s : State, (Starts s sl 0x402) ∧ (fnValid (pay (held s sl) 0 2) = false)) ∧
  (∃ sl : Fin 48, ∃ s : State, (Starts s sl 0x403) ∧ (fnValid (pay (held s sl) 0 2) = false)) ∧
  (∃ sl : Fin 48, ∃ s : State, (Starts s sl 0x500) ∧ (128 ≤ pay (held s sl) 0 1 ∨ 16 ≤ pay (held s sl) 1 1)) ∧
  (∃ sl : Fin 48, ∃ s : State, (Starts s sl 0x501) ∧ (128 ≤ pay (held s sl) 0 1)) ∧
  (∃ sl : Fin 48, ∃ s : State, (Starts s sl 0x502) ∧ (16 ≤ pay (held s sl) 0 1 ∨ 64 ≤ pay (held s sl) 1 1)) ∧
  (∃ sl : Fin 48, ∃ s : State, (Starts s sl 0x503) ∧ (16 ≤ pay (held s sl) 0 1)) ∧
  (∃ sl : Fin 48, ∃ s : State, (Starts s sl 0x504) ∧ (16 ≤ pay (held s sl) 0 1) ∧ (pay (held s sl) 0 1 ≠ 0xFF)) ∧
  (∃ sl : Fin 48, ∃ s : State, (Starts s sl 0x505) ∧ (16 ≤ pay (held s sl) 0 1 ∨ eventReserved (pay (held s sl) 1 1)
    = true ∨ pay (held s sl) 2 1 < 32 ∨ 64 ≤ pay (held s sl) 2 1)) ∧
  (∃ sl : Fin 48, ∃ s : State, (Starts s sl 0x506) ∧ (pay (held s sl) 0 1 < 32 ∨ 64 ≤ pay (held s sl) 0 1)) ∧
  (∃ sl : Fin 48, ∃ s : State, (Starts s sl 0x600) ∧ (fnValid (pay (held s sl) 0 2) = false ∨ 3 ≤ pay (held s sl) 0
    2 / 256)) ∧
  (∃ sl : Fin 48, ∃ s : State, (Starts s sl 0x601) ∧ (fnValid (pay (held s sl) 0 2) = false ∨ 3 ≤ pay (held s sl) 0
    2 / 256)) ∧
  (∃ sl : Fin 48, ∃ s : State, (Starts s sl 0x602) ∧ (shaperFits (held s sl) = false)) ∧
  (∃ sl : Fin 48, ∃ s : State, (Starts s sl 0x603) ∧ (4 ≤ pay (held s sl) 0 1 ∨ 4 ≤ pay (held s sl) 1 1)) ∧
  (∃ sl : Fin 48, ∃ s : State, (Starts s sl 0x701) ∧ (steerFits (held s sl) (asked s sl).hw = false)) ∧
  (∃ sl : Fin 48, ∃ s : State, (Starts s sl 0x702) ∧ (pay (held s sl) 2 1 = 0 ∨ 8 ≤ pay (held s sl) 3 1 ∨ paySigned
    (held s sl) 0 2 < -(2 ^ 12) ∨ 2 ^ 12 ≤ paySigned (held s sl) 0 2)) ∧
  (∃ sl : Fin 48, ∃ s : State, (Starts s sl 0x703) ∧ (gateFits (held s sl) (asked s sl).hw = false)) ∧
  (∃ sl : Fin 48, ∃ s : State, (Starts s sl 0x704) ∧ (64 ≤ pay (held s sl) 0 1)) ∧
  (∃ sl : Fin 48, ∃ s : State, (Starts s sl 0x705) ∧ (16 ≤ pay (held s sl) 0 1 ∨ 1 < pay (held s sl) 1 1 ∨ (pay
    (held s sl) 1 1 = 1 ∧ ringFits (asked s sl).hw (pay (held s sl) 8 8) (pay (held s sl) 16 4) = false))) ∧
  (∃ sl : Fin 48, ∃ s : State, (Starts s sl 0x800) ∧ (1 < pay (held s sl) 0 1)) ∧
  (∃ sl : Fin 48, ∃ s : State, (Starts s sl 0x803) ∧ (1280 ≤ pay (held s sl) 0 2)) ∧
  (∃ sl : Fin 48, ∃ s : State, (Starts s sl 0x804) ∧ (128 ≤ pay (held s sl) 0 1 ∨ 8 ≤ pay (held s sl) 1 1)) ∧
  (∃ sl : Fin 48, ∃ s : State, (Starts s sl 0x900) ∧ (16 ≤ pay (held s sl) 0 1 ∨ 1 < pay (held s sl) 1 1 ∨ pay (held
    s sl) 2 2 < 620 ∨ 900 < pay (held s sl) 2 2 ∨ pay (held s sl) 2 2 % 5 ≠ 0 ∨ codeFits (asked s sl).hw (pay (held
    s sl) 0 1) ((pay (held s sl) 2 2 - 620) / 5) = false)) ∧
  (∃ sl : Fin 48, ∃ s : State, (Starts s sl 0x902) ∧ (1 < pay (held s sl) 0 1)) ∧
  (∃ sl : Fin 48, ∃ s : State, (Starts s sl 0xA00) ∧ (3 < pay (held s sl) 0 1 ∨ (pay (held s sl) 0 1 = 2 ∧ (2 ^ 48 ≤
    pay (held s sl) 8 8 ∨ nsPerSec ≤ pay (held s sl) 16 4)))) ∧
  (∃ sl : Fin 48, ∃ s : State, (Starts s sl 0xA02) ∧ (16 ≤ pay (held s sl) 0 1 ∨ ((probeWrites (held s sl)).all fun
    w => valueFits w.1 w.2) = false)) ∧
  (∃ sl : Fin 48, ∃ s : State, (Starts s sl 0xA03) ∧ (traceFits (held s sl) = false)) ∧
  (∃ sl : Fin 48, ∃ s : State, (Starts s sl 0xA04) ∧ (pay (held s sl) 2 1 = 0 ∨ 14 < pay (held s sl) 2 1 ∨ 512 < pay
    (held s sl) 0 2 + pay (held s sl) 2 1)) ∧
  (∃ sl : Fin 48, ∃ s : State, (Starts s sl 0xA05) ∧ (pay (held s sl) 4 1 = 0 ∨ 14 < pay (held s sl) 4 1)) ∧
  (∃ sl : Fin 48, ∃ s : State, (Starts s sl 0xA06) ∧ (512 ≤ pay (held s sl) 0 2) ∧ (pay (held s sl) 0 2 ≠ 0xFFFF)) ∧
  (∃ sl : Fin 48, ∃ s : State, (Starts s sl 0xB00) ∧ (pay (held s sl) 8 1 = 0 ∨ 56 < pay (held s sl) 8 1 ∨ ∃ k : Fin
    56, k.val < pay (held s sl) 8 1 ∧ (bar0Base ≤ pay (held s sl) 0 8 + 8 * k ∨ regExists (pay (held s sl) 0 8 + 8 *
    k) = false))) ∧
  (∃ sl : Fin 48, ∃ s : State, (Starts s sl 0xB01) ∧ (((recordsOf (held s sl)).all fun r => r.1 < bar0Base &&
    regExists r.1) = false)) ∧
  (∃ sl : Fin 48, ∃ s : State, (Starts s sl 0x402) ∧ (s.hw.mode = .isolated) ∧ (payloadClear (held s sl) = true) ∧
    (fnValid (pay (held s sl) 0 2) = true)) ∧
  (∃ sl : Fin 48, ∃ s : State, (Starts s sl 0x904) ∧ (payloadClear (held s sl) = true) ∧ (longBusy (asked s sl).hw
    0x904 = true)) ∧
  (∃ sl : Fin 48, ∃ d : Nat, ∃ s : State, ((slot s.hw sl).st = .taken) ∧ ((slot s.hw sl).opc = 0x400) ∧ ((slot s.hw
    sl).left = 0) ∧ (d = (slot s.hw sl).tgt) ∧ (d < 0x40) ∧ (d ≠ selfAddr s.hw) ∧ (sl.val < 16) ∧ (mpRuns s.hw 0x400
    = true) ∧ (creditsFor s.hw ([d].filter (canReach s.hw)) = true)) ∧
  (∃ sl : Fin 48, ∃ s : State, ((slot s.hw sl).st = .taken) ∧ ((slot s.hw sl).opc = 0x800) ∧ ((slot s.hw sl).left =
    0) ∧ (sl.val < 16) ∧ (targetsOf s.hw (slot s.hw sl).tgt = []) ∧ (s.hw.chain.out.length ≤ 256) ∧ (mpRuns s.hw
    0x800 = true)) ∧
  (∃ sl : Fin 48, ∃ s : State, ((slot s.hw sl).st ≠ .taken ∨ (slot s.hw sl).opc ≠ 0x800 ∨ (slot s.hw sl).left ≠ 0 ∨
    mpRuns s.hw 0x800 = false)) :=
  ⟨⟨0, cmdState 0x301 [1], by decide +kernel⟩,
   ⟨0, cmdState 0x102 [33, 0, 0, 0, 0, 0, 0, 0], by decide +kernel⟩,
   ⟨0, cmdState 0x103 [0, 0, 0, 0, 0, 0, 0, 0], by decide +kernel⟩,
   ⟨0, cmdState 0x202 [3, 0, 0, 0, 0, 0, 0, 0], by decide +kernel⟩,
   ⟨0, cmdState 0x204 (List.replicate 64 5), by decide +kernel⟩,
   ⟨0, cmdState 0x205 [2, 0, 0, 0, 0, 0, 0, 0], by decide +kernel⟩,
   ⟨0, true, [], cmdState 0x300 [0, 0, 0, 0, 0, 0, 0, 0, 0, 0, 0, 0, 3, 0, 0, 0], by decide +kernel⟩,
   ⟨0, true, cmdState 0x302 (List.replicate 56 0), by decide +kernel⟩,
   ⟨0, true, cmdState 0x303 [32, 0, 0, 0, 0, 0, 0, 0], by decide +kernel⟩,
   ⟨0, true, [], cmdState 0x306 ([0, 0, 0, 0, 0, 0x40, 0, 0] ++ List.replicate 8 0), by decide +kernel⟩,
   ⟨0, cmdState 0x400 [16, 2, 0, 0, 0, 0, 0, 0], by decide +kernel⟩,
   ⟨0, cmdState 0x401 ([16, 4, 1, 0, 0, 0, 0, 0] ++ List.replicate 24 0), by decide +kernel⟩,
   ⟨0, cmdState 0x402 [0, 0, 0, 0, 0, 0, 0, 0], by decide +kernel⟩,
   ⟨0, cmdState 0x403 [4, 1, 0, 0, 0, 0, 0, 0], by decide +kernel⟩,
   ⟨0, cmdState 0x500 [0, 16, 0, 0, 0, 0, 0, 0], by decide +kernel⟩,
   ⟨0, cmdState 0x501 [128, 0, 0, 0, 0, 0, 0, 0], by decide +kernel⟩,
   ⟨0, cmdState 0x502 ([0, 64] ++ List.replicate 22 0), by decide +kernel⟩,
   ⟨0, cmdState 0x503 [16, 0, 0, 0, 0, 0, 0, 0], by decide +kernel⟩,
   ⟨0, cmdState 0x504 [254, 0, 0, 0, 0, 0, 0, 0], by decide +kernel⟩,
   ⟨0, cmdState 0x505 [0, 0, 31, 0, 0, 0, 0, 0], by decide +kernel⟩,
   ⟨0, cmdState 0x506 [64, 0, 0, 0, 0, 0, 0, 0], by decide +kernel⟩,
   ⟨0, cmdState 0x600 [0, 3, 0, 0, 0, 0, 0, 0], by decide +kernel⟩,
   ⟨0, cmdState 0x601 [16, 2, 0, 0, 0, 0, 0, 0], by decide +kernel⟩,
   ⟨0, cmdState 0x602 ([0, 2, 8] ++ List.replicate 13 0), by decide +kernel⟩,
   ⟨0, cmdState 0x603 [0, 4, 0, 0, 0, 0, 0, 0], by decide +kernel⟩,
   ⟨0, cmdState 0x701 ([3] ++ List.replicate 23 0), by decide +kernel⟩,
   ⟨0, cmdState 0x702 (List.replicate 144 0), by decide +kernel⟩,
   ⟨0, cmdState 0x703 ([64] ++ List.replicate 47 0), by decide +kernel⟩,
   ⟨0, cmdState 0x704 [64, 0, 0, 0, 0, 0, 0, 0], by decide +kernel⟩,
   ⟨0, cmdState 0x705 ([0, 1] ++ List.replicate 30 0), by decide +kernel⟩,
   ⟨0, cmdState 0x800 [2, 0, 0, 0, 0, 0, 0, 0], by decide +kernel⟩,
   ⟨0, cmdState 0x803 [0, 5, 0, 0, 0, 0, 0, 0], by decide +kernel⟩,
   ⟨0, cmdState 0x804 [0, 8, 0, 0, 0, 0, 0, 0], by decide +kernel⟩,
   ⟨0, cmdState 0x900 [0, 0, 0, 0, 0, 0, 0, 0], by decide +kernel⟩,
   ⟨0, cmdState 0x902 [2, 0, 0, 0, 0, 0, 0, 0], by decide +kernel⟩,
   ⟨0, cmdState 0xA00 ([4] ++ List.replicate 23 0), by decide +kernel⟩,
   ⟨0, cmdState 0xA02 ([16] ++ List.replicate 39 0), by decide +kernel⟩,
   ⟨0, cmdState 0xA03 ([16] ++ List.replicate 15 0), by decide +kernel⟩,
   ⟨0, cmdState 0xA04 [0, 2, 1, 0, 0, 0, 0, 0], by decide +kernel⟩,
   ⟨0, cmdState 0xA05 [0, 0, 0, 0, 0, 0, 0, 0], by decide +kernel⟩,
   ⟨0, cmdState 0xA06 [0, 2, 0, 0, 0, 0, 0, 0], by decide +kernel⟩,
   ⟨0, cmdState 0xB00 (List.replicate 16 0), by decide +kernel⟩,
   ⟨0, cmdState 0xB01 ([1, 0, 0, 0, 0, 0, 0, 0] ++ List.replicate 24 255), by decide +kernel⟩,
   ⟨0, { cmdState 0x402 [0, 6, 0, 0, 0, 0, 0, 0] with hw := { (cmdState 0x402 [0, 6, 0, 0, 0, 0, 0, 0]).hw with mode := .isolated } }, by decide +kernel⟩,
   ⟨0, busyState, by decide +kernel⟩,
   ⟨0, 5, targetState, by decide +kernel⟩,
   ⟨0, emptyCast, by decide +kernel⟩,
   ⟨1, emptyCast, by decide +kernel⟩⟩

/-- The hypotheses of each clause of HostAccessesAreSteeredAndServed are met. -/
theorem test_meets_HostAccessesAreSteeredAndServed :
  (∃ addr : BitVec 41, ∃ _v : BitVec 64, ∃ s : State, (s.hw.clocked = true) ∧ (s.hw.mode ≠ .frozen ∨ bar0Base ≤
    addr.toNat) ∧ (addr.toNat % 8 = 0) ∧ (regExists addr.toNat = true) ∧ (addr.toNat ≠ aHI_ABORT)) ∧
  (∃ addr : BitVec 41, ∃ _v : BitVec 64, ∃ s : State, (s.hw.clocked = true) ∧ (s.hw.mode ≠ .frozen ∨ bar0Base ≤
    addr.toNat) ∧ (addr.toNat % 4 = 0) ∧ (regExists (addr.toNat / 8 * 8) = true) ∧ (addr.toNat / 8 * 8 ≠ aHI_ABORT)) ∧
  (∃ addr : BitVec 41, ∃ _v : BitVec 64, ∃ s : State, (s.hw.clocked = true) ∧ (addr.toNat = aHI_ABORT)) ∧
  (∃ addr : BitVec 41, ∃ _v : BitVec 64, ∃ s : State, (s.hw.clocked = true) ∧ (addr.toNat = aHI_ABORT)) ∧
  (∃ addr : BitVec 41, ∃ _v : BitVec 64, ∃ s : State, (s.hw.clocked = true) ∧ (addr.toNat = aHI_ABORT + 4)) ∧
  (∃ addr : BitVec 41, ∃ wide : Bool, ∃ _v : BitVec 64, ∃ s : State, (Up s) ∧ (inStore addr.toNat = true) ∧
    (addr.toNat % (if wide then 8 else 4) = 0)) ∧
  (∃ n : Fin 128, ∃ c : Fin 16, ∃ _m : Sparse Byte, ∃ h : Hw, ∃ a : Nat, ∃ _bs : List Byte, (storeOwner (a -
    0x1004000000) = some (n.val, c.val)) ∧ (inUse h n c = true ∨ (pen h n).locks.getLsbD c = true)) ∧
  (∃ n : Fin 128, ∃ c : Fin 16, ∃ _m : Sparse Byte, ∃ h : Hw, ∃ a : Nat, ∃ _bs : List Byte, (storeOwner (a -
    0x1004000000) = some (n.val, c.val)) ∧ (inUse h n c = false) ∧ ((pen h n).locks.getLsbD c = false) ∧ (a <
    0x1004200000)) ∧
  (∃ _m : Sparse Byte, ∃ h : Hw, ∃ a : Nat, ∃ _bs : List Byte, (blockAddr 0 ≤ a) ∧ (a < blockAddr 256) ∧ (isSet h
    aTF_CTL fTF_CTL_EN = true)) ∧
  (∃ _m : Sparse Byte, ∃ h : Hw, ∃ a : Nat, ∃ _bs : List Byte, (blockAddr 0 ≤ a) ∧ (a < blockAddr 256) ∧ (isSet h
    aTF_CTL fTF_CTL_EN = false)) ∧
  (∃ addr : BitVec 41, ∃ wide : Bool, ∃ _v : BitVec 64, ∃ s : State, (Up s) ∧ (addr.toNat % (if wide then 8 else 4)
    ≠ 0 ∨ (regExists (addr.toNat / 8 * 8) = false ∧ inStore addr.toNat = false))) ∧
  (∃ addr : BitVec 41, ∃ _wide : Bool, ∃ _v : BitVec 64, ∃ s : State, (s.hw.clocked = true) ∧ (s.hw.mode = .frozen)
    ∧ (addr.toNat < bar0Base)) ∧
  (∃ _addr : BitVec 41, ∃ _wide : Bool, ∃ _v : BitVec 64, ∃ s : State, (s.hw.clocked = false)) ∧
  (∃ addr : BitVec 41, ∃ s : State, (s.hw.clocked = true) ∧ (s.hw.mode ≠ .frozen ∨ bar0Base ≤ addr.toNat)) ∧
  (∃ addr : BitVec 41, ∃ s : State, (s.hw.clocked = true) ∧ (s.hw.mode = .frozen) ∧ (addr.toNat < bar0Base)) ∧
  (∃ _addr : BitVec 41, ∃ s : State, (s.hw.clocked = false)) ∧
  (∃ x : Bar2, ∃ s : State, (s.hw.clocked = true) ∧ (x.wr = true) ∧ (x.tlpEp = true)) ∧
  (∃ x : Bar2, ∃ s : State, (s.hw.clocked = true) ∧ (x.wr = true) ∧ (x.data = [])) ∧
  (∃ x : Bar2, ∃ s : State, (s.hw.clocked = true) ∧ (x.wr = false) ∧ (x.len = 0)) ∧
  (∃ _x : Bar2, ∃ s : State, (s.hw.clocked = false)) ∧
  (∃ x : Bar2, ∃ s : State, (s.hw.clocked = true) ∧ (¬ (x.wr = true ∧ x.tlpEp = true)) ∧ (barSize x ≠ 0) ∧ (isSet
    s.hw (aAP (x.off.toNat / 2 ^ 30)) fAP_EN = false)) ∧
  (∃ x : Bar2, ∃ s : State, (BarTaken s x) ∧ (barView s x = true) ∧ (barDev s x ≠ 0 ∨ s.hw.mode ≠ .frozen)) ∧
  (∃ x : Bar2, ∃ s : State, (BarTaken s x) ∧ (barView s x = true) ∧ (barDev s x = 0) ∧ (s.hw.mode = .frozen) ∧ (x.wr
    = true)) ∧
  (∃ x : Bar2, ∃ s : State, (BarTaken s x) ∧ (barView s x = true) ∧ (barDev s x = 0) ∧ (s.hw.mode = .frozen) ∧ (x.wr
    = false) ∧ (regionOf s.hw (barAddr s x) x.len = .register)) ∧
  (∃ x : Bar2, ∃ s : State, (BarTaken s x) ∧ (barView s x = true) ∧ (barDev s x = 0) ∧ (s.hw.mode = .frozen) ∧ (x.wr
    = false) ∧ (regionOf s.hw (barAddr s x) x.len = .slots)) ∧
  (∃ x : Bar2, ∃ s : State, (BarTaken s x) ∧ (barView s x = true) ∧ (barDev s x = 0) ∧ (s.hw.mode = .frozen) ∧ (x.wr
    = false) ∧ (regionOf s.hw (barAddr s x) x.len = .store)) ∧
  (∃ x : Bar2, ∃ s : State, (BarTaken s x) ∧ (barView s x = true) ∧ (barDev s x = 0) ∧ (s.hw.mode = .frozen) ∧ (x.wr
    = false) ∧ (regionOf s.hw (barAddr s x) x.len = .hole ∨ regionOf s.hw (barAddr s x) x.len = .badRegister)) ∧
  (∃ x : Bar2, ∃ s : State, (BarTaken s x) ∧ (barView s x = false) ∧ (barDev s x = selfAddr s.hw) ∧ (regionOf s.hw
    (barAddr s x) (barSize x) = .hole ∨ regionOf s.hw (barAddr s x) (barSize x) = .badRegister)) ∧
  (∃ x : Bar2, ∃ s : State, (BarTaken s x) ∧ (barView s x = false) ∧ (barDev s x = selfAddr s.hw) ∧ (x.wr = true) ∧
    (regionOf s.hw (barAddr s x) (barSize x) = .store)) ∧
  (∃ x : Bar2, ∃ s : State, (BarTaken s x) ∧ (barView s x = false) ∧ (barDev s x = selfAddr s.hw) ∧ (regionOf s.hw
    (barAddr s x) (barSize x) ≠ .hole) ∧ (regionOf s.hw (barAddr s x) (barSize x) ≠ .badRegister) ∧ (x.wr = false ∨
    regionOf s.hw (barAddr s x) (barSize x) ≠ .store) ∧ (s.hw.mode = .isolated ∨ s.hw.mode = .frozen ∨ barClosed
    s.hw (barAddr s x) x = true)) ∧
  (∃ x : Bar2, ∃ s : State, (BarTaken s x) ∧ (barView s x = false) ∧ (barDev s x = selfAddr s.hw) ∧ (regionOf s.hw
    (barAddr s x) (barSize x) ≠ .hole) ∧ (regionOf s.hw (barAddr s x) (barSize x) ≠ .badRegister) ∧ (x.wr = false ∨
    regionOf s.hw (barAddr s x) (barSize x) ≠ .store) ∧ (s.hw.mode ≠ .isolated) ∧ (s.hw.mode ≠ .frozen) ∧ (barClosed
    s.hw (barAddr s x) x = false)) ∧
  (∃ x : Bar2, ∃ d : Nat, ∃ s : State, (BarTaken s x) ∧ (barView s x = false) ∧ (d = barDev s x) ∧ (d ≠ selfAddr
    s.hw) ∧ (addressed s.hw = false ∨ chainCount s.hw ≤ d)) ∧
  (∃ x : Bar2, ∃ d : Nat, ∃ s : State, (BarTaken s x) ∧ (barView s x = false) ∧ (d = barDev s x) ∧ (d ≠ selfAddr
    s.hw) ∧ (addressed s.hw = true) ∧ (d < chainCount s.hw) ∧ (frozen s.hw = true ∨ portTo s.hw d = none)) ∧
  (∃ x : Bar2, ∃ d : Nat, ∃ p : Nat, ∃ s : State, (BarTaken s x) ∧ (barView s x = false) ∧ (d = barDev s x) ∧ (d ≠
    selfAddr s.hw) ∧ (addressed s.hw = true) ∧ (d < chainCount s.hw) ∧ (frozen s.hw = false) ∧ (portTo s.hw d = some
    p)) ∧
  (∃ h : Hw, ∃ _d : Nat, ∃ _p : Nat, ∃ a : Nat, ∃ x : Bar2, (farRegion h a (barSize x) = .hole ∨ farRegion h a
    (barSize x) = .badRegister)) ∧
  (∃ h : Hw, ∃ _d : Nat, ∃ _p : Nat, ∃ a : Nat, ∃ x : Bar2, (barSize x ≠ 0) ∧ (farRegion h a (barSize x) = .dram ∨
    farRegion h a (barSize x) = .slots ∨ farRegion h a (barSize x) = .register)) ∧
  (∃ _id : Nat, ∃ _a : Nat, ∃ x : Bar2, (x.wr = true) ∧ (x.data.length = 8)) ∧
  (∃ _id : Nat, ∃ _a : Nat, ∃ x : Bar2, (x.wr = false)) ∧
  (∃ _h : Hw, ∃ w : Whole, ∃ _n : Nat, (w.status = 0)) ∧
  (∃ _h : Hw, ∃ w : Whole, ∃ _n : Nat, (w.status ≠ 0)) :=
  ⟨⟨BitVec.ofNat 41 (aGS_STARTS 0), 0, upState, by decide +kernel⟩,
   ⟨BitVec.ofNat 41 (aGS_STARTS 0 + 4), 7, upState, by decide +kernel⟩,
   ⟨BitVec.ofNat 41 aHI_ABORT, 8, postedState [0, 1], by decide +kernel⟩,
   ⟨BitVec.ofNat 41 aHI_ABORT, 8, postedState [0, 1], by decide +kernel⟩,
   ⟨BitVec.ofNat 41 (aHI_ABORT + 4), 8, postedState [0, 1], by decide +kernel⟩,
   ⟨0x1004000008, true, 7, upState, by decide +kernel⟩,
   ⟨0, 1, [], lockedState.hw, 0x1004000040, [1], by decide +kernel⟩,
   ⟨0, 5, [], upState.hw, 0x1004000140, [1], by decide +kernel⟩,
   ⟨[], setF upState.hw aTF_CTL fTF_CTL_EN 1, blockAddr 3, [1], by decide +kernel⟩,
   ⟨[], upState.hw, blockAddr 3, [1], by decide +kernel⟩,
   ⟨4, true, 0, upState, by decide +kernel⟩,
   ⟨BitVec.ofNat 41 (aGS_STARTS 0), true, 0, inFrozen upState, by decide +kernel⟩,
   ⟨0, true, 0, State.reset, by decide +kernel⟩,
   ⟨BitVec.ofNat 41 (aTRG_ECC 0 0), upState, by decide +kernel⟩,
   ⟨BitVec.ofNat 41 (aTRG_ECC 0 0), inFrozen upState, by decide +kernel⟩,
   ⟨BitVec.ofNat 41 (aTRG_ECC 0 0), State.reset, by decide +kernel⟩,
   ⟨⟨0, true, 0, [1], true, .ok⟩, upState, by decide +kernel⟩,
   ⟨⟨0, true, 0, [], false, .ok⟩, upState, by decide +kernel⟩,
   ⟨⟨0, false, 0, [], false, .ok⟩, upState, by decide +kernel⟩,
   ⟨⟨0, false, 4, [], false, .ok⟩, State.reset, by decide +kernel⟩,
   ⟨⟨0x40000000, false, 4, [], false, .ok⟩, upState, by decide +kernel⟩,
   ⟨⟨0, false, 4, [], false, .ok⟩, barState 3, by decide +kernel⟩,
   ⟨⟨0, true, 0, [1], false, .ok⟩, inFrozen (barState 3), by decide +kernel⟩,
   ⟨⟨BitVec.ofNat 36 (aGS_STARTS 0 % 2 ^ 30), false, 8, [], false, .ok⟩, inFrozen (barState (BitVec.ofNat 64 (3 + aGS_STARTS 0 / 2 ^ 30 * 2 ^ fAP_BASE.lo))), by decide +kernel⟩,
   ⟨⟨0, false, 16, [], false, .ok⟩, inFrozen (barState 0x400003), by decide +kernel⟩,
   ⟨⟨0x4000000, false, 16, [], false, .ok⟩, inFrozen (barState 0x400003), by decide +kernel⟩,
   ⟨⟨0, false, 16, [], false, .ok⟩, inFrozen (barState 0x3FF0003), by decide +kernel⟩,
   ⟨⟨10, false, 4, [], false, .ok⟩, barState 0x3FF0001, by decide +kernel⟩,
   ⟨⟨0x4000000, true, 0, [1, 2], false, .ok⟩, barState 0x400001, by decide +kernel⟩,
   ⟨⟨10, false, 4, [], false, .ok⟩, inFrozen (barState 1), by decide +kernel⟩,
   ⟨⟨10, false, 4, [], false, .ok⟩, barState 1, by decide +kernel⟩,
   ⟨⟨0, false, 16, [], false, .ok⟩, 5, barState (BitVec.ofNat 64 (1 + 5 * 2 ^ (fAP_DEV 0).lo)), by decide +kernel⟩,
   ⟨⟨0, false, 16, [], false, .ok⟩, 5, inFrozen farState, by decide +kernel⟩,
   ⟨⟨0, false, 16, [], false, .ok⟩, 5, ((portTo farState.hw 5).getD 0), farState, by decide +kernel⟩,
   ⟨upState.hw, 5, 1, 0x2000000000, ⟨0, false, 16, [], false, .ok⟩, by decide +kernel⟩,
   ⟨upState.hw, 5, 1, 0, ⟨0, false, 16, [], false, .ok⟩, by decide +kernel⟩,
   ⟨0, BitVec.toNat 8#9, ⟨0, true, 0, [1, 2, 3, 4, 5, 6, 7, 8], false, .ok⟩, by decide +kernel⟩,
   ⟨0, 8, ⟨0, false, 8, [], false, .ok⟩, by decide +kernel⟩,
   ⟨upState.hw, ⟨.host false 4, 0, [], 0, false⟩, 4, by decide +kernel⟩,
   ⟨upState.hw, ⟨.host true 4, 0, [], 1, false⟩, 4, by decide +kernel⟩⟩

/-- The hypotheses of each clause of FindingsBecomeAlarmsAndVectors are met. -/
theorem test_meets_FindingsBecomeAlarmsAndVectors :
  (∃ f : Finding, ∃ s : State, (frozen s.hw = false) ∧ (findingCodes.contains f.code.toNat = true) ∧
    (s.hw.obs.queue.length < 256)) ∧
  (∃ f : Finding, ∃ s : State, (frozen s.hw = false) ∧ (findingCodes.contains f.code.toNat = true) ∧ (256 ≤
    s.hw.obs.queue.length)) ∧
  (∃ f : Finding, ∃ s : State, (frozen s.hw = true ∨ findingCodes.contains f.code.toNat = false)) ∧
  (∃ r : LogRec, ∃ rest : List LogRec, ∃ s : State, (fwRuns s.hw = true) ∧ (s.hw.obs.queue = r :: rest)) ∧
  (∃ s : State, (fwRuns s.hw = false ∨ s.hw.obs.queue = [])) ∧
  (∃ code : BitVec 9, ∃ c : FindCnt, ∃ r : LogRec, ∃ s : State, (fwRuns s.hw = true) ∧ (c = findCnt s.hw code.toNat)
    ∧ (c.count ≠ 0) ∧ (c.latch = some r)) ∧
  (∃ code : BitVec 9, ∃ s : State, (fwRuns s.hw = false ∨ (findCnt s.hw code.toNat).count = 0)) ∧
  (∃ h : Hw, ∃ _r : LogRec, (h.obs.qLost = 0)) ∧
  (∃ h : Hw, ∃ _r : LogRec, (h.obs.qLost ≠ 0)) ∧
  (∃ h : Hw, ∃ code : Nat, ∃ k : Nat, ∃ _tick : Nat, ∃ _router : Nat, ∃ _r : LogRec, ((alarmClass code).isSome =
    true) ∧ ((alarmClass code) ≠ some 0) ∧ ((alarm h code).count = 0) ∧ (k ≠ 0)) ∧
  (∃ h : Hw, ∃ code : Nat, ∃ _k : Nat, ∃ _tick : Nat, ∃ _router : Nat, ∃ _r : LogRec, ((alarmClass code).isSome =
    true) ∧ ((alarmClass code) ≠ some 0) ∧ ((alarm h code).count ≠ 0)) ∧
  (∃ h : Hw, ∃ code : Nat, ∃ _router : Nat, ∃ _addr : Nat, ∃ _detail : Nat, ((alarmClass code).isSome = true) ∧
    (alarmClass code ≠ some 0 ∨ h.mode ≠ .startUp) ∧ (fwRuns h = false)) ∧
  (∃ h : Hw, ∃ v : Nat, ((msix h v).busy = false) ∧ (vecMasked h v = false)) ∧
  (∃ h : Hw, ∃ v : Nat, ((msix h v).busy = true ∨ vecMasked h v = true)) ∧
  (∃ v : Fin 64, ∃ s : State, ((msix s.hw v).busy = true) ∧ ((msix s.hw v).pend = false)) ∧
  (∃ v : Fin 64, ∃ s : State, ((msix s.hw v).busy = true) ∧ ((msix s.hw v).pend = true) ∧ (vecMasked s.hw v = true)) ∧
  (∃ v : Fin 64, ∃ s : State, ((msix s.hw v).busy = true) ∧ ((msix s.hw v).pend = true) ∧ (vecMasked s.hw v =
    false)) ∧
  (∃ v : Fin 64, ∃ s : State, ((msix s.hw v).busy = false)) ∧
  (∃ v : Fin 64, ∃ s : State, (s.hw.obs.evHit.contains v.val = true)) ∧
  (∃ v : Fin 64, ∃ s : State, (s.hw.obs.evHit.contains v.val = false)) ∧
  (∃ s : State, (frozen s.hw = false)) ∧
  (∃ s : State, (frozen s.hw = false)) ∧
  (∃ _c : Bool, ∃ s : State, (frozen s.hw = true)) ∧
  (∃ s : State, (s.hw.clocked = true) ∧ (s.hw.mode = .run ∨ s.hw.mode = .test ∨ s.hw.mode = .isolated) ∧ (fwRuns
    s.hw = true)) :=
  ⟨⟨⟨0x40, 2, 0, 0, 8⟩, upState, by decide +kernel⟩,
   ⟨⟨0x40, 2, 0, 0, 8⟩, fullQueueState, by decide +kernel⟩,
   ⟨⟨0x41, 2, 0, 0, 8⟩, inFrozen upState, by decide +kernel⟩,
   ⟨someRecord, [], queueState, by decide +kernel⟩,
   ⟨upState, by decide +kernel⟩,
   ⟨0x40, ⟨3, some someRecord, 5, 8⟩, someRecord, queueState, by decide +kernel⟩,
   ⟨0x40, upState, by decide +kernel⟩,
   ⟨upState.hw, someRecord, by decide +kernel⟩,
   ⟨{ fullQueueState.hw with obs := { fullQueueState.hw.obs with qLost := 3 } }, someRecord, by decide +kernel⟩,
   ⟨upState.hw, 0x40, 3, 5, 8, someRecord, by decide +kernel⟩,
   ⟨occur upState.hw 0x40 1 2 3 someRecord, 0x40, 3, 5, 8, someRecord, by decide +kernel⟩,
   ⟨(inFrozen upState).hw, 0x40, 1, 2, 3, by decide +kernel⟩,
   ⟨openVec.hw, 16, by decide +kernel⟩,
   ⟨(sendVector upState.hw 16), 16, by decide +kernel⟩,
   ⟨16, { upState with hw := sendVector openVec.hw 16 }, by decide +kernel⟩,
   ⟨16, { upState with hw := setMsix upState.hw 16 ⟨true, true, 1⟩ }, by decide +kernel⟩,
   ⟨16, { upState with hw := sendVector (sendVector openVec.hw 16) 16 }, by decide +kernel⟩,
   ⟨16, upState, by decide +kernel⟩,
   ⟨40, hitState, by decide +kernel⟩,
   ⟨42, hitState, by decide +kernel⟩,
   ⟨upState, by decide +kernel⟩,
   ⟨upState, by decide +kernel⟩,
   ⟨true, inFrozen upState, by decide +kernel⟩,
   ⟨{ upState with hw := { upState.hw with fns := [] } }, by decide +kernel⟩⟩

/-- The hypotheses of each clause of FreezeRequestsAndTheStopEdge are met. -/
theorem test_meets_FreezeRequestsAndTheStopEdge :
  (∃ s : State, (frozen s.hw = false) ∧ (s.hw.clocked = true) ∧ (s.hw.frz.req = none) ∧ (isSet s.hw aFR_CTL
    fFR_CTL_PROP = false)) ∧
  (∃ s : State, (frozen s.hw = false) ∧ (s.hw.clocked = true) ∧ (s.hw.frz.req = none) ∧ (isSet s.hw aFR_CTL
    fFR_CTL_PROP = true)) ∧
  (∃ s : State, (s.hw.clocked = false ∨ s.hw.mode = .frozen ∨ s.hw.frz.req.isSome = true)) ∧
  (∃ h : Hw, ∃ s : State, (Up s) ∧ (h = writePlain s.hw .hi 0 0x38 aHI_FRZ 1) ∧ (s.hw.frz.req = none) ∧ (isSet s.hw
    aFR_CTL fFR_CTL_PROP = false)) ∧
  (∃ s : State, (Up s)) ∧
  (∃ s : State, (Up s) ∧ (s.hw.frz.entering = false)) ∧
  (∃ s : State, (Up s) ∧ (s.hw.frz.timed = none)) ∧
  (∃ s : State, (Up s) ∧ (s.hw.frz.entering = true)) ∧
  (∃ sec : Nat, ∃ ns : Nat, ∃ k : Nat, ∃ s : State, (frozen s.hw = false) ∧ (s.hw.frz.timed = some (k, sec, ns)) ∧
    (time32 sec ns ≤ now32 s.hw + 1000 * 2 ^ 32)) ∧
  (∃ sec : Nat, ∃ ns : Nat, ∃ k : Nat, ∃ s : State, (s.hw.frz.timed = some (k, sec, ns)) ∧ (now32 s.hw + 1000 * 2 ^
    32 < time32 sec ns)) ∧
  (∃ s : State, (s.hw.frz.timed = none ∨ frozen s.hw = true)) ∧
  (∃ k : Nat, ∃ s : State, (frozen s.hw = false) ∧ (s.hw.frz.req = some k) ∧ (∀ c : Fin 4, (dramCh s.hw c).paused =
    false)) ∧
  (∃ sec : Nat, ∃ ns : Nat, ∃ k : Nat, ∃ s : State, (frozen s.hw = false) ∧ (s.hw.frz.req = none) ∧ (s.hw.frz.timed
    = some (k, sec, ns)) ∧ (s.hw.frz.entering = true) ∧ (time32 sec ns ≤ now32 s.hw) ∧ (∀ c : Fin 4, (dramCh s.hw
    c).paused = false)) ∧
  (∃ c : Fin 4, ∃ s : State, ((dramCh s.hw c).paused = true)) ∧
  (∃ s : State, (frozen s.hw = true ∨ (s.hw.frz.req = none ∧ s.hw.frz.timed = none))) ∧
  (∃ sec : Nat, ∃ ns : Nat, ∃ k : Nat, ∃ s : State, (s.hw.frz.req = none) ∧ (s.hw.frz.timed = some (k, sec, ns)) ∧
    (s.hw.frz.entering = false ∨ now32 s.hw < time32 sec ns)) ∧
  (∃ h : Hw, ∃ _k : Nat, ∃ _late : Bool, (h.mode ≠ .frozen)) ∧
  (∃ h : Hw, ∃ _k : Nat, ∃ _late : Bool, ∃ c : Fin 4, (h.mode ≠ .frozen) ∧ (chanLive h c = true)) :=
  ⟨⟨upState, by decide +kernel⟩,
   ⟨withReg linkState aFR_CTL (2 ^ fFR_CTL_PROP.lo), by decide +kernel⟩,
   ⟨frozenState, by decide +kernel⟩,
   ⟨writePlain upState.hw .hi 0 0x38 aHI_FRZ 1, upState, by decide +kernel⟩,
   ⟨upState, by decide +kernel⟩,
   ⟨timedState 5, by decide +kernel⟩,
   ⟨upState, by decide +kernel⟩,
   ⟨enteringState 5, by decide +kernel⟩,
   ⟨0, 1000, 3, timedState 1000, by decide +kernel⟩,
   ⟨0, 1001, 3, timedState 1001, by decide +kernel⟩,
   ⟨upState, by decide +kernel⟩,
   ⟨1, reqState, by decide +kernel⟩,
   ⟨0, 0, 3, enteringState 0, by decide +kernel⟩,
   ⟨2, { reqState with hw := setDramCh reqState.hw 2 { dramCh reqState.hw 2 with paused := true } }, by decide +kernel⟩,
   ⟨upState, by decide +kernel⟩,
   ⟨0, 7, 3, enteringState 7, by decide +kernel⟩,
   ⟨upState.hw, 1, false, by decide +kernel⟩,
   ⟨dramState.hw, 1, false, 3, by decide +kernel⟩⟩

/-- The hypotheses of each clause of FrozenReadoutAndResume are met. -/
theorem test_meets_FrozenReadoutAndResume :
  (∃ a : BitVec 48, ∃ s : State, (s.hw.mode = .frozen) ∧ (a.toNat % 8 = 0)) ∧
  (∃ a : BitVec 48, ∃ s : State, (s.hw.mode = .frozen) ∧ (a.toNat % 8 ≠ 0)) ∧
  (∃ r : Option (List Byte) × Hw, ∃ bs : List Byte, ∃ s : State, (s.hw.mode = .frozen) ∧ (r = frozenRead s.mem s.hw
    s.hw.frz.tapAddr.toNat 8 .ok) ∧ (r.1 = some bs)) ∧
  (∃ r : Option (List Byte) × Hw, ∃ s : State, (s.hw.mode = .frozen) ∧ (r = frozenRead s.mem s.hw
    s.hw.frz.tapAddr.toNat 8 .ok) ∧ (r.1 = none) ∧ (regionOf s.hw s.hw.frz.tapAddr.toNat 8 ≠ .dram)) ∧
  (∃ r : Option (List Byte) × Hw, ∃ s : State, (s.hw.mode = .frozen) ∧ (r = frozenRead s.mem s.hw
    s.hw.frz.tapAddr.toNat 8 .ok) ∧ (r.1 = none) ∧ (regionOf s.hw s.hw.frz.tapAddr.toNat 8 = .dram)) ∧
  (∃ _a : BitVec 48, ∃ s : State, (s.hw.mode ≠ .frozen)) ∧
  (∃ s : State, (s.hw.mode ≠ .frozen)) ∧
  (∃ s : State, (s.hw.mode ≠ .frozen)) ∧
  (∃ s : State, (s.hw.mode = .frozen)) ∧
  (∃ _m : Sparse Byte, ∃ h : Hw, (h.mode = .frozen)) ∧
  (∃ c : Fin 4, ∃ o : BitVec 4, ∃ s : State, (s.hw.mode = .frozen) ∧ (o = BitVec.ofNat 4 (2 ^ c.val)) ∧
    (s.hw.frz.out = o)) ∧
  (∃ c : Fin 4, ∃ s : State, (s.hw.mode = .frozen) ∧ (s.hw.frz.out.getLsbD c.val = true) ∧ (s.hw.frz.out ≠
    BitVec.ofNat 4 (2 ^ c.val))) ∧
  (∃ c : Fin 4, ∃ s : State, (s.hw.mode ≠ .frozen ∨ s.hw.frz.out.getLsbD c.val = false)) ∧
  (∃ s : State, (s.hw.mode = .frozen)) ∧
  (∃ s : State, (s.hw.mode = .frozen)) ∧
  (∃ s : State, (s.hw.mode ≠ .frozen)) ∧
  (∃ s : State, (s.hw.mode ≠ .frozen)) ∧
  (∃ _dropped : Bool, ∃ _ds : List (BitVec 8), ∃ s : State, (frozen s.hw = true) ∧ (s.hw.mode ≠ .frozen ∨
    s.hw.frz.resuming = false) ∧ (s.hw.slots = [])) ∧
  (∃ h : Hw, ∃ sl : Fin 48, ∃ x : Slot, (h.mode ≠ .frozen) ∧ (h.slots = [(sl.val, x)]) ∧ (x.st = .taken) ∧ (x.opc =
    0xA11) ∧ (x.left.testBit (selfAddr h) = true)) ∧
  (∃ _dropped : Bool, ∃ _ds : List (BitVec 8), ∃ s : State, (s.hw.mode = .frozen) ∧ (s.hw.frz.resuming = true) ∧
    (s.hw.slots = []) ∧ (s.hw.noc.held = [])) ∧
  (∃ _dropped : Bool, ∃ _ds : List (BitVec 8), ∃ s : State, (s.hw.mode = .frozen) ∧ (s.hw.frz.resuming = true) ∧
    (s.hw.before ≠ .frozen) ∧ (s.hw.frz.deferred = []) ∧ (s.hw.slots = []) ∧ (s.hw.noc.held = [])) :=
  ⟨⟨0x1000000000, frozenState, by decide +kernel⟩,
   ⟨1, frozenState, by decide +kernel⟩,
   ⟨frozenRead [] (tapState 0x1000000000).hw 0x1000000000 8 .ok, [0, 0, 0, 0, 0, 0, 0, 0], tapState 0x1000000000, by decide +kernel⟩,
   ⟨frozenRead [] (tapState 0).hw 0 8 .ok, tapState 0, by decide +kernel⟩,
   ⟨frozenRead [] (inFrozen (barState 1)).hw 0 8 .ok, inFrozen (barState 1), by decide +kernel⟩,
   ⟨8, upState, by decide +kernel⟩,
   ⟨upState, by decide +kernel⟩,
   ⟨upState, by decide +kernel⟩,
   ⟨frozenState, by decide +kernel⟩,
   ⟨[], frozenState.hw, by decide +kernel⟩,
   ⟨2, 4, outState, by decide +kernel⟩,
   ⟨2, { outState with hw := { outState.hw with frz := { outState.hw.frz with out := 5 } } }, by decide +kernel⟩,
   ⟨1, outState, by decide +kernel⟩,
   ⟨frozenState, by decide +kernel⟩,
   ⟨frozenState, by decide +kernel⟩,
   ⟨upState, by decide +kernel⟩,
   ⟨upState, by decide +kernel⟩,
   ⟨true, [], frozenState, by decide +kernel⟩,
   ⟨(asked (cmdState 0xA11 []) 0).hw, 0, slot (asked (cmdState 0xA11 []) 0).hw 0, by decide +kernel⟩,
   ⟨true, [], { frozenState with hw := resuming frozenState.hw }, by decide +kernel⟩,
   ⟨true, [], { frozenState with hw := resuming frozenState.hw }, by decide +kernel⟩⟩

/-- The hypotheses of each clause of PowerOnRunsItsSequence are met. -/
theorem test_meets_PowerOnRunsItsSequence :
  (∃ _st : Straps, ∃ mv : BitVec 16, ∃ hot : Bool, ∃ s : State, (s.hw.phase = .por) ∧ (2600 ≤ mv.toNat) ∧
    (s.hw.tripped = false ∨ hot = false)) ∧
  (∃ _st : Straps, ∃ mv : BitVec 16, ∃ hot : Bool, ∃ s : State, (s.hw.phase ≠ .por ∨ mv.toNat < 2600 ∨ (s.hw.tripped
    = true ∧ hot = true))) ∧
  (∃ s : State, (s.hw.phase ≠ .rails ∨ getF s.hw aDV_BOOT fDV_BOOT_REFSEL = 3)) ∧
  (∃ s : State, (s.hw.phase = .rails) ∧ (getF s.hw aDV_BOOT fDV_BOOT_REFSEL ≠ 3) ∧ (s.hw.locked = true) ∧ (bootSel
    s.hw ≠ 3) ∧ (bootSel s.hw = 1 → isDev0 s.hw = false)) ∧
  (∃ s : State, (s.hw.phase = .rails) ∧ (getF s.hw aDV_BOOT fDV_BOOT_REFSEL ≠ 3) ∧ (s.hw.locked = false) ∧ (bootSel
    s.hw ≠ 3) ∧ (bootSel s.hw = 1 → isDev0 s.hw = false)) ∧
  (∃ s : State, (s.hw.phase = .rails) ∧ (getF s.hw aDV_BOOT fDV_BOOT_REFSEL ≠ 3) ∧ (s.hw.locked = true) ∧ (bootSel
    s.hw = 3 ∨ (isDev0 s.hw = true ∧ bootSel s.hw = 1))) ∧
  (∃ s : State, (s.hw.phase = .rails) ∧ (getF s.hw aDV_BOOT fDV_BOOT_REFSEL ≠ 3) ∧ (s.hw.locked = false) ∧ (bootSel
    s.hw = 3 ∨ (isDev0 s.hw = true ∧ bootSel s.hw = 1))) ∧
  (∃ a : Option FwCheck, ∃ b : Option FwCheck, ∃ ca : FwCheck, ∃ cb : FwCheck, ∃ s : State, (s.hw.phase = .rom) ∧
    (s.hw.recovering = none) ∧ (frozen s.hw = false) ∧ (copyCheck s false a = ca) ∧ (copyCheck s true b = cb) ∧
    (bootSel s.hw ≠ 1) ∧ (ca.step = 0) ∧ (cb.step ≠ 0 ∨ newer cb.seqno ca.seqno = false)) ∧
  (∃ a : Option FwCheck, ∃ b : Option FwCheck, ∃ ca : FwCheck, ∃ cb : FwCheck, ∃ s : State, (s.hw.phase = .rom) ∧
    (s.hw.recovering = none) ∧ (frozen s.hw = false) ∧ (copyCheck s false a = ca) ∧ (copyCheck s true b = cb) ∧
    (bootSel s.hw ≠ 1) ∧ (cb.step = 0) ∧ (ca.step ≠ 0 ∨ newer cb.seqno ca.seqno = true)) ∧
  (∃ a : Option FwCheck, ∃ b : Option FwCheck, ∃ ca : FwCheck, ∃ cb : FwCheck, ∃ s : State, (s.hw.phase = .rom) ∧
    (s.hw.recovering = none) ∧ (frozen s.hw = false) ∧ (copyCheck s false a = ca) ∧ (copyCheck s true b = cb) ∧
    (bootSel s.hw = 2) ∧ (ca.step ≠ 0) ∧ (cb.step ≠ 0)) ∧
  (∃ a : Option FwCheck, ∃ b : Option FwCheck, ∃ ca : FwCheck, ∃ cb : FwCheck, ∃ s : State, (s.hw.phase = .rom) ∧
    (s.hw.recovering = none) ∧ (frozen s.hw = false) ∧ (copyCheck s false a = ca) ∧ (copyCheck s true b = cb) ∧
    (bootSel s.hw ≠ 1) ∧ (bootSel s.hw ≠ 2) ∧ (ca.step ≠ 0) ∧ (cb.step ≠ 0)) ∧
  (∃ a : Option FwCheck, ∃ b : Option FwCheck, ∃ ca : FwCheck, ∃ cb : FwCheck, ∃ s : State, (s.hw.phase = .rom) ∧
    (s.hw.recovering = none) ∧ (frozen s.hw = false) ∧ (copyCheck s false a = ca) ∧ (copyCheck s true b = cb) ∧
    (bootSel s.hw = 1)) ∧
  (∃ _a : Option FwCheck, ∃ _b : Option FwCheck, ∃ s : State, (s.hw.phase ≠ .rom ∨ s.hw.recovering.isSome = true ∨
    frozen s.hw = true)) ∧
  (∃ _chans : List DramChan, ∃ _differ : List (Fin 2), ∃ s : State, (s.hw.phase = .firmware) ∧ (s.hw.recovering =
    none) ∧ (frozen s.hw = false)) ∧
  (∃ _chans : List DramChan, ∃ _differ : List (Fin 2), ∃ s : State, (s.hw.phase ≠ .firmware ∨ s.hw.recovering.isSome
    = true ∨ frozen s.hw = true)) ∧
  (∃ h : Hw, ∃ a : DramChan, ∃ b : DramChan, ∃ c : DramChan, ∃ d : DramChan, (h.mode = .startUp) ∧ (frozen h =
    false) ∧ (dramSupported [a, b, c, d] = true)) ∧
  (∃ s : State, (s.hw.phase ≠ .started ∨ s.hw.recovering.isSome = true ∨ frozen s.hw = true)) ∧
  (∃ chans : List DramChan, ∃ h : Hw, (h.mode = .startUp) ∧ (frozen h = false) ∧ (dramSupported chans = false)) ∧
  (∃ s : State, (s.hw.phase = .started) ∧ (s.hw.recovering = none) ∧ (frozen s.hw = false) ∧ (isDev0 s.hw = false)) ∧
  (∃ s : State, (s.hw.phase = .started) ∧ (s.hw.recovering = none) ∧ (frozen s.hw = false) ∧ (isDev0 s.hw = true)) :=
  ⟨⟨⟨0, 1, true⟩, 2600, true, State.reset, by decide +kernel⟩,
   ⟨⟨0, 1, true⟩, 2599, false, State.reset, by decide +kernel⟩,
   ⟨bootState .rails (3 * 2 ^ fDV_BOOT_REFSEL.lo), by decide +kernel⟩,
   ⟨bootState .rails 0, by decide +kernel⟩,
   ⟨unlocked (bootState .rails 0), by decide +kernel⟩,
   ⟨bootState .rails (3 * 2 ^ fDV_BOOT_BOOTSEL.lo), by decide +kernel⟩,
   ⟨unlocked (bootState .rails (3 * 2 ^ fDV_BOOT_BOOTSEL.lo)), by decide +kernel⟩,
   ⟨some ⟨0, 5⟩, some ⟨0, 5⟩, ⟨0, 5⟩, ⟨0, 5⟩, bootState .rom 0, by decide +kernel⟩,
   ⟨some ⟨0, 0xFFFFFFFF⟩, some ⟨0, 5⟩, ⟨0, 0xFFFFFFFF⟩, ⟨0, 5⟩, bootState .rom 0, by decide +kernel⟩,
   ⟨some ⟨4, 9⟩, some ⟨1, 5⟩, ⟨4, 9⟩, ⟨1, 5⟩, bootState .rom (2 * 2 ^ fDV_BOOT_BOOTSEL.lo), by decide +kernel⟩,
   ⟨some ⟨4, 9⟩, some ⟨1, 5⟩, ⟨4, 9⟩, ⟨1, 5⟩, bootState .rom 0, by decide +kernel⟩,
   ⟨some ⟨4, 9⟩, some ⟨0, 5⟩, ⟨4, 9⟩, ⟨0, 5⟩, bootState .rom (2 ^ fDV_BOOT_BOOTSEL.lo), by decide +kernel⟩,
   ⟨none, none, upState, by decide +kernel⟩,
   ⟨[], [1], bootState .firmware 0, by decide +kernel⟩,
   ⟨[], [], upState, by decide +kernel⟩,
   ⟨(bootState .firmware 0).hw, goodChan, goodChan, goodChan, goodChan, by decide +kernel⟩,
   ⟨upState, by decide +kernel⟩,
   ⟨[], (bootState .firmware 0).hw, by decide +kernel⟩,
   ⟨bootState .started 0, by decide +kernel⟩,
   ⟨bootState .started (2 ^ fDV_BOOT_HOSTPORT.lo), by decide +kernel⟩⟩

/-- The hypotheses of each clause of ResetsAndRecoveryAct are met. -/
theorem test_meets_ResetsAndRecoveryAct :
  (∃ s : State, (s.hw.phase ≠ .por)) ∧
  (∃ s : State, (s.hw.phase = .por)) ∧
  (∃ _st : Straps, ∃ s : State, (s.hw.phase = .reset)) ∧
  (∃ _st : Straps, ∃ s : State, (s.hw.phase ≠ .reset)) ∧
  (∃ c : Nat, ∃ rest : List Nat, ∃ s : State, (frozen s.hw = false) ∧ (s.hw.inDom = c :: rest)) ∧
  (∃ s : State, (s.hw.inDom = [] ∨ frozen s.hw = true)) ∧
  (∃ code : BitVec 8, ∃ s : State, (s.hw.quarantined.getLsbD code.toNat = true) ∧ (s.hw.inDom.contains code.toNat =
    false) ∧ (survivorRuns s.hw code.toNat = true) ∧ (s.hw.aclk % 4 = 0) ∧ (code.toNat < 0x1C ∨ 0x20 ≤ code.toNat)) ∧
  (∃ code : BitVec 8, ∃ n : Nat, ∃ s : State, (s.hw.quarantined.getLsbD code.toNat = true) ∧ (s.hw.inDom.contains
    code.toNat = false) ∧ (survivorRuns s.hw code.toNat = true) ∧ (s.hw.aclk % 4 = 0) ∧ (n ≠ 0) ∧ (code.toNat < 0x1C
    ∨ 0x20 ≤ code.toNat)) ∧
  (∃ code : BitVec 8, ∃ c : Fin 4, ∃ s : State, (s.hw.quarantined.getLsbD code.toNat = true) ∧ (s.hw.inDom.contains
    code.toNat = false) ∧ (frozen s.hw = false) ∧ (s.hw.aclk % 4 = 0) ∧ (code.toNat = 0x1C + c)) ∧
  (∃ code : BitVec 8, ∃ _n : Nat, ∃ s : State, (s.hw.aclk % 4 ≠ 0 ∨ s.hw.inDom.contains code.toNat = true ∨
    s.hw.quarantined.getLsbD code.toNat = false ∨ survivorRuns s.hw code.toNat = false)) ∧
  (∃ code : Nat, ∃ _failed : List (BitVec 16), ∃ s : State, (s.hw.recovering = some code) ∧ (s.hw.mode ≠ .frozen)) ∧
  (∃ _p : Bool, ∃ _failed : List (BitVec 16), ∃ s : State, (s.hw.recovering = none ∨ s.hw.mode = .frozen)) ∧
  (∃ _h : Hw, ∃ code : Nat, (code ≠ 0x008)) ∧
  (∃ h : Hw, ∃ r : Nat, (r = getF h aPW_STAT fPW_STAT_FLTRAIL) ∧ (r < 16)) ∧
  (∃ h : Hw, ∃ r : Nat, (r = getF h aPW_STAT fPW_STAT_FLTRAIL) ∧ (16 ≤ r)) ∧
  (∃ code : Nat, ∃ _failed : List (BitVec 16), ∃ s : State, (s.hw.recovering = some code) ∧ (s.hw.mode ≠ .recovery)
    ∧ (s.hw.mode ≠ .frozen)) ∧
  (∃ code : Nat, ∃ _failed : List (BitVec 16), ∃ s : State, (s.hw.recovering = some code) ∧ (s.hw.mode = .recovery)
    ∧ (code ≠ 0x008) ∧ (isSet s.hw aDV_CTL fDV_CTL_AUTORUN = true)) ∧
  (∃ code : Nat, ∃ _failed : List (BitVec 16), ∃ s : State, (s.hw.recovering = some code) ∧ (s.hw.mode = .recovery)
    ∧ (code ≠ 0x008) ∧ (isSet s.hw aDV_CTL fDV_CTL_AUTORUN = false)) ∧
  (∃ code : Nat, ∃ _failed : List (BitVec 16), ∃ s : State, (s.hw.recovering = some code) ∧ (s.hw.mode = .recovery)
    ∧ (code ≠ 0x008) ∧ (isSet s.hw aDV_CTL fDV_CTL_AUTORUN = true) ∧ (s.hw.recorded = [])) :=
  ⟨⟨upState, by decide +kernel⟩,
   ⟨State.reset, by decide +kernel⟩,
   ⟨⟨0, 0, false⟩, bootState .reset 0, by decide +kernel⟩,
   ⟨⟨0, 0, false⟩, upState, by decide +kernel⟩,
   ⟨0x1B, [], domState 0x1B 0, by decide +kernel⟩,
   ⟨upState, by decide +kernel⟩,
   ⟨0x1B, outDomState 0x1B 0, by decide +kernel⟩,
   ⟨0x1B, 3, outDomState 0x1B 0, by decide +kernel⟩,
   ⟨0x1E, 2, outDomState 0x1E 0, by decide +kernel⟩,
   ⟨0x1B, 0, outDomState 0x1B 2, by decide +kernel⟩,
   ⟨0x018, [], recoveryState 0, by decide +kernel⟩,
   ⟨true, [], upState, by decide +kernel⟩,
   ⟨upState.hw, 0x018, by decide +kernel⟩,
   ⟨upState.hw, 0, by decide +kernel⟩,
   ⟨setF upState.hw aPW_STAT fPW_STAT_FLTRAIL 20, 20, by decide +kernel⟩,
   ⟨0x018, [], { bootState .rom 0 with hw := { (bootState .rom 0).hw with recovering := some 0x018 } }, by decide +kernel⟩,
   ⟨0x018, [], recoveryState 1, by decide +kernel⟩,
   ⟨0x018, [], recoveryState 0, by decide +kernel⟩,
   ⟨0x018, [], recoveryState 1, by decide +kernel⟩⟩

/-- The hypotheses of each clause of AccumulatorExponentIsSetByWrites are met. -/
theorem test_meets_AccumulatorExponentIsSetByWrites :
  (∃ t : TW, (∃ m ∈ comps 6 t.d, m ≠ 0)) ∧
  (∃ t : TW, (∀ m ∈ comps 6 t.d, m = 0)) ∧
  (∃ fmt : Nat, ∃ _t : TW, (fmt ≠ 6)) ∧
  (∃ _v : BitVec 192, ∃ _p : Bool, ∃ _a : Int, ∃ _b : Int, ∃ fmt : Nat, ∃ _sh : Nat, ∃ _rnd : Rnd, ∃ _sat : Bool,
    (fmt ≠ 6)) :=
  ⟨⟨vw 0x10000, by decide +kernel⟩,
   ⟨vw 5, by decide +kernel⟩,
   ⟨7, vw 0, by decide +kernel⟩,
   ⟨5, false, 1, 2, 4, 0, .truncate, false, by decide +kernel⟩⟩

/-- The hypotheses of each clause of LossOfPllLockIsFatal are met. -/
theorem test_meets_LossOfPllLockIsFatal :
  (∃ _dram : Bool, ∃ s : State, (isSet s.hw aCLK_STAT fCLK_STAT_REFPRES = true)) ∧
  (∃ _dram : Bool, ∃ s : State, (isSet s.hw aCLK_STAT fCLK_STAT_REFPRES = true) ∧ (fwRuns s.hw = true)) ∧
  (∃ _dram : Bool, ∃ s : State, (isSet s.hw aCLK_STAT fCLK_STAT_REFPRES = true) ∧ (fwRuns s.hw = true) ∧ (s.hw.mode
    = .run ∨ s.hw.mode = .test ∨ s.hw.mode = .isolated)) :=
  ⟨⟨true, clkState 1, by decide +kernel⟩,
   ⟨false, clkState 1, by decide +kernel⟩,
   ⟨false, clkState 1, by decide +kernel⟩⟩

/-- The hypotheses of each clause of UncorrectableRequestsCompleteHwFault are met. -/
theorem test_meets_UncorrectableRequestsCompleteHwFault :
  (∃ sl : Fin 48, ∃ s : State, (sl.val < 16) ∧ (nextTaken s.hw = some sl.val)) ∧
  (∃ sl : Fin 48, ∃ s : State, (sl.val < 16) ∧ (nextTaken s.hw = some sl.val)) :=
  ⟨⟨3, postedState [0, 1], by decide +kernel⟩,
   ⟨3, postedState [0, 1], by decide +kernel⟩⟩

/-- The hypotheses of each clause of FrozenDevicesTakeReadoutSlotsOnly are met. -/
theorem test_meets_FrozenDevicesTakeReadoutSlotsOnly :
  (∃ sl : Fin 48, ∃ _u : Bool, ∃ s : State, (s.hw.mode = .frozen) ∧ (postedOpc s.hw sl ≠ 0xA10) ∧ (postedOpc s.hw sl
    ≠ 0xA11)) ∧
  (∃ sl : Fin 48, ∃ o : Nat, ∃ s : State, (s.hw.mode = .frozen) ∧ (s.hw.clocked = true) ∧ (o = mboxNat s.hw sl 0 2)
    ∧ (o = 0xA10 ∨ o = 0xA11) ∧ (s.hw.posted = [sl.val]) ∧ (sl.val < 16) ∧ (takenWaits s.hw (fun x => engineOp
    x.opc) = false) ∧ (headerStatus (takenBy s.hw sl) sl (takenSlot s.hw sl) = stOk)) ∧
  (∃ sl : Fin 48, ∃ s : State, (s.hw.mode = .frozen) ∧ ((slot s.hw sl).opc ≠ 0xA10) ∧ ((slot s.hw sl).opc ≠ 0xA11)) ∧
  (∃ sl : Fin 48, ∃ rest : List Nat, ∃ s : State, (s.hw.clocked = true) ∧ (s.hw.mode ≠ .frozen) ∧ (fwReady s.hw =
    true) ∧ (takenWaits s.hw (fun _ => true) = false) ∧ (s.hw.posted = sl.val :: rest) ∧ (sl.val < 16) ∧
    (headerStatus (takenBy s.hw sl) sl (takenSlot s.hw sl) = stOk)) :=
  ⟨⟨3, false, inFrozen (postedState [0, 1]), by decide +kernel⟩,
   ⟨3, 0xA10, inFrozen (postedState [0x10, 0xA]), by decide +kernel⟩,
   ⟨0, inFrozen (cmdState 0x802 []), by decide +kernel⟩,
   ⟨3, [], postedState [0, 1], by decide +kernel⟩⟩

/-- The hypotheses of each clause of PageCrossingAccessesAreTranslatedTwice are met. -/
theorem test_meets_PageCrossingAccessesAreTranslatedTwice :
  (∃ m : Sparse Byte, ∃ h : Hw, ∃ c : Bool, ∃ va : Nat, ∃ n : Nat, ∃ wr : Bool, ∃ _src : Nat, ∃ es : List Ecc, ∃ x :
    Xlat, ∃ y : Xlat, ∃ h1 : Hw, ∃ h2 : Hw, (translateOne m h c va wr es = (.page x, h1)) ∧ (pageRoom x va < n) ∧
    (translateOne m h1 c (va + pageRoom x va) wr (es.drop 2) = (.page y, h2))) ∧
  (∃ m : Sparse Byte, ∃ h : Hw, ∃ c : Bool, ∃ va : Nat, ∃ n : Nat, ∃ wr : Bool, ∃ _src : Nat, ∃ es : List Ecc, ∃ x :
    Xlat, ∃ k : Nat, ∃ l : Nat, ∃ h1 : Hw, ∃ h2 : Hw, (translateOne m h c va wr es = (.page x, h1)) ∧ (pageRoom x va
    < n) ∧ (translateOne m h1 c (va + pageRoom x va) wr (es.drop 2) = (.fault k l, h2))) ∧
  (∃ m : Sparse Byte, ∃ h : Hw, ∃ c : Bool, ∃ va : Nat, ∃ _n : Nat, ∃ wr : Bool, ∃ _src : Nat, ∃ es : List Ecc, ∃ k
    : Nat, ∃ l : Nat, ∃ h1 : Hw, (translateOne m h c va wr es = (.fault k l, h1))) :=
  ⟨⟨twoLeaves.mem, twoLeaves.hw, false, 0x1FFFFB, 10, false, 33, [], ⟨0, true, true, true, 0x200000⟩, ⟨1, true, true, true, 0x400000⟩, (translateOne twoLeaves.mem twoLeaves.hw false 0x1FFFFB false []).2, (translateOne twoLeaves.mem (translateOne twoLeaves.mem twoLeaves.hw false 0x1FFFFB false []).2 false 0x200000 false []).2, by decide +kernel⟩,
   ⟨leafState.mem, leafState.hw, false, 0x1FFFFB, 10, false, 33, [], ⟨0, true, true, true, 0x200000⟩, 4, 0, (translateOne leafState.mem leafState.hw false 0x1FFFFB false []).2, (translateOne leafState.mem (translateOne leafState.mem leafState.hw false 0x1FFFFB false []).2 false 0x200000 false []).2, by decide +kernel⟩,
   ⟨leafState.mem, leafState.hw, false, 0x200000, 10, false, 33, [], 4, 0, (translateOne leafState.mem leafState.hw false 0x200000 false []).2, by decide +kernel⟩⟩


/-! ## Commands that the check refuses -/

/-- A BAR2 write of 8 bytes that brings one (R31). -/
theorem test_refused_bar2Write : wellFormed (.hostBar2Access ⟨0, true, 8, [1], false, .ok⟩) = false := by decide
theorem test_refused_bar2Read : wellFormed (.hostBar2Access ⟨0, false, 8, [1], false, .ok⟩) = false := by decide
theorem test_refused_narrowRegisterWrite : wellFormed (.diagnosticRegisterWrite 0 false 0x100000000) = false := by decide
theorem test_refused_restoreRow : wellFormed (.contextRestoreComplete 0 [352]) = false := by decide
theorem test_refused_loadRow : wellFormed (.contextLoadDone 0 [352]) = false := by decide
theorem test_refused_releaseNone : wellFormed (.forwarderRelease 0 0 0) = false := by decide
theorem test_refused_releaseNine : wellFormed (.forwarderRelease 0 0 9) = false := by decide
theorem test_refused_segmentRow : wellFormed (.muckOutSegmentComplete 0 [8]) = false := by decide
theorem test_refused_threeChannels : wellFormed (.dramConfigCheck (List.replicate 3 goodChan)) = false := by decide
theorem test_refused_lineWritePastByte59 : wellFormed (.dramLineAccess 0 (some ⟨59, [1, 2]⟩) []) = false := by decide
theorem test_refused_walkOfNoBytes : wellFormed (.translationWalk 0 true 0 0 []) = false := by decide
theorem test_refused_walkPast80Bytes : wellFormed (.translationWalk 0 true 0 81 []) = false := by decide
theorem test_refused_requestOpcode : wellFormed (.nocRequestSend 12 zeroFlit) = false := by decide
theorem test_refused_nineFlitWords :
    wellFormed (.regwr { zeroFlit with words := List.replicate 9 TW.notValid } ⟨[], 0, false⟩) = false := by decide
theorem test_refused_65BlockWords :
    wellFormed (.wrblk { zeroFlit with words := List.replicate 65 TW.notValid } ⟨[], 0, false⟩ []) = false := by decide
theorem test_refused_65PacketWords : wellFormed (.idle 0 (withWords (pktOf 0 0) (List.replicate 65 TW.notValid)) true) = false := by
  decide
theorem test_refused_497Parameters : wellFormed (.req 0 (pktOf 0 0) true (some ⟨0, 0, List.replicate 497 0⟩)) = false := by
  decide +kernel
theorem test_refused_497AnswerBytes : wellFormed (.rsp 0 (pktOf 0 0) true (some ⟨0, 0, List.replicate 497 0⟩)) = false := by
  decide +kernel
theorem test_refused_checkStep : wellFormed (.firmwareBoot (some ⟨8, 0⟩) none) = false := by decide
theorem test_refused_secondCheckStep : wellFormed (.firmwareBoot none (some ⟨8, 0⟩)) = false := by decide
theorem test_refused_chainCheckStep : wellFormed (.fw 0 (pktOf 0 0) true (some ⟨8, 0⟩)) = false := by decide
theorem test_refused_nineSamples : wellFormed (.jesdRxData 0 (List.replicate 9 (0, 0)) 0) = false := by decide
theorem test_refused_parityPastFrame : wellFormed (.ethFrameReceive 0 0 ⟨[1, 2], true, [2], true⟩) = false := by decide
theorem test_refused_progressPastTotal : wellFormed (.progressUpdate 0 5 4) = false := by decide
theorem test_refused_domainCode : wellFormed (.crossingReopen 0x21 0) = false := by decide
theorem test_refused_threeRings : wellFormed (.roMeasurementEnd 0 (List.replicate 3 (0, 0))) = false := by decide
theorem test_refused_findingRouter : wellFormed (.findingPost ⟨0x040, 1, 0, 0, 40⟩) = false := by decide
theorem test_refused_fiveDrifts : wellFormed (.resumeComplete false (List.replicate 5 0)) = false := by decide
theorem test_refused_firmwareChannels : wellFormed (.firmwareStart [] []) = false := by decide
theorem test_refused_padNumber : wellFormed (.fabricClockEdge (.fclk true) [(64, 1)]) = false := by decide

/-! ## Results from the spec -/

/-- The operands of the C18x2 example after R51. -/
theorem test_c18x2_operands :
    comps 5 0x00FA3FED475301ADB0 = [1000, -300, 120000, 110000] ∧ comps 5 0x007D000C87530186A0 = [500, 200, 120000, 100000] := by
  decide +kernel

/-- The accumulator of Table 2.8 after the MAC. -/
abbrev acc28 : Accum := ⟨ofLanes 5 [589824, -327680, 3400000000, 25200000000], -512, false⟩

/-- Table 2.8. -/
theorem test_c18x2_mac :
    Accum.accumulate ⟨ofLanes 5 [29824, -377680, 0, 0], -512, false⟩ 5 [560000, 50000, 3400000000, 25200000000] 0 .truncate false
      false = (acc28, false) := by decide +kernel

/-- Table 2.9, convergent with `SAT` = 1, and the word that OUT0 carries. -/
theorem test_c18x2_read :
    acc28.read 5 0 .convergent true = (0x00013FFFE19551FFFF, { Flags.none with ovf := true, satd := true }) := by decide +kernel

/-- Table 2.9, truncate and round-half-up with `SAT` = 0. -/
theorem test_c18x2_read_wraps :
    comps 5 (acc28.read 5 0 .truncate false).1 = [4, -3, 25939, -69884] ∧
    comps 5 (acc28.read 5 0 .halfUp false).1 = [5, -2, 25940, -69883] := by decide +kernel

/-- Table 2.10. -/
theorem test_b16x2_mac :
    Accum.accumulate ⟨ofLanes 6 [100000001, -7, 2000000, 0], -18, false⟩ 6 [327680000, 65536000, -212992000, -303104000] (-17)
      .convergent false false = (⟨ofLanes 6 [377680000, 65535996, -211992000, -303104000], -17, false⟩, false) := by decide +kernel

/-- The repacked word of the B16x2 example. -/
theorem test_b16x2_pack :
    (Accum.read ⟨ofLanes 6 [377680000, 65535996, -211992000, -303104000], -17, false⟩ 6 0 .convergent false).1 =
      0x5A0C0FA0CD75B7BCFD := by decide +kernel

/-- T[0], T[512] and T[1024] of R89: round(2^17 cos 0) is limited to 18 bits. -/
theorem test_twiddles : stdTwiddle 0 = (131071, 0) ∧ stdTwiddle 512 = (92682, -92682) ∧ stdTwiddle 1024 = (0, -131072) := by
  decide +kernel

/-- The CRC-32 of the bytes "123456789" is the published check value of the IEEE 802.3 polynomial. -/
theorem test_crc32 : crc32 [0x31, 0x32, 0x33, 0x34, 0x35, 0x36, 0x37, 0x38, 0x39] = 0xCBF43926 := by decide +kernel

/-- Slot 1 of a flit is at its bits [223:144] (R228), with D and tag as laid out. -/
theorem test_flitSlots :
    let b := requestBits 1 { zeroFlit with words := [⟨1, true, false, false, false, 2⟩, ⟨3, true, true, false, false, 4⟩] }
    flitSlot b 1 = ⟨3, true, true, false, false, 4⟩ ∧ b / 2 ^ 144 % 2 ^ 72 = 3 ∧ b / 2 ^ 216 % 2 ^ 8 = 0xC4 ∧ b % 64 = 8 ∧
      b / 2 ^ 6 % 64 = 33 := by decide +kernel

/-- A packet's header has its fields where Table 10.1 puts them, and one data unit of two words makes 320 bits. -/
theorem test_chainPacket :
    let p : Pkt := ⟨0xFE, 5, 7, 9, 3, true, 2, 4, 1, 6, 35, 21, true, 0xABCDE, 2, [vw 1, vw 2], false⟩
    chainFields (chainHeader 7 p) p.words = (7, p) ∧ headerField (chainHeader 7 p) 34 6 = 1 ∧
      chainBits 7 p / 2 ^ 320 = 0 ∧ chainBits 7 p / 2 ^ 128 % 2 ^ 72 = 1 := by decide +kernel

/-- Yard 3 of Table 6.12 before its second record: task 5 runs on pens 0 to 3, task 9 is READY by event 0xD5, and both
contexts are resident. -/
def traceHw : Hw :=
  let h0 : Hw := { Hw.reset with
    aclk := 0x8080
    arr := { Arr.reset with
      pens := [(24, { Pen.reset with held := [(0, 4), (1, 7)] }), (25, { Pen.reset with held := [(0, 4), (1, 7)] })]
      scheds := [(3, { Sched.reset with tasks :=
        [(5, { Task.reset with st := .running, why := 0x8C }), (9, { Task.reset with st := .ready, why := 0xD5 })] })] } }
  let h1 := setReg h0 (aSCH_TASK0 3 5) (BitVec.ofNat 64 (1 + 4 * 2 + 0x0F * 32 + 2 * 8192 + 65536))
  let h2 := setReg h1 (aSCH_TASK0 3 9) (BitVec.ofNat 64 (1 + 7 * 2 + 0x03 * 32 + 6 * 8192))
  setReg h2 (aSCH_CTL 3) 3

/-- The PREEMPT, DISPATCH and HALT records of Table 6.12, and no WAIT for task 5. -/
theorem test_preemption_records :
    (sched (evalDispatch (evalDispatch ⟨traceHw, 3, 0x807F, 0x8080, [], 0, 0, []⟩ 6 9) 2 5).h 3).staging =
      [0x00004040C8540F09, 0x00004040C09703D5, 0x00004040D0540C09] ∧
    (evalDispatch (evalDispatch ⟨traceHw, 3, 0x807F, 0x8080, [], 0, 0, []⟩ 6 9) 2 5).late = [] := by decide +kernel

end Sys2Proof.Tests
end

section
/-!
PROOF. Every step keeps byte memory and boot flash in their canonical forms.
-/

namespace Sys2Proof.Machine

/-- Where both branches keep the canonical form, so does the choice, whatever decides it. -/
theorem ite_memWf {c : Prop} [Decidable c] {x y : Sparse Byte × Hw} (hx : memWf x.1 = true) (hy : memWf y.1 = true) :
    memWf (if c then x else y).1 = true := by
  split
  · exact hx
  · exact hy

/-- The same of states and the invariant. -/
theorem ite_inv {c : Prop} [Decidable c] {s t : State} (hs : Inv s) (ht : Inv t) : Inv (if c then s else t) := by
  split
  · exact hs
  · exact ht

/-! ## Contexts: victims, switches and loads -/

theorem startNonRes_wf {m : Sparse Byte} (h : Hw) (n c b : Nat) (p : Option Nat) (t : Nat) (hm : memWf m = true) :
    memWf (startNonRes m h n c b p t).1 = true := evict_wf h n b hm

theorem applyOrder_wf {m : Sparse Byte} (h : Hw) (n : Nat) (o : SwitchOrder) (hm : memWf m = true) :
    memWf (applyOrder m h n o).1 = true := by
  unfold applyOrder
  split
  · exact hm
  · dsimp only
    split
    · exact hm
    · split
      · exact startNonRes_wf _ _ _ _ _ _ hm
      · exact hm

theorem broadcastSwitch_wf {m : Sparse Byte} (h : Hw) (n : Nat) (hm : memWf m = true) :
    memWf (broadcastSwitch m h n).1 = true := by
  unfold broadcastSwitch
  dsimp only
  split
  · exact hm
  · split
    · exact applyOrder_wf _ _ _ hm
    · exact hm

theorem retryVictim_wf {m : Sparse Byte} (h : Hw) (n : Nat) (hm : memWf m = true) :
    memWf (retryVictim m h n).1 = true := by
  unfold retryVictim
  split
  · split
    · split
      · exact startNonRes_wf _ _ _ _ _ _ hm
      · exact hm
    · exact hm
  · exact hm

theorem completeNonRes_wf {m : Sparse Byte} (h : Hw) (n : Nat) (bad : List Nat) (hm : memWf m = true) :
    memWf (completeNonRes m h n bad).1 = true := by
  unfold completeNonRes
  split
  · exact hm
  · split
    · exact hm
    · dsimp only
      split
      · exact applyOrder_wf _ _ _ hm
      · exact hm

theorem startLoad_wf {m : Sparse Byte} (h : Hw) (n c : Nat) (p : Option Nat) (hm : memWf m = true) :
    memWf (startLoad m h n c p).1.1 = true := by
  unfold startLoad
  dsimp only
  split
  · exact hm
  · split
    · exact hm
    · split
      · exact hm
      · split
        · exact hm
        · exact evict_wf _ _ _ hm

theorem preloadPen_wf {m : Sparse Byte} (h : Hw) (n : Nat) (hm : memWf m = true) : memWf (preloadPen m h n).1 = true := by
  unfold preloadPen
  split
  · exact hm
  · split
    · exact hm
    · dsimp only
      split <;> exact startLoad_wf _ _ _ _ hm

theorem pinCtx_wf {s : Sparse Byte × Hw} (x : Nat × Nat) (hm : memWf s.1 = true) : memWf (pinCtx s x).1 = true := by
  unfold pinCtx
  split
  · exact hm
  · split
    · exact hm
    · exact evict_wf _ _ _ hm

/-! ## Registers and the configuration store -/

theorem writePen_wf {m : Sparse Byte} (h : Hw) (n o a v : Nat) (hm : memWf m = true) :
    memWf (writePen m h n o a v).1 = true := by
  unfold writePen
  dsimp only
  split
  · split
    · exact hm
    · split <;> exact hm
  · split
    · exact hm
    · split
      · exact hm
      · split
        · exact hm
        · split
          · split
            · exact startLoad_wf _ _ _ _ hm
            · exact hm
          · split
            · split <;> exact hm
            · exact hm

/-- Of the blocks' registers only those of a pen reach memory, by a context load (R118). -/
theorem writeAt_wf {m : Sparse Byte} (h : Hw) (b : Blk) (i o a v : Nat) (hm : memWf m = true) :
    memWf (writeAt m h b i o a v).1 = true := by
  cases b with
  | pen => exact writePen_wf h i o a v hm
  | hi =>
    unfold writeAt
    dsimp only
    repeat' split
    all_goals exact hm
  | _ => exact hm

theorem writeReg_wf {m : Sparse Byte} (h : Hw) (a : Nat) (v : BitVec 64) (hm : memWf m = true) :
    memWf (writeReg m h a v).1 = true := by
  unfold writeReg
  dsimp only
  split
  · exact hm
  · split
    · exact hm
    · split <;> exact writeAt_wf _ _ _ _ _ _ hm

theorem writeWide_wf {m : Sparse Byte} (h : Hw) (a : Nat) (wide : Bool) (v : BitVec 64) (hm : memWf m = true) :
    memWf (writeWide m h a wide v).1 = true := by
  unfold writeWide
  split <;> exact writeReg_wf _ _ _ hm

theorem busWrite_wf {m : Sparse Byte} (h : Hw) (a : Nat) (v : BitVec 64) (hm : memWf m = true) :
    memWf (busWrite m h a v).1 = true := by
  unfold busWrite
  split
  · exact hm
  · split
    · exact hm
    · exact writeReg_wf _ _ _ hm

theorem writeFabric_wf {m : Sparse Byte} (h : Hw) (a : Nat) (bs : List Byte) (hm : memWf m = true) :
    memWf (writeFabric m h a bs).1 = true := by
  unfold writeFabric
  exact ite_memWf hm (writeBytes_wf _ _ hm)

theorem writeStore_unowned {a : Nat} (hw : storeOwner (a - 0x1004000000) = none) (m : Sparse Byte) (h : Hw) (bs : List Byte) :
    writeStore m h a bs = if blockAddr 0 ≤ a ∧ a < blockAddr 256 then writeFabric m h a bs else (m, h) := by
  obtain ⟨f, hf⟩ : ∃ f, f = writeStore := ⟨_, rfl⟩
  rw [← hf]
  delta writeStore at hf
  subst hf
  simp only [hw]

theorem writeStore_owned {a n c : Nat} (hw : storeOwner (a - 0x1004000000) = some (n, c)) (m : Sparse Byte) (h : Hw) (bs : List Byte) :
    writeStore m h a bs =
      if inUse h n c ∨ (pen h n).locks.getLsbD c then (m, raiseBit h (aPEN_CTXSTAT n) fPEN_CTXSTAT_WRINUSE)
      else
        (writeBytes m a bs,
          if decide (0x200000 ≤ a - 0x1004000000) && (List.range 16).any fun f =>
              reservedSelect (leNat (readBytes (writeBytes m a bs) (tileAddr n c f) 10)) then
            raiseBit h (aPEN_XCSTAT n) fPEN_XCSTAT_RSVVAL else h) := by
  obtain ⟨f, hf⟩ : ∃ f, f = writeStore := ⟨_, rfl⟩
  rw [← hf]
  delta writeStore at hf
  subst hf
  simp only [hw]

theorem writeStore_wf {m : Sparse Byte} (h : Hw) (a : Nat) (bs : List Byte) (hm : memWf m = true) :
    memWf (writeStore m h a bs).1 = true := by
  generalize hw : storeOwner (a - 0x1004000000) = w
  cases w with
  | none =>
    rw [writeStore_unowned hw]
    exact ite_memWf (writeFabric_wf h a bs hm) hm
  | some x =>
    rw [writeStore_owned hw]
    exact ite_memWf hm (writeBytes_wf _ _ hm)

theorem diagWrite_wf {m : Sparse Byte} (h : Hw) (a : Nat) (wide : Bool) (v : BitVec 64) (hm : memWf m = true) :
    memWf (diagWrite m h a wide v).1 = true := by
  unfold diagWrite
  exact ite_memWf hm (ite_memWf (writeStore_wf _ _ _ hm) (ite_memWf hm (ite_memWf hm (writeWide_wf _ _ _ _ hm))))

/-! ## Requests at their endpoints -/

theorem turnWindow_wf {m : Sparse Byte} (h : Hw) (mem : Nat) (r : DmaReq) (es : List Ecc) (put : Hw → Option DmaReq → Hw)
    (hm : memWf m = true) : memWf (turnWindow m h mem r es put).1 = true := by
  unfold turnWindow
  dsimp only
  split <;> exact serveWindow_wf _ _ _ _ _ hm

theorem dmaPen_wf {m : Sparse Byte} (h : Hw) (n : Nat) (es : List Ecc) (hm : memWf m = true) :
    memWf (dmaPen m h n es).1 = true := by
  unfold dmaPen
  extract_lets p tr ot noteTurn
  split
  · exact hm
  · split
    · split
      · exact hm
      · dsimp only
        split <;> exact hm
    · split
      · split
        · exact hm
        · exact turnWindow_wf _ _ _ _ _ hm
      · exact hm

theorem dmaService_wf {m : Sparse Byte} (h : Hw) (mem : Nat) (es : List Ecc) (hm : memWf m = true) :
    memWf (dmaService m h mem es).1 = true := by
  unfold dmaService dmaLoft
  split
  · exact hm
  · split
    · split
      · exact hm
      · exact dmaPen_wf _ _ _ hm
    · split
      · exact hm
      · exact turnWindow_wf _ _ _ _ _ hm

theorem serveDram_wf {m : Sparse Byte} (h : Hw) (c op : Nat) (f : Flit) (es : List Ecc) (hm : memWf m = true) :
    memWf (serveDram m h c op f es).1 = true := by
  unfold serveDram
  dsimp only
  split
  · exact hm
  · split
    · exact hm
    · split
      · exact hm
      · exact dramMask_wf _ _ _ _ hm

theorem serveWaiting_wf {m : Sparse Byte} (h : Hw) (c : Nat) (hm : memWf m = true) :
    memWf (serveWaiting m h c).1 = true := by
  unfold serveWaiting
  split
  · exact hm
  · exact foldl_fst_memWf (fun s r hs => serveDram_wf s.2 c r.1.kind r.1.f r.2 hs) _ hm

theorem resumeServed_wf {m : Sparse Byte} (h : Hw) (hm : memWf m = true) : memWf (resumeServed m h).1 = true := by
  unfold resumeServed
  split
  · exact hm
  · exact foldl_fst_memWf (fun s c hs => serveWaiting_wf s.2 c hs) _ hm

theorem dispatchReq_wf {m : Sparse Byte} (h : Hw) (op : Nat) (f : Flit) (es : List Ecc) (hm : memWf m = true) :
    memWf (dispatchReq m h op f es).1 = true := by
  unfold dispatchReq atDram
  dsimp only
  split
  · exact hm
  · split
    · exact hm
    · split
      · exact hm
      · split
        · exact hm
        · exact serveDram_wf _ _ _ _ _ hm
      · exact hm
      · exact hm

theorem serveRegs_wf {m : Sparse Byte} (h : Hw) (op : Nat) (f : Flit) (hm : memWf m = true) :
    memWf (serveRegs m h op f).1 = true := by
  unfold serveRegs
  exact ite_memWf hm (ite_memWf hm (ite_memWf hm (ite_memWf hm (writeWide_wf _ _ _ _ hm))))

theorem dispatchRegs_wf {m : Sparse Byte} (h : Hw) (op : Nat) (f : Flit) (hm : memWf m = true) :
    memWf (dispatchRegs m h op f).1 = true := by
  unfold dispatchRegs
  split
  · split
    · exact hm
    · exact serveRegs_wf _ _ _ hm
  · split
    · exact hm
    · split
      · exact hm
      · split
        · exact serveRegs_wf _ _ _ hm
        · exact hm
      · exact serveRegs_wf _ _ _ hm

/-- A request served at its endpoint (R229 to R236). -/
theorem dispatchAny_wf {m : Sparse Byte} (h : Hw) (op : Nat) (f : Flit) (es : List Ecc) (hm : memWf m = true) :
    memWf (dispatchAny m h op f es).1 = true := by
  unfold dispatchAny
  split
  · exact dispatchRegs_wf _ _ _ hm
  · exact dispatchReq_wf _ _ _ _ hm

theorem wakeServe_wf {m : Sparse Byte} (h : Hw) (y : Nat) (hm : memWf m = true) : memWf (wakeServe m h y).1 = true := by
  unfold wakeServe
  dsimp only
  split
  · exact foldl_fst_memWf (fun s q hs => dispatchAny_wf s.2 q.kind q.f [] hs) _ hm
  · exact hm

theorem arriveAny_wf {m : Sparse Byte} (h : Hw) (op : Nat) (f : Flit) (pass : Passage) (es : List Ecc)
    (hm : memWf m = true) : memWf (arriveAny m h op f pass es).1 = true := by
  unfold arriveAny
  split
  · exact hm
  · split
    · exact hm
    · exact dispatchAny_wf _ _ _ _ hm

theorem reopen_wf {m : Sparse Byte} (h : Hw) (code discard : Nat) (hm : memWf m = true) :
    memWf (reopen m h code discard).1 = true := by
  unfold reopen serveHeld
  dsimp only
  split
  · exact hm
  · split
    · exact foldl_fst_memWf (fun s r hs => dispatchAny_wf s.2 r.1.kind r.1.f r.2 hs) _ hm
    · exact hm

theorem timingRecord_wf {m : Sparse Byte} (h : Hw) (i : Nat) (rec : RingRec) (hm : memWf m = true) :
    memWf (timingRecord m h i rec).1 = true := by
  unfold timingRecord
  split
  · exact hm
  · split
    · exact hm
    · dsimp only
      split
      · exact ringPut_wf _ _ _ hm
      · exact ringPut_wf _ _ _ (ringPut_wf _ _ _ hm)

/-! ## Functions and images -/

theorem mergeWrite_wf {m : Sparse Byte} (h : Hw) (a mask value : Nat) (hm : memWf m = true) :
    memWf (mergeWrite m h a mask value).1 = true := writeReg_wf _ _ _ hm

theorem configRecord_wf {s : Sparse Byte × Hw} (r : Nat × Nat × Nat) (hm : memWf s.1 = true) :
    memWf (configRecord s r).1 = true := by
  unfold configRecord
  dsimp only
  split
  · exact hm
  · split
    · exact mergeWrite_wf _ _ _ _ (mergeWrite_wf _ _ _ _ (mergeWrite_wf _ _ _ _ hm))
    · exact mergeWrite_wf _ _ _ _ hm

theorem configAll_wf {s : Sparse Byte × Hw} (rs : List (Nat × Nat × Nat)) (hm : memWf s.1 = true) :
    memWf (configAll s rs).1 = true := foldl_fst_memWf (fun _ r hs => configRecord_wf r hs) rs hm

theorem configFn_wf {m : Sparse Byte} (h : Hw) (id : Nat) (rs : List (Nat × Nat × Nat)) (hm : memWf m = true) :
    memWf (configFn m h id rs).1.1 = true := by
  unfold configFn
  extract_lets run clean t
  split
  · exact hm
  · split
    · exact hm
    · split
      · exact hm
      · split
        · exact hm
        · exact configAll_wf _ hm

theorem restoreEnable_wf {s : Sparse Byte × Hw} (e : Nat × Fld × Nat) (hm : memWf s.1 = true) :
    memWf (restoreEnable s e).1 = true := by
  unfold restoreEnable
  split
  · exact hm
  · exact writeReg_wf _ _ _ hm

theorem startOne_wf {m : Sparse Byte} (h : Hw) (id : Nat) (hm : memWf m = true) : memWf (startOne m h id).1.1 = true := by
  unfold startOne
  dsimp only
  split
  · exact hm
  · split
    · exact hm
    · exact foldl_fst_memWf (fun _ e hs => restoreEnable_wf e hs) _ hm

theorem startFn_wf {m : Sparse Byte} (h : Hw) (id : Nat) (hm : memWf m = true) : memWf (startFn m h id).1.1 = true := by
  unfold startFn
  dsimp only
  split
  · exact hm
  · split
    · exact hm
    · split
      · exact startOne_wf _ _ hm
      · exact startOne_wf _ _ (startOne_wf _ _ hm)

/-- One more function of a list started, or left stopped with the cause (R431). -/
theorem startAll_wf {m : Sparse Byte} (h : Hw) (ids : List Nat) (cause : Nat) (hm : memWf m = true) :
    memWf (startAll m h ids cause).1.1 = true := by
  unfold startAll
  refine List.foldlRecOn (motive := fun (s : (Sparse Byte × Hw) × Nat) => memWf s.1.1 = true) _ _ hm fun s hs id _ => ?_
  dsimp only
  split <;> exact startFn_wf _ _ hs

theorem recoveryEnd_wf {m : Sparse Byte} (h : Hw) (present : Bool) (failed : List Nat) (hm : memWf m = true) :
    memWf (recoveryEnd m h present failed).1 = true := by
  unfold recoveryEnd
  split
  · exact hm
  · split
    · exact hm
    · dsimp only
      split
      · exact hm
      · split
        · exact hm
        · exact startAll_wf _ _ _ hm

theorem applyImage_wf {m : Sparse Byte} (h : Hw) (img : List Byte) (mode : Nat) (fails : Option Nat) (hm : memWf m = true) :
    memWf (applyImage m h img mode fails).1.1 = true := by
  unfold applyImage
  extract_lets cs running h0 r stopped h1 m2 h2 s3 h3 s4 s5 h6 r6
  have h2m : memWf m2 = true := writeFrames_wf _ _ hm
  have h3m : memWf s3.1 = true := configAll_wf _ h2m
  have h4m : memWf s4.1 = true := foldl_fst_memWf (fun _ r hs => writeDest_wf r hs) _ h3m
  have h5m : memWf s5.1 = true := foldl_fst_memWf (fun _ x hs => pinCtx_wf x hs) _ h4m
  split
  · exact startAll_wf _ _ _ hm
  · split
    · exact hm
    · split
      · exact h2m
      · split
        · exact h3m
        · exact startAll_wf _ _ _ h5m

/-! ## The cycle -/

theorem spillCopy_wf {s : Sparse Byte × Hw} (bs : List Byte) (hm : memWf s.1 = true) : memWf (spillCopy s bs).1 = true :=
  dramWrite_wf _ _ _ _ hm

theorem spillNext_wf {s : Sparse Byte × Hw} (hm : memWf s.1 = true) : memWf (spillNext s).1 = true := by
  unfold spillNext
  extract_lets h i h1
  split
  · exact hm
  · exact ite_memWf hm (ite_memWf (spillCopy_wf _ hm) (spillCopy_wf _ (spillCopy_wf _ hm)))

theorem spillLog_wf {s : Sparse Byte × Hw} (hm : memWf s.1 = true) : memWf (spillLog s).1 = true := by
  unfold spillLog
  dsimp only
  split
  · exact foldl_fst_memWf (fun _ _ hs => spillNext_wf hs) _ hm
  · exact hm

theorem closeYards_wf {m : Sparse Byte} (h : Hw) (hm : memWf m = true) : memWf (closeYards m h).1 = true :=
  foldl_fst_memWf (fun s y hs => closeCycle_wf s.2 y hs) _ hm

theorem runCycle_wf {m : Sparse Byte} (nv : Nv) (h : Hw) (hm : memWf m = true) : memWf (runCycle nv m h).1 = true := by
  unfold runCycle
  extract_lets h1 h2 c s2
  have hc : memWf c.1 = true := closeYards_wf h2 hm
  exact spillLog_wf hc

/-! ## States -/

/-- A change of the hardware alone keeps the invariant. -/
theorem onHw_inv {s : State} (f : Hw → Hw) (hs : Inv s) : Inv (onHw s f) := hs

/-- So does a memory operation that keeps the canonical form. -/
theorem onMem_inv {s : State} {f : Sparse Byte → Hw → Sparse Byte × Hw} (hf : memWf (f s.mem s.hw).1 = true) (hs : Inv s) :
    Inv (onMem s f) := ⟨hf, hs.2⟩

theorem tick_inv {s : State} (hs : Inv s) : Inv (tick s) := by
  unfold tick
  split
  · exact hs
  · split
    · exact onMem_inv (runCycle_wf _ _ hs.1) hs
    · exact hs

theorem resetN_inv {s : State} (hs : Inv s) : Inv (resetN s) := by
  unfold resetN
  dsimp only
  split
  · exact hs
  · exact ⟨reset_memWf, hs.2⟩

theorem ledgerWrite_inv {s : State} (cut : Option Nat) (uid : Nat) (hs : Inv s) :
    Inv { s with hw := (ledgerWrite s.nv s.hw uid cut).2, nv := (ledgerWrite s.nv s.hw uid cut).1 } :=
  ⟨hs.1, ledgerWrite_wf _ _ _ hs.2⟩

/-! ## Mailbox commands -/

/-- What a mailbox command does where it runs keeps the invariant. -/
def BodyKeeps (body : Slot → State → State × Reply) : Prop := ∀ x s, Inv s → Inv (body x s).1

theorem answers_keeps (f : Slot → Hw → List Byte × Hw) : BodyKeeps (answers f) := fun _ _ hs => hs
theorem acts_keeps (f : Slot → Hw → Hw × Nat) : BodyKeeps (acts f) := fun _ _ hs => hs

theorem actsMem_keeps {f : Slot → Sparse Byte → Hw → (Sparse Byte × Hw) × Nat}
    (hf : ∀ x m h, memWf m = true → memWf (f x m h).1.1 = true) : BodyKeeps (actsMem f) :=
  fun x s hs => ⟨hf x s.mem s.hw hs.1, hs.2⟩

theorem runLocal_inv {s : State} {body : Slot → State → State × Reply} (sl : Nat) (valid : Slot → Hw → Bool)
    (hb : BodyKeeps body) (hs : Inv s) : Inv (runLocal s sl valid body) := by
  have hr := hb (slot s.hw sl) s hs
  unfold runLocal
  dsimp only
  split
  · exact hs
  · split
    · exact hs
    · split <;> rename_i e <;> rw [e] at hr <;> exact hr

theorem command_inv {s : State} {body : Slot → State → State × Reply} {opc sl : Nat} {valid : Slot → Hw → Bool}
    (hb : BodyKeeps body) (hs : Inv s) : Inv (command opc s sl valid body) := by
  unfold command
  exact ite_inv hs (ite_inv hs (ite_inv (runLocal_inv _ _ hb hs) hs))

/-- A body that does one of two things, each of which keeps the invariant. -/
theorem ite_body_inv {c : Prop} [Decidable c] {p q : State × Reply} (hp : Inv p.1) (hq : Inv q.1) :
    Inv (if c then p else q).1 := by
  split
  · exact hp
  · exact hq

theorem setKeySlot_flash (nv : Nv) (k : Nat) (x : KeySlot) : (setKeySlot nv k x).flash = nv.flash := by
  unfold setKeySlot
  split <;> rfl

theorem ctxLoadBody_keeps : BodyKeeps ctxLoadBody := by
  intro x s hs
  have ht : Inv { s with mem := (startLoad s.mem s.hw (pay x 0 1) (pay x 1 1) none).1.1,
                         hw := (startLoad s.mem s.hw (pay x 0 1) (pay x 1 1) none).1.2 } := ⟨startLoad_wf _ _ _ _ hs.1, hs.2⟩
  unfold ctxLoadBody
  exact ite_body_inv ht (ite_body_inv ht ht)

theorem yardModeBody_keeps : BodyKeeps yardModeBody := fun _ _ hs => ite_body_inv hs (ite_body_inv hs hs)

theorem loadStart_keeps (sl : Nat) (ok : Bool) (remote : List Byte) : BodyKeeps (loadStart sl ok remote) := by
  intro x s hs
  unfold loadStart
  dsimp only
  generalize (if s.hw.dramGib = 0 then stagingLofts s.hw (pay x 8 4) else some []) = yards
  cases yards with
  | none => exact hs
  | some ys =>
    refine ite_body_inv hs ?_
    split
    · exact hs
    · refine ⟨?_, hs.2⟩
      dsimp only
      split
      · exact writeBytes_wf _ _ hs.1
      · exact stageLofts_wf _ _ _ hs.1

theorem fwStart_keeps (sl : Nat) (ok : Bool) (remote : List Byte) : BodyKeeps (fwStart sl ok remote) := by
  intro x s hs
  unfold fwStart
  refine ite_body_inv hs ?_
  dsimp only
  split <;> exact hs

theorem loadCheck_inv {s : State} (sl : Nat) (hs : Inv s) : Inv (loadCheck s sl) := by
  unfold loadCheck
  split
  · exact hs
  · rename_i l _
    extract_lets img r step wipe b m t
    refine ite_inv ⟨?_, hs.2⟩ (ite_inv ?_ ?_)
    · have hw {o : Nat} {bs : List Byte} : memWf (restage s.mem l o bs) = true := restage_wf l o bs hs.1
      dsimp only [m]
      split
      · exact hw
      · split
        · exact hw
        · exact hs.1
    · exact ⟨restage_wf _ _ _ hs.1, hs.2⟩
    · exact ⟨restage_wf _ _ _ hs.1, hs.2⟩

theorem loadApply_inv {s : State} (sl : Nat) (fails : Option Nat) (hs : Inv s) : Inv (loadApply s sl fails) := by
  unfold loadApply
  split
  · exact hs
  · exact ⟨applyImage_wf _ _ _ _ hs.1, hs.2⟩

/-- The end of FW_STORE: the copy's pages are erased and written (R372). -/
theorem fwEnd_inv {s : State} (sl : Nat) (hs : Inv s) : Inv (fwEnd s sl) := by
  unfold fwEnd
  split
  · exact hs
  · exact ite_inv hs (ite_inv hs ⟨hs.1, programFlash_wf _ _ (eraseFlash_wf _ _ hs.2)⟩)

/-- The end of a long command, FW_STORE apart, changes the hardware alone. -/
theorem longResult_hw {s t : State} {x : Slot} {st : Nat} {resp : List Byte} (h : longResult s x = some (t, st, resp)) :
    ∃ g, t = { s with hw := g } := by
  unfold longResult at h
  have next {g : Hw} {st' : Nat} {resp' : List Byte} (e : some ({ s with hw := g }, st', resp') = some (t, st, resp)) :
      ∃ g, t = { s with hw := g } := by
    cases e
    exact ⟨_, rfl⟩
  have waits {c : Prop} [Decidable c] {g : Hw} {st' : Nat} {resp' : List Byte}
      (e : (if c then none else some ({ s with hw := g }, st', resp')) = some (t, st, resp)) : ∃ g, t = { s with hw := g } := by
    split at e
    · cases e
    · exact next e
  split at h
  case h_1 | h_2 | h_8 => exact waits h
  case h_3 | h_4 | h_5 | h_6 | h_9 => exact next h
  case h_7 =>
    dsimp only at h
    split at h
    · cases h
    · split at h
      · exact next h
      · cases h
  case h_10 => cases h

theorem longComplete_inv {s : State} (sl : Nat) (hwFault : Bool) (hs : Inv s) : Inv (longComplete s sl hwFault) := by
  unfold longComplete
  extract_lets h x here
  refine ite_inv hs ?_
  split
  · exact hs
  · refine ite_inv hs (ite_inv (fwEnd_inv sl hs) ?_)
    split
    · exact hs
    · rename_i e
      obtain ⟨g, rfl⟩ := longResult_hw e
      exact hs

/-! ## Commands -/

/-- An outcome's next state, where it is one, meets the invariant. -/
def Kept (o : Host.Outcome State Fault Refusal) : Prop := ∀ t, o = .next t → Inv t

theorem kept_next {s : State} (hs : Inv s) : Kept (.next s) := by
  rintro _ ⟨⟩
  exact hs

theorem kept_onHw {s : State} (f : Hw → Hw) (hs : Inv s) : Kept (.next (onHw s f)) := kept_next (onHw_inv f hs)

theorem kept_onMem {s : State} {f : Sparse Byte → Hw → Sparse Byte × Hw} (hf : memWf (f s.mem s.hw).1 = true) (hs : Inv s) :
    Kept (.next (onMem s f)) := kept_next (onMem_inv hf hs)

theorem kept_busWrite {s : State} (g : Hw → Hw) (a : Nat) (v : Hw → BitVec 64) (hs : Inv s) :
    Kept (.next (onMem s fun m h => busWrite m (g h) a (v h))) := kept_onMem (busWrite_wf _ a _ hs.1) hs

theorem kept_arrive {s : State} (op : Nat) (f : Flit) (pass : Passage) (es : List Ecc) (hs : Inv s) :
    Kept (.next (onMem s fun m h => arriveAny m h op f pass es)) := kept_onMem (arriveAny_wf _ op f pass es hs.1) hs

theorem ite_kept {c : Prop} [Decidable c] {o p : Host.Outcome State Fault Refusal} (ho : Kept o) (hp : Kept p) :
    Kept (if c then o else p) := by
  split
  · exact ho
  · exact hp

theorem kept_command {s : State} {body : Slot → State → State × Reply} {opc sl : Nat} {valid : Slot → Hw → Bool}
    (hb : BodyKeeps body) (hs : Inv s) : Kept (.next (command opc s sl valid body)) := kept_next (command_inv hb hs)

/-- Every command keeps the invariant. Most change the hardware alone; a write of a register over the bus, a request at its
endpoint, a bank access and a context switch reach memory, and a mailbox command runs its body. -/
theorem exec_kept (c : Instr) {s : State} (hs : Inv s) : Kept (exec c s) := by
  cases c with
  | yardDivideWrite | penCtxload | penCtxkindWrite | taskRetire | taskEntryWrite | schTrrdWrite | schDbell
  | crdLatch | lkRetrain | chEvsend | fclaim | capArm | capCancel | hiDbell | hiDoneClear | streamerEnable
  | trgCfgWrite | flush | tuInv | hiFrzFreeze | tarm | tcancel | jlArm | jesdDirectionReset | forgive | relock
  | ypVoltWrite | yardPowerDownRequest | yardWakeRequest | wingo | rogo | tbIncWrite | tbStep | tbSet | gsCtlCommit =>
    exact kept_busWrite id _ _ hs
  | fioBankLevelChange => exact kept_busWrite _ _ _ hs
  | read | write | wrmask | nocPush | pull | nocPktOpen | nocPktClose | nocPktAbort | regrd | regwr | rdblk | wrblk =>
    exact kept_arrive _ _ _ _ hs
  | devInfo | health | chainInfo | chainHealth | funcStatus | ctxStatus | taskState | portStatus | alarmRead
  | logRead | regRead | timeGet | gateGet | memStatus | repairRead | troughRead | ageReport | clockStatus =>
    exact kept_command (answers_keeps _) hs
  | stateSet | partPolicy | resume | chainPool | linkRetrain | funcStop | schDoorbell | evToHost | evHostClr
  | portCntclr | sysrefArm | captureArm | traceSet | alarmClear | timeSteer | holdoverSet | gateSet | ptpAssist
  | muckSet | yardVolt | dramPolicy =>
    exact kept_command (acts_keeps _) hs
  | funcConfig => exact kept_command (actsMem_keeps fun _ _ _ hm => configFn_wf _ _ _ hm) hs
  | funcStart => exact kept_command (actsMem_keeps fun _ _ _ hm => startFn_wf _ _ hm) hs
  | taskSet => exact kept_command (actsMem_keeps fun _ _ _ hm => configFn_wf _ _ _ hm) hs
  | shaperSet => exact kept_command (actsMem_keeps fun _ _ _ hm => configRecord_wf _ hm) hs
  | probeSet =>
    exact kept_command (actsMem_keeps fun _ _ _ hm => foldl_fst_memWf (fun s _ h => writeReg_wf s.2 _ _ h) _ hm) hs
  | regWrite =>
    exact kept_command (actsMem_keeps fun _ _ _ hm => foldl_fst_memWf (fun s _ h => mergeWrite_wf s.2 _ _ _ h) _ hm) hs
  | domainReset | keyRevoke | keyAes | freezeReadout | freezeResume | memTest =>
    exact kept_command (fun _ _ h => ite_body_inv h h) hs
  | rollCall | imageVerify | keyStatus | replan => exact kept_command (fun _ _ h => h) hs
  | keyOwner =>
    exact kept_command (fun _ _ h => ite_body_inv h ⟨h.1, by rw [setKeySlot_flash]; exact h.2⟩) hs
  | imageLoad => exact kept_command (loadStart_keeps _ _ _) hs
  | fwStore => exact kept_command (fwStart_keeps _ _ _) hs
  | ctxLoad => exact kept_command ctxLoadBody_keeps hs
  | imageCheck => exact kept_next (loadCheck_inv _ hs)
  | imageApplication => exact kept_next (loadApply_inv _ _ hs)
  | longCommandComplete => exact kept_next (longComplete_inv _ _ hs)
  | yardMode =>
    exact kept_onHw _ (command_inv yardModeBody_keeps hs)
  | broadcastSwitch n => exact kept_onMem (broadcastSwitch_wf _ _ hs.1) hs
  | novictRetry n => exact kept_onMem (retryVictim_wf _ _ hs.1) hs
  | contextRestoreComplete n bad => exact kept_onMem (completeNonRes_wf _ _ _ hs.1) hs
  | preload n => exact kept_onMem (preloadPen_wf _ _ hs.1) hs
  | diagnosticRegisterWrite addr wide v => exact kept_onMem (diagWrite_wf _ _ _ _ hs.1) hs
  | crossingReopen code discard => exact kept_onMem (reopen_wf _ _ _ hs.1) hs
  | troughBufferTransfer n k drain => exact kept_onMem (ite_memWf hs.1 (grantedTransfer_wf _ _ _ hs.1)) hs
  | dmaPortService mem eccs => exact kept_onMem (dmaService_wf _ _ _ hs.1) hs
  | streamerTransfer n st ecc => exact kept_onMem (streamerTransfer_wf _ _ _ _ hs.1) hs
  | muckOutSegmentStart y saved => exact kept_onMem (muckStart_wf _ _ _ hs.1) hs
  | dramLineAccess line wr err => exact kept_onMem (dramLineAccess_wf _ _ _ _ hs.1) hs
  | trainingPauseEnd c drift => exact kept_onMem (serveWaiting_wf _ _ hs.1) hs
  | yardWakeComplete y => exact kept_onMem (wakeServe_wf _ _ hs.1) hs
  | resumeComplete l ds => exact kept_onMem (resumeServed_wf _ hs.1) hs
  | timingRingRecord m sp rec => exact kept_onMem (timingRecord_wf _ _ _ hs.1) hs
  | recoveryActionEnd present failed => exact kept_onMem (recoveryEnd_wf _ _ _ hs.1) hs
  | fabricClockEdge clk pads => cases clk <;> exact kept_onHw _ hs
  | undefinedOpcode g opc u => exact ite_kept (kept_next hs) (kept_onHw _ hs)
  | ledgerWrite cut => exact ite_kept (kept_next hs) (kept_next (ledgerWrite_inv _ _ hs))
  | por | thermalTrip => exact kept_next ⟨reset_memWf, hs.2⟩
  | resetNAssert taken => exact kept_next (ite_inv (resetN_inv hs) hs)
  | _ => exact kept_onHw _ hs

end Sys2Proof.Machine

open Sys2Proof Sys2Proof.Machine

/-- Settles O3: with a command at the front its meaning keeps the invariant, and with an empty queue the cycle does. -/
theorem everyStepKeepsTheInvariant : Obligations.EveryStepKeepsTheInvariant := by
  intro t s hs hstep
  unfold step at hstep
  split at hstep
  · cases hstep
    exact tick_inv hs
  · refine exec_kept _ ?_ t hstep
    exact hs
end

section
/-!
PROOF. SIGNAL in a state whose FU runs a context with no number: the status that the step notes there is the divide of
the yard, so that the sequencer's next slot is not where O8 states it.
-/

namespace Sys2Proof.Machine

/-- A number that no context has: its status register would stand where `YP_STAT` of yard 0 does. -/
def strayContext : Nat := 0x13003

theorem strayContext_status : aFU_CST 0 strayContext = aYP_STAT 0 := by decide

/-- SIGNAL of line 0 on ACC0 read as B16x2, as the last step of its round. -/
def signalOnAccum : UStep := ⟨6, 0x17, 0x14, 0, 0, 0, 0, 0x80⟩

/-- FU 0 about to issue that step as the stray context, with an ACC0 whose exponent leaves the range of B16x2. -/
def strayState : State :=
  { State.reset with
    hw := { Hw.reset with
      clocked := true, locked := true, yardsUp := true, mode := .run, phase := .ready
      arr := { Arr.reset with
        pens := [(0, { Pen.reset with halted := false })]
        fus := [(0, { Fu.reset with ctx := strayContext, banks := [(0, { Bank.zero with acc0 := ⟨1, 1000, false⟩ })] })] } }
    mem := writeBytes [] (roundAddr 0 strayContext 0) (leBytes 8 (packStep 0x97 signalOnAccum)) }

theorem strayState_fires : StepFires strayState 0 0x97 signalOnAccum opSignal := by decide +kernel

/-- The step's `EOVF` is noted as a divide by 4, and the next slot falls at ACLK 4. -/
theorem strayState_nextSlot :
    (fu (fuStep strayState.mem 0x97 opSignal 0 signalOnAccum (raiseSignal 0) strayState.hw) 0).nextSlot = 4 := by
  decide +kernel

/-- O8 states that it falls in the next cycle of a yard that is not divided. -/
theorem strayState_afterIssue : (afterIssue strayState 0 signalOnAccum 1).nextSlot = 1 := by decide +kernel

end Sys2Proof.Machine

open Sys2Proof Sys2Proof.Machine

/-- Refutes O8, whose clause on a SIGNAL that fires fails in `strayState`: a state may give an FU any number as its
context, and the flags that a step notes for number 0x13003 change the divide of its yard before the slot is counted. -/
theorem not_controlAndTransformStepsAct : ¬ Obligations.ControlAndTransformStepsAct := by
  rintro ⟨-, -, -, signalFires, -⟩
  obtain ⟨t, ht, -, -, -, hfu⟩ := signalFires 0 signalOnAccum strayState strayState_fires
  cases ht
  have next : 4 = 1 := (strayState_nextSlot.symm.trans (congrArg Fu.nextSlot hfu)).trans strayState_afterIssue
  exact absurd next (by decide)
end

section
/-!
PROOF. What reset leaves.
-/

namespace Sys2Proof.Machine

/-- A trough after reset holds no word, at any depth. -/
theorem occupied_reset (n : Nat) : occupied n Trough.reset = 0 := by simp [occupied, ptrSub]

end Sys2Proof.Machine

open Sys2Proof Sys2Proof.Machine

/-- Settles O2: reset lists no register, byte, trough, pen or slot, so that each reads as its reset value. -/
theorem resetLeavesTheStatedValues : Obligations.ResetLeavesTheStatedValues :=
  ⟨⟨reset_memWf, reset_flashWf, rfl, rfl, rfl, rfl, rfl⟩, fun _ => ⟨rfl, rfl⟩, fun key => ⟨occupied_reset key, rfl, rfl⟩⟩
end

section
/-!
PROOF. Accesses of the host: diagnostic writes, cleared counts, and reads and writes through BAR2.
-/

namespace Sys2Proof.Machine

/-! ## Where registers stand -/

theorem locate_below {a : Nat} (h : a < regionBase) : locate a = none := by
  have hb : ¬ bar0Base ≤ a := Nat.not_le_of_lt (Nat.lt_trans h (by decide))
  unfold locate
  rw [if_neg hb, if_pos h]

/-- No register stands below the register region (Table 1.9). -/
theorem regionBase_le_of_regExists {a : Nat} (h : regExists a = true) : regionBase ≤ a := by
  refine Nat.le_of_not_lt fun hlt => ?_
  have hnone : fieldsAt a = none := by
    simp only [fieldsAt, locate_below hlt]
  have hshadow : inShadow a = false := by
    unfold inShadow
    rw [decide_eq_false (Nat.not_le_of_lt (Nat.lt_trans hlt (by decide))), Bool.false_and]
  simp [regExists, hnone, hshadow] at h

/-- The configuration store lies below the register region (Table 1.6). -/
theorem not_inStore {a : Nat} (h : regionBase ≤ a) : inStore a = false := by
  simp only [inStore, regionBase, blockAddr] at h ⊢
  simp
  omega

/-! ## Diagnostic writes -/

variable {m : Sparse Byte} {h : Hw} {a : Nat} {v : BitVec 64}

theorem diagWrite_unclocked (hc : h.clocked = false) (wide : Bool) : diagWrite m h a wide v = (m, h) := by
  simp [diagWrite, hc]

theorem diagWrite_store (hc : h.clocked = true) (hf : h.mode ≠ .frozen) (hs : inStore a = true) {wide : Bool}
    (ha : a % (if wide then 8 else 4) = 0) : diagWrite m h a wide v = writeStore m h a (writtenBytes wide v) := by
  unfold diagWrite
  rw [if_neg (by simp [hc]), if_pos ⟨hf, hs, ha⟩]
  rfl

theorem diagWrite_dropped (hc : h.clocked = true) {wide : Bool}
    (hs : ¬ (h.mode ≠ .frozen ∧ inStore a = true ∧ a % (if wide then 8 else 4) = 0))
    (hd : (h.mode = .frozen ∧ a < bar0Base) ∨ ¬ regExists (a / 8 * 8) = true ∨ a % (if wide then 8 else 4) ≠ 0) :
    diagWrite m h a wide v = (m, hostDrop h) := by
  unfold diagWrite
  rw [if_neg (by simp [hc]), if_neg hs, if_pos hd]

/-- An aligned write of a register that the bus reaches is no write of the store and is not dropped. -/
theorem diagWrite_register (hc : h.clocked = true) (hf : h.mode ≠ .frozen ∨ bar0Base ≤ a) (hr : regExists (a / 8 * 8) = true)
    {wide : Bool} (ha : a % (if wide then 8 else 4) = 0) :
    diagWrite m h a wide v =
      if a / 8 * 8 = aHI_ABORT then
        (m, if a % 8 = 0 then abortSlots h (if wide then v.toNat else v.toNat % 2 ^ 32) else h)
      else writeWide m h a wide v := by
  have hs : inStore a = false :=
    not_inStore (Nat.le_trans (regionBase_le_of_regExists hr) (Nat.div_mul_le_self a 8))
  unfold diagWrite
  rw [if_neg (by simp [hc]), if_neg (by simp [hs]), if_neg]
  rintro (⟨hm, hlt⟩ | hn | hn)
  · exact hf.elim (fun hf => hf hm) fun hle => Nat.not_lt_of_le hle hlt
  · exact hn hr
  · exact hn ha

theorem regExists_abort : regExists aHI_ABORT = true := by decide

/-! ## The configuration store -/

theorem storeOwner_block (ha : blockAddr 0 ≤ a) : storeOwner (a - 0x1004000000) = none := by
  unfold blockAddr at ha
  unfold storeOwner
  rw [if_neg (by omega), if_neg (by omega)]

theorem writeStore_block (ha : blockAddr 0 ≤ a) (hb : a < blockAddr 256) (bs : List Byte) :
    writeStore m h a bs = writeFabric m h a bs := by
  rw [writeStore_unowned (storeOwner_block ha), if_pos ⟨ha, hb⟩]

/-- The rounds of a context hold no select, so that a write of them meets no reserved one. -/
theorem writeStore_round {n c : Nat} (hw : storeOwner (a - 0x1004000000) = some (n, c)) (hu : inUse h n c = false)
    (hl : (pen h n).locks.getLsbD c = false) (ha : a < 0x1004200000) (bs : List Byte) :
    writeStore m h a bs = (writeBytes m a bs, h) := by
  have low : decide (0x200000 ≤ a - 0x1004000000) = false := decide_eq_false (by omega)
  rw [writeStore_owned hw, if_neg (by simp [hu, hl]), low]
  rfl

/-! ## Cleared counts -/

theorem locate_window {y q : Nat} (hy : y < 16) (hq : q < 0x80000) (ho : q % 0x10000 < 0x8000) :
    locate (regionBase + (0x100000 * y + q)) = some (.pen, 8 * y + q / 0x10000, q % 0x10000) := by
  obtain ⟨r, hr⟩ : ∃ r, r = 0x100000 * y + q := ⟨_, rfl⟩
  have low : ¬ bar0Base ≤ regionBase + r := by
    unfold bar0Base regionBase
    omega
  have yard : r / 0x100000 = y := by omega
  have place : r % 0x100000 = q := by omega
  rw [← hr]
  unfold locate
  rw [if_neg low, if_neg (by omega), if_pos (by omega), Nat.add_sub_cancel_left]
  simp only [yard, place]
  rw [if_pos hq, if_neg (by simp; omega)]

/-- An offset in the window of a pen is a register of the pen, but for the windows of its FUs (Table 1.7). -/
theorem locate_pen {n o : Nat} (hn : n < 128) (ho : o < 0x8000) : locate (penBase n + o) = some (.pen, n, o) := by
  have base : penBase n + o = regionBase + (0x100000 * (n / 8) + (n % 8 * 0x10000 + o)) := by
    unfold penBase yardBase
    omega
  have number : 8 * (n / 8) + (n % 8 * 0x10000 + o) / 0x10000 = n := by omega
  have offset : (n % 8 * 0x10000 + o) % 0x10000 = o := by omega
  rw [base, locate_window (by omega) (by omega) (by omega), number, offset]

theorem clearedBy_trgEcc {i o : Nat} (lo : 0x6000 ≤ o) (hi : o < 0x6400) (ho : o % 0x80 = 0x28) :
    clearedBy .pen i o = [(aTRG_ECC i ((o - 0x6000) / 0x80), [fTRG_ECC_CECNT, fTRG_ECC_UECNT])] := by
  simp only [clearedBy, lo, hi, ho, and_self, if_true]

theorem clearCounts_located {b : Blk} {i o : Nat} (hl : locate a = some (b, i, o)) (h : Hw) :
    clearCounts h a = applyAll (fun h e => clearFields h e.1 e.2) h (clearedBy b i o) := by
  unfold clearCounts
  rw [hl]

theorem clearCounts_trgEcc {n k : Nat} (hn : n < 128) (hk : k < 8) (h : Hw) :
    clearCounts h (aTRG_ECC n k) = setF (setF h (aTRG_ECC n k) fTRG_ECC_CECNT 0) (aTRG_ECC n k) fTRG_ECC_UECNT 0 := by
  obtain ⟨o, ho⟩ : ∃ o, o = 0x6028 + 128 * k := ⟨_, rfl⟩
  have located : locate (aTRG_ECC n k) = some (.pen, n, o) := by
    rw [← locate_pen hn (by omega), ho]
    unfold aTRG_ECC
    rw [Nat.add_assoc]
  have index : (o - 0x6000) / 0x80 = k := by omega
  rw [clearCounts_located located, clearedBy_trgEcc (by omega) (by omega) (by omega), index]
  simp only [applyAll, clearFields, List.foldl_cons, List.foldl_nil]

theorem countClear_unclocked (hc : h.clocked = false) : countClear h a = h := by
  simp [countClear, hc]

theorem countClear_frozen (hc : h.clocked = true) (hf : h.mode = .frozen) (ha : a < bar0Base) :
    countClear h a = hostDrop h := by
  rw [countClear, if_neg (not_not_intro hc), if_pos ⟨hf, ha⟩]

theorem countClear_acts (hc : h.clocked = true) (hf : h.mode ≠ .frozen ∨ bar0Base ≤ a) :
    countClear h a = clearCounts h a := by
  rw [countClear, if_neg (not_not_intro hc), if_neg]
  exact fun hn => hf.elim (fun hf => hf hn.1) fun hle => Nat.not_lt_of_le hle hn.2

/-! ## The requests of an access through BAR2 -/

theorem cutBlocks_ne_nil {size n : Nat} (a : Nat) (hs : 0 < size) (hn : n ≠ 0) : cutBlocks size a n ≠ [] := by
  have step : a / size + 1 ≤ (a + n + size - 1) / size := by
    rw [← Nat.add_div_right a hs]
    exact Nat.div_le_div_right (by omega)
  simp only [cutBlocks, ne_eq, List.map_eq_nil_iff, List.range_eq_nil]
  omega

theorem lineParts_ne_nil {n : Nat} (a : Nat) (hn : n ≠ 0) : lineParts a n ≠ [] := by
  simp [lineParts, linesOf, hn]

/-- An access of a region that answers is carried out by one request or more. -/
theorem hostParts_ne_nil {rg : Region} {x : Bar2} (hn : barSize x ≠ 0) (hh : rg ≠ .hole) (hb : rg ≠ .badRegister)
    (id a : Nat) : hostParts rg id a x ≠ [] := by
  unfold barSize at hn
  unfold hostParts
  cases rg with
  | dram => simpa using lineParts_ne_nil a hn
  | slots =>
    dsimp only
    split <;> rw [ne_eq, List.map_eq_nil_iff]
    · exact cutBlocks_ne_nil a (by decide) (by simp_all)
    · exact cutBlocks_ne_nil a (by decide) (by simp_all)
  | store => simpa using cutBlocks_ne_nil a (by decide : 0 < 8) hn
  | register => dsimp only; split <;> simp
  | badRegister => exact absurd rfl hb
  | hole => exact absurd rfl hh

theorem hostParts_nonempty {rg : Region} {x : Bar2} (hn : barSize x ≠ 0) (hh : rg ≠ .hole) (hb : rg ≠ .badRegister)
    (id a : Nat) : ¬ (hostParts rg id a x).isEmpty = true := by
  simpa using hostParts_ne_nil hn hh hb id a

theorem hostParts_unserved {rg : Region} (hr : rg = .hole ∨ rg = .badRegister) (id a : Nat) (x : Bar2) :
    hostParts rg id a x = [] := by
  obtain rfl | rfl := hr <;> rfl

/-! ## An access through BAR2 is steered -/

variable {s : State} {x : Bar2}

theorem givesHw_bar2 {h' : Hw} (e : hostBar2 s.mem s.hw x = h') : GivesHw (.hostBar2Access x) s h' := by
  subst e
  rfl

theorem givesHw_diag {addr : BitVec 41} {wide : Bool} {h' : Hw} (e : diagWrite s.mem s.hw addr.toNat wide v = (s.mem, h')) :
    GivesHw (.diagnosticRegisterWrite addr wide v) s h' := by
  show Host.Outcome.next (onMem s _) = _
  simp only [onMem, e]

theorem givesMem_diag {addr : BitVec 41} {wide : Bool} {r : Sparse Byte × Hw} (e : diagWrite s.mem s.hw addr.toNat wide v = r) :
    GivesMem (.diagnosticRegisterWrite addr wide v) s r := by
  subst e
  rfl

theorem givesHw_clear {addr : BitVec 41} {h' : Hw} (e : countClear s.hw addr.toNat = h') :
    GivesHw (.countClear addr) s h' := by
  subst e
  rfl

theorem hostParts_registerWrite (hw : x.wr = true) (hl : x.data.length = 8) (id a : Nat) :
    hostParts .register id a x =
      [hostPart id 9 0 a 0 0 0 false [TW.data (BitVec.ofNat 72 (leNat x.data))]] := by
  simp [hostParts, hw, hl]

theorem hostParts_registerRead (hw : x.wr = false) (id a : Nat) :
    hostParts .register id a x = [hostPart id 8 0 (8 * (a / 8)) 0 (a % 8) x.len false []] := by
  simp [hostParts, hw]

theorem hostAnswered_read {w : Whole} (hs : w.status = 0) (h : Hw) (n : Nat) :
    hostAnswered h w false n = answerRead h (readBytes w.bytes 0 n) := by
  simp [hostAnswered, hs]

theorem hostAnswered_writeRefused {w : Whole} (hs : w.status ≠ 0) (h : Hw) (n : Nat) :
    hostAnswered h w true n = hostDrop h := by
  simp [hostAnswered, hs]

/-! ### Accesses that no aperture takes -/

theorem hostBar2_unclocked (hc : s.hw.clocked = false) :
    hostBar2 s.mem s.hw x = if x.wr then s.hw else unserved s.hw x 1 := by
  rw [hostBar2, if_pos (by simp [hc])]

theorem hostBar2_poisoned (hc : s.hw.clocked = true) (hw : x.wr = true) (hp : x.tlpEp = true) :
    hostBar2 s.mem s.hw x = hostDrop s.hw := by
  rw [hostBar2, if_neg (not_not_intro hc), if_pos ⟨hw, hp⟩]

theorem hostBar2_writesNothing (hc : s.hw.clocked = true) (hw : x.wr = true) (hd : x.data = []) :
    hostBar2 s.mem s.hw x = if x.tlpEp then hostDrop s.hw else s.hw := by
  simp [hostBar2, barSize, hc, hw, hd]

theorem hostBar2_readsNothing (hc : s.hw.clocked = true) (hw : x.wr = false) (hl : x.len = 0) :
    hostBar2 s.mem s.hw x = answerRead s.hw [] := by
  simp [hostBar2, barSize, hc, hw, hl]

theorem hostBar2_off (hc : s.hw.clocked = true) (hp : ¬ (x.wr = true ∧ x.tlpEp = true)) (hn : barSize x ≠ 0)
    (he : isSet s.hw (aAP (x.off.toNat / 2 ^ 30)) fAP_EN = false) : hostBar2 s.mem s.hw x = unserved s.hw x 1 := by
  rw [hostBar2, if_neg (not_not_intro hc), if_neg hp, if_neg hn, if_pos (ne_true_of_eq_false he)]

theorem hostBar2_view (ht : BarTaken s x) (hv : barView s x = true) :
    hostBar2 s.mem s.hw x =
      if barDev s x ≠ 0 ∨ s.hw.mode ≠ .frozen then unserved s.hw x 1 else hostFrozen s.mem s.hw (barAddr s x) x := by
  obtain ⟨hc, hp, hn, he⟩ := ht
  unfold hostBar2
  rw [if_neg (by simp [hc]), if_neg hp, if_neg hn, if_neg (not_not_intro he), if_pos hv]

/-- An access that shows the normal view goes to this device or another, as its aperture names. -/
theorem hostBar2_plain (ht : BarTaken s x) (hv : barView s x = false) :
    hostBar2 s.mem s.hw x =
      if barDev s x = selfAddr s.hw then hostLocal s.hw (barAddr s x) x
      else if ¬ addressed s.hw = true ∨ chainCount s.hw ≤ barDev s x then unserved s.hw x 1
      else if frozen s.hw = true then unserved s.hw x 2
      else
        match portTo s.hw (barDev s x) with
        | none => unserved s.hw x 2
        | some port => hostRemote s.hw (barDev s x) port (barAddr s x) x := by
  obtain ⟨hc, hp, hn, he⟩ := ht
  unfold hostBar2
  rw [if_neg (by simp [hc]), if_neg hp, if_neg hn, if_neg (not_not_intro he), if_neg (ne_true_of_eq_false hv)]
  rfl

/-! ### The freeze view -/

theorem hostBar2_unseen (ht : BarTaken s x) (hv : barView s x = true) (hd : barDev s x ≠ 0 ∨ s.hw.mode ≠ .frozen) :
    hostBar2 s.mem s.hw x = unserved s.hw x 1 := by
  rw [hostBar2_view ht hv, if_pos hd]

theorem hostBar2_seen (ht : BarTaken s x) (hv : barView s x = true) (hd : barDev s x = 0) (hf : s.hw.mode = .frozen) :
    hostBar2 s.mem s.hw x = hostFrozen s.mem s.hw (barAddr s x) x := by
  rw [hostBar2_view ht hv, if_neg]
  exact fun ho => ho.elim (fun hn => hn hd) fun hn => hn hf

theorem hostFrozen_write (hw : x.wr = true) : hostFrozen m h a x = hostDrop h := by
  rw [hostFrozen, if_pos hw]

theorem hostFrozen_answered {bs : List Byte} (hw : x.wr = false) (hr : frozenRead m h a x.len x.ecc = (some bs, h)) :
    hostFrozen m h a x = answerRead h bs := by
  rw [hostFrozen, if_neg (ne_true_of_eq_false hw), hr]

theorem hostFrozen_unserved (hw : x.wr = false) (hr : frozenRead m h a x.len x.ecc = (none, h)) :
    hostFrozen m h a x = unserved h x 1 := by
  rw [hostFrozen, if_neg (ne_true_of_eq_false hw), hr]

section
variable {n : Nat} {e : Ecc}

theorem frozenRead_register (hr : regionOf h a n = .register) :
    frozenRead m h a n e = (some (((leBytes 8 (viewReg h (a / 8 * 8)).toNat).drop (a % 8)).take n), h) := by
  rw [frozenRead, hr]

theorem frozenRead_slots (hr : regionOf h a n = .slots) : frozenRead m h a n e = (some (readSlots m h a n e).1, h) := by
  rw [frozenRead, hr]

theorem frozenRead_store (hr : regionOf h a n = .store) : frozenRead m h a n e = (some (readBytes m a n), h) := by
  rw [frozenRead, hr]

theorem frozenRead_hole (hr : regionOf h a n = .hole ∨ regionOf h a n = .badRegister) :
    frozenRead m h a n e = (none, h) := by
  obtain hr | hr := hr <;> rw [frozenRead, hr]

end

/-! ### This device -/

theorem hostBar2_local (ht : BarTaken s x) (hv : barView s x = false) (hd : barDev s x = selfAddr s.hw) :
    hostBar2 s.mem s.hw x = hostLocal s.hw (barAddr s x) x := by
  rw [hostBar2_plain ht hv, if_pos hd]

theorem hostLocal_unserved (hr : regionOf h a (barSize x) = .hole ∨ regionOf h a (barSize x) = .badRegister) :
    hostLocal h a x = unserved h x 1 := by
  simp only [hostLocal, hostParts_unserved hr, List.isEmpty_nil, if_true]

theorem hostLocal_served (hn : barSize x ≠ 0) (hh : regionOf h a (barSize x) ≠ .hole)
    (hb : regionOf h a (barSize x) ≠ .badRegister) :
    hostLocal h a x =
      if regionOf h a (barSize x) = .store ∧ x.wr = true then h
      else if frozen h = true ∨ h.mode = .isolated ∨ barClosed h a x = true then unserved h x 2
      else beginHost h x fun id => hostParts (regionOf h a (barSize x)) id a x := by
  unfold hostLocal barClosed
  rw [if_neg (hostParts_nonempty hn hh hb 0 a)]
  simp only [Bool.or_eq_true]

theorem hostLocal_storeWrite (hn : barSize x ≠ 0) (hw : x.wr = true) (hr : regionOf h a (barSize x) = .store) :
    hostLocal h a x = h := by
  rw [hostLocal_served hn (by simp [hr]) (by simp [hr]), if_pos ⟨hr, hw⟩]

section
variable (hn : barSize x ≠ 0) (hh : regionOf h a (barSize x) ≠ .hole) (hb : regionOf h a (barSize x) ≠ .badRegister)
  (hs : x.wr = false ∨ regionOf h a (barSize x) ≠ .store)
include hn hh hb hs

theorem hostLocal_noStoreWrite :
    hostLocal h a x =
      if frozen h = true ∨ h.mode = .isolated ∨ barClosed h a x = true then unserved h x 2
      else beginHost h x fun id => hostParts (regionOf h a (barSize x)) id a x := by
  rw [hostLocal_served hn hh hb, if_neg]
  rintro ⟨hr, hw⟩
  exact hs.elim (fun hf => absurd hw (ne_true_of_eq_false hf)) fun hne => hne hr

theorem hostLocal_closed (hc : h.mode = .isolated ∨ h.mode = .frozen ∨ barClosed h a x = true) :
    hostLocal h a x = unserved h x 2 := by
  rw [hostLocal_noStoreWrite hn hh hb hs, if_pos]
  obtain hi | hf | hq := hc
  · exact .inr (.inl hi)
  · exact .inl (by simp [frozen, hf])
  · exact .inr (.inr hq)

theorem hostLocal_begun (hc : h.clocked = true) (hi : h.mode ≠ .isolated) (hf : h.mode ≠ .frozen)
    (hq : barClosed h a x = false) :
    hostLocal h a x = beginHost h x fun id => hostParts (regionOf h a (barSize x)) id a x := by
  rw [hostLocal_noStoreWrite hn hh hb hs, if_neg]
  simp [frozen, hc, hi, hf, hq]

end

/-! ### Another device -/

theorem hostBar2_absent (ht : BarTaken s x) (hv : barView s x = false) (hd : barDev s x ≠ selfAddr s.hw)
    (ho : addressed s.hw = false ∨ chainCount s.hw ≤ barDev s x) : hostBar2 s.mem s.hw x = unserved s.hw x 1 := by
  rw [hostBar2_plain ht hv, if_neg hd, if_pos (ho.imp_left ne_true_of_eq_false)]

section
variable (ht : BarTaken s x) (hv : barView s x = false) (hd : barDev s x ≠ selfAddr s.hw)
  (ha : addressed s.hw = true) (hl : barDev s x < chainCount s.hw)
include ht hv hd ha hl

theorem hostBar2_far :
    hostBar2 s.mem s.hw x =
      if frozen s.hw = true then unserved s.hw x 2
      else
        match portTo s.hw (barDev s x) with
        | none => unserved s.hw x 2
        | some port => hostRemote s.hw (barDev s x) port (barAddr s x) x := by
  rw [hostBar2_plain ht hv, if_neg hd, if_neg]
  exact fun ho => ho.elim (fun hn => hn ha) fun hle => Nat.not_le_of_lt hl hle

theorem hostBar2_noRoute (ho : frozen s.hw = true ∨ portTo s.hw (barDev s x) = none) :
    hostBar2 s.mem s.hw x = unserved s.hw x 2 := by
  rw [hostBar2_far ht hv hd ha hl]
  obtain hf | hp := ho
  · rw [if_pos hf]
  · rw [hp, ite_self]

theorem hostBar2_route {p : Nat} (hf : frozen s.hw = false) (hp : portTo s.hw (barDev s x) = some p) :
    hostBar2 s.mem s.hw x = hostRemote s.hw (barDev s x) p (barAddr s x) x := by
  rw [hostBar2_far ht hv hd ha hl, if_neg (ne_true_of_eq_false hf), hp]

end

theorem hostRemote_unserved (d p : Nat) (hr : farRegion h a (barSize x) = .hole ∨ farRegion h a (barSize x) = .badRegister) :
    hostRemote h d p a x = unserved h x 1 := by
  simp only [hostRemote, hostParts_unserved hr, List.isEmpty_nil, if_true]

theorem hostRemote_begun (d p : Nat) (hn : barSize x ≠ 0)
    (hr : farRegion h a (barSize x) = .dram ∨ farRegion h a (barSize x) = .slots ∨ farRegion h a (barSize x) = .register) :
    hostRemote h d p a x = beginHost h x fun id => (hostParts (farRegion h a (barSize x)) id a x).map (towards d p) := by
  obtain ⟨hh, hb, hs⟩ : farRegion h a (barSize x) ≠ .hole ∧ farRegion h a (barSize x) ≠ .badRegister ∧
      farRegion h a (barSize x) ≠ .store := by
    obtain hr | hr | hr := hr <;> simp [hr]
  unfold hostRemote
  rw [if_neg (hostParts_nonempty hn hh hb 0 a), if_neg fun hw => hs hw.1]

/-! ## What each access gives -/

theorem hiAbort_in_bar0 : bar0Base ≤ aHI_ABORT := by decide

theorem diagWrite_wide (hc : h.clocked = true) (hf : h.mode ≠ .frozen ∨ bar0Base ≤ a) (ha : a % 8 = 0)
    (hr : regExists a = true) (hn : a ≠ aHI_ABORT) : diagWrite m h a true v = writeReg m h a v := by
  have base : a / 8 * 8 = a := Nat.div_mul_cancel (Nat.dvd_of_mod_eq_zero ha)
  rw [diagWrite_register (wide := true) hc hf (base.symm ▸ hr) ha, if_neg (base.symm ▸ hn)]
  rfl

theorem diagWrite_narrow (hc : h.clocked = true) (hf : h.mode ≠ .frozen ∨ bar0Base ≤ a) (ha : a % 4 = 0)
    (hr : regExists (a / 8 * 8) = true) (hn : a / 8 * 8 ≠ aHI_ABORT) :
    diagWrite m h a false v = writeReg m h (a / 8 * 8) (widen h a v.toNat).2 := by
  rw [diagWrite_register (wide := false) hc hf hr ha, if_neg hn]
  rfl

/-- A write of `HI_ABORT`, or of its upper half, which names no slot. -/
theorem diagWrite_abort (hc : h.clocked = true) {wide : Bool} (ha : a % (if wide then 8 else 4) = 0)
    (hb : a / 8 * 8 = aHI_ABORT) :
    diagWrite m h a wide v =
      (m, if a % 8 = 0 then abortSlots h (if wide then v.toNat else v.toNat % 2 ^ 32) else h) := by
  have bar0 : bar0Base ≤ a := Nat.le_trans (hb ▸ hiAbort_in_bar0) (Nat.div_mul_le_self a 8)
  rw [diagWrite_register hc (.inr bar0) (hb ▸ regExists_abort) ha, if_pos hb]

theorem diagWrite_refused (hc : h.clocked = true) {wide : Bool}
    (hd : a % (if wide then 8 else 4) ≠ 0 ∨ regExists (a / 8 * 8) = false ∧ inStore a = false) :
    diagWrite m h a wide v = (m, hostDrop h) := by
  apply diagWrite_dropped hc
  · rintro ⟨-, hs, ha⟩
    exact hd.elim (fun hn => hn ha) fun hn => absurd hs (ne_true_of_eq_false hn.2)
  · exact hd.elim (fun hn => .inr (.inr hn)) fun hn => .inr (.inl (ne_true_of_eq_false hn.1))

theorem diagWrite_frozen (hc : h.clocked = true) (hf : h.mode = .frozen) (ha : a < bar0Base) (wide : Bool) :
    diagWrite m h a wide v = (m, hostDrop h) :=
  diagWrite_dropped hc (fun hs => hs.1 hf) (.inl ⟨hf, ha⟩)

theorem writeFabric_enabled (he : isSet h aTF_CTL fTF_CTL_EN = true) (bs : List Byte) :
    writeFabric m h a bs = (m, raiseBit h aTF_CTL fTF_CTL_CFGBUSY) := by
  rw [writeFabric, if_pos he]

theorem writeFabric_stopped (he : isSet h aTF_CTL fTF_CTL_EN = false) (bs : List Byte) :
    writeFabric m h a bs =
      (writeBytes m a bs,
        if noReserved (writeBytes m a bs) ((a - blockAddr 0) / 0x1000) then h else raiseBit h aTF_CTL fTF_CTL_RSVVAL) := by
  rw [writeFabric, if_neg (ne_true_of_eq_false he)]

end Sys2Proof.Machine

open Sys2Proof Sys2Proof.Machine

/-- Settles O50: each clause from the lemma about the branch of `diagWrite`, `writeStore`, `countClear` or `hostBar2`
that it speaks of. -/
theorem hostAccessesAreSteeredAndServed : Obligations.HostAccessesAreSteeredAndServed := by
  unfold Obligations.HostAccessesAreSteeredAndServed
  refine ⟨?_, ?_, ?_, ?_, ?_, ?_, ?_, ?_, ?_, ?_, ?_, ?_, ?_, ?_, ?_, ?_, ?_, ?_, ?_, ?_, ?_, ?_, ?_, ?_, ?_, ?_, ?_, ?_,
    ?_, ?_, ?_, ?_, ?_, ?_, ?_, ?_, ?_, ?_, ?_, ?_, ?_⟩
  · exact fun addr v s hc hf ha hr hn => givesMem_diag (diagWrite_wide hc hf ha hr hn)
  · exact fun addr v s hc hf ha hr hn => givesMem_diag (diagWrite_narrow hc hf ha hr hn)
  · intro addr v s hc ha
    apply givesHw_diag
    rw [ha, diagWrite_abort hc (by decide) (by decide)]
    rfl
  · intro addr v s hc ha
    apply givesHw_diag
    rw [ha, diagWrite_abort hc (by decide) (by decide)]
    rfl
  · intro addr v s hc ha
    apply givesHw_diag
    rw [ha, diagWrite_abort hc (by decide) (by decide)]
    rfl
  · exact fun addr wide v s hu hs ha => givesMem_diag (diagWrite_store hu.1 hu.2 hs ha)
  · exact fun n c m h a bs hw hu => (writeStore_owned hw m h bs).trans (if_pos hu)
  · exact fun n c m h a bs hw hu hl ha => writeStore_round hw hu hl ha bs
  · exact fun m h a bs ha hb he => (writeStore_block ha hb bs).trans (writeFabric_enabled he bs)
  · exact fun m h a bs ha hb he => (writeStore_block ha hb bs).trans (writeFabric_stopped he bs)
  · exact fun addr wide v s hu hd => givesHw_diag (diagWrite_refused hu.1 hd)
  · exact fun addr wide v s hc hf ha => givesHw_diag (diagWrite_frozen hc hf ha wide)
  · exact fun addr wide v s hc => givesHw_diag (diagWrite_unclocked hc wide)
  · exact fun addr s hc hf => givesHw_clear (countClear_acts hc hf)
  · exact fun addr s hc hf ha => givesHw_clear (countClear_frozen hc hf ha)
  · exact fun addr s hc => givesHw_clear (countClear_unclocked hc)
  · exact fun n k h => clearCounts_trgEcc n.isLt k.isLt h
  · exact fun x s hc hw hp => givesHw_bar2 (hostBar2_poisoned hc hw hp)
  · exact fun x s hc hw hd => givesHw_bar2 (hostBar2_writesNothing hc hw hd)
  · exact fun x s hc hw hl => givesHw_bar2 (hostBar2_readsNothing hc hw hl)
  · exact fun x s hc => givesHw_bar2 (hostBar2_unclocked hc)
  · exact fun x s hc hp hn he => givesHw_bar2 (hostBar2_off hc hp hn he)
  · exact fun x s ht hv hd => givesHw_bar2 (hostBar2_unseen ht hv hd)
  · exact fun x s ht hv hd hf hw => givesHw_bar2 ((hostBar2_seen ht hv hd hf).trans (hostFrozen_write hw))
  · exact fun x s ht hv hd hf hw hr =>
      givesHw_bar2 ((hostBar2_seen ht hv hd hf).trans (hostFrozen_answered hw (frozenRead_register hr)))
  · exact fun x s ht hv hd hf hw hr =>
      givesHw_bar2 ((hostBar2_seen ht hv hd hf).trans (hostFrozen_answered hw (frozenRead_slots hr)))
  · exact fun x s ht hv hd hf hw hr =>
      givesHw_bar2 ((hostBar2_seen ht hv hd hf).trans (hostFrozen_answered hw (frozenRead_store hr)))
  · exact fun x s ht hv hd hf hw hr =>
      givesHw_bar2 ((hostBar2_seen ht hv hd hf).trans (hostFrozen_unserved hw (frozenRead_hole hr)))
  · exact fun x s ht hv hd hr => givesHw_bar2 ((hostBar2_local ht hv hd).trans (hostLocal_unserved hr))
  · exact fun x s ht hv hd hw hr => givesHw_bar2 ((hostBar2_local ht hv hd).trans (hostLocal_storeWrite ht.2.2.1 hw hr))
  · exact fun x s ht hv hd hh hb hs hc =>
      givesHw_bar2 ((hostBar2_local ht hv hd).trans (hostLocal_closed ht.2.2.1 hh hb hs hc))
  · exact fun x s ht hv hd hh hb hs hi hf hq =>
      givesHw_bar2 ((hostBar2_local ht hv hd).trans (hostLocal_begun ht.2.2.1 hh hb hs ht.1 hi hf hq))
  · rintro x _ s ht hv rfl hd ho
    exact givesHw_bar2 (hostBar2_absent ht hv hd ho)
  · rintro x _ s ht hv rfl hd ha hl ho
    exact givesHw_bar2 (hostBar2_noRoute ht hv hd ha hl ho)
  · rintro x _ p s ht hv rfl hd ha hl hf hp
    exact givesHw_bar2 (hostBar2_route ht hv hd ha hl hf hp)
  · exact fun h d p a x hr => hostRemote_unserved d p hr
  · exact fun h d p a x hn hr => hostRemote_begun d p hn hr
  · exact fun id a x hw hl => hostParts_registerWrite hw hl id a
  · exact fun id a x hw => hostParts_registerRead hw id a
  · exact fun h w n hs => hostAnswered_read hs h n
  · exact fun h w n hs => hostAnswered_writeRefused hs h n

end

section
/-!
PROOF. Requests on the network: their way, their checks, and what their endpoints do with them (R20, R32, R211, R221,
R230 to R240).
-/

namespace Sys2Proof.Machine

variable {m : Sparse Byte} {h : Hw} {op c y : Nat} {f : Flit} {p : Passage} {es : List Ecc} {s : State}

/-! ## The operation of a command as a number -/

theorem masked_iff {o : Fin 12} : o = 2 ↔ o.val = 2 := Fin.ext_iff

theorem regwr_iff {o : Fin 12} : o = 9 ↔ o.val = 9 := Fin.ext_iff

theorem register_iff {o : Fin 12} : (o = 8 ∨ o = 9) ↔ (o.val = 8 ∨ o.val = 9) := or_congr Fin.ext_iff Fin.ext_iff

theorem trough_notRegister (ho : 3 ≤ op ∧ op ≤ 7) : ¬ (op = 8 ∨ op = 9) := by omega

theorem window_notRegister (ho : op < 3 ∨ 9 < op) : ¬ (op = 8 ∨ op = 9) := by omega

theorem window_notTrough (ho : op < 3 ∨ 9 < op) : ¬ (3 ≤ op ∧ op ≤ 7) := by omega

/-! ## A request packet reaches its endpoint -/

/-- The outcomes of line checks that a request carries: only one that a controller serves has any. -/
def checksOf (op : Nat) (es : List Ecc) : List Ecc := if 3 ≤ op ∧ op ≤ 9 then [] else es

theorem exec_requestOf (op : Fin 12) (f : Flit) (p : Passage) (es : List Ecc) (s : State) :
    exec (requestOf op f p es) s = .next (onMem s fun m h => arriveAny m h op f p (checksOf op es)) := by
  unfold requestOf
  split <;> rfl

theorem takeWire_eq {w : NocFly} {g : Hw} (ht : takeWire h op f = some (w, g)) :
    h.noc.wire.find? (fun x => x.req.f.src == f.src && x.req.f.dst == f.dst) = some w ∧ w.req.op = op ∧ w.req.f = f ∧
      g.noc.wire = h.noc.wire.erase w := by
  unfold takeWire at ht
  split at ht
  · simp at ht
  · next w' hw =>
    split at ht
    · next hn =>
      cases ht
      exact ⟨hw, hn.1, hn.2, rfl⟩
    · simp at ht

/-- The request that has arrived is the one that the command names. -/
theorem arrivePacket_some {q : NocReq} (ha : (arrivePacket h op f p).1 = some q) : q.op = op ∧ q.f = f := by
  unfold arrivePacket at ha
  split at ha
  · simp at ha
  · split at ha
    · simp at ha
    · next w g ht =>
      obtain ⟨-, hop, hf, -⟩ := takeWire_eq ht
      dsimp only at ha
      split at ha
      · simp at ha
      · split at ha
        · simp at ha
        · dsimp only at ha
          split at ha
          · cases ha
            exact ⟨hop, hf⟩
          · simp at ha

theorem arriveAny_none (ha : (arrivePacket h op f p).1 = none) (es : List Ecc) :
    arriveAny m h op f p es = (m, (arrivePacket h op f p).2) := by
  unfold arriveAny
  split
  · next e => rw [e]
  · next e => simp [e] at ha

theorem leadAt_iff {r : Nat} : leadAt r = true ↔ ∃ k, endpointOf r = .lead k := by
  unfold leadAt
  split
  · next k hk => exact ⟨fun _ => ⟨k, hk⟩, fun _ => rfl⟩
  · next hn => exact ⟨fun hf => absurd hf (by decide), fun ⟨k, hk⟩ => absurd hk (hn k)⟩

/-- A request with a route flit goes on from a lead router; any other is its endpoint's (R230, R261). -/
theorem arriveAny_some (ha : (arrivePacket h op f p).1.isSome = true) (es : List Ecc) :
    arriveAny m h op f p es =
      if f.route.isSome = true ∧ leadAt f.dst = true then
        (m, if quarantinedAt (arrivePacket h op f p).2 f.dst then refuseClosed (arrivePacket h op f p).2 op f
            else leadArrive (arrivePacket h op f p).2 op f)
      else dispatchAny m (arrivePacket h op f p).2 op f es := by
  obtain ⟨q, hq⟩ := Option.isSome_iff_exists.mp ha
  obtain ⟨rfl, rfl⟩ := arrivePacket_some hq
  unfold arriveAny
  split
  · next e => simp [e] at hq
  · next q' h1 e =>
    rw [e] at hq ⊢
    cases hq
    split
    · next r k hr hk =>
      have onward : q.f.route.isSome = true ∧ leadAt q.f.dst = true := ⟨by rw [hr]; rfl, leadAt_iff.mpr ⟨k, hk⟩⟩
      rw [if_pos onward]
    · next hn =>
      rw [if_neg]
      rintro ⟨hr, hl⟩
      obtain ⟨r, hr⟩ := Option.isSome_iff_exists.mp hr
      obtain ⟨k, hk⟩ := leadAt_iff.mp hl
      exact hn r k hr hk

theorem arriveAny_endpoint (ha : Arrives s op f p) (es : List Ecc) :
    arriveAny s.mem s.hw op f p es = dispatchAny s.mem (arrived s op f p) op f es := by
  obtain ⟨hsome, hroute, -⟩ := ha
  rw [arriveAny_some hsome, if_neg]
  rintro ⟨hr, hl⟩
  obtain hr' | hl' := hroute
  · simp [hr'] at hr
  · exact absurd hl (ne_true_of_eq_false hl')

theorem arrives_notQuarantined (ha : Arrives s op f p) : quarantinedAt (arrived s op f p) f.dst = false := ha.2.2

/-! ## What the command of a request gives -/

section
variable {o : Fin 12} {h' : Hw}

theorem givesMem_arrival {r : Sparse Byte × Hw} (e : arriveAny s.mem s.hw o f p (checksOf o es) = r) :
    GivesMem (requestOf o f p es) s r := by
  unfold GivesMem
  rw [exec_requestOf]
  simp only [onMem, e]

theorem givesHw_arrival (e : arriveAny s.mem s.hw o f p (checksOf o es) = (s.mem, h')) :
    GivesHw (requestOf o f p es) s h' := givesMem_arrival e

theorem givesMem_request {r : Sparse Byte × Hw} (ha : Arrives s o f p)
    (e : dispatchAny s.mem (arrived s o f p) o f (checksOf o es) = r) : GivesMem (requestOf o f p es) s r :=
  givesMem_arrival ((arriveAny_endpoint ha _).trans e)

theorem givesHw_request (ha : Arrives s o f p)
    (e : dispatchAny s.mem (arrived s o f p) o f (checksOf o es) = (s.mem, h')) : GivesHw (requestOf o f p es) s h' :=
  givesMem_request ha e

end

/-! ## Requests other than register accesses -/

theorem quarantinedAt_dc (he : endpointOf f.dst = .dc c) : quarantinedAt h f.dst = false := by
  simp only [quarantinedAt, he]

theorem accepted_notRegister {ep : Endpoint} (ha : acceptsOp ep op = true) : ¬ (op = 8 ∨ op = 9) := by
  rintro (rfl | rfl) <;> cases ep <;> simp [acceptsOp] at ha

theorem dispatchAny_closed (hq : quarantinedAt h f.dst = true) (es : List Ecc) :
    dispatchAny m h op f es = (m, refuseClosed h op f) := by
  unfold dispatchAny
  split
  · unfold dispatchRegs
    split
    · next he => exact absurd hq (ne_true_of_eq_false (quarantinedAt_dc he))
    · rw [if_pos (.inl hq)]
  · unfold dispatchReq
    exact if_pos hq

theorem dispatchAny_refused (hr : ¬ (op = 8 ∨ op = 9)) (hq : quarantinedAt h f.dst = false)
    (ha : acceptsOp (endpointOf f.dst) op = false) (es : List Ecc) :
    dispatchAny m h op f es = (m, refuse h op f) := by
  unfold dispatchAny dispatchReq
  simp [hr, hq, ha]

theorem checksOf_dc (ha : acceptsOp (.dc c) op = true) : checksOf op es = es := by
  simp only [acceptsOp, Bool.or_eq_true, decide_eq_true_eq, beq_iff_eq] at ha
  rw [checksOf, if_neg (by omega)]

theorem dispatchAny_dc (he : endpointOf f.dst = .dc c) (ha : acceptsOp (.dc c) op = true) :
    dispatchAny m h op f (checksOf op es) = atDram m h c op f es := by
  rw [checksOf_dc ha]
  unfold dispatchAny dispatchReq
  simp [accepted_notRegister ha, quarantinedAt_dc he, he, ha]

/-- What the translation unit does with a request that it takes (R221, R230). -/
def tuRequest (m : Sparse Byte) (h : Hw) (op : Nat) (f : Flit) : Hw :=
  if f.addr.toNat % 10 ≠ 0 then refuseLogged h op f
  else if cached h f.addr.toNat (10 * wordsAsked op f) then serveXlat m h true op f []
  else withWalks h (h.noc.walks ++ [DmaReq.of op f])

theorem dispatchAny_tu (he : endpointOf f.dst = .tu) (ha : acceptsOp .tu op = true) (hq : quarantinedAt h f.dst = false)
    (es : List Ecc) : dispatchAny m h op f es = (m, tuRequest m h op f) := by
  unfold dispatchAny dispatchReq
  simp [accepted_notRegister ha, hq, he, ha, tuRequest, withWalks]

theorem tuRequest_unaligned (ha : f.addr.toNat % 10 ≠ 0) : tuRequest m h op f = refuseLogged h op f := if_pos ha

theorem tuRequest_aligned (ha : f.addr.toNat % 10 = 0) :
    tuRequest m h op f =
      if cached h f.addr.toNat (10 * wordsAsked op f) then serveXlat m h true op f []
      else withWalks h (h.noc.walks ++ [DmaReq.of op f]) := if_neg (not_not_intro ha)

theorem tuRequest_cached (ha : f.addr.toNat % 10 = 0) (hc : cached h f.addr.toNat (10 * wordsAsked op f) = true) :
    tuRequest m h op f = serveXlat m h true op f [] := by
  rw [tuRequest_aligned ha, if_pos hc]

theorem tuRequest_missed (ha : f.addr.toNat % 10 = 0) (hc : cached h f.addr.toNat (10 * wordsAsked op f) = false) :
    tuRequest m h op f = withWalks h (h.noc.walks ++ [DmaReq.of op f]) := by
  rw [tuRequest_aligned ha, if_neg (ne_true_of_eq_false hc)]

/-! ## At a memory controller -/

theorem refuseLogged_restricted (hr : restrictedReq h f = true) :
    refuseLogged h op f = refuseReq (postFinding h 0x0003 0x084 f.src f.addr.toNat 3) op f 1 := by
  simp only [refuseLogged, hr, if_true]

theorem refuseLogged_unrestricted (hr : restrictedReq h f = false) : refuseLogged h op f = refuseReq h op f 1 := by
  simp [refuseLogged, hr]

theorem atDram_open (ho : DramOpen h c) : atDram m h c op f es = serveDram m h c op f es := by
  obtain ⟨hp, hr⟩ := ho
  simp [atDram, hp, hr]

theorem atDram_held (ho : ¬ DramOpen h c) : atDram m h c op f es = (m, heldAt h c op f es) := by
  rw [atDram, if_pos]
  · rfl
  · simpa only [DramOpen, Decidable.not_and_iff_or_not, Bool.not_eq_false] using ho

theorem serveDram_restricted (hr : restrictedReq h f = true) :
    serveDram m h c op f es = (m, refuseReq (postFinding h 0x0003 0x084 f.src f.addr.toNat 3) op f 1) := by
  rw [← refuseLogged_restricted hr]
  exact if_pos (.inl hr)

/-- The bytes that a write puts in DRAM, with their addresses (R230). -/
def dramBytes (op : Nat) (f : Flit) : List (Nat × Byte) :=
  if op = 2 then maskedBytes f else placeBytes (dramSpan op f).1 (bytesOfWords (f.words.take (wordsAsked op f)))

theorem dramBytes_op (o : Fin 12) (f : Flit) :
    dramBytes o f =
      if o = 2 then maskedBytes f else placeBytes (dramSpan o f).1 (bytesOfWords (f.words.take (wordsAsked o f))) := by
  simp only [dramBytes, masked_iff]

theorem spanFits_iff :
    SpanFits h c op f ↔
      ¬ (dramEnd h < (dramSpan op f).1 + (dramSpan op f).2 ∨ (op ≠ 2 ∧ (dramSpan op f).1 % 10 ≠ 0)) ∧
        ¬ ((linesOf (dramSpan op f).1 (dramSpan op f).2).any fun l => lineChannel l != c) = true := by
  rw [SpanFits, ← and_assoc]
  apply and_congr
  · omega
  · simp

section
variable (hr : restrictedReq h f = false)
include hr

theorem serveDram_refused (hn : ¬ SpanFits h c op f ∨
    (isRead op = false ∧ f.src ≠ 38 ∧ hitsStaging h (dramSpan op f).1 (dramSpan op f).2 = true)) (m : Sparse Byte)
    (es : List Ecc) : serveDram m h c op f es = (m, refuseReq h op f 1) := by
  unfold serveDram
  dsimp only
  split
  · rw [refuseLogged_unrestricted hr]
  · next hspan =>
    apply if_pos
    obtain hf | ⟨hw, hs, ht⟩ := hn
    · exact .inl (Decidable.of_not_not fun hany => hf (spanFits_iff.mpr ⟨fun hx => hspan (.inr hx), hany⟩))
    · exact .inr ⟨ne_true_of_eq_false hw, fun hv => hs (Fin.ext hv), ht⟩

section
variable (hf : SpanFits h c op f)
include hf

theorem serveDram_read (ho : isRead op = true) (m : Sparse Byte) (es : List Ecc) :
    serveDram m h c op f es =
      (m, respond (dramRead m h (dramSpan op f).1 (dramSpan op f).2 es).2 op f 0
        (wordsOfBytes (wordsAsked op f) (dramRead m h (dramSpan op f).1 (dramSpan op f).2 es).1)) := by
  obtain ⟨inside, own⟩ := spanFits_iff.mp hf
  unfold serveDram
  dsimp only
  rw [if_neg (not_or_intro (ne_true_of_eq_false hr) inside), if_neg (not_or_intro own fun x => x.1 ho), if_pos ho]

theorem serveDram_write (ho : isRead op = false)
    (hs : f.src = 38 ∨ hitsStaging h (dramSpan op f).1 (dramSpan op f).2 = false) (m : Sparse Byte) (es : List Ecc) :
    serveDram m h c op f es =
      ((dramMask m h (linesOf (dramSpan op f).1 (dramSpan op f).2) (dramBytes op f) es).1,
        respond (dramMask m h (linesOf (dramSpan op f).1 (dramSpan op f).2) (dramBytes op f) es).2 op f 0 []) := by
  obtain ⟨inside, own⟩ := spanFits_iff.mp hf
  have allowed : ¬ (¬ isRead op = true ∧ f.src.val ≠ 38 ∧ hitsStaging h (dramSpan op f).1 (dramSpan op f).2 = true) := by
    rintro ⟨-, hsrc, ht⟩
    obtain hs | hs := hs
    · exact hsrc (congrArg Fin.val hs)
    · exact absurd ht (ne_true_of_eq_false hs)
  unfold serveDram
  dsimp only
  rw [if_neg (not_or_intro (ne_true_of_eq_false hr) inside), if_neg (not_or_intro own allowed),
    if_neg (ne_true_of_eq_false ho)]
  rfl

end

end

/-! ## At a yard -/

/-- The endpoint of a yard takes every operation but the register accesses (Table 9.3). -/
theorem accepts_yard (hr : ¬ (op = 8 ∨ op = 9)) (ho : op < 12) : acceptsOp (.yard y) op = true := by
  simp only [acceptsOp, Bool.or_eq_true, decide_eq_true_eq, beq_iff_eq]
  omega

theorem dispatchAny_yard (he : endpointOf f.dst = .yard y) (hq : quarantinedAt h f.dst = false) (hr : ¬ (op = 8 ∨ op = 9))
    (ho : op < 12) (es : List Ecc) :
    dispatchAny m h op f es = (m, if yardTakes h y then yardRequest h y op f else waitForWake h y op f) := by
  unfold dispatchAny dispatchReq
  simp [hr, hq, he, accepts_yard hr ho]

theorem dispatchAny_awake (he : endpointOf f.dst = .yard y) (hq : quarantinedAt h f.dst = false)
    (ht : yardTakes h y = true) (hr : ¬ (op = 8 ∨ op = 9)) (ho : op < 12) (es : List Ecc) :
    dispatchAny m h op f es = (m, yardRequest h y op f) := by
  rw [dispatchAny_yard he hq hr ho, if_pos ht]

theorem dispatchAny_asleep (he : endpointOf f.dst = .yard y) (hq : quarantinedAt h f.dst = false)
    (ht : ¬ yardTakes h y = true) (hb : ¬ (op = 8 ∨ op = 9) ∨ behindQuarantine h f.addr.toNat = false) (ho : op < 12)
    (es : List Ecc) : dispatchAny m h op f es = (m, waitForWake h y op f) := by
  by_cases hr : op = 8 ∨ op = 9
  · have hopen := hb.resolve_left (not_not_intro hr)
    simp [dispatchAny, hr, dispatchRegs, he, hq, hopen, ht]
  · rw [dispatchAny_yard he hq hr ho, if_neg ht]

section
variable (ho : 3 ≤ op ∧ op ≤ 7)
include ho

theorem yardRequest_noTrough (hl : 64 ≤ f.addr.toNat) : yardRequest h y op f = refuseReq h op f 1 := by
  simp only [yardRequest, ho, hl, and_self, if_true]

theorem yardRequest_otherSide (hl : f.addr.toNat < 64) (hs : netSide h (troughKey y f) op = false) :
    yardRequest h y op f = refuseReq (raiseBit h (aTst (troughKey y f)) fTRG_STAT_DISOP) op f 1 := by
  simp [yardRequest, ho, Nat.not_le_of_lt hl, hs]

theorem yardRequest_netSide (hl : f.addr.toNat < 64) (hs : netSide h (troughKey y f) op = true) :
    yardRequest h y op f = troughQueued h (troughKey y f / 8) (DmaReq.of op f) := by
  simp [yardRequest, ho, Nat.not_le_of_lt hl, hs, troughQueued, withDmaTrough]

end

theorem yardRequest_window {mem : Nat} (ho : ¬ (3 ≤ op ∧ op ≤ 7)) (hw : windowMem op f = some mem) (hy : slotYard mem = y) :
    yardRequest h y op f = windowQueued h mem (DmaReq.of op f) := by
  unfold yardRequest
  simp only [ho, if_false, hw, hy, ne_eq, not_true_eq_false]
  rfl

theorem yardRequest_noWindow (ho : ¬ (3 ≤ op ∧ op ≤ 7)) (hw : (windowMem op f).map slotYard ≠ some y) :
    yardRequest h y op f = refuseLogged h op f := by
  unfold yardRequest
  rw [if_neg ho]
  split
  · rfl
  · next mem e =>
    rw [e] at hw
    exact if_pos fun hy => hw (congrArg some hy)

/-! ## Register requests -/

theorem dispatchAny_regs (ho : op = 8 ∨ op = 9) (hq : quarantinedAt h f.dst = false) (ht : takesRegs h f = true)
    (es : List Ecc) : dispatchAny m h op f es = serveRegs m h op f := by
  unfold takesRegs at ht
  unfold dispatchAny dispatchRegs
  rw [if_pos ho]
  split at ht
  · next c he => simp [he, show dramInReset h c = false by simpa using ht]
  · next y he =>
    obtain ⟨hy, hb⟩ : yardTakes h y = true ∧ behindQuarantine h f.addr.toNat = false := by simpa using ht
    simp [he, hq, hb, hy]
  · cases ht
  · next hdc hyard htransit =>
    have hb : behindQuarantine h f.addr.toNat = false := by simpa using ht
    split
    · next c he => exact absurd he (hdc c)
    · rw [if_neg (by simp [hq, hb])]
      split
      · next he => exact absurd he htransit
      · next _ y he => exact absurd he (hyard y)
      · rfl

/-- A requester may not make the request, or no register access has its address. -/
abbrev RegsBarred (h : Hw) (op : Nat) (f : Flit) : Prop :=
  restrictedReq h f = true ∨ bar0Base ≤ f.addr.toNat ∨ f.addr.toNat % (if op = 9 ∧ f.cnt ≠ 0 then 4 else 8) ≠ 0

theorem regsBarred_op {o : Fin 12} :
    RegsBarred h o f ↔ restrictedReq h f = true ∨ bar0Base ≤ f.addr.toNat ∨
      f.addr.toNat % (if o = 9 ∧ f.cnt ≠ 0 then 4 else 8) ≠ 0 := by
  simp only [RegsBarred, regwr_iff]

/-- The address lies in the configuration store (Table 1.6). -/
abbrev StoreAddr (a : Nat) : Prop := 0x1004000000 ≤ a ∧ a < 0x1004400000

theorem not_storeAddr {a : Nat} (ha : a < 0x1004000000 ∨ 0x1004400000 ≤ a) : ¬ StoreAddr a := by
  unfold StoreAddr
  omega

theorem serveRegs_barred (hb : RegsBarred h op f) : serveRegs m h op f = (m, refuseLogged h op f) := by
  unfold serveRegs
  exact if_pos hb

theorem serveRegs_missing (hn : regExists (f.addr.toNat / 8 * 8) = false) (hs : ¬ StoreAddr f.addr.toNat) :
    serveRegs m h op f = (m, refuseLogged h op f) := by
  unfold serveRegs
  have store : ¬ (op = 8 ∧ f.dst.val = 25 ∧ StoreAddr f.addr.toNat) := fun x => hs x.2.2
  simp only [store, if_false, hn, ite_self, Bool.false_eq_true, not_false_eq_true, if_true]

theorem serveRegs_store (hb : ¬ RegsBarred h 8 f) (hd : f.dst = 25) (hs : StoreAddr f.addr.toNat) :
    serveRegs m h 8 f = (m, respond h 8 f 0 [TW.data (BitVec.ofNat 72 (leNat (readBytes m f.addr.toNat 8)))]) := by
  unfold serveRegs
  rw [if_neg hb, if_pos ⟨rfl, congrArg Fin.val hd, hs⟩]

theorem serveRegs_read (hb : ¬ RegsBarred h 8 f) (hs : ¬ StoreAddr f.addr.toNat) (he : regExists (f.addr.toNat / 8 * 8) = true) :
    serveRegs m h 8 f =
      (m, respond (readReg h f.addr.toNat).2 8 f 0 [TW.data ((readReg h f.addr.toNat).1.setWidth 72)]) := by
  unfold serveRegs
  rw [if_neg hb, if_neg fun x => hs x.2.2, if_neg (not_not_intro he), if_pos rfl]

theorem serveRegs_write (hb : ¬ RegsBarred h 9 f) (he : regExists (f.addr.toNat / 8 * 8) = true) :
    serveRegs m h 9 f =
      ((writeWide m h f.addr.toNat (decide (f.cnt = 0)) (((f.words.headD TW.notValid).d).setWidth 64)).1,
        respond (writeWide m h f.addr.toNat (decide (f.cnt = 0)) (((f.words.headD TW.notValid).d).setWidth 64)).2 9 f 0 []) := by
  unfold serveRegs
  rw [if_neg hb, if_neg (by simp), if_neg (not_not_intro he), if_neg (by decide)]

/-- A 40-bit address lies below BAR0, so that the requester and the alignment decide. -/
theorem not_regsBarred (hr : restrictedReq h f = false)
    (ha : f.addr.toNat % (if op = 9 ∧ f.cnt ≠ 0 then 4 else 8) = 0) : ¬ RegsBarred h op f := by
  rintro (hx | hx | hx)
  · exact absurd hx (ne_true_of_eq_false hr)
  · exact Nat.not_le_of_lt f.addr.isLt hx
  · exact hx ha

/-- A write of four bytes is marked by `CNT`, and its address is a multiple of 4 only. -/
theorem not_regsBarred_write (hr : restrictedReq h f = false) (ha : f.addr.toNat % (if f.cnt = 0 then 8 else 4) = 0) :
    ¬ RegsBarred h 9 f := by
  apply not_regsBarred hr
  by_cases hc : f.cnt = 0 <;> simpa [hc] using ha

/-! ## At a lead router -/

theorem arriveAny_lead {r : RouteFlit} {k : Nat} (ha : (arrivePacket h op f p).1.isSome = true) (hr : f.route = some r)
    (hk : endpointOf f.dst = .lead k) (hq : quarantinedAt (arrivePacket h op f p).2 f.dst = false) (es : List Ecc) :
    arriveAny m h op f p es = (m, leadArrive (arrivePacket h op f p).2 op f) := by
  have onward : f.route.isSome = true ∧ leadAt f.dst = true := ⟨by rw [hr]; rfl, leadAt_iff.mpr ⟨k, hk⟩⟩
  rw [arriveAny_some ha, if_pos onward, hq]
  rfl

theorem arriveAny_closed (ha : (arrivePacket h op f p).1.isSome = true)
    (hq : quarantinedAt (arrivePacket h op f p).2 f.dst = true) (es : List Ecc) :
    arriveAny m h op f p es = (m, refuseClosed (arrivePacket h op f p).2 op f) := by
  rw [arriveAny_some ha, dispatchAny_closed hq, hq, if_pos rfl, ite_self]

/-! ## Checks on the way and at the destination -/

theorem hopCheck_uncorrectable {w : List Nat} {x : Hop} (hw : w.contains x.router.val = true) (hx : x.chk = .uncorrectable)
    (a b op : Nat) (h : Hw) :
    hopCheck w a b op (true, h) x =
      (false, raiseAlarm (raiseBit h (aNR_STAT x.router) fNR_STAT_HDRUE) 0x0C0 x.router 0 (op + 16 * a + 1024 * b)) := by
  simp only [hopCheck, hw, hx, not_true_eq_false, or_self, if_false]

theorem hopCheck_corrected {w : List Nat} {x : Hop} (hw : w.contains x.router.val = true) (hx : x.chk = .corrected)
    (a b op : Nat) (h : Hw) : hopCheck w a b op (true, h) x = (true, bump h (aNR_STAT x.router) fNR_STAT_HDRCE 1) := by
  simp only [hopCheck, hw, hx, not_true_eq_false, or_self, if_false]

/-- The buffer that an entry was found by is one of its own. -/
theorem outAt_mine {r rb i : Nat} {o : NocOut} (ho : outAt h r rb = some (o, i)) :
    (rb + 32 - o.req.f.rb.toNat) % 32 < o.k := by
  unfold outAt at ho
  split at ho
  · next o' hf =>
    cases ho
    simpa using List.find?_some hf
  · cases ho

section
variable {bad : BitVec 8} {q : NocReq} {j i : Nat} {o : NocOut}
  (ho : outAt h q.f.src ((q.f.rb.toNat + j) % 32) = some (o, i)) (hc : o.cred ≠ 0) (hb : bad.getLsbD j = true)
include ho hc hb

theorem checkFlit_firstFailure (hl : awaited h q.f.dst q.f.src = []) :
    checkFlit bad q h j =
      sendNack (bump (setAwaited h q.f.dst q.f.src [(q.f.rb.toNat + j) % 32]) (aNR_STAT q.f.dst) fNR_STAT_CRCCNT 1) q.f
        ((q.f.rb.toNat + j) % 32) := by
  simp [checkFlit, ho, hc, hb, hl]

theorem checkFlit_secondFailure (hl : awaited h q.f.dst q.f.src = [(q.f.rb.toNat + j) % 32]) :
    checkFlit bad q h j =
      refuseReq (poisonedAt (bump (setAwaited h q.f.dst q.f.src []) (aNR_STAT q.f.dst) fNR_STAT_CRCCNT 1) q.f.dst
        q.f.addr.toNat) q.op q.f 2 := by
  have mine := outAt_mine ho
  simp [checkFlit, ho, hc, hb, hl, mine]

end

/-! ## Routes -/

theorem fromTo_up {a b : Nat} (hl : a ≤ b) : fromTo a b = (List.range (b + 1 - a)).map (a + ·) := if_pos hl

theorem fromTo_down {a b : Nat} (hl : ¬ a ≤ b) : fromTo a b = (List.range (a + 1 - b)).map (a - ·) := if_neg hl

theorem fromTo_length (a b : Nat) : (fromTo a b).length = max a b - min a b + 1 := by
  by_cases hl : a ≤ b
  · rw [fromTo_up hl, List.length_map, List.length_range]
    omega
  · rw [fromTo_down hl, List.length_map, List.length_range]
    omega

theorem fromTo_head (a b : Nat) : (fromTo a b).head? = some a := by
  by_cases hl : a ≤ b
  · rw [fromTo_up hl, List.head?_map, List.head?_range, if_neg (by omega)]
    rfl
  · rw [fromTo_down hl, List.head?_map, List.head?_range, if_neg (by omega)]
    rfl

theorem fromTo_getLast (a b : Nat) : (fromTo a b).getLast? = some b := by
  by_cases hl : a ≤ b
  · have last : a + (b + 1 - a - 1) = b := by omega
    rw [fromTo_up hl, List.getLast?_map, List.getLast?_range, if_neg (by omega)]
    exact congrArg some last
  · have last : a - (a + 1 - b - 1) = b := by omega
    rw [fromTo_down hl, List.getLast?_map, List.getLast?_range, if_neg (by omega)]
    exact congrArg some last

theorem le_max_of_mem_fromTo {a b x : Nat} (hx : x ∈ fromTo a b) : x ≤ max a b := by
  by_cases hl : a ≤ b
  · rw [fromTo_up hl] at hx
    obtain ⟨i, hi, rfl⟩ := List.mem_map.mp hx
    have := List.mem_range.mp hi
    omega
  · rw [fromTo_down hl] at hx
    obtain ⟨i, -, rfl⟩ := List.mem_map.mp hx
    omega

/-- The way along the column after the turn, which the row has reached (R231). -/
abbrev columnOf (a b : Nat) : List Nat := ((fromTo (a / 8) (b / 8)).drop 1).map fun r => 8 * r + b % 8

theorem columnOf_getLast {a b : Nat} (hr : a / 8 ≠ b / 8) : (columnOf a b).getLast? = some b := by
  have long : 1 < (fromTo (a / 8) (b / 8)).length := by rw [fromTo_length]; omega
  rw [List.getLast?_map, List.getLast?_drop, if_neg (by omega), fromTo_getLast]
  exact congrArg some (Nat.div_add_mod b 8)

theorem columnOf_sameRow {a b : Nat} (hr : a / 8 = b / 8) : columnOf a b = [] := by
  apply List.eq_nil_of_length_eq_zero
  rw [List.length_map, List.length_drop, fromTo_length]
  omega

theorem routeOf_getLast (a b : Nat) : (routeOf a b).getLast? = some b := by
  change (_ ++ columnOf a b).getLast? = _
  by_cases hr : a / 8 = b / 8
  · rw [columnOf_sameRow hr, List.append_nil, List.getLast?_map, fromTo_getLast, hr]
    exact congrArg some (Nat.div_add_mod b 8)
  · rw [List.getLast?_append, columnOf_getLast hr, Option.some_or]

theorem routeOf_length (a b : Nat) :
    (routeOf a b).length = (max (a % 8) (b % 8) - min (a % 8) (b % 8)) + (max (a / 8) (b / 8) - min (a / 8) (b / 8)) + 1 := by
  simp only [routeOf, List.length_append, List.length_map, List.length_drop, fromTo_length]
  omega

/-- A route stays in the grid of five rows of eight routers (Table 9.1). -/
theorem routeOf_inGrid {a b r : Nat} (ha : a < 40) (hb : b < 40) (hr : r ∈ routeOf a b) : r < 40 := by
  simp only [routeOf, List.mem_append, List.mem_map] at hr
  obtain ⟨x, hx, rfl⟩ | ⟨x, hx, rfl⟩ := hr
  · have := le_max_of_mem_fromTo hx
    omega
  · have := le_max_of_mem_fromTo (List.mem_of_mem_drop hx)
    omega

theorem routeOf_head (a b : Nat) : (routeOf a b).head? = some a := by
  simp only [routeOf, List.head?_append, List.head?_map, fromTo_head, Option.map_some, Option.some_or, Nat.div_add_mod]

/-- No route visits more than twelve routers (R231). -/
theorem routeOf_short {a b : Nat} (ha : a < 40) (hb : b < 40) : (routeOf a b).length ≤ 12 := by
  rw [routeOf_length]
  omega

/-! ## What the command gives, endpoint by endpoint -/

section
variable {o : Fin 12} {h' : Hw} {r : Sparse Byte × Hw} (ha : Arrives s o f p)
include ha

theorem givesMem_dram (he : endpointOf f.dst = .dc c) (hacc : acceptsOp (.dc c) o = true)
    (hopen : DramOpen (arrived s o f p) c) (e : serveDram s.mem (arrived s o f p) c o f es = r) :
    GivesMem (requestOf o f p es) s r :=
  givesMem_request ha ((dispatchAny_dc he hacc).trans ((atDram_open hopen).trans e))

theorem givesHw_dram (he : endpointOf f.dst = .dc c) (hacc : acceptsOp (.dc c) o = true)
    (hopen : DramOpen (arrived s o f p) c) (e : serveDram s.mem (arrived s o f p) c o f es = (s.mem, h')) :
    GivesHw (requestOf o f p es) s h' :=
  givesMem_dram ha he hacc hopen e

theorem givesHw_yard (he : endpointOf f.dst = .yard y) (ht : yardTakes (arrived s o f p) y = true)
    (hr : ¬ (o.val = 8 ∨ o.val = 9)) (e : yardRequest (arrived s o f p) y o f = h') : GivesHw (requestOf o f p es) s h' :=
  givesHw_request ha (e ▸ dispatchAny_awake he (arrives_notQuarantined ha) ht hr o.isLt _)

theorem givesHw_tu (he : endpointOf f.dst = .tu) (hacc : acceptsOp .tu o = true)
    (e : tuRequest s.mem (arrived s o f p) o f = h') : GivesHw (requestOf o f p es) s h' :=
  givesHw_request ha (e ▸ dispatchAny_tu he hacc (arrives_notQuarantined ha) _)

theorem givesMem_regs (ho : o = 8 ∨ o = 9) (ht : takesRegs (arrived s o f p) f = true)
    (e : serveRegs s.mem (arrived s o f p) o f = r) : GivesMem (requestOf o f p es) s r :=
  givesMem_request ha ((dispatchAny_regs (register_iff.mp ho) (arrives_notQuarantined ha) ht _).trans e)

theorem givesHw_regs (ho : o = 8 ∨ o = 9) (ht : takesRegs (arrived s o f p) f = true)
    (e : serveRegs s.mem (arrived s o f p) o f = (s.mem, h')) : GivesHw (requestOf o f p es) s h' :=
  givesMem_regs ha ho ht e

end

end Sys2Proof.Machine

open Sys2Proof Sys2Proof.Machine

/-- Settles O31: each clause from the lemma about the endpoint, the check or the route that it speaks of. -/
theorem requestsArriveAndAreServed : Obligations.RequestsArriveAndAreServed := by
  unfold Obligations.RequestsArriveAndAreServed
  refine ⟨?_, ?_, ?_, ?_, ?_, ?_, ?_, ?_, ?_, ?_, ?_, ?_, ?_, ?_, ?_, ?_, ?_, ?_, ?_, ?_, ?_, ?_, ?_, ?_, ?_, ?_, ?_, ?_, ?_⟩
  · exact fun o f p es c s ha he hacc hopen hr hf hread =>
      givesHw_dram ha he hacc hopen (serveDram_read hr hf hread _ _)
  · intro o f p es c s ha he hacc hopen hr hf hwrite hs
    rw [← dramBytes_op]
    exact givesMem_dram ha he hacc hopen (serveDram_write hr hf hwrite hs _ _)
  · exact fun o f p es c s ha he hacc hopen hr =>
      givesHw_dram ha he hacc hopen (serveDram_restricted hr)
  · exact fun o f p es c s ha he hacc hopen hr hn =>
      givesHw_dram ha he hacc hopen (serveDram_refused hr hn _ _)
  · exact fun o f p es c s ha he hacc hheld =>
      givesHw_request ha ((dispatchAny_dc he hacc).trans (atDram_held hheld))
  · exact fun o f p es y s ha he ht ho hl hs =>
      givesHw_yard ha he ht (trough_notRegister ho) (yardRequest_netSide ho hl hs)
  · exact fun o f p es y s ha he ht ho hl hs =>
      givesHw_yard ha he ht (trough_notRegister ho) (yardRequest_otherSide ho hl hs)
  · exact fun o f p es y s ha he ht ho hl =>
      givesHw_yard ha he ht (trough_notRegister ho) (yardRequest_noTrough ho hl)
  · exact fun o f p es y mem s ha he ht ho hw hy =>
      givesHw_yard ha he ht (window_notRegister ho) (yardRequest_window (window_notTrough ho) hw hy)
  · exact fun o f p es y s ha he ht ho hw =>
      givesHw_yard ha he ht (window_notRegister ho) (yardRequest_noWindow (window_notTrough ho) hw)
  · exact fun o f p es y s ha he ht hb =>
      givesHw_request ha (dispatchAny_asleep he (arrives_notQuarantined ha) ht
        (hb.imp_left (mt register_iff.mpr)) o.isLt _)
  · exact fun o f p es s ha he hacc hm hc => givesHw_tu ha he hacc (tuRequest_missed hm hc)
  · exact fun o f p es s ha he hacc hm hc => givesHw_tu ha he hacc (tuRequest_cached hm hc)
  · exact fun o f p es s ha he hacc hm => givesHw_tu ha he hacc (tuRequest_unaligned hm)
  · exact fun o f p es s ha ho hacc =>
      givesHw_request ha (dispatchAny_refused (mt register_iff.mpr ho) (arrives_notQuarantined ha) hacc _)
  · exact fun o f p es s ha hq => givesHw_arrival (arriveAny_closed ha hq _)
  · rintro _ f p es s ha rfl ht hr - hm he hs
    have base : f.addr.toNat / 8 * 8 = f.addr.toNat := Nat.div_mul_cancel (Nat.dvd_of_mod_eq_zero hm)
    exact givesHw_regs ha (.inl rfl) ht (serveRegs_read (not_regsBarred hr hm) (not_storeAddr hs) (base.symm ▸ he))
  · rintro _ f p es s ha rfl ht hr - hm he
    exact givesMem_regs ha (.inr rfl) ht (serveRegs_write (not_regsBarred_write hr hm) he)
  · exact fun o f p es s ha ho ht hb => givesHw_regs ha ho ht (serveRegs_barred (regsBarred_op.mpr hb))
  · exact fun o f p es s ha ho ht hn hs => givesHw_regs ha ho ht (serveRegs_missing hn (not_storeAddr hs))
  · rintro _ f p es s ha rfl hd ht hr hm hlo hhi
    exact givesHw_regs ha (.inl rfl) ht (serveRegs_store (not_regsBarred hr hm) hd ⟨hlo, hhi⟩)
  · exact fun o f p es r k s ha hr hk hq => givesHw_arrival (arriveAny_lead ha hr hk hq _)
  · exact fun o f p es s ha => givesHw_arrival (arriveAny_none ha _)
  · exact fun h op f w g ht => takeWire_eq ht
  · exact fun w a b op h x hw hx => hopCheck_uncorrectable hw hx a b op h
  · exact fun w a b op h x hw hx => hopCheck_corrected hw hx a b op h
  · exact fun a b => ⟨routeOf_head a b, routeOf_getLast a b, routeOf_short a.isLt b.isLt,
      fun r hr => routeOf_inGrid a.isLt b.isLt hr, routeOf_length a b⟩
  · exact fun bad q h j o i ho hc hl hb => checkFlit_firstFailure ho hc hb hl
  · exact fun bad q h j o i ho hc hl hb => checkFlit_secondFailure ho hc hb hl
end

section
/-!
PROOF. Rounding, range-limiting and lane sums.
-/

namespace Sys2Proof.Machine

variable {rnd : Rnd} {sat : Bool} {n w : Nat} {v t : Int}

/-! ## Rounding (R51) -/

theorem two_pow_pos (n : Nat) : (0 : Int) < 2 ^ n := Int.pow_pos (by decide)

theorem mul_two_pow_succ (x : Int) (n : Nat) : x * 2 ^ (n + 1) = 2 * (x * 2 ^ n) := by
  rw [Int.pow_succ, ← Int.mul_assoc, Int.mul_comm]

/-- A value split at bit n + 1: the quotient, and a remainder below 2 × 2^n, of which R51 compares the half 2^n. -/
theorem split_at_bit (n : Nat) (v : Int) :
    v = 2 * (v / 2 ^ (n + 1) * 2 ^ n) + v % 2 ^ (n + 1) ∧ 0 ≤ v % 2 ^ (n + 1) ∧ v % 2 ^ (n + 1) < 2 * 2 ^ n := by
  have pos := two_pow_pos (n + 1)
  have double : (2 : Int) ^ (n + 1) = 2 * 2 ^ n := by rw [Int.pow_succ, Int.mul_comm]
  refine ⟨?_, Int.emod_nonneg _ (Int.ne_of_gt pos), double ▸ Int.emod_lt_of_pos v pos⟩
  rw [← mul_two_pow_succ, Int.mul_comm]
  exact (Int.mul_ediv_add_emod v _).symm

theorem roundShift_zero (rnd : Rnd) (v : Int) : roundShift rnd 0 v = v := rfl

theorem roundShift_truncate (n : Nat) (v : Int) : roundShift .truncate (n + 1) v = v / 2 ^ (n + 1) := rfl

theorem roundShift_halfUp (n : Nat) (v : Int) :
    roundShift .halfUp (n + 1) v = if 2 ^ n ≤ v % 2 ^ (n + 1) then v / 2 ^ (n + 1) + 1 else v / 2 ^ (n + 1) := rfl

theorem roundShift_convergent (n : Nat) (v : Int) :
    roundShift .convergent (n + 1) v =
      if 2 ^ n < v % 2 ^ (n + 1) ∨ (v % 2 ^ (n + 1) = 2 ^ n ∧ v / 2 ^ (n + 1) % 2 = 1) then v / 2 ^ (n + 1) + 1
      else v / 2 ^ (n + 1) := rfl

theorem roundShift_exact (rnd : Rnd) (n : Nat) (v : Int) : roundShift rnd n (v * 2 ^ n) = v := by
  cases n with
  | zero => rw [roundShift_zero, Int.pow_zero, Int.mul_one]
  | succ n =>
    have pos := two_pow_pos n
    have quotient : v * 2 ^ (n + 1) / 2 ^ (n + 1) = v := Int.mul_ediv_cancel v (Int.ne_of_gt (two_pow_pos (n + 1)))
    have remainder : v * 2 ^ (n + 1) % 2 ^ (n + 1) = 0 := Int.mul_emod_left v _
    cases rnd with
    | truncate => rw [roundShift_truncate, quotient]
    | halfUp => rw [roundShift_halfUp, quotient, remainder, if_neg (by omega)]
    | convergent => rw [roundShift_convergent, quotient, remainder, if_neg (by omega)]

theorem truncate_is_floor (n : Nat) (v : Int) :
    roundShift .truncate n v * 2 ^ n ≤ v ∧ v < (roundShift .truncate n v + 1) * 2 ^ n := by
  cases n with
  | zero =>
    rw [roundShift_zero, Int.pow_zero]
    omega
  | succ n =>
    obtain ⟨hv, h0, h1⟩ := split_at_bit n v
    rw [roundShift_truncate, mul_two_pow_succ, mul_two_pow_succ, Int.add_mul]
    omega

theorem halfUp_is_nearest (n : Nat) (v : Int) :
    (2 * roundShift .halfUp n v - 1) * 2 ^ n ≤ 2 * v ∧ 2 * v < (2 * roundShift .halfUp n v + 1) * 2 ^ n := by
  cases n with
  | zero =>
    rw [roundShift_zero, Int.pow_zero]
    omega
  | succ n =>
    obtain ⟨hv, h0, h1⟩ := split_at_bit n v
    rw [roundShift_halfUp, mul_two_pow_succ, mul_two_pow_succ, Int.sub_mul, Int.add_mul, Int.mul_assoc]
    split
    · rw [Int.add_mul]
      omega
    · omega

theorem convergent_is_nearest (n : Nat) (v : Int) :
    (2 * roundShift .convergent n v - 1) * 2 ^ n ≤ 2 * v ∧ 2 * v ≤ (2 * roundShift .convergent n v + 1) * 2 ^ n := by
  cases n with
  | zero =>
    rw [roundShift_zero, Int.pow_zero]
    omega
  | succ n =>
    obtain ⟨hv, h0, h1⟩ := split_at_bit n v
    rw [roundShift_convergent, mul_two_pow_succ, mul_two_pow_succ, Int.sub_mul, Int.add_mul, Int.mul_assoc]
    split
    · rw [Int.add_mul]
      omega
    · omega

/-- A value half way between two integers has the half as its remainder, and the tie goes to the even one. -/
theorem convergent_tie_even (n : Nat) (v : Int)
    (tie : 2 * v = (2 * roundShift .convergent n v - 1) * 2 ^ n ∨ 2 * v = (2 * roundShift .convergent n v + 1) * 2 ^ n) :
    roundShift .convergent n v % 2 = 0 := by
  cases n with
  | zero =>
    rw [roundShift_zero, Int.pow_zero] at tie
    omega
  | succ n =>
    obtain ⟨hv, h0, h1⟩ := split_at_bit n v
    rw [roundShift_convergent, mul_two_pow_succ, mul_two_pow_succ, Int.sub_mul, Int.add_mul, Int.mul_assoc] at tie
    rw [roundShift_convergent]
    split at tie
    · rename_i up
      rw [Int.add_mul] at tie
      rw [if_pos up]
      omega
    · rename_i down
      rw [if_neg down]
      omega

/-! ## Range-limiting (R51) -/

theorem limitTo_inside (sat : Bool) (lo : minOf w ≤ t) (hi : t ≤ maxOf w) : limitTo sat w t = (t, false) := by
  unfold limitTo
  rw [if_neg (by omega)]

theorem limitTo_outside (sat : Bool) (out : t < minOf w ∨ maxOf w < t) :
    limitTo sat w t = (if sat then (if t < 0 then minOf w else maxOf w) else wrapTo w t, true) := if_pos out

theorem limitTo_leaves_iff : (limitTo sat w t).2 = true ↔ t < minOf w ∨ maxOf w < t := by
  unfold limitTo
  split <;> simp [*]

/-- A signed width has negative values, and 0 is one of the others. -/
theorem range_spans_zero (w : Nat) : minOf w < 0 ∧ 0 ≤ maxOf w := by
  have pos := two_pow_pos (w - 1)
  unfold minOf maxOf
  omega

/-- With SAT = 1 the end of the range that was passed is taken. -/
theorem limitTo_clamps (out : t < minOf w ∨ maxOf w < t) :
    limitTo true w t = (if t < minOf w then minOf w else maxOf w, true) := by
  have ends := range_spans_zero w
  have side : t < 0 ↔ t < minOf w := by omega
  simp only [limitTo_outside true out, if_true, side]

/-- The low bits read as two's complement lie in the range and are congruent to the value. -/
theorem wrapTo_spec (hw : 1 ≤ w) (t : Int) : minOf w ≤ wrapTo w t ∧ wrapTo w t ≤ maxOf w ∧ (2 ^ w : Int) ∣ wrapTo w t - t := by
  have pos := two_pow_pos w
  have half : (2 : Int) ^ w = 2 * 2 ^ (w - 1) := by rw [← Int.pow_succ', Nat.sub_add_cancel hw]
  have low := Int.emod_nonneg t (Int.ne_of_gt pos)
  have high := Int.emod_lt_of_pos t pos
  have congruent : (2 ^ w : Int) ∣ t % 2 ^ w - t := Int.dvd_sub_self_of_emod_eq rfl
  by_cases upper : t % 2 ^ w ≤ maxOf w
  · have value : wrapTo w t = t % 2 ^ w := if_pos upper
    rw [value]
    unfold minOf
    exact ⟨by omega, upper, congruent⟩
  · have value : wrapTo w t = t % 2 ^ w - 2 ^ w := if_neg upper
    have past : (2 ^ w : Int) ∣ t % 2 ^ w - 2 ^ w - t := by
      rw [show t % 2 ^ w - 2 ^ w - t = t % 2 ^ w - t - 2 ^ w by omega]
      exact Int.dvd_sub congruent (Int.dvd_refl _)
    rw [value]
    unfold minOf maxOf at *
    exact ⟨by omega, by omega, past⟩

/-- With SAT = 0 the low bits of the value are kept. -/
theorem limitTo_wraps (hw : 1 ≤ w) (out : t < minOf w ∨ maxOf w < t) :
    (limitTo false w t).2 = true ∧ minOf w ≤ (limitTo false w t).1 ∧ (limitTo false w t).1 ≤ maxOf w ∧
      (2 ^ w : Int) ∣ (limitTo false w t).1 - t := by
  rw [limitTo_outside false out]
  exact ⟨rfl, wrapTo_spec hw t⟩

/-! ## Narrowing -/

theorem narrow_inside (rnd : Rnd) (sat : Bool) (lo : minOf w ≤ roundShift rnd n v) (hi : roundShift rnd n v ≤ maxOf w) :
    narrow rnd sat n w v = (roundShift rnd n v, Flags.none) := by
  unfold narrow
  rw [limitTo_inside sat lo hi]
  rfl

theorem narrow_clamps (rnd : Rnd) (out : roundShift rnd n v < minOf w ∨ maxOf w < roundShift rnd n v) :
    narrow rnd true n w v =
      (if roundShift rnd n v < minOf w then minOf w else maxOf w, ⟨true, true, false, false, false⟩) := by
  unfold narrow
  rw [limitTo_clamps out]
  rfl

theorem narrow_wraps (rnd : Rnd) (hw : 1 ≤ w) (out : roundShift rnd n v < minOf w ∨ maxOf w < roundShift rnd n v) :
    (narrow rnd false n w v).2 = ⟨true, false, false, false, false⟩ ∧ minOf w ≤ (narrow rnd false n w v).1 ∧
      (narrow rnd false n w v).1 ≤ maxOf w ∧ (2 ^ w : Int) ∣ (narrow rnd false n w v).1 - roundShift rnd n v := by
  obtain ⟨left, kept⟩ := limitTo_wraps hw out
  refine ⟨?_, kept⟩
  simp only [narrow, left, Bool.and_false]

/-! ## Lane sums (R43) -/

theorem addLanes_lanes (sat : Bool) (w : Nat) {xs ys : List Int} (same : xs.length = ys.length) :
    (addLanes sat w xs ys).1 = List.zipWith (fun x y => (limitTo sat w (x + y)).1) xs ys := by
  induction xs generalizing ys with
  | nil => cases ys with
    | nil => rfl
    | cons y ys => cases same
  | cons x xs ih => cases ys with
    | nil => cases same
    | cons y ys => exact congrArg (_ :: ·) (ih (Nat.succ.inj same))

theorem addLanes_leaves_iff (sat : Bool) (w : Nat) (xs ys : List Int) :
    (addLanes sat w xs ys).2 = true ↔ ∃ p ∈ List.zip xs ys, p.1 + p.2 < minOf w ∨ maxOf w < p.1 + p.2 := by
  induction xs generalizing ys with
  | nil => cases ys <;> simp [addLanes]
  | cons x xs ih => cases ys with
    | nil => simp [addLanes]
    | cons y ys => simp only [addLanes, Bool.or_eq_true, limitTo_leaves_iff, ih, List.zip_cons_cons,
      List.mem_cons, or_and_right, exists_or, exists_eq_left]

end Sys2Proof.Machine

open Sys2Proof Sys2Proof.Machine

/-- Settles O14: rounding from the quotient and remainder of v by 2^s, limiting from whether the rounded value lies in the
range of the width. -/
theorem narrowingFollowsRoundingAndLimits : Obligations.NarrowingFollowsRoundingAndLimits := by
  refine ⟨truncate_is_floor, halfUp_is_nearest, fun n v => ?_, ?_, ?_, ?_, ?_⟩
  · obtain ⟨lo, hi⟩ := convergent_is_nearest n v
    exact ⟨lo, hi, convergent_tie_even n v⟩
  · exact fun rnd sat n w v lo hi => narrow_inside rnd sat lo hi
  · intro rnd n w v _ above
    have ends := range_spans_zero w
    rw [narrow_clamps rnd (.inr above), if_neg (by omega)]
  · intro rnd n w v _ below
    rw [narrow_clamps rnd (.inl below), if_pos below]
  · exact fun rnd n w v hw out => narrow_wraps rnd hw out
end

section
/-!
PROOF. Words and accumulators as lists of fields: fields joined and split again.
-/

namespace Sys2Proof.Machine

variable {w : Nat}

/-! ## Raw fields (R33) -/

/-- The fields of a number are those of its upper part and the lowest. -/
theorem splitRaw_succ (w n x : Nat) : splitRaw w (n + 1) x = splitRaw w n (x / 2 ^ w) ++ [x % 2 ^ w] := by
  have upper : ∀ k ∈ List.range n,
      x / 2 ^ (w * (n + 1 - 1 - k)) % 2 ^ w = x / 2 ^ w / 2 ^ (w * (n - 1 - k)) % 2 ^ w := by
    intro k hk
    have below := List.mem_range.mp hk
    rw [show n + 1 - 1 - k = (n - 1 - k) + 1 by omega, Nat.mul_succ, Nat.add_comm, Nat.pow_add, Nat.div_div_eq_div_mul]
  have lowest : w * (n + 1 - 1 - n) = 0 := by rw [Nat.add_sub_cancel, Nat.sub_self, Nat.mul_zero]
  simp only [splitRaw, List.range_succ, List.map_append, List.map_congr_left upper, List.map_cons, List.map_nil, lowest,
    Nat.pow_zero, Nat.div_one]

theorem joinRaw_append (w : Nat) (xs : List Nat) (x : Nat) : joinRaw w (xs ++ [x]) = joinRaw w xs * 2 ^ w + x % 2 ^ w := by
  simp only [joinRaw, List.foldl_append, List.foldl_cons, List.foldl_nil]

theorem length_splitRaw (w n x : Nat) : (splitRaw w n x).length = n := by
  rw [splitRaw, List.length_map, List.length_range]

theorem splitRaw_lt {n x a : Nat} (ha : a ∈ splitRaw w n x) : a < 2 ^ w := by
  obtain ⟨k, -, rfl⟩ := List.mem_map.mp ha
  exact Nat.mod_lt _ (Nat.two_pow_pos w)

/-- A number is its fields joined. -/
theorem joinRaw_splitRaw (w n x : Nat) : joinRaw w (splitRaw w n x) = x % 2 ^ (w * n) := by
  induction n generalizing x with
  | zero => rw [Nat.mul_zero, Nat.pow_zero, Nat.mod_one]; rfl
  | succ n ih =>
    rw [splitRaw_succ, joinRaw_append, ih, Nat.mod_mod, Nat.mul_succ, Nat.pow_add, Nat.mul_comm (2 ^ (w * n)), Nat.mod_mul,
      Nat.mul_comm, Nat.add_comm]

/-- Induction from the last field, as fields are joined. -/
theorem induction_from_end {P : List Nat → Prop} (nil : P []) (snoc : ∀ xs x, P xs → P (xs ++ [x])) (xs : List Nat) : P xs := by
  have turned : ∀ ys : List Nat, P ys.reverse := by
    intro ys
    induction ys with
    | nil => exact nil
    | cons y ys ih => exact List.reverse_cons ▸ snoc _ y ih
  exact List.reverse_reverse xs ▸ turned xs.reverse

theorem joinRaw_lt (w : Nat) (xs : List Nat) : joinRaw w xs < 2 ^ (w * xs.length) := by
  induction xs using induction_from_end with
  | nil => exact Nat.two_pow_pos _
  | snoc xs x ih =>
    have low : x % 2 ^ w < 2 ^ w := Nat.mod_lt _ (Nat.two_pow_pos w)
    rw [joinRaw_append, List.length_append, List.length_singleton, Nat.mul_succ, Nat.pow_add]
    calc joinRaw w xs * 2 ^ w + x % 2 ^ w < (joinRaw w xs + 1) * 2 ^ w := by rw [Nat.succ_mul]; omega
      _ ≤ 2 ^ (w * xs.length) * 2 ^ w := Nat.mul_le_mul_right _ ih

/-- Joined fields are found again. -/
theorem splitRaw_joinRaw {xs : List Nat} (fit : ∀ x ∈ xs, x < 2 ^ w) : splitRaw w xs.length (joinRaw w xs) = xs := by
  induction xs using induction_from_end with
  | nil => rfl
  | snoc xs x ih =>
    have hx : x < 2 ^ w := fit x (List.mem_append_right xs List.mem_cons_self)
    have upper : (joinRaw w xs * 2 ^ w + x) / 2 ^ w = joinRaw w xs := by
      rw [Nat.mul_comm, Nat.mul_add_div (Nat.two_pow_pos w), Nat.div_eq_of_lt hx, Nat.add_zero]
    have low : (joinRaw w xs * 2 ^ w + x) % 2 ^ w = x := by rw [Nat.mul_add_mod', Nat.mod_eq_of_lt hx]
    rw [List.length_append, List.length_singleton, splitRaw_succ, joinRaw_append, Nat.mod_eq_of_lt hx, upper, low,
      ih fun y hy => fit y (List.mem_append_left [x] hy)]

/-! ## Signed fields -/

/-- A value of a signed width. -/
def FitsIn (w : Nat) (v : Int) : Prop := minOf w ≤ v ∧ v ≤ maxOf w

theorem signed_fits (hw : 1 ≤ w) (x : Nat) : FitsIn w (signed w x) :=
  ⟨(wrapTo_spec hw x).1, (wrapTo_spec hw x).2.1⟩

/-- The raw field of a value, as an integer. -/
theorem rawOf_cast (w : Nat) (v : Int) : ((rawOf w v : Nat) : Int) = v % 2 ^ w :=
  Int.toNat_of_nonneg (Int.emod_nonneg v (Int.ne_of_gt (two_pow_pos w)))

theorem rawOf_lt (w : Nat) (v : Int) : rawOf w v < 2 ^ w := by
  have bound : ((rawOf w v : Nat) : Int) < ((2 ^ w : Nat) : Int) := by
    rw [rawOf_cast]
    exact Int.emod_lt_of_pos v (two_pow_pos w)
  exact Int.ofNat_lt.mp bound

/-- The value of a signed field has the field as its low bits. -/
theorem rawOf_signed {x : Nat} (hw : 1 ≤ w) (hx : x < 2 ^ w) : rawOf w (signed w x) = x := by
  obtain ⟨-, -, congruent⟩ := wrapTo_spec hw (x : Int)
  have same : signed w x % 2 ^ w = (x : Int) % 2 ^ w :=
    Int.emod_eq_emod_iff_emod_sub_eq_zero.mpr (Int.emod_eq_zero_of_dvd congruent)
  have small : (x : Int) < 2 ^ w := Int.ofNat_lt.mpr hx
  apply Int.ofNat_inj.mp
  rw [rawOf_cast, same, Int.emod_eq_of_lt (Int.natCast_nonneg x) small]

/-- Values of a signed width that are congruent modulo 2^w are the same. -/
theorem FitsIn.eq_of_dvd {a b : Int} (hw : 1 ≤ w) (ha : FitsIn w a) (hb : FitsIn w b) (h : (2 ^ w : Int) ∣ a - b) :
    a = b := by
  have whole : (2 : Int) ^ w = 2 * 2 ^ (w - 1) := by rw [← Int.pow_succ', Nat.sub_add_cancel hw]
  have h' : (2 ^ w : Int) ∣ b - a := Int.neg_sub a b ▸ Int.dvd_neg.mpr h
  obtain ⟨la, ua⟩ := ha
  obtain ⟨lb, ub⟩ := hb
  unfold minOf maxOf at *
  rcases Int.lt_trichotomy a b with below | same | above
  · have := Int.le_of_dvd (Int.sub_pos_of_lt below) h'
    omega
  · exact same
  · have := Int.le_of_dvd (Int.sub_pos_of_lt above) h
    omega

/-- Two's complement of a signed width gives back each of its values. -/
theorem signed_rawOf {v : Int} (hw : 1 ≤ w) (hv : FitsIn w v) : signed w (rawOf w v) = v := by
  have low : (2 ^ w : Int) ∣ (rawOf w v : Int) - v := by
    rw [rawOf_cast]
    exact Int.dvd_sub_self_of_emod_eq rfl
  have congruent := Int.dvd_add (wrapTo_spec hw (rawOf w v : Int)).2.2 low
  rw [show wrapTo w (rawOf w v) - rawOf w v + (rawOf w v - v) = wrapTo w (rawOf w v) - v by omega] at congruent
  exact (signed_fits hw _).eq_of_dvd hw hv congruent

/-! ## Words and lanes -/

/-- A word is its components composed. -/
theorem compose_comps {fmt : Nat} (h6 : fmt ≠ 6) (hw : 1 ≤ compWidth fmt) (full : compWidth fmt * compCount fmt = 72)
    (d : Word) (e : Int) : compose fmt (comps fmt d) e = d := by
  have raw : (comps fmt d).map (rawOf (compWidth fmt)) = splitRaw (compWidth fmt) (compCount fmt) d.toNat := by
    simp only [comps, if_neg h6, List.map_map]
    exact (List.map_congr_left fun x hx => rawOf_signed hw (splitRaw_lt hx)).trans (List.map_id _)
  simp only [compose, if_neg h6, raw, joinRaw_splitRaw, full]
  bv_omega

/-- Lanes that fit are found again in the accumulator that they form. -/
theorem lanes_ofLanes {fmt : Nat} {vs : List Int} (hw : 1 ≤ laneWidth fmt) (count : vs.length = laneCount fmt)
    (full : laneWidth fmt * laneCount fmt = 192) (fit : ∀ v ∈ vs, FitsIn (laneWidth fmt) v) : lanes fmt (ofLanes fmt vs) = vs := by
  have len : (vs.map (rawOf (laneWidth fmt))).length = laneCount fmt := by rw [List.length_map, count]
  have small := joinRaw_lt (laneWidth fmt) (vs.map (rawOf (laneWidth fmt)))
  rw [len, full] at small
  have raw : ∀ x ∈ vs.map (rawOf (laneWidth fmt)), x < 2 ^ laneWidth fmt := by
    intro x hx
    obtain ⟨v, -, rfl⟩ := List.mem_map.mp hx
    exact rawOf_lt _ v
  simp only [lanes, ofLanes, BitVec.toNat_ofNat, Nat.mod_eq_of_lt small]
  rw [← len, splitRaw_joinRaw raw, List.map_map]
  exact (List.map_congr_left fun v hv => signed_rawOf hw (fit v hv)).trans (List.map_id vs)

/-! ## A narrowed read of what a word wrote -/

/-- Values shifted up and narrowed by the same shift come back without a flag. -/
theorem narrowAll_exact (rnd : Rnd) (sat : Bool) (n : Nat) {vs : List Int} (fit : ∀ v ∈ vs, FitsIn w v) :
    narrowAll rnd sat n w (vs.map (· * 2 ^ n)) = (vs, Flags.none) := by
  have one : ∀ v ∈ vs, narrow rnd sat n w (v * 2 ^ n) = (v, Flags.none) := by
    intro v hv
    obtain ⟨lo, hi⟩ := fit v hv
    rw [narrow_inside rnd sat] <;> rw [roundShift_exact] <;> assumption
  have flags : vs.foldl (fun f v => f.or (narrow rnd sat n w (v * 2 ^ n)).2) Flags.none = Flags.none := by
    refine List.foldlRecOn (motive := (· = Flags.none)) vs _ rfl fun f hf v hv => ?_
    rw [hf, one v hv]
    rfl
  simp only [narrowAll, List.map_map, List.foldl_map, flags]
  exact Prod.ext ((List.map_congr_left fun v hv => congrArg Prod.fst (one v hv)).trans (List.map_id vs)) rfl

theorem FitsIn.shifted {n l : Nat} {v : Int} (hv : FitsIn w v) (hw : 1 ≤ w) (hl : w + n ≤ l) : FitsIn l (v * 2 ^ n) := by
  obtain ⟨lo, hi⟩ := hv
  unfold minOf maxOf at *
  have pos := two_pow_pos n
  have room : (2 : Int) ^ (w - 1) * 2 ^ n ≤ 2 ^ (l - 1) := by
    rw [← Int.pow_add]
    exact Int.ofNat_le.mpr (Nat.pow_le_pow_right (by decide) (by omega : w - 1 + n ≤ l - 1))
  have lower := Int.mul_le_mul_of_nonneg_right lo (Int.le_of_lt pos)
  have upper := Int.mul_le_mul_of_nonneg_right hi (Int.le_of_lt pos)
  rw [Int.neg_mul] at lower
  rw [Int.sub_mul, Int.one_mul] at upper
  exact ⟨by unfold minOf; omega, by unfold maxOf; omega⟩

/-- The formats of integers and complex samples: their fields fill the word, their lanes the accumulator, with room in
each lane for a component at the product point (Tables 2.1, 2.5, 2.6). -/
theorem format_geometry : ∀ fmt < 6,
    1 ≤ compWidth fmt ∧ compWidth fmt * compCount fmt = 72 ∧ laneWidth fmt * laneCount fmt = 192 ∧
      laneCount fmt = compCount fmt ∧ compWidth fmt + productPoint fmt ≤ laneWidth fmt := by
  decide

theorem read_ofWord {fmt : Nat} (hf : fmt < 6) (t : TW) (rnd : Rnd) (sat : Bool) :
    (Accum.ofWord fmt t).read fmt 0 rnd sat = (t.d, Flags.none) := by
  obtain ⟨hw, word, acc, count, room⟩ := format_geometry fmt hf
  have fit : ∀ v ∈ comps fmt t.d, FitsIn (compWidth fmt) v := by
    intro v hv
    obtain ⟨x, -, rfl⟩ := List.mem_map.mp hv
    exact signed_fits hw x
  have laneFit : ∀ v ∈ (comps fmt t.d).map (· * 2 ^ productPoint fmt), FitsIn (laneWidth fmt) v := by
    intro v hv
    obtain ⟨x, hx, rfl⟩ := List.mem_map.mp hv
    exact (fit x hx).shifted hw room
  have len : ((comps fmt t.d).map (· * 2 ^ productPoint fmt : Int → Int)).length = laneCount fmt := by
    rw [List.length_map, comps, List.length_map, length_splitRaw, count]
  have h6 : fmt ≠ 6 := by omega
  have h7 : fmt ≠ 7 := by omega
  simp only [Accum.read, Accum.ofWord, if_neg h6, if_neg h7, lanes_ofLanes (by omega) len acc laneFit, Nat.add_zero,
    narrowAll_exact rnd sat _ fit, compose_comps h6 hw word]

/-- In U72 the accumulator takes the 72 bits and gives them back (Table 2.5). -/
theorem read_ofWord_raw (t : TW) (rnd : Rnd) (sat : Bool) : (Accum.ofWord 7 t).read 7 0 rnd sat = (t.d, Flags.none) := by
  simp only [Accum.read, Accum.ofWord, if_true]
  congr 1
  bv_omega

end Sys2Proof.Machine

open Sys2Proof Sys2Proof.Machine

/-- Settles O15: a word's components stand in the lanes at the product point, from which the read shifts them back. -/
theorem accumulatorReturnsTheWordWritten : Obligations.AccumulatorReturnsTheWordWritten := by
  intro fmt t rnd sat h8 h6
  by_cases h7 : fmt = 7
  · subst h7
    exact read_ofWord_raw t rnd sat
  · exact read_ofWord (by omega) t rnd sat
end

section
/-!
PROOF. What an operand select reads (Table 3.2).
-/

namespace Sys2Proof.Machine

variable (m : Sparse Byte) (r : Reading) (g : Nat) (u : UStep)

theorem readPort_passes {k : Nat} (h : follows r.h g (fu r.h g).ctx = false) :
    readPort m r g k = (portWord m r.h g k, r) := by simp [readPort, h]

/-- A word of another epoch than that of the context reads as the not-valid word, whether rejected or skewed (R136, R137). -/
theorem readPort_otherEpoch {k : Nat} (h : follows r.h g (fu r.h g).ctx = true)
    (other : (portWord m r.h g k).ep.toNat ≠ (fu r.h g).ctx) :
    (readPort m r g k).1 = if (portWord m r.h g k).v then TW.notValid else portWord m r.h g k := by
  unfold readPort
  cases valid : (portWord m r.h g k).v with
  | false => simp [valid]
  | true =>
    simp only [h, valid, bne_iff_ne.mpr other, Bool.and_self, not_true, if_false, if_true]
    split
    · rfl
    · split <;> rfl

theorem readOperand_w {sel : Nat} (hs : sel < 0x10) :
    (readOperand m r g u sel).1 = asSeen (getD TW.notValid (bankOf (fu r.h g) (fu r.h g).bank).w sel) := by
  simp only [readOperand, if_pos hs]

theorem readOperand_port {k : Nat} (hk : k < 4) : (readOperand m r g u (0x10 + k)).1 = (readPort m r g k).1 := by
  simp only [readOperand, if_neg (show ¬ 0x10 + k < 0x10 by omega), if_pos (show 0x10 + k < 0x14 by omega),
    Nat.add_sub_cancel_left]

theorem readOperand_acc {k : Nat} (hk : k < 2) :
    (readOperand m r g u (0x14 + k)).1 =
      ⟨((accOf (bankOf (fu r.h g) (fu r.h g).bank) k).read u.fmt.toNat (u.mod.toNat / 16) (rndOf (u.mod.toNat % 4))
        (u.mod.getLsbD 2)).1, true, false, false, (accOf (bankOf (fu r.h g) (fu r.h g).bank) k).p,
        BitVec.ofNat 4 (fu r.h g).ctx⟩ := by
  obtain rfl | rfl : k = 0 ∨ k = 1 := by omega
  · rfl
  · rfl

theorem readOperand_count {key : Nat} (hb : boundTrough r.h g (fu r.h g).ctx = some key) :
    (readOperand m r g u 0x19).1 =
      constWord (constData u.fmt.toNat false (readableNow (depth r.h key) (troughNow r.h key))) (fu r.h g).ctx := by
  simp [readOperand, hb]

theorem readOperand_unbound (hb : boundTrough r.h g (fu r.h g).ctx = none) :
    readOperand m r g u 0x19 = (constWord (constData u.fmt.toNat false 0) (fu r.h g).ctx, false, { r with rsv := true }) := by
  simp [readOperand, hb]

theorem readOperand_reserved {sel : Nat} (hs : 0x1A ≤ sel) :
    readOperand m r g u sel = (TW.notValid, true, { r with rsv := true }) := by
  have past : ∀ k ≤ 0x19, ¬ sel < k ∧ sel ≠ k := fun k hk => by omega
  simp [readOperand, past]

end Sys2Proof.Machine

open Sys2Proof Sys2Proof.Machine

/-- Settles O13, select by select. -/
theorem operandsAreReadAsSelected : Obligations.OperandsAreReadAsSelected := by
  refine ⟨fun m r g u sel hs => readOperand_w m r g u hs, ?_, ?_, fun m r g u k hk => readOperand_acc m r g u hk,
    fun m r g u => ⟨rfl, rfl, rfl⟩, fun m r g u key hb => readOperand_count m r g u hb, ?_, ?_⟩
  · intro m r g u k hk hf
    rw [readOperand_port m r g u hk, readPort_passes m r g hf]
  · intro m r g u k hk hf other
    rw [readOperand_port m r g u hk, readPort_otherEpoch m r g hf other]
  · intro m r g u hb
    rw [readOperand_unbound m r g u hb]
    exact ⟨rfl, rfl⟩
  · intro m r g u sel hs
    rw [readOperand_reserved m r g u hs]
    exact ⟨rfl, rfl⟩
end

section
/-!
PROOF. The issue of a step: the commands of the tables are one shared issue, and the cases in which no step issues.
-/

namespace Sys2Proof.Machine

/-! ## The pen judged for a cycle (R64, R104) -/

theorem setFu_stalled (h : Hw) (g : Nat) (f : Fu) (n : Nat) : stalled (setFu h g f) n = stalled h n := rfl

theorem setFu_arrayRuns (h : Hw) (g : Nat) (f : Fu) (y : Nat) : arrayRuns (setFu h g f) y = arrayRuns h y := rfl

theorem stalled_of_stallAt {h : Hw} {n : Nat} (hs : (pen h n).stallAt = h.aclk + 1) : stalled h n = true := by
  simp [stalled, hs, yardCycle]

theorem stallPen_stalls (h : Hw) (n k : Nat) (pop : Bool) : stalled (stallPen h n k pop) n = true := by
  unfold stallPen
  extract_lets a y d hold h1 h2
  clear_value h2
  exact stalled_of_stallAt (congrArg Pen.stallAt (getD_setD_same Pen.reset _ n _))

theorem refuseAll_stalls (h : Hw) (n : Nat) (r : Nat × Bool) (rs : List (Nat × Bool)) :
    stalled (refuseAll h n (r :: rs)) n = true := stallPen_stalls _ n _ _

theorem judgePen_idle (m : Sparse Byte) {h : Hw} {n : Nat} (hr : arrayRuns h (n / 8) = false) : judgePen m h n = h := by
  simp [judgePen, hr]

/-- A pen that is not yet judged, not halted and due for no switch takes the refusals of its FUs. -/
theorem judgePen_refuses (m : Sparse Byte) {h : Hw} {n : Nat} (hr : arrayRuns h (n / 8) = true) (ho : orderDue h n = false)
    (hj : inCycle h (n / 8) (pen h n).judged = false) (hh : (pen h n).halted = false) :
    judgePen m h n = refuseAll (judgedNow h n) n (penRefusals m (judgedNow h n) n) := by
  have runs : (pen (judgedNow h n) n).halted = false := by rw [judgedNow, pen_setPen_same, hh]
  unfold judgePen
  rw [if_neg (by simp [hr, ho, hj])]
  exact if_neg (ne_true_of_eq_false runs)

theorem pen_yard (g : Nat) : g / 16 / 8 = g / 128 := Nat.div_div_eq_div_mul g 16 8

/-- An FU that may issue is one of a yard whose array runs. -/
theorem arrayRuns_of_canIssue {m : Sparse Byte} {h : Hw} {g : Nat} (hc : canIssue m (readyFu m h g) g = true) :
    arrayRuns h (g / 128) = true := by
  cases stopped : arrayRuns h (g / 128) with
  | true => rfl
  | false =>
    have asIs : readyFu m h g = settleRound h g := by
      unfold readyFu
      rw [judgePen_idle m (pen_yard g ▸ stopped)]
    simp only [asIs, canIssue, fuRuns, Bool.and_eq_true] at hc
    obtain ⟨⟨⟨⟨⟨⟨runs, -⟩, -⟩, -⟩, -⟩, -⟩, -⟩ := hc
    rw [← stopped]
    exact runs

/-! ## The shared issue -/

section
variable {m : Sparse Byte} {g opc slots : Nat} {u : UStep} {body : Hw → Hw} {h : Hw}

theorem issue_stopped (hr : arrayRuns h (g / 128) = false) : issue m g opc u slots body h = h := by
  simp [issue, hr]

theorem issue_notDue (hr : arrayRuns h (g / 128) = true)
    (other : canIssue m (readyFu m h g) g = false ∨ stepAt m (readyFu m h g) g ≠ (opc, u)) :
    issue m g opc u slots body h = readyFu m h g := by
  unfold issue
  rw [if_neg (by simp [hr])]
  exact if_pos (by simpa using other)

theorem issue_closed (hc : canIssue m (readyFu m h g) g = true) (hs : stepAt m (readyFu m h g) g = (opc, u))
    (closed : gateOpen (gateOf u) (bankOf (fu (readyFu m h g) g) (fu (readyFu m h g) g).bank).lix.toNat
      (fu (readyFu m h g) g).first = false) :
    issue m g opc u slots body h = finishIssue (readyFu m h g) g u slots := by
  simp [issue, arrayRuns_of_canIssue hc, hc, hs, closed]

/-- A pen with a refusal stalls, so that no step of it issues (R104). -/
theorem issue_refused {r : Nat × Bool} {rs : List (Nat × Bool)} (hr : arrayRuns h (g / 128) = true)
    (hj : judgePen m h (g / 16) = refuseAll (judgedNow h (g / 16)) (g / 16) (r :: rs)) :
    issue m g opc u slots body h = settleRound (refuseAll (judgedNow h (g / 16)) (g / 16) (r :: rs)) g := by
  have ready : readyFu m h g = settleRound (refuseAll (judgedNow h (g / 16)) (g / 16) (r :: rs)) g := by
    unfold readyFu
    rw [hj]
  have stall : stalled (readyFu m h g) (g / 16) = true := by
    rw [ready, settleRound, setFu_stalled]
    exact refuseAll_stalls _ _ r rs
  rw [issue_notDue hr (.inl (by simp [canIssue, stall])), ready]

end

/-! ## Commands of the tables -/

/-- The command of a row issues its step, in the slots of the row where the row takes the format. -/
def IssuesStep (row : (Fin 2048 → UStep → Instr) × Nat × OpSpec) : Prop :=
  ∀ g u s, ∃ slots body, exec (row.1 g u) s = .next (onHw s (issue s.mem g.val row.2.1 u slots body)) ∧
    (row.2.2.fmts.contains u.fmt.toNat = true → slots = slotsOf row.2.2 u)

theorem issuesStep_of_fuStep {row : (Fin 2048 → UStep → Instr) × Nat × OpSpec} {act : Fin 2048 → StepIn → Hw → Hw}
    (he : ∀ g u s, exec (row.1 g u) s = .next (onHw s (fuStep s.mem row.2.1 row.2.2 g.val u (act g)))) : IssuesStep row := by
  intro g u s
  by_cases hf : row.2.2.fmts.contains u.fmt.toNat = true
  · refine ⟨slotsOf row.2.2 u, runStep s.mem row.2.2 g u (act g), ?_, fun _ => rfl⟩
    rw [he]
    simp only [onHw, fuStep, if_pos hf]
  · refine ⟨1, fun h => undefinedStep h g u, ?_, fun h => absurd h hf⟩
    rw [he]
    simp only [onHw, fuStep, if_neg hf]

theorem memRow_slots (a b : Bool) (d : DstClass) (u : UStep) : slotsOf (memRow a b d) u = 1 := ite_self _

/-- A memory or trough step issues in one slot, whether its format is defined or not. -/
theorem memStep_issues (m : Sparse Byte) (opc : Nat) (a b : Bool) (d : DstClass) (l g : Nat) (u : UStep)
    (act : Operands → Hw → Hw) : ∃ body, memStep m opc a b d l g u act = issue m g opc u 1 body := by
  by_cases hf : 8 ≤ u.fmt.toNat
  · exact ⟨fun h => undefinedStep h g u, funext fun h => if_pos hf⟩
  · exact ⟨_, funext fun h => if_neg hf⟩

theorem issuesStep_of_memStep {row : (Fin 2048 → UStep → Instr) × Nat × OpSpec} {a b : Bool} {d : DstClass} {l : Nat}
    (f : Sparse Byte → Nat → UStep → Hw → Hw) (hrow : row.2.2 = memRow a b d)
    (he : ∀ g u s, exec (row.1 g u) s = .next (onHw s (f s.mem g.val u)))
    (hf : ∀ m g u, ∃ act, ∀ h, f m g u h = memStep m row.2.1 a b d l g u act h) : IssuesStep row := by
  intro g u s
  obtain ⟨act, hact⟩ := hf s.mem g u
  obtain ⟨body, hb⟩ := memStep_issues s.mem row.2.1 a b d l g u act
  exact ⟨1, body, by rw [he, funext hact, ← hb], fun _ => by rw [hrow, memRow_slots]⟩

theorem consumerStep_memStep (m : Sparse Byte) (opc g : Nat) (u : UStep) (f : Nat → Trough → Hw → Hw) :
    ∃ act, ∀ h, consumerStep m opc g u f h = memStep m opc true false .discard 1 g u act h := ⟨_, fun _ => rfl⟩

theorem producerStep_memStep (m : Sparse Byte) (opc g : Nat) (u : UStep) (f : Nat → Trough → Hw → Hw) :
    ∃ act, ∀ h, producerStep m opc g u f h = memStep m opc true false .discard 1 g u act h := ⟨_, fun _ => rfl⟩

/-- Steps with no effect besides their results. -/
theorem resultRows_issue : ∀ row ∈ wordRows ++ productRows ++ addendRows ++ tagRows, IssuesStep row := by
  intro row hr
  simp only [wordRows, productRows, addendRows, tagRows, List.cons_append, List.nil_append, List.mem_cons, List.not_mem_nil,
    or_false] at hr
  repeat' obtain rfl | hr := hr
  all_goals exact issuesStep_of_fuStep (act := fun _ => noAction) fun _ _ _ => rfl

theorem otherRows_issue : ∀ row ∈ otherRows, IssuesStep row := by
  intro row hr
  simp only [otherRows, List.mem_cons, List.not_mem_nil, or_false] at hr
  obtain rfl | rfl | rfl | rfl | rfl | rfl := hr
  · exact issuesStep_of_fuStep (act := fun _ => noAction) fun _ _ _ => rfl
  · exact issuesStep_of_fuStep (act := fun g => setLoopIndex g) fun _ _ _ => rfl
  · exact issuesStep_of_fuStep (act := fun _ => noAction) fun _ _ _ => rfl
  · exact issuesStep_of_fuStep (act := fun g => raiseSignal g) fun _ _ _ => rfl
  · exact issuesStep_of_fuStep (act := fun _ => noAction) fun _ _ _ => rfl
  · exact issuesStep_of_fuStep (act := fun _ => noAction) fun _ _ _ => rfl

theorem troughRows_issue (e : Ecc) : ∀ row ∈ troughRows e, IssuesStep row := by
  intro row hr
  simp only [troughRows, List.mem_cons, List.not_mem_nil, or_false] at hr
  obtain rfl | rfl | rfl | rfl | rfl | rfl | rfl | rfl | rfl | rfl := hr
  · exact issuesStep_of_memStep (fun m g u => loadStep m g u e) rfl (fun _ _ _ => rfl) fun _ _ _ => ⟨_, fun _ => rfl⟩
  · exact issuesStep_of_memStep storeStep rfl (fun _ _ _ => rfl) fun _ _ _ => ⟨_, fun _ => rfl⟩
  · exact issuesStep_of_memStep pushStep rfl (fun _ _ _ => rfl) fun _ _ _ => ⟨_, fun _ => rfl⟩
  · exact issuesStep_of_memStep (fun m g u => popStep m g u e) rfl (fun _ _ _ => rfl) fun _ _ _ => ⟨_, fun _ => rfl⟩
  · exact issuesStep_of_memStep markStep rfl (fun _ _ _ => rfl) fun m g u => consumerStep_memStep m _ g u _
  · exact issuesStep_of_memStep rewindStep rfl (fun _ _ _ => rfl) fun m g u => consumerStep_memStep m _ g u _
  · exact issuesStep_of_memStep releaseStep rfl (fun _ _ _ => rfl) fun m g u => consumerStep_memStep m _ g u _
  · exact issuesStep_of_memStep openStep rfl (fun _ _ _ => rfl) fun _ _ _ => ⟨_, fun _ => rfl⟩
  · exact issuesStep_of_memStep closeStep rfl (fun _ _ _ => rfl) fun m g u => producerStep_memStep m _ g u _
  · exact issuesStep_of_memStep abortStep rfl (fun _ _ _ => rfl) fun m g u => producerStep_memStep m _ g u _

/-- Every listed opcode's command is one shared issue of its step. -/
theorem fuRows_issue (e : Ecc) : ∀ row ∈ fuRows e, IssuesStep row := by
  intro row hr
  rw [fuRows, List.mem_append, List.mem_append] at hr
  obtain (hr | hr) | hr := hr
  · exact resultRows_issue row hr
  · exact otherRows_issue row hr
  · exact troughRows_issue e row hr

/-- A command of the tables leaves what the issue of a step leaves that its state does not let issue. -/
theorem givesHw_of_issue {e : Ecc} (k : Fin (fuCommands e).length) {g : Fin 2048} {u : UStep} {s : State} {h : Hw}
    (hi : ∀ opc slots body, issue s.mem g opc u slots body s.hw = h) : GivesHw ((fuCommands e).get k g u) s h := by
  obtain ⟨row, hr, hc⟩ := List.mem_map.mp (List.get_mem (fuCommands e) k)
  obtain ⟨slots, body, he, -⟩ := fuRows_issue e row hr g u s
  rw [GivesHw, ← hc, he, onHw, hi]

/-- The command of a row, where the row takes the format or whatever the slots. -/
theorem givesHw_of_row {e : Ecc} (k : Fin (fuRows e).length) {g : Fin 2048} {u : UStep} {s : State} {h : Hw}
    (hi : ∀ slots body, (((fuRows e).get k).2.2.fmts.contains u.fmt.toNat = true → slots = slotsOf ((fuRows e).get k).2.2 u) →
      issue s.mem g ((fuRows e).get k).2.1 u slots body s.hw = h) : GivesHw (((fuRows e).get k).1 g u) s h := by
  obtain ⟨slots, body, he, hs⟩ := fuRows_issue e _ (List.get_mem (fuRows e) k) g u s
  rw [GivesHw, he, onHw, hi slots body hs]

end Sys2Proof.Machine

open Sys2Proof Sys2Proof.Machine

/-- Settles O12: each command of the tables is one shared issue, which tests these conditions before the step's own effect. -/
theorem stoppedUnitsIssueNothing : Obligations.StoppedUnitsIssueNothing := by
  refine ⟨?_, ?_, ?_, ?_, ?_⟩
  · exact fun e k g u s hr => givesHw_of_issue k fun _ _ _ => issue_stopped hr
  · exact fun e k g u s hr hc => givesHw_of_issue k fun _ _ _ => issue_notDue hr (.inl hc)
  · exact fun e k g u s hr hs => givesHw_of_row k fun _ _ _ => issue_notDue hr (.inr hs)
  · rintro e k g u s ⟨hc, hs⟩ hf closed
    exact givesHw_of_row k fun slots body slotsEq => slotsEq hf ▸ issue_closed hc hs closed
  · intro e k g u r rs s hr ho hj hh hp
    have refused := judgePen_refuses s.mem (pen_yard g ▸ hr) ho (pen_yard g ▸ hj) hh
    exact givesHw_of_issue k fun _ _ _ => issue_refused hr (hp ▸ refused)
end

section
/-!
PROOF. The pen judged for a cycle keeps the cycle; results land one by one; a crossing presents the latest word due.
-/

namespace Sys2Proof.Machine

/-! ## What judging a pen leaves unchanged -/

/-- Nothing but the array and registers differs, and of the registers only the status of the pen's troughs and its stalls. -/
def PenStatusOnly (n : Nat) (h t : Hw) : Prop :=
  (∃ r j a, t = { h with regs := r, justSet := j, arr := a }) ∧
    ∀ a, (∀ k, k < 8 → a ≠ aTRG_STAT n k) → a ≠ aPEN_STALL n → reg t a = reg h a

theorem PenStatusOnly.same (n : Nat) (h : Hw) : PenStatusOnly n h h := ⟨⟨_, _, _, rfl⟩, fun _ _ _ => rfl⟩

theorem PenStatusOnly.trans {n : Nat} {a b c : Hw} (h1 : PenStatusOnly n a b) (h2 : PenStatusOnly n b c) :
    PenStatusOnly n a c := by
  obtain ⟨⟨r, j, x, rfl⟩, k1⟩ := h1
  obtain ⟨⟨r', j', x', rfl⟩, k2⟩ := h2
  exact ⟨⟨r', j', x', rfl⟩, fun a ht hs => (k2 a ht hs).trans (k1 a ht hs)⟩

theorem penStatusOnly_arr (n : Nat) (h : Hw) (x : Arr) : PenStatusOnly n h { h with arr := x } :=
  ⟨⟨_, _, _, rfl⟩, fun _ _ _ => rfl⟩

theorem penStatusOnly_setF {n a : Nat} (ha : (∃ k, k < 8 ∧ a = aTRG_STAT n k) ∨ a = aPEN_STALL n) (h : Hw) (f : Fld)
    (x : Nat) : PenStatusOnly n h (setF h a f x) := by
  obtain ⟨r, j, e⟩ := setF_only h a f x
  refine ⟨⟨r, j, h.arr, e⟩, fun b ht hs => reg_setF_ne h f x ?_⟩
  obtain ⟨k, hk, rfl⟩ | rfl := ha
  · exact ht k hk
  · exact hs

theorem stallPen_only (h : Hw) (n k : Nat) (pop : Bool) : PenStatusOnly n h (stallPen h n k pop) := by
  have stall (h : Hw) (f : Fld) (x : Nat) : PenStatusOnly n h (setF h (aPEN_STALL n) f x) := penStatusOnly_setF (.inr rfl) h f x
  unfold stallPen
  extract_lets a y d hold h1 h2
  have regs : PenStatusOnly n h h2 := (stall h _ _).trans ((stall h1 _ _).trans (stall _ _ _))
  clear_value h2
  exact regs.trans (penStatusOnly_arr n h2 _)

/-- A trough key of the pen. -/
theorem aTst_of_pen {n key : Nat} (hk : key / 8 = n) : ∃ k, k < 8 ∧ aTst key = aTRG_STAT n k :=
  ⟨key % 8, Nat.mod_lt _ (by decide), by rw [aTst, hk]⟩

theorem refuseAll_only {n : Nat} {rs : List (Nat × Bool)} (hk : ∀ x ∈ rs, x.1 / 8 = n) (h : Hw) :
    PenStatusOnly n h (refuseAll h n rs) := by
  cases rs with
  | nil => exact PenStatusOnly.same n h
  | cons r rest =>
    have counts : ∀ (xs : List (Nat × Bool)), (∀ x ∈ xs, x.1 / 8 = n) → ∀ h,
        PenStatusOnly n h (applyAll (fun h x => bump h (aTst x.1) fTRG_STAT_REFCNT 1) h xs) := by
      intro xs
      induction xs with
      | nil => exact fun _ h => PenStatusOnly.same n h
      | cons x xs ih =>
        intro hx h
        have first : PenStatusOnly n h (bump h (aTst x.1) fTRG_STAT_REFCNT 1) :=
          penStatusOnly_setF (.inl (aTst_of_pen (hx x List.mem_cons_self))) h _ _
        exact first.trans (ih (fun y hy => hx y (List.mem_cons_of_mem _ hy)) _)
    exact (counts _ hk h).trans (stallPen_only _ n _ _)

/-! ### The refusals of a pen are of its own troughs -/

theorem boundTrough_pen {h : Hw} {g c key : Nat} (hb : boundTrough h g c = some key) : key / 8 = g / 16 := by
  unfold boundTrough at hb
  split at hb
  · have field : getF h (aFU_CTXCTL g c) fFU_CTXCTL_TRG < 8 := Nat.mod_lt _ (by decide)
    cases hb
    omega
  · cases hb

theorem accessOf_pen {h : Hw} {g key : Nat} {producer : Bool} (ha : accessOf h g producer = .ok key) : key / 8 = g / 16 := by
  unfold accessOf at ha
  split at ha
  · cases ha
  · rename_i k hb
    have hk : k = key := by
      generalize (if producer = true then getF h (aCfg k) fTRG_CFG_PSIDE else getF h (aCfg k) fTRG_CFG_CSIDE) = side at ha
      dsimp only at ha
      generalize (if producer = true then (troughNow h k).prodFu else (troughNow h k).consFu) = user at ha
      split at ha
      · cases ha
      · split at ha
        · cases ha
        · cases user with
          | none => exact Access.ok.inj ha
          | some g' =>
            dsimp only at ha
            split at ha
            · exact Access.ok.inj ha
            · cases ha
    rw [← hk]
    exact boundTrough_pen hb

theorem pushRefusal_pen {g : Nat} {isOpen : Bool} {h : Hw} {r : Nat × Bool} (hr : pushRefusal g isOpen h = some r) :
    r.1 / 8 = g / 16 := by
  unfold pushRefusal at hr
  split at hr
  · rename_i key ha
    split at hr
    · cases hr
      exact accessOf_pen ha
    · cases hr
  · cases hr

theorem popRefusal_pen {g : Nat} {h : Hw} {r : Nat × Bool} (hr : popRefusal g h = some r) : r.1 / 8 = g / 16 := by
  unfold popRefusal at hr
  split at hr
  · rename_i key ha
    split at hr
    · cases hr
      exact accessOf_pen ha
    · cases hr
  · cases hr

theorem refusalOf_pen {h : Hw} {g opc : Nat} {u : UStep} {r : Nat × Bool} (hr : refusalOf h g opc u = some r) :
    r.1 / 8 = g / 16 := by
  have push {c : Prop} [Decidable c] (hp : (if c then pushRefusal g false h else none) = some r) : r.1 / 8 = g / 16 := by
    split at hp
    · exact pushRefusal_pen hp
    · cases hp
  unfold refusalOf at hr
  dsimp only at hr
  split at hr
  · cases hr
  · split at hr
    · cases hr
    · split at hr
      · exact pushRefusal_pen hr
      · split at hr
        · exact pushRefusal_pen hr
        · split at hr
          · rcases Option.or_eq_some_iff.mp hr with hp | ⟨-, hp⟩
            · exact popRefusal_pen hp
            · exact push hp
          · split at hr
            · exact push hr
            · cases hr

theorem penRefusals_pen {m : Sparse Byte} {h : Hw} {n : Nat} : ∀ r ∈ penRefusals m h n, r.1 / 8 = n := by
  intro r hr
  obtain ⟨g, hg, hd⟩ := List.mem_filterMap.mp hr
  obtain ⟨f, hf, rfl⟩ := List.mem_map.mp hg
  have inPen : (16 * n + f) / 16 = n := by
    have := List.mem_range.mp hf
    omega
  unfold dueRefusal at hd
  dsimp only at hd
  split at hd
  · rw [refusalOf_pen hd, inPen]
  · cases hd

theorem judgePen_only (m : Sparse Byte) (h : Hw) (n : Nat) : PenStatusOnly n h (judgePen m h n) := by
  unfold judgePen
  split
  · exact PenStatusOnly.same n h
  · extract_lets src h1
    have noted : PenStatusOnly n h h1 := penStatusOnly_arr n h _
    split
    · exact noted
    · exact noted.trans (refuseAll_only penRefusals_pen h1)

/-! ### The cycle of a yard -/

theorem PenStatusOnly.aclk {n : Nat} {h t : Hw} (ht : PenStatusOnly n h t) : t.aclk = h.aclk := by
  obtain ⟨⟨r, j, a, rfl⟩, -⟩ := ht
  rfl

/-- The status of a yard's clock is none of the registers of its pens. -/
theorem PenStatusOnly.yardShift {n : Nat} {h t : Hw} (ht : PenStatusOnly n h t) (y : Nat) : yardShift t y = yardShift h y := by
  have kept : reg t (aYP_STAT y) = reg h (aYP_STAT y) := by
    refine ht.2 _ (fun k hk => ?_) ?_
    · simp only [aYP_STAT, aTRG_STAT, penBase, yardBase]
      omega
    · simp only [aYP_STAT, aPEN_STALL, penBase, yardBase]
      omega
  simp only [Machine.yardShift, getF, kept]

theorem yardCycle_judgePen (m : Sparse Byte) (h : Hw) (n y : Nat) : yardCycle (judgePen m h n) y = yardCycle h y := by
  have only := judgePen_only m h n
  rw [yardCycle, yardCycle, only.aclk, only.yardShift]

end Sys2Proof.Machine
end

section
/-!
PROOF. Results land one by one in their destinations; a crossing presents the latest word due.
-/

namespace Sys2Proof.Machine

/-! ## One result landed (R36, R42, R43, R60, R66) -/

section
variable {h : Hw} {f : Flight}

theorem bringsNothing_of_dest (hd : ∀ k, f.dest ≠ .acc k) : bringsNothing f = false := by
  unfold bringsNothing
  split
  · rename_i k _ _ _ _ _ he _
    exact absurd he (hd k)
  · rfl

theorem bringsNothing_of_pay (hp : ∀ n w fmt e r, f.pay ≠ .load n w fmt e r) : bringsNothing f = false := by
  unfold bringsNothing
  split
  · rename_i he
    exact absurd he (hp _ _ _ _ _)
  · rfl

theorem landing_addAcc {fmt : Nat} {vs : List Int} {pe : Int} {rnd : Rnd} {sat p : Bool}
    (hp : f.pay = .addAcc fmt vs pe rnd sat p) : landing f = .addAcc fmt vs pe rnd sat p := by
  simp only [landing, hp]

theorem landOne_nothing (hn : bringsNothing f = true) : landOne h f = h := if_pos hn

theorem landOne_w {k : Nat} {w : TW} (hd : f.dest = .w k) (hl : landing f = .word w) :
    landOne h f = setFu h f.g (setBank (fu h f.g) f.bank (markDirty (withW (bankOf (fu h f.g) f.bank) k w) (k / 4))) := by
  have brings : bringsNothing f = false := bringsNothing_of_dest (by simp [hd])
  simp only [landOne, brings, hd, hl, Bool.false_eq_true, if_false]
  rfl

theorem landOne_setAcc {k : Nat} {a : Accum} (hd : f.dest = .acc k) (hl : landing f = .setAcc a) (hn : bringsNothing f = false) :
    landOne h f = setFu h f.g (setBank (fu h f.g) f.bank (markDirty (withAcc (bankOf (fu h f.g) f.bank) k a) 4)) := by
  simp only [landOne, hn, hd, hl, Bool.false_eq_true, if_false]
  rfl

/-- The addend's flags are `SATD` and `ACCOVF` only. -/
theorem setFlags_ofSum (h : Hw) (g c : Nat) (out sat : Bool) :
    setFlags h g c { Flags.none with accovf := out, satd := out && sat } =
      setCstIf (setCstIf h g c fFU_CST_SATD (out && sat)) g c fFU_CST_ACCOVF out := rfl

theorem landOne_addAcc {k fmt : Nat} {vs : List Int} {pe : Int} {rnd : Rnd} {sat p : Bool} (hd : f.dest = .acc k)
    (hp : f.pay = .addAcc fmt vs pe rnd sat p) :
    landOne h f =
      setCstIf (setCstIf (setFu h f.g (setBank (fu h f.g) f.bank (markDirty (withAcc (bankOf (fu h f.g) f.bank) k
          ((accOf (bankOf (fu h f.g) f.bank) k).accumulate fmt vs pe rnd sat p).1) 4)))
        f.g f.ctx fFU_CST_SATD (((accOf (bankOf (fu h f.g) f.bank) k).accumulate fmt vs pe rnd sat p).2 && sat))
        f.g f.ctx fFU_CST_ACCOVF ((accOf (bankOf (fu h f.g) f.bank) k).accumulate fmt vs pe rnd sat p).2 := by
  have brings : bringsNothing f = false := bringsNothing_of_pay (by simp [hp])
  simp only [landOne, brings, hd, landing_addAcc hp, Bool.false_eq_true, if_false]
  exact setFlags_ofSum _ _ _ _ _

theorem landOne_out0 {w : TW} (hd : f.dest = .out 0) (hl : landing f = .word w) :
    landOne h f = setFu h f.g (withOut0 (fu h f.g) ⟨w, yardCycle h (f.g / 128)⟩) := by
  have brings : bringsNothing f = false := bringsNothing_of_dest (by simp [hd])
  simp only [landOne, brings, hd, hl, Bool.false_eq_true, if_false]
  rfl

theorem landOne_out1 {w : TW} (hd : f.dest = .out 1) (hl : landing f = .word w) :
    landOne h f = setFu h f.g (withOut1 (fu h f.g) ⟨w, yardCycle h (f.g / 128)⟩) := by
  have brings : bringsNothing f = false := bringsNothing_of_dest (by simp [hd])
  simp only [landOne, brings, hd, hl, Bool.false_eq_true, if_false]
  rfl

theorem landOne_trough {key pos : Nat} {w : TW} (hd : f.dest = .trough key pos) (hl : landing f = .word w) :
    landOne h f = landWord h key pos w := by
  have brings : bringsNothing f = false := bringsNothing_of_dest (by simp [hd])
  simp only [landOne, brings, hd, hl, Bool.false_eq_true, if_false]

end

/-- RESULT_LAND with one result due lands it, once it is out of flight. -/
theorem givesHw_resultLand {g : Fin 2048} {f : Flight} {s : State} {h : Hw} (hr : arrayRuns s.hw (g / 128) = true)
    (due : dueFlights (judgePen s.mem s.hw (g / 16)) g = [f])
    (land : landOne (landedOut (judgePen s.mem s.hw (g / 16)) g) f = h) : GivesHw (.resultLand g) s h := by
  have step : landResults s.mem s.hw g = h := by
    unfold landResults
    rw [if_neg (by simp [hr])]
    dsimp only
    rw [due]
    exact land
  exact congrArg (fun x => Host.Outcome.next { s with hw := x }) step

theorem yardCycle_landedOut (m : Sparse Byte) (h : Hw) (n g y : Nat) :
    yardCycle (landedOut (judgePen m h n) g) y = yardCycle h y := yardCycle_judgePen m h n y

/-! ## What a LOAD lands (R172, R174) -/

theorem landing_load {f : Flight} {n w fmt : Nat} {e : Ecc} {r : LoadRead} (hp : f.pay = .load n w fmt e r)
    (hd : ∀ k, f.dest ≠ .acc k) : landing f = .word (loadWord r) := by
  unfold landing
  rw [hp]
  dsimp only
  split
  · rename_i k he
    exact absurd he (hd k)
  · rfl

theorem landing_load_acc {f : Flight} {n w fmt k : Nat} {e : Ecc} {r : LoadRead} (hp : f.pay = .load n w fmt e r)
    (hd : f.dest = .acc k) : landing f = .setAcc (Accum.ofWord fmt (loadWord r)) := by
  simp only [landing, hp, hd]

theorem bringsNothing_load {f : Flight} {n w fmt k : Nat} {e : Ecc} {r : LoadRead} (hp : f.pay = .load n w fmt e r)
    (hd : f.dest = .acc k) : bringsNothing f = !(loadWord r).v := by
  simp only [bringsNothing, hp, hd]

/-! ## A crossing delivers (R108) -/

theorem givesHw_crossing {g : Fin 2048} {t : Fin 12} {g2 : Nat} {x : XWord} {ws : List XWord} {s : State}
    (far : farEnd g t = some g2) (hr : arrayRuns s.hw (g2 / 128) = true) (edge : onEdge s.hw (g2 / 128) = true)
    (due : s.hw.arr.xq.filter (fun w => w.key = 12 * g.val + t.val ∧ w.due ≤ s.hw.aclk) = ws ++ [x]) :
    GivesHw (.yardCrossingDelivery g t false) s
      (presented (if ws.length = 0 then s.hw else bump s.hw (aPEN_XLOST (g / 16)) fPEN_XLOST_XCLOST ws.length)
        (12 * g + t) x (yardCycle s.hw (g2 / 128))) := by
  have last : (ws ++ [x]).getLast? = some x := List.getLast?_concat
  have lost : (ws ++ [x]).length - 1 = ws.length := by simp
  have step : deliverCrossing s.hw g t false =
      presented (if ws.length = 0 then s.hw else bump s.hw (aPEN_XLOST (g / 16)) fPEN_XLOST_XCLOST ws.length)
        (12 * g + t) x (yardCycle s.hw (g2 / 128)) := by
    unfold deliverCrossing
    simp only [far, hr, edge, due, last, lost, and_self, not_true, if_false, Bool.false_eq_true]
    unfold presented
    split
    · rfl
    · rw [bump_aclk]
  exact congrArg (fun x => Host.Outcome.next { s with hw := x }) step

end Sys2Proof.Machine

open Sys2Proof Sys2Proof.Machine

/-- Settles O10: the one result due lands by the case of its destination, and a crossing presents the last word due. -/
theorem resultsLandInTheirDestinations : Obligations.ResultsLandInTheirDestinations := by
  refine ⟨?_, ?_, ?_, ?_, ?_, ?_, ?_, ?_, ?_, ?_, ?_⟩
  · rintro g f k w s hr due hg hd hl
    exact givesHw_resultLand hr due (by rw [landOne_w hd hl, hg]; rfl)
  · rintro g f k a s hr due hg hd hl hn
    exact givesHw_resultLand hr due (by rw [landOne_setAcc hd hl hn, hg]; rfl)
  · rintro g f k s hr due - - hn
    exact givesHw_resultLand hr due (landOne_nothing hn)
  · rintro g f k fmt vs pe rnd sat p s hr due hg hd hp
    exact givesHw_resultLand hr due (by rw [landOne_addAcc hd hp, hg]; rfl)
  · rintro g f w s hr due hg hd hl
    exact givesHw_resultLand hr due (by rw [landOne_out0 hd hl, hg, yardCycle_landedOut]; rfl)
  · rintro g f w s hr due hg hd hl
    exact givesHw_resultLand hr due (by rw [landOne_out1 hd hl, hg, yardCycle_landedOut]; rfl)
  · rintro g f key pos w s hr due - hd hl
    exact givesHw_resultLand hr due (landOne_trough hd hl)
  · rintro f n w fmt e r hp hd
    exact landing_load hp hd
  · rintro f n w fmt e r k hp hd
    refine ⟨landing_load_acc hp hd, ?_⟩
    rw [bringsNothing_load hp hd]
    cases r with
    | waiting => exact iff_of_true rfl rfl
    | lost => exact iff_of_true rfl rfl
    | got t => exact iff_of_eq (Bool.not_eq_true' t.v)
  · rintro g t g2 x s far hr edge due
    exact givesHw_crossing (ws := []) far hr edge due
  · rintro g t g2 x ws s far hr edge due some
    have h := givesHw_crossing far hr edge due
    rwa [if_neg (by simpa using some)] at h
end

section
/-!
PROOF. Status bits stay set while others are set, and a landing that leaves its range sets them.
-/

namespace Sys2Proof.Machine

/-! ## Status bits (R66) -/

/-- A one-bit field is the bit at its place. -/
theorem isSet_eq_getLsbD (h : Hw) (a : Nat) {f : Fld} (hf : f.w = 1) : isSet h a f = (reg h a).getLsbD f.lo := by
  simp only [isSet, getF, fieldOf, hf, Nat.pow_one, BitVec.getLsbD, Nat.testBit_eq_decide_div_mod_eq]
  generalize (reg h a).toNat / 2 ^ f.lo = q
  rcases Nat.mod_two_eq_zero_or_one q with e | e <;> simp [e]

/-- Setting a one-bit field to 1 is an OR of its bit. -/
theorem putField_one {f : Fld} (hf : f.w = 1) (hl : f.lo < 64) (v : BitVec 64) :
    BitVec.ofNat 64 (putField f v.toNat 1) = v ||| BitVec.twoPow 64 f.lo := by
  have bit : v.getLsbD f.lo = decide (v.toNat / 2 ^ f.lo % 2 = 1) := Nat.testBit_eq_decide_div_mod_eq
  simp only [putField, fieldOf, hf, Nat.pow_one, Nat.one_mod, Nat.one_mul]
  rcases Nat.mod_two_eq_zero_or_one (v.toNat / 2 ^ f.lo) with e | e <;> rw [e] at bit ⊢
  · have apart : v &&& BitVec.twoPow 64 f.lo = 0#64 := by
      rw [BitVec.and_twoPow, bit]
      rfl
    have power : BitVec.ofNat 64 (2 ^ f.lo) = BitVec.twoPow 64 f.lo := BitVec.eq_of_toNat_eq (BitVec.toNat_twoPow 64 f.lo).symm
    rw [← BitVec.add_eq_or_of_and_eq_zero v _ apart, Nat.zero_mul, Nat.sub_zero, BitVec.ofNat_add, BitVec.ofNat_toNat,
      BitVec.setWidth_eq, power]
  · have has : 2 ^ f.lo ≤ v.toNat := Nat.le_of_not_lt fun lt => by simp [Nat.div_eq_of_lt lt] at e
    have there : v ||| BitVec.twoPow 64 f.lo = v := by
      ext i hi
      simp only [BitVec.getElem_or, BitVec.getElem_twoPow, Bool.or_eq_left_iff_imp, decide_eq_true_eq]
      rintro rfl
      exact (BitVec.getLsbD_eq_getElem hl).symm.trans bit
    rw [there, Nat.one_mul, Nat.sub_add_cancel has, BitVec.ofNat_toNat, BitVec.setWidth_eq]

theorem reg_raiseBit_same (h : Hw) (a : Nat) {f : Fld} (hf : f.w = 1) (hl : f.lo < 64) :
    reg (raiseBit h a f) a = reg h a ||| BitVec.twoPow 64 f.lo := by
  rw [← putField_one hf hl]
  exact reg_setReg_same h a _

theorem reg_raiseBit_ne (h : Hw) {a b : Nat} (f : Fld) (hb : b ≠ a) : reg (raiseBit h a f) b = reg h b := reg_setF_ne h f 1 hb

/-- Every register bit that was set stays set. -/
def BitsKept (h t : Hw) : Prop := ∀ a i, (reg h a).getLsbD i = true → (reg t a).getLsbD i = true

theorem BitsKept.same (h : Hw) : BitsKept h h := fun _ _ hb => hb

theorem BitsKept.trans {a b c : Hw} (h1 : BitsKept a b) (h2 : BitsKept b c) : BitsKept a c := fun r i hb => h2 r i (h1 r i hb)

theorem bitsKept_of_regs {h t : Hw} (same : t.regs = h.regs) : BitsKept h t := fun a i hb => by rwa [reg, same]

theorem BitsKept.isSet {h t : Hw} (ht : BitsKept h t) {a : Nat} {f : Fld} (hf : f.w = 1) (hs : isSet h a f = true) :
    isSet t a f = true := by
  rw [isSet_eq_getLsbD _ _ hf] at *
  exact ht a f.lo hs

theorem bitsKept_setReg_or {h h' : Hw} (same : h'.regs = h.regs) (a : Nat) (v : BitVec 64) :
    BitsKept h (setReg h' a (reg h a ||| v)) := by
  intro b i hb
  by_cases e : b = a
  · subst e
    rw [reg_setReg_same, BitVec.getLsbD_or, hb, Bool.true_or]
  · rwa [reg_setReg_ne h' _ e, reg, same]

theorem raiseBit_keepsBits (h : Hw) (a : Nat) {f : Fld} (hf : f.w = 1) (hl : f.lo < 64) : BitsKept h (raiseBit h a f) := by
  intro b i hb
  by_cases e : b = a
  · subst e
    rw [reg_raiseBit_same h _ hf hl, BitVec.getLsbD_or, hb, Bool.true_or]
  · rwa [reg_raiseBit_ne h f e]

theorem raiseEventAt_keepsBits (h : Hw) (y e cyc : Nat) : BitsKept h (raiseEventAt h y e cyc) := by
  unfold raiseEventAt
  split
  · exact BitsKept.same h
  · extract_lets a hits src h1
    clear_value a
    have kept : BitsKept h h1 := bitsKept_setReg_or (h := h) rfl a _
    clear_value h1
    split
    · exact kept.trans (bitsKept_of_regs rfl)
    · exact kept

theorem setCst_keepsBits (h : Hw) (g c : Nat) {f : Fld} (hf : f.w = 1) (hl : f.lo < 64) : BitsKept h (setCst h g c f) := by
  have raised := raiseBit_keepsBits h (aFU_CST g c) hf hl
  unfold setCst
  dsimp only
  split
  · exact raised
  · split
    · exact raised.trans (raiseEventAt_keepsBits _ _ _ _)
    · exact raised

theorem setCst_sets (h : Hw) (g c : Nat) {f : Fld} (hf : f.w = 1) (hl : f.lo < 64) :
    isSet (setCst h g c f) (aFU_CST g c) f = true := by
  have raised : isSet (raiseBit h (aFU_CST g c) f) (aFU_CST g c) f = true := by
    rw [isSet_eq_getLsbD _ _ hf, reg_raiseBit_same h _ hf hl]
    simp [hl]
  unfold setCst
  dsimp only
  split
  · exact raised
  · split
    · exact (raiseEventAt_keepsBits _ _ _ _).isSet hf raised
    · exact raised

theorem setCstIf_true (h : Hw) (g c : Nat) (f : Fld) : setCstIf h g c f true = setCst h g c f := if_pos rfl

/-- The flags of a sum that left its range: `ACCOVF`, and `SATD` where SAT clamped it. -/
theorem accovf_flagged (h : Hw) (g c : Nat) (sat : Bool) {left : Bool} (hl : left = true) :
    isSet (setCstIf (setCstIf h g c fFU_CST_SATD (left && sat)) g c fFU_CST_ACCOVF left) (aFU_CST g c) fFU_CST_ACCOVF = true ∧
      (sat = true →
        isSet (setCstIf (setCstIf h g c fFU_CST_SATD (left && sat)) g c fFU_CST_ACCOVF left) (aFU_CST g c) fFU_CST_SATD = true) := by
  rw [hl, Bool.true_and, setCstIf_true]
  refine ⟨setCst_sets _ g c rfl (by decide), fun clamps => ?_⟩
  rw [clamps, setCstIf_true]
  exact (setCst_keepsBits _ g c rfl (by decide)).isSet rfl (setCst_sets h g c rfl (by decide))

end Sys2Proof.Machine

open Sys2Proof Sys2Proof.Machine

/-- Settles O16: lane by lane, and with the flags that the landing of the addend sets last. -/
theorem laneSumsAreLimitedAndFlagged : Obligations.LaneSumsAreLimitedAndFlagged := by
  refine ⟨fun sat w xs ys same => ⟨addLanes_lanes sat w same, addLanes_leaves_iff sat w xs ys⟩,
    fun sat w t lo hi => limitTo_inside sat lo hi, fun w t _ out => limitTo_clamps out, fun w t hw out => limitTo_wraps hw out, ?_⟩
  intro g f k fmt vs pe rnd sat p s hr due hg hd hp left
  refine ⟨_, givesHw_resultLand hr due (landOne_addAcc hd hp), ?_⟩
  rw [hg]
  exact accovf_flagged _ _ _ _ left
end

section
/-!
PROOF. Steps of an FU whose context has no number, in the state that refutes O8: the flags that a step notes there are the
divide of its yard, so that the step's results fall due later than the statements place them. The statements hold the FU's
context to no range, and a context of 0 to 15 has no status register but its own.
-/

namespace Sys2Proof.Machine

/-- The state of `strayState` with another step about to issue. -/
def strayAt (opc : Nat) (u : UStep) : State :=
  { strayState with mem := writeBytes [] (roundAddr 0 strayContext 0) (leBytes 8 (packStep opc u)) }

/-- A step to W0 in B16x2 whose operand A is ACC0, of which the exponent leaves the format, and whose operand B is the zero
word. -/
def accumToW0 : UStep := ⟨6, 0, 0x14, 0x17, 0, 0, 0, 0⟩

/-- When each result in flight falls due. -/
def dueTimes (fs : List Flight) : List Nat := fs.map (·.due)

theorem dueTimes_landingOf_w0 (h : Hw) (l fmt : Nat) (w : TW) : dueTimes (landingOf h 0 l fmt 0 w) = [dueIn h 0 l] := rfl

/-- A result on its way to W0 cannot fall due at two times. -/
theorem dueTimes_conflict {fs : List Flight} {h : Hw} {l fmt a b : Nat} {w : TW} (due : dueTimes fs = [a])
    (sent : fs = [] ++ landingOf h 0 l fmt 0 w) (stated : dueIn h 0 l = b) : a = b := by
  rw [sent, List.nil_append, dueTimes_landingOf_w0, stated] at due
  exact (List.singleton_inj.mp due).symm

/-! ## MOV, BMUL and CLRP of the accumulator: where the yard is not divided when they issue, and where it is -/

theorem strayAt_mov_fires : StepFires (strayAt 0x01 accumToW0) 0 0x01 accumToW0 opMov := by decide +kernel
theorem strayAt_mov_undivided : dueIn (readied (strayAt 0x01 accumToW0) 0) 0 1 = 1 := by decide +kernel
theorem strayAt_mov_due :
    dueTimes (fuStep (strayAt 0x01 accumToW0).mem 0x01 opMov 0 accumToW0 noAction strayState.hw).arr.flights = [4] := by
  decide +kernel

theorem strayAt_bmul_fires : StepFires (strayAt 0x56 accumToW0) 0 0x56 accumToW0 opBmul := by decide +kernel
theorem strayAt_bmul_undivided : dueIn (readied (strayAt 0x56 accumToW0) 0) 0 4 = 4 := by decide +kernel
theorem strayAt_bmul_due :
    dueTimes (fuStep (strayAt 0x56 accumToW0).mem 0x56 opBmul 0 accumToW0 noAction strayState.hw).arr.flights = [16] := by
  decide +kernel

theorem strayAt_clrp_fires : StepFires (strayAt 0x92 accumToW0) 0 0x92 accumToW0 opClrp := by decide +kernel
theorem strayAt_clrp_undivided : dueIn (readied (strayAt 0x92 accumToW0) 0) 0 1 = 1 := by decide +kernel
theorem strayAt_clrp_due :
    dueTimes (fuStep (strayAt 0x92 accumToW0).mem 0x92 opClrp 0 accumToW0 noAction strayState.hw).arr.flights = [4] := by
  decide +kernel

/-! ## The register of the yard's divide -/

theorem strayAt_mov_divides :
    reg (fuStep (strayAt 0x01 accumToW0).mem 0x01 opMov 0 accumToW0 noAction strayState.hw) (aYP_STAT 0) ≠
      reg strayState.hw (aYP_STAT 0) := by
  decide +kernel

/-- The status of a yard's clock is none of the registers that a step of an FU may write. -/
theorem yardStatus_untouched (g : Fin 2048) (y : Nat) : ¬ fuTouches g (aYP_STAT y) := by
  have hg := g.isLt
  simp only [fuTouches, aYP_STAT, aFU_CST, aFU_EPOCH, aSCH_EVSEEN, aTRG_STAT, aTRG_ECC, aPM_ECC, aPEN_STALL, aAL_STAT, fuBase,
    penBase, yardBase, regionBase]
  rintro (⟨c, hc, e⟩ | e | ⟨c, hc, e⟩ | ⟨c, hc, e | e⟩ | e | e | e) <;> omega

end Sys2Proof.Machine

open Sys2Proof Sys2Proof.Machine

/-- Refutes O5: MOV of the accumulator notes its `EOVF` as a divide of the yard by 4, before its word is put in flight, and the
word falls due at ACLK 4; the statement places it at 1. -/
theorem not_wordStepsLaunchTheirResults : ¬ Obligations.WordStepsLaunchTheirResults := by
  rintro ⟨launch, -, -⟩
  obtain ⟨t, ht, -, sent⟩ :=
    launch ⟨0, by decide⟩ 0 accumToW0 _ _ (strayAt 0x01 accumToW0) strayAt_mov_fires (by decide) (by decide) rfl
  cases ht
  exact absurd (dueTimes_conflict strayAt_mov_due sent strayAt_mov_undivided) (by decide)

/-- Refutes O6: BMUL of the accumulator sends its product to W0 for ACLK 16, and the statement places it at 4. -/
theorem not_productAndAccumulatingStepsLaunch : ¬ Obligations.ProductAndAccumulatingStepsLaunch := by
  rintro ⟨launch, -⟩
  obtain ⟨t, ht, -, sent⟩ :=
    launch ⟨4, by decide⟩ 0 accumToW0 _ _ _ (strayAt 0x56 accumToW0) strayAt_bmul_fires (by decide) rfl
  cases ht
  exact absurd (dueTimes_conflict strayAt_bmul_due sent strayAt_bmul_undivided) (by decide)

/-- Refutes O7: CLRP of the accumulator sends its word to W0 for ACLK 4, and the statement places it at 1. -/
theorem not_tagStepsAndSelvLaunchTheirResults : ¬ Obligations.TagStepsAndSelvLaunchTheirResults := by
  rintro ⟨-, -, -, -, launch, -⟩
  obtain ⟨t, ht, -, sent⟩ := launch 0 accumToW0 (strayAt 0x92 accumToW0) strayAt_clrp_fires (by decide) (by decide)
  cases ht
  exact absurd (dueTimes_conflict strayAt_clrp_due sent strayAt_clrp_undivided) (by decide)

/-- Refutes O11: the same MOV changes the status of the yard's clock, which the statement has steps of an FU leave alone. -/
theorem not_functionUnitFrame : ¬ Obligations.FunctionUnitFrame := by
  rintro ⟨frame, -⟩
  obtain ⟨t, ht, -, -, regs, -⟩ := frame .ok ⟨0, by decide⟩ 0 accumToW0 (strayAt 0x01 accumToW0)
  cases ht
  exact strayAt_mov_divides (regs _ (yardStatus_untouched 0 0))
end

section
/-!
PROOF. A step: the command at the front of the queue, or one cycle.
-/

namespace Sys2Proof.Machine

theorem step_front {s : State} {c : Instr} {rest : List Instr} (h : s.pending = c :: rest) :
    step s = exec c { s with pending := rest } := by
  simp only [step, h]

theorem step_empty {s : State} (h : s.pending = []) : step s = .next (tick s) := by
  simp only [step, h]

/-- No cycle passes while FROZEN or with the root PLL not locked (R444). -/
theorem tick_stopped {s : State} (h : s.hw.mode = .frozen ∨ s.hw.locked = false) : tick s = s :=
  if_pos (h.imp_right (Bool.not_eq_true _).mpr)

end Sys2Proof.Machine

open Sys2Proof Sys2Proof.Machine

/-- Settles O1: the two branches of a step, and the branch of a cycle in which nothing passes. -/
theorem stepRunsTheFrontCommand : Obligations.StepRunsTheFrontCommand :=
  ⟨fun _ _ _ front => step_front front, fun _ empty => step_empty empty,
    fun _ empty stopped => (step_empty empty).trans (congrArg Host.Outcome.next (tick_stopped stopped))⟩
end

section
/-!
PROOF. The clock of a yard stops after a request has come too late to abort its power-down: the yard takes requests again
once it has woken, where O24 would have them wait for another wake.
-/

namespace Sys2Proof.Machine

/-- The device in RUN. Yard 0 waits to go to SLEEP, and what it waits for is over. -/
def sleepAsked : State :=
  { State.reset with
    hw := { Hw.reset with
      clocked := true, locked := true, yardsUp := true, mode := .run, phase := .ready
      pw := [(0, { YardPw.reset with want := some 1 })] } }

/-- The same once the header of a request has come after the point of no return (R241). -/
def lateRequest : State := { sleepAsked with hw := headerAt sleepAsked.hw (yardRouter 0) true }

/-- A yard's power-down has passed its point of no return (R241). -/
def pointPassed (h : Hw) (y : Nat) : Bool := (yardPw h y).past

/-- The clock of yard 0 stops at this edge. -/
theorem lateRequest_ready :
    (yardPw lateRequest.hw 0).want = some 1 ∧ frozen lateRequest.hw = false ∧ lateRequest.hw.aclk % 4 = 0 ∧
      anyHeld lateRequest.hw 0 = false ∧ anyLoad lateRequest.hw 0 = false ∧ noRequests lateRequest.hw 0 = true := by
  decide +kernel

theorem pointPassed_clockStop_lateRequest : pointPassed (clockStop lateRequest.hw 0) 0 = false := by decide +kernel

theorem clockStop_of_givesHw {y : Fin 16} {s : State} {h : Hw} (gives : GivesHw (.yardClockStop y) s h) : clockStop s.hw y = h :=
  congrArg State.hw (Host.Outcome.next.inj gives)

end Sys2Proof.Machine

open Sys2Proof Sys2Proof.Machine

/-- Refutes O24, whose clause on a clock that stops for SLEEP fails in `lateRequest`: the stop ends the power-down and clears
the note that its point of no return has passed, and the statement leaves that note set. -/
theorem not_yardPowerCommandsAct : ¬ Obligations.YardPowerCommandsAct := by
  rintro ⟨-, -, -, -, -, -, -, -, -, -, -, -, -, -, -, -, -, -, stops, -⟩
  obtain ⟨want, running, edge, held, load, requests⟩ := lateRequest_ready
  have stated := clockStop_of_givesHw (stops 0 lateRequest want running edge held load requests)
  exact absurd ((congrArg (pointPassed · 0) stated).symm.trans pointPassed_clockStop_lateRequest) (by decide +kernel)
end

section
/-!
PROOF. A command put to this device alone, where no check turns it away, is its body, answered.
-/

namespace Sys2Proof.Machine

/-- What the MP does with what a body gives: it answers, notes that the command runs, or leaves it for later (R351, R353). -/
def afterBody (sl : Nat) : State × Reply → State
  | (t, .done status resp) => onHw t fun h => reply h sl status resp
  | (t, .running total) => onHw t fun h => becomeRunning h sl total
  | (t, .later) => t

/-! ## The common checks (R353, R361) -/

section
variable {s : State} {sl : Fin 48} {opc : Nat} {valid : Slot → Hw → Bool} {body : Slot → State → State × Reply}

/-- A command that starts for this device alone is put to it, and is forwarded to none. -/
theorem command_of_starts (hs : Starts s sl opc) : command opc s sl valid body = runLocal (asked s sl) sl valid body := by
  obtain ⟨taken, code, fresh, alone, room, runs⟩ := hs
  have own : (if 16 ≤ sl.val ∧ sl.val < 32 then [selfAddr s.hw] else targetsOf s.hw (slot s.hw sl).tgt) = [selfAddr s.hw] := by
    split
    · rfl
    · rename_i host
      exact alone.resolve_left host
  have credits : creditsFor s.hw [] = true := by simpa [creditsFor] using room
  simp [command, own, taken, code, fresh, runs, credits, applyAll, asked, onHw]

theorem held_opc (hs : Starts s sl opc) : (held s sl).opc = opc := by
  obtain ⟨-, code, -⟩ := hs
  rw [held, asked, onHw_hw, slot_setSlot_same, code]

/-- Where the fields fit too, the body runs. -/
theorem command_of_ready (hr : Ready s sl opc) (hv : valid (held s sl) (asked s sl).hw = true) :
    command opc s sl valid body = afterBody sl (body (held s sl) (asked s sl)) := by
  obtain ⟨hs, clear, mode, idle⟩ := hr
  have unblocked : ¬ ((asked s sl).hw.mode = .isolated ∧ 3 ≤ (held s sl).opc / 256 ∨
      longBusy (asked s sl).hw (held s sl).opc = true) := by
    rw [held_opc hs, idle]
    rintro (⟨isolated, late⟩ | busy)
    · exact absurd (mode isolated) (Nat.not_lt.mpr late)
    · cases busy
  rw [command_of_starts hs, runLocal, if_neg (by simp [clear, hv]), if_neg unblocked]
  rfl

end

/-! ## The kinds of bodies -/

section
variable {i : Instr} {s : State} {sl : Fin 48} {opc : Nat} {valid : Slot → Hw → Bool}

theorem givesHw_acts {f : Slot → Hw → Hw × Nat} (he : exec i s = .next (command opc s sl valid (acts f)))
    (hr : Ready s sl opc) (hv : valid (held s sl) (asked s sl).hw = true) {h : Hw} {status : Nat}
    (hf : f (held s sl) (asked s sl).hw = (h, status) := by rfl) : GivesHw i s (reply h sl status []) := by
  rw [GivesHw, he, command_of_ready hr hv, acts, hf]
  rfl

theorem givesHw_answers {f : Slot → Hw → List Byte × Hw} (he : exec i s = .next (command opc s sl valid (answers f)))
    (hr : Ready s sl opc) (hv : valid (held s sl) (asked s sl).hw = true) {r : List Byte × Hw}
    (hf : f (held s sl) (asked s sl).hw = r := by rfl) : GivesHw i s (replied sl r) := by
  rw [GivesHw, he, command_of_ready hr hv, answers, hf]
  rfl

theorem givesMem_actsMem {f : Slot → Sparse Byte → Hw → (Sparse Byte × Hw) × Nat}
    (he : exec i s = .next (command opc s sl valid (actsMem f))) (hr : Ready s sl opc)
    (hv : valid (held s sl) (asked s sl).hw = true) {r : (Sparse Byte × Hw) × Nat}
    (hf : f (held s sl) s.mem (asked s sl).hw = r := by rfl) : GivesMem i s (r.1.1, reply r.1.2 sl r.2 []) := by
  subst hf
  rw [GivesMem, he, command_of_ready hr hv]
  rfl

end

/-! ## The load of a context (R124) -/

section
variable {s : State} {sl : Fin 48} {r : (Sparse Byte × Hw) × Bool} (ready : Ready s sl 0x500) (pn : pay (held s sl) 0 1 < 128)
  (ctx : pay (held s sl) 1 1 < 16)
  (load : startLoad s.mem (asked s sl).hw (pay (held s sl) 0 1) (pay (held s sl) 1 1) none = r)
include ready pn ctx load

theorem exec_ctxLoad : exec (.ctxLoad sl) s = .next (afterBody sl (
    if r.2 then ({ s with mem := r.1.1, hw := r.1.2 }, .done stWrong [])
    else if (pen r.1.2 (pay (held s sl) 0 1)).load.isSome then
      ({ s with mem := r.1.1, hw := loadAwaited r.1.2 (pay (held s sl) 0 1) }, .later)
    else ({ s with mem := r.1.1, hw := r.1.2 }, .done stOk []))) := by
  subst load
  exact congrArg Host.Outcome.next (command_of_ready ready (by simp [pn, ctx]))

theorem ctxLoad_resident (starts : r.2 = false) (still : (pen r.1.2 (pay (held s sl) 0 1)).load = none) :
    GivesMem (.ctxLoad sl) s (r.1.1, acted sl r.1.2) := by
  rw [GivesMem, exec_ctxLoad ready pn ctx load, starts, still]
  rfl

theorem ctxLoad_waits (starts : r.2 = false) (moves : (pen r.1.2 (pay (held s sl) 0 1)).load.isSome = true) :
    GivesMem (.ctxLoad sl) s (r.1.1, loadAwaited r.1.2 (pay (held s sl) 0 1)) := by
  rw [GivesMem, exec_ctxLoad ready pn ctx load, starts, moves]
  rfl

theorem ctxLoad_fails (fails : r.2 = true) : GivesMem (.ctxLoad sl) s (r.1.1, reply r.1.2 sl stWrong []) := by
  rw [GivesMem, exec_ctxLoad ready pn ctx load, fails]
  rfl

end

section
variable {h : Hw} {sl : Nat} (runs : frozen h = false) (taken : (slot h sl).st = .taken) (code : (slot h sl).opc = 0x500)
  (mine : (slot h sl).left = 2 ^ selfAddr h) (only : h.slots = [(sl, slot h sl)])
include runs taken code mine only

/-- The one slot that holds a `CTX_LOAD` is answered once its load has ended. -/
theorem settleCtxLoads_answers {st : Nat} {resp : List Byte} (ends : ctxLoadEnd h (slot h sl) = some (st, resp)) :
    settleCtxLoads h = reply h sl st resp := by
  have here : (slot h sl).left.testBit (selfAddr h) = true := by rw [mine, Nat.testBit_two_pow_self]
  simp [settleCtxLoads, runs, answerLater, only, applyAll, taken, code, here, ends]

theorem settleCtxLoads_waits (ends : ctxLoadEnd h (slot h sl) = none) : settleCtxLoads h = h := by
  have here : (slot h sl).left.testBit (selfAddr h) = true := by rw [mine, Nat.testBit_two_pow_self]
  simp [settleCtxLoads, runs, answerLater, only, applyAll, taken, code, here, ends]

end

theorem ctxLoadEnd_ended {h : Hw} {x : Slot} {ok : Bool} (ended : (pen h (pay x 0 1)).loadRes = some ok) :
    ctxLoadEnd h x = some (if ok then stOk else stWrong, []) := by
  rw [ctxLoadEnd, ended]

theorem ctxLoadEnd_loading {h : Hw} {x : Slot} (unended : (pen h (pay x 0 1)).loadRes = none)
    (load : (pen h (pay x 0 1)).load.isSome = true) : ctxLoadEnd h x = none := by
  rw [ctxLoadEnd, unended]
  exact if_neg (by simpa [Option.isSome_iff_ne_none] using load)

/-! ## Functions and ports -/

theorem configFn_refused {m : Sparse Byte} {h : Hw} {id : Nat} {rs : List (Nat × Nat × Nat)}
    (bad : fnValid id = false ∨ (rs.all fun r => recordFits h id r) = false) : configFn m h id rs = ((m, h), stInvalid) :=
  if_pos (bad.imp (fun e => by simp [e]) (fun e => by simp [e]))

theorem startFn_running {m : Sparse Byte} {h : Hw} {id : Nat} (runs : fnRunning h id = true) :
    startFn m h id = ((m, h), stOk) := if_pos runs

theorem portFn_of_kind {x : Slot} {k : Nat} (fn : fnValid (pay x 0 2) = true) (kind : pay x 0 2 / 256 = k) (port : k < 3) :
    portFn x = true := by simp [portFn, fn, kind, port]

end Sys2Proof.Machine

open Sys2Proof Sys2Proof.Machine

/-- Settles O45: each command is its body, answered, and each body is read off its definition. -/
theorem functionContextAndPortCommandsRun : Obligations.FunctionContextAndPortCommandsRun := by
  refine ⟨?stop, ?config, ?start, ?configNone, ?startRunning, ?status, ?resident, ?waits, ?fails, ?ended, ?loading, ?context,
    ?task, ?taskState, ?bell, ?bells, ?source, ?noSource, ?jesd, ?eth, ?clearEth, ?clearJesd, ?shaper, ?both, ?first, ?second,
    ?neither⟩
  case stop => exact fun sl s ready fn => givesHw_acts rfl ready fn
  case config => exact fun sl r s ready fn e => givesMem_actsMem rfl ready fn e.symm
  case start => exact fun sl s ready fn => givesMem_actsMem rfl ready fn
  case configNone => exact fun h id rs bad => configFn_refused bad
  case startRunning => exact fun h id runs => startFn_running runs
  case status => exact fun sl s ready fn => givesHw_answers rfl ready fn (r := (_, (asked s sl).hw))
  case resident => exact fun sl s ready pn ctx starts still => ctxLoad_resident ready pn ctx rfl starts still
  case waits => exact fun sl s ready pn ctx starts moves => ctxLoad_waits ready pn ctx rfl starts moves
  case fails => exact fun sl s ready pn ctx fails => ctxLoad_fails ready pn ctx rfl fails
  case ended =>
    rintro h sl x ok runs rfl taken code mine only ended
    exact settleCtxLoads_answers runs taken code mine only (ctxLoadEnd_ended ended)
  case loading =>
    rintro h sl x runs rfl taken code mine only unended load
    exact settleCtxLoads_waits runs taken code mine only (ctxLoadEnd_loading unended load)
  case context => exact fun sl s ready pn => givesHw_answers rfl ready (by simp [pn])
  case task => exact fun sl r s ready yard entry e => givesMem_actsMem rfl ready (by simp [yard, entry]) e.symm
  case taskState => exact fun sl s ready yard => givesHw_answers rfl ready (by simp [yard])
  case bell =>
    intro sl s ready yard
    have one : pay (held s sl) 0 1 ≠ 0xFF := by omega
    exact givesHw_acts rfl ready (by simp [yard]) (by simp [one, applyAll])
  case bells => exact fun sl s ready all => givesHw_acts rfl ready (by simp [all]) (by simp [all])
  case source => exact fun sl s ready yard event lo hi => givesHw_acts rfl ready (by simp [yard, event, lo, hi])
  case noSource => exact fun sl s ready lo hi => givesHw_acts rfl ready (by simp [lo, hi])
  case jesd =>
    exact fun sl s ready fn kind => givesHw_answers rfl ready (portFn_of_kind fn kind (by decide)) (if_pos kind)
  case eth =>
    exact fun sl s ready fn kind => givesHw_answers rfl ready (portFn_of_kind fn kind (by decide)) (if_neg (by omega))
  case clearEth =>
    exact fun sl s ready fn kind => givesHw_acts rfl ready (portFn_of_kind fn kind (by decide)) (by simp [kind])
  case clearJesd =>
    exact fun sl s ready fn kind => givesHw_acts rfl ready (portFn_of_kind fn kind (by decide)) (by simp [kind])
  case shaper => exact fun sl s ready fits => givesMem_actsMem rfl ready fits (r := (_, stOk))
  case both => exact fun sl s ready port dirs => givesHw_acts rfl ready (by simp [port, dirs]) (by simp only [dirs]; rfl)
  case first => exact fun sl s ready port dirs => givesHw_acts rfl ready (by simp [port, dirs]) (by simp only [dirs]; rfl)
  case second => exact fun sl s ready port dirs => givesHw_acts rfl ready (by simp [port, dirs]) (by simp only [dirs]; rfl)
  case neither => exact fun sl s ready port dirs => givesHw_acts rfl ready (by simp [port, dirs]) (by simp only [dirs]; rfl)
end

section
/-!
PROOF. What reads a part of the array, or the divide of a yard's clock, reads the same after a change of something else. Which
cycle a decision switches at (R127).
-/

namespace Sys2Proof.Machine

theorem applyAll_cons {α : Type} (f : Hw → α → Hw) (h : Hw) (x : α) (xs : List α) :
    applyAll f h (x :: xs) = applyAll f (f h x) xs := rfl

/-- What no update of a list changes, all of them leave. -/
theorem applyAll_kept {α β : Type} {f : Hw → α → Hw} {g : Hw → β} (hf : ∀ h x, g (f h x) = g h) (xs : List α) (h : Hw) :
    g (applyAll f h xs) = g h := by
  induction xs generalizing h with
  | nil => rfl
  | cons x xs ih => exact (ih (f h x)).trans (hf h x)

theorem task_of_scheds {h t : Hw} (same : t.arr.scheds = h.arr.scheds) (y u : Nat) : task t y u = task h y u := by
  simp only [task, sched, same]

theorem pen_of_pens {h t : Hw} (same : t.arr.pens = h.arr.pens) (n : Nat) : pen t n = pen h n := by
  simp only [pen, same]

theorem yardShift_setF_ne (h : Hw) {a y : Nat} (f : Fld) (x : Nat) (ha : aYP_STAT y ≠ a) :
    yardShift (setF h a f x) y = yardShift h y := getF_setF_ne h f _ x ha

theorem dueIn_setF_ne (h : Hw) {a y : Nat} (f : Fld) (x l : Nat) (ha : aYP_STAT y ≠ a) :
    dueIn (setF h a f x) y l = dueIn h y l := by
  simp only [dueIn, yardCycle, yardShift_setF_ne h f x ha, setF_aclk]

theorem yardShift_of_regs {h t : Hw} (same : t.regs = h.regs) (y : Nat) : yardShift t y = yardShift h y := by
  simp only [yardShift, getF, reg, same]

theorem switchCycle_of_yardShift {h t : Hw} {y : Nat} (same : yardShift t y = yardShift h y) (e v : Nat) :
    switchCycle t y e v = switchCycle h y e v := by
  simp only [switchCycle, edgeFrom, same]

/-! ## Edges of a yard (R108) -/

section
variable (h : Hw) (y : Nat)

theorem edgeFrom_edge (a : Nat) : edgeFrom h y a % 2 ^ yardShift h y = 0 := Nat.mul_mod_left _ _

theorem le_edgeFrom (a : Nat) : a ≤ edgeFrom h y a := by
  have pos : 0 < 2 ^ yardShift h y := Nat.two_pow_pos _
  have parts := Nat.div_add_mod' (a + 2 ^ yardShift h y - 1) (2 ^ yardShift h y)
  have rest := Nat.mod_lt (a + 2 ^ yardShift h y - 1) pos
  simp only [edgeFrom]
  omega

theorem edgeFrom_le {a b : Nat} (edge : b % 2 ^ yardShift h y = 0) (le : a ≤ b) : edgeFrom h y a ≤ b := by
  obtain ⟨c, rfl⟩ := Nat.dvd_of_mod_eq_zero edge
  have pos : 0 < 2 ^ yardShift h y := Nat.two_pow_pos _
  have quotient : (a + 2 ^ yardShift h y - 1) / 2 ^ yardShift h y ≤ c := by
    refine Nat.le_of_lt_succ ((Nat.div_lt_iff_lt_mul pos).mpr ?_)
    rw [Nat.succ_mul, Nat.mul_comm c]
    omega
  calc edgeFrom h y a ≤ c * 2 ^ yardShift h y := Nat.mul_le_mul_right _ quotient
    _ = 2 ^ yardShift h y * c := Nat.mul_comm _ _

/-! ## The switch cycle (R127) -/

/-- A cycle at which a yard can switch on a decision of cycle v. -/
def CanSwitchAt (v a : Nat) : Prop := a % 2 ^ yardShift h y = 0 ∧ v + 4 ≤ a

/-- Of falling numbers, the first that passes a test is the greatest that does. -/
theorem headD_filter_of_falling (p : Nat → Bool) (d : Nat) {xs : List Nat} (falling : xs.Pairwise (· > ·)) :
    (∃ a ∈ xs, p a = true ∧ (xs.filter p).headD d = a ∧ ∀ b ∈ xs, p b = true → b ≤ a) ∨
      (∀ b ∈ xs, p b = false) ∧ (xs.filter p).headD d = d := by
  induction xs with
  | nil => exact .inr ⟨nofun, rfl⟩
  | cons x xs ih =>
    obtain ⟨above, rest⟩ := List.pairwise_cons.mp falling
    cases hx : p x with
    | true =>
      rw [List.filter_cons_of_pos hx]
      exact .inl ⟨x, by simp, hx, rfl, fun b hb _ => by
        rcases List.mem_cons.mp hb with rfl | hb
        · exact Nat.le_refl b
        · exact Nat.le_of_lt (above b hb)⟩
    | false =>
      rw [List.filter_cons_of_neg (by simp [hx])]
      refine (ih rest).imp ?_ ?_
      · rintro ⟨a, ha, pass, head, greatest⟩
        exact ⟨a, List.mem_cons_of_mem x ha, pass, head, fun b hb hp => by
          rcases List.mem_cons.mp hb with rfl | hb
          · simp [hx] at hp
          · exact greatest b hb hp⟩
      · rintro ⟨fails, head⟩
        exact ⟨List.forall_mem_cons.mpr ⟨hx, fails⟩, head⟩

/-- The switch cycle is the latest of the four that will do, where one will, and else the first edge that does. -/
theorem switchCycle_cases (e v : Nat) :
    (CanSwitchAt h y v (switchCycle h y e v) ∧ e + 3 ≤ switchCycle h y e v ∧ switchCycle h y e v ≤ e + 6 ∧
        ∀ a, e + 3 ≤ a → a ≤ e + 6 → CanSwitchAt h y v a → a ≤ switchCycle h y e v) ∨
      (∀ a, e + 3 ≤ a → a ≤ e + 6 → ¬ CanSwitchAt h y v a) ∧ switchCycle h y e v = edgeFrom h y (v + 4) := by
  have candidate {a : Nat} (lo : e + 3 ≤ a) (hi : a ≤ e + 6) : a ∈ [e + 6, e + 5, e + 4, e + 3] := by
    simp only [List.mem_cons, List.not_mem_nil, or_false]
    omega
  have between {a : Nat} (ha : a ∈ [e + 6, e + 5, e + 4, e + 3]) : e + 3 ≤ a ∧ a ≤ e + 6 := by
    simp only [List.mem_cons, List.not_mem_nil, or_false] at ha
    omega
  rcases headD_filter_of_falling (fun a => a % 2 ^ yardShift h y == 0 && v + 4 ≤ a) (edgeFrom h y (v + 4))
    (xs := [e + 6, e + 5, e + 4, e + 3]) (by simp) with ⟨a, ha, can, is, greatest⟩ | ⟨fails, is⟩
  · obtain rfl : switchCycle h y e v = a := is
    exact .inl ⟨by simpa [CanSwitchAt] using can, (between ha).1, (between ha).2,
      fun b lo hi can => greatest b (candidate lo hi) (by simpa [CanSwitchAt] using can)⟩
  · refine .inr ⟨fun a lo hi can => ?_, is⟩
    have fails := fails a (candidate lo hi)
    simp [can.1, can.2] at fails

theorem switchCycle_can (e v : Nat) : CanSwitchAt h y v (switchCycle h y e v) := by
  rcases switchCycle_cases h y e v with ⟨can, -⟩ | ⟨-, is⟩
  · exact can
  · rw [is]
    exact ⟨edgeFrom_edge h y _, le_edgeFrom h y _⟩

theorem switchCycle_latest {e v a : Nat} (lo : e + 3 ≤ a) (hi : a ≤ e + 6) (can : CanSwitchAt h y v a) :
    a ≤ switchCycle h y e v ∧ switchCycle h y e v ≤ e + 6 := by
  rcases switchCycle_cases h y e v with ⟨-, -, within, latest⟩ | ⟨never, -⟩
  · exact ⟨latest a lo hi can, within⟩
  · exact absurd can (never a lo hi)

theorem switchCycle_first {e v a : Nat} (never : ∀ c, e + 3 ≤ c → c ≤ e + 6 → ¬ CanSwitchAt h y v c) (can : CanSwitchAt h y v a) :
    switchCycle h y e v ≤ a := by
  rcases switchCycle_cases h y e v with ⟨here, lo, hi, -⟩ | ⟨-, is⟩
  · exact absurd here (never _ lo hi)
  · rw [is]
    exact edgeFrom_le h y can.1 can.2

end
end Sys2Proof.Machine
end

section
/-!
PROOF. How a trigger moves a task outside groups (R152, R153, Table 6.4), and what the dispatch of its priority does with a
READY task (R154, R156 to R158).
-/

namespace Sys2Proof.Machine

/-! ## Triggers -/

/-- An evaluation of a yard that has taken no step yet. -/
abbrev freshEval (h : Hw) (y e v : Nat) : Eval := ⟨h, y, e, v, [], 0, 0, []⟩

/-- The unit of a task outside groups is the task, and it drives itself. -/
theorem unitOf_single {h : Hw} {y t : Nat} (single : inGroup h y t = false) : unitOf h y t = [(y, t)] := if_neg (by simp [single])

theorem drives_single {h : Hw} {y t : Nat} (single : inGroup h y t = false) : drives h y t = true := if_neg (by simp [single])

section
variable {s : Eval} {t ev : Nat} (single : inGroup s.h s.y t = false)
include single

/-- The one enabled trigger of a task with ALL = 0, alone among the events taken, is received. -/
theorem evalTrigger_one {i : Fin 4} (valid : taskValid s.h s.y t = true) (any : isSet s.h (aSCH_TASK0 s.y t) fSCH_TASK0_ALL = false)
    (enabled : getF s.h (aSCH_TASK0 s.y t) fSCH_TASK0_TRGEN = 2 ^ i.val) :
    evalTrigger [getF s.h (aSCH_TASK1 s.y t) (fSCH_TASK1_TRG i)] s t =
      receive s t (getF s.h (aSCH_TASK1 s.y t) (fSCH_TASK1_TRG i)) := by
  have hit : ∃ j < 4, Nat.testBit (2 ^ i.val) j = true ∧
      getF s.h (aSCH_TASK1 s.y t) (fSCH_TASK1_TRG j) = getF s.h (aSCH_TASK1 s.y t) (fSCH_TASK1_TRG i) :=
    ⟨i, i.isLt, Nat.testBit_two_pow_self, rfl⟩
  simp [evalTrigger, valid, drives_single single, any, enabled, hit]

theorem receive_idle (idle : (task s.h s.y t).st = .idle) :
    task (receive s t ev).h s.y t = { task s.h s.y t with st := .ready, why := ev, waits := 0 } := by
  simp [receive, idle, unitOf_single single, setUnit, applyAll]

theorem receive_running (runs : (task s.h s.y t).st = .running) :
    task (receive s t ev).h s.y t = { task s.h s.y t with st := .pending, next := ev } := by
  simp [receive, runs, unitOf_single single, setUnit, applyAll]

theorem receive_late (late : (task s.h s.y t).st = .ready ∨ (task s.h s.y t).st = .pending) :
    receive s t ev = { s with h := countOverrun s.h s.y, late := s.late ++ [overrunRecord s.h s.y t ev] } := by
  rcases late with st | st <;> simp [receive, st, unitOf_single single, overrun]

end

/-! ## Records and orders leave the rest as it was -/

theorem task_setSched (h : Hw) (y : Nat) (x : Sched) (same : x.tasks = (sched h y).tasks) (t : Nat) :
    task (setSched h y x) y t = task h y t := by
  rw [task, sched_setSched_same, same, task]

theorem yardShift_stageRecord (h : Hw) (y : Nat) (r : BitVec 64) : yardShift (stageRecord h y r) y = yardShift h y := by
  have apart : aYP_STAT y ≠ aSCH_TRDROP y := by
    simp only [aYP_STAT, aSCH_TRDROP]
    omega
  unfold stageRecord
  split
  · rfl
  · extract_lets s recs
    split
    · exact yardShift_of_regs (setSched_regs h y _) y
    · exact (yardShift_setF_ne _ _ _ apart).trans (yardShift_of_regs (setSched_regs h y _) y)

theorem yardStatus_ne_penStatus (y : Nat) : aYP_STAT y ≠ aSCH_PENSTAT y := by
  simp only [aYP_STAT, aSCH_PENSTAT]
  omega

/-- The order to a pen that a task holds from now on: to switch to a context (R158). -/
def orderSwitch (y e v t c : Nat) (preload : Option Nat) (h : Hw) (p : Nat) : Hw :=
  orderPen (setF (setF h (aSCH_PENSTAT y) (fSCH_PENSTAT_TASK p) t) (aSCH_PENSTAT y) (fSCH_PENSTAT_HELD p) 1) (8 * y + p)
    ⟨some c, switchCycle (setF h (aSCH_PENSTAT y) (fSCH_PENSTAT_TASK p) t) y e v, preload, t⟩

theorem orders_orderPen_same (h : Hw) (n : Nat) (o : SwitchOrder) : (pen (orderPen h n o) n).orders = (pen h n).orders ++ [o] := by
  rw [orderPen, pen_setPen_same]

/-- An order to one pen takes none from any. -/
theorem mem_orders_orderPen {h : Hw} {n k : Nat} {o x : SwitchOrder} (hx : x ∈ (pen h k).orders) :
    x ∈ (pen (orderPen h n o) k).orders := by
  by_cases hk : k = n
  · subst hk
    rw [orders_orderPen_same]
    exact List.mem_append_left _ hx
  · rwa [orderPen, pen_setPen_ne _ _ hk]

section
variable (y e v t c : Nat) (preload : Option Nat)

theorem yardShift_orderSwitch (h : Hw) (p : Nat) : yardShift (orderSwitch y e v t c preload h p) y = yardShift h y := by
  have apart := yardStatus_ne_penStatus y
  exact (yardShift_of_regs (setPen_regs _ _ _) y).trans ((yardShift_setF_ne _ _ _ apart).trans (yardShift_setF_ne h _ _ apart))

theorem mem_orders_orderSwitch {h : Hw} {k : Nat} {x : SwitchOrder} (ps : List Nat) (hx : x ∈ (pen h k).orders) :
    x ∈ (pen (applyAll (orderSwitch y e v t c preload) h ps) k).orders := by
  induction ps generalizing h with
  | nil => exact hx
  | cons p ps ih =>
    rw [applyAll_cons]
    refine ih (mem_orders_orderPen ?_)
    rwa [pen_of_pens (h := h) (by rw [setF_arr, setF_arr])]

/-- Every pen of a list has an order to its context for the one switch cycle. -/
theorem exists_order_of_orderSwitch {h : Hw} {ps : List Nat} {q : Nat} (hq : q ∈ ps) :
    ∃ o ∈ (pen (applyAll (orderSwitch y e v t c preload) h ps) (8 * y + q)).orders,
      o.ctx = some c ∧ o.d = switchCycle h y e v := by
  induction ps generalizing h with
  | nil => cases hq
  | cons p ps ih =>
    rw [applyAll_cons]
    rcases List.mem_cons.mp hq with rfl | hq
    · have apart := yardStatus_ne_penStatus y
      have new : (⟨some c, switchCycle (setF h (aSCH_PENSTAT y) (fSCH_PENSTAT_TASK q) t) y e v, preload, t⟩ : SwitchOrder) ∈
          (pen (orderSwitch y e v t c preload h q) (8 * y + q)).orders := by
        rw [orderSwitch, orders_orderPen_same]
        exact List.mem_append_right _ (List.mem_singleton.mpr rfl)
      exact ⟨_, mem_orders_orderSwitch y e v t c preload ps new, rfl,
        switchCycle_of_yardShift (yardShift_setF_ne h _ _ apart) e v⟩
    · obtain ⟨o, ho, ctx, d⟩ := ih (h := orderSwitch y e v t c preload h p) hq
      exact ⟨o, ho, ctx, d.trans (switchCycle_of_yardShift (yardShift_orderSwitch y e v t c preload h p) e v)⟩

end

/-! ## Dispatch -/

/-- What an order leaves as it was of a yard's tasks. -/
theorem tasks_orderSwitch (y e v t c : Nat) (preload : Option Nat) (h : Hw) (ps : List Nat) (u : Nat) :
    task (applyAll (orderSwitch y e v t c preload) h ps) y u = task h y u :=
  applyAll_kept (g := fun h => task h y u)
    (fun h p => task_of_scheds (by rw [orderSwitch, orderPen, setPen_scheds, setF_arr, setF_arr]) y u) ps h

/-- The preload that follows the dispatch of a task (R159). -/
def preloadAfter (h : Hw) (y t : Nat) : Option Nat :=
  if isSet h (aSCH_TASK0 y t) fSCH_TASK0_PRELDEN then some (getF h (aSCH_TASK0 y t) fSCH_TASK0_PRELD) else none

/-- A task dispatched: its record, its state, its orders and the count, in this order (R156, R158). -/
theorem dispatchTask_eq (h : Hw) (y t e v : Nat) : ∃ kind : Nat, dispatchTask h y t e v =
    bump (applyAll (orderSwitch y e v t (taskCtx h y t) (preloadAfter h y t))
      (setTask (record h y kind t (taskMask h y t) (task h y t).why) y t { task h y t with st := .running })
      (pensOf (taskMask h y t))) (aSCH_STAT y) fSCH_STAT_DISPCNT 1 := by
  unfold dispatchTask
  exact ⟨_, rfl⟩

theorem task_dispatchTask (h : Hw) (y t e v : Nat) : task (dispatchTask h y t e v) y t = { task h y t with st := .running } := by
  obtain ⟨kind, is⟩ := dispatchTask_eq h y t e v
  rw [is, task_of_scheds (congrArg Arr.scheds (bump_arr _ _ _ _)), tasks_orderSwitch, task_setTask_same]

theorem exists_order_of_dispatchTask (h : Hw) (y t e v : Nat) {q : Nat} (hq : q ∈ pensOf (taskMask h y t)) :
    ∃ o ∈ (pen (dispatchTask h y t e v) (8 * y + q)).orders,
      o.ctx = some (taskCtx h y t) ∧ o.d = switchCycle h y e v := by
  obtain ⟨kind, is⟩ := dispatchTask_eq h y t e v
  obtain ⟨o, ho, ctx, d⟩ := exists_order_of_orderSwitch y e v t (taskCtx h y t) (preloadAfter h y t)
    (h := setTask (record h y kind t (taskMask h y t) (task h y t).why) y t { task h y t with st := .running }) hq
  have same : yardShift (setTask (record h y kind t (taskMask h y t) (task h y t).why) y t { task h y t with st := .running }) y =
      yardShift h y :=
    (yardShift_of_regs (setSched_regs _ _ _) y).trans (yardShift_stageRecord h y _)
  rw [is, pen_of_pens (congrArg Arr.pens (bump_arr _ _ _ _))]
  exact ⟨o, ho, ctx, d.trans (switchCycle_of_yardShift same e v)⟩

/-- A dispatch that preempts none is the task's own, with the round-robin start moved past it. -/
theorem dispatchOver_nil (s : Eval) (t : Nat) : ∃ p, (dispatchOver s t []).h = moveRr (dispatchTask s.h s.y t s.e s.v) s.y p t := by
  unfold dispatchOver
  exact ⟨_, rfl⟩

theorem task_moveRr (h : Hw) (y p t u : Nat) : task (moveRr h y p t) y u = task h y u := by
  unfold moveRr
  exact task_setSched h y _ (by rfl) u

theorem pen_moveRr (h : Hw) (y p t n : Nat) : pen (moveRr h y p t) n = pen h n := pen_of_pens (setSched_pens h y _) n

theorem task_dispatchOver_nil (s : Eval) (t : Nat) : (task (dispatchOver s t []).h s.y t).st = .running := by
  obtain ⟨p, is⟩ := dispatchOver_nil s t
  rw [is, task_moveRr, task_dispatchTask]

theorem exists_order_of_dispatchOver_nil (s : Eval) {t q : Nat} (hq : q ∈ pensOf (taskMask s.h s.y t)) :
    ∃ o ∈ (pen (dispatchOver s t []).h (8 * s.y + q)).orders,
      o.ctx = some (taskCtx s.h s.y t) ∧ o.d = switchCycle s.h s.y s.e s.v := by
  obtain ⟨p, is⟩ := dispatchOver_nil s t
  rw [is, pen_moveRr]
  exact exists_order_of_dispatchTask s.h s.y t s.e s.v hq

section
variable {s : Eval} {t : Nat} (ready : (task s.h s.y t).st = .ready) (valid : taskValid s.h s.y t = true)
include ready valid

/-- A task outside groups whose context is not write-locked, whose pens are free and not kept for a group, is dispatched. -/
theorem evalDispatch_free (single : inGroup s.h s.y t = false) (unlocked : lockedOut s.h s.y t = false) (unkept : s.kept = 0)
    (free : ∀ q ∈ pensOf (taskMask s.h s.y t), holderOf s.h s.y q = none) :
    evalDispatch s (taskPrio s.h s.y t) t = dispatchOver s t [] := by
  have noHolder : (pensOf (taskMask s.h s.y t)).filterMap (fun q => holderOf s.h s.y q) = [] := List.filterMap_eq_nil_iff.mpr free
  simp [evalDispatch, ready, valid, single, unlocked, unkept, noHolder]

theorem evalDispatch_locked (locked : lockedOut s.h s.y t = true) : evalDispatch s (taskPrio s.h s.y t) t = evalWait s t 3 := by
  simp [evalDispatch, ready, valid, locked]

/-- A pen of its mask that a task of equal or higher priority holds keeps a task waiting. -/
theorem evalDispatch_held (unlocked : lockedOut s.h s.y t = false) {q u : Nat} (hq : q ∈ pensOf (taskMask s.h s.y t))
    (holder : holderOf s.h s.y q = some u) (prio : taskPrio s.h s.y t ≤ taskPrio s.h s.y u) :
    evalDispatch s (taskPrio s.h s.y t) t = evalWait s t 1 := by
  have hu : u ∈ (pensOf (taskMask s.h s.y t)).filterMap (fun q => holderOf s.h s.y q) :=
    List.mem_filterMap.mpr ⟨q, hq, holder⟩
  have hard : ((pensOf (taskMask s.h s.y t)).filterMap (fun q => holderOf s.h s.y q)).any
      (fun u => taskPrio s.h s.y t ≤ taskPrio s.h s.y u) = true := List.any_eq_true.mpr ⟨u, hu, decide_eq_true prio⟩
  have firm : ((pensOf (taskMask s.h s.y t)).filterMap (fun q => holderOf s.h s.y q)).all
      (fun u => taskPrio s.h s.y u < taskPrio s.h s.y t && isSet s.h (aSCH_TASK0 s.y u) fSCH_TASK0_PREEMPT) = false :=
    List.all_eq_false.mpr ⟨u, hu, by simp [Nat.not_lt.mpr prio]⟩
  simp only [evalDispatch, ready, valid, unlocked, hard, firm]
  simp

end

theorem evalWait_st (s : Eval) (t reason : Nat) : (task (evalWait s t reason).h s.y t).st = (task s.h s.y t).st := by
  unfold evalWait
  extract_lets k
  split
  · rfl
  · rw [task_setTask_same]

theorem evalWait_pens (s : Eval) (t reason : Nat) : (evalWait s t reason).h.arr.pens = s.h.arr.pens := by
  unfold evalWait
  extract_lets k
  split
  · rfl
  · exact setSched_pens _ _ _

end Sys2Proof.Machine

open Sys2Proof Sys2Proof.Machine

/-- Settles O22: a trigger by the state of its task, a dispatch by what stands in its way, and the switch cycle as the first of
the four falling candidates that will do. -/
theorem triggersAndDispatchFollowTheTables : Obligations.TriggersAndDispatchFollowTheTables := by
  refine ⟨?idle, ?running, ?late, ?free, ?locked, ?held, ?edge, ?latest, ?first⟩
  case idle =>
    intro y k i e v s valid single any enabled idle
    rw [evalTrigger_one (s := freshEval s.hw y e v) single valid any enabled]
    have readied := receive_idle (s := freshEval s.hw y e v) (ev := getF s.hw (aSCH_TASK1 y k) (fSCH_TASK1_TRG i))
      single idle
    exact ⟨congrArg Task.st readied, congrArg Task.why readied⟩
  case running =>
    intro y k i e v s valid single any enabled runs
    rw [evalTrigger_one (s := freshEval s.hw y e v) single valid any enabled]
    exact congrArg Task.st (receive_running (s := freshEval s.hw y e v) single runs)
  case late =>
    intro y k i e v s valid single any enabled late
    rw [evalTrigger_one (s := freshEval s.hw y e v) single valid any enabled,
      receive_late (s := freshEval s.hw y e v) single late]
    exact ⟨rfl, rfl⟩
  case free =>
    intro y k e v s valid single ready unlocked free
    rw [evalDispatch_free (s := freshEval s.hw y e v) ready valid single unlocked rfl free]
    exact ⟨task_dispatchOver_nil _ k, fun q hq => exists_order_of_dispatchOver_nil _ hq⟩
  case locked =>
    intro y k e v s valid ready locked
    rw [evalDispatch_locked (s := freshEval s.hw y e v) ready valid locked]
    exact ⟨(evalWait_st _ k 3).trans ready, evalWait_pens _ k 3⟩
  case held =>
    intro y k e v q u s valid _ ready unlocked hq holder prio
    rw [evalDispatch_held (s := freshEval s.hw y e v) ready valid unlocked hq holder prio]
    exact ⟨(evalWait_st _ k 1).trans ready, evalWait_pens _ k 1⟩
  case edge => exact fun y e v s => switchCycle_can s.hw y e v
  case latest => exact fun y e v a s lo hi edge far => switchCycle_latest s.hw y lo hi ⟨edge, far⟩
  case first =>
    intro y e v a s never edge far
    exact switchCycle_first s.hw y (fun c lo hi can => absurd (never c lo hi can.1) (Nat.not_lt.mpr can.2)) ⟨edge, far⟩
end

section
/-!
PROOF. Which bank an incoming context takes, what an eviction leaves in the pen, and how a load and a non-resident switch start
(R118, R122, R124, R131).
-/

namespace Sys2Proof.Machine

/-! ## The victim (R122) -/

/-- Of a list that is not empty, the first number that a measure is least at. -/
def leastBy (u : Nat → Nat) (b : Nat) (bs : List Nat) : Nat := bs.foldl (fun best x => if u x < u best then x else best) b

theorem leastBy_spec (u : Nat → Nat) (b : Nat) (bs : List Nat) :
    leastBy u b bs ∈ b :: bs ∧ ∀ x ∈ b :: bs, u (leastBy u b bs) ≤ u x := by
  induction bs generalizing b with
  | nil => simp [leastBy]
  | cons c cs ih =>
    obtain ⟨mem, least⟩ := ih (if u c < u b then c else b)
    have is : leastBy u b (c :: cs) = leastBy u (if u c < u b then c else b) cs := rfl
    have first := least _ List.mem_cons_self
    rw [is]
    generalize leastBy u (if u c < u b then c else b) cs = r at mem least first ⊢
    refine ⟨?_, fun x hx => ?_⟩
    · rcases List.mem_cons.mp mem with rfl | mem
      · split <;> simp
      · simp [mem]
    · rcases List.mem_cons.mp hx with rfl | hx
      · split at first <;> omega
      · rcases List.mem_cons.mp hx with rfl | hx
        · split at first <;> omega
        · exact least x (List.mem_cons_of_mem _ hx)

/-- The banks whose context may leave. -/
def leavable (h : Hw) (n : Nat) : List Nat := (List.range 4).filter fun b => (lookup (pen h n).held b).any (mayLeave h n)

theorem mem_leavable {h : Hw} {n b : Nat} :
    b ∈ leavable h n ↔ b < 4 ∧ ∃ c, lookup (pen h n).held b = some c ∧ mayLeave h n c = true := by
  simp [leavable, Option.any_eq_true]

/-- The lowest bank that holds no context and has none on its way (R122, R124). -/
def emptyBank (h : Hw) (n : Nat) : Option Nat :=
  (List.range 4).find? fun b => (lookup (pen h n).held b).isNone && takenBank (pen h n) != some b

theorem chooseVictim_empty {h : Hw} {n b : Nat} (empty : emptyBank h n = some b) : chooseVictim h n = some b := by
  unfold emptyBank at empty
  simp only [chooseVictim, empty]

/-- With no bank empty, the victim is the bank used longest ago of those whose context may leave. -/
theorem chooseVictim_full {h : Hw} {n b : Nat} (full : emptyBank h n = none) (chosen : chooseVictim h n = some b) :
    b ∈ leavable h n ∧ ∀ k ∈ leavable h n, getD 0 (pen h n).lastUse b ≤ getD 0 (pen h n).lastUse k := by
  unfold emptyBank at full
  simp only [chooseVictim, full] at chosen
  split at chosen
  · cases chosen
  · rename_i b' bs eligible
    have same : leavable h n = b' :: bs := by
      refine Eq.trans (List.filter_congr fun k _ => ?_) eligible
      cases lookup (pen h n).held k <;> rfl
    cases chosen
    rw [same]
    exact leastBy_spec (getD 0 (pen h n).lastUse) b' bs

theorem emptyBank_none {h : Hw} {n : Nat}
    (full : ∀ k < 4, (lookup (pen h n).held k).isNone = true → takenBank (pen h n) = some k) : emptyBank h n = none := by
  refine List.find?_eq_none.mpr fun k hk => ?_
  have taken := full k (List.mem_range.mp hk)
  simpa using taken

/-! ## Evictions -/

theorem setFu_dueIn (h : Hw) (g : Nat) (x : Fu) (y l : Nat) : dueIn (setFu h g x) y l = dueIn h y l := rfl

theorem setPen_dueIn (h : Hw) (n : Nat) (x : Pen) (y l : Nat) : dueIn (setPen h n x) y l = dueIn h y l := rfl

theorem clearDirty_dueIn (h : Hw) (n b y l : Nat) : dueIn (clearDirty h n b) y l = dueIn h y l := by
  unfold clearDirty
  exact applyAll_kept (g := fun h => dueIn h y l) (fun h g => setFu_dueIn h g _ y l) (penFus n) h

/-- The context of the bank is the victim. -/
theorem evict_victim (m : Sparse Byte) (h : Hw) (n b : Nat) : (evict m h n b).2.2.2 = lookup (pen h n).held b := by
  cases held : lookup (pen h n).held b <;> simp only [evict, held]

/-- The bank is empty from now on. -/
theorem evict_empties (m : Sparse Byte) (h : Hw) (n b : Nat) : lookup (pen (evict m h n b).2.1 n).held b = none := by
  unfold evict
  split
  · rename_i held
    exact held
  · rw [pen_of_pens (congrArg Arr.pens (setF_arr _ _ _ _)), pen_setPen_same, lookup_removeAt_same]

theorem yardStatus_ne_ctxStat (n y : Nat) : aYP_STAT y ≠ aPEN_CTXSTAT n := by
  simp only [aYP_STAT, aPEN_CTXSTAT, penBase, yardBase]
  omega

theorem yardStatus_ne_ctxKind (n y : Nat) : aYP_STAT y ≠ aPEN_CTXKIND n := by
  simp only [aYP_STAT, aPEN_CTXKIND, penBase, yardBase]
  omega

/-- An eviction leaves the clock of every yard as it was. -/
theorem evict_dueIn (m : Sparse Byte) (h : Hw) (n b y l : Nat) : dueIn (evict m h n b).2.1 y l = dueIn h y l := by
  unfold evict
  split
  · rfl
  · dsimp only
    rw [dueIn_setF_ne _ _ _ _ (yardStatus_ne_ctxStat n y), setPen_dueIn, clearDirty_dueIn]
    have settled : dueIn (applyAll settleRound h (penFus n)) y l = dueIn h y l :=
      applyAll_kept (g := fun h => dueIn h y l) (fun h g => setFu_dueIn h g _ y l) (penFus n) h
    split
    · exact (dueIn_setF_ne _ _ _ _ (yardStatus_ne_ctxKind n y)).trans settled
    · exact settled

/-! ## Loads (R124) -/

theorem isSet_setF_one (h : Hw) (a : Nat) {f : Fld} (hf : f.w = 1) (hl : f.lo < 64) : isSet (setF h a f 1) a f = true := by
  have bit : reg (setF h a f 1) a = reg h a ||| BitVec.twoPow 64 f.lo := reg_raiseBit_same h a hf hl
  rw [isSet_eq_getLsbD _ _ hf, bit]
  simp [hl]

/-- What a pen notes of a load: its victim, and the words to move after the eviction e (R124, R131). -/
def notedLoad (c b : Nat) (p : Option Nat) (e : Sparse Byte × Hw × List Nat × Option Nat) (n : Nat) : CtxLoad :=
  ⟨c, b, e.2.2.2, p, e.2.2.1, restoreWords e.2.1 n c⟩

section
variable {m : Sparse Byte} {h : Hw} {n c : Nat} {p : Option Nat}

/-- Another load or a non-resident switch is in progress in the pen. -/
theorem startLoad_busy (busy : (pen h n).load ≠ none ∨ (pen h n).nonres ≠ none) :
    startLoad m h n c p = ((m, raiseBit h (aPEN_CTXLOAD n) fPEN_CTXLOAD_FAIL), true) := by
  have inProgress : (pen h n).load.isSome = true ∨ (pen h n).nonres.isSome = true :=
    busy.imp Option.isSome_iff_ne_none.mpr Option.isSome_iff_ne_none.mpr
  simp only [startLoad, if_pos inProgress]

variable (idle : (pen h n).load = none) (still : (pen h n).nonres = none)
include idle still

theorem startLoad_locked (locked : (pen h n).locks.getLsbD c = true) : startLoad m h n c p =
    ((m, raiseBit (setF h (aPEN_CTXLOAD n) fPEN_CTXLOAD_CTX c) (aPEN_CTXLOAD n) fPEN_CTXLOAD_FAIL), true) := by
  simp [startLoad, idle, still, locked]

variable (unlocked : (pen h n).locks.getLsbD c = false)
include unlocked

theorem startLoad_resident {b : Nat} (resident : bankHolding (pen h n) c = some b) : startLoad m h n c p =
    ((m, raiseBit (setF h (aPEN_CTXLOAD n) fPEN_CTXLOAD_CTX c) (aPEN_CTXLOAD n) fPEN_CTXLOAD_DONE), false) := by
  simp [startLoad, idle, still, unlocked, resident]

variable (absent : bankHolding (pen h n) c = none)
include absent

theorem startLoad_noVictim (noVictim : chooseVictim (setF h (aPEN_CTXLOAD n) fPEN_CTXLOAD_CTX c) n = none) : startLoad m h n c p =
    ((m, raiseBit (setF h (aPEN_CTXLOAD n) fPEN_CTXLOAD_CTX c) (aPEN_CTXLOAD n) fPEN_CTXLOAD_FAIL), true) := by
  simp [startLoad, idle, still, unlocked, absent, noVictim]

theorem startLoad_victim {b : Nat} (victim : chooseVictim (setF h (aPEN_CTXLOAD n) fPEN_CTXLOAD_CTX c) n = some b) :
    ∃ e, e = evict m (setF h (aPEN_CTXLOAD n) fPEN_CTXLOAD_CTX c) n b ∧ startLoad m h n c p =
      ((e.1, setF (setPen e.2.1 n { pen e.2.1 n with load := some (notedLoad c b p e n) }) (aPEN_CTXLOAD n) fPEN_CTXLOAD_BUSY 1),
        false) := by
  refine ⟨_, rfl, ?_⟩
  simp [startLoad, idle, still, unlocked, absent, victim, notedLoad]

end

/-! ## Non-resident switches (R131) -/

theorem bankLoad_restoreWords (h : Hw) (n c : Nat) : bankLoad (restoreWords h n c) = if restores h n c then 44 else 0 := by
  unfold restoreWords
  split <;> rfl

theorem takePorts_pens (h : Hw) (n : Nat) : (takePorts h n).arr.pens = h.arr.pens := by
  unfold takePorts
  split <;> rfl

theorem restores_setF_ctxStat (h : Hw) (n c : Nat) (f : Fld) (x : Nat) :
    restores (setF h (aPEN_CTXSTAT n) f x) n c = restores h n c := by
  have apart : aPEN_CTXKIND n ≠ aPEN_CTXSTAT n := by
    simp only [aPEN_CTXKIND, aPEN_CTXSTAT]
    omega
  simp only [restores, kindOf, savedOf, getF_setF_ne h f _ x apart, isSet_setF_ne h f _ x apart]

/-- The hardware in which the words of a non-resident switch are counted (Table 5.12). -/
def switchCounted (m : Sparse Byte) (h : Hw) (n c b : Nat) : Hw :=
  let e := evict m h n b
  setF (setF e.2.1 (aPEN_CTXSTAT n) fPEN_CTXSTAT_LASTW (bankLoad e.2.2.1)) (aPEN_CTXSTAT n) fPEN_CTXSTAT_LASTR
    (if restores e.2.1 n c then 44 else 0)

theorem switchCounted_restoreWords (m : Sparse Byte) (h : Hw) (n c b : Nat) :
    restoreWords (switchCounted m h n c b) n c = restoreWords (evict m h n b).2.1 n c := by
  simp only [restoreWords, switchCounted, restores_setF_ctxStat]

theorem switchCounted_dueIn (m : Sparse Byte) (h : Hw) (n c b y l : Nat) : dueIn (switchCounted m h n c b) y l = dueIn h y l := by
  have apart := yardStatus_ne_ctxStat n y
  rw [switchCounted, dueIn_setF_ne _ _ _ _ apart, dueIn_setF_ne _ _ _ _ apart, evict_dueIn]

/-- What a pen notes of a non-resident switch: the words that each pen-memory bank takes and gives, and when step 0 issues. -/
def notedSwitch (m : Sparse Byte) (h : Hw) (n c b : Nat) (p : Option Nat) (k : Nat) : NonRes :=
  let e := evict m h n b
  let w := bankLoad e.2.2.1
  let r := if restores e.2.1 n c then 44 else 0
  ⟨c, b, dueIn (switchCounted m h n c b) (n / 8) (w + (if w ≠ 0 ∧ r ≠ 0 then 1 else 0) + r), false, p, k, 0, e.2.2.1,
    restoreWords (switchCounted m h n c b) n c⟩

theorem nonres_startNonRes (m : Sparse Byte) (h : Hw) (n c b : Nat) (p : Option Nat) (k : Nat) :
    (pen (startNonRes m h n c b p k).2 n).nonres = some (notedSwitch m h n c b p k) := by
  unfold startNonRes
  dsimp only
  rw [pen_of_pens (takePorts_pens _ _), pen_setPen_same]
  rfl

/-- R of R131, the most words that one bank gives. -/
theorem notedSwitch_reads (m : Sparse Byte) (h : Hw) (n c b : Nat) (p : Option Nat) (k : Nat) :
    bankLoad (notedSwitch m h n c b p k).reads = if restores (evict m h n b).2.1 n c then 44 else 0 := by
  rw [notedSwitch, switchCounted_restoreWords, bankLoad_restoreWords]

/-- Step 0 issues after W + T + R cycles from the cycle in which the switch starts. -/
theorem notedSwitch_ready (m : Sparse Byte) (h : Hw) (n c b : Nat) (p : Option Nat) (k : Nat) :
    (notedSwitch m h n c b p k).ready = dueIn h (n / 8) (bankLoad (notedSwitch m h n c b p k).writes +
      (if bankLoad (notedSwitch m h n c b p k).writes ≠ 0 ∧ bankLoad (notedSwitch m h n c b p k).reads ≠ 0 then 1 else 0) +
      bankLoad (notedSwitch m h n c b p k).reads) := by
  rw [notedSwitch_reads, ← switchCounted_dueIn m h n c b]
  rfl

end Sys2Proof.Machine

open Sys2Proof Sys2Proof.Machine

/-- Settles O20: a load by the branch of `startLoad` it takes, the victim as the first empty bank or the least recently used of
those that may be left, and a non-resident switch by the words it counts. -/
theorem contextLoadsStartOrFailAsR124States : Obligations.ContextLoadsStartOrFailAsR124States := by
  refine ⟨?busy, ?locked, ?resident, ?noVictim, ?victim, ?empty, ?full, ?switch⟩
  case busy => exact fun n c p s busy => startLoad_busy busy
  case locked => exact fun n c p s idle still locked => startLoad_locked idle still locked
  case resident => exact fun n c p b s idle still unlocked resident => startLoad_resident idle still unlocked resident
  case noVictim => exact fun n c p s idle still unlocked absent noVictim =>
    startLoad_noVictim idle still unlocked absent noVictim
  case victim =>
    intro n c p b s idle still unlocked absent victim
    obtain ⟨e, evicted, is⟩ := startLoad_victim (m := s.mem) (p := p) idle still unlocked absent victim
    have noted := pen_of_pens (n := n.val) (congrArg Arr.pens (setF_arr
      (setPen e.2.1 n { pen e.2.1 n with load := some (notedLoad c b p e n) }) (aPEN_CTXLOAD n) fPEN_CTXLOAD_BUSY 1))
    rw [pen_setPen_same] at noted
    have held : lookup (pen e.2.1 n).held b = none := evicted ▸ evict_empties _ _ _ _
    have victim : e.2.2.2 = lookup (pen s.hw n).held b := by
      rw [evicted, evict_victim, pen_of_pens (congrArg Arr.pens (setF_arr _ _ _ _))]
    rw [is]
    exact ⟨rfl, isSet_setF_one _ _ rfl (by decide), by rw [noted]; exact held, _, by rw [noted], rfl, rfl, victim, rfl⟩
  case empty => exact fun n b s empty => chooseVictim_empty empty
  case full =>
    intro n b s full chosen
    obtain ⟨may, least⟩ := chooseVictim_full (emptyBank_none full) chosen
    obtain ⟨bank, c, held, leaves⟩ := mem_leavable.mp may
    exact ⟨bank, c, held, leaves, fun k hk x there free => least k (mem_leavable.mpr ⟨hk, x, there, free⟩)⟩
  case switch =>
    intro n c b p k s
    refine ⟨_, nonres_startNonRes s.mem s.hw n c b p k, rfl, rfl, rfl, notedSwitch_ready s.mem s.hw n c b p k, ?_⟩
    rw [notedSwitch_reads]
    split <;> decide
end

section
/-!
PROOF. Writes of scheduler and coordinator registers over the bus: where the registers stand, and what takes the written value
(R151, R167 to R169).
-/

namespace Sys2Proof.Machine

/-! ## Writes over the bus -/

/-- A write of a register that has no W1C field and clears no counts is the write of its block (R9, R113). -/
theorem writeReg_located {m : Sparse Byte} {h : Hw} {a : Nat} {b : Blk} {i o j : Nat} {d : RegDesc} (v : BitVec 64)
    (located : locate a = some (b, i, o)) (found : findReg (blkRegs b) o = some (d, j)) (plain : ∀ f ∈ d.flds j, f.acc ≠ .w1c)
    (aligned : a % 8 = 0) (unshadowed : inShadow a = false) (whole : rclkHole a = false) (counts : clearedBy b i o = []) :
    writeReg m h a v = writeAt m h b i o a v.toNat := by
  have fields : fieldsAt a = some (d.flds j) := by
    simp only [fieldsAt, located, found]
  have keeps : keepJustSet h a v = v := keepJustSet_of_clear h fun f hf w1c => by
    rw [fieldsOf, fields] at hf
    exact absurd w1c (plain f hf)
  have stands : regExists a = true := by
    simp [regExists, aligned, fields, whole]
  have clears (t : Hw) : clearCounts t a = t := by
    rw [clearCounts_located located, counts]
    rfl
  unfold writeReg
  rw [keeps, if_neg (by simp [stands, unshadowed]), located]
  dsimp only
  rw [clears, ite_self]

/-- A command that writes a register, while the clocks run and the device is not FROZEN. -/
theorem givesHw_busWrite {i : Instr} {s : State} {a : Nat} {v : Hw → BitVec 64} {h : Hw} (up : Up s)
    (he : exec i s = .next (onMem s fun m h => busWrite m h a (v h))) (write : writeReg s.mem s.hw a (v s.hw) = (s.mem, h)) :
    GivesHw i s h := by
  rw [GivesHw, he, onMem, busWrite_up up.1 up.2, write]

/-- A command that changes the hardware only. -/
theorem givesHw_onHw {i : Instr} {s : State} {f : Hw → Hw} {h : Hw} (he : exec i s = .next (onHw s f)) (is : f s.hw = h) :
    GivesHw i s h := by
  rw [GivesHw, he, onHw, is]

/-! ## Registers of a scheduler (R168) -/

/-- The register is none of an array that ends before it. -/
theorem findReg_past {d : RegDesc} (ds : List RegDesc) {o : Nat} (past : d.off + d.count * d.stride ≤ o) :
    findReg (d :: ds) o = findReg ds o := by
  rw [findReg, if_neg (by omega)]

theorem findReg_array {d : RegDesc} (ds : List RegDesc) {o k : Nat} (hk : k < d.count) (pos : 0 < d.stride)
    (ho : o = d.off + k * d.stride) :
    findReg (d :: ds) o = some (d, k) := by
  subst ho
  have room : k * d.stride < d.count * d.stride := Nat.mul_lt_mul_of_pos_right hk pos
  rw [findReg, if_pos ⟨by omega, by omega, by rw [Nat.add_sub_cancel_left, Nat.mul_mod_left]⟩,
    Nat.add_sub_cancel_left, Nat.mul_div_cancel _ pos]

theorem locate_sch {y o : Nat} (hy : y < 16) (ho : o < 0x10000) : locate (yardBase y + 0x80000 + o) = some (.sch, y, o) := by
  obtain ⟨r, hr⟩ : ∃ r, r = 0x100000 * y + 0x80000 + o := ⟨_, rfl⟩
  have base : yardBase y + 0x80000 + o = regionBase + r := by
    unfold yardBase
    omega
  have low : ¬ bar0Base ≤ regionBase + r := by
    unfold bar0Base regionBase
    omega
  have yard : r / 0x100000 = y := by omega
  have place : r % 0x100000 = 0x80000 + o := by omega
  rw [base]
  unfold locate
  rw [if_neg low, if_neg (by omega), if_pos (by omega), Nat.add_sub_cancel_left]
  simp only [yard, place]
  rw [if_neg (by omega), if_pos (by omega), Nat.add_sub_cancel_left]

/-- The registers of the schedulers stand below the shadow pages and the MAC blocks. -/
theorem inShadow_below {a : Nat} (low : a < 0x1009000000) : inShadow a = false := by
  unfold inShadow
  rw [decide_eq_false (Nat.not_le_of_lt (Nat.lt_trans low (by decide))), Bool.false_and]

theorem rclkHole_below {a : Nat} (low : a < 0x1009000000) : rclkHole a = false := by
  simp only [rclkHole, aETH_RCLK, List.any_eq_false, beq_iff_eq]
  omega

theorem writeReg_sch {m : Sparse Byte} {h : Hw} {y o j : Nat} {d : RegDesc} (hy : y < 16) (ho : o < 0x10000)
    (aligned : o % 8 = 0) (found : findReg regsSCH o = some (d, j)) (plain : ∀ f ∈ d.flds j, f.acc ≠ .w1c) (v : BitVec 64) :
    writeReg m h (yardBase y + 0x80000 + o) v = (m, writeSch h y o (yardBase y + 0x80000 + o) v.toNat) := by
  have located := locate_sch hy ho
  have low : yardBase y + 0x80000 + o < 0x1009000000 := by
    simp only [yardBase, regionBase]
    omega
  have multiple : (yardBase y + 0x80000 + o) % 8 = 0 := by
    simp only [yardBase, regionBase]
    omega
  generalize yardBase y + 0x80000 + o = a at *
  exact writeReg_located v located found plain multiple (inShadow_below low) (rclkHole_below low) rfl

/-! ## Ring, doorbell and latch (R167 to R169) -/

theorem writeSch_trrd (h : Hw) (y a v : Nat) : writeSch h y 0x98 a v = writeTrrd h y v := by
  rw [writeSch, if_neg (by decide), if_neg (by decide), if_pos rfl]

theorem writeSch_doorbell (h : Hw) (y a v : Nat) : writeSch h y 0x18 a v = ringDoorbell h y v := by
  rw [writeSch, if_neg (by decide), if_pos rfl]

theorem writeReg_trrd (m : Sparse Byte) (h : Hw) {y : Nat} (hy : y < 16) (v : BitVec 64) :
    writeReg m h (aSCH_TRRD y) v = (m, writeTrrd h y v.toNat) := by
  rw [aSCH_TRRD, writeReg_sch hy (by decide) rfl rfl (by decide), writeSch_trrd]

theorem writeReg_doorbell (m : Sparse Byte) (h : Hw) {y : Nat} (hy : y < 16) (v : BitVec 64) :
    writeReg m h (aSCH_DBELL y) v = (m, ringDoorbell h y v.toNat) := by
  rw [aSCH_DBELL, writeReg_sch hy (by decide) rfl rfl (by decide), writeSch_doorbell]

theorem writeReg_latch (m : Sparse Byte) (h : Hw) : writeReg m h aCRD_LATCH 1 = (m, latchTime h) := by
  have bit : (1 : BitVec 64).toNat.testBit 0 = true := rfl
  rw [writeReg_located (b := .crd) (i := 0) (o := 0x108) 1 rfl rfl (by decide) rfl rfl rfl rfl, writeAt, if_pos rfl,
    if_pos bit]

section
variable {h : Hw} {y v : Nat} (hv : v < 2 ^ 32)
include hv

theorem writeTrrd_fits
    (fits : (getF h (aSCH_TRWR y) fSCH_TRWR_WR + 2 ^ 32 - v) % 2 ^ 32 ≤ 2 ^ getF h (aSCH_TRSIZE y) fSCH_TRSIZE_LOG2) :
    writeTrrd h y v = setF h (aSCH_TRRD y) fSCH_TRRD_RD v := by
  unfold writeTrrd
  rw [Nat.mod_eq_of_lt hv]
  exact if_neg (Nat.not_lt.mpr fits)

theorem writeTrrd_exceeds
    (exceeds : 2 ^ getF h (aSCH_TRSIZE y) fSCH_TRSIZE_LOG2 < (getF h (aSCH_TRWR y) fSCH_TRWR_WR + 2 ^ 32 - v) % 2 ^ 32) :
    writeTrrd h y v = raiseBit h (aSCH_STAT y) fSCH_STAT_TRERR := by
  unfold writeTrrd
  rw [Nat.mod_eq_of_lt hv]
  exact if_pos exceeds

end

end Sys2Proof.Machine
end

section
/-!
PROOF. Task entries: the fields that a write merges, what it does by the state of the task, and the write that only clears
VALID (R150, R151).
-/

namespace Sys2Proof.Machine

/-! ## Fields of a register value -/

theorem fieldOf_mul_le (f : Fld) (v : Nat) : fieldOf f v * 2 ^ f.lo ≤ v :=
  Nat.le_trans (Nat.mul_le_mul_right _ (Nat.mod_le _ _)) (Nat.div_mul_le_self v _)

theorem putField_self (f : Fld) (v : Nat) : putField f v (fieldOf f v) = v := by
  have fits : fieldOf f v % 2 ^ f.w = fieldOf f v := Nat.mod_mod _ _
  rw [putField, fits, Nat.sub_add_cancel (fieldOf_mul_le f v)]

/-- A field above the lowest bit leaves that bit. -/
theorem putField_mod_two {f : Fld} (hf : 0 < f.lo) (v x : Nat) : putField f v x % 2 = v % 2 := by
  obtain ⟨k, hk⟩ := Nat.exists_eq_succ_of_ne_zero (Nat.pos_iff_ne_zero.mp hf)
  have le := fieldOf_mul_le f v
  have even (n : Nat) : n * 2 ^ f.lo = 2 * (n * 2 ^ k) := by rw [hk, Nat.pow_succ', Nat.mul_left_comm]
  rw [even] at le
  rw [putField, even, even]
  omega

/-- A field that ends below bit e is there in the bits below e. -/
theorem fieldOf_mod (f : Fld) {e : Nat} (he : f.lo + f.w ≤ e) (n : Nat) : fieldOf f (n % 2 ^ e) = fieldOf f n := by
  obtain ⟨k, rfl⟩ := Nat.exists_eq_add_of_le he
  rw [fieldOf, Nat.add_assoc, Nat.pow_add, Nat.mod_mul_right_div_self,
    Nat.mod_mod_of_dvd _ (Nat.pow_dvd_pow 2 (Nat.le_add_right _ _)), fieldOf]

/-- Clearing the lowest bit changes no field above it. -/
theorem fieldOf_clear_valid {f : Fld} (hf : 0 < f.lo) (n : Nat) : fieldOf f (putField fSCH_TASK0_VALID n 0) = fieldOf f n := by
  obtain ⟨k, hk⟩ := Nat.exists_eq_succ_of_ne_zero (Nat.pos_iff_ne_zero.mp hf)
  have half : putField fSCH_TASK0_VALID n 0 / 2 = n / 2 := by
    simp only [putField, fieldOf, fSCH_TASK0_VALID]
    omega
  rw [fieldOf, fieldOf, hk, Nat.pow_succ', ← Nat.div_div_eq_div_mul, half, Nat.div_div_eq_div_mul]

/-! ## Fields merged (R10) -/

/-- What one field of a written value makes of a register value, and of the report that a reserved value kept its field. -/
def mergeField (v : Nat) (acc : Nat × Bool) (f : Fld) : Nat × Bool :=
  let x := fieldOf f v
  match f.acc with
  | .rw => if limOk f.lim x then (putField f acc.1 x, acc.2) else (acc.1, true)
  | .w1c => (putField f acc.1 (fieldOf f acc.1 - (fieldOf f acc.1 &&& x)), acc.2)
  | _ => acc

theorem mergeFields_eq (fs : List Fld) (old v : Nat) : mergeFields fs old v = fs.foldl (mergeField v) (old, false) := rfl

/-- An RW field that reserves no value takes what is written. -/
theorem mergeField_open {f : Fld} (hf : f.acc = .rw ∧ f.lim = .any) (v n : Nat) (b : Bool) :
    mergeField v (n, b) f = (putField f n (fieldOf f v), b) := by
  obtain ⟨acc, lim⟩ := hf
  simp only [mergeField, acc, lim, limOk, if_true]

/-- Fields that are written as they stand change nothing. -/
theorem merge_agreeing {fs : List Fld} {v n : Nat} (h : ∀ f ∈ fs, f.acc = .rw ∧ f.lim = .any ∧ fieldOf f v = fieldOf f n)
    (b : Bool) :
    fs.foldl (mergeField v) (n, b) = (n, b) := by
  induction fs with
  | nil => rfl
  | cons f fs ih =>
    obtain ⟨⟨acc, lim, same⟩, rest⟩ := List.forall_mem_cons.mp h
    rw [List.foldl_cons, mergeField_open ⟨acc, lim⟩, same, putField_self, ih rest]

/-- Fields above the lowest bit leave it. -/
theorem merge_mod_two {fs : List Fld} (h : ∀ f ∈ fs, f.acc = .rw ∧ f.lim = .any ∧ 0 < f.lo) (v n : Nat) (b : Bool) :
    (fs.foldl (mergeField v) (n, b)).1 % 2 = n % 2 := by
  induction fs generalizing n with
  | nil => rfl
  | cons f fs ih =>
    obtain ⟨⟨acc, lim, above⟩, rest⟩ := List.forall_mem_cons.mp h
    rw [List.foldl_cons, mergeField_open ⟨acc, lim⟩, ih rest, putField_mod_two above]

/-! ## Fields joined -/

/-- RW fields that abut from bit lo on. -/
def abut (lo : Nat) : List Fld → Bool
  | [] => true
  | f :: fs => f.acc == .rw && f.lo == lo && abut (lo + f.w) fs

/-- The bit after the last field. -/
def fieldsEnd (lo : Nat) (fs : List Fld) : Nat := fs.foldl (fun e f => e + f.w) lo

/-- Abutting fields joined are the value up to their end. -/
theorem joined_of_abut {lo : Nat} {fs : List Fld} (h : abut lo fs = true) (n : Nat) :
    fs.foldl (fun acc f => if f.acc = .rw then acc + fieldOf f n * 2 ^ f.lo else acc) (n % 2 ^ lo) =
      n % 2 ^ fieldsEnd lo fs := by
  induction fs generalizing lo with
  | nil => rfl
  | cons f fs ih =>
    simp only [abut, Bool.and_eq_true, beq_iff_eq] at h
    obtain ⟨⟨acc, rfl⟩, rest⟩ := h
    rw [List.foldl_cons, if_pos acc, fieldOf, Nat.mul_comm, ← Nat.mod_mul, ← Nat.pow_add, ih rest]
    rfl

/-! ## The words of an entry (Tables 6.2 and 6.3) -/

/-- The fields of word 0. -/
def taskFields : List Fld :=
  [fSCH_TASK0_VALID, fSCH_TASK0_CTX, fSCH_TASK0_PENMASK, fSCH_TASK0_PRIO, fSCH_TASK0_PREEMPT, fSCH_TASK0_ALL, fSCH_TASK0_TRGEN,
    fSCH_TASK0_DONEEN, fSCH_TASK0_PRELDEN, fSCH_TASK0_PRELD, fSCH_TASK0_GROUP, fSCH_TASK0_GRPEN]

/-- The task entries stand after every other register of a scheduler. -/
theorem findReg_task {o : Nat} (ho : 0x100 ≤ o) : findReg regsSCH o = findReg (regsSCH.drop 11) o := by
  unfold regsSCH
  iterate 11 rw [findReg_past _ (by dsimp only; omega)]
  rfl

theorem findReg_task0 {k : Nat} (hk : k < 64) :
    findReg regsSCH (0x100 + 16 * k) = some (⟨0x100, 64, 16, fun _ => taskFields⟩, k) := by
  rw [findReg_task (by omega)]
  exact findReg_array _ hk (by decide) (by dsimp only; omega)

theorem findReg_task1 {k : Nat} (hk : k < 64) : findReg regsSCH (0x108 + 16 * k) =
    some (⟨0x108, 64, 16, fun _ => (List.range 4).map fSCH_TASK1_TRG ++ [fSCH_TASK1_DONEEV]⟩, k) := by
  rw [findReg_task (by omega)]
  show findReg (_ :: _) _ = _
  rw [findReg, if_neg (by dsimp only; omega)]
  exact findReg_array _ hk (by decide) (by dsimp only; omega)

theorem fieldsOf_task0 {y k : Nat} (hy : y < 16) (hk : k < 64) : fieldsOf (aSCH_TASK0 y k) = taskFields := by
  have located : locate (aSCH_TASK0 y k) = some (.sch, y, 0x100 + 16 * k) := by
    rw [aSCH_TASK0, Nat.add_assoc _ 0x100]
    exact locate_sch hy (by omega)
  rw [fieldsOf, fieldsAt, located]
  dsimp only [blkRegs]
  rw [findReg_task0 hk]
  rfl

/-- The first field merged, then the others. -/
theorem mergeFields_taskFields (old v : Nat) : mergeFields taskFields old v =
    taskFields.tail.foldl (mergeField v) (putField fSCH_TASK0_VALID old (fieldOf fSCH_TASK0_VALID v), false) := by
  rw [mergeFields_eq, taskFields, List.foldl_cons, mergeField_open ⟨rfl, rfl⟩, List.tail_cons]

theorem valid_of_merged (old v : Nat) : fieldOf fSCH_TASK0_VALID (mergeFields taskFields old v).1 = v % 2 := by
  have first : putField fSCH_TASK0_VALID old (fieldOf fSCH_TASK0_VALID v) % 2 = v % 2 := by
    simp only [putField, fieldOf, fSCH_TASK0_VALID]
    omega
  rw [mergeFields_taskFields, ← first, ← merge_mod_two (fs := taskFields.tail) (by decide) v _ false]
  simp only [fieldOf, fSCH_TASK0_VALID, Nat.pow_zero, Nat.div_one, Nat.pow_one]

/-! ## The write that only clears VALID -/

theorem clearing_toNat (n : Nat) : (BitVec.ofNat 64 (putField fSCH_TASK0_VALID (n % 2 ^ 33) 0)).toNat =
    putField fSCH_TASK0_VALID (n % 2 ^ 33) 0 := by
  rw [BitVec.toNat_ofNat, Nat.mod_eq_of_lt]
  simp only [putField, fSCH_TASK0_VALID]
  omega

/-- The fields of an entry but VALID are merged as they are. -/
theorem merged_clearing (n : Nat) :
    mergeFields taskFields n (putField fSCH_TASK0_VALID (n % 2 ^ 33) 0) = (putField fSCH_TASK0_VALID n 0, false) := by
  have cleared : fieldOf fSCH_TASK0_VALID (putField fSCH_TASK0_VALID (n % 2 ^ 33) 0) = 0 := by
    simp only [putField, fieldOf, fSCH_TASK0_VALID]
    omega
  have others : ∀ f ∈ taskFields.tail, f.acc = .rw ∧ f.lim = .any ∧ 0 < f.lo ∧ f.lo + f.w ≤ 33 := by decide
  rw [mergeFields_taskFields, cleared, merge_agreeing]
  intro f hf
  obtain ⟨acc, lim, above, within⟩ := others f hf
  exact ⟨acc, lim, by rw [fieldOf_clear_valid above, fieldOf_clear_valid above, fieldOf_mod f within]⟩

/-- The value that clears VALID and keeps the other fields of an entry. -/
theorem oneField_task0 {y k : Nat} (hy : y < 16) (hk : k < 64) (h : Hw) : oneField h (aSCH_TASK0 y k) fSCH_TASK0_VALID 0 =
    BitVec.ofNat 64 (putField fSCH_TASK0_VALID ((reg h (aSCH_TASK0 y k)).toNat % 2 ^ 33) 0) := by
  have joined := joined_of_abut (lo := 0) (fs := taskFields) (by decide) (reg h (aSCH_TASK0 y k)).toNat
  rw [Nat.pow_zero, Nat.mod_one] at joined
  rw [oneField, keepRw, fieldsOf_task0 hy hk, joined]
  rfl

theorem mergeFields_clear {y k : Nat} (hy : y < 16) (hk : k < 64) (h : Hw) :
    mergeFields (fieldsOf (aSCH_TASK0 y k)) (reg h (aSCH_TASK0 y k)).toNat
        (oneField h (aSCH_TASK0 y k) fSCH_TASK0_VALID 0).toNat =
      (putField fSCH_TASK0_VALID (reg h (aSCH_TASK0 y k)).toNat 0, false) := by
  rw [oneField_task0 hy hk, clearing_toNat, fieldsOf_task0 hy hk, merged_clearing]

theorem writeTaskEntry_retire {y k : Nat} (hy : y < 16) (hk : k < 64) {h : Hw} (valid : taskValid h y k = true) :
    writeTaskEntry h y k false (oneField h (aSCH_TASK0 y k) fSCH_TASK0_VALID 0).toNat = retireTask h y k := by
  have merged := mergeFields_clear hy hk h
  unfold writeTaskEntry
  dsimp only
  simp only [Bool.false_eq_true, if_false, merged, valid, beq_self_eq_true, Bool.not_false, Bool.and_self, if_true]

/-! ## Task entries (R150, R151) -/

/-- The address of a word of a task entry. -/
abbrev entryWord (y k : Nat) (w1 : Bool) : Nat := if w1 then aSCH_TASK1 y k else aSCH_TASK0 y k

/-- What a write of a word of a task entry leaves of it, and whether a reserved value kept its field. -/
abbrev entryMerged (h : Hw) (y k : Nat) (w1 : Bool) (v : Nat) : Nat × Bool :=
  mergeFields (fieldsOf (entryWord y k w1)) (reg h (entryWord y k w1)).toNat v

/-- A word of an entry written, with RSVVAL where a reserved value kept its field. -/
abbrev entryWritten (h : Hw) (y k : Nat) (w1 : Bool) (r : Nat × Bool) : Hw :=
  if r.2 then raiseBit (setReg h (entryWord y k w1) (BitVec.ofNat 64 r.1)) (aSCH_STAT y) fSCH_STAT_RSVVAL
  else setReg h (entryWord y k w1) (BitVec.ofNat 64 r.1)

theorem entryWord_eq (y k : Nat) (w1 : Bool) : entryWord y k w1 = yardBase y + 0x80000 + (0x100 + 16 * k + 8 * w1.toNat) := by
  cases w1
  · exact Nat.add_assoc _ 0x100 (16 * k)
  · show yardBase y + 0x80000 + 0x108 + 16 * k = _
    rw [Bool.toNat_true]
    omega

theorem findReg_entry {k : Nat} (hk : k < 64) (w1 : Bool) :
    ∃ d, findReg regsSCH (0x100 + 16 * k + 8 * w1.toNat) = some (d, k) ∧ ∀ f ∈ d.flds k, f.acc ≠ .w1c := by
  cases w1
  · exact ⟨_, findReg_task0 hk, by simp only; decide⟩
  · have place : 0x100 + 16 * k + 8 * true.toNat = 0x108 + 16 * k := by
      rw [Bool.toNat_true]
      omega
    rw [place]
    exact ⟨_, findReg_task1 hk, by simp only; decide⟩

theorem writeSch_entry (h : Hw) (y : Nat) {k : Nat} (hk : k < 64) (w1 : Bool) (a v : Nat) :
    writeSch h y (0x100 + 16 * k + 8 * w1.toNat) a v = writeTaskEntry h y k w1 v := by
  have bit : w1.toNat < 2 := Bool.toNat_lt w1
  have index : (0x100 + 16 * k + 8 * w1.toNat - 0x100) / 16 = k := by omega
  have word : ((0x100 + 16 * k + 8 * w1.toNat) % 16 == 8) = w1 := by
    cases w1
    · simp only [Bool.toNat_false, beq_eq_false_iff_ne]
      omega
    · simp only [Bool.toNat_true, beq_iff_eq]
      omega
  rw [writeSch, if_neg (by omega), if_neg (by omega), if_neg (by omega), if_pos (by omega), index, word]

theorem writeReg_entry {m : Sparse Byte} {h : Hw} {y k : Nat} (hy : y < 16) (hk : k < 64) (w1 : Bool) (v : BitVec 64) :
    writeReg m h (entryWord y k w1) v = (m, writeTaskEntry h y k w1 v.toNat) := by
  have bit : w1.toNat < 2 := Bool.toNat_lt w1
  obtain ⟨d, found, plain⟩ := findReg_entry hk w1
  rw [entryWord_eq, writeReg_sch hy (by omega) (by omega) found plain, writeSch_entry h y hk]

section
variable {h : Hw} {y k : Nat} {w1 : Bool} {v : Nat}
  (other : w1 = true ∨ taskValid h y k = false ∨
    (entryMerged h y k w1 v).1 ≠ putField fSCH_TASK0_VALID (reg h (aSCH_TASK0 y k)).toNat 0)
include other

theorem not_onlyClears : (!w1 && taskValid h y k &&
    (entryMerged h y k w1 v).1 == putField fSCH_TASK0_VALID (reg h (entryWord y k w1)).toNat 0) = false := by
  cases w1
  · rcases other with w | invalid | differs
    · cases w
    · simp [invalid]
    · exact (congrArg _ (beq_false_of_ne differs)).trans (Bool.and_false _)
  · rfl

/-- A write that does not only clear VALID, by the state of the task and EN. -/
theorem writeTaskEntry_other : writeTaskEntry h y k w1 v =
    if (task h y k).st = .idle then entryWritten h y k w1 (entryMerged h y k w1 v)
    else if isSet h (aSCH_CTL y) fSCH_CTL_EN then raiseBit h (aSCH_STAT y) fSCH_STAT_WRBUSY
    else entryWritten (if w1 = false ∧ fieldOf fSCH_TASK0_VALID (entryMerged h y k w1 v).1 = 0 then retireNow h y k else h) y k
      w1 (entryMerged h y k w1 v) := by
  have other := not_onlyClears other
  unfold writeTaskEntry
  simp only [entryWord, entryMerged] at other
  simp [other]

end

/-- VALID ends as word 0 is written. -/
theorem clearsValid_iff {y k : Nat} (hy : y < 16) (hk : k < 64) (h : Hw) (w1 : Bool) (v : BitVec 64) :
    w1 = false ∧ fieldOf fSCH_TASK0_VALID (entryMerged h y k w1 v.toNat).1 = 0 ↔ w1 = false ∧ v.getLsbD 0 = false := by
  refine and_congr_right fun word0 => ?_
  subst word0
  have valid : fieldOf fSCH_TASK0_VALID (entryMerged h y k false v.toNat).1 = v.toNat % 2 := by
    show fieldOf _ (mergeFields (fieldsOf (aSCH_TASK0 y k)) _ _).1 = _
    rw [fieldsOf_task0 hy hk, valid_of_merged]
  rw [valid, BitVec.getLsbD, Nat.testBit_zero, decide_eq_false_iff_not]
  omega

/-! ## Retirement (R151) -/

theorem task_setF (h : Hw) (a : Nat) (f : Fld) (x y t : Nat) : task (setF h a f x) y t = task h y t :=
  task_of_scheds (congrArg Arr.scheds (setF_arr h a f x)) y t

section
variable {h : Hw} {y k : Nat} (valid : taskValid h y k = true)
include valid

theorem retireTask_idle (idle : (task h y k).st = .idle) : retireTask h y k = setF h (aSCH_TASK0 y k) fSCH_TASK0_VALID 0 := by
  rw [retireTask, if_neg (not_not_intro valid)]
  dsimp only
  rw [if_pos idle]

theorem retireTask_enabled (busy : (task h y k).st ≠ .idle) (enabled : isSet h (aSCH_CTL y) fSCH_CTL_EN = true) :
    retireTask h y k =
      setTask (setF h (aSCH_TASK0 y k) fSCH_TASK0_VALID 0) y k (asRetiring (task h y k)) := by
  rw [retireTask, if_neg (not_not_intro valid)]
  dsimp only
  rw [if_neg busy, if_pos enabled, task_setF, asRetiring]

theorem retireTask_stopped (busy : (task h y k).st ≠ .idle) (stopped : isSet h (aSCH_CTL y) fSCH_CTL_EN = false) :
    retireTask h y k = retireNow (setF h (aSCH_TASK0 y k) fSCH_TASK0_VALID 0) y k := by
  rw [retireTask, if_neg (not_not_intro valid)]
  dsimp only
  rw [if_neg busy, if_neg (Bool.eq_false_iff.mp stopped)]

end

theorem writeReg_retire (m : Sparse Byte) {h : Hw} {y k : Nat} (hy : y < 16) (hk : k < 64) (valid : taskValid h y k = true) :
    writeReg m h (aSCH_TASK0 y k) (oneField h (aSCH_TASK0 y k) fSCH_TASK0_VALID 0) = (m, retireTask h y k) := by
  have write := writeReg_entry (m := m) (h := h) hy hk false (oneField h (aSCH_TASK0 y k) fSCH_TASK0_VALID 0)
  rwa [writeTaskEntry_retire hy hk valid] at write

end Sys2Proof.Machine
end

section
/-!
PROOF. A group whose members' pens are free runs in every member yard at once; one with a member that was not offered waits in
every member (R160, R161).
-/

namespace Sys2Proof.Machine

/-! ## Members (R160) -/

/-- The member entry of a group in a yard (R160). -/
def memberOf (h : Hw) (gr y : Nat) : Option (Nat × Nat) :=
  if (getF h (aCRD_GRP gr) fCRD_GRP_YARDS).testBit y then
    ((List.range 64).find? fun t => taskValid h y t && inGroup h y t && groupOf h y t == gr).map fun t => (y, t)
  else none

theorem groupMembers_eq (h : Hw) (gr : Nat) : groupMembers h gr = (List.range 16).filterMap (memberOf h gr) := rfl

theorem memberOf_some {h : Hw} {gr y : Nat} {u : Nat × Nat} (hu : memberOf h gr y = some u) : u.1 = y ∧ u.2 < 64 := by
  unfold memberOf at hu
  split at hu
  · obtain ⟨t, ht, rfl⟩ := Option.map_eq_some_iff.mp hu
    exact ⟨rfl, List.mem_range.mp (List.mem_of_find?_eq_some ht)⟩
  · cases hu

theorem task_lt_of_groupMembers {h : Hw} {gr : Nat} {u : Nat × Nat} (hu : u ∈ groupMembers h gr) : u.2 < 64 := by
  obtain ⟨y, -, found⟩ := List.mem_filterMap.mp hu
  exact (memberOf_some found).2

/-- No yard has two members. -/
theorem groupMembers_apart (h : Hw) (gr : Nat) : (groupMembers h gr).Pairwise fun u w => w.1 ≠ u.1 := by
  rw [groupMembers_eq]
  refine List.Pairwise.filterMap _ (fun y z apart u hu w hw => ?_) List.nodup_range
  rw [(memberOf_some hu).1, (memberOf_some hw).1]
  exact apart.symm

/-! ## Another yard -/

/-- The tasks of a yard, and what their entries say of them, are as they were. -/
def LeavesTasks (y : Nat) (h t : Hw) : Prop :=
  sched t y = sched h y ∧ ∀ k < 64, reg t (aSCH_TASK0 y k) = reg h (aSCH_TASK0 y k)

theorem LeavesTasks.same (y : Nat) (h : Hw) : LeavesTasks y h h := ⟨rfl, fun _ _ => rfl⟩

theorem LeavesTasks.trans {y : Nat} {a b c : Hw} (h1 : LeavesTasks y a b) (h2 : LeavesTasks y b c) : LeavesTasks y a c :=
  ⟨h2.1.trans h1.1, fun k hk => (h2.2 k hk).trans (h1.2 k hk)⟩

theorem applyAll_leavesTasks {α : Type} {y : Nat} {f : Hw → α → Hw} (hf : ∀ h x, LeavesTasks y h (f h x))
    (xs : List α) (h : Hw) : LeavesTasks y h (applyAll f h xs) := by
  induction xs generalizing h with
  | nil => exact .same y h
  | cons x xs ih => exact (hf h x).trans (ih (f h x))

theorem setSched_leavesTasks (h : Hw) {y z : Nat} (apart : y ≠ z) (x : Sched) : LeavesTasks y h (setSched h z x) :=
  ⟨sched_setSched_ne h x apart, fun _ _ => by rw [reg, setSched_regs, reg]⟩

theorem setF_leavesTasks (h : Hw) {y a : Nat} (apart : ∀ k < 64, aSCH_TASK0 y k ≠ a) (f : Fld) (x : Nat) :
    LeavesTasks y h (setF h a f x) :=
  ⟨by rw [sched, setF_arr, sched], fun k hk => reg_setF_ne h f x (apart k hk)⟩

theorem setPen_leavesTasks (y : Nat) (h : Hw) (n : Nat) (x : Pen) : LeavesTasks y h (setPen h n x) :=
  ⟨by rw [sched, setPen_scheds, sched], fun _ _ => by rw [reg, setPen_regs, reg]⟩

section
variable (y z : Nat)

theorem taskEntry_ne_schedStat : ∀ k < 64, aSCH_TASK0 y k ≠ aSCH_STAT z := by
  simp only [aSCH_TASK0, aSCH_STAT, yardBase, regionBase]
  omega

theorem taskEntry_ne_penStat : ∀ k < 64, aSCH_TASK0 y k ≠ aSCH_PENSTAT z := by
  simp only [aSCH_TASK0, aSCH_PENSTAT, yardBase, regionBase]
  omega

theorem taskEntry_ne_drops : ∀ k < 64, aSCH_TASK0 y k ≠ aSCH_TRDROP z := by
  simp only [aSCH_TASK0, aSCH_TRDROP, yardBase, regionBase]
  omega

end

theorem orderSwitch_leavesTasks (y z e v t c : Nat) (preload : Option Nat) (h : Hw) (p : Nat) :
    LeavesTasks y h (orderSwitch z e v t c preload h p) :=
  ((setF_leavesTasks h (taskEntry_ne_penStat y z) _ _).trans (setF_leavesTasks _ (taskEntry_ne_penStat y z) _ _)).trans
    (setPen_leavesTasks y _ _ _)

section
variable {y z : Nat} (apart : y ≠ z)
include apart

theorem stageRecord_leavesTasks (h : Hw) (r : BitVec 64) : LeavesTasks y h (stageRecord h z r) := by
  unfold stageRecord
  split
  · exact .same y h
  · extract_lets s recs
    split
    · exact setSched_leavesTasks h apart _
    · exact (setSched_leavesTasks h apart _).trans (setF_leavesTasks _ (taskEntry_ne_drops y z) _ _)

/-- A dispatch in another yard. -/
theorem dispatchTask_leavesTasks (h : Hw) (t e v : Nat) : LeavesTasks y h (dispatchTask h z t e v) := by
  obtain ⟨kind, is⟩ := dispatchTask_eq h z t e v
  rw [is]
  exact (((stageRecord_leavesTasks apart h _).trans (setSched_leavesTasks _ apart _)).trans
    (applyAll_leavesTasks (orderSwitch_leavesTasks y z e v t _ _) _ _)).trans
      (setF_leavesTasks _ (taskEntry_ne_schedStat y z) _ _)

end

section
variable {y : Nat} {h t : Hw} (same : LeavesTasks y h t)
include same

theorem LeavesTasks.task (k : Nat) : task t y k = task h y k := by rw [Machine.task, same.1, Machine.task]

theorem LeavesTasks.taskMask {k : Nat} (hk : k < 64) : taskMask t y k = taskMask h y k := by
  rw [Machine.taskMask, getF, same.2 k hk, Machine.taskMask, getF]

theorem LeavesTasks.holderOf (q : Nat) : holderOf t y q = holderOf h y q := by
  unfold Machine.holderOf
  have agree : ∀ k ∈ List.range 64, (holds (Machine.task t y k) && (Machine.taskMask t y k).testBit q) =
      (holds (Machine.task h y k) && (Machine.taskMask h y k).testBit q) := by
    intro k hk
    rw [same.task k, same.taskMask (List.mem_range.mp hk)]
  rw [← List.head?_filter, List.filter_congr agree, List.head?_filter]

end

/-! ## A group dispatched (R161) -/

/-- No task holds a pen of the mask of a member. -/
def PensFree (h : Hw) (u : Nat × Nat) : Prop :=
  (pensOf (taskMask h u.1 u.2)).filterMap (fun q => holderOf h u.1 q) = []

theorem LeavesTasks.pensFree {h t : Hw} {u : Nat × Nat} (same : LeavesTasks u.1 h t) (hu : u.2 < 64) (free : PensFree h u) :
    PensFree t u := by
  rw [PensFree, same.taskMask hu]
  rw [PensFree] at free
  simpa only [same.holderOf] using free

/-- The dispatch of one member, with the switch timed by event cycle e (R161, R162). -/
def dispatchMember (e : Nat) (h : Hw) (u : Nat × Nat) : Hw :=
  let holders := ((pensOf (taskMask h u.1 u.2)).filterMap fun q => holderOf h u.1 q).eraseDups
  let s := dispatchOver (freshEval h u.1 e h.aclk) u.2 holders
  let left := outside (holders.foldl (fun m w => m ||| taskMask h u.1 w) 0) (taskMask h u.1 u.2)
  s.late.foldl (fun h r => stageRecord h u.1 r) (haltPens s.h u.1 left e h.aclk u.2)

theorem outside_zero (mask : Nat) : outside 0 mask = 0 := by
  simp only [outside, Nat.zero_testBit, Bool.false_and, Bool.false_eq_true, if_false]
  rfl

/-- A member whose pens are free takes them from none. -/
theorem dispatchMember_free {h : Hw} {u : Nat × Nat} (free : PensFree h u) (e : Nat) :
    ∃ p, dispatchMember e h u = moveRr (dispatchTask h u.1 u.2 e h.aclk) u.1 p u.2 := by
  obtain ⟨p, is⟩ := dispatchOver_nil (freshEval h u.1 e h.aclk) u.2
  refine ⟨p, Eq.trans ?_ is⟩
  unfold dispatchMember
  rw [free]
  dsimp only [List.eraseDups_nil, List.foldl_nil]
  rw [outside_zero]
  rfl

section
variable {h : Hw} {u : Nat × Nat} (free : PensFree h u) (e : Nat)
include free

theorem dispatchMember_runs : (task (dispatchMember e h u) u.1 u.2).st = .running := by
  obtain ⟨p, is⟩ := dispatchMember_free free e
  rw [is, task_moveRr, task_dispatchTask]

theorem dispatchMember_leavesTasks {y : Nat} (apart : y ≠ u.1) : LeavesTasks y h (dispatchMember e h u) := by
  obtain ⟨p, is⟩ := dispatchMember_free free e
  rw [is]
  exact (dispatchTask_leavesTasks apart h _ _ _).trans (setSched_leavesTasks _ apart _)

end

/-- Members of different yards with free pens all run, and other yards keep their tasks. -/
theorem dispatchMembers_run (e : Nat) {us : List (Nat × Nat)} {h : Hw} (yards : us.Pairwise fun u w => w.1 ≠ u.1)
    (small : ∀ u ∈ us, u.2 < 64) (free : ∀ u ∈ us, PensFree h u) :
    (∀ u ∈ us, (task (applyAll (dispatchMember e) h us) u.1 u.2).st = .running) ∧
      ∀ y, (∀ u ∈ us, u.1 ≠ y) → LeavesTasks y h (applyAll (dispatchMember e) h us) := by
  induction us generalizing h with
  | nil => exact ⟨nofun, fun y _ => .same y h⟩
  | cons u us ih =>
    obtain ⟨away, yards⟩ := List.pairwise_cons.mp yards
    obtain ⟨-, small⟩ := List.forall_mem_cons.mp small
    obtain ⟨first, free⟩ := List.forall_mem_cons.mp free
    obtain ⟨run, leave⟩ := ih yards small fun w hw =>
      (dispatchMember_leavesTasks first e (away w hw)).pensFree (small w hw) (free w hw)
    refine ⟨List.forall_mem_cons.mpr ⟨?_, run⟩, fun y others => ?_⟩
    · rw [applyAll_cons, (leave u.1 away).task]
      exact dispatchMember_runs first e
    · obtain ⟨other, others⟩ := List.forall_mem_cons.mp others
      exact (dispatchMember_leavesTasks first e other.symm).trans (leave y others)

/-! ## A group that waits (R161) -/

/-- What each update of a list brings about for its item, and all of them keep, holds of every item at the end. -/
theorem applyAll_each {α : Type} {f : Hw → α → Hw} {P : α → Hw → Prop} (gives : ∀ h x, P x (f h x))
    (keeps : ∀ h x w, P x h → P x (f h w)) {xs : List α} {x : α} (hx : x ∈ xs) (h : Hw) : P x (applyAll f h xs) := by
  have stays (ys : List α) (t : Hw) (ht : P x t) : P x (applyAll f t ys) := by
    induction ys generalizing t with
    | nil => exact ht
    | cons y ys ih => exact ih (f t y) (keeps t x y ht)
  induction xs generalizing h with
  | nil => cases hx
  | cons y xs ih =>
    rcases List.mem_cons.mp hx with rfl | hx
    · exact stays xs _ (gives h x)
    · exact ih hx (f h y)

theorem task_of_same_tasks (h : Hw) {z : Nat} {x : Sched} (same : x.tasks = (sched h z).tasks) (y t : Nat) :
    task (setSched h z x) y t = task h y t := by
  by_cases hy : y = z
  · subst hy
    exact task_setSched h y x same t
  · rw [task, sched_setSched_ne h x hy, task]

theorem task_setTask_ne (h : Hw) {y t z w : Nat} (x : Task) (hu : (y, t) ≠ (z, w)) :
    task (setTask h z w x) y t = task h y t := by
  by_cases hy : y = z
  · subst hy
    have ht : t ≠ w := fun ht => hu (by rw [ht])
    rw [task, setTask, sched_setSched_same, getD_setD_ne _ _ _ ht, task]
  · rw [task, setTask, sched_setSched_ne h _ hy, task]

theorem task_stageRecord (h : Hw) (z : Nat) (r : BitVec 64) (y t : Nat) : task (stageRecord h z r) y t = task h y t := by
  unfold stageRecord
  split
  · rfl
  · extract_lets s recs
    split
    · exact task_of_same_tasks h (by rfl) y t
    · exact (task_of_scheds (congrArg Arr.scheds (bump_arr _ _ _ _)) y t).trans (task_of_same_tasks h (by rfl) y t)

/-- One member that waits for others, with its record. -/
def waitMember (h : Hw) (u : Nat × Nat) : Hw :=
  let s := evalWait (freshEval h u.1 0 0) u.2 4
  s.late.foldl (fun h r => stageRecord h u.1 r) s.h

/-- A task that has its WAIT of reason 0x04 noted (R161). -/
def withGroupWait (k : Task) : Task := { k with waits := k.waits ||| 4 }

/-- The WAIT of a member is recorded once for its readiness, and nothing else changes of its yard's tasks. -/
theorem waitMember_cases (h : Hw) (u : Nat × Nat) :
    (task h u.1 u.2).waits.getLsbD 2 = true ∧ waitMember h u = h ∨
      ∃ r, waitMember h u = stageRecord (setTask h u.1 u.2 (withGroupWait (task h u.1 u.2))) u.1 r := by
  unfold waitMember evalWait
  dsimp only
  split
  · rename_i noted
    exact .inl ⟨noted, rfl⟩
  · exact .inr ⟨_, rfl⟩

theorem withGroupWait_noted (k : Task) : (withGroupWait k).waits.getLsbD 2 = true := by
  rw [withGroupWait, BitVec.getLsbD_or]
  exact Bool.or_true _

theorem task_waitMember_same (h : Hw) (u : Nat × Nat) : (task (waitMember h u) u.1 u.2).waits.getLsbD 2 = true := by
  rcases waitMember_cases h u with ⟨noted, is⟩ | ⟨r, is⟩
  · rwa [is]
  · rw [is, task_stageRecord, task_setTask_same, withGroupWait_noted]

/-- A member that waits leaves every task in its state, with the waits noted of it. -/
theorem task_waitMember (h : Hw) (u : Nat × Nat) (y t : Nat) :
    task (waitMember h u) y t = task h y t ∨ task (waitMember h u) y t = withGroupWait (task h y t) := by
  rcases waitMember_cases h u with ⟨-, is⟩ | ⟨r, is⟩
  · exact .inl (by rw [is])
  · rw [is, task_stageRecord]
    by_cases hu : (y, t) = u
    · subst hu
      exact .inr (task_setTask_same h y t _)
    · exact .inl (task_setTask_ne h _ hu)

theorem st_waitMember (h : Hw) (u : Nat × Nat) (y t : Nat) : (task (waitMember h u) y t).st = (task h y t).st := by
  rcases task_waitMember h u y t with is | is <;> rw [is]
  rfl

theorem waits_waitMember {h : Hw} {y t : Nat} (u : Nat × Nat) (noted : (task h y t).waits.getLsbD 2 = true) :
    (task (waitMember h u) y t).waits.getLsbD 2 = true := by
  rcases task_waitMember h u y t with is | is <;> rw [is]
  · exact noted
  · exact withGroupWait_noted _

theorem st_waitMembers (h : Hw) (us : List (Nat × Nat)) (y t : Nat) :
    (task (applyAll waitMember h us) y t).st = (task h y t).st :=
  applyAll_kept (g := fun h => (task h y t).st) (fun h u => st_waitMember h u y t) us h

theorem waits_waitMembers (h : Hw) {us : List (Nat × Nat)} {u : Nat × Nat} (hu : u ∈ us) :
    (task (applyAll waitMember h us) u.1 u.2).waits.getLsbD 2 = true :=
  applyAll_each (f := waitMember) (P := fun u h => (task h u.1 u.2).waits.getLsbD 2 = true)
    task_waitMember_same (fun _ _ w noted => waits_waitMember w noted) hu h

/-! ## Offers taken back (R161) -/

/-- The offer of a member taken back. -/
def dropOffer (h : Hw) (u : Nat × Nat) : Hw :=
  setSched h u.1 { sched h u.1 with offers := (sched h u.1).offers.filter fun t => t ≠ u.2 }

theorem task_dropOffers (h : Hw) (us : List (Nat × Nat)) (y t : Nat) : task (applyAll dropOffer h us) y t = task h y t :=
  applyAll_kept (g := fun h => task h y t) (fun h u => task_of_same_tasks h (by rfl) y t) us h

theorem offers_dropOffers (h : Hw) {us : List (Nat × Nat)} {u : Nat × Nat} (hu : u ∈ us) :
    (sched (applyAll dropOffer h us) u.1).offers.contains u.2 = false := by
  have gone : u.2 ∉ (sched (applyAll dropOffer h us) u.1).offers := by
    refine applyAll_each (P := fun u h => u.2 ∉ (sched h u.1).offers) (fun h u => ?_) (fun h u w gone => ?_) hu h
    · rw [dropOffer, sched_setSched_same]
      exact fun left => of_decide_eq_true (List.mem_filter.mp left).2 rfl
    · by_cases yard : u.1 = w.1
      · rw [dropOffer, yard, sched_setSched_same, ← yard]
        exact fun left => gone (List.mem_filter.mp left).1
      · rwa [dropOffer, sched_setSched_ne _ _ yard]
  rw [List.contains_eq_mem, decide_eq_false gone]

/-! ## The coordinator's decision (R161) -/

section
variable {h : Hw} {gr : Nat} (enabled : isSet h (aCRD_GRP gr) fCRD_GRP_EN = true) (runs : frozen h = false)
  (members : groupMembers h gr ≠ []) (ready : ∀ u ∈ groupMembers h gr, (task h u.1 u.2).st = .ready)
include enabled runs members ready

/-- An active group with every member READY is decided on, unless the device is FROZEN. -/
theorem dispatchGroup_decides : ¬ ((groupMembers h gr).isEmpty = true ∨
    ¬ ((groupMembers h gr).all fun u => (task h u.1 u.2).st == .ready) = true ∨ ¬ isSet h (aCRD_GRP gr) fCRD_GRP_EN = true ∨
      frozen h = true) := by
  have all : ((groupMembers h gr).all fun u => (task h u.1 u.2).st == .ready) = true :=
    List.all_eq_true.mpr fun u hu => beq_iff_eq.mpr (ready u hu)
  simp [enabled, runs, members, all]

theorem dispatchGroup_whole (whole : groupWhole h gr = true)
    (offered : ∀ u ∈ groupMembers h gr, (sched h u.1).offers.contains u.2 = true) :
    ∃ e, dispatchGroup h gr = applyAll dropOffer (applyAll (dispatchMember e) h (groupMembers h gr)) (groupMembers h gr) := by
  refine ⟨(groupMembers h gr).foldl (fun m u => max m (sched h u.1).offerE) 0, ?_⟩
  unfold dispatchGroup
  extract_lets us off rdy clear e
  rw [if_neg (dispatchGroup_decides enabled runs members ready), if_pos ⟨List.all_eq_true.mpr offered, whole⟩]
  rfl

theorem dispatchGroup_waits (missing : ∃ u ∈ groupMembers h gr, (sched h u.1).offers.contains u.2 = false) :
    dispatchGroup h gr = applyAll dropOffer (applyAll waitMember h (groupMembers h gr)) (groupMembers h gr) := by
  obtain ⟨u, hu, without⟩ := missing
  unfold dispatchGroup
  extract_lets us off rdy clear
  rw [if_neg (dispatchGroup_decides enabled runs members ready),
    if_neg fun both => Bool.eq_false_iff.mp without (List.all_eq_true.mp both.1 u hu)]
  rfl

end

/-! ## Evaluations and SYNC (R155, R164) -/

theorem evaluate_edge {h : Hw} {y : Nat} (runs : arrayRuns h y = true) (edge : onEdge h y = true)
    (enabled : isSet h (aSCH_CTL y) fSCH_CTL_EN = true) :
    evaluate h y = endEvaluation (evalDispatchAll ((List.range 64).foldl (evalTrigger (eventsTaken (takenNow h y)))
      ((List.range 64).foldl (evalDone (eventsTaken (takenNow h y)))
        ((List.range 64).foldl evalRetire (beginEvaluation h y))))) := by
  rw [evaluate, if_neg (not_not_intro ⟨runs, edge, enabled⟩)]

theorem syncRings_due {h : Hw} (due : crdTick h % 2 ^ 29 = 0) (runs : frozen h = false) : syncRings h =
    applyAll (fun h y => stageRecord h y (traceRecord h y 0xE 0 0 0 (crdTick h / 2 ^ 30 % 256))) h (List.range 16) := by
  rw [syncRings, if_pos ⟨due, Bool.eq_false_iff.mp runs⟩]

end Sys2Proof.Machine

open Sys2Proof Sys2Proof.Machine

/-- Settles O21: the commands on a register by what takes the written value, a write of a task entry by the state of its task,
and a group by its members, whose yards differ, so that the dispatch of one leaves the others' pens free. -/
theorem schedulerCommandsAct : Obligations.SchedulerCommandsAct := by
  refine ⟨?evaluation, ?dispatched, ?waits, ?retireIdle, ?retireLater, ?retireAtOnce, ?entryIdle, ?entryBusy, ?entryStopped,
    ?sync, ?ringFits, ?ringExceeds, ?doorbell, ?latch⟩
  case evaluation => exact fun y s runs edge enabled => givesHw_onHw rfl (evaluate_edge runs edge enabled)
  case dispatched =>
    intro gr s enabled runs members whole could
    have ready : ∀ u ∈ groupMembers s.hw gr, (task s.hw u.1 u.2).st = .ready := fun u hu =>
      have ⟨ready, _, _⟩ := could u hu
      ready
    have offered : ∀ u ∈ groupMembers s.hw gr, (sched s.hw u.1).offers.contains u.2 = true := fun u hu =>
      have ⟨_, offered, _⟩ := could u hu
      offered
    have free : ∀ u ∈ groupMembers s.hw gr, PensFree s.hw u := fun u hu =>
      have ⟨_, _, free⟩ := could u hu
      free
    obtain ⟨e, is⟩ := dispatchGroup_whole enabled runs members ready whole offered
    obtain ⟨run, -⟩ := dispatchMembers_run e (groupMembers_apart s.hw gr) (fun u hu => task_lt_of_groupMembers hu) free
    refine ⟨_, rfl, fun u hu => ?_⟩
    rw [onHw_hw, is, task_dropOffers]
    exact run u hu
  case waits =>
    intro gr s enabled runs members ready missing
    refine ⟨_, rfl, fun u hu => ?_⟩
    rw [onHw_hw, dispatchGroup_waits enabled runs members ready missing, task_dropOffers]
    refine ⟨?_, ?_, offers_dropOffers _ hu⟩
    · rw [st_waitMembers]
      exact ready u hu
    · exact waits_waitMembers s.hw hu
  case retireIdle =>
    intro y k s up valid idle
    refine givesHw_busWrite up rfl ((writeReg_retire s.mem y.isLt k.isLt valid).trans ?_)
    rw [retireTask_idle valid idle]
  case retireLater =>
    intro y k s up valid busy enabled
    refine givesHw_busWrite up rfl ((writeReg_retire s.mem y.isLt k.isLt valid).trans ?_)
    rw [retireTask_enabled valid busy enabled]
  case retireAtOnce =>
    intro y k s up valid busy stopped
    refine givesHw_busWrite up rfl ((writeReg_retire s.mem y.isLt k.isLt valid).trans ?_)
    rw [retireTask_stopped valid busy stopped]
  case entryIdle =>
    intro y k w1 v s up idle other
    refine givesHw_busWrite up rfl ((writeReg_entry y.isLt k.isLt w1 v).trans ?_)
    rw [writeTaskEntry_other other, if_pos idle]
  case entryBusy =>
    intro y k w1 v s up busy enabled other
    refine givesHw_busWrite up rfl ((writeReg_entry y.isLt k.isLt w1 v).trans ?_)
    rw [writeTaskEntry_other other, if_neg busy, if_pos enabled]
  case entryStopped =>
    intro y k w1 v s up busy stopped other
    refine givesHw_busWrite up rfl ((writeReg_entry y.isLt k.isLt w1 v).trans ?_)
    rw [writeTaskEntry_other other, if_neg busy, if_neg (Bool.eq_false_iff.mp stopped),
      ite_congr (propext (clearsValid_iff y.isLt k.isLt s.hw w1 v)) (fun _ => rfl) (fun _ => rfl)]
  case sync => exact fun s due runs => givesHw_onHw rfl (syncRings_due due runs)
  case ringFits =>
    intro y v s up fits
    refine givesHw_busWrite up rfl ((writeReg_trrd s.mem s.hw y.isLt _).trans ?_)
    rw [BitVec.toNat_setWidth_of_le (by decide), writeTrrd_fits v.isLt fits]
  case ringExceeds =>
    intro y v s up exceeds
    refine givesHw_busWrite up rfl ((writeReg_trrd s.mem s.hw y.isLt _).trans ?_)
    rw [BitVec.toNat_setWidth_of_le (by decide), writeTrrd_exceeds v.isLt exceeds]
  case doorbell =>
    intro y bits s up
    refine givesHw_busWrite up rfl ((writeReg_doorbell s.mem s.hw y.isLt _).trans ?_)
    rw [BitVec.toNat_setWidth_of_le (by decide), ringDoorbell]
  case latch => exact fun s up => givesHw_busWrite up rfl (writeReg_latch s.mem s.hw)
end

section
/-!
PROOF. The memory, power and ageing commands, where no check turns them away, are their bodies, answered; those of `YARD_MODE`
are answered as soon as their transition has ended.
-/

namespace Sys2Proof.Machine

/-! ## What a body gives (R353) -/

section
variable {i : Instr} {s : State} {sl : Fin 48} {opc : Nat} {valid : Slot → Hw → Bool} {body : Slot → State → State × Reply}

/-- A body that changes the hardware alone, and what it gives. -/
theorem givesHw_body (he : exec i s = .next (command opc s sl valid body)) (hr : Ready s sl opc)
    (hv : valid (held s sl) (asked s sl).hw = true) {h : Hw} {r : Reply}
    (hb : body (held s sl) (asked s sl) = ({ s with hw := h }, r)) : GivesHw i s (afterBody sl ({ s with hw := h }, r)).hw := by
  rw [GivesHw, he, command_of_ready hr hv, hb]
  cases r <;> rfl

end

theorem tableTotal_memTest {x : Slot} (code : x.opc = 0x801) : tableTotal x = 32848 * popCount 16 (pay x 0 2) := by
  rw [tableTotal, code]
  rfl

theorem tableTotal_replan {x : Slot} (code : x.opc = 0x904) : tableTotal x = popCount 16 (pay x 0 2) := by
  rw [tableTotal, code]
  rfl

/-! ## `MEM_TEST` (R202) -/

section
variable {s : State} {sl : Fin 48} (ready : Ready s sl 0x801)
include ready

theorem memTest_starts (test : s.hw.mode = .test) : GivesHw (.memTest sl) s (becomeRunning
    (withMemTest (asked s sl).hw (some (memTestOf (asked s sl).hw (pay (held s sl) 0 2)))) sl
      (32848 * popCount 16 (pay (held s sl) 0 2))) := by
  refine givesHw_body (r := .running _) rfl ready rfl ((if_neg (not_not_intro test)).trans ?_)
  rw [tableTotal_memTest (held_opc ready.1)]
  rfl

theorem memTest_elsewhere (other : s.hw.mode ≠ .test) : GivesHw (.memTest sl) s (reply (asked s sl).hw sl stWrong []) :=
  givesHw_body (r := .done _ _) rfl ready rfl (if_pos other)

end

/-! ## `YARD_MODE` (R404, R405, R407) -/

/-- The fields of `YARD_MODE` are in range, and its divide fits the neighbours (R407). -/
structure YardModeFits (s : State) (sl : Fin 48) : Prop where
  ready : Ready s sl 0x901
  div : divFits (asked s sl).hw (pay (held s sl) 0 1) (pay (held s sl) 2 1) = true
  yard : pay (held s sl) 0 1 < 16
  mode : pay (held s sl) 1 1 ≤ 2
  code : pay (held s sl) 2 1 ≤ 2

theorem yardMode_body {s : State} {sl : Fin 48} (fits : YardModeFits s sl) {h : Hw} {r : Reply}
    (hb : yardModeBody (held s sl) (asked s sl) = ({ s with hw := h }, r)) :
    GivesHw (.yardMode sl) s (settleYardModes (afterBody sl ({ s with hw := h }, r)).hw) := by
  obtain ⟨ready, div, yard, mode, code⟩ := fits
  have run : execYardMode sl s = .next (onHw (afterBody sl (yardModeBody (held s sl) (asked s sl))) settleYardModes) :=
    congrArg (fun t => Host.Outcome.next (onHw t settleYardModes)) (command_of_ready ready (by simp [yard, mode, code, div]))
  rw [GivesHw, show exec (.yardMode sl) s = execYardMode sl s from rfl, run, hb]
  cases r <;> rfl

section
variable {x : Slot} {t : State}

theorem yardModeBody_taskRuns (down : pay x 1 1 ≠ 0) (runs : taskRuns t.hw (pay x 0 1) = true) :
    yardModeBody x t = (t, .done stWrong []) := if_pos ⟨down, runs⟩

/-- The divide of a yard as `YARD_MODE` leaves it. -/
def divided (h : Hw) (y d : Nat) : Hw := if d = yardDiv h y then h else writeDiv h y d

theorem divided_same {h : Hw} {y d : Nat} (same : d = yardDiv h y) : divided h y d = h := if_pos same

theorem divided_changed {h : Hw} {y d : Nat} (changes : d ≠ yardDiv h y) : divided h y d = writeDiv h y d := if_neg changes

section
variable (off : pay x 1 1 = 0 ∨ taskRuns t.hw (pay x 0 1) = false)
include off

theorem not_taskHolds : ¬ (pay x 1 1 ≠ 0 ∧ taskRuns t.hw (pay x 0 1) = true) := fun ⟨down, runs⟩ =>
  off.elim down fun idle => Bool.eq_false_iff.mp idle runs

theorem yardModeBody_busy (changes : pay x 2 1 ≠ yardDiv t.hw (pay x 0 1))
    (runs : fnRunning t.hw (fnId 3 (pay x 0 1)) = true) : yardModeBody x t = (t, .done stBusy []) :=
  (if_neg (not_taskHolds off)).trans (if_pos ⟨changes, runs⟩)

theorem yardModeBody_asks
    (may : pay x 2 1 = yardDiv t.hw (pay x 0 1) ∨ fnRunning t.hw (fnId 3 (pay x 0 1)) = false) :
    yardModeBody x t = ({ t with hw := (
      if pay x 1 1 = 0 then wakeRequest (divided t.hw (pay x 0 1) (pay x 2 1)) (pay x 0 1)
      else powerDownRequest (divided t.hw (pay x 0 1) (pay x 2 1)) (pay x 0 1) (pay x 1 1)) }, .later) :=
  (if_neg (not_taskHolds off)).trans (if_neg fun ⟨changes, runs⟩ =>
    may.elim changes fun stopped => Bool.eq_false_iff.mp stopped runs)

end
end

section
variable {s : State} {sl : Fin 48} (fits : YardModeFits s sl)
  (may : pay (held s sl) 2 1 = yardDiv (asked s sl).hw (pay (held s sl) 0 1) ∨
    fnRunning (asked s sl).hw (fnId 3 (pay (held s sl) 0 1)) = false)
include fits may

theorem yardMode_down (down : pay (held s sl) 1 1 ≠ 0) (idle : taskRuns (asked s sl).hw (pay (held s sl) 0 1) = false) :
    GivesHw (.yardMode sl) s (settleYardModes (powerDownRequest
      (divided (asked s sl).hw (pay (held s sl) 0 1) (pay (held s sl) 2 1)) (pay (held s sl) 0 1) (pay (held s sl) 1 1))) :=
  yardMode_body (r := .later) fits (by rw [yardModeBody_asks (.inr idle) may, if_neg down]; rfl)

theorem yardMode_wake (run : pay (held s sl) 1 1 = 0) : GivesHw (.yardMode sl) s (settleYardModes (wakeRequest
    (divided (asked s sl).hw (pay (held s sl) 0 1) (pay (held s sl) 2 1)) (pay (held s sl) 0 1))) :=
  yardMode_body (r := .later) fits (by rw [yardModeBody_asks (.inl run) may, if_pos run]; rfl)

end

/-! ### Its answer -/

section
variable {h : Hw} {sl opc : Nat} {f : Hw → Slot → Option (Nat × List Byte)} (taken : (slot h sl).st = .taken)
  (code : (slot h sl).opc = opc) (mine : (slot h sl).left = 2 ^ selfAddr h) (only : h.slots = [(sl, slot h sl)])
include taken code mine only

/-- The one slot that holds a command of an opcode is answered as its end says. -/
theorem answerLater_only :
    answerLater h opc f = (f h (slot h sl)).elim h fun answer => reply h sl answer.1 answer.2 := by
  have here : (slot h sl).left.testBit (selfAddr h) = true := by rw [mine, Nat.testBit_two_pow_self]
  unfold answerLater
  rw [only]
  refine (if_pos ⟨taken, code, here⟩).trans ?_
  cases f h (slot h sl) <;> rfl

end

section
variable {h : Hw} {sl : Nat} (runs : frozen h = false) (taken : (slot h sl).st = .taken) (code : (slot h sl).opc = 0x901)
  (mine : (slot h sl).left = 2 ^ selfAddr h) (only : h.slots = [(sl, slot h sl)])
include runs taken code mine only

theorem settleYardModes_answers {st : Nat} {resp : List Byte} (ends : yardModeEnd h (slot h sl) = some (st, resp)) :
    settleYardModes h = reply h sl st resp := by
  rw [settleYardModes, if_neg (Bool.eq_false_iff.mp runs), answerLater_only taken code mine only, ends, Option.elim_some]

theorem settleYardModes_waits (ends : yardModeEnd h (slot h sl) = none) : settleYardModes h = h := by
  rw [settleYardModes, if_neg (Bool.eq_false_iff.mp runs), answerLater_only taken code mine only, ends, Option.elim_none]

end

section
variable {h : Hw} {x : Slot}

theorem yardModeEnd_runs (run : pay x 1 1 = 0) (runs : yardRuns h (pay x 0 1) = true) : yardModeEnd h x = some (stOk, []) :=
  (if_pos run).trans (if_pos runs)

theorem yardModeEnd_reached (down : pay x 1 1 ≠ 0) (mode : getF h (aYP_STAT (pay x 0 1)) fYP_STAT_MODE = pay x 1 1)
    (still : getF h (aYP_STAT (pay x 0 1)) fYP_STAT_TRANS = 0) : yardModeEnd h x = some (stOk, []) :=
  (if_neg down).trans (if_pos ⟨mode, still⟩)

section
variable (down : pay x 1 1 ≠ 0) (mode : getF h (aYP_STAT (pay x 0 1)) fYP_STAT_MODE ≠ pay x 1 1)
include down mode

theorem yardModeEnd_aborted (runs : yardRuns h (pay x 0 1) = true) (unwanted : (yardPw h (pay x 0 1)).want = none) :
    yardModeEnd h x = some (stWrong, []) :=
  (if_neg down).trans ((if_neg fun reached => mode reached.1).trans (if_pos ⟨runs, by rw [unwanted]; rfl⟩))

theorem yardModeEnd_wanted (wanted : (yardPw h (pay x 0 1)).want.isSome = true) : yardModeEnd h x = none :=
  (if_neg down).trans ((if_neg fun reached => mode reached.1).trans (if_neg fun aborted => by
    rw [Option.isNone_iff_eq_none.mp aborted.2] at wanted
    cases wanted))

end
end
end Sys2Proof.Machine

open Sys2Proof Sys2Proof.Machine

/-- Settles O47: each command is its body, answered; that of `YARD_MODE` by whether a task runs, whether the divide changes,
and which mode it asks for. -/
theorem memoryAndPowerCommandsRun : Obligations.MemoryAndPowerCommandsRun := by
  refine ⟨?muckSet, ?memTest, ?noTest, ?memStatus, ?repairs, ?trough, ?volt, ?taskRuns, ?down, ?busy, ?downDivided,
    ?wakeDivided, ?wake, ?runs, ?reached, ?aborted, ?wanted, ?policy, ?report, ?replan, ?clocks⟩
  case muckSet => exact fun sl s ready en => givesHw_acts rfl ready (by simp [en])
  case memTest => exact fun sl s ready test => memTest_starts ready test
  case noTest => exact fun sl s ready other => memTest_elsewhere ready other
  case memStatus => exact fun sl s ready => givesHw_answers rfl ready rfl
  case repairs =>
    exact fun sl s ready bank => givesHw_answers rfl ready (by simp [bank]) (r := (_, (asked s sl).hw))
  case trough =>
    rintro sl n k s ready pn tr rfl rfl
    exact givesHw_answers rfl ready (by simp [pn, tr])
  case volt =>
    intro sl s ready yard keep lo hi step fits
    exact givesHw_acts rfl ready (by simp [voltCode, yard, keep, lo, hi, step, fits]) (by simp [voltCode, withVoltage])
  case taskRuns =>
    exact fun sl s ready div yard mode code down runs =>
      yardMode_body (r := .done _ _) ⟨ready, div, yard, mode, code⟩ (yardModeBody_taskRuns down runs)
  case busy =>
    exact fun sl s ready div yard mode code off changes runs =>
      yardMode_body (r := .done _ _) ⟨ready, div, yard, mode, code⟩ (yardModeBody_busy off changes runs)
  case down =>
    intro sl s ready div yard mode code down idle same
    have gives := yardMode_down ⟨ready, div, yard, mode, code⟩ (.inl same) down idle
    rwa [divided_same same] at gives
  case downDivided =>
    intro sl s ready div yard mode code down idle changes stopped
    have gives := yardMode_down ⟨ready, div, yard, mode, code⟩ (.inr stopped) down idle
    rwa [divided_changed changes] at gives
  case wakeDivided =>
    intro sl s ready div yard mode code run changes stopped
    have gives := yardMode_wake ⟨ready, div, yard, mode, code⟩ (.inr stopped) run
    rwa [divided_changed changes] at gives
  case wake =>
    intro sl s ready div yard mode code run same
    have gives := yardMode_wake ⟨ready, div, yard, mode, code⟩ (.inl same) run
    rwa [divided_same same] at gives
  case runs =>
    rintro h sl x y live rfl rfl taken code mine only run runs
    exact settleYardModes_answers live taken code mine only (yardModeEnd_runs run runs)
  case reached =>
    rintro h sl x y live rfl rfl taken code mine only down mode still
    exact settleYardModes_answers live taken code mine only (yardModeEnd_reached down mode still)
  case aborted =>
    rintro h sl x y live rfl rfl taken code mine only down mode runs unwanted
    exact settleYardModes_answers live taken code mine only (yardModeEnd_aborted down mode runs unwanted)
  case wanted =>
    rintro h sl x y live rfl rfl taken code mine only down mode wanted
    exact settleYardModes_waits live taken code mine only (yardModeEnd_wanted down mode wanted)
  case policy => exact fun sl s ready policy => givesHw_acts rfl ready (by simp [policy])
  case report => exact fun sl s ready => givesHw_answers rfl ready rfl (r := (_, (asked s sl).hw))
  case replan =>
    intro sl s ready
    refine givesHw_body (r := .running _) rfl ready rfl ?_
    rw [tableTotal_replan (held_opc ready.1)]
    rfl
  case clocks => exact fun sl s ready => givesHw_answers rfl ready rfl (r := (_, (asked s sl).hw))
end

section
/-!
PROOF. Muck-out: what a segment's start and end change, where a failing row goes, and which slot and pages a ledger write
programs.
-/

namespace Sys2Proof.Machine

theorem givesMem_onMem {i : Instr} {s : State} {f : Sparse Byte → Hw → Sparse Byte × Hw} {r : Sparse Byte × Hw}
    (he : exec i s = .next (onMem s f)) (is : f s.mem s.hw = r) : GivesMem i s r := by
  rw [GivesMem, he, onMem, is]

/-! ## Segments (R196 to R199, R202) -/

theorem muck_setMuck (h : Hw) (y : Nat) (x : Muck) : muck (setMuck h y x) y = x := getD_setD_same _ _ _ _

theorem muck_of_arr {h t : Hw} (same : t.arr = h.arr) (y : Nat) : muck t y = muck h y := by rw [muck, same, muck]

theorem memTested_arr (h : Hw) (y : Nat) : (memTested h y).arr = h.arr := by
  unfold memTested
  split <;> rfl

theorem showActive_arr (h : Hw) : (showActive h).arr = h.arr := setF_arr _ _ _ _

section
variable {h : Hw} {y : Nat} (clocked : muckClocked h y = true) (live : frozen h = false)
include clocked live

theorem muckStart_takes (m : Sparse Byte) (saved : List Ecc)
    (asked : isSet h aMO_CTL fMO_CTL_EN = true ∨ memTesting h y = true) (idle : (muck h y).holding = false)
    (up : h.yardsUp = true) :
    muckStart m h y saved = (List.zip (List.range 8) saved).foldl (fun x e => scrubAt x.1 x.2 y (muck h y).seg e.1 e.2)
      (m, setF (setMuck h y (muckHolds (muck h y))) aMO_STAT fMO_STAT_ACTIVE 1) :=
  if_pos ⟨asked, Bool.eq_false_iff.mp idle, up, clocked, Bool.eq_false_iff.mp live⟩

/-- Whatever the test found, the walk stands at the next segment, or at the first after the last. -/
theorem muck_muckComplete (bad : List Nat) (holds : (muck h y).holding = true) :
    muck (muckComplete h y bad) y = ⟨if (muck h y).seg + 1 = passSegs then 0 else (muck h y).seg + 1, false⟩ := by
  unfold muckComplete
  extract_lets k p mem b i r wrap h1 h2
  have moved : h2.arr = h1.arr := by
    by_cases last : wrap
    · rw [show h2 = bump h1 aMO_STAT fMO_STAT_PASSCNT 1 from if_pos last, bump_arr]
    · rw [show h2 = h1 from if_neg last]
  have tested : (memTested (showActive h2) y).arr = h1.arr := by
    rw [memTested_arr, showActive_arr, moved]
  rw [if_neg (by simp [k, holds, clocked, live]), muck_of_arr tested]
  exact muck_setMuck r y _

end

/-! ## Repair (R199, R200, R201) -/

theorem repairRow_spare {h : Hw} {i j : Nat} (row addr : Nat) (spare : freeSpare h i = some j) : repairRow h i row addr =
    postFinding (bump (setF (raiseBit h (aRPR_BANK i) (fRPR_BANK_USED j)) (aRPR_BANK i) (fRPR_BANK_ROW j) row)
      aMO_FIND fMO_FIND_RPR 1) 0x0005 0x042 0xFF (addr % 2 ^ 40 + i % 256 * 2 ^ 40) 0 := by
  rw [repairRow, spare]

theorem OnlyRegsObs.badRows {h t : Hw} (only : OnlyRegsObs h t) : t.badRows = h.badRows := by
  obtain ⟨r, j, o, rfl⟩ := only
  rfl

theorem rowLost_only (h : Hw) (i addr : Nat) : OnlyRegsObs h (rowLost h i addr) :=
  ((setReg_only h _ _).trans (bump_only _ _ _ _)).obs.trans (postFinding_only _ _ _ _ _ _)

section
variable {h : Hw} {i row : Nat} (addr : Nat) (spent : freeSpare h i = none)
include spent

theorem repairRow_bad (bad : h.badRows.contains (i, row) = true) : repairRow h i row addr = h := by
  rw [repairRow, spent]
  exact if_pos bad

section
variable (good : h.badRows.contains (i, row) = false)
include good

theorem repairRow_full (full : 64 ≤ h.badRows.length) : repairRow h i row addr =
    raiseAlarm (rowLost h i addr) 0x044 0xFF (addr % 2 ^ 40 + i % 256 * 2 ^ 40) 0 := by
  rw [repairRow, spent]
  exact (if_neg (Bool.eq_false_iff.mp good)).trans (if_pos full)

theorem repairRow_noted (room : h.badRows.length < 64) : repairRow h i row addr = withBadRow (rowLost h i addr) (i, row) := by
  rw [withBadRow, (rowLost_only _ _ _).badRows, repairRow, spent]
  exact (if_neg (Bool.eq_false_iff.mp good)).trans (if_neg (Nat.not_le_of_lt room))

end
end

theorem spareFails_used {h : Hw} {y mem b j : Nat} (sound : isSet h (aRPR_BANK (bankIndex y mem b)) (fRPR_BANK_FAILED j) = false)
    (used : isSet h (aRPR_BANK (bankIndex y mem b)) (fRPR_BANK_USED j) = true) : spareFails h y mem b j =
      repairRow (raiseBit h (aRPR_BANK (bankIndex y mem b)) (fRPR_BANK_FAILED j)) (bankIndex y mem b)
        (getF h (aRPR_BANK (bankIndex y mem b)) (fRPR_BANK_ROW j))
        (rowAddr y mem b (getF h (aRPR_BANK (bankIndex y mem b)) (fRPR_BANK_ROW j))) :=
  (if_neg (Bool.eq_false_iff.mp sound)).trans (if_pos used)

/-! ## The ledger (R422, R424, R425) -/

/-- The pages that a ledger write programs before it ends or is cut. -/
theorem ledgerFlash_take (f : Sparse Byte) (slot seq n : Nat) (pages : List (Nat × List Byte)) (whole : n ≤ pages.length) :
    ledgerFlash f slot seq (pages.take n) =
      programFlash (eraseFlash f (ledgerBase slot) 0x10000) (ledgerBase slot)
        ((List.zip (List.range n) (pages.take n)).map fun p => ledgerPage seq p.2.1 p.1 p.2.2).flatten := by
  rw [ledgerFlash, List.length_take, Nat.min_eq_left whole]

section
variable (nv : Nv) (h : Hw) (uid : Nat)

theorem ledgerWrite_cut {k : Nat} (cut : k ≤ (ledgerPages h uid).length) : ledgerWrite nv h uid (some k) =
    ({ nv with
        flash := ledgerFlash nv.flash (nextLedger h).1 (nextLedger h).2 ((ledgerPages h uid).take k)
        torn := some ((nextLedger h).1, k) }, h) := by
  rw [ledgerFlash_take _ _ _ _ _ cut, nextLedger]
  unfold ledgerWrite
  cases h.ledger <;> exact if_pos cut

theorem ledgerWrite_whole {cut : Option Nat} (whole : ∀ k, cut = some k → (ledgerPages h uid).length < k) :
    ∃ torn, ledgerWrite nv h uid cut =
      ({ nv with flash := ledgerFlash nv.flash (nextLedger h).1 (nextLedger h).2 (ledgerPages h uid), torn := torn },
        { h with ledger := some (nextLedger h) }) := by
  have pages := (congrArg (ledgerFlash nv.flash (nextLedger h).1 (nextLedger h).2) List.take_length.symm).trans
    (ledgerFlash_take nv.flash (nextLedger h).1 (nextLedger h).2 _ (ledgerPages h uid) (Nat.le_refl _))
  rw [pages, nextLedger]
  refine ⟨if nv.torn.any (·.1 == (nextLedger h).1) then none else nv.torn, ?_⟩
  unfold ledgerWrite nextLedger
  cases cut with
  | none => cases h.ledger <;> rfl
  | some k =>
    have late : ¬ k ≤ (ledgerPages h uid).length := Nat.not_le_of_lt (whole k rfl)
    cases h.ledger <;> exact if_neg late

end

theorem exec_ledgerWrite (cut : Option (Fin 257)) {s : State} (runs : fwRuns s.hw = true) :
    exec (.ledgerWrite cut) s = .next
      { s with
        hw := (ledgerWrite s.nv s.hw (uidOf s.hw) (cut.map (·.val))).2
        nv := (ledgerWrite s.nv s.hw (uidOf s.hw) (cut.map (·.val))).1 } :=
  if_neg (not_not_intro runs)

end Sys2Proof.Machine

open Sys2Proof Sys2Proof.Machine

/-- Settles O27: the walk by its position after the segment's findings, a repair by the spares and the table of bad rows, and
the ledger by where its write is cut. -/
theorem muckOutRepairsAndTheLedgerIsKept : Obligations.MuckOutRepairsAndTheLedgerIsKept := by
  refine ⟨?start, ?scrub, ?next, ?last, ?spare, ?full, ?noted, ?bad, ?spareFails, ?whole, ?cut⟩
  case start =>
    exact fun y saved s asked idle up clocked live =>
      givesMem_onMem rfl (muckStart_takes clocked live s.mem saved asked idle up)
  case scrub => exact fun m h y mem b row => ⟨rfl, rfl⟩
  case next =>
    intro y bad s holds clocked live before
    refine ⟨_, rfl, rfl, ?_⟩
    rw [onHw_hw, muck_muckComplete clocked live bad holds, if_neg (Nat.ne_of_lt before)]
  case last =>
    intro y bad s holds clocked live last
    refine ⟨_, rfl, rfl, ?_⟩
    rw [onHw_hw, muck_muckComplete clocked live bad holds, if_pos last]
  case spare => exact fun i row addr j s spare => repairRow_spare row addr spare
  case full => exact fun i row addr s spent good full => repairRow_full addr spent good full
  case noted =>
    intro i row addr s spent good room
    have noted := repairRow_noted addr spent good room
    refine ⟨noted, ?_⟩
    rw [noted, withBadRow, (rowLost_only _ _ _).badRows]
  case bad => exact fun i row addr s spent bad => repairRow_bad addr spent bad
  case spareFails => exact fun y mem b j s sound used => spareFails_used sound used
  case whole =>
    intro cut s runs whole
    have late : ∀ k, cut.map (·.val) = some k → (ledgerPages s.hw (uidOf s.hw)).length < k := by
      intro k hk
      obtain ⟨c, hc, rfl⟩ := Option.map_eq_some_iff.mp hk
      exact whole c hc
    obtain ⟨torn, is⟩ := ledgerWrite_whole s.nv s.hw (uidOf s.hw) late
    refine ⟨_, exec_ledgerWrite cut runs, rfl, ?_⟩
    rw [is]
    exact ⟨rfl, by dsimp only⟩
  case cut =>
    intro k s runs cut
    refine ⟨_, exec_ledgerWrite (some k) runs, rfl, ?_⟩
    rw [Option.map_some, ledgerWrite_cut s.nv s.hw (uidOf s.hw) cut]
    exact ⟨rfl, rfl, rfl⟩
end

section
/-!
PROOF. A forwarder's release in a cycle in which nothing has touched its trough: the trough as the cycle begins is what the
release acts on, where O26 states the trough as an earlier cycle left it.
-/

namespace Sys2Proof.Machine

/-- ACLK cycle 4. Trough 1 of pen 0, which a forwarder consumes, was last touched in cycle 0; since then the remote trough
has accepted the word popped (R185). -/
def acceptedEarlier : State :=
  { State.reset with
    hw := { Hw.reset with
      aclk := 4, clocked := true, locked := true, yardsUp := true, mode := .run, phase := .ready
      regs := [(aTRG_CFG 0 1, BitVec.ofNat 64 (0x401 + 2 * 2 ^ fTRG_CFG_CSIDE.lo))]
      arr := { Arr.reset with troughs := [(1, { Trough.reset with wp := 1, lf0 := 1, rp := 1, fwdAcc := 1 })] } } }

/-- The forwarder runs, and may release the one word. -/
theorem acceptedEarlier_releases : fwdLive acceptedEarlier.hw (keyOf 0 1) = true ∧
    arrayRuns acceptedEarlier.hw (keyOf 0 1 / 64) = true ∧
      1 = min (min 1 (trough acceptedEarlier.hw (keyOf 0 1)).fwdAcc) (ptrSub (depth acceptedEarlier.hw (keyOf 0 1))
        (trough acceptedEarlier.hw (keyOf 0 1)).rp (trough acceptedEarlier.hw (keyOf 0 1)).rl) := by
  decide +kernel

/-- The cycle whose beginning a trough has noted. -/
def begunCycle (h : Hw) (key : Nat) : Nat := (trough h key).cyc

theorem begunCycle_fwdRelease : begunCycle (fwdRelease acceptedEarlier.hw (keyOf 0 1) 1) (keyOf 0 1) = 4 := by decide +kernel

theorem fwdRelease_of_givesHw {n : Fin 128} {k : Fin 8} {c : Nat} {s : State} {h : Hw}
    (gives : GivesHw (.forwarderRelease n k c) s h) : fwdRelease s.hw (keyOf n k) c = h :=
  congrArg State.hw (Host.Outcome.next.inj gives)

end Sys2Proof.Machine

open Sys2Proof Sys2Proof.Machine

/-- Refutes O26, whose clause on a release fails in `acceptedEarlier`: the release begins the trough's cycle, and the
statement releases from the trough with the start of an earlier cycle noted. -/
theorem not_memoryPortsTroughsAndStreamersAct : ¬ Obligations.MemoryPortsTroughsAndStreamersAct := by
  rintro ⟨-, -, -, -, -, -, -, -, -, -, -, -, -, -, -, -, -, -, -, -, -, -, -, release, -⟩
  obtain ⟨-, runs, words⟩ := acceptedEarlier_releases
  have stated := fwdRelease_of_givesHw (release 0 1 1 1 acceptedEarlier runs words (by decide))
  exact absurd ((congrArg (begunCycle · (keyOf 0 1)) stated).symm.trans begunCycle_fwdRelease) (by decide +kernel)
end

section
/-!
PROOF. The translation unit: what a walk makes of the entries it reads, what a line holds for an entry, how a fault is
latched, and how a walk and an invalidation end (R221 to R226).
-/

namespace Sys2Proof.Machine

/-! ## Entries (R211, Tables 8.4, 8.5) -/

/-- An entry lies in one line. -/
theorem linesOf_entry {a : Nat} (aligned : a % 10 = 0) : linesOf a 10 = [a / 60] := by
  have last : (a + 10 - 1) / 60 - a / 60 + 1 = 1 := by omega
  rw [linesOf, if_neg (by decide), last]
  rfl

/-- An uncorrectable line reads as poison, served or not. -/
theorem lineRead_uncorrectable (m : Sparse Byte) (h : Hw) (l : Nat) : (lineRead m h l .uncorrectable).1 = poisonLine := by
  unfold lineRead
  split <;> rfl

/-- The word of a poisoned line at any of its places: its tag has bit 4. -/
theorem poisonLine_word : ∀ k < 6, leNat (((poisonLine.drop (10 * k)).take 10)) = 0x90 * 2 ^ 72 := by decide +kernel

theorem dramRead_uncorrectable (m : Sparse Byte) (h : Hw) {a : Nat} (aligned : a % 10 = 0) :
    leNat (dramRead m h a 10 [.uncorrectable]).1 = 0x90 * 2 ^ 72 := by
  have place : a % 60 = 10 * (a % 60 / 10) := by omega
  unfold dramRead
  rw [linesOf_entry aligned]
  simp only [List.length_singleton, List.range_one, List.zip_cons_cons, List.zip_nil_left, List.foldl_cons, List.foldl_nil,
    List.getD_cons_zero, List.nil_append, lineRead_uncorrectable]
  rw [place]
  exact poisonLine_word _ (by omega)

theorem readEntry_disabled (m : Sparse Byte) {h : Hw} {a : Nat} (e : Ecc)
    (off : isSet h (aDC_CFG (lineChannel (a / 60))) fDC_CFG_EN = false) : readEntry m h a e = (.inl 6, countDrops h [a / 60]) :=
  if_pos (Bool.eq_false_iff.mp off)

theorem readEntry_uncorrectable (m : Sparse Byte) {h : Hw} {a : Nat} (aligned : a % 10 = 0)
    (on : isSet h (aDC_CFG (lineChannel (a / 60))) fDC_CFG_EN = true) : (readEntry m h a .uncorrectable).1 = .inl 2 := by
  have poisoned : ¬ ((0x90 * 2 ^ 72 / 2 ^ 72).testBit 7 = true ∧ ¬ (0x90 * 2 ^ 72 / 2 ^ 72).testBit 4 = true) := by
    decide +kernel
  unfold readEntry
  rw [if_neg (not_not_intro on)]
  dsimp only
  rw [dramRead_uncorrectable m h aligned, if_pos poisoned]

/-! ## Walks (R221, Table 8.9) -/

/-- Index of the level-0 entry of a virtual address. -/
abbrev rootIndex (va : Nat) : Nat := va / 2 ^ 21 % 2 ^ 19

/-- The hardware with one more walk counted. -/
abbrev walkCounted (h : Hw) : Hw := bump h aTU_STAT fTU_STAT_WALKCNT 1

/-- The level-0 entry that a walk reads. -/
abbrev rootEntry (m : Sparse Byte) (h : Hw) (va : Nat) (es : List Ecc) : (Nat ⊕ Nat) × Hw :=
  readEntry m (walkCounted h) (getF h aTU_ROOT fTU_ROOT_BASE + 10 * rootIndex va) (es.getD 0 .ok)

/-- What a walk makes of a level-0 leaf: its 2 MiB page. -/
def bigLeaf (d va e : Nat) (t : Hw) : Walked × Hw :=
  if e / 2 ^ 8 % 2 ^ 21 ≠ 0 then (.fault 1 0, t)
  else if d < e / 2 ^ 8 + 2 ^ 21 then (.fault 3 0, t)
  else (.page ⟨va / 2 ^ 21, true, e.testBit 2, e.testBit 3, e / 2 ^ 8⟩, t)

/-- What a walk makes of a level-1 entry: its 4 KiB page. -/
def smallLeaf (d va : Nat) : (Nat ⊕ Nat) × Hw → Walked × Hw
  | (.inl k, t) => (.fault k 1, t)
  | (.inr e, t) =>
    if ¬ e.testBit 1 ∨ e / 2 ^ 8 % 2 ^ 12 ≠ 0 then (.fault 1 1, t)
    else if d < e / 2 ^ 8 + 2 ^ 12 then (.fault 3 1, t)
    else (.page ⟨va / 2 ^ 12, false, e.testBit 2, e.testBit 3, e / 2 ^ 8⟩, t)

/-- The level-1 entry that a walk reads after the table pointer e. -/
abbrev leafEntry (m : Sparse Byte) (va : Nat) (es : List Ecc) (e : Nat) (t : Hw) : (Nat ⊕ Nat) × Hw :=
  readEntry m t (e / 2 ^ 8 + 10 * (va / 2 ^ 12 % 512)) (es.getD 1 .ok)

/-- What a walk makes of a table pointer. -/
def tablePointer (m : Sparse Byte) (d va : Nat) (es : List Ecc) (e : Nat) (t : Hw) : Walked × Hw :=
  if e / 2 ^ 8 % 10 ≠ 0 then (.fault 1 0, t)
  else if d < e / 2 ^ 8 + 5120 then (.fault 3 0, t)
  else smallLeaf d va (leafEntry m va es e t)

/-- What a walk makes of the level-0 entry. -/
def atRoot (m : Sparse Byte) (d va : Nat) (es : List Ecc) : (Nat ⊕ Nat) × Hw → Walked × Hw
  | (.inl k, t) => (.fault k 0, t)
  | (.inr e, t) => if e.testBit 1 then bigLeaf d va e t else tablePointer m d va es e t

section
variable {m : Sparse Byte} {d va e : Nat} {es : List Ecc} {r : (Nat ⊕ Nat) × Hw}

theorem atRoot_fault {k : Nat} (fault : r.1 = .inl k) : atRoot m d va es r = (.fault k 0, r.2) := by
  obtain ⟨x, t⟩ := r
  subst fault
  rfl

theorem atRoot_leaf (read : r.1 = .inr e) (leaf : e.testBit 1 = true) : atRoot m d va es r = bigLeaf d va e r.2 := by
  obtain ⟨x, t⟩ := r
  subst read
  exact if_pos leaf

theorem atRoot_table (read : r.1 = .inr e) (table : e.testBit 1 = false) :
    atRoot m d va es r = tablePointer m d va es e r.2 := by
  obtain ⟨x, t⟩ := r
  subst read
  exact if_neg (Bool.eq_false_iff.mp table)

end

section
variable {m : Sparse Byte} {h : Hw} {va : Nat} {es : List Ecc}

theorem walk_off (off : isSet h aTU_CTL fTU_CTL_EN = false ∨ h.dramGib = 0) : walk m h va es = (.fault 6 0, h) :=
  if_pos (off.imp_left Bool.eq_false_iff.mp)

section
variable (on : isSet h aTU_CTL fTU_CTL_EN = true) (dram : h.dramGib ≠ 0)
include on dram

theorem walk_on_not_off : ¬ (¬ isSet h aTU_CTL fTU_CTL_EN = true ∨ h.dramGib = 0) := not_or.mpr ⟨not_not_intro on, dram⟩

theorem walk_unaligned (unaligned : getF h aTU_ROOT fTU_ROOT_BASE % 10 ≠ 0) : walk m h va es = (.fault 1 0, walkCounted h) := by
  unfold walk
  rw [if_neg (walk_on_not_off on dram)]
  exact if_pos unaligned

section
variable (aligned : getF h aTU_ROOT fTU_ROOT_BASE % 10 = 0)
include aligned

theorem walk_beyond (beyond : 2 ^ getF h aTU_ROOT fTU_ROOT_LOG2N ≤ rootIndex va) :
    walk m h va es = (.fault 4 0, walkCounted h) := by
  unfold walk
  rw [if_neg (walk_on_not_off on dram)]
  exact (if_neg (not_not_intro aligned)).trans (if_pos beyond)

theorem walk_outside (within : rootIndex va < 2 ^ getF h aTU_ROOT fTU_ROOT_LOG2N)
    (outside : dramEnd h < getF h aTU_ROOT fTU_ROOT_BASE + 10 * 2 ^ getF h aTU_ROOT fTU_ROOT_LOG2N) :
    walk m h va es = (.fault 3 0, walkCounted h) := by
  unfold walk
  rw [if_neg (walk_on_not_off on dram)]
  exact (if_neg (not_not_intro aligned)).trans ((if_neg (Nat.not_le_of_lt within)).trans (if_pos outside))

end
end

/-- The conditions under which a walk reads its level-0 entry. -/
structure WalkReads (h : Hw) (va : Nat) : Prop where
  on : isSet h aTU_CTL fTU_CTL_EN = true
  dram : h.dramGib ≠ 0
  aligned : getF h aTU_ROOT fTU_ROOT_BASE % 10 = 0
  within : rootIndex va < 2 ^ getF h aTU_ROOT fTU_ROOT_LOG2N
  inside : getF h aTU_ROOT fTU_ROOT_BASE + 10 * 2 ^ getF h aTU_ROOT fTU_ROOT_LOG2N ≤ dramEnd h

section
variable (reads : WalkReads h va)
include reads

theorem walk_reads : walk m h va es = atRoot m (dramEnd h) va es (rootEntry m h va es) := by
  obtain ⟨on, dram, aligned, within, inside⟩ := reads
  unfold walk
  rw [if_neg (walk_on_not_off on dram)]
  refine (if_neg (not_not_intro aligned)).trans ((if_neg (Nat.not_le_of_lt within)).trans
    ((if_neg (Nat.not_lt_of_le inside)).trans ?_))
  unfold rootEntry rootIndex walkCounted
  rcases readEntry m (bump h aTU_STAT fTU_STAT_WALKCNT 1) (getF h aTU_ROOT fTU_ROOT_BASE + 10 * (va / 2 ^ 21 % 2 ^ 19))
    (es.getD 0 .ok) with ⟨k | e, t⟩
  · rfl
  · rfl

theorem walk_rootFault {k : Nat} (fault : (rootEntry m h va es).1 = .inl k) :
    walk m h va es = (.fault k 0, (rootEntry m h va es).2) := (walk_reads reads).trans (atRoot_fault fault)

theorem walk_bigLeaf {e : Nat} (read : (rootEntry m h va es).1 = .inr e) (leaf : e.testBit 1 = true) :
    walk m h va es = bigLeaf (dramEnd h) va e (rootEntry m h va es).2 := (walk_reads reads).trans (atRoot_leaf read leaf)

theorem walk_tablePointer {e : Nat} (read : (rootEntry m h va es).1 = .inr e) (table : e.testBit 1 = false) :
    walk m h va es = tablePointer m (dramEnd h) va es e (rootEntry m h va es).2 :=
  (walk_reads reads).trans (atRoot_table read table)

end
end

section
variable {m : Sparse Byte} {d va e : Nat} {es : List Ecc} {t : Hw}

theorem bigLeaf_unaligned (unaligned : e / 2 ^ 8 % 2 ^ 21 ≠ 0) : bigLeaf d va e t = (.fault 1 0, t) := if_pos unaligned

theorem bigLeaf_outside (aligned : e / 2 ^ 8 % 2 ^ 21 = 0) (outside : d < e / 2 ^ 8 + 2 ^ 21) :
    bigLeaf d va e t = (.fault 3 0, t) := (if_neg (not_not_intro aligned)).trans (if_pos outside)

theorem bigLeaf_page (aligned : e / 2 ^ 8 % 2 ^ 21 = 0) (inside : e / 2 ^ 8 + 2 ^ 21 ≤ d) :
    bigLeaf d va e t = (.page ⟨va / 2 ^ 21, true, e.testBit 2, e.testBit 3, e / 2 ^ 8⟩, t) :=
  (if_neg (not_not_intro aligned)).trans (if_neg (Nat.not_lt_of_le inside))

theorem tablePointer_unaligned (unaligned : e / 2 ^ 8 % 10 ≠ 0) : tablePointer m d va es e t = (.fault 1 0, t) := if_pos unaligned

theorem tablePointer_outside (aligned : e / 2 ^ 8 % 10 = 0) (outside : d < e / 2 ^ 8 + 5120) :
    tablePointer m d va es e t = (.fault 3 0, t) := (if_neg (not_not_intro aligned)).trans (if_pos outside)

theorem tablePointer_reads (aligned : e / 2 ^ 8 % 10 = 0) (inside : e / 2 ^ 8 + 5120 ≤ d) :
    tablePointer m d va es e t = smallLeaf d va (leafEntry m va es e t) :=
  (if_neg (not_not_intro aligned)).trans (if_neg (Nat.not_lt_of_le inside))

section
variable {r : (Nat ⊕ Nat) × Hw}

theorem smallLeaf_fault {k : Nat} (fault : r.1 = .inl k) : smallLeaf d va r = (.fault k 1, r.2) := by
  obtain ⟨x, t⟩ := r
  subst fault
  rfl

theorem smallLeaf_invalid (read : r.1 = .inr e) (invalid : e.testBit 1 = false ∨ e / 2 ^ 8 % 2 ^ 12 ≠ 0) :
    smallLeaf d va r = (.fault 1 1, r.2) := by
  obtain ⟨x, t⟩ := r
  subst read
  exact if_pos (invalid.imp_left Bool.eq_false_iff.mp)

section
variable (leaf : e.testBit 1 = true) (aligned : e / 2 ^ 8 % 2 ^ 12 = 0)
include leaf aligned

theorem leaf_not_invalid : ¬ (¬ e.testBit 1 = true ∨ e / 2 ^ 8 % 2 ^ 12 ≠ 0) :=
  not_or.mpr ⟨not_not_intro leaf, not_not_intro aligned⟩

theorem smallLeaf_outside (read : r.1 = .inr e) (outside : d < e / 2 ^ 8 + 2 ^ 12) : smallLeaf d va r = (.fault 3 1, r.2) := by
  obtain ⟨x, t⟩ := r
  have valid := leaf_not_invalid leaf aligned
  subst read
  exact (if_neg valid).trans (if_pos outside)

theorem smallLeaf_page (read : r.1 = .inr e) (inside : e / 2 ^ 8 + 2 ^ 12 ≤ d) :
    smallLeaf d va r = (.page ⟨va / 2 ^ 12, false, e.testBit 2, e.testBit 3, e / 2 ^ 8⟩, r.2) := by
  obtain ⟨x, t⟩ := r
  have valid := leaf_not_invalid leaf aligned
  subst read
  exact (if_neg valid).trans (if_neg (Nat.not_lt_of_le inside))

end
end
end

/-! ## Faults (R223, R226) -/

section
variable {h : Hw} (va kind level : Nat) (wr : Bool) (src : Nat)

theorem xlatFault_first (empty : getF h aTU_FAULT fTU_FAULT_KIND = 0) : xlatFault h va kind level wr src =
    postFinding (bump (setReg h aTU_FAULT
      (BitVec.ofNat 64 (va % 2 ^ 40 + kind * 2 ^ 40 + level * 2 ^ 43 + wr.toNat * 2 ^ 44 + src * 2 ^ 48)))
      aTU_STAT fTU_STAT_FLTCNT 1) 0x0003 0x084 src va kind := by
  rw [xlatFault, if_neg (not_not_intro empty)]

theorem xlatFault_further (latched : getF h aTU_FAULT fTU_FAULT_KIND ≠ 0) : xlatFault h va kind level wr src =
    postFinding (bump h aTU_STAT fTU_STAT_FLTCNT 1) 0x0003 0x084 src va kind := by
  rw [xlatFault, if_pos latched]

end

/-! ## Accesses translated part by part (R222) -/

section
variable {m : Sparse Byte} {h h1 h2 : Hw} {c wr : Bool} {va n src : Nat} {es : List Ecc} {x y : Xlat} {k l : Nat}

theorem translate_fault (fault : translateOne m h c va wr es = (.fault k l, h1)) :
    translate m h c va n wr src es = (none, xlatFault h1 va k l wr src) := by
  rw [translate, fault]

section
variable (first : translateOne m h c va wr es = (.page x, h1)) (crosses : pageRoom x va < n)
include first crosses

theorem translate_secondFault (second : translateOne m h1 c (va + pageRoom x va) wr (es.drop 2) = (.fault k l, h2)) :
    translate m h c va n wr src es = (none, xlatFault h2 (va + pageRoom x va) k l wr src) := by
  unfold pageRoom at *
  rw [translate, first]
  dsimp only
  rw [if_neg (Nat.not_le_of_lt crosses), second]

theorem translate_bothParts (second : translateOne m h1 c (va + pageRoom x va) wr (es.drop 2) = (.page y, h2)) :
    translate m h c va n wr src es =
      (some [(x.place va, pageRoom x va), (y.place (va + pageRoom x va), n - pageRoom x va)], h2) := by
  unfold pageRoom at *
  rw [translate, first]
  dsimp only
  rw [if_neg (Nat.not_le_of_lt crosses), second]

end
end

/-! ## Walks and invalidations end (R221, R224) -/

section
variable {m : Sparse Byte} {h : Hw} {va : BitVec 40} {wr : Bool} {src : Fin 40} (live : frozen h = false)
include live

theorem walkDone_alone (len : Nat) (es : List Ecc) (alone : ∀ r ∈ h.noc.walks, awaits r va wr src = false) :
    walkDone m h va.toNat wr src.val len es = (translate m h false va.toNat len wr src.val es).2 := by
  have none : (h.noc.walks.find? fun r => awaits r va wr src) = none :=
    List.find?_eq_none.mpr fun r mem => Bool.eq_false_iff.mp (alone r mem)
  unfold awaits at none
  unfold walkDone
  rw [if_neg (Bool.eq_false_iff.mp live), none]

theorem walkDone_serves (len : Nat) (es : List Ecc) {r : DmaReq} {q : List DmaReq} (front : h.noc.walks = r :: q)
    (waits : awaits r va wr src = true) :
    walkDone m h va.toNat wr src.val len es = serveXlat m (withWalks h q) false r.kind r.f es := by
  have found : (h.noc.walks.find? fun r => awaits r va wr src) = some r := by
    rw [front]
    exact List.find?_cons_of_pos waits
  unfold awaits at found
  unfold walkDone
  rw [if_neg (Bool.eq_false_iff.mp live), found]
  dsimp only
  rw [front, List.erase_cons_head, withWalks]

end

theorem writeReg_invalidate (m : Sparse Byte) (h : Hw) : writeReg m h aTU_INV 1 = (m, setF h aTU_INV fTU_INV_BUSY 1) := by
  have go : (1 : BitVec 64).toNat.testBit 0 = true := rfl
  rw [writeReg_located (b := .tu) (i := 0) (o := 0x10) 1 rfl rfl (by decide) rfl rfl rfl rfl, writeAt, if_pos rfl, if_pos go,
    invStart]

theorem invDone_busy {h : Hw} (busy : isSet h aTU_INV fTU_INV_BUSY = true) (live : frozen h = false) :
    invDone h = setF (cacheEmptied h) aTU_INV fTU_INV_BUSY 0 := if_pos ⟨busy, Bool.eq_false_iff.mp live⟩

end Sys2Proof.Machine

open Sys2Proof Sys2Proof.Machine

/-- Settles O60: by what the first translation gives, and the second. -/
theorem pageCrossingAccessesAreTranslatedTwice : Obligations.PageCrossingAccessesAreTranslatedTwice := by
  refine ⟨?both, ?second, ?first⟩
  case both => exact fun m h c va n wr src es x y h1 h2 first crosses second => translate_bothParts first crosses second
  case second => exact fun m h c va n wr src es x k l h1 h2 first crosses second => translate_secondFault first crosses second
  case first => exact fun m h c va n wr src es k l h1 fault => translate_fault fault

/-- Settles O30: a walk by the checks it makes before it reads, then by the entry it reads at each level. -/
theorem translationFollowsItsChecks : Obligations.TranslationFollowsItsChecks := by
  refine ⟨?off, ?unaligned, ?beyond, ?outside, ?rootFault, ?bigPage, ?bigUnaligned, ?bigOutside, ?tableUnaligned, ?tableOutside,
    ?leafFault, ?leafInvalid, ?smallOutside, ?smallPage, ?disabled, ?uncorrectable, ?firstFault, ?furtherFault, ?alone, ?serves,
    ?invalidates, ?emptied⟩
  case off => exact fun va es s off => walk_off off
  case unaligned => exact fun va es s on dram unaligned => walk_unaligned on dram unaligned
  case beyond => exact fun va es s on dram aligned beyond => walk_beyond on dram aligned beyond
  case outside => exact fun va es s on dram aligned within outside => walk_outside on dram aligned within outside
  case rootFault =>
    exact fun va es k s on dram aligned within inside fault => walk_rootFault ⟨on, dram, aligned, within, inside⟩ fault
  case bigPage =>
    exact fun va es e s on dram aligned within inside read leaf page fits =>
      (walk_bigLeaf ⟨on, dram, aligned, within, inside⟩ read leaf).trans (bigLeaf_page page fits)
  case bigUnaligned =>
    exact fun va es e s on dram aligned within inside read leaf page =>
      (walk_bigLeaf ⟨on, dram, aligned, within, inside⟩ read leaf).trans (bigLeaf_unaligned page)
  case bigOutside =>
    exact fun va es e s on dram aligned within inside read leaf page outside =>
      (walk_bigLeaf ⟨on, dram, aligned, within, inside⟩ read leaf).trans (bigLeaf_outside page outside)
  case tableUnaligned =>
    exact fun va es e s on dram aligned within inside read table unaligned =>
      (walk_tablePointer ⟨on, dram, aligned, within, inside⟩ read table).trans (tablePointer_unaligned unaligned)
  case tableOutside =>
    exact fun va es e s on dram aligned within inside read table multiple outside =>
      (walk_tablePointer ⟨on, dram, aligned, within, inside⟩ read table).trans (tablePointer_outside multiple outside)
  case leafFault =>
    exact fun va es e k s on dram aligned within inside read table multiple fits fault =>
      ((walk_tablePointer ⟨on, dram, aligned, within, inside⟩ read table).trans (tablePointer_reads multiple fits)).trans
        (smallLeaf_fault fault)
  case leafInvalid =>
    exact fun va es e e2 s on dram aligned within inside read table multiple fits leaf invalid =>
      ((walk_tablePointer ⟨on, dram, aligned, within, inside⟩ read table).trans (tablePointer_reads multiple fits)).trans
        (smallLeaf_invalid leaf invalid)
  case smallOutside =>
    exact fun va es e e2 s on dram aligned within inside read table multiple fits leaf valid page outside =>
      ((walk_tablePointer ⟨on, dram, aligned, within, inside⟩ read table).trans (tablePointer_reads multiple fits)).trans
        (smallLeaf_outside valid page leaf outside)
  case smallPage =>
    exact fun va es e e2 s on dram aligned within inside read table multiple fits leaf valid page inner =>
      ((walk_tablePointer ⟨on, dram, aligned, within, inside⟩ read table).trans (tablePointer_reads multiple fits)).trans
        (smallLeaf_page valid page leaf inner)
  case disabled => exact fun a e s off => readEntry_disabled s.mem e off
  case uncorrectable => exact fun a s on aligned => readEntry_uncorrectable s.mem aligned on
  case firstFault => exact fun va kind level wr src s empty => xlatFault_first va kind level wr src empty
  case furtherFault => exact fun va kind level wr src s latched => xlatFault_further va kind level wr src latched
  case alone => exact fun va wr src len es s live alone => givesHw_onHw rfl (walkDone_alone live len es alone)
  case serves =>
    exact fun va wr src len es r q s live front waits => givesHw_onHw rfl (walkDone_serves live len es front waits)
  case invalidates => exact fun s up => givesHw_busWrite up rfl (writeReg_invalidate s.mem s.hw)
  case emptied => exact fun s busy live => givesHw_onHw rfl (invDone_busy busy live)
end

section
/-!
PROOF. The RS(64,60) code: the product by a constant is additive, so that the division by the generator polynomial keeps the
value at each of its roots at 0. Which line stands at a place (R209, R210, R213).
-/

namespace Sys2Proof.Machine

/-! ## The field GF(2^8) (R209) -/

theorem xor_byte {a b : Nat} (ha : a < 256) (hb : b < 256) : a ^^^ b < 256 := Nat.xor_lt_two_pow (n := 8) ha hb

/-- A sum of two sums, by terms. -/
theorem xor_xor_xor_comm (a b c d : Nat) : (a ^^^ b) ^^^ (c ^^^ d) = (a ^^^ c) ^^^ (b ^^^ d) := by
  rw [Nat.xor_assoc, Nat.xor_assoc, ← Nat.xor_assoc b, Nat.xor_comm b, Nat.xor_assoc c]

theorem xor_xor_self (a b : Nat) : (a ^^^ b) ^^^ b = a := by
  rw [Nat.xor_assoc, Nat.xor_self, Nat.xor_zero]

theorem eq_of_xor_eq_xor {a b c : Nat} (same : a ^^^ c = b ^^^ c) : a = b := by
  rw [← xor_xor_self a c, same, xor_xor_self]

/-- An additive function of bytes that is 0 at the powers of two is 0. -/
theorem additive_zero {f : Nat → Nat} (add : ∀ a b, a < 256 → b < 256 → f (a ^^^ b) = f a ^^^ f b)
    (powers : ∀ i < 8, f (2 ^ i) = 0) {q : Nat} (hq : q < 256) : f q = 0 := by
  have below : ∀ n ≤ 8, ∀ q < 2 ^ n, f q = 0 := by
    intro n hn
    induction n with
    | zero =>
      intro q hq
      have twice := add 0 0 (by decide) (by decide)
      rw [Nat.xor_self, Nat.xor_self] at twice
      rw [Nat.lt_one_iff.mp hq, twice]
    | succ n ih =>
      intro q hq
      by_cases low : q < 2 ^ n
      · exact ih (by omega) q low
      · have top : q.testBit n = true := Nat.testBit_of_two_pow_le_and_two_pow_add_one_gt (Nat.le_of_not_lt low) hq
        have rest : q ^^^ 2 ^ n < 2 ^ n := by
          refine Nat.lt_pow_two_of_testBit _ fun i hi => ?_
          rcases Nat.eq_or_lt_of_le hi with rfl | above
          · rw [Nat.testBit_xor, top, Nat.testBit_two_pow_self, Bool.xor_self]
          · rw [Nat.testBit_xor, Nat.testBit_two_pow_of_ne (Nat.ne_of_lt above), Bool.xor_false]
            exact Nat.testBit_lt_two_pow (Nat.lt_of_lt_of_le hq (Nat.pow_le_pow_right (by decide) above))
        have small : 2 ^ n < 2 ^ 8 := Nat.pow_lt_pow_right (by decide) hn
        have sum := add (q ^^^ 2 ^ n) (2 ^ n) (Nat.lt_trans rest small) small
        rwa [xor_xor_self, ih (by omega) _ rest, powers n hn, Nat.xor_self] at sum
  exact below 8 (Nat.le_refl 8) q hq

/-- Product of a byte by α. -/
def gfDouble (a : Nat) : Nat := if 256 ≤ 2 * a then 2 * a ^^^ 0x11D else 2 * a

theorem gfDouble_byte : ∀ a < 256, gfDouble a < 256 := by decide +kernel

/-- The reduction depends on the highest bit. -/
theorem gfDouble_eq : ∀ a < 256, gfDouble a = 2 * a ^^^ (if a.testBit 7 then 0x11D else 0) := by decide +kernel

theorem gfDouble_xor {a b : Nat} (ha : a < 256) (hb : b < 256) : gfDouble (a ^^^ b) = gfDouble a ^^^ gfDouble b := by
  have twice : 2 * (a ^^^ b) = 2 * a ^^^ 2 * b := by
    simpa [Nat.shiftLeft_eq, Nat.mul_comm] using Nat.shiftLeft_xor_distrib (a := a) (b := b) (i := 1)
  rw [gfDouble_eq a ha, gfDouble_eq b hb, gfDouble_eq _ (xor_byte ha hb), twice, Nat.testBit_xor, xor_xor_xor_comm]
  cases a.testBit 7 <;> cases b.testBit 7 <;> rfl

/-- One bit of a factor taken into a product: the sum so far, and the other factor's multiple by a power of α. -/
def gfStep (x : Nat) (s : Nat × Nat) (i : Nat) : Nat × Nat := (if x.testBit i then s.1 ^^^ s.2 else s.1, gfDouble s.2)

theorem gfMul_eq (a x : Nat) : gfMul a x = ((List.range 8).foldl (gfStep x) (0, a)).1 := rfl

/-- Two numbers below 256. -/
def Bytes (s : Nat × Nat) : Prop := s.1 < 256 ∧ s.2 < 256

theorem gfStep_bytes (x : Nat) {s : Nat × Nat} (hs : Bytes s) (i : Nat) : Bytes (gfStep x s i) := by
  refine ⟨?_, gfDouble_byte _ hs.2⟩
  unfold gfStep
  split
  · exact xor_byte hs.1 hs.2
  · exact hs.1

theorem gfSteps_bytes (x : Nat) (is : List Nat) {s : Nat × Nat} (hs : Bytes s) : Bytes (is.foldl (gfStep x) s) := by
  induction is generalizing s with
  | nil => exact hs
  | cons i is ih => exact ih (gfStep_bytes x hs i)

theorem gfMul_byte {a : Nat} (ha : a < 256) (x : Nat) : gfMul a x < 256 :=
  (gfSteps_bytes x (List.range 8) ⟨Nat.zero_lt_succ _, ha⟩).1

/-- The sum of two pairs. -/
def xorPair (s t : Nat × Nat) : Nat × Nat := (s.1 ^^^ t.1, s.2 ^^^ t.2)

theorem gfStep_xor (x : Nat) {s t : Nat × Nat} (hs : Bytes s) (ht : Bytes t) (i : Nat) :
    gfStep x (xorPair s t) i = xorPair (gfStep x s i) (gfStep x t i) := by
  refine Prod.ext ?_ (gfDouble_xor hs.2 ht.2)
  unfold gfStep xorPair
  cases x.testBit i
  · rfl
  · exact xor_xor_xor_comm _ _ _ _

theorem gfSteps_xor (x : Nat) (is : List Nat) {s t : Nat × Nat} (hs : Bytes s) (ht : Bytes t) :
    is.foldl (gfStep x) (xorPair s t) = xorPair (is.foldl (gfStep x) s) (is.foldl (gfStep x) t) := by
  induction is generalizing s t with
  | nil => rfl
  | cons i is ih =>
    rw [List.foldl_cons, gfStep_xor x hs ht, ih (gfStep_bytes x hs i) (gfStep_bytes x ht i), List.foldl_cons, List.foldl_cons]

theorem gfMul_xor {a b : Nat} (ha : a < 256) (hb : b < 256) (x : Nat) : gfMul (a ^^^ b) x = gfMul a x ^^^ gfMul b x := by
  have steps := gfSteps_xor x (List.range 8) (s := (0, a)) (t := (0, b)) ⟨Nat.zero_lt_succ _, ha⟩ ⟨Nat.zero_lt_succ _, hb⟩
  rw [xorPair, Nat.xor_self] at steps
  rw [gfMul_eq, steps, gfMul_eq, gfMul_eq, xorPair]

/-! ## Values of polynomials -/

/-- Value at x of a polynomial whose further coefficients are cs, where those before have the value v. -/
def gfHorner (x v : Nat) (cs : List Nat) : Nat := cs.foldl (fun v c => gfMul v x ^^^ c) v

theorem gfHorner_cons (x v c : Nat) (cs : List Nat) : gfHorner x v (c :: cs) = gfHorner x (gfMul v x ^^^ c) cs := rfl

theorem gfHorner_append (x v : Nat) (cs ds : List Nat) : gfHorner x v (cs ++ ds) = gfHorner x (gfHorner x v cs) ds :=
  List.foldl_append

/-- The value of a sum of two polynomials of one degree. -/
theorem gfHorner_xor (x : Nat) {v w : Nat} {cs ds : List Nat} (hv : v < 256) (hw : w < 256) (hc : ∀ c ∈ cs, c < 256)
    (hd : ∀ d ∈ ds, d < 256) (same : cs.length = ds.length) :
    gfHorner x (v ^^^ w) (List.zipWith (· ^^^ ·) cs ds) = gfHorner x v cs ^^^ gfHorner x w ds := by
  induction cs generalizing v w ds with
  | nil => simp [List.length_eq_zero_iff.mp same.symm, gfHorner]
  | cons c cs ih =>
    obtain ⟨d, ds, rfl⟩ := List.exists_cons_of_length_eq_add_one same.symm
    obtain ⟨hc, hcs⟩ := List.forall_mem_cons.mp hc
    obtain ⟨hd, hds⟩ := List.forall_mem_cons.mp hd
    rw [List.zipWith_cons_cons, gfHorner_cons, gfHorner_cons, gfHorner_cons, gfMul_xor hv hw, xor_xor_xor_comm]
    exact ih (xor_byte (gfMul_byte hv x) hc) (xor_byte (gfMul_byte hw x) hd) hcs hds (Nat.succ.inj same)

/-! ## The check bytes -/

/-- The remainder r after a further data byte d. -/
def rsStep (r : List Nat) (d : Nat) : List Nat :=
  match r with
  | [r0, r1, r2, r3] =>
    [r1 ^^^ gfMul (d ^^^ r0) 0x0F, r2 ^^^ gfMul (d ^^^ r0) 0x36, r3 ^^^ gfMul (d ^^^ r0) 0x78, gfMul (d ^^^ r0) 0x40]
  | _ => r

theorem rsCheck_eq (dat : List Nat) : rsCheck dat = dat.foldl rsStep [0, 0, 0, 0] := rfl

/-- A byte's multiple of the generator polynomial, below its highest power. -/
def generatorMultiple (q : Nat) : List Nat := [gfMul q 0x0F, gfMul q 0x36, gfMul q 0x78, gfMul q 0x40]

theorem generatorMultiple_length (q : Nat) : (generatorMultiple q).length = 4 := rfl

theorem generatorMultiple_bytes {q : Nat} (hq : q < 256) : ∀ c ∈ generatorMultiple q, c < 256 := by
  simp [generatorMultiple, gfMul_byte hq]

theorem generatorMultiple_xor {a b : Nat} (ha : a < 256) (hb : b < 256) :
    generatorMultiple (a ^^^ b) = List.zipWith (· ^^^ ·) (generatorMultiple a) (generatorMultiple b) := by
  simp only [generatorMultiple, gfMul_xor ha hb, List.zipWith_cons_cons, List.zipWith_nil_left]

/-- Value at x of the multiple of the generator polynomial by a byte. -/
def generatorValue (x q : Nat) : Nat := gfHorner x q (generatorMultiple q)

theorem generatorValue_xor (x a b : Nat) (ha : a < 256) (hb : b < 256) :
    generatorValue x (a ^^^ b) = generatorValue x a ^^^ generatorValue x b := by
  unfold generatorValue
  rw [generatorMultiple_xor ha hb]
  exact gfHorner_xor x ha hb (generatorMultiple_bytes ha) (generatorMultiple_bytes hb)
    ((generatorMultiple_length a).trans (generatorMultiple_length b).symm)

theorem generatorValue_powers : ∀ j < 4, ∀ i < 8, generatorValue (gfPow j) (2 ^ i) = 0 := by decide +kernel

/-- The powers of α up to 3 are roots of the generator polynomial, and of its multiples. -/
theorem generator_root {j q : Nat} (root : j < 4) (hq : q < 256) : gfHorner (gfPow j) q (generatorMultiple q) = 0 :=
  additive_zero (generatorValue_xor (gfPow j)) (generatorValue_powers j root) hq

/-- Data of value v at x, followed by the remainder r, have the value 0 there. -/
structure Divides (x v : Nat) (r : List Nat) : Prop where
  four : r.length = 4
  bytes : ∀ c ∈ r, c < 256
  value : v < 256
  zero : gfHorner x v r = 0

theorem gfMul_zero (x : Nat) : gfMul 0 x = 0 := by
  have twice := gfMul_xor (a := 0) (b := 0) (by decide) (by decide) x
  rwa [Nat.xor_self, Nat.xor_self] at twice

theorem rsStep_divides {j v d : Nat} {r : List Nat} (root : j < 4) (hd : d < 256) (div : Divides (gfPow j) v r) :
    Divides (gfPow j) (gfMul v (gfPow j) ^^^ d) (rsStep r d) := by
  obtain ⟨four, bytes, value, zero⟩ := div
  match r, four with
  | [r0, r1, r2, r3], _ =>
    simp only [List.forall_mem_cons] at bytes
    obtain ⟨h0, h1, h2, h3, -⟩ := bytes
    have hq : d ^^^ r0 < 256 := xor_byte hd h0
    have byte (x : Nat) : gfMul (d ^^^ r0) x < 256 := gfMul_byte hq x
    have moved := gfMul_byte value (gfPow j)
    refine ⟨rfl, by simp [rsStep, xor_byte, h1, h2, h3, byte], xor_byte moved hd, ?_⟩
    have sum : gfMul v (gfPow j) ^^^ d = (gfMul v (gfPow j) ^^^ r0) ^^^ (d ^^^ r0) := by
      rw [xor_xor_xor_comm, Nat.xor_self, Nat.xor_zero]
    have shifted : gfHorner (gfPow j) (gfMul v (gfPow j) ^^^ r0) [r1, r2, r3, 0] = 0 := by
      have before : gfHorner (gfPow j) (gfMul v (gfPow j) ^^^ r0) [r1, r2, r3] = 0 := zero
      rw [show [r1, r2, r3, 0] = [r1, r2, r3] ++ [0] from rfl, gfHorner_append, before, gfHorner_cons, gfMul_zero]
      rfl
    have split := gfHorner_xor (gfPow j) (cs := [r1, r2, r3, 0])
      (ds := generatorMultiple (d ^^^ r0)) (xor_byte moved h0) hq (by simp [h1, h2, h3]) (generatorMultiple_bytes hq) rfl
    rw [shifted, generator_root root hq, ← sum] at split
    simpa [rsStep, generatorMultiple] using split

theorem rsSteps_divide {j v : Nat} {r dat : List Nat} (root : j < 4) (hd : ∀ d ∈ dat, d < 256) (div : Divides (gfPow j) v r) :
    Divides (gfPow j) (gfHorner (gfPow j) v dat) (dat.foldl rsStep r) := by
  induction dat generalizing v r with
  | nil => exact div
  | cons d dat ih =>
    obtain ⟨hd, hdat⟩ := List.forall_mem_cons.mp hd
    exact ih hdat (rsStep_divides root hd div)

theorem gfEval_codeword {j : Nat} {dat : List Nat} (root : j < 4) (hd : ∀ d ∈ dat, d < 256) :
    gfEval (dat ++ rsCheck dat) (gfPow j) = 0 := by
  have empty : Divides (gfPow j) 0 [0, 0, 0, 0] := by
    refine ⟨rfl, by decide, by decide, ?_⟩
    simp only [gfHorner, List.foldl_cons, List.foldl_nil, gfMul_zero, Nat.xor_self]
  rw [rsCheck_eq]
  exact (gfHorner_append _ _ _ _).trans (rsSteps_divide root hd empty).zero

theorem syndromes_codeword {dat : List Nat} (hd : ∀ d ∈ dat, d < 256) : syndromes (dat ++ rsCheck dat) = [0, 0, 0, 0] := by
  have zero : ∀ j ∈ List.range 4, gfEval (dat ++ rsCheck dat) (gfPow j) = 0 := fun j hj =>
    gfEval_codeword (List.mem_range.mp hj) hd
  rw [syndromes, List.map_congr_left zero]
  rfl

/-! ## The burst on the pins (R210) -/

theorem burstBit_pin {k b : Nat} (hb : b < 8) : burstBit (k / 2) (8 * (k % 2) + b) = (k, b) :=
  Prod.ext (by simp only [burstBit]; omega) (by simp only [burstBit]; omega)

/-! ## The place of a line (R213) -/

/-- The channel of a line among four in a row: its place in the row, turned by the bits above. -/
theorem lineChannel_turned (l : Nat) : lineChannel l =
    l % 4 ^^^ ((l / 4 / 2 ^ 6) % 4 ^^^ ((l / 4 / 2 ^ 14) % 4 ^^^ (l / 4 / 2 ^ 22) % 4)) := by
  have mod (a b : Nat) : (a ^^^ b) % 4 = a % 4 ^^^ b % 4 := Nat.xor_mod_two_pow (n := 2)
  simp only [lineChannel, mod, Nat.xor_assoc, Nat.div_div_eq_div_mul, Nat.reducePow, Nat.reduceMul]

theorem mod_four_of_lineChannel {a b : Nat} (row : a / 4 = b / 4) (chan : lineChannel a = lineChannel b) : a % 4 = b % 4 := by
  rw [lineChannel_turned, lineChannel_turned b, row] at chan
  exact eq_of_xor_eq_xor chan

theorem linePlace_injective {two : Bool} {a b : Nat} (same : linePlace two a = linePlace two b) : a = b := by
  obtain ⟨chan, rank, group, bank, row, col⟩ := LinePlace.mk.inj same
  rw [row] at bank
  have turned : a / 4 / 4 % 4 = b / 4 / 4 % 4 := eq_of_xor_eq_xor bank
  have rows : a / 4 = b / 4 := by
    cases two
    · simp only [Bool.false_eq_true, if_false] at row
      omega
    · simp only [if_true] at row rank
      omega
  have within := mod_four_of_lineChannel rows chan
  omega

end Sys2Proof.Machine

open Sys2Proof Sys2Proof.Machine

/-- Settles O29: the remainder of each step of the division keeps the codeword's value at the roots; a place gives back the row
of four lines by its fields, and by the channel the line in it. -/
theorem lineCodeAndPlacementFollowTheSpec : Obligations.LineCodeAndPlacementFollowTheSpec := by
  refine ⟨?code, ?pins, ?place⟩
  case code =>
    intro dat _ bytes
    exact syndromes_codeword fun d mem => of_decide_eq_true (List.all_eq_true.mp bytes d mem)
  case pins => exact fun k b _ hb => burstBit_pin hb
  case place => exact fun two a b same => Fin.ext (linePlace_injective same)
end

section
/-!
PROOF. Fields of registers: a field written reads back, and every field beside it reads as before. What an alarm that is not
FATAL leaves of a memory controller.
-/

namespace Sys2Proof.Machine

/-! ## Fields of a value (R7) -/

/-- A value with a field replaced, by the bits above the field, in it and below it. -/
theorem putField_split (f : Fld) (v x : Nat) :
    putField f v x = 2 ^ f.lo * (2 ^ f.w * (v / 2 ^ f.lo / 2 ^ f.w) + x % 2 ^ f.w) + v % 2 ^ f.lo := by
  have parts : v = 2 ^ f.lo * (2 ^ f.w * (v / 2 ^ f.lo / 2 ^ f.w)) + fieldOf f v * 2 ^ f.lo + v % 2 ^ f.lo := by
    rw [fieldOf, Nat.mul_comm (_ % _), ← Nat.mul_add, Nat.div_add_mod, Nat.div_add_mod]
  rw [putField, Nat.mul_add, Nat.mul_comm _ (x % _)]
  omega

theorem testBit_putField (f : Fld) (v x i : Nat) :
    (putField f v x).testBit i = if f.lo ≤ i ∧ i < f.lo + f.w then x.testBit (i - f.lo) else v.testBit i := by
  rw [putField_split, Nat.testBit_two_pow_mul_add _ (Nat.mod_lt _ (Nat.two_pow_pos _)),
    Nat.testBit_two_pow_mul_add _ (Nat.mod_lt _ (Nat.two_pow_pos _)), Nat.testBit_mod_two_pow, Nat.testBit_mod_two_pow,
    Nat.testBit_div_two_pow, Nat.testBit_div_two_pow]
  by_cases below : i < f.lo
  · rw [if_pos below, if_neg (by omega), decide_eq_true below, Bool.true_and]
  · by_cases inside : i - f.lo < f.w
    · rw [if_neg below, if_pos inside, if_pos (by omega), decide_eq_true inside, Bool.true_and]
    · rw [if_neg below, if_neg inside, if_neg (by omega)]
      congr 1
      omega

theorem testBit_fieldOf (f : Fld) (v i : Nat) : (fieldOf f v).testBit i = (decide (i < f.w) && v.testBit (i + f.lo)) := by
  rw [fieldOf, Nat.testBit_mod_two_pow, Nat.testBit_div_two_pow, Nat.add_comm]

theorem fieldOf_putField_same (f : Fld) (v x : Nat) : fieldOf f (putField f v x) = x % 2 ^ f.w := by
  refine Nat.eq_of_testBit_eq fun i => ?_
  rw [testBit_fieldOf, testBit_putField, Nat.testBit_mod_two_pow, Nat.add_sub_cancel]
  by_cases inside : i < f.w
  · rw [if_pos (by omega)]
  · rw [decide_eq_false inside, Bool.false_and, Bool.false_and]

/-- Two fields share no bit. -/
abbrev Beside (f g : Fld) : Prop := f.lo + f.w ≤ g.lo ∨ g.lo + g.w ≤ f.lo

theorem fieldOf_putField_beside {f g : Fld} (beside : Beside f g) (v x : Nat) : fieldOf g (putField f v x) = fieldOf g v := by
  refine Nat.eq_of_testBit_eq fun i => ?_
  rw [testBit_fieldOf, testBit_fieldOf, testBit_putField]
  by_cases inside : i < g.w
  · rw [if_neg (by omega)]
  · rw [decide_eq_false inside, Bool.false_and, Bool.false_and]

/-! ## Fields of registers -/

theorem getF_of_reg {h t : Hw} {a : Nat} (same : reg t a = reg h a) (f : Fld) : getF t a f = getF h a f := by
  rw [getF, same, getF]

theorem isSet_of_reg {h t : Hw} {a : Nat} (same : reg t a = reg h a) (f : Fld) : isSet t a f = isSet h a f := by
  rw [isSet, getF_of_reg same, isSet]

theorem getF_setF_same (h : Hw) (a : Nat) {f : Fld} (fits : f.lo + f.w ≤ 64) (x : Nat) :
    getF (setF h a f x) a f = x % 2 ^ f.w := by
  rw [getF, setF, reg_setReg_same, BitVec.toNat_ofNat, fieldOf_mod f fits, fieldOf_putField_same]

theorem getF_setF_beside (h : Hw) (a b : Nat) {f g : Fld} (fits : g.lo + g.w ≤ 64) (beside : Beside f g) (x : Nat) :
    getF (setF h a f x) b g = getF h b g := by
  by_cases same : b = a
  · rw [same, getF, setF, reg_setReg_same, BitVec.toNat_ofNat, fieldOf_mod g fits, fieldOf_putField_beside beside, getF]
  · exact getF_setF_ne h f g x same

theorem isSet_setF_beside (h : Hw) (a b : Nat) {f g : Fld} (fits : g.lo + g.w ≤ 64) (beside : Beside f g) (x : Nat) :
    isSet (setF h a f x) b g = isSet h b g := by
  rw [isSet, getF_setF_beside h a b fits beside, isSet]

theorem isSet_setF_zero (h : Hw) (a : Nat) {f : Fld} (fits : f.lo + f.w ≤ 64) : isSet (setF h a f 0) a f = false := by
  rw [isSet, getF_setF_same h a fits, Nat.zero_mod]
  rfl

/-! ## Alarms and the controllers of memory (R439) -/

/-- The status registers and the states of the memory controllers are as before. -/
def LeavesDram (h t : Hw) : Prop := t.dram = h.dram ∧ ∀ c, reg t (aDC_STAT c) = reg h (aDC_STAT c)

theorem LeavesDram.same (h : Hw) : LeavesDram h h := ⟨rfl, fun _ => rfl⟩

theorem LeavesDram.trans {a b c : Hw} (h1 : LeavesDram a b) (h2 : LeavesDram b c) : LeavesDram a c :=
  ⟨h2.1.trans h1.1, fun k => (h2.2 k).trans (h1.2 k)⟩

theorem LeavesDram.dramCh {h t : Hw} (leaves : LeavesDram h t) (c : Nat) : dramCh t c = dramCh h c := by
  rw [Machine.dramCh, leaves.1, Machine.dramCh]

theorem leavesDram_of_parts {h t : Hw} (dram : t.dram = h.dram) (regs : t.regs = h.regs) : LeavesDram h t :=
  ⟨dram, fun c => by rw [reg, regs, reg]⟩

theorem setF_leavesDram {a : Nat} (other : ∀ c, aDC_STAT c ≠ a) (h : Hw) (f : Fld) (x : Nat) : LeavesDram h (setF h a f x) :=
  ⟨rfl, fun c => reg_setF_ne h f x (other c)⟩

theorem dcStat_ne_alStat (c : Nat) : aDC_STAT c ≠ aAL_STAT := by
  unfold aDC_STAT aAL_STAT
  omega

theorem dcStat_ne_alsum (c : Nat) : aDC_STAT c ≠ aHI_ALSUM := by
  unfold aDC_STAT aHI_ALSUM bar0Base
  omega

theorem setAlarm_leavesDram (h : Hw) (code : Nat) (x : AlarmEntry) : LeavesDram h (setAlarm h code x) :=
  leavesDram_of_parts rfl rfl

theorem sendVector_leavesDram (h : Hw) (v : Nat) : LeavesDram h (sendVector h v) := by
  unfold sendVector
  dsimp only
  split <;> exact leavesDram_of_parts rfl rfl

theorem appendLog_leavesDram (h : Hw) (r : LogRec) : LeavesDram h (appendLog h r) :=
  (leavesDram_of_parts rfl rfl).trans (setF_leavesDram dcStat_ne_alStat _ _ _)

theorem writeLog_leavesDram (h : Hw) (r : LogRec) : LeavesDram h (writeLog h r) := by
  unfold writeLog
  dsimp only
  split
  · exact appendLog_leavesDram h r
  · have cleared : LeavesDram h { h with obs.qLost := 0 } := leavesDram_of_parts rfl rfl
    exact (cleared.trans (appendLog_leavesDram _ _)).trans (appendLog_leavesDram _ r)

theorem occur_leavesDram {h : Hw} {code cls : Nat} (known : alarmClass code = some cls) (mild : cls ≠ 0) (k tick router : Nat)
    (first : LogRec) : LeavesDram h (occur h code k tick router first) := by
  unfold occur
  split
  · exact LeavesDram.same h
  rename_i found
  rw [Option.some.inj (found.symm.trans known)]
  extract_lets a a1 h1 h2 h3 h4 waiting sum src h5
  have counted : LeavesDram h h3 :=
    ((setAlarm_leavesDram h code a1).trans (setF_leavesDram dcStat_ne_alsum h1 _ _)).trans
      (setF_leavesDram dcStat_ne_alsum h2 _ _)
  have sent : LeavesDram h3 h4 := by
    unfold h4
    split
    · exact sendVector_leavesDram h3 _
    · exact LeavesDram.same h3
  have summed : LeavesDram h4 h5 := by
    unfold h5
    split
    · exact LeavesDram.same h4
    · exact leavesDram_of_parts rfl rfl
  rw [if_neg mild]
  exact (counted.trans sent).trans summed

theorem raiseAlarm_leavesDram {code cls : Nat} (known : alarmClass code = some cls) (mild : cls ≠ 0) (h : Hw)
    (router addr detail : Nat) : LeavesDram h (raiseAlarm h code router addr detail) := by
  unfold raiseAlarm
  rw [known]
  dsimp only
  split
  · rw [if_neg fun fatal => mild fatal.1]
    exact leavesDram_of_parts rfl rfl
  · exact (writeLog_leavesDram h _).trans (occur_leavesDram known mild _ _ _ _)

theorem raiseCondition_leavesDram {code cls : Nat} (known : alarmClass code = some cls) (mild : cls ≠ 0) (h : Hw)
    (router addr detail : Nat) : LeavesDram h (raiseCondition h code router addr detail) := by
  unfold raiseCondition
  split
  · exact LeavesDram.same h
  · exact (raiseAlarm_leavesDram known mild h _ _ _).trans (setAlarm_leavesDram _ _ _)

end Sys2Proof.Machine
end

section
/-!
PROOF. Lines of memory: what a channel that serves reads and writes, and what one that does not serve, or issues nothing,
leaves (R18, R211, R212, R217, R218).
-/

namespace Sys2Proof.Machine

/-! ## Bytes placed at addresses (R18) -/

theorem placeBytes_cons (a : Nat) (b : Byte) (bs : List Byte) : placeBytes a (b :: bs) = (a, b) :: placeBytes (a + 1) bs := by
  have next : (fun i => a + 1 + i) = (fun i => a + i) ∘ Nat.succ := funext fun i => by
    simp only [Function.comp_apply]
    omega
  rw [placeBytes, List.length_cons, List.range_succ_eq_map, List.map_cons, List.map_map, List.zip_cons_cons, Nat.add_zero, ← next,
    placeBytes]

/-- Bytes written at their addresses, in order. -/
def putBytes (m : Sparse Byte) (bs : List (Nat × Byte)) : Sparse Byte := bs.foldl (fun m b => writeByte m b.1 b.2) m

theorem putBytes_placeBytes (m : Sparse Byte) (a : Nat) (bytes : List Byte) :
    putBytes m (placeBytes a bytes) = writeBytes m a bytes := by
  induction bytes generalizing m a with
  | nil => rfl
  | cons b bs ih =>
    rw [placeBytes_cons]
    exact ih (writeByte m a b) (a + 1)

/-- The addresses that bytes are placed at. -/
theorem exists_placeBytes (a c : Nat) (bytes : List Byte) :
    ((placeBytes a bytes).any fun b => b.1 == c) = true ↔ a ≤ c ∧ c < a + bytes.length := by
  induction bytes generalizing a with
  | nil => simp [placeBytes]
  | cons b bs ih =>
    rw [placeBytes_cons, List.any_cons, Bool.or_eq_true, ih, beq_iff_eq, List.length_cons]
    omega

theorem placeBytes_within {a : Nat} {bytes : List Byte} {b : Nat × Byte} (mem : b ∈ placeBytes a bytes) :
    a ≤ b.1 ∧ b.1 < a + bytes.length :=
  (exists_placeBytes a b.1 bytes).mp (List.any_eq_true.mpr ⟨b, mem, beq_self_eq_true b.1⟩)

/-! ## Requests that find channels unserved (R217) -/

theorem applyAll_fixed {α : Type} {f : Hw → α → Hw} {h : Hw} {xs : List α} (fixed : ∀ x ∈ xs, f h x = h) :
    applyAll f h xs = h := by
  induction xs with
  | nil => rfl
  | cons x xs ih =>
    obtain ⟨hx, hxs⟩ := List.forall_mem_cons.mp fixed
    rw [applyAll_cons, hx]
    exact ih hxs

theorem countDrops_served {h : Hw} {l : Nat} (serves : chanServes h (lineChannel l) = true) : countDrops h [l] = h := by
  refine applyAll_fixed fun c _ => if_neg fun ⟨mine, idle⟩ => ?_
  simp only [List.any_cons, List.any_nil, Bool.or_false, beq_iff_eq] at mine
  exact idle (mine ▸ serves)

theorem chanServes_countDrops (h : Hw) (ls : List Nat) (c : Nat) : chanServes (countDrops h ls) c = chanServes h c := by
  refine applyAll_kept (g := fun h => chanServes h c) (fun t k => ?_) _ h
  split
  · have other : Beside fDC_STAT_DROPCNT fDC_CFG_EN ∧ Beside fDC_STAT_DROPCNT fDC_STAT_STOPPED := by decide
    simp only [chanServes, bump, isSet_setF_beside t _ _ (by decide : fDC_CFG_EN.lo + fDC_CFG_EN.w ≤ 64) other.1,
      isSet_setF_beside t _ _ (by decide : fDC_STAT_STOPPED.lo + fDC_STAT_STOPPED.w ≤ 64) other.2]
  · rfl

/-! ## Writes of one line (R211, R212) -/

theorem dramMask_line (m : Sparse Byte) (h : Hw) (l : Nat) (bs : List (Nat × Byte)) (es : List Ecc) :
    dramMask m h [l] bs es = lineMask m (countDrops h [l]) l bs (es.getD 0 .ok) := rfl

/-- Bytes placed in a line cover all of it only where there are 60. -/
theorem covers_line {l first : Nat} {bytes : List Byte} (fits : first + bytes.length ≤ 60) :
    ((List.range 60).all fun i => (placeBytes (lineByte l + first) bytes).any fun b => b.1 == lineByte l + i) = true ↔
      bytes.length = 60 := by
  simp only [List.all_eq_true, List.mem_range, exists_placeBytes, lineByte]
  constructor
  · intro covered
    have lowest := covered 0 (by decide)
    have highest := covered 59 (by decide)
    omega
  · intro whole i hi
    omega

theorem filter_line {l first : Nat} {bytes : List Byte} (fits : first + bytes.length ≤ 60) :
    ((placeBytes (lineByte l + first) bytes).filter fun b => b.1 / 60 == l) = placeBytes (lineByte l + first) bytes := by
  refine List.filter_eq_self.mpr fun b mem => beq_iff_eq.mpr ?_
  obtain ⟨low, high⟩ := placeBytes_within mem
  unfold lineByte at low high
  omega

theorem take_line {first : Nat} {bytes : List Byte} (fits : first + bytes.length ≤ 60) : bytes.take (60 - first) = bytes :=
  List.take_of_length_le (by omega)

theorem lineMask_unserved (m : Sparse Byte) {h : Hw} {l : Nat} (unserved : chanServes h (lineChannel l) = false)
    (bs : List (Nat × Byte)) (e : Ecc) : lineMask m h l bs e = (m, h) := if_pos (.inr (Bool.eq_false_iff.mp unserved))

section
variable {h : Hw} {l first : Nat} {bytes : List Byte} (serves : chanServes h (lineChannel l) = true)
  (fits : first + bytes.length ≤ 60) (nonempty : 1 ≤ bytes.length)
include serves fits nonempty

/-- The write of a served line goes by whether it covers the line, and by what the line reads as. -/
theorem lineMask_served (m : Sparse Byte) (e : Ecc) :
    lineMask m h l (placeBytes (lineByte l + first) bytes) e =
      if bytes.length = 60 then (writeBytes m (lineByte l + first) bytes, h)
      else match e with
        | .ok => (writeBytes m (lineByte l + first) bytes, h)
        | .corrected => (writeBytes m (lineByte l + first) bytes, bump h (aDC_ECC (lineChannel l)) fDC_ECC_CE 1)
        | .uncorrectable =>
          (putBytes (writeBytes m (lineByte l) poisonLine) ((placeBytes (lineByte l + first) bytes).filter fun b =>
            (List.range 10).all fun i => (placeBytes (lineByte l + first) bytes).any fun x => x.1 == b.1 / 10 * 10 + i),
            bump h (aDC_ECC (lineChannel l)) fDC_ECC_UE 1) := by
  have filled : (placeBytes (lineByte l + first) bytes).isEmpty = false := by
    obtain ⟨b, bs, rfl⟩ := List.exists_cons_of_length_pos nonempty
    rw [placeBytes_cons, List.isEmpty_cons]
  have put (m : Sparse Byte) : (placeBytes (lineByte l + first) bytes).foldl (fun m b => writeByte m b.1 b.2) m =
    writeBytes m (lineByte l + first) bytes := putBytes_placeBytes m _ bytes
  unfold lineMask
  simp only [filter_line fits, filled, serves, put, covers_line fits, not_true_eq_false, Bool.false_eq_true, or_self, if_false]
  cases e <;> rfl

end

/-! ## Accesses of one line (R211, R212, R218) -/

section
variable {m : Sparse Byte} {h : Hw} {l : Nat} {err : List (Fin 32 × Fin 16)}

/-- A part of a served line is merged into it. -/
theorem part_merges {first : Nat} {bytes : List Byte} (serves : chanServes h (lineChannel l) = true)
    (fits : first + bytes.length ≤ 60) (part : bytes.length < 60) :
    ¬ ((bytes.take (60 - first)).length = 60 ∨ ¬ chanServes h (lineChannel l) = true) := by
  rw [take_line fits]
  exact not_or.mpr ⟨Nat.ne_of_lt part, not_not_intro serves⟩

theorem dramLineAccess_held (wr : Option LineWrite) (holds : chanHolds h (lineChannel l) = true) :
    dramLineAccess m h l wr err = (m, h) := if_pos (.inr (.inr holds))

section
variable (live : frozen h = false) (inside : lineByte l < dramEnd h) (issues : chanHolds h (lineChannel l) = false)
include live inside issues

theorem lineAccess_issued : ¬ (frozen h = true ∨ dramEnd h ≤ lineByte l ∨ chanHolds h (lineChannel l) = true) := by
  rintro (stopped | outside | holds)
  · exact Bool.eq_false_iff.mp live stopped
  · exact Nat.not_le_of_lt inside outside
  · exact Bool.eq_false_iff.mp issues holds

theorem readLine_unserved (unserved : chanServes h (lineChannel l) = false) :
    dramLineAccess m h l none err = (m, answerRead (countDrops h [l]) poisonLine) :=
  (if_neg (lineAccess_issued live inside issues)).trans (if_pos (Bool.eq_false_iff.mp unserved))

theorem writeLine_unserved (w : LineWrite) (unserved : chanServes h (lineChannel l) = false) :
    dramLineAccess m h l (some w) err = (m, countDrops h [l]) := by
  refine (if_neg (lineAccess_issued live inside issues)).trans ((if_pos (.inr (Bool.eq_false_iff.mp unserved))).trans ?_)
  rw [dramMask_line, lineMask_unserved m ((chanServes_countDrops h [l] _).trans unserved)]

section
variable (serves : chanServes h (lineChannel l) = true)
include serves

theorem readLine_uncorrectable (far : rsDecode (codewordOf m l err) = none) :
    dramLineAccess m h l none err = (m, answerRead (lineUncorrectable h l) poisonLine) := by
  refine (if_neg (lineAccess_issued live inside issues)).trans ((if_neg (not_not_intro serves)).trans ?_)
  unfold codewordOf at far
  rw [far]

theorem readLine_decoded {xs : List Nat} {fixed : Bool} (near : rsDecode (codewordOf m l err) = some (xs, fixed)) :
    dramLineAccess m h l none err = (writeBytes m (lineByte l) (lineBytes xs),
      answerRead (if fixed then bump h (aDC_ECC (lineChannel l)) fDC_ECC_CE 1 else h) (lineBytes xs)) := by
  refine (if_neg (lineAccess_issued live inside issues)).trans ((if_neg (not_not_intro serves)).trans ?_)
  unfold codewordOf at near
  rw [near]
  rfl

theorem writeLine_whole {bytes : List Byte} (whole : bytes.length = 60) :
    dramLineAccess m h l (some ⟨0, bytes⟩) err = (writeBytes m (lineByte l) bytes, h) := by
  have all : bytes.take (60 - 0) = bytes := List.take_of_length_le (Nat.le_of_eq whole)
  have fits : 0 + bytes.length ≤ 60 := by omega
  refine (if_neg (lineAccess_issued live inside issues)).trans ((if_pos (.inl (all.symm ▸ whole))).trans ?_)
  rw [all, dramMask_line, countDrops_served serves, lineMask_served serves fits (by omega), if_pos whole, Nat.add_zero]

section
variable {first : Nat} {bytes : List Byte} (fits : first + bytes.length ≤ 60) (nonempty : 1 ≤ bytes.length)
  (part : bytes.length < 60)
include fits nonempty part

theorem writeLine_decoded {xs : List Nat} {fixed : Bool} (near : rsDecode (codewordOf m l err) = some (xs, fixed)) :
    dramLineAccess m h l (some ⟨first, bytes⟩) err =
      (writeBytes (writeBytes m (lineByte l) (lineBytes xs)) (lineByte l + first) bytes,
        if fixed then bump h (aDC_ECC (lineChannel l)) fDC_ECC_CE 1 else h) := by
  refine (if_neg (lineAccess_issued live inside issues)).trans
    ((if_neg (part_merges serves fits part)).trans ?_)
  unfold codewordOf at near
  rw [near, take_line fits]
  dsimp only
  rw [dramMask_line, countDrops_served serves, lineMask_served serves fits nonempty, if_neg (Nat.ne_of_lt part)]
  cases fixed <;> rfl

theorem writeLine_uncorrectable (far : rsDecode (codewordOf m l err) = none) :
    (dramLineAccess m h l (some ⟨first, bytes⟩) err).2 = bump h (aDC_ECC (lineChannel l)) fDC_ECC_UE 1 := by
  refine (congrArg Prod.snd ((if_neg (lineAccess_issued live inside issues)).trans
    (if_neg (part_merges serves fits part)))).trans ?_
  unfold codewordOf at far
  rw [far, take_line fits]
  dsimp only
  rw [dramMask_line, countDrops_served serves, lineMask_served serves fits nonempty, if_neg (Nat.ne_of_lt part)]
  rfl

end
end
end
end

/-- An access of a line that leaves memory as it is. -/
theorem givesHw_line {line : BitVec 30} {wr : Option LineWrite} {err : List (Fin 32 × Fin 16)} {s : State} {t : Hw}
    (is : dramLineAccess s.mem s.hw line.toNat wr err = (s.mem, t)) : GivesHw (.dramLineAccess line wr err) s t := by
  have gives : GivesMem (.dramLineAccess line wr err) s (s.mem, t) := givesMem_onMem rfl is
  exact gives

end Sys2Proof.Machine
end

section
/-!
PROOF. Memory controllers: their configuration at START-UP, the bands of a reading, HOTPOL, and training pauses (R207, R208,
R215 to R220).
-/

namespace Sys2Proof.Machine

/-! ## Configuration (R207, R208) -/

/-- A channel enabled, with the code of its capacity and its ranks. -/
def enableChan (cap ranks : Nat) (h : Hw) (c : Nat) : Hw :=
  setF (setF (setF h (aDC_CFG c) fDC_CFG_CAP cap) (aDC_CFG c) fDC_CFG_RANKS (ranks - 1)) (aDC_CFG c) fDC_CFG_EN 1

theorem enableChan_dramGib (cap ranks : Nat) (h : Hw) (c : Nat) : (enableChan cap ranks h c).dramGib = h.dramGib := by
  rw [enableChan, setF_dramGib, setF_dramGib, setF_dramGib]

/-- The channel is enabled, and its ranks stand as their number less 1. -/
def EnabledWith (ranks c : Nat) (h : Hw) : Prop :=
  isSet h (aDC_CFG c) fDC_CFG_EN = true ∧ getF h (aDC_CFG c) fDC_CFG_RANKS = (ranks - 1) % 2

theorem enableChan_enables (cap ranks : Nat) (h : Hw) (c : Nat) : EnabledWith ranks c (enableChan cap ranks h c) := by
  refine ⟨isSet_setF_one _ _ rfl (by decide), ?_⟩
  rw [enableChan, getF_setF_beside _ _ _ (by decide) (by decide), getF_setF_same _ _ (by decide)]
  rfl

theorem dcCfg_injective {c k : Nat} (same : aDC_CFG c = aDC_CFG k) : c = k := by
  unfold aDC_CFG at same
  omega

theorem enableChan_keeps {cap ranks : Nat} {h : Hw} {c : Nat} (k : Nat) (enabled : EnabledWith ranks c h) :
    EnabledWith ranks c (enableChan cap ranks h k) := by
  by_cases same : c = k
  · exact same ▸ enableChan_enables cap ranks h c
  · have apart : aDC_CFG c ≠ aDC_CFG k := fun e => same (dcCfg_injective e)
    have reads : reg (enableChan cap ranks h k) (aDC_CFG c) = reg h (aDC_CFG c) := by
      rw [enableChan, reg_setF_ne _ _ _ apart, reg_setF_ne _ _ _ apart, reg_setF_ne _ _ _ apart]
    exact ⟨(isSet_of_reg reads _).trans enabled.1, (getF_of_reg reads _).trans enabled.2⟩

/-- Four channels that are fitted alike, of one rank or two. -/
theorem exists_of_dramSupported {chans : List DramChan} (supported : dramSupported chans = true) :
    ∃ a rest, chans = a :: rest ∧ (a.ranks = 1 ∨ a.ranks = 2) := by
  unfold dramSupported at supported
  split at supported
  · rename_i a b c d
    refine ⟨a, [b, c, d], rfl, ?_⟩
    have first := List.all_eq_true.mp supported a List.mem_cons_self
    simp only [Bool.and_eq_true, Bool.or_eq_true, beq_iff_eq] at first
    obtain ⟨⟨⟨⟨-, ranks⟩, -⟩, -⟩, -⟩ := first
    exact ranks
  · cases supported

section
variable {h : Hw} {chans : List DramChan} (starting : h.mode = .startUp) (clocked : h.clocked = true)
include starting clocked

theorem starting_not_skipped : ¬ (h.mode ≠ .startUp ∨ frozen h = true) := by
  simp [frozen, starting, clocked]

theorem dramConfigCheck_supported (supported : dramSupported chans = true) :
    (dramConfigCheck h chans).dramGib = (chans.map (·.gib)).headD 0 ∧ ∀ c < 4,
      isSet (dramConfigCheck h chans) (aDC_CFG c) fDC_CFG_EN = true ∧
        getF (dramConfigCheck h chans) (aDC_CFG c) fDC_CFG_RANKS + 1 = (chans.map (·.ranks)).headD 0 := by
  obtain ⟨a, rest, rfl, ranks⟩ := exists_of_dramSupported supported
  have configured : dramConfigCheck h (a :: rest) =
      applyAll (enableChan (if a.gib = 4 then 1 else if a.gib = 8 then 2 else 3) a.ranks) (withGib h a.gib) (List.range 4) :=
    (if_neg (starting_not_skipped starting clocked)).trans (if_pos supported)
  rw [configured]
  refine ⟨(applyAll_kept (g := Hw.dramGib) (fun h c => enableChan_dramGib _ _ h c) (List.range 4) (withGib h a.gib)).trans rfl,
    fun c hc => ?_⟩
  obtain ⟨enabled, count⟩ := applyAll_each (P := EnabledWith a.ranks) (enableChan_enables _ _) (fun _ _ k => enableChan_keeps k)
    (List.mem_range.mpr hc) (withGib h a.gib)
  refine ⟨enabled, ?_⟩
  rw [count, List.map_cons, List.headD_cons]
  omega

theorem dramConfigCheck_unsupported (unsupported : dramSupported chans = false) :
    dramConfigCheck h chans = raiseAlarm (applyAll (fun h c => setF h (aDC_CFG c) fDC_CFG_EN 0) (withGib h 0) (List.range 4))
      0x080 0xFF 0 0 :=
  (if_neg (starting_not_skipped starting clocked)).trans (if_neg (Bool.eq_false_iff.mp unsupported))

end

/-! ## Readings (R215, Table 8.3) -/

/-- The reading of the hotter of two dies, the first where they are alike. -/
def hotter (best : Option (BitVec 8)) (r : BitVec 8) : Option (BitVec 8) :=
  match best with
  | none => some r
  | some b => if refreshRate b < refreshRate r then some r else some b

theorem hottest_eq (rs : List (BitVec 8)) : hottest rs = rs.foldl hotter none := rfl

theorem hotter_some (b r : BitVec 8) : ∃ w, hotter (some b) r = some w ∧ (w = b ∨ w = r) ∧
    refreshRate b ≤ refreshRate w ∧ refreshRate r ≤ refreshRate w := by
  by_cases lt : refreshRate b < refreshRate r
  · exact ⟨r, if_pos lt, .inr rfl, Nat.le_of_lt lt, Nat.le_refl _⟩
  · exact ⟨b, if_neg lt, .inl rfl, Nat.le_refl _, Nat.le_of_not_lt lt⟩

theorem foldl_hotter_spec {b v : BitVec 8} {rs : List (BitVec 8)} (hot : rs.foldl hotter (some b) = some v) :
    v ∈ b :: rs ∧ ∀ x ∈ b :: rs, refreshRate x ≤ refreshRate v := by
  induction rs generalizing b with
  | nil =>
    obtain rfl := Option.some.inj hot
    simp
  | cons r rs ih =>
    obtain ⟨w, step, either, above, beyond⟩ := hotter_some b r
    rw [List.foldl_cons, step] at hot
    obtain ⟨mem, most⟩ := ih hot
    obtain ⟨first, others⟩ := List.forall_mem_cons.mp most
    have all : ∀ x ∈ b :: r :: rs, refreshRate x ≤ refreshRate v :=
      List.forall_mem_cons.mpr ⟨Nat.le_trans above first, List.forall_mem_cons.mpr ⟨Nat.le_trans beyond first, others⟩⟩
    refine ⟨?_, all⟩
    rcases either with rfl | rfl
    · exact List.cons_subset_cons _ (List.subset_cons_self _ _) mem
    · exact List.mem_cons_of_mem _ mem

theorem hottest_spec {rs : List (BitVec 8)} {v : BitVec 8} (hot : hottest rs = some v) :
    v ∈ rs ∧ ∀ x ∈ rs, refreshRate x ≤ refreshRate v := by
  rw [hottest_eq] at hot
  cases rs with
  | nil => cases hot
  | cons b rs => exact foldl_hotter_spec hot

@[simp] theorem dramCh_setDramCh_same (h : Hw) (c : Nat) (x : DramCh) : dramCh (setDramCh h c x) c = x :=
  getD_setD_same DramCh.reset h.dram c x

@[simp] theorem dramCh_setF (h : Hw) (a : Nat) (f : Fld) (x c : Nat) : dramCh (setF h a f x) c = dramCh h c := by
  rw [dramCh, setF_dram, dramCh]

@[simp] theorem reg_setDramCh (h : Hw) (c : Nat) (x : DramCh) (a : Nat) : reg (setDramCh h c x) a = reg h a := rfl

/-- A channel's latest reading noted. -/
abbrev readingNoted (h : Hw) (c : Nat) (v : BitVec 8) : Hw := setF h (aDC_STAT c) fDC_STAT_MR4 v.toNat

theorem getF_readingNoted (h : Hw) (c : Nat) (v : BitVec 8) : getF (readingNoted h c v) (aDC_STAT c) fDC_STAT_MR4 = v.toNat :=
  (getF_setF_same h _ (by decide) _).trans (Nat.mod_eq_of_lt v.isLt)

theorem hotlim_readingNoted (h : Hw) (c : Nat) (v : BitVec 8) :
    isSet (readingNoted h c v) (aDC_STAT c) fDC_STAT_HOTLIM = isSet h (aDC_STAT c) fDC_STAT_HOTLIM :=
  isSet_setF_beside h _ _ (by decide) (by decide) _

/-- A channel at the end of its rated range: the rate of hot memory asked for, and no run of readings below. -/
def atLimit (x : DramCh) : DramCh := { x with hotNext := true, coolRun := 0, inRangeRun := 0 }

/-- The state of a channel of which the third reading in succession lies below the limit. -/
def belowLimit (x : DramCh) : DramCh := { x with inRangeRun := 0, coolRun := 0, hotNext := true }

/-- The limit noted at a channel. -/
def limitNoted (h : Hw) (c : Nat) : Hw := raiseBit (setDramCh h c (atLimit (dramCh h c))) (aDC_STAT c) fDC_STAT_HOTLIM

/-- The limit left by a channel, and its policy ended. -/
def limitLeft (h : Hw) (c : Nat) (x : DramCh) : Hw :=
  endPolicy (setF (setDramCh h c (belowLimit x)) (aDC_STAT c) fDC_STAT_HOTLIM 0) c

/-- A reading of a cool channel while the rate of hot memory is asked for. -/
def countCool (h : Hw) (c : Nat) (x : DramCh) : Hw :=
  if x.coolRun + 1 < 2 then setDramCh h c { x with coolRun := x.coolRun + 1 }
  else setDramCh h c { x with coolRun := 0, hotNext := false }

theorem countCool_eq (h : Hw) (c : Nat) (x : DramCh) : countCool h c x = setDramCh h c (coolCounted x) := by
  unfold countCool coolCounted
  by_cases none : x.coolRun = 0
  · rw [if_pos none, none]
    rfl
  · rw [if_neg none, if_neg (by omega)]

section
variable {h : Hw} {c : Nat} {rs : List (BitVec 8)} {v : BitVec 8} (live : chanLive h c = true) (hot : hottest rs = some v)
include live hot

theorem mr4Read_limit (band : bandOf v = .limit) : mr4Read h c rs =
    if isSet h (aDC_STAT c) fDC_STAT_HOTLIM then limitNoted (readingNoted h c v) c
    else raiseCondition (limitNoted (readingNoted h c v) c) 0x081 (dcRouter c) 0 c := by
  unfold mr4Read
  rw [if_neg (not_not_intro live), hot]
  dsimp only
  rw [band, hotlim_readingNoted]
  rfl

section
variable (band : bandOf v ≠ .limit)
include band

/-- A reading below the limit. -/
theorem mr4Read_below : mr4Read h c rs =
    if isSet h (aDC_STAT c) fDC_STAT_HOTLIM then
      if (dramCh h c).inRangeRun + 1 < 3 then setDramCh (readingNoted h c v) c (stillHot (dramCh h c))
      else if (List.range 4).any fun k => isSet (limitLeft (readingNoted h c v) c (dramCh h c)) (aDC_STAT k) fDC_STAT_HOTLIM then
        limitLeft (readingNoted h c v) c (dramCh h c)
      else endCondition (limitLeft (readingNoted h c v) c (dramCh h c)) 0x081
    else if bandOf v = .hot then setDramCh (readingNoted h c v) c (hotAsked (dramCh h c))
    else if (dramCh h c).hotNext then countCool (readingNoted h c v) c (dramCh h c)
    else readingNoted h c v := by
  unfold mr4Read
  rw [if_neg (not_not_intro live)]
  split
  case h_1 found => cases hot.symm.trans found
  case h_2 w found =>
    obtain rfl := Option.some.inj (hot.symm.trans found)
    extract_lets b t x lim
    have same : lim = isSet h (aDC_STAT c) fDC_STAT_HOTLIM := hotlim_readingNoted h c v
    have state : x = dramCh h c := dramCh_setF h _ _ _ c
    have below : b ≠ .limit := band
    rw [show readingNoted h c v = t from rfl, show bandOf v = b from rfl, ← same, ← state]
    clear_value b t x lim
    cases b
    case limit => exact absurd rfl below
    case hot => rfl
    case normal => rfl

end
end

theorem limitNoted_hotlim (h : Hw) (c : Nat) : isSet (limitNoted h c) (aDC_STAT c) fDC_STAT_HOTLIM = true :=
  isSet_setF_one (setDramCh h c (atLimit (dramCh h c))) (aDC_STAT c) rfl (by decide)

theorem limitNoted_mr4 (h : Hw) (c : Nat) :
    getF (limitNoted h c) (aDC_STAT c) fDC_STAT_MR4 = getF h (aDC_STAT c) fDC_STAT_MR4 :=
  getF_setF_beside (setDramCh h c (atLimit (dramCh h c))) (aDC_STAT c) _ (by decide) (by decide) 1

theorem dramCh_limitNoted (h : Hw) (c : Nat) : dramCh (limitNoted h c) c = atLimit (dramCh h c) := by
  rw [limitNoted, dramCh, raiseBit_dram]
  exact dramCh_setDramCh_same h c (atLimit (dramCh h c))

/-- A channel that has left the limit is under no policy, in no self-refresh, and asks for the rate of hot memory. -/
structure LimitLeft (h : Hw) (c : Nat) : Prop where
  hotlim : isSet h (aDC_STAT c) fDC_STAT_HOTLIM = false
  throt : isSet h (aDC_STAT c) fDC_STAT_THROT = false
  stopped : isSet h (aDC_STAT c) fDC_STAT_STOPPED = false
  hotNext : (dramCh h c).hotNext = true
  awake : (dramCh h c).selfRefresh = false

theorem LimitLeft.of_leavesDram {h t : Hw} {c : Nat} (leaves : LeavesDram h t) (left : LimitLeft h c) : LimitLeft t c where
  hotlim := (isSet_of_reg (leaves.2 c) _).trans left.hotlim
  throt := (isSet_of_reg (leaves.2 c) _).trans left.throt
  stopped := (isSet_of_reg (leaves.2 c) _).trans left.stopped
  hotNext := leaves.dramCh c ▸ left.hotNext
  awake := leaves.dramCh c ▸ left.awake

/-- The status of a channel of which HOTLIM, THROT and STOPPED are cleared in turn. -/
theorem limitLeft_left (h : Hw) (c : Nat) (x : DramCh) : LimitLeft (limitLeft h c x) c := by
  obtain ⟨g, hg⟩ : ∃ g, g = setDramCh h c (belowLimit x) := ⟨_, rfl⟩
  have cleared : (dramCh (setF (setF (setF g (aDC_STAT c) fDC_STAT_HOTLIM 0) (aDC_STAT c) fDC_STAT_THROT 0) (aDC_STAT c)
      fDC_STAT_STOPPED 0) c) = belowLimit x := by
    rw [dramCh_setF, dramCh_setF, dramCh_setF, hg, dramCh_setDramCh_same]
  unfold limitLeft endPolicy
  rw [← hg]
  dsimp only
  refine ⟨?hotlim, ?throt, ?stopped, ?hotNext, ?awake⟩
  case hotlim =>
    rw [isSet_of_reg (reg_setDramCh _ _ _ _), isSet_setF_beside _ _ _ (by decide) (by decide),
      isSet_setF_beside _ _ _ (by decide) (by decide), isSet_setF_zero _ _ (by decide)]
  case throt =>
    rw [isSet_of_reg (reg_setDramCh _ _ _ _), isSet_setF_beside _ _ _ (by decide) (by decide), isSet_setF_zero _ _ (by decide)]
  case stopped => rw [isSet_of_reg (reg_setDramCh _ _ _ _), isSet_setF_zero _ _ (by decide)]
  case hotNext => rw [dramCh_setDramCh_same, cleared, belowLimit]
  case awake => rw [dramCh_setDramCh_same]

section
variable {h : Hw} {c : Nat} {rs : List (BitVec 8)} {v : BitVec 8} (live : chanLive h c = true) (hot : hottest rs = some v)
include live hot

theorem mr4Read_atLimit (band : bandOf v = .limit) : isSet (mr4Read h c rs) (aDC_STAT c) fDC_STAT_HOTLIM = true ∧
    getF (mr4Read h c rs) (aDC_STAT c) fDC_STAT_MR4 = v.toNat ∧ (dramCh (mr4Read h c rs) c).hotNext = true ∧
      (dramCh (mr4Read h c rs) c).inRangeRun = 0 := by
  have leaves : LeavesDram (limitNoted (readingNoted h c v) c) (mr4Read h c rs) := by
    rw [mr4Read_limit live hot band]
    split
    · exact LeavesDram.same _
    · exact raiseCondition_leavesDram (cls := 1) rfl (by decide) _ _ _ _
  rw [isSet_of_reg (leaves.2 c), getF_of_reg (leaves.2 c), leaves.dramCh, limitNoted_mr4, getF_readingNoted, dramCh_limitNoted]
  exact ⟨limitNoted_hotlim _ _, rfl, rfl, rfl⟩

section
variable (band : bandOf v ≠ .limit)
include band

section
variable (limit : isSet h (aDC_STAT c) fDC_STAT_HOTLIM = true)
include limit

theorem mr4Read_stillHot (early : (dramCh h c).inRangeRun < 2) :
    mr4Read h c rs = setDramCh (readingNoted h c v) c (stillHot (dramCh h c)) :=
  (mr4Read_below live hot band).trans ((if_pos limit).trans (if_pos (by omega)))

theorem mr4Read_leavesLimit (third : 2 ≤ (dramCh h c).inRangeRun) : LimitLeft (mr4Read h c rs) c := by
  rw [mr4Read_below live hot band, if_pos limit, if_neg (by omega)]
  split
  · exact limitLeft_left _ c _
  · exact (limitLeft_left _ c _).of_leavesDram (setAlarm_leavesDram _ _ _)

end

section
variable (unlimited : isSet h (aDC_STAT c) fDC_STAT_HOTLIM = false)
include unlimited

theorem mr4Read_unlimited : mr4Read h c rs =
    if bandOf v = .hot then setDramCh (readingNoted h c v) c (hotAsked (dramCh h c))
    else if (dramCh h c).hotNext then setDramCh (readingNoted h c v) c (coolCounted (dramCh h c))
    else readingNoted h c v := by
  rw [mr4Read_below live hot band, if_neg (Bool.eq_false_iff.mp unlimited), countCool_eq]

end
end
end

/-! ## HOTPOL (R217) -/

section
variable {h : Hw} {c : Nat}

theorem hotpolApply_cool (cool : isSet h (aDC_STAT c) fDC_STAT_HOTLIM = false) : hotpolApply h c = h :=
  if_pos fun acts => Bool.eq_false_iff.mp cool acts.2

section
variable (live : chanLive h c = true) (hot : isSet h (aDC_STAT c) fDC_STAT_HOTLIM = true)
include live hot

theorem hotpolApply_throttle (policy : getF h (aDC_CFG c) fDC_CFG_HOTPOL = 0) :
    hotpolApply h c = raiseBit h (aDC_STAT c) fDC_STAT_THROT := (if_neg (not_not_intro ⟨live, hot⟩)).trans (if_pos policy)

theorem hotpolApply_stop (policy : getF h (aDC_CFG c) fDC_CFG_HOTPOL ≠ 0) :
    hotpolApply h c = setDramCh (raiseBit h (aDC_STAT c) fDC_STAT_STOPPED) c (inSelfRefresh (dramCh h c)) :=
  (if_neg (not_not_intro ⟨live, hot⟩)).trans (if_neg policy)

end

/-! ## Refresh and training pauses (R216, R218 to R220) -/

theorem pauseStart_waits (aligned : isSet h (aDC_TRALIGN c) fDC_TRALIGN_EN = true) (unstrobed : (dramCh h c).strobed = false) :
    pauseStart h c = h := by
  refine if_neg fun ⟨_, _, starts⟩ => ?_
  rcases starts with unaligned | strobed
  · exact unaligned aligned
  · exact Bool.eq_false_iff.mp unstrobed strobed

section
variable (live : chanLive h c = true)
include live

theorem dramRefresh_issued (runs : (dramCh h c).paused = false) :
    dramRefresh h c = setF h (aDC_STAT c) fDC_STAT_HOT2X (dramCh h c).hotNext.toNat :=
  (if_neg (not_not_intro live)).trans (if_neg (Bool.eq_false_iff.mp runs))

theorem dramRefresh_waits (paused : (dramCh h c).paused = true) : dramRefresh h c = setDramCh h c (refreshWaits (dramCh h c)) :=
  (if_neg (not_not_intro live)).trans (if_pos paused)

theorem pauseDue_falls (idle : (dramCh h c).due = false) (runs : (dramCh h c).paused = false) :
    pauseDue h c = setDramCh h c (pauseIsDue (dramCh h c)) :=
  if_pos ⟨live, Bool.eq_false_iff.mp idle, Bool.eq_false_iff.mp runs⟩

section
variable (due : (dramCh h c).due = true)
include due

theorem pauseStart_starts (free : isSet h (aDC_TRALIGN c) fDC_TRALIGN_EN = false ∨ (dramCh h c).strobed = true) :
    pauseStart h c = bump (setDramCh h c (pauseRuns (dramCh h c))) (aDC_TRAIN c) fDC_TRAIN_PAUSECNT 1 :=
  if_pos ⟨live, due, free.imp_left Bool.eq_false_iff.mp⟩

theorem graceExpiry_starts (aligned : isSet h (aDC_TRALIGN c) fDC_TRALIGN_EN = true) (unstrobed : (dramCh h c).strobed = false) :
    graceExpiry h c = raiseAlarm (bump (bump (setDramCh h c (pauseRuns (dramCh h c))) (aDC_TRAIN c) fDC_TRAIN_PAUSECNT 1)
      (aDC_TRAIN c) fDC_TRAIN_UNALCNT 1) 0x083 (dcRouter c) 0 c :=
  if_pos ⟨live, due, aligned, Bool.eq_false_iff.mp unstrobed⟩

end
end

/-- A channel's pause over: the refreshes that waited are issued at the rate asked for. -/
def afterPause (h : Hw) (c : Nat) (drift : BitVec 8) : Hw :=
  if (dramCh h c).waiting = 0 then setDramCh h c (pauseOver (dramCh h c) drift)
  else setF (setDramCh h c (pauseOver (dramCh h c) drift)) (aDC_STAT c) fDC_STAT_HOT2X (dramCh h c).hotNext.toNat

theorem issueRefresh_pauseOver (h : Hw) (c : Nat) (drift : BitVec 8) :
    issueRefresh (setDramCh h c (pauseOver (dramCh h c) drift)) c =
      setF (setDramCh h c (pauseOver (dramCh h c) drift)) (aDC_STAT c) fDC_STAT_HOT2X (dramCh h c).hotNext.toNat := by
  rw [issueRefresh, dramCh_setDramCh_same, pauseOver]

theorem pauseEnd_ends (drift : BitVec 8) (paused : (dramCh h c).paused = true) (live : frozen h = false) :
    pauseEnd h c drift = setF (setF (afterPause h c drift) (aDC_TRAIN c) fDC_TRAIN_DRIFT drift.toNat) (aDC_TRAIN c) fDC_TRAIN_IVL
      (nextInterval (getF h (aDC_TRAIN c) fDC_TRAIN_IVL) drift.toInt.natAbs) := by
  rw [afterPause, ← issueRefresh_pauseOver]
  exact if_neg (not_not_intro ⟨paused, Bool.eq_false_iff.mp live⟩)

end

end Sys2Proof.Machine

open Sys2Proof Sys2Proof.Machine

/-- Settles O28: a line by whether its channel issues, serves and can decode it; a reading by its band, and by the limit's run. -/
theorem dramControllersAct : Obligations.DramControllersAct := by
  refine ⟨?supported, ?unsupported, ?readNear, ?readFar, ?readUnserved, ?whole, ?partNear, ?partFar, ?writeUnserved, ?held,
    ?refresh, ?refreshWaits, ?limit, ?still, ?third, ?hot, ?cooling, ?cool, ?hottest, ?throttle, ?stop, ?noPolicy, ?due, ?starts,
    ?unstrobed, ?grace, ?ends⟩
  case supported =>
    intro chans s starting clocked supported
    obtain ⟨gib, enabled⟩ := dramConfigCheck_supported starting clocked supported
    exact ⟨_, rfl, rfl, gib, fun c => enabled c c.isLt⟩
  case unsupported =>
    exact fun chans s starting clocked unsupported => givesHw_onHw rfl (dramConfigCheck_unsupported starting clocked unsupported)
  case readNear =>
    exact fun line err xs fixed s live inside issues serves near =>
      givesMem_onMem rfl (readLine_decoded live inside issues serves near)
  case readFar =>
    exact fun line err s live inside issues serves far =>
      givesHw_line (readLine_uncorrectable live inside issues serves far)
  case readUnserved =>
    exact fun line err s live inside issues unserved => givesHw_line (readLine_unserved live inside issues unserved)
  case whole =>
    exact fun line bytes err s live inside issues serves whole =>
      givesMem_onMem rfl (writeLine_whole live inside issues serves whole)
  case partNear =>
    exact fun line first bytes err xs fixed s live inside issues serves fits nonempty part near =>
      givesMem_onMem rfl (writeLine_decoded live inside issues serves fits nonempty part near)
  case partFar =>
    exact fun line first bytes err s live inside issues serves fits nonempty part far =>
      ⟨_, rfl, writeLine_uncorrectable live inside issues serves fits nonempty part far⟩
  case writeUnserved =>
    exact fun line w err s live inside issues unserved => givesHw_line (writeLine_unserved live inside issues w unserved)
  case held => exact fun line wr err s holds => givesHw_line (dramLineAccess_held wr holds)
  case refresh => exact fun c s live runs => givesHw_onHw rfl (dramRefresh_issued live runs)
  case refreshWaits => exact fun c s live paused => givesHw_onHw rfl (dramRefresh_waits live paused)
  case limit => exact fun c rs v s live hot band => ⟨_, rfl, rfl, mr4Read_atLimit live hot band⟩
  case still =>
    exact fun c rs v s live hot band limit early => givesHw_onHw rfl (mr4Read_stillHot live hot band limit early)
  case third =>
    intro c rs v s live hot band limit third
    obtain ⟨hotlim, throt, stopped, hotNext, awake⟩ := mr4Read_leavesLimit live hot band limit third
    exact ⟨_, rfl, rfl, hotlim, throt, stopped, hotNext, awake⟩
  case hot =>
    exact fun c rs v s live hot band unlimited =>
      givesHw_onHw rfl ((mr4Read_unlimited live hot (band ▸ nofun) unlimited).trans (if_pos band))
  case cooling =>
    exact fun c rs v s live hot band unlimited asked =>
      givesHw_onHw rfl ((mr4Read_unlimited live hot (band ▸ nofun) unlimited).trans
        ((if_neg (band ▸ nofun)).trans (if_pos asked)))
  case cool =>
    exact fun c rs v s live hot band unlimited unasked =>
      givesHw_onHw rfl ((mr4Read_unlimited live hot (band ▸ nofun) unlimited).trans
        ((if_neg (band ▸ nofun)).trans (if_neg (Bool.eq_false_iff.mp unasked))))
  case hottest => exact fun rs v hot => hottest_spec hot
  case throttle => exact fun c s live hot policy => givesHw_onHw rfl (hotpolApply_throttle live hot policy)
  case stop => exact fun c s live hot policy => givesHw_onHw rfl (hotpolApply_stop live hot policy)
  case noPolicy => exact fun c s cool => givesHw_onHw rfl (hotpolApply_cool cool)
  case due => exact fun c s live idle runs => givesHw_onHw rfl (pauseDue_falls live idle runs)
  case starts => exact fun c s live due free => givesHw_onHw rfl (pauseStart_starts live due free)
  case unstrobed => exact fun c s aligned unstrobed => givesHw_onHw rfl (pauseStart_waits aligned unstrobed)
  case grace => exact fun c s live due aligned unstrobed => givesHw_onHw rfl (graceExpiry_starts live due aligned unstrobed)
  case ends =>
    rintro c drift h s paused live rfl
    exact givesMem_onMem rfl (congrArg (serveWaiting s.mem · c) (pauseEnd_ends drift paused live))
end

section
/-!
PROOF. The device and chain commands, where no check turns them away, are their bodies, answered.
-/

namespace Sys2Proof.Machine

section
variable {s : State} {sl : Fin 48}

/-! ## `DOMAIN_RESET` and `STATE_SET` (R462, R467) -/

theorem domainReset_begins (ready : Ready s sl 0x102) (fits : pay (held s sl) 0 1 ≤ 0x20)
    (free : domainFree (asked s sl).hw (pay (held s sl) 0 1) = true) :
    GivesHw (.domainReset sl) s (becomeRunning (domainBegin (asked s sl).hw (pay (held s sl) 0 1)) sl 1) :=
  givesHw_body (r := .running 1) rfl ready (decide_eq_true fits) (if_pos free)

theorem domainReset_refused (ready : Ready s sl 0x102) (fits : pay (held s sl) 0 1 ≤ 0x20)
    (busy : domainFree (asked s sl).hw (pay (held s sl) 0 1) = false) :
    GivesHw (.domainReset sl) s (reply (asked s sl).hw sl stWrong []) :=
  givesHw_body (r := .done stWrong []) rfl ready (decide_eq_true fits) (if_neg (Bool.eq_false_iff.mp busy))

theorem stateSet_test {h : Hw} {status : Nat} (ready : Ready s sl 0x103) (asks : pay (held s sl) 0 1 = 1)
    (gives : (if testAllowed (asked s sl).hw then (setMode (asked s sl).hw .test, stOk) else ((asked s sl).hw, stWrong)) =
      (h, status)) : GivesHw (.stateSet sl) s (reply h sl status []) :=
  givesHw_acts rfl ready (by simp [asks]) ((if_pos asks).trans gives)

theorem stateSet_run {h : Hw} {status : Nat} (ready : Ready s sl 0x103) (asks : pay (held s sl) 0 1 = 2)
    (gives : (if runAllowed (asked s sl).hw then (returnToRun (asked s sl).hw, stOk) else ((asked s sl).hw, stWrong)) =
      (h, status)) : GivesHw (.stateSet sl) s (reply h sl status []) :=
  givesHw_acts rfl ready (by simp [asks]) ((if_neg (by omega)).trans gives)

end

end Sys2Proof.Machine

open Sys2Proof Sys2Proof.Machine

/-- Settles O43: each command is its body, answered, and each body is read off its definition. -/
theorem deviceAndChainCommandsRun : Obligations.DeviceAndChainCommandsRun := by
  refine ⟨?info, ?health, ?domain, ?domainBusy, ?test, ?run, ?notRun, ?notTest, ?chain, ?roll, ?policy, ?resume, ?notIsolated,
    ?pool, ?retrain, ?chainHealth⟩
  case info => exact fun sl s ready => givesHw_answers rfl ready rfl
  case health => exact fun sl s ready => givesHw_answers rfl ready rfl
  case domain => exact fun sl s ready fits free => domainReset_begins ready fits free
  case domainBusy => exact fun sl s ready fits busy => domainReset_refused ready fits busy
  case test => exact fun sl s ready asks allowed => stateSet_test ready asks (if_pos allowed)
  case run => exact fun sl s ready asks allowed => stateSet_run ready asks (if_pos allowed)
  case notRun => exact fun sl s ready asks refused => stateSet_run ready asks (if_neg (Bool.eq_false_iff.mp refused))
  case notTest => exact fun sl s ready asks refused => stateSet_test ready asks (if_neg (Bool.eq_false_iff.mp refused))
  case chain => exact fun sl s ready => givesHw_answers rfl ready rfl
  case roll => exact fun sl s ready => givesHw_body (r := .running 64) rfl ready rfl rfl
  case policy => exact fun sl s ready fits => givesHw_acts rfl ready (decide_eq_true fits)
  case resume => exact fun sl s ready isolated => givesHw_acts rfl ready rfl (if_pos isolated)
  case notIsolated => exact fun sl s ready other => givesHw_acts rfl ready rfl (if_neg other)
  case pool => exact fun sl s ready fits => givesHw_acts rfl ready (decide_eq_true fits)
  case retrain => exact fun sl s ready fits => givesHw_acts rfl ready (decide_eq_true fits)
  case chainHealth => exact fun sl s ready => givesHw_answers rfl ready rfl
end

section
/-!
PROOF. Reception of a chain packet: what discards it, what delivers it here, and what its command does with either (R248 to
R250, R255, R260, R267).
-/

namespace Sys2Proof.Machine

/-! ## Packets that are discarded, and those that do not arrive (R248, R249, R267) -/

section
variable {h : Hw} {port : Nat} {c : CPkt} {ok : Bool}

theorem rxPacket_unlinked (down : h.clocked = false ∨ linkUp h port = false) : rxPacket h port c ok = (false, h) :=
  if_pos (down.imp Bool.eq_false_iff.mp Bool.eq_false_iff.mp)

section
variable (clocked : h.clocked = true) (up : linkUp h port = true)
include clocked up

theorem not_unlinked : ¬ (¬ h.clocked = true ∨ ¬ linkUp h port = true) := by simp [clocked, up]

theorem rxPacket_frozen (frz : h.mode = .frozen) : rxPacket h port c ok = rxFrozen h port c ok :=
  (if_neg (not_unlinked clocked up)).trans (if_pos frz)

theorem rxPacket_rejected (runs : h.mode ≠ .frozen)
    (bad : ok = false ∨ badPkt c.kind c.p = true ∨ (reliable c.kind = true ∧ c.p.seq ≠ (linkSt h port).rxSeq)) :
    rxPacket h port c ok = (false, sendNak (bump h (aLK_ERR port) fLK_ERR_CRCCNT 1) port) :=
  (if_neg (not_unlinked clocked up)).trans ((if_neg runs).trans (if_pos (bad.imp_left Bool.eq_false_iff.mp)))

end

/-- A FROZEN device takes a resume with the next number. -/
theorem rxFrozen_resume (kind : c.kind = 4) (resume : c.p.arg.getLsbD 1 = true) (next : c.p.seq = (linkSt h port).rxSeq) :
    rxFrozen h port c true =
      (true, sendOn (setLinkSt h port { linkSt h port with rxSeq := (linkSt h port).rxSeq + 1 }) port (packet h 0 0xFD 1)) :=
  if_pos ⟨kind, resume, rfl, next⟩

theorem rxFrozen_other (other : c.kind ≠ 4 ∨ c.p.arg.getLsbD 1 = false ∨ ok = false ∨ c.p.seq ≠ (linkSt h port).rxSeq) :
    rxFrozen h port c ok = (false, h) :=
  if_neg fun ⟨kind, resume, checked, next⟩ => by
    rw [resume, checked] at other
    simp [kind, next] at other

theorem rxPacket_frozen_other (frz : h.mode = .frozen)
    (other : c.kind ≠ 4 ∨ c.p.arg.getLsbD 1 = false ∨ ok = false ∨ c.p.seq ≠ (linkSt h port).rxSeq) :
    rxPacket h port c ok = (false, h) := by
  by_cases down : ¬ h.clocked = true ∨ ¬ linkUp h port = true
  · exact if_pos down
  · rw [not_or, Decidable.not_not, Decidable.not_not] at down
    rw [rxPacket_frozen down.1 down.2 frz, rxFrozen_other other]

end

/-- What makes a packet one with a reserved value (R248). -/
theorem badPkt_of_reserved {kind : Nat} {p : Pkt} (reserved : p.rsv = true ∨ kind = 0xF ∨ ((kind = 1 ∨ kind = 2) ∧ p.op = 0xF) ∨
    64 < p.words.length ∨ (0x40 ≤ p.tgt.toNat ∧ p.tgt.toNat ≤ 0xFC) ∨ 3 < p.rstat.toNat) : badPkt kind p = true := by
  simp only [badPkt, Bool.or_eq_true, Bool.and_eq_true, beq_iff_eq, decide_eq_true_eq]
  rcases reserved with h | h | h | h | h | h <;> simp only [h, true_or, or_true, and_self]

/-! ## Delivery (R255, R260) -/

section
variable {h : Hw} {kind : Nat} {p : Pkt}

theorem forHere_otherDevice (device : p.tgt.toNat < 0xFD) (other : p.tgt.toNat ≠ ownAddr h) : forHere h kind p = false := by
  simp [forHere, Nat.ne_of_lt device, show p.tgt.toNat ≠ 0xFE by omega, show p.tgt.toNat ≠ 0xFF by omega, other]

theorem forHere_ownToAll (all : p.tgt = 0xFF) (addr : addressed h = true) (own : p.sdev.toNat = ownAddr h) :
    forHere h kind p = false := by
  simp [forHere, all, addr, own]

theorem goesOn_ownToAll (all : p.tgt = 0xFF) (addr : addressed h = true) (own : p.sdev.toNat = ownAddr h) :
    goesOn h p = false := by
  simp [goesOn, all, addr, own]

theorem forHere_unaddressed (none : addressed h = false) (barred : kind = 1 ∨ kind = 3 ∨ kind = 4) : forHere h kind p = false := by
  rcases barred with rfl | rfl | rfl <;> simp [forHere, none]

end

/-! ## What a command does with a packet -/

/-- Every packet is received in the same way, and what it does is done where it is delivered. -/
theorem exists_act_packetOf (k : Fin 15) (port : Fin 2) (p : Pkt) (ok low : Bool) (t : Int × Int × Int × Int) (s : State) :
    ∃ act : Hw → Hw, exec (packetOf k port p ok low t) s =
      .next (onHw s fun h => onCarrier h port.val ⟨k, p, none, none, false⟩ ok act) := by
  match k with
  | 0 => exact ⟨fun h => takeIdle h port.val (p.arg.getLsbD 0), rfl⟩
  | 1 => exact ⟨fun h => takeReq h port.val p, rfl⟩
  | 2 => exact ⟨fun h => takeRspAny h port.val p, rfl⟩
  | 3 => exact ⟨fun h => takeEvent h p.arg.toNat, rfl⟩
  | 4 => exact ⟨fun h => takeFreeze h p low, rfl⟩
  | 5 => exact ⟨fun h => takeRoll h port.val (p.arg.toNat % 64), rfl⟩
  | 6 => exact ⟨fun h => takeRollEnd h p.arg.toNat, rfl⟩
  | 7 => exact ⟨fun h => takeHb h port.val (p.arg.toNat % 2 ^ 32), rfl⟩
  | 8 => exact ⟨fun h => takeHbAck h p.sdev.toNat p.arg.toNat, rfl⟩
  | 9 => exact ⟨fun h => delayPacket h port.val p t.1 t.2.1 t.2.2.1 t.2.2.2, rfl⟩
  | 10 => exact ⟨fun h => takeLink h p.arg.toNat, rfl⟩
  | 11 => exact ⟨fun h => h, rfl⟩
  | 12 => exact ⟨fun h => takeNak h port.val (p.arg.setWidth 8), rfl⟩
  | 13 => exact ⟨fun h => if isDev0 h then takeSummaries h p.words else h, rfl⟩
  | 14 => exact ⟨_, rfl⟩

section
variable {i : Instr} {s : State} {port : Nat} {c : CPkt} {ok : Bool} {act : Hw → Hw}
  (he : exec i s = .next (onHw s fun h => onCarrier h port c ok act))
include he

theorem givesHw_delivered (here : (rxPacket s.hw port c ok).1 = true) {h : Hw} (acts : act (rxPacket s.hw port c ok).2 = h) :
    GivesHw i s h := givesHw_onHw he ((if_pos here).trans acts)

theorem givesHw_undelivered {h : Hw} (away : rxPacket s.hw port c ok = (false, h)) : GivesHw i s h := by
  refine givesHw_onHw he ?_
  rw [onCarrier, away]
  rfl

end

theorem givesHw_packetOf_undelivered {k : Fin 15} {port : Fin 2} {p : Pkt} {ok : Bool} {s : State} {h : Hw}
    (away : rxPacket s.hw port.val ⟨k, p, none, none, false⟩ ok = (false, h)) (low : Bool) (t : Int × Int × Int × Int) :
    GivesHw (packetOf k port p ok low t) s h := by
  obtain ⟨act, he⟩ := exists_act_packetOf k port p ok low t s
  exact givesHw_undelivered he away

end Sys2Proof.Machine
end

section
/-!
PROOF. Requests between devices: what a delivered REQ, RSP or FW does, and what a timeout does (R261 to R264, R275, R279).
-/

namespace Sys2Proof.Machine

/-! ## Requests (R263, R275) -/

section
variable {h : Hw} {port : Fin 2} {p : Pkt}

theorem takeReq_refused (refused : h.mode = .isolated ∨ 0xC ≤ p.op.toNat) : takeReq h port p =
    sendRsp (poolTaken h p.sdev.toNat) p.sdev.toNat p.op.toNat p.cnt.toNat p.src p.rb.toNat 1
      (faultWords p.op.toNat p.cnt.toNat) none := if_pos refused

section
variable (open_ : h.mode ≠ .isolated) (known : p.op.toNat < 0xC)
include open_ known

theorem not_refused : ¬ (h.mode = .isolated ∨ 0xC ≤ p.op.toNat) := fun refused =>
  refused.elim open_ (Nat.not_le_of_lt known)

theorem takeReq_full (full : poolHere h p.sdev.toNat ≤ getD 0 h.chain.poolUsed p.sdev.toNat) : takeReq h port p =
    sendRsp (bump (poolTaken h p.sdev.toNat) aCH_CNT fCH_CNT_POOLOVF 1) p.sdev.toNat p.op.toNat p.cnt.toNat p.src p.rb.toNat 1
      (faultWords p.op.toNat p.cnt.toNat) none := (if_neg (not_refused open_ known)).trans (if_pos full)

theorem takeReq_queued (room : getD 0 h.chain.poolUsed p.sdev.toNat < poolHere h p.sdev.toNat) : takeReq h port p =
    queueRequest (poolTaken h p.sdev.toNat) (issuedFor p port) :=
  (if_neg (not_refused open_ known)).trans (if_neg (Nat.not_le_of_lt room))

end
end

/-! ## Responses (R263, R264) -/

section
variable {h : Hw} {port : Fin 2} {p : Pkt}

theorem takeRspAny_forwarded {i sl : Nat} {o : ChOut} (command : p.src.val = 38)
    (entry : forwardEntry h p.sdev.toNat (p.rb.toNat % 16) = some (i, o, sl)) :
    takeRspAny h port p = noteDevice (outRemoved h i) sl p.sdev.toNat stNoTarget false [] := by
  rw [takeRspAny, if_pos command, entry]
  rfl

theorem takeRspAny_request (request : p.src.val ≠ 38 ∨ forwardEntry h p.sdev.toNat (p.rb.toNat % 16) = none) :
    takeRspAny h port p = takeRsp h port p := by
  unfold takeRspAny
  split
  · rename_i command
    rw [request.resolve_left (not_not_intro command)]
  · rfl

theorem takeRsp_answers {i d op : Nat} {f : Flit} {sl : Option Nat}
    (entry : outFor h p.sdev.toNat p.src p.rb.toNat = some (i, ⟨d, op, some f, sl⟩)) : takeRsp h port p =
      respond (noteHole (outRemoved h i) d op f p.rstat.toNat) op (cameBy f port) p.rstat.toNat p.words := by
  rw [takeRsp, entry]
  rfl

theorem takeRsp_late (none_ : outFor h p.sdev.toNat p.src p.rb.toNat = none) :
    takeRsp h port p = bump h aCH_TMO fCH_TMO_LATECNT 1 := by
  rw [takeRsp, none_]

end

/-! ## Firmware over the chain (R279) -/

section
variable {port : Fin 2} {p : Pkt} {c : Option FwCheck} {s : State} {t : Hw} (here : (received s port 0xE p).1 = true)
  (stored : takeFw (received s port 0xE p).2 port (p.arg.toNat % 2 ^ 32) p.words = t)
include here stored

theorem fw_part (part : port ≠ 0 ∨ fwWhole t (p.arg.toNat % 2 ^ 32) p.words = false) : GivesHw (.fw port p true c) s t := by
  subst stored
  have more : ¬ (port.val = 0 ∧ fwWhole (takeFw (received s port 0xE p).2 port (p.arg.toNat % 2 ^ 32) p.words)
      (p.arg.toNat % 2 ^ 32) p.words = true) := fun ⟨first, whole⟩ =>
    part.elim (fun other => other (Fin.ext first)) fun missing => Bool.eq_false_iff.mp missing whole
  refine givesHw_delivered rfl here ?_
  exact if_neg more

theorem fw_whole (first : port = 0) (whole : fwWhole t (p.arg.toNat % 2 ^ 32) p.words = true) : GivesHw (.fw port p true c) s
    (fwReceived t (c.getD (checkFirmware s.nv s.mem t (fwImage t) (fwLength t)))) := by
  subst stored
  refine givesHw_delivered rfl here ?_
  exact if_pos ⟨congrArg Fin.val first, whole⟩

end

/-! ## Timeouts (R264) -/

section
variable {h : Hw} {i : Nat}

theorem chainTimeoutAny_request {d op : Nat} {f : Flit} {sl : Option Nat}
    (entry : lookup h.chain.out i = some ⟨d, op, some f, sl⟩) : chainTimeoutAny h i =
      postFinding (refuseReq (bump (outRemoved h i) aCH_TMO fCH_TMO_TMOCNT 1) op f 1) 0x0004 0x106 f.src f.addr.toNat d := by
  simp only [chainTimeoutAny, chainTimeout, entry]
  rfl

theorem chainTimeoutAny_command {d sl : Nat} (entry : lookup h.chain.out i = some ⟨d, 0, none, some sl⟩) :
    chainTimeoutAny h i = noteDevice (bump (outRemoved h i) aCH_TMO fCH_TMO_TMOCNT 1) sl d stNoTarget false [] := by
  simp only [chainTimeoutAny, entry]
  rfl

theorem chainTimeoutAny_free (entry : lookup h.chain.out i = none) : chainTimeoutAny h i = h := by
  simp only [chainTimeoutAny, chainTimeout, entry]

end

end Sys2Proof.Machine

open Sys2Proof Sys2Proof.Machine

/-- Settles O34: each packet is received in the one way that all are, and where it is delivered it does what its kind does. -/
theorem chainReceptionAndRequestsFollowTheRules : Obligations.ChainReceptionAndRequestsFollowTheRules := by
  refine ⟨?rejected, ?reserved, ?unlinked, ?frozen, ?away, ?other, ?ownToAll, ?unaddressed, ?req, ?refused, ?full, ?queued,
    ?command, ?commandAway, ?answers, ?late, ?forwarded, ?answer, ?answerAway, ?part, ?whole, ?checked, ?timeout, ?noTarget,
    ?free⟩
  case rejected =>
    exact fun k port p ok low t s clocked up runs bad =>
      givesHw_packetOf_undelivered (rxPacket_rejected clocked up runs bad) low t
  case reserved => exact fun p k reserved => badPkt_of_reserved reserved
  case unlinked =>
    exact fun k port p ok low t s down => givesHw_packetOf_undelivered (rxPacket_unlinked down) low t
  case frozen =>
    exact fun k port p ok low t s frz other => givesHw_packetOf_undelivered
      (rxPacket_frozen_other frz (other.imp_left fun kind same => kind (Fin.ext same))) low t
  case away =>
    exact fun k port p low t s away => givesHw_packetOf_undelivered (Prod.ext away rfl) low t
  case other => exact fun p k h device other => forHere_otherDevice device other
  case ownToAll => exact fun p k h all addr own => ⟨forHere_ownToAll all addr own, goesOn_ownToAll all addr own⟩
  case unaddressed => exact fun p k h none_ barred => forHere_unaddressed none_ barred
  case req => exact fun port p s here => givesHw_delivered rfl here rfl
  case refused => exact fun port p s refused => takeReq_refused refused
  case full => exact fun port p s open_ known full => takeReq_full open_ known full
  case queued => exact fun port p s open_ known room => takeReq_queued open_ known room
  case command => exact fun port p c s here => givesHw_delivered rfl here rfl
  case commandAway => exact fun port p c s away => givesHw_undelivered rfl (Prod.ext away rfl)
  case answers =>
    exact fun port p i d op f sl s here request entry =>
      givesHw_delivered rfl here ((takeRspAny_request request).trans (takeRsp_answers entry))
  case late =>
    exact fun port p s here request none_ =>
      givesHw_delivered rfl here ((takeRspAny_request request).trans (takeRsp_late none_))
  case forwarded =>
    exact fun port p i o sl s here command entry => givesHw_delivered rfl here (takeRspAny_forwarded command entry)
  case answer => exact fun port p a s here => givesHw_delivered rfl here rfl
  case answerAway => exact fun port p a s away => givesHw_undelivered rfl (Prod.ext away rfl)
  case part => exact fun port p c s here part => fw_part here rfl part
  case whole => exact fun port p c s here first whole => fw_whole (c := some c) here rfl first whole
  case checked => exact fun port p s here first whole => fw_whole (c := none) here rfl first whole
  case timeout =>
    exact fun i d op f sl s live entry =>
      givesHw_onHw rfl ((if_neg (Bool.eq_false_iff.mp live)).trans (chainTimeoutAny_request entry))
  case noTarget =>
    exact fun i d sl s live entry =>
      givesHw_onHw rfl ((if_neg (Bool.eq_false_iff.mp live)).trans (chainTimeoutAny_command entry))
  case free => exact fun i s entry => givesHw_onHw rfl ((congrArg (ite _ _) (chainTimeoutAny_free entry)).trans (ite_self _))
end

section
/-!
PROOF. What the operations of the lead chain leave as it was: a packet sent touches nothing but links, an alarm that is not
FATAL nothing but the log and its summary, and the other operations a field that they do not write (R252, R257, R259, R276,
R439).
-/

namespace Sys2Proof.Machine

/-! ## Packets sent (R249, R253) -/

/-- Nothing but the links of the chain differs. -/
def OnlyLinks (h t : Hw) : Prop := ∃ x, t = { h with chain.links := x }

theorem OnlyLinks.trans {a b c : Hw} (h1 : OnlyLinks a b) (h2 : OnlyLinks b c) : OnlyLinks a c := by
  obtain ⟨x, rfl⟩ := h1
  obtain ⟨y, rfl⟩ := h2
  exact ⟨y, rfl⟩

theorem sendOn_only (h : Hw) (port : Nat) (c : CPkt) : OnlyLinks h (sendOn h port c) := by
  unfold sendOn
  dsimp only
  split
  · exact ⟨_, rfl⟩
  · split <;> exact ⟨_, rfl⟩

theorem sendPkt_only (h : Hw) (c : CPkt) : OnlyLinks h (sendPkt h c) := by
  unfold sendPkt
  dsimp only
  split
  · split
    · exact sendOn_only h 1 c
    · exact (sendOn_only h 0 c).trans (sendOn_only _ 1 c)
  · split
    · exact sendOn_only h _ c
    · exact ⟨_, rfl⟩

/-! ## Summaries (R442) -/

/-- Nothing but the summaries that wait differs. -/
def OnlySummaries (h t : Hw) : Prop := ∃ x, t = { h with obs.summaries := x }

theorem queueSummaries_only (h : Hw) : OnlySummaries h (queueSummaries h) := by
  unfold queueSummaries
  split
  · exact ⟨_, rfl⟩
  · suffices queued : ∀ es : List (Nat × AlarmEntry), ∀ t, OnlySummaries h t → OnlySummaries h (applyAll (fun h e =>
        if e.2.count = 0 then h else { h with obs.summaries := insertAt h.obs.summaries e.1 ⟨false⟩ }) t es) from
      queued _ h ⟨_, rfl⟩
    intro es
    induction es with
    | nil => exact fun t same => same
    | cons e es ih =>
      rintro t ⟨x, rfl⟩
      rw [applyAll_cons]
      split
      · exact ih _ ⟨_, rfl⟩
      · exact ih _ ⟨_, rfl⟩

/-! ## The log and alarms (R436 to R439) -/

/-- Nothing but what alarms, the log and vectors keep, and alarms that wait for firmware, differs; and of the registers only
those of the log and of the alarm summary. -/
def LogsOnly (h t : Hw) : Prop :=
  (∃ r j o z, t = { h with regs := r, justSet := j, obs := o, frz := z }) ∧ ∀ a, a ≠ aAL_STAT → a ≠ aHI_ALSUM → reg t a = reg h a

theorem logsOnly_of_regs {h t : Hw} (parts : ∃ r j o z, t = { h with regs := r, justSet := j, obs := o, frz := z })
    (regs : t.regs = h.regs) : LogsOnly h t := ⟨parts, fun a _ _ => by rw [reg, regs, reg]⟩

theorem LogsOnly.same (h : Hw) : LogsOnly h h := logsOnly_of_regs ⟨_, _, _, _, rfl⟩ rfl

theorem LogsOnly.trans {a b c : Hw} (h1 : LogsOnly a b) (h2 : LogsOnly b c) : LogsOnly a c := by
  obtain ⟨⟨r, j, o, z, rfl⟩, s1⟩ := h1
  obtain ⟨⟨r', j', o', z', rfl⟩, s2⟩ := h2
  exact ⟨⟨_, _, _, _, rfl⟩, fun k log sum => (s2 k log sum).trans (s1 k log sum)⟩

theorem LogsOnly.mode {h t : Hw} (logs : LogsOnly h t) : t.mode = h.mode := by
  obtain ⟨⟨r, j, o, z, rfl⟩, -⟩ := logs
  rfl

theorem setF_alStat_logs (h : Hw) (f : Fld) (x : Nat) : LogsOnly h (setF h aAL_STAT f x) :=
  ⟨⟨_, _, _, _, rfl⟩, fun _ log _ => reg_setF_ne h f x log⟩

theorem setF_alsum_logs (h : Hw) (f : Fld) (x : Nat) : LogsOnly h (setF h aHI_ALSUM f x) :=
  ⟨⟨_, _, _, _, rfl⟩, fun _ _ sum => reg_setF_ne h f x sum⟩

theorem sendVector_logs (h : Hw) (v : Nat) : LogsOnly h (sendVector h v) := by
  unfold sendVector
  dsimp only
  split <;> exact logsOnly_of_regs ⟨_, _, _, _, rfl⟩ rfl

theorem appendLog_logs (h : Hw) (r : LogRec) : LogsOnly h (appendLog h r) :=
  (logsOnly_of_regs ⟨_, _, _, _, rfl⟩ rfl).trans (setF_alStat_logs _ _ _)

theorem writeLog_logs (h : Hw) (r : LogRec) : LogsOnly h (writeLog h r) := by
  unfold writeLog
  dsimp only
  split
  · exact appendLog_logs h r
  · have cleared : LogsOnly h { h with obs.qLost := 0 } := logsOnly_of_regs ⟨_, _, _, _, rfl⟩ rfl
    exact (cleared.trans (appendLog_logs _ _)).trans (appendLog_logs _ r)

/-- A change of the device's state: but for the state itself it is logged, and a vector goes. -/
theorem setMode_logs (h : Hw) (m : DevState) : LogsOnly { h with mode := m } (setMode h m) := by
  unfold setMode
  split
  · rename_i same
    subst same
    exact LogsOnly.same h
  · exact (writeLog_logs _ _).trans (sendVector_logs _ _)

section
variable {code cls : Nat} (known : alarmClass code = some cls) (mild : cls ≠ 0)
include known mild

theorem occur_logs (h : Hw) (k tick router : Nat) (first : LogRec) : LogsOnly h (occur h code k tick router first) := by
  unfold occur
  split
  · exact LogsOnly.same h
  rename_i found
  rw [Option.some.inj (found.symm.trans known)]
  extract_lets a a1 h1 h2 h3 h4 waiting sum src h5
  have counted : LogsOnly h h3 :=
    ((logsOnly_of_regs ⟨_, _, _, _, rfl⟩ rfl).trans (setF_alsum_logs h1 _ _)).trans (setF_alsum_logs h2 _ _)
  have sent : LogsOnly h3 h4 := by
    unfold h4
    split
    · exact sendVector_logs h3 _
    · exact LogsOnly.same h3
  have summed : LogsOnly h4 h5 := by
    unfold h5
    split
    · exact LogsOnly.same h4
    · exact logsOnly_of_regs ⟨_, _, _, _, rfl⟩ rfl
  rw [if_neg mild]
  exact (counted.trans sent).trans summed

theorem raiseAlarm_logs (h : Hw) (router addr detail : Nat) : LogsOnly h (raiseAlarm h code router addr detail) := by
  unfold raiseAlarm
  rw [known]
  dsimp only
  split
  · rw [if_neg fun fatal => mild fatal.1]
    exact logsOnly_of_regs ⟨_, _, _, _, rfl⟩ rfl
  · exact (writeLog_logs h _).trans (occur_logs known mild _ _ _ _ _)

end

/-! ## A field that an operation does not write -/

/-- A field of a register reads as before. -/
def KeepsField (a : Nat) (f : Fld) (h t : Hw) : Prop := getF t a f = getF h a f

/-- A write of field g of register b does not meet field f of register a. -/
abbrev Apart (a : Nat) (f : Fld) (b : Nat) (g : Fld) : Prop := a ≠ b ∨ Beside g f

section
variable {a : Nat} {f : Fld}

theorem KeepsField.trans {h t u : Hw} (h1 : KeepsField a f h t) (h2 : KeepsField a f t u) : KeepsField a f h u :=
  Eq.trans h2 h1

theorem KeepsField.isSet {h t : Hw} (keeps : KeepsField a f h t) : isSet t a f = isSet h a f := by
  rw [Machine.isSet, keeps, Machine.isSet]

theorem keepsField_of_regs {h t : Hw} (regs : t.regs = h.regs) : KeepsField a f h t :=
  getF_of_reg (by rw [reg, regs, reg]) f

theorem OnlyLinks.keepsField {h t : Hw} (sent : OnlyLinks h t) : KeepsField a f h t := by
  obtain ⟨x, rfl⟩ := sent
  exact keepsField_of_regs rfl

theorem OnlySummaries.keepsField {h t : Hw} (queued : OnlySummaries h t) : KeepsField a f h t := by
  obtain ⟨x, rfl⟩ := queued
  exact keepsField_of_regs rfl

theorem LogsOnly.keepsField {h t : Hw} (logs : LogsOnly h t) (log : a ≠ aAL_STAT) (sum : a ≠ aHI_ALSUM) : KeepsField a f h t :=
  getF_of_reg (logs.2 a log sum) f

theorem reports_keepsField (h : Hw) (x : Sparse Bool) : KeepsField a f h { h with chain.reports := x } := keepsField_of_regs rfl

theorem setReg_keepsField {b : Nat} (other : a ≠ b) (h : Hw) (v : BitVec 64) : KeepsField a f h (setReg h b v) :=
  getF_of_reg (reg_setReg_ne h v other) f

theorem applyAll_keepsField {α : Type} {g : Hw → α → Hw} {xs : List α} (each : ∀ h, ∀ x ∈ xs, KeepsField a f h (g h x)) (h : Hw) :
    KeepsField a f h (applyAll g h xs) := by
  induction xs generalizing h with
  | nil => exact rfl
  | cons x xs ih =>
    exact (each h x List.mem_cons_self).trans (ih (fun h y mem => each h y (List.mem_cons_of_mem x mem)) _)

variable (fits : f.lo + f.w ≤ 64)
include fits

theorem setF_keepsField {b : Nat} {g : Fld} (apart : Apart a f b g) (h : Hw) (x : Nat) : KeepsField a f h (setF h b g x) := by
  rcases apart with other | beside
  · exact getF_setF_ne h g f x other
  · exact getF_setF_beside h b a fits beside x

theorem raiseBit_keepsField {b : Nat} {g : Fld} (apart : Apart a f b g) (h : Hw) : KeepsField a f h (raiseBit h b g) :=
  (setF_keepsField fits apart h 1).trans (keepsField_of_regs rfl)

end

/-- A bit raised is set. -/
theorem isSet_raiseBit (h : Hw) (a : Nat) {f : Fld} (hf : f.w = 1) (hl : f.lo < 64) : isSet (raiseBit h a f) a f = true :=
  isSet_setF_one h a hf hl

/-! ## Routes (R252, R257, R259) -/

/-- A field that working out routes does not write. -/
abbrev OffRoutes (a : Nat) (f : Fld) : Prop :=
  f.lo + f.w ≤ 64 ∧ (a ≠ aCH_DIR ∧ a ≠ aCH_REACH ∧ a ≠ aAL_STAT ∧ a ≠ aHI_ALSUM) ∧ Apart a f aCH_ID fCH_ID_CLOSED ∧
    Apart a f aCH_TA fCH_TA_UPPORT ∧ Apart a f aCH_PART fCH_PART_BEHINDFRZ

section
variable {a : Nat} {f : Fld} (off : OffRoutes a f)
include off

theorem reroute_keepsField (h : Hw) : KeepsField a f h (reroute h) := by
  obtain ⟨fits, ⟨dir, reach, log, sum⟩, closed, port, behind⟩ := off
  unfold reroute
  split
  · exact rfl
  · extract_lets n me ring down up downAll upAll isClosed reached viaUp dirs lost upPort frzUp frzDn isBehind h1 h2 h3
    have routed : KeepsField a f h h3 :=
      ((((setReg_keepsField dir h _).trans (setReg_keepsField reach _ _)).trans (setF_keepsField fits closed h1 _)).trans
        (setF_keepsField fits port h2 _)).trans (setF_keepsField fits behind _ _)
    split
    · exact routed.trans ((raiseAlarm_logs rfl (by decide) h3 _ _ _).keepsField log sum)
    · exact routed

theorem sendLink_keepsField (h : Hw) (port : Nat) (up : Bool) : KeepsField a f h (sendLink h port up) := by
  unfold sendLink
  split
  · exact rfl
  · exact ((reports_keepsField h _).trans (reroute_keepsField off _)).trans (sendOn_only _ _ _).keepsField

theorem announceLinks_keepsField (h : Hw) : KeepsField a f h (announceLinks h) := by
  unfold announceLinks
  extract_lets ups h1
  have reported : KeepsField a f h h1 :=
    (applyAll_keepsField (fun t _ _ => reports_keepsField t _) h).trans (reroute_keepsField off _)
  exact reported.trans (applyAll_keepsField (fun _ _ _ => (sendPkt_only _ _).keepsField) h1)

end

/-! ## The mute (R276) -/

/-- A field that muting does not write. -/
abbrev OffMute (a : Nat) (f : Fld) : Prop :=
  f.lo + f.w ≤ 64 ∧ Apart a f aCH_PART fCH_PART_MUTED ∧ (∀ j, a ≠ aJL_STAT j) ∧ ∀ k, a ≠ aETH_PSTAT k

theorem setMuted_keepsField {a : Nat} {f : Fld} (off : OffMute a f) (h : Hw) (on : Bool) : KeepsField a f h (setMuted h on) := by
  obtain ⟨fits, part, jesd, eth⟩ := off
  exact ((setF_keepsField fits part h _).trans (applyAll_keepsField (fun h j _ => setF_keepsField fits (.inl (jesd j)) h _) _)).trans
    (applyAll_keepsField (fun h k _ => setF_keepsField fits (.inl (eth k)) h _) _)

theorem setMuted_only (h : Hw) (on : Bool) : OnlyRegs h (setMuted h on) :=
  ((setF_only h _ _ _).trans (applyAll_only (fun h j => setF_only h (aJL_STAT j) _ _) _ _)).trans
    (applyAll_only (fun h k => setF_only h (aETH_PSTAT k) _ _) _ _)

end Sys2Proof.Machine
end

section
/-!
PROOF. The stop of every function leaves the partition register and the device's state as they are (R276, R363).
-/

namespace Sys2Proof.Machine

/-! ## The parts of a stop (R151, R291, R363) -/

/-- The partition register and the device's state are as before. -/
def LeavesPart (h t : Hw) : Prop := t.mode = h.mode ∧ reg t aCH_PART = reg h aCH_PART

theorem LeavesPart.same (h : Hw) : LeavesPart h h := ⟨rfl, rfl⟩

theorem LeavesPart.trans {a b c : Hw} (h1 : LeavesPart a b) (h2 : LeavesPart b c) : LeavesPart a c :=
  ⟨h2.1.trans h1.1, h2.2.trans h1.2⟩

theorem leavesPart_of_parts {h t : Hw} (mode : t.mode = h.mode) (regs : t.regs = h.regs) : LeavesPart h t :=
  ⟨mode, by rw [reg, regs, reg]⟩

theorem setReg_leavesPart {a : Nat} (other : aCH_PART ≠ a) (h : Hw) (v : BitVec 64) : LeavesPart h (setReg h a v) :=
  ⟨rfl, reg_setReg_ne h v other⟩

theorem setF_leavesPart {a : Nat} (other : aCH_PART ≠ a) (h : Hw) (f : Fld) (x : Nat) : LeavesPart h (setF h a f x) :=
  ⟨rfl, reg_setF_ne h f x other⟩

theorem applyAll_leavesPart {α : Type} {f : Hw → α → Hw} {xs : List α} (each : ∀ h, ∀ x ∈ xs, LeavesPart h (f h x)) (h : Hw) :
    LeavesPart h (applyAll f h xs) := by
  induction xs generalizing h with
  | nil => exact LeavesPart.same h
  | cons x xs ih =>
    exact (each h x List.mem_cons_self).trans (ih (fun h y mem => each h y (List.mem_cons_of_mem x mem)) _)

theorem evHit_leavesPart (h : Hw) (xs : List Nat) : LeavesPart h { h with obs.evHit := xs } := leavesPart_of_parts rfl rfl
theorem setFn_leavesPart (h : Hw) (id : Nat) (x : Fn) : LeavesPart h (setFn h id x) := leavesPart_of_parts rfl rfl
theorem setJdir_leavesPart (h : Hw) (d : Nat) (x : JDir) : LeavesPart h (setJdir h d x) := leavesPart_of_parts rfl rfl
theorem setSched_leavesPart (h : Hw) (y : Nat) (x : Sched) : LeavesPart h (setSched h y x) := leavesPart_of_parts rfl rfl
theorem setTask_leavesPart (h : Hw) (y t : Nat) (x : Task) : LeavesPart h (setTask h y t x) := leavesPart_of_parts rfl rfl
theorem orderPen_leavesPart (h : Hw) (n : Nat) (o : SwitchOrder) : LeavesPart h (orderPen h n o) := leavesPart_of_parts rfl rfl

theorem part_ne_jesdStat (j : Nat) : aCH_PART ≠ aJL_STAT j := by
  unfold aCH_PART aJL_STAT
  omega

theorem part_ne_ethStat (k : Nat) : aCH_PART ≠ aETH_PSTAT k := by
  unfold aCH_PART aETH_PSTAT
  omega

theorem part_ne_schedDrops (y : Nat) : aCH_PART ≠ aSCH_TRDROP y := by
  unfold aCH_PART aSCH_TRDROP yardBase regionBase
  omega

theorem part_ne_schedPens (y : Nat) : aCH_PART ≠ aSCH_PENSTAT y := by
  unfold aCH_PART aSCH_PENSTAT yardBase regionBase
  omega

theorem part_ne_eventsSeen {e : Nat} (event : e < 256) (y : Nat) : aCH_PART ≠ aSCH_EVSEEN y (e / 64) := by
  unfold aCH_PART aSCH_EVSEEN yardBase regionBase
  omega

theorem raiseEvent_leavesPart {e : Nat} (event : e < 256) (h : Hw) (y : Nat) : LeavesPart h (raiseEvent h y e) := by
  unfold raiseEvent raiseEventAt
  split
  · exact LeavesPart.same h
  · extract_lets a hits src h1 s
    have noted : LeavesPart h h1 := (evHit_leavesPart h _).trans (setReg_leavesPart (part_ne_eventsSeen event y) _ _)
    split
    · exact noted.trans (setSched_leavesPart h1 y _)
    · exact noted

theorem raiseEventAll_leavesPart {e : Nat} (event : e < 256) (h : Hw) : LeavesPart h (raiseEventAll h e) :=
  applyAll_leavesPart (fun h y _ => raiseEvent_leavesPart event h y) h

theorem jStop_leavesPart {d : Nat} (dir : d < 8) (h : Hw) : LeavesPart h (jStop h d) := by
  unfold jStop
  extract_lets h1
  have unlocked : LeavesPart h h1 := by
    unfold h1
    split
    · exact setF_leavesPart (part_ne_jesdStat _) h _ _
    · exact LeavesPart.same h
  have down : LeavesPart h1 (jSetUp h1 d false) := by
    unfold jSetUp
    split
    · exact LeavesPart.same h1
    · exact (setF_leavesPart (part_ne_jesdStat _) h1 _ _).trans (raiseEventAll_leavesPart (by omega) _)
  exact (unlocked.trans down).trans (setJdir_leavesPart _ _ _)

theorem stageRecord_leavesPart (h : Hw) (y : Nat) (r : BitVec 64) : LeavesPart h (stageRecord h y r) := by
  unfold stageRecord
  split
  · exact LeavesPart.same h
  · extract_lets s recs
    split
    · exact setSched_leavesPart h y _
    · exact (setSched_leavesPart h y _).trans (setF_leavesPart (part_ne_schedDrops y) _ _ _)

theorem haltPens_leavesPart (h : Hw) (y mask e v t : Nat) : LeavesPart h (haltPens h y mask e v t) :=
  applyAll_leavesPart (fun h _ _ => (setF_leavesPart (part_ne_schedPens y) h _ _).trans (orderPen_leavesPart _ _ _)) h

theorem retireNow_leavesPart (h : Hw) (y t : Nat) : LeavesPart h (retireNow h y t) := by
  have recorded : LeavesPart h (haltPens (record (setTask h y t Task.reset) y 3 t (taskMask h y t) 0xFF) y (taskMask h y t)
      h.aclk h.aclk t) :=
    ((setTask_leavesPart h y t _).trans (stageRecord_leavesPart (setTask h y t Task.reset) y _)).trans
      (haltPens_leavesPart _ _ _ _ _ _)
  unfold retireNow
  dsimp only
  split
  · exact setTask_leavesPart h y t _
  · exact setTask_leavesPart h y t _
  · exact recorded
  · exact recorded

/-! ## Every function (Table 14.9) -/

theorem part_not_enable : ∀ id ∈ allFns, ∀ e ∈ fnEnables id, aCH_PART ≠ e.1 := by decide +kernel

theorem jesdFn_link : ∀ id ∈ allFns, id / 256 = 1 → id % 256 < 4 := by decide +kernel

theorem yardFn_scheduler : ∀ id ∈ allFns, id / 256 = 3 → fnId 4 (id % 256) ∈ allFns := by decide +kernel

section
variable {id : Nat} (fn : id ∈ allFns)
include fn

theorem stopOne_leavesPart (h : Hw) (cause : Nat) : LeavesPart h (stopOne h id cause) := by
  unfold stopOne
  extract_lets saved
  have cleared : LeavesPart h (clearEnables h (fnEnables id)) :=
    applyAll_leavesPart (fun h e mem => setF_leavesPart (part_not_enable id fn e mem) h _ _) h
  have after (t : Hw) : LeavesPart t (afterStop t id) := by
    unfold afterStop
    split
    · have link := jesdFn_link id fn ‹_›
      exact (jStop_leavesPart (by omega) t).trans (jStop_leavesPart (by omega) _)
    · split
      · exact leavesPart_of_parts rfl rfl
      · exact LeavesPart.same t
  exact (cleared.trans (after _)).trans (setFn_leavesPart _ _ _)

theorem stopFn_leavesPart (h : Hw) (cause : Nat) : LeavesPart h (stopFn h id cause) := by
  unfold stopFn
  split
  · exact LeavesPart.same h
  · extract_lets h1 y sid src h2 h3
    have stopped : LeavesPart h h1 := stopOne_leavesPart fn h cause
    split
    · have scheduler : LeavesPart h1 h2 := by
        unfold h2
        split
        · exact (stopOne_leavesPart (yardFn_scheduler id fn ‹_›) h1 cause).trans (setFn_leavesPart _ _ _)
        · exact LeavesPart.same h1
      have retired : LeavesPart h2 h3 := by
        refine applyAll_leavesPart (fun h t _ => ?_) h2
        split
        · exact retireNow_leavesPart h y t
        · exact LeavesPart.same h
      refine ((stopped.trans scheduler).trans retired).trans (applyAll_leavesPart (fun h p _ => ?_) h3)
      split
      · exact LeavesPart.same h
      · exact orderPen_leavesPart h _ _
    · exact stopped

end

/-! ## The partition policy (R269, R276) -/

/-- A partition policy leaves the device isolated: the bit that says so, and the state. -/
theorem applyPolicy_isolation (h : Hw) : (applyPolicy h).mode = h.mode ∧ KeepsField aCH_PART fCH_PART_ISOL h (applyPolicy h) := by
  unfold applyPolicy
  split
  · obtain ⟨r, j, muted⟩ := setMuted_only h true
    exact ⟨by rw [muted], setMuted_keepsField ⟨by decide, by decide, part_ne_jesdStat, part_ne_ethStat⟩ h true⟩
  · have stopped : LeavesPart h (applyAll (fun h id => if id / 256 = 5 then h else stopFn h id 2) h allFns) := by
      refine applyAll_leavesPart (fun h id fn => ?_) h
      split
      · exact LeavesPart.same h
      · exact stopFn_leavesPart fn h 2
    exact ⟨stopped.1, getF_of_reg stopped.2 _⟩
  · exact ⟨rfl, rfl⟩

/-- A device of RUN that is isolated enters ISOLATED, with `ISOL` set. -/
theorem isolate_fromRun {h : Hw} (runs : h.mode = .run) :
    (isolate h).mode = .isolated ∧ isSet (isolate h) aCH_PART fCH_PART_ISOL = true := by
  unfold isolate
  extract_lets h1 h2
  have raised : isSet h1 aCH_PART fCH_PART_ISOL = true := isSet_raiseBit h aCH_PART rfl (by decide)
  have logged : LogsOnly h1 h2 := raiseAlarm_logs rfl (by decide) h1 _ _ _
  have entered := setMode_logs h2 .isolated
  obtain ⟨mode, policy⟩ := applyPolicy_isolation (setMode h2 .isolated)
  have queued := queueSummaries_only (applyPolicy (setMode h2 .isolated))
  have kept : KeepsField aCH_PART fCH_PART_ISOL h1 (queueSummaries (applyPolicy (setMode h2 .isolated))) :=
    (((logged.keepsField (by decide) (by decide)).trans (entered.keepsField (h := { h2 with mode := .isolated })
      (by decide) (by decide))).trans policy).trans queued.keepsField
  have still : h2.mode = .run := logged.mode.trans ((raiseBit_mode h _ _).trans runs)
  rw [if_pos still]
  refine ⟨?_, kept.isSet.trans raised⟩
  obtain ⟨x, queued⟩ := queued
  rw [queued]
  exact mode.trans entered.mode

end Sys2Proof.Machine
end

section
/-!
PROOF. Timers, links and summaries of the lead chain: what each does where its condition holds, and that it does nothing
elsewhere (R252, R256, R259, R266, R268 to R270, R276, R280, R281, R442).
-/

namespace Sys2Proof.Machine

/-! ## Links (R252, R281) -/

section
variable {h : Hw} {port : Nat}

theorem linkDown_down (down : linkUp h port = false) : linkDown h port = h := if_pos (Bool.eq_false_iff.mp down)

theorem linkDown_up (up : linkUp h port = true) : linkDown h port = raiseAlarm (applyAll (fun t c =>
      if moves (isSet h aCH_ID fCH_ID_CLOSED) t port c = true then sendOn t (1 - port) c else t) (sendLink (bump
        (setLinkSt (bump (raiseBit (setF (setF h (aLK_STAT port) fLK_STAT_UP 0) (aLK_STAT port) fLK_STAT_LOCK 0)
          (aLK_STAT port) fLK_STAT_DOWNEV) (aLK_STAT port) fLK_STAT_DOWNCNT 1) port LinkSt.reset) (aLK_ERR port)
        fLK_ERR_LOSTCNT (linkSt h port).replay.length) port false) (linkSt h port).txq) 0x100 (if port = 0 then 24 else 31) 0
      port := if_neg (not_not_intro up)

theorem linkUpNow_idle (idle : linkUp h port = true ∨ isSet h (aLK_CTL port) fLK_CTL_EN = false) : linkUpNow h port = h :=
  if_pos (idle.imp_right fun off => .inl (Bool.eq_false_iff.mp off))

theorem offRoutes_linkUp (port : Nat) : OffRoutes (aLK_STAT port) fLK_STAT_UP := by
  unfold OffRoutes Apart aLK_STAT aCH_DIR aCH_REACH aAL_STAT aHI_ALSUM aCH_ID aCH_TA aCH_PART bar0Base
  exact ⟨by decide, by omega, by omega, by omega, by omega⟩

/-- A link that has trained is up. -/
theorem linkUpNow_up (down : linkUp h port = false) (enabled : isSet h (aLK_CTL port) fLK_CTL_EN = true)
    (clocked : h.clocked = true) : linkUp (linkUpNow h port) port = true := by
  unfold linkUpNow
  rw [if_neg (by simp [down, enabled, clocked])]
  extract_lets h1
  have raised : isSet (raiseBit h (aLK_STAT port) fLK_STAT_UP) (aLK_STAT port) fLK_STAT_UP = true :=
    isSet_raiseBit h _ rfl (by decide)
  have locked : KeepsField (aLK_STAT port) fLK_STAT_UP (raiseBit h (aLK_STAT port) fLK_STAT_UP) h1 :=
    setF_keepsField (by decide) (.inr (by decide)) _ _
  have unfrozen : KeepsField (aLK_STAT port) fLK_STAT_UP h1 (setF h1 (aLK_STAT port) fLK_STAT_NBFRZ 0) :=
    setF_keepsField (by decide) (.inr (by decide)) _ _
  have reset : KeepsField (aLK_STAT port) fLK_STAT_UP (setF h1 (aLK_STAT port) fLK_STAT_NBFRZ 0)
      (setLinkSt (setF h1 (aLK_STAT port) fLK_STAT_NBFRZ 0) port LinkSt.reset) := keepsField_of_regs rfl
  exact (((locked.trans unfrozen).trans reset).trans (sendLink_keepsField (offRoutes_linkUp port) _ port true)).isSet.trans raised

end

/-! ## Registers of the chain (R266, R281) -/

theorem writeReg_retrain (m : Sparse Byte) (h : Hw) {port : Nat} (lead : port < 2) (v : BitVec 64) :
    writeReg m h (aLK_CTL port) v = (m, writeLk h port 0 (aLK_CTL port) v.toNat) := by
  obtain rfl | rfl : port = 0 ∨ port = 1 := by omega
  · exact writeReg_located (b := .lk) (i := 0) (o := 0) v rfl rfl (by decide) rfl rfl rfl rfl
  · exact writeReg_located (b := .lk) (i := 1) (o := 0) v rfl rfl (by decide) rfl rfl rfl rfl

theorem writeReg_evsend (m : Sparse Byte) (h : Hw) (v : BitVec 64) :
    writeReg m h aCH_EVSEND v = (m, writeCh h 0x8038 aCH_EVSEND v.toNat) :=
  writeReg_located (b := .ch) (i := 0) (o := 0x8038) v rfl rfl (by decide) rfl rfl rfl rfl

theorem writeLk_retrain {h : Hw} {port a v : Nat} (retrain : fieldOf fLK_CTL_RETRAIN v = 1) :
    writeLk h port 0 a v = linkDown (writePlain h .lk port 0 a v) port := (if_pos rfl).trans (if_pos (.inr retrain))

theorem writeCh_event {h : Hw} {a v : Nat} (go : fieldOf fCH_EVSEND_GO v = 1) : writeCh h 0x8038 a v =
    sendEvent (writePlain h .ch 0 0x8038 a v) (getF (writePlain h .ch 0 0x8038 a v) a fCH_EVSEND_K)
      (getF (writePlain h .ch 0 0x8038 a v) a fCH_EVSEND_TGT) (getF (writePlain h .ch 0 0x8038 a v) a fCH_EVSEND_YARDS) :=
  (if_neg (by decide)).trans ((if_pos rfl).trans (if_pos go))

theorem fieldOf_oneField (h : Hw) (a : Nat) {f : Fld} (fits : f.lo + f.w ≤ 64) (x : Nat) :
    fieldOf f (oneField h a f x).toNat = x % 2 ^ f.w := by
  rw [oneField, BitVec.toNat_ofNat, fieldOf_mod f fits, fieldOf_putField_same]

theorem evsend_goes (v : BitVec 64) : fieldOf fCH_EVSEND_GO (v ||| BitVec.ofNat 64 (2 ^ 63)).toNat = 1 := by
  have bit : (v ||| BitVec.ofNat 64 (2 ^ 63)).getLsbD 63 = true := by simp
  exact (Nat.toNat_testBit _ 63).symm.trans (congrArg Bool.toNat bit)

/-! ## Heartbeats (R268, R269) -/

section
variable {h : Hw}

theorem heartbeatSend_idle (idle : isDev0 h = false ∨ getF h aCH_ID fCH_ID_COUNT = 0) : heartbeatSend h = h :=
  if_pos (.inr (idle.imp_left Bool.eq_false_iff.mp))

/-- Silent devices counted and their alarms leave the number of the heartbeat as it is. -/
theorem heartbeatSend_numbers (live : frozen h = false) (dev0 : isDev0 h = true) (counted : getF h aCH_ID fCH_ID_COUNT ≠ 0) :
    getF (heartbeatSend h) aCH_HB fCH_HB_HBSEQ = (getF h aCH_HB fCH_HB_HBSEQ + 1) % 2 ^ 32 := by
  unfold heartbeatSend
  extract_lets n h1 seq h2
  rw [if_neg (by simp [live, dev0, n, counted])]
  have watched : KeepsField aCH_HB fCH_HB_HBSEQ h h1 := by
    refine applyAll_keepsField (fun t d _ => ?_) h
    split
    · exact rfl
    · extract_lets x first m t1
      have noted : KeepsField aCH_HB fCH_HB_HBSEQ t t1 := keepsField_of_regs rfl
      split
      · exact noted.trans ((raiseAlarm_logs rfl (by decide) t1 _ _ _).keepsField (by decide) (by decide))
      · exact noted
  have numbered : getF h2 aCH_HB fCH_HB_HBSEQ = seq % 2 ^ 32 := getF_setF_same h1 aCH_HB (by decide) seq
  have sent : KeepsField aCH_HB fCH_HB_HBSEQ h2 (sendOn (sendOn h2 0 (packet h2 7 0xFE seq)) 1 (packet h2 7 0xFE seq)) :=
    ((sendOn_only h2 0 _).trans (sendOn_only _ 1 _)).keepsField
  have same : getF h1 aCH_HB fCH_HB_HBSEQ = getF h aCH_HB fCH_HB_HBSEQ := watched
  exact Eq.trans sent (numbered.trans (by rw [Nat.mod_mod, same]))

theorem heartbeatMiss_idle (idle : isDev0 h = true ∨ h.chain.armed = false ∨ isSet h aCH_PART fCH_PART_BEHINDFRZ = true ∨
    3 ≤ h.chain.misses) : heartbeatMiss h = h :=
  if_pos (.inr (idle.imp_right (Or.imp_left Bool.eq_false_iff.mp)))

section
variable (live : frozen h = false) (far : isDev0 h = false) (armed : h.chain.armed = true)
  (watched : isSet h aCH_PART fCH_PART_BEHINDFRZ = false)
include live far armed watched

theorem heartbeatMiss_counts (few : h.chain.misses < 3) : heartbeatMiss h =
    if h.chain.misses + 1 = 3 then isolate (bump (withMisses h (h.chain.misses + 1)) aCH_HB fCH_HB_MISSCNT 1)
    else bump (withMisses h (h.chain.misses + 1)) aCH_HB fCH_HB_MISSCNT 1 :=
  if_neg (by simp [live, far, armed, watched, few])

theorem heartbeatMiss_third (third : h.chain.misses = 2) (runs : h.mode = .run) :
    (heartbeatMiss h).mode = .isolated ∧ isSet (heartbeatMiss h) aCH_PART fCH_PART_ISOL = true := by
  rw [heartbeatMiss_counts live far armed watched (by omega), if_pos (by omega)]
  exact isolate_fromRun ((bump_mode _ _ _ _).trans runs)

theorem heartbeatMiss_earlier (early : h.chain.misses < 2) :
    heartbeatMiss h = bump (withMisses h (h.chain.misses + 1)) aCH_HB fCH_HB_MISSCNT 1 := by
  rw [heartbeatMiss_counts live far armed watched (by omega), if_neg (by omega)]

end

/-! ## Delay exchanges, the mute, chain-ready and summaries (R270, R276, R280, R442) -/

theorem delayExchange_idle (idle : isDev0 h = true ∨ addressed h = false) : delayExchange h = h :=
  if_pos (.inr (idle.imp_right Bool.eq_false_iff.mp))

theorem delayExchange_asks (live : frozen h = false) (far : isDev0 h = false) (addr : addressed h = true) :
    delayExchange h = dmRequest h := if_neg (by simp [live, far, addr])

theorem muteHold_idle (idle : h.mode ≠ .isolated ∨ getF h aCH_PART fCH_PART_POL ≠ 0) : muteHold h = h :=
  if_neg fun ⟨_, isolated, policy⟩ => idle.elim (· isolated) (· policy)

theorem muteHold_mutes (live : frozen h = false) (isolated : h.mode = .isolated) (policy : getF h aCH_PART fCH_PART_POL = 0) :
    muteHold h = setMuted h true := if_pos ⟨Bool.eq_false_iff.mp live, isolated, policy⟩

theorem reportReady_again (reported : isSet h aHI_STAT fHI_STAT_CHRDY = true) : reportReady h = h := if_pos reported

theorem chainReady_idle (idle : isDev0 h = false ∨ getF h aCH_ID fCH_ID_COUNT = 0 ∨ allReady h = false ∨
    isSet h aHI_STAT fHI_STAT_CHRDY = true) : chainReady h = h := by
  unfold chainReady
  split
  · rename_i due
    obtain ⟨-, dev0, counted, ready⟩ := due
    have reported : isSet h aHI_STAT fHI_STAT_CHRDY = true := by simpa [dev0, counted, ready] using idle
    exact reportReady_again reported
  · rfl

theorem chainReady_reports (live : frozen h = false) (dev0 : isDev0 h = true) (counted : getF h aCH_ID fCH_ID_COUNT ≠ 0)
    (ready : allReady h = true) (first : isSet h aHI_STAT fHI_STAT_CHRDY = false) :
    chainReady h = sendVector (raiseBit h aHI_STAT fHI_STAT_CHRDY) 19 :=
  (if_pos ⟨Bool.eq_false_iff.mp live, dev0, counted, ready⟩).trans (if_neg (Bool.eq_false_iff.mp first))

theorem deviceLate_idle (idle : isDev0 h = false ∨ getF h aCH_ID fCH_ID_COUNT = 0 ∨ allReady h = true) : deviceLate h = h :=
  if_pos (.inr (idle.imp_left Bool.eq_false_iff.mp))

theorem deviceLate_names (live : frozen h = false) (dev0 : isDev0 h = true) (counted : getF h aCH_ID fCH_ID_COUNT ≠ 0)
    (missing : allReady h = false) : deviceLate h = reportReady (raiseAlarm h 0x104 0xFF (absentDevices h) 0) :=
  if_neg (by simp [live, dev0, counted, missing])

theorem summarySend_idle {code : Nat} (idle : lookup h.obs.summaries code = none ∨ isDev0 h = true ∨ addressed h = false) :
    summarySend h code = h := by
  unfold summarySend
  split
  · rfl
  · rename_i waits
    exact if_pos (.inr ((idle.resolve_left (by simp [waits])).imp_right Bool.eq_false_iff.mp))

theorem summarySend_leaves {code : Nat} {x : Summary} (waits : lookup h.obs.summaries code = some x) (live : frozen h = false)
    (far : isDev0 h = false) (addr : addressed h = true) :
    summarySend h code = sendPkt (summaryTaken h code) (summaryPkt h code x) := by
  rw [summarySend, waits]
  exact if_neg (by simp [live, far, addr])

end

end Sys2Proof.Machine

open Sys2Proof Sys2Proof.Machine

/-- Settles O35: each timer does what its definition gives where its condition holds, and what it alters of the state is
followed through the packets and alarms that it causes. -/
theorem chainTimersAndLinksAct : Obligations.ChainTimersAndLinksAct := by
  refine ⟨?down, ?wasUp, ?wasDown, ?up, ?noUp, ?retrain, ?beat, ?noBeat, ?third, ?earlier, ?noMiss, ?exchange, ?noExchange,
    ?mute, ?noMute, ?event, ?ready, ?notReady, ?late, ?notLate, ?summary, ?noSummary⟩
  case down => exact fun port s live => givesHw_onHw rfl (if_neg (Bool.eq_false_iff.mp live))
  case wasUp => exact fun port s up => linkDown_up up
  case wasDown => exact fun port s down => linkDown_down down
  case up =>
    intro port s live down enabled
    have clocked : s.hw.clocked = true := by simp [frozen] at live; exact live.2
    exact ⟨_, rfl, (congrArg (linkUp · port) (if_neg (Bool.eq_false_iff.mp live))).trans (linkUpNow_up down enabled clocked)⟩
  case noUp =>
    exact fun port s idle => givesHw_onHw rfl ((congrArg (ite _ _) (linkUpNow_idle idle)).trans (ite_self _))
  case retrain =>
    intro port s up
    refine givesHw_busWrite up rfl ((writeReg_retrain s.mem s.hw port.isLt _).trans ?_)
    rw [writeLk_retrain (fieldOf_oneField s.hw _ (by decide) 1)]
  case beat => exact fun s live dev0 counted => ⟨_, rfl, heartbeatSend_numbers live dev0 counted⟩
  case noBeat => exact fun s idle => givesHw_onHw rfl (heartbeatSend_idle idle)
  case third =>
    exact fun s live far armed watched third runs => ⟨_, rfl, heartbeatMiss_third live far armed watched third runs⟩
  case earlier =>
    exact fun s live far armed watched early => givesHw_onHw rfl (heartbeatMiss_earlier live far armed watched early)
  case noMiss => exact fun s idle => givesHw_onHw rfl (heartbeatMiss_idle idle)
  case exchange => exact fun x s live far addr => givesHw_onHw rfl (delayExchange_asks live far addr)
  case noExchange => exact fun x s idle => givesHw_onHw rfl (delayExchange_idle idle)
  case mute => exact fun s live isolated policy => givesHw_onHw rfl (muteHold_mutes live isolated policy)
  case noMute => exact fun s idle => givesHw_onHw rfl (muteHold_idle idle)
  case event =>
    rintro v e s up rfl
    refine givesHw_busWrite up rfl ((writeReg_evsend s.mem s.hw _).trans ?_)
    rw [writeCh_event (evsend_goes v)]
  case ready =>
    exact fun s live dev0 counted ready first => givesHw_onHw rfl (chainReady_reports live dev0 counted ready first)
  case notReady => exact fun s idle => givesHw_onHw rfl (chainReady_idle idle)
  case late => exact fun s live dev0 counted missing => givesHw_onHw rfl (deviceLate_names live dev0 counted missing)
  case notLate => exact fun s idle => givesHw_onHw rfl (deviceLate_idle idle)
  case summary =>
    exact fun code x s waits live far addr => givesHw_onHw rfl (summarySend_leaves waits live far addr)
  case noSummary => exact fun code s idle => givesHw_onHw rfl (summarySend_idle idle)
end

section
/-!
PROOF. What each chain packet does on the device that it is delivered to (R248, R249, R255 to R259, R266 to R270, R442).
-/

namespace Sys2Proof.Machine

theorem givesHw_packet {i : Instr} {s : State} {port : Fin 2} {kind : Nat} {p : Pkt} {act : Hw → Hw}
    (he : exec i s = .next (onHw s fun h => onPacket h port.val kind p true act)) (here : (received s port kind p).1 = true)
    {h : Hw} (acts : act (received s port kind p).2 = h) : GivesHw i s h :=
  givesHw_onHw he ((if_pos here).trans acts)

/-! ## The neighbour's state, events and freezes (R248, R266, R267) -/

section
variable {h : Hw}

theorem takeIdle_changed {port : Nat} {frz : Bool} (changed : isSet h (aLK_STAT port) fLK_STAT_NBFRZ ≠ frz) :
    takeIdle h port frz = reroute (setF h (aLK_STAT port) fLK_STAT_NBFRZ frz.toNat) := if_neg changed

theorem takeIdle_same {port : Nat} {frz : Bool} (same : isSet h (aLK_STAT port) fLK_STAT_NBFRZ = frz) :
    takeIdle h port frz = h := if_pos same

/-- An event whose mask names yard 0 alone is raised there in its next cycle. -/
theorem takeEvent_first {arg : Nat} (fits : arg < 2 ^ 18) (mask : arg % 2 ^ 16 = 1) :
    takeEvent h arg = raiseLater h 0 (0xFC + arg / 2 ^ 16) (dueIn h 0 1) := by
  have masked {y : Nat} (yard : y < 16) : arg.testBit y = Nat.testBit 1 y := by
    rw [← mask, Nat.testBit_mod_two_pow, decide_eq_true yard, Bool.true_and]
  have first : arg.testBit 0 = true := masked (by decide)
  have code : arg / 2 ^ 16 % 4 = arg / 2 ^ 16 := Nat.mod_eq_of_lt (by omega)
  unfold takeEvent
  rw [List.range_succ_eq_map, applyAll_cons, if_pos first, code, applyAll_fixed]
  intro y mem
  obtain ⟨k, inside, rfl⟩ := List.mem_map.mp mem
  have unnamed : arg.testBit (k + 1) = false := by
    rw [masked (Nat.succ_lt_succ (List.mem_range.mp inside)), Nat.testBit_succ]
    exact Nat.zero_testBit k
  exact if_neg (Bool.eq_false_iff.mp unnamed)

theorem takeFreeze_resume {p : Pkt} (resume : p.arg.getLsbD 1 = true) (low : Bool) :
    takeFreeze h p low = resumeRequest h low := if_pos resume

theorem takeFreeze_now {p : Pkt} (freeze : p.arg.getLsbD 1 = false) (now : p.arg.getLsbD 0 = true) (low : Bool) :
    takeFreeze h p low = freezeRequest h 4 := (if_neg (Bool.eq_false_iff.mp freeze)).trans (if_pos now)

theorem takeFreeze_timed {p : Pkt} (freeze : p.arg.getLsbD 1 = false) (timed : p.arg.getLsbD 0 = false) (low : Bool) {d : Nat}
    (time : d = (p.words.headD TW.notValid).d.toNat) :
    takeFreeze h p low = freezeArm h 4 (d / 2 ^ 32) (d % 2 ^ 32) := by
  subst time
  exact (if_neg (Bool.eq_false_iff.mp freeze)).trans (if_neg (Bool.eq_false_iff.mp timed))

theorem resuming_resumeRequest (frz : h.mode = .frozen) (low : Bool) :
    (resumeRequest h low).frz.resuming = if low = true then h.frz.resuming else true := by
  cases low <;> simp [resumeRequest, frz]

/-- A resume reaches a FROZEN device, which ignores it while FREEZE_N is low. -/
theorem resuming_onPacket {port : Nat} {p : Pkt} (frz : h.mode = .frozen) (clocked : h.clocked = true)
    (up : linkUp h port = true) (resume : p.arg.getLsbD 1 = true) (next : p.seq = (linkSt h port).rxSeq) (low : Bool) :
    (onPacket h port 4 p true fun h => takeFreeze h p low).frz.resuming = if low = true then h.frz.resuming else true := by
  rw [onPacket, rxPacket_frozen clocked up frz, rxFrozen_resume rfl resume next]
  obtain ⟨x, sent⟩ := sendOn_only (setLinkSt h port { linkSt h port with rxSeq := (linkSt h port).rxSeq + 1 }) port
    (packet h 0 0xFD 1)
  rw [if_pos rfl, takeFreeze_resume resume, sent]
  exact resuming_resumeRequest (h := { setLinkSt h port _ with chain.links := x }) frz low

end

/-! ## Addresses and the roll call (R255 to R258) -/

theorem takeRoll_elsewhere {h : Hw} {port : Nat} (other : port ≠ 0) (a : Nat) : takeRoll h port a = h := if_pos other

theorem takeRoll_ends {h : Hw} (dev0 : isDev0 h = true) (rolling : h.chain.rolling = true) (a : Nat) :
    takeRoll h 0 a = rollDone h (a + 1) true false :=
  (if_neg (not_not_intro rfl)).trans ((if_pos dev0).trans (if_pos rolling))

theorem takeRoll_full {h : Hw} (far : isDev0 h = false) : takeRoll h 0 63 = sendOn h 0 (packet h 6 0 (63 + 64)) :=
  (if_neg (not_not_intro rfl)).trans ((if_neg (Bool.eq_false_iff.mp far)).trans (if_pos rfl))

theorem setMode_keepsField {f : Fld} (h : Hw) (m : DevState) : KeepsField aCH_ID f h (setMode h m) :=
  (keepsField_of_regs (t := { h with mode := m }) rfl).trans ((setMode_logs h m).keepsField (by decide) (by decide))

theorem setPoolHere_keepsField {f : Fld} (h : Hw) (d v : Nat) : KeepsField aCH_ID f h (setPoolHere h d v) := by
  refine setReg_keepsField ?_ h _
  unfold aCH_ID aCH_POOL
  omega

theorem rollPools_keepsField {f : Fld} (h : Hw) : KeepsField aCH_ID f h (rollPools h) := by
  unfold rollPools
  extract_lets least src h0 raised
  have given : KeepsField aCH_ID f h h0 := keepsField_of_regs rfl
  have least_ : KeepsField aCH_ID f h0 raised := by
    refine applyAll_keepsField (fun t d _ => ?_) h0
    split
    · exact setPoolHere_keepsField t d _
    · exact rfl
  split
  · exact given.trans least_
  · exact given.trans (applyAll_keepsField (fun t d _ => setPoolHere_keepsField t d _) h0)

/-- A field of the address register that nothing but the address itself writes. -/
abbrev OfAddress (f : Fld) : Prop := f.lo + f.w ≤ 64 ∧ Beside fCH_ID_CLOSED f ∧ Beside fCH_ID_MOVED f

section
variable {f : Fld} (own : OfAddress f)
include own

theorem OfAddress.offRoutes : OffRoutes aCH_ID f := ⟨own.1, by decide, .inr own.2.1, .inl (by decide), .inl (by decide)⟩

theorem OfAddress.offMute : OffMute aCH_ID f := by
  refine ⟨own.1, .inl (by decide), fun j => ?_, fun k => ?_⟩
  · unfold aCH_ID aJL_STAT
    omega
  · unfold aCH_ID aETH_PSTAT
    omega

theorem moveFrom_keepsField (h : Hw) (old : Nat) : KeepsField aCH_ID f h (moveFrom h old) :=
  (keepsField_of_regs rfl).trans (raiseBit_keepsField own.1 (.inr own.2.2) _)

theorem chainResume_keepsField (h : Hw) : KeepsField aCH_ID f h (chainResume h) := by
  unfold chainResume
  extract_lets h1
  have unmuted : KeepsField aCH_ID f h h1 :=
    (setF_keepsField own.1 (.inl (by decide)) h 0).trans (setMuted_keepsField own.offMute _ false)
  split
  · exact unmuted.trans (setMode_keepsField h1 .run)
  · exact unmuted

end

/-- The address that a roll call gives taken (R256). -/
def withAddress (h : Hw) (a : Nat) : Hw := raiseBit (setF h aCH_ID fCH_ID_ADDR a) aCH_ID fCH_ID_AVLD

theorem ownAddr_withAddress (h : Hw) {a : Nat} (fits : a < 64) : ownAddr (withAddress h a) = a := by
  have raised : KeepsField aCH_ID fCH_ID_ADDR (setF h aCH_ID fCH_ID_ADDR a) (withAddress h a) :=
    raiseBit_keepsField (by decide) (.inr (by decide)) _
  exact Eq.trans raised ((getF_setF_same h aCH_ID (by decide) a).trans (Nat.mod_eq_of_lt fits))

theorem addressed_withAddress (h : Hw) (a : Nat) : addressed (withAddress h a) = true := isSet_raiseBit _ aCH_ID rfl (by decide)

/-- All else that a device does with a new address leaves the address. -/
theorem takeRoll_keepsField {h : Hw} (far : isDev0 h = false) {a : Nat} (room : a < 63) {f : Fld} (own : OfAddress f) :
    KeepsField aCH_ID f (withAddress h (a + 1)) (takeRoll h 0 a) := by
  unfold takeRoll
  rw [if_neg (not_not_intro rfl), if_neg (Bool.eq_false_iff.mp far), if_neg (Nat.ne_of_lt room)]
  extract_lets old moved same h0 src h1 h2 isol unmuted src1 h3 src2 h4 h5
  have erased : KeepsField aCH_ID f (withAddress h (a + 1)) h1 := keepsField_of_regs rfl
  have moves : KeepsField aCH_ID f h1 h2 := by
    unfold h2
    split
    · exact moveFrom_keepsField own h1 old
    · exact rfl
  have lifted : KeepsField aCH_ID f h2 unmuted := by
    unfold unmuted
    split
    · exact setMuted_keepsField own.offMute h2 false
    · exact rfl
  have resumed : KeepsField aCH_ID f h2 h3 := by
    unfold h3
    split
    · split
      · exact chainResume_keepsField own h2
      · exact rfl
    · exact lifted.trans (keepsField_of_regs rfl)
  have pooled : KeepsField aCH_ID f h3 h4 := (reports_keepsField h3 []).trans (rollPools_keepsField _)
  have sent : KeepsField aCH_ID f h4 h5 := by
    unfold h5
    split
    · exact (sendOn_only h4 1 _).keepsField
    · exact (sendOn_only h4 0 _).keepsField
  exact ((((erased.trans moves).trans resumed).trans pooled).trans sent).trans (announceLinks_keepsField own.offRoutes h5)

theorem takeRoll_takes {h : Hw} (far : isDev0 h = false) {a : Nat} (room : a < 63) :
    ownAddr (takeRoll h 0 a) = a + 1 ∧ addressed (takeRoll h 0 a) = true :=
  ⟨Eq.trans (takeRoll_keepsField far room (f := fCH_ID_ADDR) (by decide)) (ownAddr_withAddress h (Nat.succ_lt_succ room)),
    (takeRoll_keepsField far room (f := fCH_ID_AVLD) (by decide)).isSet.trans (addressed_withAddress h _)⟩

section
variable {h : Hw} {arg : Nat}

theorem takeRollEnd_counts (dev0 : isDev0 h = true) (rolling : h.chain.rolling = true) (counted : arg / 64 % 2 = 0) :
    takeRollEnd h arg = rollDone h (arg % 64 + 1) false false :=
  (if_pos ⟨dev0, rolling⟩).trans (if_neg (by omega))

theorem takeRollEnd_full (dev0 : isDev0 h = true) (rolling : h.chain.rolling = true) (full : arg / 64 % 2 = 1) :
    takeRollEnd h arg = rollDone h 64 false true :=
  (if_pos ⟨dev0, rolling⟩).trans (if_pos full)

theorem takeRollEnd_idle (idle : isDev0 h = false ∨ h.chain.rolling = false) : takeRollEnd h arg = h :=
  if_neg fun ⟨dev0, rolling⟩ => by simp [dev0, rolling] at idle

end

/-- Naming the action keeps the kernel from unfolding `takeRollEnd` and what it reads when it compares the states. -/
theorem givesHw_rollEnd {port : Fin 2} {p : Pkt} {s : State} (here : (received s port 6 p).1 = true) {h : Hw}
    (acts : takeRollEnd (received s port 6 p).2 p.arg.toNat = h) : GivesHw (.rollEnd port p true) s h :=
  givesHw_packet (act := fun h => takeRollEnd h p.arg.toNat) rfl here acts

/-! ## Heartbeats, delays, reports and NAKs (R249, R259, R268 to R270) -/

/-- The watch armed by a heartbeat, with its number and no age. -/
def watchArmed (h : Hw) (n : Nat) : Hw :=
  setF (setF { h with chain.armed := true, chain.misses := 0 } aCH_HB fCH_HB_HBSEQ n) aCH_HB fCH_HB_HBAGE 0

/-- The watch, and the register of its heartbeats, are as before. -/
def LeavesWatch (h t : Hw) : Prop :=
  t.chain.armed = h.chain.armed ∧ t.chain.misses = h.chain.misses ∧ reg t aCH_HB = reg h aCH_HB

theorem LeavesWatch.trans {a b c : Hw} (h1 : LeavesWatch a b) (h2 : LeavesWatch b c) : LeavesWatch a c :=
  ⟨h2.1.trans h1.1, h2.2.1.trans h1.2.1, h2.2.2.trans h1.2.2⟩

theorem leavesWatch_of_parts {h t : Hw} (armed : t.chain.armed = h.chain.armed) (misses : t.chain.misses = h.chain.misses)
    (regs : t.regs = h.regs) : LeavesWatch h t := ⟨armed, misses, by rw [reg, regs, reg]⟩

theorem OnlyLinks.leavesWatch {h t : Hw} (sent : OnlyLinks h t) : LeavesWatch h t := by
  obtain ⟨x, rfl⟩ := sent
  exact leavesWatch_of_parts rfl rfl rfl

theorem OnlySummaries.leavesWatch {h t : Hw} (queued : OnlySummaries h t) : LeavesWatch h t := by
  obtain ⟨x, rfl⟩ := queued
  exact leavesWatch_of_parts rfl rfl rfl

theorem raiseBit_leavesWatch {a : Nat} (other : aCH_HB ≠ a) (h : Hw) (f : Fld) : LeavesWatch h (raiseBit h a f) :=
  ⟨rfl, rfl, reg_raiseBit_ne h f other⟩

/-- Nothing that follows the arming of the watch alters it. -/
theorem takeHb_leavesWatch {h : Hw} (addr : addressed h = true) (port n : Nat) :
    LeavesWatch (watchArmed h n) (takeHb h port n) := by
  unfold takeHb
  rw [if_neg (not_not_intro addr)]
  extract_lets src h1 h2
  have joined : LeavesWatch h1 h2 := by
    unfold h2
    split
    · exact (raiseBit_leavesWatch (by decide) h1 _).trans (queueSummaries_only _).leavesWatch
    · exact leavesWatch_of_parts rfl rfl rfl
  exact joined.trans (sendOn_only h2 port _).leavesWatch

theorem takeHb_arms {h : Hw} (addr : addressed h = true) (port : Nat) {n : Nat} (fits : n < 2 ^ 32) :
    (takeHb h port n).chain.armed = true ∧ (takeHb h port n).chain.misses = 0 ∧
      getF (takeHb h port n) aCH_HB fCH_HB_HBSEQ = n ∧ getF (takeHb h port n) aCH_HB fCH_HB_HBAGE = 0 := by
  obtain ⟨armed, misses, number⟩ := takeHb_leavesWatch addr port n
  have age : getF (watchArmed h n) aCH_HB fCH_HB_HBAGE = 0 := getF_setF_same _ aCH_HB (by decide) 0
  have seq : getF (watchArmed h n) aCH_HB fCH_HB_HBSEQ = n :=
    (getF_setF_beside _ aCH_HB aCH_HB (by decide) (by decide) 0).trans
      ((getF_setF_same _ aCH_HB (by decide) n).trans (Nat.mod_eq_of_lt fits))
  exact ⟨armed, misses, (getF_of_reg number _).trans seq, (getF_of_reg number _).trans age⟩

section
variable {h : Hw}

theorem takeHbAck_dev0 (dev0 : isDev0 h = true) (dev arg : Nat) :
    takeHbAck h dev arg = setPeer h dev ⟨arg / 2 ^ 32 % 8, arg / 2 ^ 35 % 2 == 1, true, 0⟩ := if_pos dev0

theorem takeHbAck_other (far : isDev0 h = false) (dev arg : Nat) : takeHbAck h dev arg = h := if_neg (Bool.eq_false_iff.mp far)

theorem delayPacket_reply {port : Nat} {p : Pkt} (reply : p.arg.getLsbD 0 = true) (t1 t2 t3 t4 : Int) :
    delayPacket h port p t1 t2 t3 t4 = takeDm h port t1 t2 t3 t4 := if_pos reply

theorem delayPacket_request {port : Nat} {p : Pkt} (request : p.arg.getLsbD 0 = false) (t1 t2 t3 t4 : Int) :
    delayPacket h port p t1 t2 t3 t4 = dmReply h port := if_neg (Bool.eq_false_iff.mp request)

/-- A packet sent again eight times takes its link down. -/
theorem takeNak_gives_up {port : Nat} {q : BitVec 8} (named : (linkSt h port).replay.any (fun e => e.1.p.seq == q) = true)
    (worn : ((linkSt h port).replay.dropWhile fun e => e.1.p.seq != q).any (fun e => 8 ≤ e.2) = true) :
    takeNak h port q = linkDown h port := (if_neg (not_not_intro named)).trans (if_pos worn)

end

end Sys2Proof.Machine

open Sys2Proof Sys2Proof.Machine

/-- Settles O33: a packet that is delivered here acts on the hardware as its reception leaves it, by its kind; a resume by what
it asks of a FROZEN device, and a roll call by the address that it gives. -/
theorem chainPacketsActWhereDelivered : Obligations.ChainPacketsActWhereDelivered := by
  refine ⟨?changed, ?same, ?event, ?first, ?resume, ?now, ?timed, ?frozen, ?roll, ?elsewhere, ?ends, ?full, ?takes, ?counts,
    ?tooMany, ?noEnd, ?hb, ?armed, ?ack, ?noAck, ?reply, ?request, ?link, ?credit, ?nak, ?givesUp, ?alarm, ?noAlarm⟩
  case changed => exact fun port p s here changed => givesHw_packet rfl here (takeIdle_changed changed)
  case same => exact fun port p s here same => givesHw_packet rfl here (takeIdle_same same)
  case event => exact fun port p s here => givesHw_packet rfl here rfl
  case first => exact fun h arg fits mask => takeEvent_first fits mask
  case resume => exact fun port p low s here resume => givesHw_packet rfl here (takeFreeze_resume resume low)
  case now => exact fun port p low s here freeze now => givesHw_packet rfl here (takeFreeze_now freeze now low)
  case timed =>
    exact fun port p low d s here freeze timed time => givesHw_packet rfl here (takeFreeze_timed freeze timed low time)
  case frozen =>
    exact fun port p low s frz clocked up resume next =>
      ⟨_, rfl, resuming_onPacket frz clocked up resume next low⟩
  case roll => exact fun port p s here => givesHw_packet rfl here rfl
  case elsewhere => exact fun h port a other => takeRoll_elsewhere other a
  case ends => exact fun h a dev0 rolling => takeRoll_ends dev0 rolling a
  case full => exact fun h far => takeRoll_full far
  case takes => exact fun h a far room => takeRoll_takes far room
  case counts =>
    exact fun port p s here dev0 rolling counted => givesHw_rollEnd here (takeRollEnd_counts dev0 rolling counted)
  case tooMany => exact fun port p s here dev0 rolling full => givesHw_rollEnd here (takeRollEnd_full dev0 rolling full)
  case noEnd => exact fun port p s here idle => givesHw_rollEnd here (takeRollEnd_idle idle)
  case hb => exact fun port p s here => givesHw_packet rfl here rfl
  case armed => exact fun h port n addr fits => takeHb_arms addr port fits
  case ack => exact fun port p s here dev0 => givesHw_packet rfl here (takeHbAck_dev0 dev0 _ _)
  case noAck => exact fun port p s here far => givesHw_packet rfl here (takeHbAck_other far _ _)
  case reply =>
    exact fun port p t1 t2 t3 t4 s here reply => givesHw_packet rfl here (delayPacket_reply reply t1 t2 t3 t4)
  case request =>
    exact fun port p t1 t2 t3 t4 s here request => givesHw_packet rfl here (delayPacket_request request t1 t2 t3 t4)
  case link => exact fun port p s here => givesHw_packet rfl here rfl
  case credit => exact fun port p s here => givesHw_packet rfl here rfl
  case nak => exact fun port p s here => givesHw_packet rfl here rfl
  case givesUp => exact fun h port q named worn => takeNak_gives_up named worn
  case alarm => exact fun port p s here dev0 => givesHw_packet rfl here (if_pos dev0)
  case noAlarm => exact fun port p s here far => givesHw_packet rfl here (if_neg (Bool.eq_false_iff.mp far))
end

section
/-!
PROOF. What the status bits of a JESD link leave as it was: a bit raised, a direction up or down, and the events of both touch
no other register of the ports (R291, R306).
-/

namespace Sys2Proof.Machine

/-! ## Events and the registers of the ports (R147) -/

/-- What each update of a list keeps of the state, all of them keep. -/
theorem applyAll_related {α : Type} {R : Hw → Hw → Prop} (same : ∀ h, R h h)
    (trans : ∀ {a b c}, R a b → R b c → R a c) {f : Hw → α → Hw} {xs : List α}
    (each : ∀ h, ∀ x ∈ xs, R h (f h x)) (h : Hw) : R h (applyAll f h xs) := by
  induction xs generalizing h with
  | nil => exact same h
  | cons x xs ih =>
    exact trans (each h x List.mem_cons_self) (ih (fun h y mem => each h y (List.mem_cons_of_mem x mem)) _)

theorem OnlyEvents.jesd {h t : Hw} (events : OnlyEvents h t) : t.jesd = h.jesd := by
  obtain ⟨r, j, o, s, rfl⟩ := events
  rfl

theorem OnlyEvents.aclk {h t : Hw} (events : OnlyEvents h t) : t.aclk = h.aclk := by
  obtain ⟨r, j, o, s, rfl⟩ := events
  rfl

theorem OnlyEvents.frozen {h t : Hw} (events : OnlyEvents h t) : frozen t = frozen h := by
  obtain ⟨r, j, o, s, rfl⟩ := events
  rfl

theorem OnlyEvents.jdir {h t : Hw} (events : OnlyEvents h t) (d : Nat) : jdir t d = jdir h d := by
  rw [Machine.jdir, events.jesd, Machine.jdir]

/-- The address lies above the registers of the yards (Table 1.7). -/
abbrev AboveYards (a : Nat) : Prop := 0x1009000000 ≤ a

theorem reg_of_regs {h t : Hw} (same : t.regs = h.regs) (a : Nat) : reg t a = reg h a := by rw [reg, same, reg]

theorem reg_setSched (h : Hw) (y : Nat) (x : Sched) (a : Nat) : reg (setSched h y x) a = reg h a := reg_of_regs rfl a

theorem ne_eventsSeen {a y k : Nat} (above : AboveYards a) (yard : y < 16) (word : k < 4) : a ≠ aSCH_EVSEEN y k := by
  unfold AboveYards at above
  unfold aSCH_EVSEEN yardBase regionBase
  omega

/-- Nothing but events differs, and no register above the yards'. -/
def EventsBelow (h t : Hw) : Prop := OnlyEvents h t ∧ ∀ a, AboveYards a → reg t a = reg h a

theorem EventsBelow.same (h : Hw) : EventsBelow h h := ⟨.same h, fun _ _ => rfl⟩

theorem EventsBelow.trans {a b c : Hw} (h1 : EventsBelow a b) (h2 : EventsBelow b c) : EventsBelow a c :=
  ⟨h1.1.trans h2.1, fun k above => (h2.2 k above).trans (h1.2 k above)⟩

theorem EventsBelow.keepsField {a : Nat} {f : Fld} {h t : Hw} (events : EventsBelow h t) (above : AboveYards a) :
    KeepsField a f h t := getF_of_reg (events.2 a above) f

theorem raiseEvent_below {e y : Nat} (event : e < 256) (yard : y < 16) (h : Hw) : EventsBelow h (raiseEvent h y e) := by
  refine ⟨raiseEvent_only h y e, fun a above => ?_⟩
  have other : a ≠ aSCH_EVSEEN y (e / 64) := ne_eventsSeen above yard (by omega)
  unfold raiseEvent raiseEventAt
  split
  · rfl
  · extract_lets seen hits src h1 s
    have noted : reg h1 a = reg h a := (reg_setReg_ne _ _ other).trans (reg_of_regs rfl a)
    split
    · exact (reg_setSched h1 y _ a).trans noted
    · exact noted

theorem raiseEventAll_below {e : Nat} (event : e < 256) (h : Hw) : EventsBelow h (raiseEventAll h e) :=
  applyAll_related .same .trans (fun h _ mem => raiseEvent_below event (List.mem_range.mp mem) h) h

/-! ## Status of a link (R291) -/

/-- A register of the ports that holds neither the status of a link nor its second counts. -/
abbrev OffStatus (a : Nat) : Prop := AboveYards a ∧ ∀ j, a ≠ aJL_STAT j ∧ a ≠ aJL_CNT2 j

/-- Nothing but events differs, and of the registers above the yards' only status and second counts of the links. -/
def StatusOnly (h t : Hw) : Prop := OnlyEvents h t ∧ ∀ a, OffStatus a → reg t a = reg h a

theorem StatusOnly.trans {a b c : Hw} (h1 : StatusOnly a b) (h2 : StatusOnly b c) : StatusOnly a c :=
  ⟨h1.1.trans h2.1, fun k off => (h2.2 k off).trans (h1.2 k off)⟩

theorem EventsBelow.statusOnly {h t : Hw} (events : EventsBelow h t) : StatusOnly h t :=
  ⟨events.1, fun a off => events.2 a off.1⟩

theorem setF_statusOnly (h : Hw) (j : Nat) (f : Fld) (x : Nat) : StatusOnly h (setF h (aJL_STAT j) f x) :=
  ⟨(setF_only h _ f x).events, fun _ off => reg_setF_ne h f x (off.2 j).1⟩

theorem raiseBit_statusOnly (h : Hw) (j : Nat) (f : Fld) : StatusOnly h (raiseBit h (aJL_STAT j) f) :=
  ⟨(raiseBit_only h _ f).events, fun _ off => reg_raiseBit_ne h f (off.2 j).1⟩

theorem bump_statusOnly (h : Hw) (j : Nat) (f : Fld) (n : Nat) : StatusOnly h (bump h (aJL_CNT2 j) f n) :=
  ⟨(bump_only h _ f n).events, fun _ off => reg_setF_ne h f _ (off.2 j).2⟩

theorem stat_above (j : Nat) : AboveYards (aJL_STAT j) := by
  unfold aJL_STAT AboveYards
  omega

theorem jsr_offStatus (d : Nat) : OffStatus (aJsr d) := by
  unfold aJsr OffStatus aJL_RXSR aJL_TXSR aJL_STAT aJL_CNT2 AboveYards
  split
  · exact ⟨by omega, by omega⟩
  · exact ⟨by omega, by omega⟩

theorem srts_offStatus (j : Nat) : OffStatus (aJL_SRTS j) := by
  unfold OffStatus aJL_SRTS aJL_STAT aJL_CNT2 AboveYards
  exact ⟨by omega, by omega⟩

section
variable {j : Nat} (link : j < 4)
include link

theorem jRaise_statusOnly (h : Hw) (f : Fld) : StatusOnly h (jRaise h j f) := by
  have raised := raiseBit_statusOnly h j f
  unfold jRaise
  split
  · exact raised
  · exact raised.trans (raiseEventAll_below (by omega) _).statusOnly

/-- A status bit raised leaves the fields beside it. -/
theorem jRaise_keepsField {a : Nat} {f g : Fld} (fits : f.lo + f.w ≤ 64) (above : AboveYards a)
    (apart : Apart a f (aJL_STAT j) g) (h : Hw) : KeepsField a f h (jRaise h j g) := by
  have raised : KeepsField a f h (raiseBit h (aJL_STAT j) g) := raiseBit_keepsField fits apart h
  unfold jRaise
  split
  · exact raised
  · exact raised.trans ((raiseEventAll_below (by omega) _).keepsField above)

theorem isSet_jRaise (h : Hw) {f : Fld} (bit : f.w = 1) (fits : f.lo < 64) : isSet (jRaise h j f) (aJL_STAT j) f = true := by
  have raised : isSet (raiseBit h (aJL_STAT j) f) (aJL_STAT j) f = true := isSet_raiseBit h _ bit fits
  unfold jRaise
  split
  · exact raised
  · exact ((raiseEventAll_below (by omega) _).keepsField (stat_above j)).isSet.trans raised

end

section
variable {d : Nat} (dir : d < 8)
include dir

theorem jSetUp_statusOnly (h : Hw) (on : Bool) : StatusOnly h (jSetUp h d on) := by
  unfold jSetUp
  split
  · exact ⟨.same h, fun _ _ => rfl⟩
  · exact (setF_statusOnly h _ _ _).trans (raiseEventAll_below (by omega) _).statusOnly

/-- A direction set up or down leaves the fields beside its bit. -/
theorem jSetUp_keepsField {a : Nat} {f : Fld} (fits : f.lo + f.w ≤ 64) (above : AboveYards a)
    (apart : Apart a f (aJL_STAT (d / 2)) (upFld d)) (h : Hw) (on : Bool) : KeepsField a f h (jSetUp h d on) := by
  unfold jSetUp
  split
  · exact rfl
  · exact (setF_keepsField fits apart h _).trans ((raiseEventAll_below (by omega) _).keepsField above)

theorem jUp_jSetUp (h : Hw) : jUp (jSetUp h d true) d = true := by
  unfold jSetUp
  split
  · assumption
  · have bit : (upFld d).w = 1 ∧ (upFld d).lo < 64 := by
      unfold upFld
      split
      · decide
      · decide
    exact ((raiseEventAll_below (by omega) _).keepsField (stat_above _)).isSet.trans (isSet_setF_one h _ bit.1 bit.2)

end

end Sys2Proof.Machine
end

section
/-!
PROOF. SYSREF edges: what an edge at one direction leaves of the others, and where an armed direction's boundary falls (R286,
R287).
-/

namespace Sys2Proof.Machine

theorem jdir_setJdir_same (h : Hw) (d : Nat) (x : JDir) : jdir (setJdir h d x) d = x := getD_setD_same _ _ _ _

theorem jdir_setJdir_ne (h : Hw) {d e : Nat} (x : JDir) (other : e ≠ d) : jdir (setJdir h d x) e = jdir h e :=
  getD_setD_ne _ _ _ other

/-- Of time, directions and registers above the yards' only direction d, status and second counts differ. -/
def EdgeOnly (d : Nat) (h t : Hw) : Prop :=
  t.aclk = h.aclk ∧ (∀ e, e ≠ d → jdir t e = jdir h e) ∧ ∀ a, OffStatus a → reg t a = reg h a

theorem EdgeOnly.same (d : Nat) (h : Hw) : EdgeOnly d h h := ⟨rfl, fun _ _ => rfl, fun _ _ => rfl⟩

theorem EdgeOnly.trans {d : Nat} {a b c : Hw} (h1 : EdgeOnly d a b) (h2 : EdgeOnly d b c) : EdgeOnly d a c :=
  ⟨h2.1.trans h1.1, fun e other => (h2.2.1 e other).trans (h1.2.1 e other), fun k off => (h2.2.2 k off).trans (h1.2.2 k off)⟩

theorem StatusOnly.edgeOnly {h t : Hw} (status : StatusOnly h t) (d : Nat) : EdgeOnly d h t :=
  ⟨status.1.aclk, fun e _ => status.1.jdir e, status.2⟩

theorem setJdir_edgeOnly (h : Hw) (d : Nat) (x : JDir) : EdgeOnly d h (setJdir h d x) :=
  ⟨rfl, fun _ other => jdir_setJdir_ne h x other, fun _ _ => rfl⟩

/-- A direction whose boundary an edge has set, `OFS` cycles later. -/
def edgeAligned (h : Hw) (d : Nat) : JDir :=
  { jdir h d with armed := false, bnd := some (h.aclk + getF h (aJsr d) fJL_RXSR_OFS) }

/-- The direction takes the edge and shows its lock. -/
def edgeTaken (h : Hw) (d : Nat) : Hw := raiseBit (setJdir h d (edgeAligned h d)) (aJL_STAT (d / 2)) (srlkFld d)

/-- The direction counts an edge that it misses. -/
def edgeMissed (h : Hw) (d : Nat) : Hw :=
  bump (jRaise h (d / 2) fJL_STAT_SRMISS) (aJL_CNT2 (d / 2)) fJL_CNT2_SRMISSCNT 1

theorem jdir_edgeTaken (h : Hw) (d : Nat) : jdir (edgeTaken h d) d = edgeAligned h d :=
  ((raiseBit_statusOnly _ _ _).1.jdir d).trans (jdir_setJdir_same h d _)

theorem edgeTaken_only (h : Hw) (d : Nat) : EdgeOnly d h (edgeTaken h d) :=
  (setJdir_edgeOnly h d _).trans ((raiseBit_statusOnly _ _ _).edgeOnly d)

theorem sysrefDir_armed {h : Hw} {d : Nat} (armed : (jdir h d).armed = true) : sysrefDir h d = edgeTaken h d := if_pos armed

section
variable {d : Nat} (dir : d < 8)
include dir

theorem edgeMissed_status (h : Hw) : StatusOnly h (edgeMissed h d) :=
  (jRaise_statusOnly (by omega) h _).trans (bump_statusOnly _ _ _ _)

theorem getF_jsr_edgeMissed (h : Hw) (f : Fld) : getF (edgeMissed h d) (aJsr d) f = getF h (aJsr d) f :=
  getF_of_reg ((edgeMissed_status dir h).2 _ (jsr_offStatus d)) f

/-- A direction in continuous mode that an edge misses by more than its tolerance counts it, and without `REALIGN` does no
more. -/
theorem sysrefDir_missed {h : Hw} {b p x : Nat} (idle : (jdir h d).armed = false) (aligned : (jdir h d).bnd = some b)
    (continuous : getF h (aJsr d) fJL_RXSR_MODE ≠ 0) (period : p = jPeriod h d) (runs : p ≠ 0)
    (off : x = (toBoundary p b h.aclk + p - getF h (aJsr d) fJL_RXSR_OFS % p) % p)
    (far : getF h (aJsr d) fJL_RXSR_TOL < min x (p - x)) (stays : getF h (aJsr d) fJL_RXSR_REALIGN ≠ 1) :
    sysrefDir h d = edgeMissed h d := by
  subst period off
  unfold sysrefDir
  dsimp only
  rw [if_neg (Bool.eq_false_iff.mp idle), aligned]
  dsimp only
  rw [if_neg (not_or.mpr ⟨continuous, runs⟩), if_neg (Nat.not_le.mpr far)]
  exact if_neg ((getF_jsr_edgeMissed dir h _).symm ▸ stays)

theorem sysrefDir_only (h : Hw) : EdgeOnly d h (sysrefDir h d) := by
  have missed : EdgeOnly d h (edgeMissed h d) := (edgeMissed_status dir h).edgeOnly d
  unfold sysrefDir
  dsimp only
  split
  · exact edgeTaken_only h d
  · split
    · exact .same d h
    · split
      · exact .same d h
      · split
        · exact .same d h
        · split
          · exact (missed.trans ((setJdir_edgeOnly _ d _).trans ((raiseBit_statusOnly _ _ _).edgeOnly d))).trans
              ((jSetUp_statusOnly dir _ _).edgeOnly d)
          · exact missed

end

/-- What a direction reads: the time, itself and the registers of SYSREF. -/
def EdgesLeave (d : Nat) (h t : Hw) : Prop :=
  t.aclk = h.aclk ∧ jdir t d = jdir h d ∧ ∀ a, OffStatus a → reg t a = reg h a

theorem EdgesLeave.trans {d : Nat} {a b c : Hw} (h1 : EdgesLeave d a b) (h2 : EdgesLeave d b c) : EdgesLeave d a c :=
  ⟨h2.1.trans h1.1, h2.2.1.trans h1.2.1, fun k off => (h2.2.2 k off).trans (h1.2.2 k off)⟩

/-- Edges at other directions leave a direction as it is. -/
theorem sysrefDirs_leave {d : Nat} {ds : List Nat} (dirs : ∀ e ∈ ds, e < 8) (others : d ∉ ds) (h : Hw) :
    EdgesLeave d h (applyAll sysrefDir h ds) := by
  refine applyAll_related (R := EdgesLeave d) (fun _ => ⟨rfl, rfl, fun _ _ => rfl⟩) .trans (fun h e mem => ?_) h
  obtain ⟨time, dir, regs⟩ := sysrefDir_only (dirs e mem) h
  exact ⟨time, dir d fun same => others (same ▸ mem), regs⟩

/-- An edge at every direction: each armed one takes it. -/
theorem sysrefDirs_take {d : Nat} (dir : d < 8) {h : Hw} (armed : (jdir h d).armed = true) :
    jdir (applyAll sysrefDir h (List.range 8)) d = edgeAligned h d := by
  obtain ⟨before, after, parts⟩ := List.append_of_mem (List.mem_range.mpr dir)
  have once : (before ++ d :: after).Nodup := parts ▸ List.nodup_range
  have dirs : ∀ e ∈ before ++ d :: after, e < 8 := fun e mem => List.mem_range.mp (parts ▸ mem)
  obtain ⟨-, ⟨notAfter, -⟩, apart⟩ : before.Nodup ∧ (d ∉ after ∧ after.Nodup) ∧ _ := by
    simpa [List.nodup_append] using once
  have notBefore : d ∉ before := fun mem => apart d mem |>.1 rfl
  obtain ⟨time, same, regs⟩ := sysrefDirs_leave (fun e mem => dirs e (List.mem_append_left _ mem)) notBefore h
  obtain ⟨-, kept, -⟩ := sysrefDirs_leave
    (fun e mem => dirs e (List.mem_append_right _ (List.mem_cons_of_mem d mem))) notAfter
    (sysrefDir (applyAll sysrefDir h before) d)
  rw [parts, applyAll, List.foldl_append, List.foldl_cons]
  refine kept.trans ?_
  rw [sysrefDir_armed (same.symm ▸ armed), jdir_edgeTaken, edgeAligned, same, time, getF_of_reg (regs _ (jsr_offStatus d)),
    edgeAligned]

/-- The time that a SYSREF edge is stamped with (R286). -/
def edgeTime (h : Hw) : BitVec 64 := BitVec.ofNat 64 (h.tb.ns + h.tb.sec % 2 ^ 32 * 2 ^ 32)

/-- The links with the time of an edge stamped. -/
def edgeStamped (h : Hw) : Hw := applyAll (fun t j => setReg t (aJL_SRTS j) (edgeTime h)) h (List.range 4)

theorem srts_injective {j k : Nat} (other : j ≠ k) : aJL_SRTS j ≠ aJL_SRTS k := by
  unfold aJL_SRTS
  omega

theorem jsr_ne_srts (d j : Nat) : aJsr d ≠ aJL_SRTS j := by
  unfold aJsr aJL_RXSR aJL_TXSR aJL_SRTS
  split
  · omega
  · omega

theorem edgeStamped_only (h : Hw) : OnlyRegs h (edgeStamped h) := applyAll_only (fun h j => setReg_only h (aJL_SRTS j) _) _ _

theorem edgeStamped_jsr (h : Hw) (d : Nat) : reg (edgeStamped h) (aJsr d) = reg h (aJsr d) :=
  applyAll_kept (g := fun t => reg t (aJsr d)) (fun h j => reg_setReg_ne h _ (jsr_ne_srts d j)) _ h

theorem edgeStamped_srts (h : Hw) {j : Nat} (link : j < 4) : reg (edgeStamped h) (aJL_SRTS j) = edgeTime h := by
  refine applyAll_each (P := fun j t => reg t (aJL_SRTS j) = edgeTime h) (fun t j => reg_setReg_same _ _ _)
    (fun t j k stamped => ?_) (List.mem_range.mpr link) h
  by_cases same : j = k
  · rw [same]
    exact reg_setReg_same _ _ _
  · exact (reg_setReg_ne _ _ (srts_injective same)).trans stamped

section
variable {h : Hw} (live : frozen h = false)
include live

theorem sysref_live : sysref h = applyAll sysrefDir (edgeStamped h) (List.range 8) := if_neg (Bool.eq_false_iff.mp live)

theorem sysref_aligns {d : Nat} (dir : d < 8) (armed : (jdir h d).armed = true) : jdir (sysref h) d = edgeAligned h d := by
  have events : OnlyEvents h (edgeStamped h) := (edgeStamped_only h).events
  rw [sysref_live live, sysrefDirs_take dir ((events.jdir d).symm ▸ armed), edgeAligned, events.jdir, events.aclk,
    getF_of_reg (edgeStamped_jsr h d), edgeAligned]

theorem sysref_stamps {j : Nat} (link : j < 4) : reg (sysref h) (aJL_SRTS j) = edgeTime h := by
  have kept : ∀ t, reg (applyAll sysrefDir t (List.range 8)) (aJL_SRTS j) = reg t (aJL_SRTS j) :=
    applyAll_related (R := fun a b => reg b (aJL_SRTS j) = reg a (aJL_SRTS j)) (fun _ => rfl) (fun h1 h2 => h2.trans h1)
      fun t _ mem => (sysrefDir_only (List.mem_range.mp mem) t).2.2 _ (srts_offStatus j)
  rw [sysref_live live, kept, edgeStamped_srts h link]

end

end Sys2Proof.Machine
end

section
/-!
PROOF. Writes of the SYSREF and control registers of a link over the bus (R287, R306).
-/

namespace Sys2Proof.Machine

/-! ## Where the registers stand (R306) -/

/-- Offset of the SYSREF register of a direction. -/
abbrev jsrOffset (tx : Bool) : Nat := if tx then 0x30 else 0x28

theorem jsr_located : ∀ (j : Fin 4) (tx : Bool), locate (aJsr (dirOf j tx)) = some (Blk.jl, j.val, jsrOffset tx) ∧
    aJsr (dirOf j tx) % 8 = 0 ∧ inShadow (aJsr (dirOf j tx)) = false ∧ rclkHole (aJsr (dirOf j tx)) = false := by decide

theorem ctl_located : ∀ j : Fin 4, locate (aJL_CTL j) = some (Blk.jl, j.val, 0) ∧ aJL_CTL j % 8 = 0 ∧
    inShadow (aJL_CTL j) = false ∧ rclkHole (aJL_CTL j) = false := by decide

theorem writeReg_jsr (m : Sparse Byte) (h : Hw) (j : Fin 4) (tx : Bool) (v : BitVec 64) :
    writeReg m h (aJsr (dirOf j tx)) v = (m, writeJl h j (jsrOffset tx) (aJsr (dirOf j tx)) v.toNat) := by
  obtain ⟨located, aligned, unshadowed, whole⟩ := jsr_located j tx
  cases tx with
  | false => exact writeReg_located v located rfl (by decide) aligned unshadowed whole rfl
  | true => exact writeReg_located v located rfl (by decide) aligned unshadowed whole rfl

theorem writeReg_ctl (m : Sparse Byte) (h : Hw) (j : Fin 4) (v : BitVec 64) :
    writeReg m h (aJL_CTL j) v = (m, writeJl h j 0 (aJL_CTL j) v.toNat) := by
  obtain ⟨located, aligned, unshadowed, whole⟩ := ctl_located j
  exact writeReg_located v located rfl (by decide) aligned unshadowed whole rfl

/-! ## `ARM` (R287) -/

/-- A write that records what it may not change by events alone changes nothing else but registers. -/
theorem writeFree_events {b : Blk} {i o : Nat} {busy : Hw → Hw} (busies : ∀ t, OnlyEvents t (busy t))
    (reserves : ∀ t, OnlyEvents t (rsvVal t b i o)) (h : Hw) (a v : Nat) (free : Fld → Bool) :
    OnlyEvents h (writeFree h b i o a v free busy) := by
  unfold writeFree
  extract_lets old r held h1 h2
  have written : OnlyEvents h h1 := (setReg_only h a _).events
  have noted : OnlyEvents h h2 := by
    unfold h2
    split
    · exact written.trans (reserves h1)
    · exact written
  split
  · exact noted.trans (busies h2)
  · exact noted

/-- A write of a direction's SYSREF register with `ARM` arms it, whatever else the write changes of registers. -/
theorem writeJl_arms {h : Hw} {v : Nat} (arm : fieldOf fJL_RXSR_ARM v = 1) (j : Fin 4) (tx : Bool) (a : Nat) :
    ∃ t, OnlyEvents h t ∧ writeJl h j (jsrOffset tx) a v = jArm t (dirOf j tx) := by
  have written (tx : Bool) : OnlyEvents h (writeFree h .jl j (jsrOffset tx) a v (fun _ => !(jEn h (dirOf j tx)))
      fun t => jRaise t j fJL_STAT_CFGBUSY) :=
    writeFree_events (b := .jl) (i := j) (o := jsrOffset tx) (fun t => (jRaise_statusOnly j.isLt t _).1)
      (fun t => (raiseBit_only t (aJL_STAT j) fJL_STAT_RSVVAL).events) h a v _
  cases tx with
  | false => exact ⟨_, written false, if_pos arm⟩
  | true => exact ⟨_, written true, if_pos arm⟩

theorem jArm_arms {h : Hw} (live : frozen h = false) (d : Nat) : (jdir (jArm h d) d).armed = true := by
  rw [jArm, if_neg (Bool.eq_false_iff.mp live), jdir_setJdir_same]

theorem not_frozen_of_up {s : State} (up : Up s) : frozen s.hw = false := by
  simp [frozen, up.1, up.2]

/-! ## `RXRST` and `TXRST` (R306) -/

theorem fieldOf_oneField_beside (h : Hw) (a : Nat) {f g : Fld} (fits : g.lo + g.w ≤ 64) (beside : Beside f g) (x : Nat) :
    fieldOf g (oneField h a f x).toNat = fieldOf g (keepRw h a) := by
  rw [oneField, BitVec.toNat_ofNat, fieldOf_mod g fits, fieldOf_putField_beside beside]

theorem fieldsOf_ctl (j : Fin 4) :
    fieldsOf (aJL_CTL j) = [fJL_CTL_RXRST, fJL_CTL_TXRST, fJL_CTL_RXSYNCPAD, fJL_CTL_TXSYNCPAD] := by
  have found : findReg (blkRegs .jl) 0 = some (⟨0, 1, 8, fun _ => [fJL_CTL_RXRST, fJL_CTL_TXRST, fJL_CTL_RXSYNCPAD,
    fJL_CTL_TXSYNCPAD]⟩, 0) := rfl
  simp only [fieldsOf, fieldsAt, (ctl_located j).1, found, Option.getD_some]

/-- What a write of `JL_CTL` keeps holds neither reset bit. -/
theorem keepRw_ctl (h : Hw) (j : Fin 4) :
    fieldOf fJL_CTL_RXRST (keepRw h (aJL_CTL j)) = 0 ∧ fieldOf fJL_CTL_TXRST (keepRw h (aJL_CTL j)) = 0 := by
  obtain ⟨rx, tx, kept⟩ : ∃ rx tx, keepRw h (aJL_CTL j) = rx * 2 ^ 8 + tx * 2 ^ 16 :=
    ⟨_, _, by rw [keepRw, fieldsOf_ctl]; exact congrArg (· + _) (Nat.zero_add _)⟩
  rw [kept]
  simp only [fieldOf, fJL_CTL_RXRST, fJL_CTL_TXRST]
  omega

/-- A write of `JL_CTL` with one reset bit resets that direction only. -/
theorem writeJl_resets (h : Hw) (j : Fin 4) (tx : Bool) :
    writeJl h j 0 (aJL_CTL j) (oneField h (aJL_CTL j) (if tx = true then fJL_CTL_TXRST else fJL_CTL_RXRST) 1).toNat =
      jReset (writePlain h .jl j 0 (aJL_CTL j)
        (oneField h (aJL_CTL j) (if tx = true then fJL_CTL_TXRST else fJL_CTL_RXRST) 1).toNat) (dirOf j tx) := by
  obtain ⟨noRx, noTx⟩ := keepRw_ctl h j
  unfold writeJl
  dsimp only
  rw [if_pos rfl]
  cases tx with
  | false =>
    have set := fieldOf_oneField h (aJL_CTL j) (f := fJL_CTL_RXRST) (by decide) 1
    have clear := (fieldOf_oneField_beside h (aJL_CTL j) (f := fJL_CTL_RXRST) (g := fJL_CTL_TXRST) (by decide)
      (by decide) 1).trans noTx
    exact (if_neg (by rw [if_neg (by decide), clear]; decide)).trans (if_pos (by rw [if_neg (by decide), set]; rfl))
  | true =>
    have set := fieldOf_oneField h (aJL_CTL j) (f := fJL_CTL_TXRST) (by decide) 1
    have clear := (fieldOf_oneField_beside h (aJL_CTL j) (f := fJL_CTL_TXRST) (g := fJL_CTL_RXRST) (by decide)
      (by decide) 1).trans noRx
    refine (if_pos (by rw [if_pos rfl, set]; rfl)).trans ?_
    exact congrArg (jReset · _) (if_neg (by rw [if_pos rfl, clear]; decide))

end Sys2Proof.Machine
end

section
/-!
PROOF. Establishment, loss and boundaries of a direction of a JESD link, its samples received, and its pulls and sample slots
(R287 to R294, R335, R432).
-/

namespace Sys2Proof.Machine

theorem dirOf_link (j : Fin 4) (tx : Bool) : dirOf j tx / 2 = j := by
  cases tx with
  | false => exact Nat.mul_div_cancel_left _ (by decide)
  | true => exact (Nat.mul_add_div (by decide) _ _).trans (Nat.add_zero _)

theorem dirOf_lt (j : Fin 4) (tx : Bool) : dirOf j tx < 8 := by
  have bit := Bool.toNat_le tx
  have link := j.isLt
  unfold dirOf
  omega

/-! ## Establishment (R288) -/

/-- The lanes of a direction as bits. -/
def laneMask (h : Hw) (d : Nat) : Nat := (jLanes h d).foldl (fun acc i => acc ||| 2 ^ i) 0

theorem foldl_or_lt {w : Nat} {xs : List Nat} (below : ∀ i ∈ xs, i < w) {acc : Nat} (fits : acc < 2 ^ w) :
    xs.foldl (fun acc i => acc ||| 2 ^ i) acc < 2 ^ w := by
  induction xs generalizing acc with
  | nil => exact fits
  | cons i xs ih =>
    have bit : 2 ^ i < 2 ^ w := Nat.pow_lt_pow_right (by decide) (below i List.mem_cons_self)
    exact ih (fun k mem => below k (List.mem_cons_of_mem i mem)) (Nat.or_lt_two_pow fits bit)

/-- A link has eight lanes. -/
theorem laneMask_lt (h : Hw) (d : Nat) : laneMask h d < 2 ^ 8 := by
  refine foldl_or_lt (fun i mem => ?_) (by decide)
  obtain ⟨k, -, rfl⟩ := List.mem_map.mp mem
  unfold jLane
  split
  · exact Nat.mod_lt _ (Nat.two_pow_pos 3)
  · exact Nat.mod_lt _ (Nat.two_pow_pos 3)

/-- The lanes of a receive direction that locks shown. -/
def locksShown (h : Hw) (d : Nat) : Hw := if d % 2 = 0 then setF h (aJL_STAT (d / 2)) fJL_STAT_RXLOCK (laneMask h d) else h

/-- A 204B receive direction's alignment sequence checked. -/
def ilasShown (h : Hw) (d : Nat) (ilas : Bool) : Hw :=
  if d % 2 = 0 ∧ jIsB h d ∧ ¬ ilas then jRaise (locksShown h d) (d / 2) fJL_STAT_ILASERR else locksShown h d

/-- A direction that is established in this cycle. -/
def established (h : Hw) (d : Nat) : JDir := { jdir h d with half := none, blk := 0, place := 0, since := h.aclk }

theorem upFld_receive {d : Nat} (receive : d % 2 = 0) : upFld d = fJL_STAT_RXUP := if_pos receive

section
variable {h : Hw} {d : Nat} {ilas : Bool}

theorem jEstablish_idle (idle : jEn h d = false ∨ jUp h d = true) : jEstablish h d ilas = h :=
  if_pos (.inr (idle.imp_left Bool.eq_false_iff.mp))

section
variable (live : frozen h = false) (enabled : jEn h d = true) (down : jUp h d = false)
include live enabled down

theorem jEstablish_refused (bad : jCfgOk h d = false ∨ syncOk h d = false) : jEstablish h d ilas = jDownErr h d :=
  (if_neg (by simp [live, enabled, down])).trans (if_pos (bad.imp Bool.eq_false_iff.mp Bool.eq_false_iff.mp))

theorem jEstablish_up (valid : jCfgOk h d = true) (sync : syncOk h d = true) : jEstablish h d ilas =
    jSetUp (setJdir (ilasShown h d ilas) d (established (ilasShown h d ilas) d)) d true :=
  (if_neg (by simp [live, enabled, down])).trans (if_neg (by simp [valid, sync]))

end

section
variable (dir : d < 8)
include dir

theorem ilasShown_events : OnlyEvents h (ilasShown h d ilas) := by
  have locked : OnlyEvents h (locksShown h d) := by
    unfold locksShown
    split
    · exact (setF_only h _ _ _).events
    · exact .same h
  unfold ilasShown
  split
  · exact locked.trans (jRaise_statusOnly (by omega) _ _).1
  · exact locked

/-- The direction that an establishment leaves. -/
theorem jdir_establish : jdir (jSetUp (setJdir (ilasShown h d ilas) d (established (ilasShown h d ilas) d)) d true) d =
    established h d := by
  have shown : OnlyEvents h (ilasShown h d ilas) := ilasShown_events dir
  rw [(jSetUp_statusOnly dir _ true).1.jdir, jdir_setJdir_same, established, shown.jdir, shown.aclk, established]

/-- A direction set up leaves the fields of its status beside its own bit. -/
theorem establish_keepsStatus {f : Fld} (fits : f.lo + f.w ≤ 64) (beside : Beside (upFld d) f) (x : JDir) :
    KeepsField (aJL_STAT (d / 2)) f (ilasShown h d ilas) (jSetUp (setJdir (ilasShown h d ilas) d x) d true) :=
  KeepsField.trans (t := setJdir (ilasShown h d ilas) d x) (keepsField_of_regs rfl)
    (jSetUp_keepsField dir fits (stat_above _) (.inr beside) _ true)

section
variable (receive : d % 2 = 0)
include receive

theorem locks_establish (x : JDir) :
    getF (jSetUp (setJdir (ilasShown h d ilas) d x) d true) (aJL_STAT (d / 2)) fJL_STAT_RXLOCK = laneMask h d := by
  have locked : getF (locksShown h d) (aJL_STAT (d / 2)) fJL_STAT_RXLOCK = laneMask h d := by
    rw [locksShown, if_pos receive, getF_setF_same h _ (by decide)]
    exact Nat.mod_eq_of_lt (laneMask_lt h d)
  have shown : KeepsField (aJL_STAT (d / 2)) fJL_STAT_RXLOCK (locksShown h d) (ilasShown h d ilas) := by
    unfold ilasShown
    split
    · exact jRaise_keepsField (by omega) (by decide) (stat_above _) (.inr (by decide)) _
    · exact rfl
  have up := establish_keepsStatus (h := h) (ilas := ilas) dir (f := fJL_STAT_RXLOCK) (by decide)
    (by rw [upFld_receive receive]; decide) x
  exact (Eq.trans up shown).trans locked

theorem ilasErr_establish (b : jIsB h d = true) (bad : ilas = false) (x : JDir) :
    isSet (jSetUp (setJdir (ilasShown h d ilas) d x) d true) (aJL_STAT (d / 2)) fJL_STAT_ILASERR = true := by
  have raised : isSet (ilasShown h d ilas) (aJL_STAT (d / 2)) fJL_STAT_ILASERR = true := by
    rw [ilasShown, if_pos ⟨receive, b, by simp [bad]⟩]
    exact isSet_jRaise (by omega) _ rfl (by decide)
  have up := establish_keepsStatus (h := h) (ilas := ilas) dir (f := fJL_STAT_ILASERR) (by decide)
    (by rw [upFld_receive receive]; decide) x
  exact up.isSet.trans raised

end

end

/-! ## Lanes lost (R289, R293) -/

theorem jLoss_idle {lane : Nat}
    (idle : jEn h d = false ∨ (jLanes h d).contains lane = false ∨ (d % 2 = 1 ∧ jIsB h d = false)) : jLoss h d lane = h :=
  if_pos (.inr (idle.imp Bool.eq_false_iff.mp (Or.imp Bool.eq_false_iff.mp (And.imp_right Bool.eq_false_iff.mp))))

end

/-- The lock of a receive lane cleared, for a direction that receives. -/
def lockLost (h : Hw) (d lane : Nat) : Hw :=
  if d % 2 = 0 then setF h (aJL_STAT (d / 2)) fJL_STAT_RXLOCK (getF h (aJL_STAT (d / 2)) fJL_STAT_RXLOCK &&& (0xFF - 2 ^ lane))
  else h

/-- A lost lane shown, and counted as a code-group error on a 204B receive lane. -/
def lossShown (h : Hw) (d lane : Nat) : Hw :=
  if jIsB h d ∧ d % 2 = 0 then bump (lockLost h d lane) (aJL_CNT (d / 2)) fJL_CNT_CGERR 1 else lockLost h d lane

theorem lossShown_only (h : Hw) (d lane : Nat) : OnlyRegs h (lossShown h d lane) := by
  have locked : OnlyRegs h (lockLost h d lane) := by
    unfold lockLost
    split
    · exact setF_only h _ _ _
    · exact .same h
  unfold lossShown
  split
  · exact locked.trans (bump_only _ _ _ _)
  · exact locked

/-- A direction that notices the loss of a lane in use goes down. -/
theorem jLoss_notices {h : Hw} {d lane : Nat} (live : frozen h = false) (enabled : jEn h d = true)
    (used : (jLanes h d).contains lane = true) (notices : ¬ (d % 2 = 1 ∧ ¬ jIsB h d = true)) :
    jLoss h d lane = jSetUp (setJdir (lossShown h d lane) d (blockDropped (jdir h d))) d false := by
  rw [← (lossShown_only h d lane).events.jdir d]
  refine if_neg ?_
  rw [live, enabled, used]
  simpa using notices

section
variable {h : Hw} {j lane : Nat} (live : frozen h = false)
include live

theorem jLoss_transmit (enabled : jEn h (2 * j + 1) = true) (used : (jLanes h (2 * j + 1)).contains lane = true)
    (b : jIsB h (2 * j + 1) = true) : jLoss h (2 * j + 1) lane =
      jSetUp (setJdir h (2 * j + 1) (blockDropped (jdir h (2 * j + 1)))) (2 * j + 1) false := by
  have odd : (2 * j + 1) % 2 ≠ 0 := by omega
  rw [jLoss_notices live enabled used fun idle => idle.2 b, lossShown, if_neg fun rx => odd rx.2, lockLost, if_neg odd]

section
variable (enabled : jEn h (2 * j) = true) (used : (jLanes h (2 * j)).contains lane = true)
include enabled used

theorem jLoss_receive : jLoss h (2 * j) lane =
    jSetUp (setJdir (lossShown h (2 * j) lane) (2 * j) (blockDropped (jdir h (2 * j)))) (2 * j) false :=
  jLoss_notices live enabled used fun idle => by omega

theorem jLoss_receiveC (c : jIsB h (2 * j) = false) : jLoss h (2 * j) lane = jSetUp (setJdir (setF h (aJL_STAT j)
    fJL_STAT_RXLOCK (getF h (aJL_STAT j) fJL_STAT_RXLOCK &&& (0xFF - 2 ^ lane))) (2 * j) (blockDropped (jdir h (2 * j))))
      (2 * j) false := by
  rw [jLoss_receive live enabled used, lossShown, if_neg fun rx => Bool.eq_false_iff.mp c rx.1, lockLost,
    if_pos (Nat.mul_mod_right 2 j), Nat.mul_div_cancel_left j (by decide)]

theorem jLoss_receiveB (b : jIsB h (2 * j) = true) : jLoss h (2 * j) lane = jSetUp (setJdir (bump (setF h (aJL_STAT j)
    fJL_STAT_RXLOCK (getF h (aJL_STAT j) fJL_STAT_RXLOCK &&& (0xFF - 2 ^ lane))) (aJL_CNT j) fJL_CNT_CGERR 1) (2 * j)
      (blockDropped (jdir h (2 * j)))) (2 * j) false := by
  rw [jLoss_receive live enabled used, lossShown, if_pos ⟨b, Nat.mul_mod_right 2 j⟩, lockLost,
    if_pos (Nat.mul_mod_right 2 j), Nat.mul_div_cancel_left j (by decide)]

end

end

/-! ## Boundaries (R291) -/

section
variable {h : Hw} {d : Nat}

theorem jBoundary_idle (none_ : jAtBoundary h d = false) : jBoundary h d = h := if_pos (.inr (Bool.eq_false_iff.mp none_))

theorem jBoundary_falls (live : frozen h = false) (falls : jAtBoundary h d = true) :
    jBoundary h d = raiseEventAll (boundaryMet h d) (0xC0 + 4 * (d / 2) + d % 2) := if_neg (by simp [live, falls])

end

/-! ## Samples received (R288, R290 to R293) -/

theorem crcCounted_failed {h : Hw} {j : Nat} {bad : BitVec 8} (checks : jField h (2 * j) fJL_RXCFG_CRC = 1)
    (c : jIsB h (2 * j) = false) (failed : bad &&& BitVec.ofNat 8 (2 ^ jL h (2 * j) - 1) ≠ 0) : crcCounted h j bad =
      raiseAlarm (bump (jRaise h j fJL_STAT_CRCERR) (aJL_CNT j) fJL_CNT_CRCCNT 1) 0x141 (jesdRouter j) 0 j :=
  if_neg (by rwa [failedLanes, if_pos ⟨checks, Bool.eq_false_iff.mp c⟩])

/-- Room of the receive buffer of a link in words (R292). -/
abbrev bufferRoom (h : Hw) (j : Nat) : Nat := 1024 - pushesWaiting h (jesdRouter j)

/-- Words pushed to the trough of a link. -/
def wordsPushed (h : Hw) (j : Nat) (ws : List TW) : Hw :=
  queuePushes h (jesdRouter j) (getF h (aJL_TRG j) fJL_TRG_RXPEN) (getF h (aJL_TRG j) fJL_TRG_RXTRG) ws.length ws

/-- Words of a link lost for want of room. -/
def wordsLost (h : Hw) (j n : Nat) : Hw :=
  if n = 0 then h else bump (jRaise h j fJL_STAT_RXOVF) (aJL_CNT2 j) fJL_CNT2_RXOVFCNT n

/-- The words of a link that its buffer has room for are pushed, and the others lost. -/
def wordsReceived (h : Hw) (j : Nat) (ws : List TW) : Hw :=
  wordsPushed (wordsLost h j (ws.length - (ws.take (bufferRoom h j)).length)) j (ws.take (bufferRoom h j))

theorem wordsReceived_all {h : Hw} {j : Nat} {ws : List TW} (fits : ws.length ≤ bufferRoom h j) :
    wordsReceived h j ws = wordsPushed h j ws := by
  rw [wordsReceived, List.take_of_length_le fits, Nat.sub_self, wordsLost, if_pos rfl]

theorem wordsReceived_lost {h : Hw} {j : Nat} {ws : List TW} (exceeds : bufferRoom h j < ws.length) : wordsReceived h j ws =
    wordsPushed (bump (jRaise h j fJL_STAT_RXOVF) (aJL_CNT2 j) fJL_CNT2_RXOVFCNT (ws.length - bufferRoom h j)) j
      (ws.take (bufferRoom h j)) := by
  rw [wordsReceived, List.length_take_of_le (Nat.le_of_lt exceeds), wordsLost, if_neg (Nat.sub_ne_zero_of_lt exceeds)]

theorem jRxData_idle {h : Hw} {j : Nat} (idle : jEn h (2 * j) = false ∨ jUp h (2 * j) = false ∨ jReleases h (2 * j) = false)
    (xs : List (BitVec 32 × BitVec 32)) (bad : BitVec 8) : jRxData h j xs bad = h :=
  if_pos (.inr (idle.imp Bool.eq_false_iff.mp (Or.imp Bool.eq_false_iff.mp Bool.eq_false_iff.mp)))

/-- A direction that is up and releases its samples receives the words formed from them. -/
theorem jRxData_releases {h : Hw} {j : Fin 4} (live : frozen h = false) (enabled : jEn h (2 * j.val) = true)
    (up : jUp h (2 * j.val) = true) (releases : jReleases h (2 * j.val) = true) (xs : List (BitVec 32 × BitVec 32))
    (bad : BitVec 8) : jRxData h j xs bad = wordsReceived (setJdir (crcCounted h j bad) (2 * j.val)
      (afterWords h j (rxWords h j xs bad).2 (rxWords h j xs bad).1.length xs.length)) j (rxWords h j xs bad).1 :=
  if_neg (by simp [live, enabled, up, releases])

/-! ## Pulls and sample slots (R294, R335, R432) -/

section
variable {h : Hw} {j : Fin 4}

theorem jTxPull_idle (idle : jEn h (2 * j.val + 1) = false ∨
    256 ≤ (jdir h (2 * j.val + 1)).buf.length + pullsAsked h (jesdRouter j)) : jTxPull h j = h :=
  if_pos (.inr (idle.imp Bool.eq_false_iff.mp fun full => by omega))

theorem jTxPull_asks (live : frozen h = false) (enabled : jEn h (2 * j.val + 1) = true)
    (room : 256 - (jdir h (2 * j.val + 1)).buf.length - pullsAsked h (jesdRouter j) ≠ 0) : jTxPull h j =
      queueRequest h (pullOf h j (min 8 (256 - (jdir h (2 * j.val + 1)).buf.length - pullsAsked h (jesdRouter j)))) :=
  if_neg (by simp only [live, enabled, room]; simp)

theorem jTxSample_idle (idle : jEn h (2 * j.val + 1) = false ∨ jUp h (2 * j.val + 1) = false) : jTxSample h j = h :=
  if_pos (.inr (idle.imp Bool.eq_false_iff.mp Bool.eq_false_iff.mp))

section
variable (live : frozen h = false) (enabled : jEn h (2 * j.val + 1) = true) (up : jUp h (2 * j.val + 1) = true)
include live enabled up

theorem not_jTxSample_idle : ¬ (frozen h = true ∨ ¬ jEn h (2 * j.val + 1) = true ∨ ¬ jUp h (2 * j.val + 1) = true) := by
  simp [live, enabled, up]

theorem jTxSample_muted (muted : isSet h (aJL_STAT j) fJL_STAT_MUTED = true) : jTxSample h j =
    slotsSent h (2 * j.val + 1) ((jdir h (2 * j.val + 1)).buf.drop 1) (zeroSlots h (2 * j.val + 1)) :=
  (if_neg (not_jTxSample_idle live enabled up)).trans (if_pos muted)

variable (audible : isSet h (aJL_STAT j) fJL_STAT_MUTED = false)
include audible

theorem jTxSample_blanked (blank : h.fab.blank.getLsbD j = true) : jTxSample h j = blankSent h (2 * j.val + 1) :=
  (if_neg (not_jTxSample_idle live enabled up)).trans ((if_neg (Bool.eq_false_iff.mp audible)).trans (if_pos blank))

variable (shows : h.fab.blank.getLsbD j = false)
include shows

theorem jTxSample_gap (gap : (jdir h (2 * j.val + 1)).buf = []) : jTxSample h j =
    slotsSent (bump (jRaise h j fJL_STAT_TXGAP) (aJL_CNT2 j) fJL_CNT2_TXGAPCNT (perWord h (2 * j.val + 1))) (2 * j.val + 1) []
      (zeroSlots h (2 * j.val + 1)) := by
  refine (if_neg (not_jTxSample_idle live enabled up)).trans ((if_neg (Bool.eq_false_iff.mp audible)).trans
    ((if_neg (Bool.eq_false_iff.mp shows)).trans ?_))
  rw [gap]
  rfl

/-- The word at the head of the buffer waits for its boundary, is sent as zeros for its poison, or as its samples. -/
theorem jTxSample_word {w : TW} {ws : List TW} (next : (jdir h (2 * j.val + 1)).buf = w :: ws) :
    jTxSample h j =
      if jField h (2 * j.val + 1) fJL_RXCFG_ALIGN = 1 ∧ w.f = true ∧ ¬ (jdir h (2 * j.val + 1)).go = true then
        slotsSent h (2 * j.val + 1) (w :: ws) (zeroSlots h (2 * j.val + 1))
      else if w.p = true then slotsSent (poisonSent h j) (2 * j.val + 1) ws (zeroSlots h (2 * j.val + 1))
      else slotsSent h (2 * j.val + 1) ws (wireSamples h (2 * j.val + 1) w.d) := by
  refine (if_neg (not_jTxSample_idle live enabled up)).trans ((if_neg (Bool.eq_false_iff.mp audible)).trans
    ((if_neg (Bool.eq_false_iff.mp shows)).trans ?_))
  rw [next]
  rfl

end

/-- A word that does not begin a block, or whose boundary has come, does not wait. -/
theorem not_waiting {a : Nat} {first go : Bool} (goes : a ≠ 1 ∨ first = false ∨ go = true) :
    ¬ (a = 1 ∧ first = true ∧ ¬ go = true) := by
  rintro ⟨aligns, begins, stays⟩
  simp [aligns, begins, stays] at goes

end

end Sys2Proof.Machine

open Sys2Proof Sys2Proof.Machine

/-- Settles O36: an edge reaches each direction after others that leave it alone, an establishment's bits stand beside each
other, and every other clause is a branch of its definition. -/
theorem jesdLinksAct : Obligations.JesdLinksAct := by
  refine ⟨?edge, ?missed, ?arm, ?reset, ?establish, ?refused, ?noEstablish, ?lossTx, ?lossRx, ?lossRxB, ?noLoss, ?boundary,
    ?noBoundary, ?crc, ?noData, ?data, ?overflow, ?pull, ?noPull, ?noSample, ?muted, ?blanked, ?gap, ?waits, ?poison, ?sample⟩
  case edge =>
    intro s live
    refine ⟨_, rfl, fun d armed => ?_, fun j => sysref_stamps live j.isLt⟩
    have aligned : jdir (sysref s.hw) d = edgeAligned s.hw d := sysref_aligns live d.isLt armed
    exact ⟨congrArg JDir.bnd aligned, congrArg JDir.armed aligned⟩
  case missed =>
    exact fun h d b p x idle aligned continuous period runs off far stays =>
      sysrefDir_missed d.isLt idle aligned continuous period runs off far stays
  case arm =>
    intro j tx s up
    obtain ⟨t, events, arms⟩ := writeJl_arms (h := s.hw) (fieldOf_oneField s.hw (aJsr (dirOf j tx)) (by decide) 1) j tx
      (aJsr (dirOf j tx))
    refine ⟨_, rfl, ?_⟩
    change (jdir (busWrite s.mem s.hw (aJsr (dirOf j tx)) (oneField s.hw (aJsr (dirOf j tx)) fJL_RXSR_ARM 1)).2 _).armed = true
    rw [busWrite_up up.1 up.2, writeReg_jsr, arms]
    exact jArm_arms (events.frozen.trans (not_frozen_of_up up)) _
  case reset =>
    exact fun j tx s up => givesHw_busWrite up rfl ((writeReg_ctl s.mem s.hw j _).trans (congrArg _ (writeJl_resets s.hw j tx)))
  case establish =>
    intro j tx ilas s live enabled down valid sync
    have dir := dirOf_lt j tx
    have is := jEstablish_up (ilas := ilas) live enabled down valid sync
    have left := jdir_establish (h := s.hw) (ilas := ilas) dir
    refine ⟨_, rfl, rfl, ?_⟩
    rw [onHw_hw]
    change jUp (jEstablish s.hw (dirOf j tx) ilas) _ = true ∧ _
    rw [is, left, ← dirOf_link j tx]
    refine ⟨jUp_jSetUp dir _, rfl, rfl, rfl, ?_, ?_⟩
    · rintro rfl
      exact locks_establish dir (Nat.mul_mod_right 2 j) _
    · rintro ⟨rfl, b, bad⟩
      exact ilasErr_establish dir (Nat.mul_mod_right 2 j) b bad _
  case refused => exact fun j tx ilas s live enabled down bad => givesHw_onHw rfl (jEstablish_refused live enabled down bad)
  case noEstablish => exact fun j tx ilas s idle => givesHw_onHw rfl (jEstablish_idle idle)
  case lossTx => exact fun j lane s live enabled used b => givesHw_onHw rfl (jLoss_transmit live enabled used b)
  case lossRx =>
    exact fun j lane s live enabled used c => givesHw_onHw rfl (jLoss_receiveC live enabled used c)
  case lossRxB =>
    exact fun j lane s live enabled used b => givesHw_onHw rfl (jLoss_receiveB live enabled used b)
  case noLoss =>
    exact fun j tx lane s idle => givesHw_onHw rfl (jLoss_idle (idle.imp_right (Or.imp_right fun
      | ⟨transmit, c⟩ => ⟨by rw [transmit]; exact Nat.mul_add_mod 2 j 1, c⟩)))
  case boundary => exact fun j tx s live falls => givesHw_onHw rfl (jBoundary_falls live falls)
  case noBoundary => exact fun j tx s none_ => givesHw_onHw rfl (jBoundary_idle none_)
  case crc => exact fun h j bad checks c failed => crcCounted_failed checks c failed
  case noData => exact fun j xs bad s idle => givesHw_onHw rfl (jRxData_idle idle xs bad)
  case data =>
    rintro j xs bad _ ws half s live enabled up releases words rfl fits
    have is := jRxData_releases live enabled up releases xs bad
    rw [words] at is
    exact givesHw_onHw rfl (is.trans (wordsReceived_all fits))
  case overflow =>
    rintro j xs bad _ ws half s live enabled up releases words rfl exceeds
    have is := jRxData_releases live enabled up releases xs bad
    rw [words] at is
    exact givesHw_onHw rfl (is.trans (wordsReceived_lost exceeds))
  case pull =>
    rintro j _ s live enabled rfl room
    exact givesHw_onHw rfl (jTxPull_asks live enabled room)
  case noPull => exact fun j s idle => givesHw_onHw rfl (jTxPull_idle idle)
  case noSample => exact fun j s idle => givesHw_onHw rfl (jTxSample_idle idle)
  case muted => exact fun j s live enabled up muted => givesHw_onHw rfl (jTxSample_muted live enabled up muted)
  case blanked =>
    exact fun j s live enabled up audible blank => givesHw_onHw rfl (jTxSample_blanked live enabled up audible blank)
  case gap =>
    exact fun j s live enabled up audible shows gap => givesHw_onHw rfl (jTxSample_gap live enabled up audible shows gap)
  case waits =>
    exact fun j w ws s live enabled up audible shows next aligns first stays => givesHw_onHw rfl
      ((jTxSample_word live enabled up audible shows next).trans (if_pos ⟨aligns, first, Bool.eq_false_iff.mp stays⟩))
  case poison =>
    exact fun j w ws s live enabled up audible shows next goes poisoned => givesHw_onHw rfl
      ((jTxSample_word live enabled up audible shows next).trans ((if_neg (not_waiting goes)).trans (if_pos poisoned)))
  case sample =>
    exact fun j w ws s live enabled up audible shows next goes clean => givesHw_onHw rfl
      ((jTxSample_word live enabled up audible shows next).trans
        ((if_neg (not_waiting goes)).trans (if_neg (Bool.eq_false_iff.mp clean))))
end

section
/-!
PROOF. Registers of the Ethernet sub-ports over the bus: where they stand, a write of `ETH_TC` with `FORGIVE`, and a read of
`ETH_TSLO` (R303, R304, R307).
-/

namespace Sys2Proof.Machine

/-! ## Where the registers stand (Table 1.7) -/

theorem locate_mac {m o : Nat} (mac : m < 4) (off : o < 0x10000) :
    locate (0x1009140000 + m * 0x10000 + o) = some (locate.ethSplit m o) := by
  have low : ¬ bar0Base ≤ 0x1009140000 + m * 0x10000 + o := by
    unfold bar0Base
    omega
  have high : ¬ 0x1009140000 + m * 0x10000 + o < regionBase := by
    unfold regionBase
    omega
  have above : ¬ 0x1009140000 + m * 0x10000 + o < regionBase + 0x1000000 := by
    unfold regionBase
    omega
  have block : (0x1009140000 + m * 0x10000 + o - 0x1009000000) / 0x10000 = 0x14 + m := by omega
  have place : (0x1009140000 + m * 0x10000 + o - 0x1009000000) % 0x10000 = o := by omega
  unfold locate
  rw [if_neg low, if_neg high, if_neg above]
  dsimp only
  rw [block, place]
  obtain rfl | rfl | rfl | rfl : m = 0 ∨ m = 1 ∨ m = 2 ∨ m = 3 := by omega
  · rfl
  · rfl
  · rfl
  · rfl

/-- Address of the registers of a sub-port. -/
abbrev portBase (i : Nat) : Nat := 0x1009140000 + (i / 4) * 0x10000 + (i % 4 + 1) * 0x1000

section
variable (m sp : Fin 4)

theorem subPort_mac : subPort m sp / 4 = m ∧ subPort m sp % 4 = sp := by
  unfold subPort
  omega

theorem locate_port {o : Nat} (off : o < 0x1000) : locate (portBase (subPort m sp) + o) = some (.ethp, subPort m sp, o) := by
  obtain ⟨mac, sub⟩ := subPort_mac m sp
  have place : (sp.val + 1) * 0x1000 + o < 0x10000 := by omega
  have which : ((sp.val + 1) * 0x1000 + o) / 0x1000 - 1 = sp := by omega
  have rest : ((sp.val + 1) * 0x1000 + o) % 0x1000 = o := by omega
  have inside : (decide (0x1000 ≤ (sp.val + 1) * 0x1000 + o) && decide ((sp.val + 1) * 0x1000 + o < 0x5000)) = true := by
    simp only [Bool.and_eq_true, decide_eq_true_eq]
    omega
  rw [portBase, mac, sub, Nat.add_assoc, locate_mac m.isLt place, locate.ethSplit, if_pos inside, which, rest]

theorem inShadow_above {a : Nat} (past : aTF_CTL + 0x10000 ≤ a) : inShadow a = false := by
  unfold inShadow
  simp only [Nat.not_lt.mpr past, decide_false, Bool.and_false]

/-- The registers of a sub-port stand above the shadow pages. -/
theorem inShadow_port (o : Nat) : inShadow (portBase (subPort m sp) + o) = false := by
  refine inShadow_above ?_
  unfold portBase aTF_CTL
  omega

/-- No register of a sub-port is `ETH_RCLK`. -/
theorem rclkHole_port {o : Nat} (off : o < 0x1000) : rclkHole (portBase (subPort m sp) + o) = false := by
  obtain ⟨mac, sub⟩ := subPort_mac m sp
  rw [rclkHole, List.any_eq_false]
  intro k _
  rw [beq_iff_eq, portBase, mac, sub]
  unfold aETH_RCLK
  omega

/-! ## `ETH_TC` and `FORGIVE` (R303) -/

/-- The fields of `ETH_TC`. -/
def tcFields : List Fld :=
  [fETH_TC_EN, fETH_TC_SHEN, fETH_TC_FORGIVE, fETH_TC_PEN, fETH_TC_TRG, fETH_TC_RATE, fETH_TC_BURST, fETH_TC_OVH]

theorem tcFields_plain : ∀ f ∈ tcFields, f.acc ≠ .w1c := by decide

theorem findReg_tc (c : Fin 8) :
    findReg (blkRegs .ethp) (0x100 + 8 * c.val) = some (⟨0x100, 8, 8, fun _ => tcFields⟩, c.val) := by
  show findReg regsETHP _ = _
  unfold regsETHP
  rw [findReg_past _ (by dsimp only; omega), findReg_past _ (by dsimp only; omega), findReg_past _ (by dsimp only; omega),
    findReg_past _ (by dsimp only; omega)]
  exact findReg_array _ c.isLt (by decide) (by dsimp only; omega)

theorem writeReg_tc (mem : Sparse Byte) (h : Hw) (c : Fin 8) (v : BitVec 64) : writeReg mem h (aETH_TC (subPort m sp) c) v =
    (mem, writeEthp h (subPort m sp) (0x100 + 8 * c.val) (aETH_TC (subPort m sp) c) v.toNat) := by
  have off : 0x100 + 8 * c.val < 0x1000 := by omega
  have place : aETH_TC (subPort m sp) c = portBase (subPort m sp) + (0x100 + 8 * c.val) := Nat.add_assoc _ _ _
  have aligned : (portBase (subPort m sp) + (0x100 + 8 * c.val)) % 8 = 0 := by
    unfold portBase
    omega
  rw [place]
  exact writeReg_located v (locate_port m sp off) (findReg_tc c) tcFields_plain aligned
    (inShadow_port m sp _) (rclkHole_port m sp off) (if_neg (by omega))

end

section
variable {h : Hw} {i : Nat} {c : Nat}

/-- A write of `ETH_TC` with `FORGIVE` writes its fields and then forgives the class's debt. -/
theorem writeEthp_forgives (cls : c < 8) :
    writeEthp h i (0x100 + 8 * c) (aETH_TC i c) (oneField h (aETH_TC i c) fETH_TC_FORGIVE 1).toNat =
      forgiveDebt (tcWritten h (tcRewritten h i c) i c) i c := by
  have forgives : fieldOf fETH_TC_FORGIVE (oneField h (aETH_TC i c) fETH_TC_FORGIVE 1).toNat = 1 :=
    fieldOf_oneField h (aETH_TC i c) (by decide) 1
  have which : (0x100 + 8 * c - 0x100) / 8 = c := by omega
  unfold writeEthp
  dsimp only
  rw [if_neg (by omega), if_pos (by omega), if_pos forgives, which]
  rfl

theorem tcRewritten_events : OnlyEvents h (tcRewritten h i c) :=
  writeFree_events (b := .ethp) (i := i) (o := 0x100 + 8 * c)
    (fun t => (raiseBit_only t (aETH_PSTAT i) fETH_PSTAT_CFGBUSY).events)
    (fun t => (raiseBit_only t (aETH_PSTAT i) fETH_PSTAT_RSVVAL).events) h _ _ _

theorem tcWritten_only (before : Hw) : OnlyRegs h (tcWritten before h i c) := (setF_only h _ _ _).trans (setF_only _ _ _ _)

theorem forgiveDebt_none (owes : 0 ≤ bucket h i c) : forgiveDebt h i c = h := if_neg fun x => absurd x.2 (Int.not_lt.mpr owes)

theorem forgiveDebt_debt (live : frozen h = false) (owes : bucket h i c < 0) : forgiveDebt h i c = setBucket h i c 0 :=
  if_pos ⟨Bool.eq_false_iff.mp live, owes⟩

end

/-! ## `ETH_TSLO` (R304, R307) -/

theorem busRead_up {h : Hw} (clocked : h.clocked = true) (runs : h.mode ≠ .frozen) (a : Nat) :
    busRead h a = answerRead (readReg h a).2 (leBytes 8 (readReg h a).1.toNat) :=
  (if_neg (not_not_intro clocked)).trans (if_neg runs)

theorem readReg_tslo (h : Hw) (m sp : Fin 4) : readReg h (aETH_TSLO (subPort m sp)) = readTslo h (subPort m sp) := by
  have located : locate (aETH_TSLO (subPort m sp)) = some (.ethp, subPort m sp, 0x300) := locate_port m sp (by decide)
  unfold readReg
  rw [located]
  exact if_pos rfl

section
variable {h : Hw} {i : Nat}

theorem readTslo_empty (empty : getD [] h.eth.fifo i = []) : readTslo h i = (0, h) := by rw [readTslo, empty]

theorem readTslo_pops {e : Nat × Nat × Nat} {es : List (Nat × Nat × Nat)} (oldest : getD [] h.eth.fifo i = e :: es) :
    readTslo h i = (BitVec.ofNat 64 (e.2.1 + e.2.2 * 2 ^ 32 + 2 ^ 48),
      setReg (stampPopped h i es) (aETH_TSHI i) (BitVec.ofNat 64 e.1)) := by
  rw [readTslo, oldest, stampPopped]

end

end Sys2Proof.Machine
end

section
/-!
PROOF. Frames received, by where their head sends them and what the flow's message lacks (R296 to R299, R430).
-/

namespace Sys2Proof.Machine

/-! ## Bytes with bad parity (R430) -/

theorem postFinding_reg (h : Hw) (kind code router addr detail : Nat) {a : Nat} (log : a ≠ aAL_STAT) :
    reg (postFinding h kind code router addr detail) a = reg h a := by
  unfold postFinding
  dsimp only
  split
  · exact reg_of_regs rfl a
  · exact (reg_setF_ne _ _ _ log).trans (reg_of_regs rfl a)

/-- The register that names a flow's trough is none that counts bad parity. -/
theorem parityCount_flow (h : Hw) (i n : Nat) {k : Nat} (flow : k < 64) :
    reg (parityCount h i n) (aETH_RXFLOW1 (i / 4) k) = reg h (aETH_RXFLOW1 (i / 4) k) := by
  have log : aETH_RXFLOW1 (i / 4) k ≠ aAL_STAT := by
    unfold aETH_RXFLOW1 aAL_STAT
    omega
  have count : aETH_RXFLOW1 (i / 4) k ≠ aETH_CNT i 21 := by
    unfold aETH_RXFLOW1 aETH_CNT
    omega
  unfold parityCount
  split
  · rfl
  · exact (postFinding_reg _ _ _ _ _ _ log).trans (reg_setF_ne h _ _ count)

theorem rxFlow_lt {h : Hw} {i ty id k : Nat} {hd : FrameHead} (found : rxFlow h i ty id hd = some k) : k < 64 := by
  unfold rxFlow at found
  exact List.mem_range.mp (List.mem_of_find?_eq_some found)

/-- A frame's flow is one of its MAC's 64. -/
theorem flow_lt {h : Hw} {i k ty : Nat} {bs : List Byte} (cls : classify h i bs = .flow k ty) : k < 64 := by
  unfold classify at cls
  dsimp only at cls
  split at cls
  · cases cls
  · cases cls
  · cases cls
  · split at cls
    · cases cls
    · split at cls
      · rename_i found
        split at found
        · cases cls
          exact rxFlow_lt found
        · cases found
      · cases cls
  · cases cls

/-! ## Requests of a flow (R298) -/

/-- A request of a flow to the trough that its register names in h. -/
def flowRequest (h : Hw) (i k : Nat) (g : Hw) (op : Nat) (ws : List TW) : Hw :=
  queueRequest g (troughReq (macRouter (i / 4)) (getF h (aETH_RXFLOW1 (i / 4) k) fETH_RXFLOW1_PEN)
    (getF h (aETH_RXFLOW1 (i / 4) k) fETH_RXFLOW1_TRG) op ws)

/-- A packet opened in the trough of a flow, with its words. -/
def flowPushes (h : Hw) (i k : Nat) (g : Hw) (ws : List TW) : Hw :=
  queuePushes (flowRequest h i k g 5 []) (macRouter (i / 4)) (getF h (aETH_RXFLOW1 (i / 4) k) fETH_RXFLOW1_PEN)
    (getF h (aETH_RXFLOW1 (i / 4) k) fETH_RXFLOW1_TRG) ws.length ws

theorem queuePushes_regs (h : Hw) (src n k fuel : Nat) (ws : List TW) : (queuePushes h src n k fuel ws).regs = h.regs := by
  induction fuel generalizing h ws with
  | zero => rfl
  | succ fuel ih =>
    unfold queuePushes
    split
    · rfl
    · exact ih _ _

theorem flowPushes_regs (h : Hw) (i k : Nat) (g : Hw) (ws : List TW) : (flowPushes h i k g ws).regs = g.regs :=
  queuePushes_regs _ _ _ _ _ _

/-- The sequence byte of a flow kept. -/
def seqKept (h : Hw) (i k s : Nat) : Hw :=
  { h with eth.rxSeq := insertAt h.eth.rxSeq (64 * (i / 4) + k) (BitVec.ofNat 8 s) }

section
variable {h g : Hw} {i k : Nat}
  (same : ∀ f, getF g (aETH_RXFLOW1 (i / 4) k) f = getF h (aETH_RXFLOW1 (i / 4) k) f)
include same

theorem flowRequest_congr (t : Hw) (op : Nat) (ws : List TW) : flowRequest g i k t op ws = flowRequest h i k t op ws := by
  rw [flowRequest, same, same, flowRequest]

theorem flowPushes_congr (t : Hw) (ws : List TW) : flowPushes g i k t ws = flowPushes h i k t ws := by
  rw [flowPushes, flowRequest_congr same, same, same, flowPushes]

theorem rxAborted_eq (p : List TW × TW × Nat × Bool) (c : Nat) :
    rxAborted g i k p c = flowRequest h i k (ethCount (flowPushes h i k g p.1) i c 1) 7 [] := by
  rw [← flowPushes_congr same, ← flowRequest_congr same]
  rfl

theorem rxCommitted_eq (p : List TW × TW × Nat × Bool) :
    rxCommitted g i k p = seqKept (flowRequest h i k (flowPushes h i k g p.1) 6 [p.2.1]) i k p.2.2.1 := by
  have pushed (f : Fld) : getF (flowPushes h i k g p.1) (aETH_RXFLOW1 (i / 4) k) f = getF h (aETH_RXFLOW1 (i / 4) k) f :=
    (getF_of_reg (reg_of_regs (flowPushes_regs h i k g p.1) _) f).trans (same f)
  have is : rxCommitted g i k p =
      seqKept (flowRequest (flowPushes g i k g p.1) i k (flowPushes g i k g p.1) 6 [p.2.1]) i k p.2.2.1 := rfl
  rw [is, flowPushes_congr same, flowRequest_congr pushed]

end

/-! ## Where a frame goes (R296 to R299) -/

/-- A message accepted: committed, counted where its number leaves a gap, and its frame counted. -/
def messageCommitted (h g : Hw) (i k ty : Nat) (p : List TW × TW × Nat × Bool) (fr : RxFrame) : Hw :=
  flowEvent h (frameCounted (if p.2.2.2 = true then ethCount (rxCommitted g i k p) i 11 1 else rxCommitted g i k p) i fr) i k
    (if ty = 0 then 0xD0 else 0xD1)

/-- A message taken back. -/
def messageAborted (h g : Hw) (i k : Nat) (p : List TW × TW × Nat × Bool) (c : Nat) : Hw :=
  flowEvent h (rxAborted g i k p c) i k 0xD3

/-- A message whose head its flow accepts, on its way into the flow's trough. -/
def messageReceived (h : Hw) (i k ty : Nat) (fr : RxFrame) : Hw :=
  let p := rxPacketOf h i k ty fr
  let g := parityCount h i (parityInside fr)
  match discardOf h i fr with
  | some c => messageAborted h g i k p c
  | none =>
    if ¬ messageOk h (i / 4) k ty (messageOf fr) = true then messageAborted h g i k p 7
    else messageCommitted h g i k ty p fr

/-- A frame of a flow. -/
def flowReceived (h : Hw) (i k ty : Nat) (fr : RxFrame) : Hw :=
  if ¬ addressTaken h i fr = true then ethCount h i ((discardOf h i fr).getD 10) 1
  else if ¬ headerOk (messageOf fr) = true then flowEvent h (ethCount h i ((discardOf h i fr).getD 7) 1) i k 0xD3
  else messageReceived h i k ty fr

/-- A frame that no flow takes, by the counter that discards it, else as its destination has it. -/
def otherReceived (h : Hw) (i : Nat) (fr : RxFrame) (accepted : Hw) : Hw :=
  match discardOf h i fr with
  | some k => ethCount h i k 1
  | none => accepted

section
variable {h : Hw} {i : Nat} {fr : RxFrame}

theorem otherReceived_discarded {k : Nat} (discards : discardOf h i fr = some k) (t : Hw) :
    otherReceived h i fr t = ethCount h i k 1 := by rw [otherReceived, discards]

theorem otherReceived_accepted (accepts : discardOf h i fr = none) (t : Hw) : otherReceived h i fr t = t := by
  rw [otherReceived, accepts]

section
variable {k ty : Nat}

theorem flowReceived_elsewhere (away : addressTaken h i fr = false) :
    flowReceived h i k ty fr = ethCount h i ((discardOf h i fr).getD 10) 1 := if_pos (Bool.eq_false_iff.mp away)

section
variable (here : addressTaken h i fr = true)
include here

theorem flowReceived_badHead (bad : headerOk (messageOf fr) = false) :
    flowReceived h i k ty fr = flowEvent h (ethCount h i ((discardOf h i fr).getD 7) 1) i k 0xD3 :=
  (if_neg (not_not_intro here)).trans (if_pos (Bool.eq_false_iff.mp bad))

variable (head : headerOk (messageOf fr) = true)
include head

theorem flowReceived_message : flowReceived h i k ty fr = messageReceived h i k ty fr :=
  (if_neg (not_not_intro here)).trans (if_neg (not_not_intro head))

theorem flowReceived_discarded {c : Nat} (discards : discardOf h i fr = some c) : flowReceived h i k ty fr =
    messageAborted h (parityCount h i (parityInside fr)) i k (rxPacketOf h i k ty fr) c := by
  rw [flowReceived_message here head, messageReceived, discards]

variable (accepts : discardOf h i fr = none)
include accepts

theorem flowReceived_rejected (bad : messageOk h (i / 4) k ty (messageOf fr) = false) : flowReceived h i k ty fr =
    messageAborted h (parityCount h i (parityInside fr)) i k (rxPacketOf h i k ty fr) 7 := by
  rw [flowReceived_message here head, messageReceived, accepts]
  exact if_pos (Bool.eq_false_iff.mp bad)

theorem flowReceived_committed (good : messageOk h (i / 4) k ty (messageOf fr) = true) : flowReceived h i k ty fr =
    messageCommitted h (parityCount h i (parityInside fr)) i k ty (rxPacketOf h i k ty fr) fr := by
  rw [flowReceived_message here head, messageReceived, accepts]
  exact if_neg (not_not_intro good)

end

end

theorem ethReceive_off (off : ethOn h i = false) : ethReceive h i fr = h := if_pos (.inr (Bool.eq_false_iff.mp off))

section
variable (live : frozen h = false) (on : ethOn h i = true)
include live on

theorem ethReceive_macctl (cls : classify h i fr.bytes = .macctl) :
    ethReceive h i fr = ethCount h i ((discardOf h i fr).getD 5) 1 := by
  unfold ethReceive discardOf addressTaken
  simp only [Bool.not_eq_true]
  rw [if_neg (by simp [live, on]), cls]

theorem ethReceive_unmatched (cls : classify h i fr.bytes = .unmatched) : ethReceive h i fr =
    otherReceived h i fr (if isSet h (aETH_PCTL i) fETH_PCTL_EXC = true then frameCounted h i fr else ethCount h i 6 1) := by
  unfold ethReceive otherReceived discardOf addressTaken
  simp only [Bool.not_eq_true]
  rw [if_neg (by simp [live, on]), cls]
  rfl

theorem ethReceive_mp {counted : Bool} (cls : classify h i fr.bytes = .mp counted) : ethReceive h i fr =
    otherReceived h i fr (if counted = true then ethCount (frameCounted h i fr) i 9 1
      else if delayOk (messageOf fr) = true then frameCounted h i fr else ethCount h i 7 1) := by
  unfold ethReceive otherReceived discardOf addressTaken
  simp only [Bool.not_eq_true]
  rw [if_neg (by simp [live, on]), cls]
  rfl

theorem ethReceive_flow {k ty : Nat} (cls : classify h i fr.bytes = .flow k ty) :
    ethReceive h i fr = flowReceived h i k ty fr := by
  have flow (f : Fld) : getF (parityCount h i (parityInside fr)) (aETH_RXFLOW1 (i / 4) k) f =
      getF h (aETH_RXFLOW1 (i / 4) k) f := getF_of_reg (parityCount_flow h i _ (flow_lt cls)) f
  unfold ethReceive
  extract_lets m len hd msg da pctl taken exc goes early ok inside
  have same : early = discardOf h i fr := by
    unfold early discardOf addressTaken
    simp only [Bool.not_eq_true]
    rfl
  rw [same, if_neg (by simp [live, on]), show goes = .flow k ty from cls]
  dsimp -zeta only
  extract_lets a n t y req p h1 h2 old h3 h4
  have aborted (c : Nat) :
      messageAborted h (parityCount h i (parityInside fr)) i k p c =
        raiseEvent (req (ethCount h1 i c 1) 7 []) y (0xD3 + 4 * m) :=
    congrArg (flowEvent h · i k 0xD3) (rxAborted_eq flow p c)
  have committed : messageCommitted h (parityCount h i (parityInside fr)) i k ty p fr =
      raiseEvent (ok h4) y ((if ty = 0 then 0xD0 else 0xD1) + 4 * m) := by
    unfold messageCommitted
    rw [rxCommitted_eq flow]
    rfl
  unfold flowReceived messageReceived
  cases discardOf h i fr with
  | none =>
    dsimp -zeta only
    rw [← aborted 7, ← committed]
    rfl
  | some c =>
    dsimp -zeta only
    rw [← aborted c]
    rfl

end

end

end Sys2Proof.Machine
end

section
/-!
PROOF. Frames sent, shapers, the recovered clock and links of the Ethernet ports, delay answers and timing records (R300 to
R305, R307, R314).
-/

namespace Sys2Proof.Machine

/-! ## Frames sent (R300 to R302) -/

section
variable {m : Sparse Byte} {h : Hw} {i : Nat} {bad : Bool} {es : List Ecc}

theorem ethTransmit_none
    (none_ : ethOn h i = false ∨ [7, 6, 5, 4, 3, 2, 1, 0].find? (classReady m h i) = none) : ethTransmit m h i bad es = h := by
  unfold ethTransmit
  extract_lets muted ready
  rw [show ready = classReady m h i from rfl]
  rcases none_ with off | idle
  · exact if_pos (.inr (Bool.eq_false_iff.mp off))
  · rw [idle]
    exact ite_self _

section
variable (live : frozen h = false) (on : ethOn h i = true) {c : Nat}
  (ready : [7, 6, 5, 4, 3, 2, 1, 0].find? (classReady m h i) = some c)
include live on ready

/-- The highest class that is ready gives up the packet at its head, which is sent, or discarded while transmit is muted. -/
theorem ethTransmit_takes : ethTransmit m h i bad es =
    if isSet h (aETH_PSTAT i) fETH_PSTAT_MUTED = true then ethCount (headTaken m h i c es).2 i 18 1
    else sendPacket (headTaken m h i c es).2 i c ((headTaken m h i c es).1.drop 1) bad := by
  unfold ethTransmit
  extract_lets muted isReady
  rw [show isReady = classReady m h i from rfl, if_neg (by simp [live, on]), ready]
  rfl

end

end

/-- A packet whose descriptor or content makes no frame is not sent, and counts. -/
theorem sendPacket_bad {h : Hw} {i : Nat} {w : TW} {ws : List TW}
    (unfit : w.v = false ∨ w.p = true ∨ 2 ^ 38 ≤ w.d.toNat ∨
      getF h (aETH_TXFLOW0 (i / 4) (w.d.toNat % 64)) fETH_TXFLOW0_SUB ≠ i % 4 ∨ ws = []) (c : Nat) (bad : Bool) :
    sendPacket h i c (w :: ws) bad = ethCount h i 16 1 := by
  refine if_pos ?_
  simp only [List.headD_cons, List.drop_one, List.tail_cons, Bool.or_eq_true, Bool.not_eq_true', bne_iff_ne,
    List.isEmpty_iff, or_assoc]
  rcases unfit with invalid | poisoned | reserved | other | empty
  · exact .inl invalid
  · exact .inr (.inl poisoned)
  · exact .inr (.inr (.inl (decide_eq_true reserved)))
  · exact .inr (.inr (.inr (.inl other)))
  · exact .inr (.inr (.inr (.inr (.inl empty))))

/-! ## Refill ticks (R303) -/

section
variable {h : Hw}

theorem refillAll_idle (idle : refillDue h = false ∨ h.eth.refillAt = h.aclk + 1) : refillAll h = h :=
  if_pos (.inr (idle.imp_left Bool.eq_false_iff.mp))

theorem refillAll_due (live : frozen h = false) (due : refillDue h = true) (first : h.eth.refillAt ≠ h.aclk + 1) :
    refillAll h = applyAll (fun h k => refill h (k / 8) (k % 8)) (refillNoted h) (List.range 128) :=
  if_neg (by simp [live, due, first])

/-! ## The recovered clock and links (R305, R307) -/

theorem rclk_off (off : isSet h (aETH_RCLK 0) fETH_RCLK_EN = false) (sq : Bool) : rclk h sq = h :=
  if_pos (.inr (.inl (Bool.eq_false_iff.mp off)))

theorem rclk_changes (live : frozen h = false) (on : isSet h (aETH_RCLK 0) fETH_RCLK_EN = true) {sq : Bool}
    (changes : isSet h (aETH_RCLK 0) fETH_RCLK_SQ ≠ sq) :
    rclk h sq = raiseBit (setF h (aETH_RCLK 0) fETH_RCLK_SQ sq.toNat) (aETH_RCLK 0) fETH_RCLK_SQCHG :=
  if_neg (by simp [live, on, changes])

theorem ethLink_same {i : Nat} {up : Bool} (same : isSet h (aETH_PSTAT i) fETH_PSTAT_LINK = up) : ethLink h i up = h :=
  if_pos (.inr same)

theorem ethLink_changes (live : frozen h = false) {i : Nat} {up : Bool}
    (changes : isSet h (aETH_PSTAT i) fETH_PSTAT_LINK ≠ up) : ethLink h i up =
      raiseBit (setF h (aETH_PSTAT i) fETH_PSTAT_LINK up.toNat) (aETH_PSTAT i) fETH_PSTAT_LINKCHG :=
  if_neg (by simp [live, changes])

/-! ## Answers to type 5 requests (R314) -/

section
variable {i : Nat} {req : List Byte}

theorem delayAnswer_none (none_ : ethOn h i = false ∨ isSet h (aETH_PSTAT i) fETH_PSTAT_MUTED = true ∨
    (frameHead req).et ≠ 0xAEFE ∨ beNat (slice (req.drop (frameHead req).body) 1 1) ≠ 5 ∨
    2 ≤ beNat (slice (req.drop (frameHead req).body) 5 1)) (secs ns : Nat) : delayAnswer h i req secs ns = h :=
  if_pos (.inr (none_.imp_left Bool.eq_false_iff.mp))

section
variable (live : frozen h = false) (on : ethOn h i = true) (audible : isSet h (aETH_PSTAT i) fETH_PSTAT_MUTED = false)
  (ecpri : (frameHead req).et = 0xAEFE) (delay : beNat (slice (req.drop (frameHead req).body) 1 1) = 5)
include live on audible ecpri delay

/-- A request is answered, and one with follow-up is answered a second time. -/
theorem delayAnswer_answers (asks : beNat (slice (req.drop (frameHead req).body) 5 1) < 2) (secs ns : Nat) :
    delayAnswer h i req secs ns =
      if beNat (slice (req.drop (frameHead req).body) 5 1) = 1 then
        sendFrame (sendFrame h i (delayFrame h i req 2 secs ns (compOf h i)) false) i
          (delayFrame h i req 5 (egressTime h i).1 (egressTime h i).2 (compOf h i)) false
      else sendFrame h i (delayFrame h i req 2 secs ns (compOf h i)) false :=
  if_neg (by simp [live, on, audible, ecpri, delay, asks])

end

end

end

/-! ## Timing records (R313, R314) -/

section
variable {m : Sparse Byte} {h : Hw} {i : Nat} {rec : RingRec}

theorem timingRecord_none (none_ : lookup h.eth.ptp i = none ∨ rec.kind = 0 ∨ 4 < rec.kind.toNat) :
    timingRecord m h i rec = (m, h) := by
  unfold timingRecord
  split
  · rfl
  · rename_i found
    rcases none_ with absent | unknown
    · rw [absent] at found
      cases found
    · exact if_pos (.inr unknown)

section
variable (live : frozen h = false) {r : PtpRing} (ring : lookup h.eth.ptp i = some r) (kind : 1 ≤ rec.kind.toNat)
  (known : rec.kind.toNat ≤ 4)
include live ring kind known

theorem timingRecord_takes : timingRecord m h i rec =
    if timingRoom r ≤ ringHeld m r then (ringPut m r.base 16 (leBytes 8 (ringRead m r.base 16 8 + 1)), h)
    else
      (ringPut (ringPut m r.base (32 + 256 * (ringRead m r.base 0 8 % timingRoom r)) (ringBytes rec i)) r.base 0
        (leBytes 8 (ringRead m r.base 0 8 + 1)), sendVector h 21) := by
  have some_ : rec.kind ≠ 0 := by
    intro zero
    rw [zero] at kind
    exact absurd kind (by decide)
  unfold timingRecord
  rw [ring]
  refine if_neg ?_
  rintro (frz | zero | unknown)
  · exact Bool.eq_false_iff.mp live frz
  · exact some_ zero
  · exact Nat.not_lt.mpr known unknown

end

end

end Sys2Proof.Machine

open Sys2Proof Sys2Proof.Machine

/-- Settles O37: a frame by where its head sends it and what its message lacks, a register of a sub-port by where it stands,
and every other clause is a branch of its definition. -/
theorem ethernetPortsAct : Obligations.EthernetPortsAct := by
  refine ⟨?off, ?macctl, ?discarded, ?unmatched, ?excepted, ?counted, ?delay, ?badDelay, ?elsewhere, ?badHead, ?aborted,
    ?rejected, ?committed, ?gap, ?sends, ?mutes, ?sendsNone, ?unfit, ?tick, ?noTick, ?refill, ?noDebt, ?forgiven, ?noStamp,
    ?stamp, ?squelch, ?resume, ?noSquelch, ?noResume, ?link, ?noLink, ?answer, ?followUp, ?noAnswer, ?lost, ?record, ?noRecord⟩
  case off => exact fun m sp fr s off => givesHw_onHw rfl (ethReceive_off off)
  case macctl => exact fun m sp fr s live on cls => givesHw_onHw rfl (ethReceive_macctl live on cls)
  case discarded =>
    rintro m sp fr k s live on (cls | cls | cls) discards
    · exact givesHw_onHw rfl ((ethReceive_unmatched live on cls).trans (otherReceived_discarded discards _))
    · exact givesHw_onHw rfl ((ethReceive_mp live on cls).trans (otherReceived_discarded discards _))
    · exact givesHw_onHw rfl ((ethReceive_mp live on cls).trans (otherReceived_discarded discards _))
  case unmatched =>
    exact fun m sp fr s live on cls accepts drops => givesHw_onHw rfl ((ethReceive_unmatched live on cls).trans
      ((otherReceived_accepted accepts _).trans (if_neg (Bool.eq_false_iff.mp drops))))
  case excepted =>
    exact fun m sp fr s live on cls accepts keeps => givesHw_onHw rfl ((ethReceive_unmatched live on cls).trans
      ((otherReceived_accepted accepts _).trans (if_pos keeps)))
  case counted =>
    exact fun m sp fr s live on cls accepts => givesHw_onHw rfl ((ethReceive_mp live on cls).trans
      ((otherReceived_accepted accepts _).trans (if_pos rfl)))
  case delay =>
    exact fun m sp fr s live on cls accepts good => givesHw_onHw rfl ((ethReceive_mp live on cls).trans
      ((otherReceived_accepted accepts _).trans ((if_neg (by decide)).trans (if_pos good))))
  case badDelay =>
    exact fun m sp fr s live on cls accepts bad => givesHw_onHw rfl ((ethReceive_mp live on cls).trans
      ((otherReceived_accepted accepts _).trans ((if_neg (by decide)).trans (if_neg (Bool.eq_false_iff.mp bad)))))
  case elsewhere =>
    exact fun m sp fr k ty s live on cls away =>
      givesHw_onHw rfl ((ethReceive_flow live on cls).trans (flowReceived_elsewhere away))
  case badHead =>
    exact fun m sp fr k ty s live on cls here bad =>
      givesHw_onHw rfl ((ethReceive_flow live on cls).trans (flowReceived_badHead here bad))
  case aborted =>
    exact fun m sp fr k ty c s live on cls here head discards =>
      givesHw_onHw rfl ((ethReceive_flow live on cls).trans (flowReceived_discarded here head discards))
  case rejected =>
    exact fun m sp fr k ty s live on cls here head accepts bad =>
      givesHw_onHw rfl ((ethReceive_flow live on cls).trans (flowReceived_rejected here head accepts bad))
  case committed =>
    intro m sp fr k ty s live on cls here head accepts good next
    refine givesHw_onHw rfl ((ethReceive_flow live on cls).trans ((flowReceived_committed here head accepts good).trans ?_))
    rw [messageCommitted, if_neg (Bool.eq_false_iff.mp next)]
  case gap =>
    intro m sp fr k ty s live on cls here head accepts good gap
    refine givesHw_onHw rfl ((ethReceive_flow live on cls).trans ((flowReceived_committed here head accepts good).trans ?_))
    rw [messageCommitted, if_pos gap]
  case sends =>
    exact fun m sp bad es c s live on ready audible =>
      givesHw_onHw rfl ((ethTransmit_takes live on ready).trans (if_neg (Bool.eq_false_iff.mp audible)))
  case mutes =>
    exact fun m sp bad es c s live on ready muted => givesHw_onHw rfl ((ethTransmit_takes live on ready).trans (if_pos muted))
  case sendsNone => exact fun m sp bad es s none_ => givesHw_onHw rfl (ethTransmit_none none_)
  case unfit => exact fun h i c w ws bad unfit => sendPacket_bad unfit c bad
  case tick => exact fun s live due first => givesHw_onHw rfl (refillAll_due live due first)
  case noTick => exact fun s idle => givesHw_onHw rfl (refillAll_idle idle)
  case refill => exact fun i c s shaped => if_pos shaped
  case noDebt =>
    rintro m sp c _ s up rfl owes
    refine givesHw_busWrite up rfl ((writeReg_tc m sp s.mem s.hw c _).trans (congrArg _ ?_))
    rw [writeEthp_forgives c.isLt, forgiveDebt_none owes]
  case forgiven =>
    rintro m sp c _ s up rfl owes
    have live : frozen (tcWritten s.hw (tcRewritten s.hw (subPort m sp) c) (subPort m sp) c) = false :=
      ((tcRewritten_events.trans (tcWritten_only s.hw).events).frozen).trans (not_frozen_of_up up)
    refine givesHw_busWrite up rfl ((writeReg_tc m sp s.mem s.hw c _).trans (congrArg _ ?_))
    rw [writeEthp_forgives c.isLt, forgiveDebt_debt live owes]
  case noStamp =>
    intro m sp s up empty
    refine givesHw_onHw rfl ?_
    rw [busRead_up up.1 up.2, readReg_tslo, readTslo_empty empty]
    rfl
  case stamp =>
    intro m sp e es s up oldest
    refine givesHw_onHw rfl ?_
    rw [busRead_up up.1 up.2, readReg_tslo, readTslo_pops oldest]
  case squelch =>
    exact fun s live on runs => givesHw_onHw rfl (rclk_changes (sq := true) live on (by rw [runs]; decide))
  case resume =>
    exact fun s live on held => givesHw_onHw rfl (rclk_changes (sq := false) live on (by rw [held]; decide))
  case noSquelch => exact fun s off => givesHw_onHw rfl (rclk_off off true)
  case noResume => exact fun s off => givesHw_onHw rfl (rclk_off off false)
  case link => exact fun m sp up s live changes => givesHw_onHw rfl (ethLink_changes live changes)
  case noLink => exact fun m sp up s same => givesHw_onHw rfl (ethLink_same same)
  case answer =>
    intro m sp req secs ns s live on audible ecpri delay asks
    refine givesHw_onHw rfl ((delayAnswer_answers live on audible ecpri delay (by omega) _ _).trans (if_neg ?_))
    rw [asks]
    decide
  case followUp =>
    exact fun m sp req secs ns s live on audible ecpri delay asks =>
      givesHw_onHw rfl ((delayAnswer_answers live on audible ecpri delay (by omega) _ _).trans (if_pos asks))
  case noAnswer => exact fun m sp req secs ns s none_ => givesHw_onHw rfl (delayAnswer_none none_ _ _)
  case lost =>
    exact fun m sp rec r s live ring kind known full =>
      givesMem_onMem rfl ((timingRecord_takes live ring kind known).trans (if_pos full))
  case record =>
    rintro m sp rec r _ s live ring kind known room rfl
    exact givesMem_onMem rfl ((timingRecord_takes live ring kind known).trans (if_neg (Nat.not_le.mpr room)))
  case noRecord => exact fun m sp rec s none_ => givesMem_onMem (r := (s.mem, s.hw)) rfl (timingRecord_none none_)
end

section
/-!
PROOF. The time, gate and PTP commands, where no check turns them away, are their bodies, answered.
-/

namespace Sys2Proof.Machine

/-- The timebase steered by a request: its increment, a step, or a set. -/
def steered (x : Slot) (h : Hw) : Hw :=
  match pay x 0 1 with
  | 0 => writeInc h (BitVec.ofNat 64 (pay x 8 8))
  | 1 => askTb h (.step (paySigned x 8 8))
  | _ => askTb h (.set (pay x 8 8) (pay x 16 4))

section
variable {s : State} {sl : Fin 48}

/-- A `TIME_STEER` that the chain servo leaves alone acts as its kind has it (R310, R311). -/
theorem timeSteer_acts (ready : Ready s sl 0x701) (fits : steerFits (held s sl) (asked s sl).hw = true)
    (free : chainOwned (asked s sl).hw = false) : GivesHw (.timeSteer sl) s (acted sl (steered (held s sl) (asked s sl).hw)) := by
  refine givesHw_acts rfl ready fits ((if_neg (Bool.eq_false_iff.mp free)).trans ?_)
  rw [steered]
  generalize pay (held s sl) 0 1 = kind
  match kind with
  | 0 => rfl
  | 1 => rfl
  | _ + 2 => rfl

end

end Sys2Proof.Machine

open Sys2Proof Sys2Proof.Machine

/-- Settles O46: each command is its body, answered; that of `TIME_STEER` by its kind, those of `HOLDOVER_SET` and `GATE_SET`
by what stands in their way. -/
theorem timeAndGateCommandsRun : Obligations.TimeAndGateCommandsRun := by
  refine ⟨?get, ?increment, ?step, ?set, ?owned, ?busy, ?holdover, ?gate, ?gateLost, ?gateGet, ?ring, ?noRing⟩
  case get =>
    rintro sl _ s ready rfl
    exact givesHw_answers rfl ready rfl (r := (_, latchTime (asked s sl).hw))
  case increment =>
    intro sl s ready kind fits free
    have gives := timeSteer_acts ready (by simp only [steerFits, kind, fits]) free
    rwa [steered, kind] at gives
  case step =>
    rintro sl _ s ready kind lo hi rfl fits free
    have gives := timeSteer_acts ready (by simp only [steerFits, kind, lo, hi, fits, decide_true, Bool.and_self]) free
    rwa [steered, kind] at gives
  case set =>
    intro sl s ready kind secs ns free
    have gives := timeSteer_acts ready (by simp only [steerFits, kind, secs, ns, decide_true, Bool.and_self]) free
    rwa [steered, kind] at gives
  case owned => exact fun sl s ready fits owned => givesHw_acts rfl ready fits (if_pos owned)
  case busy =>
    exact fun sl s ready lo hi step ctl runs =>
      givesHw_acts rfl ready (by simp only [lo, hi, step, ctl, decide_true, Bool.and_self]) (if_pos runs)
  case holdover =>
    exact fun sl s ready lo hi step ctl stopped =>
      givesHw_acts rfl ready (by simp only [lo, hi, step, ctl, decide_true, Bool.and_self]) (if_neg (Bool.eq_false_iff.mp stopped))
  case gate => exact fun sl s ready fits wins => givesHw_acts rfl ready fits (if_neg (Bool.eq_false_iff.mp wins))
  case gateLost => exact fun sl s ready fits loses => givesHw_acts rfl ready fits (if_pos loses)
  case gateGet => exact fun sl s ready entry => givesHw_answers rfl ready (decide_eq_true entry)
  case ring =>
    exact fun sl s ready port on fits => givesHw_acts rfl ready (by simp [port, on, fits]) (by simp [on, withPtp])
  case noRing =>
    exact fun sl s ready port off => givesHw_acts rfl ready (by simp [port, off]) (by simp [off, withoutPtp])
end

section
/-!
PROOF. The image, firmware and key commands, where no check turns them away, are their bodies, answered; a request whose
fields do not fit answers INVALID.
-/

namespace Sys2Proof.Machine

section
variable {i : Instr} {s : State} {sl : Fin 48} {opc : Nat} {valid : Slot → Hw → Bool} {body : Slot → State → State × Reply}

/-! ## Bodies (R353, R361) -/

/-- A body that changes fuses and hardware, and becomes RUNNING. -/
theorem completes_blown (he : exec i s = .next (command opc s sl valid body)) (hr : Ready s sl opc)
    (hv : valid (held s sl) (asked s sl).hw = true) {n : Nv} {h : Hw} {total : Nat}
    (hb : body (held s sl) (asked s sl) = (withNv s n h, .running total)) :
    Completes i s fun t => t = withNv s n (becomeRunning h sl total) :=
  ⟨_, he.trans (congrArg _ ((command_of_ready hr hv).trans (congrArg _ hb))), rfl⟩

/-- A body that changes memory and hardware, and becomes RUNNING. -/
theorem givesMem_running (he : exec i s = .next (command opc s sl valid body)) (hr : Ready s sl opc)
    (hv : valid (held s sl) (asked s sl).hw = true) {m : Sparse Byte} {h : Hw} {total : Nat}
    (hb : body (held s sl) (asked s sl) = ({ s with mem := m, hw := h }, .running total)) :
    GivesMem i s (m, becomeRunning h sl total) := by
  rw [GivesMem, he, command_of_ready hr hv, hb]
  rfl

/-- Fields outside their ranges answer INVALID. -/
theorem givesHw_unfit (he : exec i s = .next (command opc s sl valid body)) (hs : Starts s sl opc)
    (bad : valid (held s sl) (asked s sl).hw = false) : GivesHw i s (reply (asked s sl).hw sl stInvalid []) := by
  rw [GivesHw, he, command_of_starts hs, runLocal, if_pos (by simp [bad])]
  rfl

end

/-! ## `TOTAL` (Table 14.8) -/

theorem tableTotal_imageVerify {x : Slot} (code : x.opc = 0x301) : tableTotal x = 3670016 := by
  rw [tableTotal, code]
  rfl

theorem tableTotal_fwStore {x : Slot} (code : x.opc = 0x306) : tableTotal x = 2 * pay x 8 4 := by
  rw [tableTotal, code]
  rfl

/-! ## Staging (R379 to R381) -/

section
variable {s : State} {x : Slot} {ok : Bool} {remote : List (BitVec 8)} (sl : Nat)

/-- The bytes that a load reads at its source. -/
abbrev sourceOf (s : State) (x : Slot) (ok : Bool) (remote : List Byte) : Option (List Byte) × Hw :=
  sourceBytes s.mem s.hw (pay x 0 8) (pay x 8 4) ok remote

/-- DRAM or some lofts hold the image. -/
theorem stages_of_room {h : Hw} {n : Nat} (room : h.dramGib ≠ 0 ∨ (stagingLofts h n).isSome = true) :
    ∃ ys, (if h.dramGib = 0 then stagingLofts h n else some []) = some ys := by
  split
  · exact Option.isSome_iff_exists.mp (room.resolve_left (not_not_intro ‹_›))
  · exact ⟨[], rfl⟩

theorem loadStart_busy (busy : loading s.hw = true)
    (room : s.hw.dramGib ≠ 0 ∨ (stagingLofts s.hw (pay x 8 4)).isSome = true) :
    loadStart sl ok remote x s = (s, .done stWrong []) := by
  obtain ⟨ys, yards⟩ := stages_of_room room
  unfold loadStart
  dsimp only
  rw [yards]
  exact if_pos busy

section
variable (idle : loading s.hw = false)
include idle

theorem loadStart_unread (room : s.hw.dramGib ≠ 0 ∨ (stagingLofts s.hw (pay x 8 4)).isSome = true)
    (fails : (sourceOf s x ok remote).1 = none) :
    loadStart sl ok remote x s = ({ s with hw := (sourceOf s x ok remote).2 }, .done stHwFault []) := by
  obtain ⟨ys, yards⟩ := stages_of_room room
  unfold loadStart
  dsimp only
  rw [yards]
  dsimp only
  rw [if_neg (Bool.eq_false_iff.mp idle), fails]

variable {bytes : List Byte} (reads : (sourceOf s x ok remote).1 = some bytes)
include reads

theorem loadStart_dram (dram : s.hw.dramGib ≠ 0) : loadStart sl ok remote x s =
    ({ s with
        mem := writeBytes s.mem (stagingBase s.hw) bytes
        hw := withLoad (freshNat (sourceOf s x ok remote).2).2
          ⟨sl, pay x 8 4, pay x 12 1, .staged, [], some (stagingBase s.hw), []⟩ }, .running (tableTotal x)) := by
  unfold loadStart
  dsimp only
  rw [if_neg dram, if_neg dram]
  dsimp only
  rw [if_neg (Bool.eq_false_iff.mp idle), reads]
  rfl

theorem loadStart_lofts (noDram : s.hw.dramGib = 0) {ys : List Nat} (room : stagingLofts s.hw (pay x 8 4) = some ys) :
    loadStart sl ok remote x s =
    ({ s with
        mem := stageLofts s.mem (BitVec.ofNat 8 (freshNat (sourceOf s x ok remote).2).1) ys bytes
        hw := withLoad (freshNat (sourceOf s x ok remote).2).2
          ⟨sl, pay x 8 4, pay x 12 1, .staged, [], none, ys⟩ }, .running (tableTotal x)) := by
  unfold loadStart
  dsimp only
  rw [if_pos noDram, if_pos noDram, room]
  dsimp only
  rw [if_neg (Bool.eq_false_iff.mp idle), reads]
  rfl

end

/-! ## Firmware (R386) -/

theorem fwStart_unread (idle : loading s.hw = false) (fails : (sourceOf s x ok remote).1 = none) :
    fwStart sl ok remote x s = ({ s with hw := (sourceOf s x ok remote).2 }, .done stHwFault []) := by
  unfold fwStart
  dsimp only
  rw [if_neg (Bool.eq_false_iff.mp idle), fails]

theorem fwStart_stages (idle : loading s.hw = false) {bytes : List Byte} (reads : (sourceOf s x ok remote).1 = some bytes) :
    fwStart sl ok remote x s = ({ s with hw := withFwLoad (sourceOf s x ok remote).2 ⟨sl, bytes⟩ }, .running (tableTotal x)) := by
  unfold fwStart
  dsimp only
  rw [if_neg (Bool.eq_false_iff.mp idle), reads]
  rfl

end

/-! ## What an image command gives -/

/-- The source and length of an image lie within their ranges (R379). -/
abbrev SourceFits (x : Slot) : Prop := pay x 0 8 < 2 ^ 46 ∧ pay x 8 4 ≤ 0x4000000

theorem imageFits_room {x : Slot} {h : Hw} (source : SourceFits x) (mode : pay x 12 1 ≤ 2)
    (room : h.dramGib ≠ 0 ∨ (stagingLofts h (pay x 8 4)).isSome = true) : imageFits x h = true := by
  simp only [imageFits, source.1, source.2, mode, decide_true, Bool.and_self, Bool.true_and, Bool.or_eq_true, bne_iff_ne]
  exact room

theorem imageFits_full {x : Slot} {h : Hw} (noDram : h.dramGib = 0) (full : stagingLofts h (pay x 8 4) = none) :
    imageFits x h = false := by
  simp [imageFits, noDram, full]

end Sys2Proof.Machine

open Sys2Proof Sys2Proof.Machine

/-- Settles O44: each command is its body, answered; a load by what stages it and what its source gives. -/
theorem imageAndKeyCommandsRun : Obligations.ImageAndKeyCommandsRun := by
  refine ⟨?dram, ?lofts, ?unread, ?busy, ?full, ?verify, ?store, ?storeUnread, ?storeBusy, ?owner, ?ownerSet, ?revoke,
    ?revokeFails, ?aesSet, ?named, ?aes, ?keys⟩
  case dram =>
    exact fun sl ok remote bytes s ready src len mode idle dram reads =>
      givesMem_running rfl ready (imageFits_room ⟨src, len⟩ mode (.inl dram)) (loadStart_dram sl idle reads dram)
  case lofts =>
    exact fun sl ok remote bytes ys s ready src len mode idle noDram room reads =>
      givesMem_running rfl ready (imageFits_room ⟨src, len⟩ mode (.inr (Option.isSome_of_eq_some room)))
        (loadStart_lofts sl idle reads noDram room)
  case unread =>
    exact fun sl ok remote s ready src len mode idle room fails =>
      givesHw_body (r := .done _ _) rfl ready (imageFits_room ⟨src, len⟩ mode room) (loadStart_unread sl idle room fails)
  case busy =>
    exact fun sl ok remote s ready src len mode busy room =>
      givesHw_body (r := .done _ _) rfl ready (imageFits_room ⟨src, len⟩ mode room) (loadStart_busy sl busy room)
  case full => exact fun sl ok remote s ready _ _ _ noDram full => givesHw_unfit rfl ready.1 (imageFits_full noDram full)
  case verify =>
    intro sl s ready
    rw [← tableTotal_imageVerify (held_opc ready.1)]
    exact givesHw_body (r := .running _) rfl ready rfl rfl
  case store =>
    intro sl ok remote bytes s ready src len idle reads
    rw [← tableTotal_fwStore (held_opc ready.1)]
    exact givesHw_body (r := .running _) rfl ready (by simp only [src, len, decide_true, Bool.and_self])
      (fwStart_stages sl idle reads)
  case storeUnread =>
    exact fun sl ok remote s ready src len idle fails =>
      givesHw_body (r := .done _ _) rfl ready (by simp only [src, len, decide_true, Bool.and_self])
        (fwStart_unread sl idle fails)
  case storeBusy =>
    exact fun sl ok remote s ready src len busy =>
      givesHw_body (r := .done _ _) rfl ready (by simp only [src, len, decide_true, Bool.and_self]) (if_pos busy)
  case owner =>
    rintro sl ok _ _ s ready which rfl open_ rfl
    exact completes_blown rfl ready (by simpa using which) (if_neg (Bool.eq_false_iff.mp open_))
  case ownerSet =>
    exact fun sl ok s ready which set =>
      givesHw_body (r := .done _ _) rfl ready (by simpa using which) (if_pos set)
  case revoke =>
    exact fun sl s ready bit free =>
      completes_blown rfl ready (decide_eq_true bit) (if_neg (Bool.eq_false_iff.mp free))
  case revokeFails =>
    exact fun sl s ready bit free =>
      givesHw_body (r := .running _) rfl ready (decide_eq_true bit) (if_neg (Bool.eq_false_iff.mp free))
  case aesSet => exact fun sl ok s ready set => givesHw_body (r := .done _ _) rfl ready rfl (if_pos set)
  case named =>
    exact fun sl ok s ready bit both => givesHw_body (r := .done _ _) rfl ready (decide_eq_true bit) (if_pos both)
  case aes =>
    exact fun sl ok s ready open_ => completes_blown rfl ready rfl (if_neg (Bool.eq_false_iff.mp open_))
  case keys => exact fun sl s ready => givesHw_body (r := .done _ _) rfl ready rfl rfl
end

section
/-!
PROOF. A PLL while POR still stands: the detector's input is on, and the device takes nothing of the loss of lock.
-/

namespace Sys2Proof.Machine

/-- The state of reset, POR not over, with the reference present. -/
def porWithReference : State := { State.reset with hw := setF State.reset.hw aCLK_STAT fCLK_STAT_REFPRES 1 }

theorem porWithReference_present : isSet porWithReference.hw aCLK_STAT fCLK_STAT_REFPRES = true := by decide

theorem porWithReference_locked : isSet porWithReference.hw aCLK_STAT fCLK_STAT_UNLOCK = false := by decide

theorem pllUnlock_por {s : State} (por : s.hw.phase = .por) (dram : Bool) : GivesHw (.pllUnlock dram) s s.hw :=
  givesHw_onHw rfl (if_pos por)

end Sys2Proof.Machine

open Sys2Proof Sys2Proof.Machine

/-- Refutes O57: its first clause leaves out that POR is over. In the state of reset with the reference present a PLL that
loses lock changes nothing, and `CLK_STAT.UNLOCK` stays 0. -/
theorem not_lossOfPllLockIsFatal : ¬ Obligations.LossOfPllLockIsFatal := by
  rintro ⟨unlocks, -⟩
  obtain ⟨t, runs, unlocked⟩ := unlocks false porWithReference porWithReference_present
  obtain rfl := Host.Outcome.next.inj (runs.symm.trans (pllUnlock_por rfl false))
  rw [porWithReference_locked] at unlocked
  cases unlocked
end

section
/-!
PROOF. A slot of the host that completes: the slot is DONE, and but for it and its vector the device is as it was (R351, R355).
-/

namespace Sys2Proof.Machine

/-- A slot that completes for the host (R351). -/
def doneSlot (x : Slot) (status : Nat) (resp : List Byte) : Slot :=
  { x with st := .done, status := status, resp := resp, left := 0, pos := if status = stOk then x.total else x.pos }

/-- What a vector keeps is no register and no part of the array. -/
theorem sendVector_keeps (h : Hw) (v : Nat) : (sendVector h v).regs = h.regs ∧ (sendVector h v).arr = h.arr := by
  unfold sendVector
  dsimp only
  split <;> exact ⟨rfl, rfl⟩

section
variable {h : Hw} {sl : Nat} (host : sl < 16)
include host

theorem completeSlot_host (status : Nat) (resp : List Byte) : completeSlot h sl status resp =
    if (slot h sl).irq then sendVector (setSlot h sl (doneSlot (slot h sl) status resp)) sl
    else setSlot h sl (doneSlot (slot h sl) status resp) :=
  (if_neg (by omega)).trans (if_neg (by omega))

theorem slot_completeSlot (status : Nat) (resp : List Byte) :
    slot (completeSlot h sl status resp) sl = doneSlot (slot h sl) status resp := by
  have done : slot (setSlot h sl (doneSlot (slot h sl) status resp)) sl = doneSlot (slot h sl) status resp :=
    slot_setSlot_same _ _ _
  rw [completeSlot_host host, sendVector]
  split
  · split <;> exact done
  · exact done

theorem completeSlot_keeps (status : Nat) (resp : List Byte) :
    (completeSlot h sl status resp).regs = h.regs ∧ (completeSlot h sl status resp).arr = h.arr := by
  rw [completeSlot_host host]
  split
  · exact sendVector_keeps _ sl
  · exact ⟨rfl, rfl⟩

end

section
variable {h : Hw} {sl : Fin 48} (host : sl.val < 16) (next : nextTaken h = some sl.val)
include host next

/-- A request that its SRAM copy spoils (R355). -/
theorem takeSlot_spoilt : takeSlot h sl true = completeSlot (raiseBit (takenBy h sl) aHI_STAT fHI_STAT_MBUCE) sl stHwFault [] := by
  unfold takeSlot
  rw [if_neg (not_not_intro next), if_pos ⟨rfl, host⟩, takenBy, takenSlot, if_pos host, if_pos host]

theorem takeSlot_read : takeSlot h sl false =
    if headerStatus (takenBy h sl) sl (takenSlot h sl) = stOk then takenBy h sl
    else completeSlot (takenBy h sl) sl (headerStatus (takenBy h sl) sl (takenSlot h sl)) [] := by
  unfold takeSlot
  rw [if_neg (not_not_intro next), if_neg (by simp), takenBy, takenSlot, if_pos host, if_pos host]

/-- A slot taken without an error touches no register. -/
theorem takeSlot_regs : (takeSlot h sl false).regs = h.regs := by
  rw [takeSlot_read host next]
  split
  · rfl
  · exact (completeSlot_keeps (h := takenBy h sl) host _ _).1

end

end Sys2Proof.Machine

open Sys2Proof Sys2Proof.Machine

/-- Settles O58: a spoilt request completes its slot and raises the bit; any other leaves the registers as they are. -/
theorem uncorrectableRequestsCompleteHwFault : Obligations.UncorrectableRequestsCompleteHwFault := by
  refine ⟨?spoilt, ?read⟩
  case spoilt =>
    intro sl s host next
    have gives := takeSlot_spoilt host next
    have done := slot_completeSlot (h := raiseBit (takenBy s.hw sl) aHI_STAT fHI_STAT_MBUCE) host stHwFault []
    obtain ⟨regs, arr⟩ := completeSlot_keeps (h := raiseBit (takenBy s.hw sl) aHI_STAT fHI_STAT_MBUCE) host stHwFault []
    rw [← gives] at done regs arr
    have raised : isSet (takeSlot s.hw sl true) aHI_STAT fHI_STAT_MBUCE = true :=
      (isSet_of_reg (by rw [reg, regs, reg]) _).trans (isSet_raiseBit (takenBy s.hw sl) aHI_STAT rfl (by decide))
    exact ⟨_, rfl, rfl, rfl, congrArg Slot.st done, congrArg Slot.status done, congrArg Slot.resp done,
      arr.trans (raiseBit_arr (takenBy s.hw sl) _ _), raised⟩
  case read => exact fun sl s host next => ⟨_, rfl, isSet_of_reg (by rw [onHw_hw, reg, takeSlot_regs host next, reg]) _⟩
end

section
/-!
PROOF. A plain write of a register: the word that its fields give, and where a reserved value is recorded (R9, R10).
-/

namespace Sys2Proof.Machine

theorem fieldsOf_located {a : Nat} {b : Blk} {i o j : Nat} {d : RegDesc} (located : locate a = some (b, i, o))
    (found : findReg (blkRegs b) o = some (d, j)) : fieldsOf a = d.flds j := by
  simp only [fieldsOf, fieldsAt, located, found, Option.getD_some]

/-- The word that a plain write puts into a register. -/
def plainWord (h : Hw) (a v : Nat) : BitVec 64 := BitVec.ofNat 64 (mergeFields (fieldsOf a) (reg h a).toNat v).1

theorem writePlain_eq (h : Hw) (b : Blk) (i o a v : Nat) : writePlain h b i o a v =
    if (mergeFields (fieldsOf a) (reg h a).toNat v).2 then rsvVal (setReg h a (plainWord h a v)) b i o
    else setReg h a (plainWord h a v) := by
  have every : (fieldsOf a).filter (fun _ => true) = fieldsOf a := List.filter_eq_self.mpr fun _ _ => rfl
  have free : ((fieldsOf a).any fun f => !true && f.acc == .rw && fieldOf f v != fieldOf f (reg h a).toNat) = false := by simp
  unfold writePlain writeFree
  dsimp only
  rw [free, every]
  rfl

section
variable {b : Blk} {i o : Nat}

theorem writePlain_only (reserves : ∀ t, OnlyRegs t (rsvVal t b i o)) (h : Hw) (a v : Nat) :
    OnlyRegs h (writePlain h b i o a v) := by
  rw [writePlain_eq]
  split
  · exact (setReg_only h a _).trans (reserves _)
  · exact setReg_only h a _

theorem writePlain_keepsField {c : Nat} {g : Fld} (reserves : ∀ t, KeepsField c g t (rsvVal t b i o)) {a : Nat} (other : c ≠ a)
    (h : Hw) (v : Nat) : KeepsField c g h (writePlain h b i o a v) := by
  rw [writePlain_eq]
  split
  · exact (setReg_keepsField other h _).trans (reserves _)
  · exact setReg_keepsField other h _

/-- A field of the register written reads as the word has it. -/
theorem getF_writePlain {a : Nat} {g : Fld} (reserves : ∀ t, KeepsField a g t (rsvVal t b i o)) (h : Hw) (v : Nat) :
    getF (writePlain h b i o a v) a g = fieldOf g (plainWord h a v).toNat := by
  have written : getF (setReg h a (plainWord h a v)) a g = fieldOf g (plainWord h a v).toNat := by
    rw [getF, reg_setReg_same]
  rw [writePlain_eq]
  split
  · exact Eq.trans (reserves _) written
  · exact written

end

end Sys2Proof.Machine
end

section
/-!
PROOF. The reference, the PLLs, the clock multiplexers, the rails and VIN: a relock asked for over the bus, and what each event
of the supply does once POR is over (R391, R394 to R401).
-/

namespace Sys2Proof.Machine

/-- Once POR is over an event of clocks or supply acts as its definition has it. -/
theorem givesHw_afterPor {i : Instr} {s : State} {f : Hw → Hw}
    (he : exec i s = .next (onHw s fun h => if h.phase = .por then h else f h)) (past : s.hw.phase ≠ .por) {h : Hw}
    (is : f s.hw = h) : GivesHw i s h := givesHw_onHw he ((if_neg past).trans is)

/-! ## Relocks (R396) -/

theorem writeReg_clkCtl (m : Sparse Byte) (h : Hw) (v : BitVec 64) : writeReg m h aCLK_CTL v =
    (m, if fieldOf fCLK_CTL_RELOCK v.toNat = 1 then relock (writePlain h .clk 0 0 aCLK_CTL v.toNat)
      else writePlain h .clk 0 0 aCLK_CTL v.toNat) := by
  rw [writeReg_located (b := .clk) (i := 0) (o := 0) v rfl rfl (by decide) rfl rfl rfl rfl, writeAt]
  exact congrArg (Prod.mk m) (if_congr (and_iff_right rfl) rfl rfl)

theorem relock_starts {h : Hw} (holds : isSet h aCLK_STAT fCLK_STAT_ROOTHOLD = true)
    (present : isSet h aCLK_STAT fCLK_STAT_REFPRES = true) : relock h = setF h aCLK_STAT fCLK_STAT_RELOCKING 1 := by
  rw [relock, inHold, if_pos ⟨holds, present⟩]

/-- A field of `CLK_STAT` other than `RSVVAL` is as it was after a write of `CLK_CTL`. -/
theorem writeClkCtl_keepsField {f : Fld} (fits : f.lo + f.w ≤ 64) (beside : Beside fCLK_STAT_RSVVAL f) (h : Hw) (v : Nat) :
    KeepsField aCLK_STAT f h (writePlain h .clk 0 0 aCLK_CTL v) :=
  writePlain_keepsField (b := .clk) (i := 0) (o := 0) (fun t => raiseBit_keepsField (g := fCLK_STAT_RSVVAL) fits (.inr beside) t)
    (by decide) h v

end Sys2Proof.Machine

open Sys2Proof Sys2Proof.Machine

/-- Settles O23: each event is its definition with POR over, and `RELOCK` is found by where its register stands. -/
theorem clocksAndSupplyReact : Obligations.ClocksAndSupplyReact := by
  refine ⟨?lost, ?lostUnlocked, ?deadSwitch, ?presentRelocks, ?present, ?relock, ?relocked, ?unlock, ?rail, ?railLimit, ?vinLow,
    ?vinHigh⟩
  case lost =>
    intro s past locked present
    refine givesHw_afterPor (f := refLost) rfl past ((if_neg (not_not_intro present)).trans ?_)
    rw [locked]
    rfl
  case lostUnlocked =>
    intro s past unlocked present
    refine givesHw_afterPor (f := refLost) rfl past ((if_neg (not_not_intro present)).trans ?_)
    rw [unlocked]
    rfl
  case deadSwitch => exact fun mux s past => givesHw_afterPor rfl past rfl
  case presentRelocks => exact fun s past holds auto => givesHw_afterPor (f := refPresent) rfl past (if_pos ⟨holds, auto⟩)
  case present =>
    intro s past stays
    refine givesHw_afterPor (f := refPresent) rfl past (if_neg ?_)
    rintro ⟨holds, auto⟩
    rcases stays with none_ | manual
    · exact Bool.eq_false_iff.mp none_ holds
    · exact Bool.eq_false_iff.mp manual auto
  case relock =>
    intro s up holds present
    have asks := fieldOf_oneField s.hw aCLK_CTL (f := fCLK_CTL_RELOCK) (by decide) 1
    have keeps {f : Fld} (fits : f.lo + f.w ≤ 64) (beside : Beside fCLK_STAT_RSVVAL f) :=
      writeClkCtl_keepsField fits beside s.hw (oneField s.hw aCLK_CTL fCLK_CTL_RELOCK 1).toNat
    refine ⟨_, givesHw_busWrite up rfl ((writeReg_clkCtl s.mem s.hw _).trans (congrArg _ (if_pos asks))), ?_⟩
    rw [relock_starts ((keeps (by decide) (.inr (by decide))).isSet.trans holds)
      ((keeps (by decide) (.inr (by decide))).isSet.trans present)]
    exact isSet_setF_one _ _ rfl (by decide)
  case relocked => exact fun s past relocking => givesHw_afterPor (f := relockDone) rfl past (if_pos relocking)
  case unlock => exact fun dram s past present => givesHw_afterPor (f := (pllUnlock · dram)) rfl past (if_pos present)
  case rail => exact fun rail s past => givesHw_afterPor rfl past rfl
  case railLimit => exact fun rail s past => givesHw_afterPor rfl past rfl
  case vinLow => exact fun mv s past low => givesHw_afterPor (f := (vinLow · mv.toNat)) rfl past (if_pos low)
  case vinHigh => exact fun mv s past high => givesHw_afterPor (f := (vinHigh · mv.toNat)) rfl past (if_pos high)
end

section
/-!
PROOF. Ageing monitors asked for over the bus, and which part of a re-plan a yard takes (R412 to R421).
-/

namespace Sys2Proof.Machine

/-! ## `AG_CTL` (R427) -/

theorem agCtl_located : ∀ y : Fin 16, locate (aAG_CTL y) = some (Blk.ag, y.val, 0) ∧ aAG_CTL y % 8 = 0 ∧
    inShadow (aAG_CTL y) = false ∧ rclkHole (aAG_CTL y) = false := by decide

theorem writeReg_agCtl (m : Sparse Byte) (h : Hw) (y : Fin 16) (v : BitVec 64) :
    writeReg m h (aAG_CTL y) v = (m, writeAg h y 0 (aAG_CTL y) v.toNat) := by
  obtain ⟨located, aligned, unshadowed, whole⟩ := agCtl_located y
  exact writeReg_located v located rfl (by decide) aligned unshadowed whole rfl

theorem fieldsOf_agCtl (y : Fin 16) : fieldsOf (aAG_CTL y) = [fAG_CTL_WINGO, fAG_CTL_ROGO, fAG_CTL_GUARD] :=
  fieldsOf_located (agCtl_located y).1 rfl

/-- What a write of `AG_CTL` keeps starts neither monitor. -/
theorem keepRw_agCtl (h : Hw) (y : Fin 16) :
    fieldOf fAG_CTL_WINGO (keepRw h (aAG_CTL y)) = 0 ∧ fieldOf fAG_CTL_ROGO (keepRw h (aAG_CTL y)) = 0 := by
  obtain ⟨guard, kept⟩ : ∃ guard, keepRw h (aAG_CTL y) = guard * 2 ^ 8 :=
    ⟨_, by rw [keepRw, fieldsOf_agCtl]; exact Nat.zero_add _⟩
  rw [kept]
  simp only [fieldOf, fAG_CTL_WINGO, fAG_CTL_ROGO]
  omega

/-- The value with which `AG_CTL` is written for a monitor. -/
abbrev agWord (h : Hw) (y : Nat) (f : Fld) : Nat := (oneField h (aAG_CTL y) f 1).toNat

/-- `AG_CTL` written, before a monitor starts. -/
abbrev agWritten (h : Hw) (y : Nat) (f : Fld) : Hw := writePlain h .ag y 0 (aAG_CTL y) (agWord h y f)

section
variable {h : Hw} {y a v : Nat}

theorem writeAg_window (window : fieldOf fAG_CTL_WINGO v = 1) (oscillators : fieldOf fAG_CTL_ROGO v = 0) :
    writeAg h y 0 a v = windowStart (writePlain h .ag y 0 a v) y := by
  unfold writeAg
  dsimp only
  rw [if_pos rfl, if_pos window, oscillators]
  rfl

theorem writeAg_oscillators (window : fieldOf fAG_CTL_WINGO v = 0) (oscillators : fieldOf fAG_CTL_ROGO v = 1) :
    writeAg h y 0 a v = roStart (writePlain h .ag y 0 a v) y := by
  unfold writeAg
  dsimp only
  rw [if_pos rfl, if_pos oscillators, window]
  rfl

end

theorem agWord_window (h : Hw) (y : Fin 16) : fieldOf fAG_CTL_WINGO (agWord h y fAG_CTL_WINGO) = 1 ∧
    fieldOf fAG_CTL_ROGO (agWord h y fAG_CTL_WINGO) = 0 :=
  ⟨fieldOf_oneField h _ (by decide) 1, (fieldOf_oneField_beside h _ (by decide) (by decide) 1).trans (keepRw_agCtl h y).2⟩

theorem agWord_oscillators (h : Hw) (y : Fin 16) : fieldOf fAG_CTL_WINGO (agWord h y fAG_CTL_ROGO) = 0 ∧
    fieldOf fAG_CTL_ROGO (agWord h y fAG_CTL_ROGO) = 1 :=
  ⟨(fieldOf_oneField_beside h _ (by decide) (by decide) 1).trans (keepRw_agCtl h y).1, fieldOf_oneField h _ (by decide) 1⟩

/-- Whether a branch enable is in force rests on its register and on what the yard has noted. -/
theorem enabledNow_congr {h t : Hw} {y : Nat} {g : Fld} (pw : t.pw = h.pw) (aclk : t.aclk = h.aclk)
    (same : getF t (aYP_CLKEN y) g = getF h (aYP_CLKEN y) g) : enabledNow t y g = enabledNow h y g := by
  unfold enabledNow enablesNow
  rw [pw, aclk]
  cases (getD YardPw.reset h.pw y).enWas with
  | none => exact congrArg (· == 1) same
  | some e =>
    dsimp only
    split
    · rfl
    · exact congrArg (· == 1) same

section
variable (h : Hw) (y : Nat) (f : Fld)

theorem agWritten_only : OnlyRegs h (agWritten h y f) :=
  writePlain_only (b := .ag) (i := y) (o := 0) (fun t => raiseBit_only t (aAG_STAT y) fAG_STAT_RSVVAL) h _ _

/-- A field that a write of `AG_CTL` does not meet. -/
theorem agWritten_keepsField {a : Nat} {g : Fld} (fits : g.lo + g.w ≤ 64) (other : a ≠ aAG_CTL y)
    (apart : Apart a g (aAG_STAT y) fAG_STAT_RSVVAL) : KeepsField a g h (agWritten h y f) :=
  writePlain_keepsField (b := .ag) (i := y) (o := 0) (fun t => raiseBit_keepsField (b := aAG_STAT y) (g := fAG_STAT_RSVVAL) fits apart t) other h _

theorem agWritten_busy : isSet (agWritten h y f) (aAG_SLACKMAP y) fAG_SLACKMAP_BUSY =
    isSet h (aAG_SLACKMAP y) fAG_SLACKMAP_BUSY :=
  (agWritten_keepsField h y f (by decide) (by unfold aAG_SLACKMAP aAG_CTL; omega)
    (.inl (by unfold aAG_SLACKMAP aAG_STAT; omega))).isSet

theorem agWritten_roBusy : isSet (agWritten h y f) (aAG_STAT y) fAG_STAT_ROBUSY = isSet h (aAG_STAT y) fAG_STAT_ROBUSY :=
  (agWritten_keepsField h y f (by decide) (by unfold aAG_STAT aAG_CTL; omega) (.inr (.inr (by decide)))).isSet

/-- The monitors are enabled as they were. -/
theorem agWritten_monOn : monOn (agWritten h y f) y = monOn h y := by
  have mode : getF (agWritten h y f) (aYP_STAT y) fYP_STAT_MODE = getF h (aYP_STAT y) fYP_STAT_MODE :=
    agWritten_keepsField h y f (by decide) (by unfold aYP_STAT aAG_CTL; omega) (.inl (by unfold aYP_STAT aAG_STAT; omega))
  have enables (g : Fld) (fits : g.lo + g.w ≤ 64) :
      getF (agWritten h y f) (aYP_CLKEN y) g = getF h (aYP_CLKEN y) g :=
    agWritten_keepsField h y f fits (by unfold aYP_CLKEN aAG_CTL; omega) (.inl (by unfold aYP_CLKEN aAG_STAT; omega))
  obtain ⟨pw, aclk⟩ : (agWritten h y f).pw = h.pw ∧ (agWritten h y f).aclk = h.aclk := by
    obtain ⟨r, j, only⟩ := agWritten_only h y f
    rw [only]
    exact ⟨rfl, rfl⟩
  unfold monOn
  rw [mode, enabledNow_congr pw aclk (enables fYP_CLKEN_RUNMON (by decide)),
    enabledNow_congr pw aclk (enables fYP_CLKEN_SLPMON (by decide)),
    enabledNow_congr pw aclk (enables fYP_CLKEN_DEEPMON (by decide))]

end

/-! ## Monitors (R412, R413) -/

theorem windowStart_starts {h : Hw} {y : Nat} (idle : isSet h (aAG_SLACKMAP y) fAG_SLACKMAP_BUSY = false)
    (live : frozen h = false) : windowStart h y =
      raiseBit (setReg (setReg h (aAG_SLACK y) 0) (aAG_SLACKMAP y) 0) (aAG_SLACKMAP y) fAG_SLACKMAP_BUSY :=
  if_neg (by simp [idle, live])

theorem roStart_starts {h : Hw} {y : Nat} (idle : isSet h (aAG_STAT y) fAG_STAT_ROBUSY = false) (on : monOn h y = true)
    (live : frozen h = false) : roStart h y = raiseBit h (aAG_STAT y) fAG_STAT_ROBUSY :=
  if_neg (by simp [idle, on, live])

/-- A window begun counts from 0. -/
theorem windowBegun (h : Hw) (y : Nat) {t : Hw}
    (is : t = raiseBit (setReg (setReg h (aAG_SLACK y) 0) (aAG_SLACKMAP y) 0) (aAG_SLACKMAP y) fAG_SLACKMAP_BUSY) :
    isSet t (aAG_SLACKMAP y) fAG_SLACKMAP_BUSY = true ∧ reg t (aAG_SLACK y) = 0 ∧
      getF t (aAG_SLACKMAP y) fAG_SLACKMAP_MAP = 0 := by
  have other : aAG_SLACK y ≠ aAG_SLACKMAP y := by
    unfold aAG_SLACK aAG_SLACKMAP
    omega
  generalize aAG_SLACK y = a at *
  generalize aAG_SLACKMAP y = b at *
  subst is
  refine ⟨isSet_raiseBit _ _ rfl (by decide), ?_, ?_⟩
  · exact ((reg_raiseBit_ne _ _ other).trans (reg_setReg_ne _ _ other)).trans (reg_setReg_same h a 0)
  · refine Eq.trans (raiseBit_keepsField (by decide) (.inr (.inr (by decide))) _) ?_
    rw [getF, reg_setReg_same]
    rfl

section
variable {h : Hw} {y : Nat} (busy : isSet h (aAG_SLACKMAP y) fAG_SLACKMAP_BUSY = true) (live : frozen h = false)
include busy live

theorem windowEnd_idle (idle : yardRuns h y = false ∨ monOn h y = false) (near trans map : Nat) :
    windowEnd h y near trans map = setF h (aAG_SLACKMAP y) fAG_SLACKMAP_BUSY 0 :=
  (if_neg (by simp [busy, live])).trans (if_pos fun ⟨runs, on⟩ => idle.elim (absurd runs <| Bool.eq_false_iff.mp ·)
    (absurd on <| Bool.eq_false_iff.mp ·))

theorem windowEnd_counts (runs : yardRuns h y = true) (on : monOn h y = true) (near trans map : Nat) :
    windowEnd h y near trans map = setReg (setReg h (aAG_SLACK y) (BitVec.ofNat 64 (near % 2 ^ 32 + trans % 2 ^ 32 * 2 ^ 32)))
      (aAG_SLACKMAP y) (BitVec.ofNat 64 (map % 2 ^ 32)) :=
  (if_neg (by simp [busy, live])).trans (if_neg (not_not_intro ⟨runs, on⟩))

end

/-! ## Re-plans (R415 to R418) -/

section
variable {h : Hw} {y : Nat} {why : ReplanWhy} {ws : List SlackWin}

/-- A re-plan that is due is not passed over. -/
theorem replan_due (due : why ≠ .moved ∨ movedEnough h y = true) : ¬ (why = .moved ∧ ¬ (yardAge h y).owed = true ∧
    ((BitVec.ofNat 13 (getF h (aYP_STAT y) fYP_STAT_TEMP)).toInt - (yardAge h y).lastTemp.toInt).natAbs ≤ 160) := by
  rintro ⟨moved, unowed, near⟩
  have far := due.resolve_left (not_not_intro moved)
  simp only [movedEnough, Bool.or_eq_true, decide_eq_true_eq] at far
  exact far.elim unowed (Nat.not_lt.mpr near)

/-- What a commanded re-plan notes does not bear on whether the full rate is tried. -/
theorem planNoted_tries : ((yardAge (planNoted h y .commanded) y).fallback = true ∧
    ¬ fnRunning (planNoted h y .commanded) (fnId 3 y) = true ∧ divFits (planNoted h y .commanded) y 0 = true) ↔
      triesFullRate h y = true := by
  have noted : yardAge (planNoted h y .commanded) y =
      { yardAge h y with lastTemp := BitVec.ofNat 13 (getF h (aYP_STAT y) fYP_STAT_TEMP), owed := false } :=
    getD_setD_same YardAge.zero h.age y _
  rw [noted, triesFullRate]
  simp only [Bool.and_eq_true, Bool.not_eq_true', and_assoc, Bool.not_eq_true]
  rfl

section
variable (live : frozen h = false)
include live

theorem replanYard_near (near : movedEnough h y = false) : replanYard h y .moved ws = h := by
  simp only [movedEnough, Bool.or_eq_false_iff, decide_eq_false_iff_not, Nat.not_lt] at near
  unfold replanYard
  dsimp only
  rw [if_neg (Bool.eq_false_iff.mp live), if_pos ⟨rfl, Bool.eq_false_iff.mp near.1, near.2⟩]

section
variable (due : why ≠ .moved ∨ movedEnough h y = true)
include due

theorem replanYard_sleeps (sleeps : yardRuns h y = false) : replanYard h y why ws = setYardAge h y (owing (yardAge h y)) := by
  unfold replanYard
  dsimp only
  rw [if_neg (Bool.eq_false_iff.mp live), if_neg (replan_due due), if_pos (Bool.eq_false_iff.mp sleeps)]
  rfl

/-- A re-plan of a running yard: the full rate tried, or the yard planned. -/
theorem replanYard_runs (runs : yardRuns h y = true) : replanYard h y why ws =
    if why = .commanded ∧ (yardAge (planNoted h y why) y).fallback = true ∧ ¬ fnRunning (planNoted h y why) (fnId 3 y) = true ∧
      divFits (planNoted h y why) y 0 = true then tryFullRate (planNoted h y why) y ws
    else planYard (planNoted h y why) y (why == .daily) ws := by
  unfold replanYard
  dsimp only
  rw [if_neg (Bool.eq_false_iff.mp live), if_neg (replan_due due), if_neg (not_not_intro runs)]
  rfl

end

theorem replanYard_tries (runs : yardRuns h y = true) (tries : triesFullRate h y = true) :
    replanYard h y .commanded ws = tryFullRate (planNoted h y .commanded) y ws :=
  (replanYard_runs live (.inl (by decide)) runs).trans (if_pos ⟨rfl, planNoted_tries.mpr tries⟩)

theorem replanYard_plans (due : why ≠ .moved ∨ movedEnough h y = true) (runs : yardRuns h y = true)
    (keeps : why ≠ .commanded ∨ triesFullRate h y = false) :
    replanYard h y why ws = planYard (planNoted h y why) y (why == .daily) ws := by
  refine (replanYard_runs live due runs).trans (if_neg ?_)
  rintro ⟨rfl, tries⟩
  exact Bool.eq_false_iff.mp (keeps.resolve_left (not_not_intro rfl)) (planNoted_tries.mp tries)

end

end

end Sys2Proof.Machine

open Sys2Proof Sys2Proof.Machine

/-- Settles O25: the monitors start over the bus, and a re-plan by whether it is due, whether its yard runs, and whether the
full rate is tried. -/
theorem ageingAndMarginCommandsAct : Obligations.AgeingAndMarginCommandsAct := by
  refine ⟨?window, ?counts, ?idle, ?oscillators, ?measured, ?em, ?near, ?sleeps, ?plans, ?fallsBack, ?tries, ?rate⟩
  case window =>
    intro y s up idle
    have live : frozen (agWritten s.hw y fAG_CTL_WINGO) = false :=
      ((agWritten_only s.hw y fAG_CTL_WINGO).events.frozen).trans (not_frozen_of_up up)
    obtain ⟨window, oscillators⟩ := agWord_window s.hw y
    exact ⟨_, givesHw_busWrite up rfl ((writeReg_agCtl s.mem s.hw y _).trans (congrArg _ (writeAg_window window oscillators))),
      windowBegun _ y (windowStart_starts ((agWritten_busy s.hw y _).trans idle) live)⟩
  case counts =>
    exact fun y near trans map s busy live runs on => givesHw_onHw rfl (windowEnd_counts busy live runs on _ _ _)
  case idle => exact fun y near trans map s busy live idle => givesHw_onHw rfl (windowEnd_idle busy live idle _ _ _)
  case oscillators =>
    intro y s up idle on
    have live : frozen (agWritten s.hw y fAG_CTL_ROGO) = false :=
      ((agWritten_only s.hw y fAG_CTL_ROGO).events.frozen).trans (not_frozen_of_up up)
    obtain ⟨window, oscillators⟩ := agWord_oscillators s.hw y
    refine ⟨_, givesHw_busWrite up rfl
      ((writeReg_agCtl s.mem s.hw y _).trans (congrArg _ (writeAg_oscillators window oscillators))), ?_⟩
    rw [roStart_starts ((agWritten_roBusy s.hw y _).trans idle) ((agWritten_monOn s.hw y _).trans on) live]
    exact isSet_raiseBit _ _ rfl (by decide)
  case measured => exact fun y counts s busy live => givesHw_onHw rfl (if_neg (by simp [busy, live]))
  case em => exact fun y ppm s live => givesHw_onHw rfl (if_neg (Bool.eq_false_iff.mp live))
  case near => exact fun y ws s fw live near => givesHw_onHw rfl ((if_pos fw).trans (replanYard_near live near))
  case sleeps =>
    exact fun y why ws s fw live sleeps due => givesHw_onHw rfl ((if_pos fw).trans (replanYard_sleeps live due sleeps))
  case plans =>
    exact fun y why ws s fw live runs due keeps plans =>
      givesHw_onHw rfl ((if_pos fw).trans ((replanYard_plans live due runs keeps).trans (if_pos plans)))
  case fallsBack =>
    exact fun y why ws s fw live runs due keeps fails => givesHw_onHw rfl
      ((if_pos fw).trans ((replanYard_plans live due runs keeps).trans (if_neg (Bool.eq_false_iff.mp fails))))
  case tries =>
    exact fun y ws s fw live runs tries => givesHw_onHw rfl ((if_pos fw).trans (replanYard_tries live runs tries))
  case rate =>
    exact fun hours s fw live => givesHw_onHw rfl ((if_pos fw).trans (if_neg (Bool.eq_false_iff.mp live)))
end

section
/-!
PROOF. The end of a training pause while FROZEN: the pause itself does nothing, but the controller then serves the
requests that waited at it, with every state-advancing clock stopped.
-/

namespace Sys2Proof.Machine

/-- A read that waits at a controller: 8 words at address 0, from requester 0. -/
def waitingRead : DmaReq := DmaReq.of 0 ⟨8, 0, 0, 0, 0, [], none⟩

/-- A FROZEN device in which a read waits at the controller of channel 0. -/
def frozenWithRead : State :=
  { State.reset with
    hw := { State.reset.hw with
      clocked := true, locked := true, yardsUp := true, phase := .ready, mode := .frozen, before := .run
      noc.held := [(0, [(waitingRead, [])])] } }

theorem frozenWithRead_frozen : frozen frozenWithRead.hw = true := by decide

theorem frozenWithRead_waits : getD [] frozenWithRead.hw.noc.held 0 = [(waitingRead, [])] := rfl

theorem pauseEnd_frozen {h : Hw} {c : Nat} {drift : BitVec 8} (stands : frozen h = true) : pauseEnd h c drift = h :=
  if_pos fun run => run.2 stands

/-- The read is taken from the controller although the device is FROZEN. -/
theorem frozenWithRead_served : getD [] (serveWaiting frozenWithRead.mem frozenWithRead.hw 0).2.noc.held 0 = [] := by
  decide +kernel

theorem hw_of_gives {i : Instr} {s : State} {h : Hw} {r : Sparse Byte × Hw} (mem : GivesMem i s r) (hw : GivesHw i s h) :
    r.2 = h :=
  congrArg State.hw (Host.Outcome.next.inj (mem.symm.trans hw))

theorem trainingPauseEnd_frozen {s : State} (stands : frozen s.hw = true) (c : Fin 4) (drift : BitVec 8) :
    GivesMem (.trainingPauseEnd c drift) s (serveWaiting s.mem s.hw c) :=
  givesMem_onMem rfl (congrArg (serveWaiting s.mem · c) (pauseEnd_frozen stands))

end Sys2Proof.Machine

open Sys2Proof Sys2Proof.Machine

/-- Refutes O4: the end of a training pause acts while FROZEN. With a read waiting at the controller of channel 0, which is
in no pause, the command takes the read from the controller and serves it. -/
theorem not_frozenDeviceDoesNothing : ¬ Obligations.FrozenDeviceDoesNothing := by
  rintro ⟨-, -, -, -, -, -, -, -, -, -, -, -, -, -, -, -, -, -, -, -, -, -, -, -, pauseStands, -⟩
  have left : (serveWaiting frozenWithRead.mem frozenWithRead.hw 0).2 = frozenWithRead.hw :=
    hw_of_gives (trainingPauseEnd_frozen frozenWithRead_frozen 0 0) (pauseStands 0 0 _ frozenWithRead_frozen)
  have served := frozenWithRead_served
  rw [left, frozenWithRead_waits] at served
  cases served
end

section
/-!
PROOF. What no alarm touches, a FATAL one that stops every function included: the slots, the NoC with the requests that
wait at the controllers, and the resume asked for (R363, R439, R444, R449).
-/

namespace Sys2Proof.Machine

/-- The slots, the NoC, and whether a resume has been asked for. -/
def waits (h : Hw) : Sparse Slot × Noc × Bool := (h.slots, h.noc, h.frz.resuming)

theorem waits_of_parts {h t : Hw} (slots : t.slots = h.slots) (noc : t.noc = h.noc) (frz : t.frz = h.frz) :
    waits t = waits h := by rw [waits, slots, noc, frz, waits]

/-! ## The stop of a function (R151, R363) -/

@[simp] theorem waits_setF (h : Hw) (a : Nat) (f : Fld) (x : Nat) : waits (setF h a f x) = waits h := rfl
@[simp] theorem waits_bump (h : Hw) (a : Nat) (f : Fld) (n : Nat) : waits (bump h a f n) = waits h := rfl
@[simp] theorem waits_setReg (h : Hw) (a : Nat) (v : BitVec 64) : waits (setReg h a v) = waits h := rfl
@[simp] theorem waits_setFn (h : Hw) (id : Nat) (x : Fn) : waits (setFn h id x) = waits h := rfl
@[simp] theorem waits_setJdir (h : Hw) (d : Nat) (x : JDir) : waits (setJdir h d x) = waits h := rfl
@[simp] theorem waits_setSched (h : Hw) (y : Nat) (x : Sched) : waits (setSched h y x) = waits h := rfl
@[simp] theorem waits_setTask (h : Hw) (y t : Nat) (x : Task) : waits (setTask h y t x) = waits h := rfl
@[simp] theorem waits_orderPen (h : Hw) (n : Nat) (o : SwitchOrder) : waits (orderPen h n o) = waits h := rfl
@[simp] theorem waits_setDramCh (h : Hw) (c : Nat) (x : DramCh) : waits (setDramCh h c x) = waits h := rfl

@[simp] theorem waits_raiseEvent (h : Hw) (y e : Nat) : waits (raiseEvent h y e) = waits h := by
  unfold raiseEvent raiseEventAt
  split
  · rfl
  · extract_lets a hits src h1 s
    have noted : waits h1 = waits h := (waits_setReg _ a _).trans (waits_of_parts rfl rfl rfl)
    split
    · rw [waits_setSched, noted]
    · exact noted

@[simp] theorem waits_jStop (h : Hw) (d : Nat) : waits (jStop h d) = waits h := by
  have down (t : Hw) : waits (jSetUp t d false) = waits t := by
    unfold jSetUp
    split
    · rfl
    · exact applyAll_kept (g := waits) (fun h y => waits_raiseEvent h y _) _ _
  unfold jStop
  extract_lets h1
  refine (waits_setJdir _ _ _).trans ((down h1).trans ?_)
  unfold h1
  split <;> rfl

@[simp] theorem waits_stageRecord (h : Hw) (y : Nat) (r : BitVec 64) : waits (stageRecord h y r) = waits h := by
  unfold stageRecord
  split
  · rfl
  · extract_lets s recs
    split
    · exact waits_setSched h y _
    · exact (waits_bump _ _ _ 1).trans (waits_setSched h y _)

@[simp] theorem waits_haltPens (h : Hw) (y mask e v t : Nat) : waits (haltPens h y mask e v t) = waits h := by
  unfold haltPens
  exact applyAll_kept (g := waits) (fun h p => by rw [waits_orderPen, waits_setF]) _ h

@[simp] theorem waits_retireNow (h : Hw) (y t : Nat) : waits (retireNow h y t) = waits h := by
  unfold retireNow
  extract_lets k h1
  have recorded : waits (haltPens h1 y (taskMask h y t) h.aclk h.aclk t) = waits h :=
    (waits_haltPens _ _ _ _ _ _).trans (waits_stageRecord _ y _)
  split
  · rfl
  · rfl
  · exact recorded
  · exact recorded

@[simp] theorem waits_stopOne (h : Hw) (id cause : Nat) : waits (stopOne h id cause) = waits h := by
  have after (t : Hw) : waits (afterStop t id) = waits t := by
    unfold afterStop
    split
    · rw [waits_jStop, waits_jStop]
    · split <;> rfl
  have cleared : waits (clearEnables h (fnEnables id)) = waits h := by
    unfold clearEnables
    refine applyAll_kept (g := waits) (fun h e => ?_) _ h
    exact waits_setF h e.1 e.2 0
  unfold stopOne
  rw [waits_setFn, after, cleared]

@[simp] theorem waits_stopFn (h : Hw) (id cause : Nat) : waits (stopFn h id cause) = waits h := by
  unfold stopFn
  split
  · rfl
  · extract_lets h1 y sid src h2 h3
    have stopped : waits h1 = waits h := waits_stopOne h id cause
    split
    · have scheduler : waits h2 = waits h1 := by
        unfold h2
        split
        · rw [waits_setFn, waits_stopOne]
        · rfl
      have retired : waits h3 = waits h2 := by
        refine applyAll_kept (g := waits) (fun h t => ?_) _ h2
        split
        · exact waits_retireNow h y t
        · rfl
      have halted : ∀ h p, waits (if (pen h (8 * y + p)).halted then h
          else orderPen h (8 * y + p) ⟨none, switchCycle h y h.aclk h.aclk, none, 0⟩) = waits h := fun h p => by
        split <;> rfl
      exact (applyAll_kept (g := waits) halted _ h3).trans (retired.trans (scheduler.trans stopped))
    · exact stopped

/-! ## The log, vectors and alarms (R349, R434 to R439) -/

@[simp] theorem waits_sendVector (h : Hw) (v : Nat) : waits (sendVector h v) = waits h := by
  unfold sendVector
  dsimp only
  split <;> rfl

@[simp] theorem waits_writeLog (h : Hw) (r : LogRec) : waits (writeLog h r) = waits h := by
  obtain ⟨_, _, _, written⟩ := writeLog_only h r
  rw [written]
  rfl

@[simp] theorem waits_setMode (h : Hw) (m : DevState) : waits (setMode h m) = waits h := by
  unfold setMode
  split
  · rfl
  · exact (waits_sendVector _ _).trans ((waits_writeLog _ _).trans (waits_of_parts rfl rfl rfl))

theorem waits_recovering (h : Hw) (ids : List Nat) (code : Nat) :
    waits { h with recorded := ids, recovering := some code } = waits h := rfl

@[simp] theorem waits_fatalEffect (h : Hw) (code : Nat) : waits (fatalEffect h code) = waits h := by
  have stopped (ids : List Nat) : waits (applyAll (fun h id => stopFn h id 4) h ids) = waits h :=
    applyAll_kept (g := waits) (fun h id => waits_stopFn h id 4) ids h
  have caused (t : Hw) : waits (applyAll (fun h id => setFn h id { fnOf h id with cause := 4 }) t allFns) = waits t :=
    applyAll_kept (g := waits) (fun h id => waits_setFn h id _) allFns t
  unfold fatalEffect
  extract_lets running h0 h1
  have recover : waits (setMode { h1 with recorded := running, recovering := some code } .recovery) = waits h := by
    rw [waits_setMode, waits_recovering]
    exact (caused h0).trans (stopped running)
  split
  case h_1 => exact recover
  case h_2 => exact recover
  case h_3 => exact recover
  case h_4 => rfl
  case h_5 => rfl
  case h_6 => rfl

@[simp] theorem waits_occur (h : Hw) (code k tick router : Nat) (first : LogRec) :
    waits (occur h code k tick router first) = waits h := by
  unfold occur
  split
  · rfl
  extract_lets a a1 h1 h2 h3 h4 waiting sum src h5
  have counted : waits h3 = waits h := by
    unfold h3 h2
    rw [waits_setF, waits_bump]
    exact waits_of_parts rfl rfl rfl
  have sent : waits h4 = waits h := by
    unfold h4
    split
    · exact (waits_sendVector h3 _).trans counted
    · exact counted
  have summed : waits h5 = waits h4 := by
    unfold h5
    split <;> rfl
  split
  · exact (waits_fatalEffect h5 code).trans (summed.trans sent)
  · exact summed.trans sent

@[simp] theorem waits_raiseAlarm (h : Hw) (code router addr detail : Nat) :
    waits (raiseAlarm h code router addr detail) = waits h := by
  unfold raiseAlarm
  split
  · rfl
  · split
    · dsimp only
      split <;> rfl
    · rw [waits_occur, waits_writeLog]

@[simp] theorem waits_flushDeferred (h : Hw) : waits (flushDeferred h) = waits h :=
  applyAll_kept (g := waits) (fun h (e : Nat × Nat × Nat × Nat) => waits_raiseAlarm h e.1 e.2.1 e.2.2.1 e.2.2.2) _ _

@[simp] theorem waits_sendOn (h : Hw) (port : Nat) (c : CPkt) : waits (sendOn h port c) = waits h := by
  obtain ⟨_, sent⟩ := sendOn_only h port c
  rw [sent]
  rfl

/-! ## Training pauses (R218) -/

@[simp] theorem waits_pauseEnd (h : Hw) (c : Nat) (drift : BitVec 8) : waits (pauseEnd h c drift) = waits h := by
  unfold pauseEnd
  split
  · rfl
  · extract_lets d i i' x h1 h2
    have issued : waits h2 = waits h1 := by
      unfold h2 issueRefresh
      split
      · rfl
      · exact waits_setF h1 _ _ _
    rw [waits_setF, waits_setF, issued]
    exact waits_setDramCh h c _

end Sys2Proof.Machine
end

section
/-!
PROOF. The TAP and the readout of a FROZEN device, and the resume: what waits, the array and the timebase stay, and every
channel that runs leaves self-refresh (R447 to R449).
-/

namespace Sys2Proof.Machine

/-! ## Readout (R447, R448) -/

theorem settleAll_free (h : Hw) (os : List (Option Bool)) : ∃ k, (settleAll h os).2 = { h with free := k } := by
  induction os generalizing h with
  | nil => exact ⟨h.free, rfl⟩
  | cons o os ih =>
    cases o with
    | some b => exact ih h
    | none =>
      obtain ⟨k, rest⟩ := ih (freshNat h).2
      exact ⟨k, rest⟩

theorem foldl_free {α β : Type} {f : β × Hw → α → β × Hw} (each : ∀ s x, ∃ k, (f s x).2 = { s.2 with free := k })
    (xs : List α) (s : β × Hw) : ∃ k, (xs.foldl f s).2 = { s.2 with free := k } := by
  induction xs generalizing s with
  | nil => exact ⟨s.2.free, rfl⟩
  | cons x xs ih =>
    obtain ⟨j, first⟩ := each s x
    obtain ⟨k, rest⟩ := ih (f s x)
    exact ⟨k, rest.trans (by rw [first])⟩

theorem captureBlock_free (m : Sparse Byte) (h : Hw) (b : Nat) : ∃ k, (captureBlock m h b).2 = { h with free := k } := by
  unfold captureBlock
  extract_lets cells q
  dsimp only
  exact settleAll_free h cells

/-- The shadow registers filled: nothing else differs but how many open values have been drawn. -/
theorem fillShadow_only (m : Sparse Byte) (h : Hw) : ∃ k x, fillShadow m h = { h with free := k, shadow := x } := by
  unfold fillShadow
  extract_lets deep r src
  obtain ⟨k, drawn⟩ : ∃ k, src = { h with free := k } := by
    refine foldl_free (f := fun s b => (setD 0 s.1 b (captureBlock m s.2 b).1, (captureBlock m s.2 b).2)) (fun s b => ?_) _ _
    dsimp only
    exact captureBlock_free m s.2 b
  rw [drawn]
  exact ⟨k, _, rfl⟩

theorem frozenReadout_fills (m : Sparse Byte) {h : Hw} (stands : h.mode = .frozen) :
    (frozenReadout m h).shadow = (fillShadow m h).shadow ∧ (frozenReadout m h).arr = h.arr ∧
      (frozenReadout m h).mode = .frozen := by
  obtain ⟨k, x, filled⟩ := fillShadow_only m h
  rw [frozenReadout, if_neg (not_not_intro stands)]
  dsimp only
  rw [filled]
  exact ⟨rfl, rfl, stands⟩

section
variable {s : State} (stands : s.hw.mode = .frozen) {r : Option (List Byte) × Hw}
  (read : r = frozenRead s.mem s.hw s.hw.frz.tapAddr.toNat 8 .ok)
include stands read

theorem tapRead_served {bs : List Byte} (served : r.1 = some bs) :
    tapRead s.mem s.hw = tapLoaded r.2 (leNat bs) 0 (s.hw.frz.tapAddr + 8) := by
  subst read
  rw [tapRead, if_neg (not_not_intro stands)]
  dsimp only
  generalize frozenRead s.mem s.hw s.hw.frz.tapAddr.toNat 8 .ok = r at *
  obtain ⟨got, t⟩ := r
  subst served
  rfl

theorem tapRead_unserved (unserved : r.1 = none) :
    tapRead s.mem s.hw = tapLoaded (freshNat r.2).2 ((freshNat r.2).1 % 2 ^ 64)
      (if regionOf s.hw s.hw.frz.tapAddr.toNat 8 = .dram then 2 else 1) (s.hw.frz.tapAddr + 8) := by
  subst read
  rw [tapRead, if_neg (not_not_intro stands)]
  dsimp only
  generalize frozenRead s.mem s.hw s.hw.frz.tapAddr.toNat 8 .ok = r at *
  obtain ⟨bs, t⟩ := r
  subst unserved
  dsimp only
  generalize freshNat t = open64
  generalize regionOf _ _ _ = region
  cases region <;> rfl

end

/-! ## The return to self-refresh and the request of a resume (R447, R449) -/

section
variable {h : Hw} {c : Fin 4}

theorem srReturn_idle (idle : h.mode ≠ .frozen ∨ h.frz.out.getLsbD c = false) : srReturn h c = h :=
  if_pos (idle.imp_right Bool.eq_false_iff.mp)

theorem out_getLsbD_self (c : Fin 4) : (BitVec.ofNat 4 (2 ^ c.val)).getLsbD c = true := by decide +revert

theorem out_without_eq_zero (o : BitVec 4) (c : Fin 4) (out : o.getLsbD c = true) :
    o &&& ~~~(BitVec.ofNat 4 (2 ^ c.val)) = 0 ↔ o = BitVec.ofNat 4 (2 ^ c.val) := by decide +revert

variable (stands : h.mode = .frozen)
include stands

theorem srReturn_out (out : h.frz.out.getLsbD c = true) : srReturn h c =
    if h.frz.out = BitVec.ofNat 4 (2 ^ c.val) then
      setF (setF (channelBack h c) aFR_STAT fFR_STAT_DRAMOUT 0) aHI_FRZ fHI_FRZ_DRAMSR 1
    else channelBack h c := by
  rw [srReturn, if_neg (by rw [not_or, not_not, not_not]; exact ⟨stands, out⟩)]
  dsimp only
  simp only [out_without_eq_zero h.frz.out c out]
  rfl

theorem srReturn_last (out : h.frz.out = BitVec.ofNat 4 (2 ^ c.val)) :
    srReturn h c = setF (setF (channelBack h c) aFR_STAT fFR_STAT_DRAMOUT 0) aHI_FRZ fHI_FRZ_DRAMSR 1 :=
  (srReturn_out stands (out ▸ out_getLsbD_self c)).trans (if_pos out)

theorem srReturn_more (out : h.frz.out.getLsbD c = true) (more : h.frz.out ≠ BitVec.ofNat 4 (2 ^ c.val)) :
    srReturn h c = channelBack h c :=
  (srReturn_out stands out).trans (if_neg more)

theorem resumeRequest_taken : resumeRequest h false = resuming h :=
  if_neg (by rw [not_or, not_not]; exact ⟨stands, Bool.false_ne_true⟩)

end

/-! ## The answer of a resume (R366, R449) -/

theorem answerLater_none {h : Hw} (none : h.slots = []) (opc : Nat) (f : Hw → Slot → Option (Nat × List Byte)) :
    answerLater h opc f = h := by
  rw [answerLater, none]
  rfl

theorem answerResume_none {h : Hw} (none : h.slots = []) : answerResume h = h :=
  (congrArg (ite _ _) (answerLater_none none _ _)).trans (ite_self _)

theorem answerResume_asked {h : Hw} {sl : Nat} {x : Slot} (runs : h.mode ≠ .frozen) (only : h.slots = [(sl, x)])
    (taken : x.st = .taken) (code : x.opc = 0xA11) (here : x.left.testBit (selfAddr h) = true) :
    answerResume h = reply h sl stOk (leBytes 8 (getF h aHI_FRZ fHI_FRZ_LINKRT)) := by
  have held : slot h sl = x := by
    rw [slot, only]
    simp [getD, lookup]
  rw [answerResume, if_neg runs, answerLater, only]
  refine if_pos ?_
  rw [held]
  exact ⟨taken, code, here⟩

theorem serveWaiting_none (m : Sparse Byte) {h : Hw} (none : h.noc.held = []) (c : Nat) : serveWaiting m h c = (m, h) := by
  unfold serveWaiting
  split
  · rfl
  · have same : { h with noc := { h.noc with held := setD [] h.noc.held c [] } } = h := by
      rw [none, show setD [] ([] : Sparse (List (DmaReq × List Ecc))) c [] = h.noc.held from none.symm ▸ rfl]
    rw [same, none]
    rfl

theorem resumeServed_none (m : Sparse Byte) {h : Hw} (none : h.noc.held = []) : resumeServed m h = (m, h) := by
  unfold resumeServed
  split
  · rfl
  · suffices all : ∀ cs : List Nat, cs.foldl (fun s c => serveWaiting s.1 s.2 c) (m, h) = (m, h) from all _
    intro cs
    induction cs with
    | nil => rfl
    | cons c cs ih => rw [List.foldl_cons, serveWaiting_none m none, ih]

theorem resumeServed_frozen (m : Sparse Byte) {h : Hw} (stands : frozen h = true) : resumeServed m h = (m, h) := if_pos stands

theorem resumeComplete_idle {s : State} (stands : frozen s.hw = true) (idle : s.hw.mode ≠ .frozen ∨ s.hw.frz.resuming = false)
    (slots : s.hw.slots = []) (dropped : Bool) (drifts : List (BitVec 8)) :
    GivesHw (.resumeComplete dropped drifts) s s.hw := by
  have still : resumeDone s.hw dropped drifts = s.hw := if_pos (idle.imp_right Bool.eq_false_iff.mp)
  have left : resumeServed s.mem (answerResume (resumeDone s.hw dropped drifts)) = (s.mem, s.hw) := by
    rw [still, answerResume_none slots, resumeServed_frozen s.mem stands]
  have gives : GivesMem (.resumeComplete dropped drifts) s (s.mem, s.hw) := givesMem_onMem rfl left
  exact gives

/-! ## The channels leave self-refresh (R218, R449) -/

/-- Nothing but registers, which bits were set in this cycle, and the states of the controllers differs. -/
def OnlyChannels (h t : Hw) : Prop := ∃ r j d, t = { h with regs := r, justSet := j, dram := d }

theorem OnlyChannels.same (h : Hw) : OnlyChannels h h := ⟨_, _, _, rfl⟩

theorem OnlyChannels.trans {a b c : Hw} (h1 : OnlyChannels a b) (h2 : OnlyChannels b c) : OnlyChannels a c := by
  obtain ⟨r, j, d, rfl⟩ := h1
  obtain ⟨r', j', d', rfl⟩ := h2
  exact ⟨r', j', d', rfl⟩

theorem setF_channels (h : Hw) (a : Nat) (f : Fld) (x : Nat) : OnlyChannels h (setF h a f x) := ⟨_, _, _, rfl⟩
theorem setDramCh_channels (h : Hw) (c : Nat) (x : DramCh) : OnlyChannels h (setDramCh h c x) := ⟨_, _, _, rfl⟩

/-- A field that a training pause of no channel writes. -/
abbrev OffPauses (a : Nat) (f : Fld) : Prop :=
  f.lo + f.w ≤ 64 ∧ (∀ c, a ≠ aDC_TRAIN c) ∧ ∀ c, Apart a f (aDC_STAT c) fDC_STAT_HOT2X

/-- What a training pause keeps: all but registers and controllers, the fields that it does not write, and whether a
controller is in self-refresh. -/
structure PauseKeeps (h t : Hw) : Prop where
  channels : OnlyChannels h t
  field : ∀ {a f}, OffPauses a f → KeepsField a f h t
  refresh : ∀ c, (dramCh t c).selfRefresh = (dramCh h c).selfRefresh

theorem PauseKeeps.same (h : Hw) : PauseKeeps h h := ⟨.same h, fun _ => rfl, fun _ => rfl⟩

theorem PauseKeeps.trans {a b c : Hw} (h1 : PauseKeeps a b) (h2 : PauseKeeps b c) : PauseKeeps a c :=
  ⟨h1.channels.trans h2.channels, fun off => (h1.field off).trans (h2.field off),
    fun k => (h2.refresh k).trans (h1.refresh k)⟩

theorem setF_pauseKeeps {b : Nat} {g : Fld} (apart : ∀ {a f}, OffPauses a f → Apart a f b g) (h : Hw) (x : Nat) :
    PauseKeeps h (setF h b g x) :=
  ⟨setF_channels h b g x, fun off => setF_keepsField off.1 (apart off) h x, fun c => by rw [dramCh_setF]⟩

theorem train_pauseKeeps (h : Hw) (c : Nat) (g : Fld) (x : Nat) : PauseKeeps h (setF h (aDC_TRAIN c) g x) :=
  setF_pauseKeeps (fun off => .inl (off.2.1 c)) h x

theorem setDramCh_pauseKeeps {h : Hw} {c : Nat} {x : DramCh} (same : x.selfRefresh = (dramCh h c).selfRefresh) :
    PauseKeeps h (setDramCh h c x) := by
  refine ⟨setDramCh_channels h c x, fun _ => keepsField_of_regs rfl, fun k => ?_⟩
  by_cases here : k = c
  · rw [here, dramCh_setDramCh_same, same]
  · exact congrArg DramCh.selfRefresh (getD_setD_ne DramCh.reset h.dram x here)

theorem startPause_keeps (h : Hw) (c : Nat) : PauseKeeps h (startPause h c) :=
  (setDramCh_pauseKeeps (x := { dramCh h c with due := false, strobed := false, paused := true }) rfl).trans
    (train_pauseKeeps _ c _ _)

theorem pauseEnd_keeps (h : Hw) (c : Nat) (drift : BitVec 8) : PauseKeeps h (pauseEnd h c drift) := by
  unfold pauseEnd
  split
  · exact .same h
  · extract_lets d i i' x h1 h2
    have ended : PauseKeeps h h1 := setDramCh_pauseKeeps rfl
    have issued : PauseKeeps h1 h2 := by
      unfold h2 issueRefresh
      split
      · exact .same h1
      · exact setF_pauseKeeps (fun off => off.2.2 c) h1 _
    exact ((ended.trans issued).trans (train_pauseKeeps h2 c _ _)).trans (train_pauseKeeps _ c _ _)

/-- A channel that runs after a resume: populated, and not held by STOP. -/
abbrev chanResumes (h : Hw) (c : Nat) : Prop := isSet h (aDC_CFG c) fDC_CFG_EN ∧ ¬ isSet h (aDC_STAT c) fDC_STAT_STOPPED

/-- A channel that runs leaves self-refresh and goes through a training pause. -/
def wakeChan (drifts : List (BitVec 8)) (h : Hw) (c : Nat) : Hw :=
  if chanResumes h c then
    pauseEnd (startPause (setDramCh h c { dramCh h c with selfRefresh := false }) c) c (drifts.getD c 0)
  else h

theorem config_offPauses (k : Nat) : OffPauses (aDC_CFG k) fDC_CFG_EN := by
  refine ⟨by decide, fun c => ?_, fun c => .inr (by decide)⟩
  unfold aDC_CFG aDC_TRAIN
  omega

theorem stopped_offPauses (k : Nat) : OffPauses (aDC_STAT k) fDC_STAT_STOPPED := by
  refine ⟨by decide, fun c => ?_, fun c => .inr (by decide)⟩
  unfold aDC_STAT aDC_TRAIN
  omega

theorem freeze_offPauses {f : Fld} (fits : f.lo + f.w ≤ 64) : OffPauses aHI_FRZ f := by
  refine ⟨fits, fun c => ?_, fun c => .inl ?_⟩
  · unfold aHI_FRZ bar0Base aDC_TRAIN
    omega
  · unfold aHI_FRZ bar0Base aDC_STAT
    omega

section
variable (drifts : List (BitVec 8))

/-- The pauses of a channel's waking, after it has left self-refresh. -/
theorem wakeChan_pauses (h : Hw) (c : Nat) : PauseKeeps (setDramCh h c { dramCh h c with selfRefresh := false })
    (pauseEnd (startPause (setDramCh h c { dramCh h c with selfRefresh := false }) c) c (drifts.getD c 0)) :=
  (startPause_keeps _ c).trans (pauseEnd_keeps _ c _)

theorem wakeChan_channels (h : Hw) (c : Nat) : OnlyChannels h (wakeChan drifts h c) := by
  unfold wakeChan
  split
  · exact (setDramCh_channels h c _).trans (wakeChan_pauses drifts h c).channels
  · exact .same h

theorem wakeChan_keepsField {a : Nat} {f : Fld} (off : OffPauses a f) (h : Hw) (c : Nat) :
    KeepsField a f h (wakeChan drifts h c) := by
  unfold wakeChan
  split
  · exact KeepsField.trans (keepsField_of_regs rfl) ((wakeChan_pauses drifts h c).field off)
  · exact rfl

/-- A channel that runs is out of self-refresh. -/
def Awake (c : Nat) (h : Hw) : Prop := chanResumes h c → (dramCh h c).selfRefresh = false

theorem wakeChan_resumes (h : Hw) (c k : Nat) : chanResumes (wakeChan drifts h c) k ↔ chanResumes h k := by
  rw [chanResumes, (wakeChan_keepsField drifts (config_offPauses k) h c).isSet,
    (wakeChan_keepsField drifts (stopped_offPauses k) h c).isSet]

theorem wakeChan_refresh_same {h : Hw} {c : Nat} (runs : chanResumes h c) : (dramCh (wakeChan drifts h c) c).selfRefresh = false := by
  rw [wakeChan, if_pos runs, (wakeChan_pauses drifts h c).refresh, dramCh_setDramCh_same]

theorem wakeChan_refresh_ne (h : Hw) {c k : Nat} (other : k ≠ c) :
    (dramCh (wakeChan drifts h c) k).selfRefresh = (dramCh h k).selfRefresh := by
  unfold wakeChan
  split
  · rw [(wakeChan_pauses drifts h c).refresh, dramCh, setDramCh, getD_setD_ne _ _ _ other, dramCh]
  · rfl

theorem wakeChan_wakes (h : Hw) (c : Nat) : Awake c (wakeChan drifts h c) := fun runs =>
  wakeChan_refresh_same drifts ((wakeChan_resumes drifts h c c).mp runs)

theorem wakeChan_stays (h : Hw) (k w : Nat) (awake : Awake k h) : Awake k (wakeChan drifts h w) := by
  by_cases here : k = w
  · exact here ▸ wakeChan_wakes drifts h k
  · exact fun runs => (wakeChan_refresh_ne drifts h here).trans (awake ((wakeChan_resumes drifts h w k).mp runs))

theorem wakeAll_wakes (h : Hw) (c : Fin 4) (runs : chanResumes h c) :
    (dramCh (applyAll (wakeChan drifts) h (List.range 4)) c).selfRefresh = false := by
  refine applyAll_each (P := Awake) (wakeChan_wakes drifts) (wakeChan_stays drifts) (List.mem_range.mpr c.isLt) h ?_
  have config : KeepsField (aDC_CFG c) fDC_CFG_EN h (applyAll (wakeChan drifts) h (List.range 4)) :=
    applyAll_keepsField (fun t w _ => wakeChan_keepsField drifts (config_offPauses c) t w) h
  have stopped : KeepsField (aDC_STAT c) fDC_STAT_STOPPED h (applyAll (wakeChan drifts) h (List.range 4)) :=
    applyAll_keepsField (fun t w _ => wakeChan_keepsField drifts (stopped_offPauses c) t w) h
  rw [chanResumes, config.isSet, stopped.isSet]
  exact runs

end

/-! ## The resume (R449) -/

/-- The state, the array, the timebase, the controllers and the freeze register are as before. -/
structure SameRun (h t : Hw) : Prop where
  mode : t.mode = h.mode
  arr : t.arr = h.arr
  tb : t.tb = h.tb
  dram : t.dram = h.dram
  freeze : reg t aHI_FRZ = reg h aHI_FRZ

theorem SameRun.trans {a b c : Hw} (h1 : SameRun a b) (h2 : SameRun b c) : SameRun a c :=
  ⟨h2.mode.trans h1.mode, h2.arr.trans h1.arr, h2.tb.trans h1.tb, h2.dram.trans h1.dram, h2.freeze.trans h1.freeze⟩

theorem SameRun.same (h : Hw) : SameRun h h := ⟨rfl, rfl, rfl, rfl, rfl⟩

theorem LogsOnly.sameRun {h t : Hw} (logs : LogsOnly h t) : SameRun h t := by
  have freeze := logs.2 aHI_FRZ (by decide) (by decide)
  obtain ⟨⟨r, j, o, z, rfl⟩, -⟩ := logs
  exact ⟨rfl, rfl, rfl, rfl, freeze⟩

theorem sendOn_sameRun (h : Hw) (port : Nat) (c : CPkt) : SameRun h (sendOn h port c) := by
  obtain ⟨_, sent⟩ := sendOn_only h port c
  rw [sent]
  exact ⟨rfl, rfl, rfl, rfl, rfl⟩

theorem flushDeferred_none {h : Hw} (none : h.frz.deferred = []) : SameRun h (flushDeferred h) := by
  rw [flushDeferred, none]
  exact ⟨rfl, rfl, rfl, rfl, rfl⟩

/-- The freeze registers told of a resume. -/
def resumeNoted (h : Hw) (dropped : Bool) : Hw :=
  let h2 := setF (setF { h with frz.resuming := false, frz.out := 0 } aHI_FRZ fHI_FRZ_FROZEN 0) aHI_FRZ fHI_FRZ_DRAMSR 0
  setF (setF h2 aHI_FRZ fHI_FRZ_LINKRT dropped.toNat) aFR_STAT fFR_STAT_DRAMOUT 0

/-- The device in the state that it had. -/
def freezeOver (h : Hw) (dropped : Bool) : Hw := setMode (resumeNoted h dropped) h.before

/-- What a resume tells, once the channels run: the log, the alarms that waited, vector 20 and the neighbours. -/
def tellResume (h : Hw) (dropped : Bool) : Hw :=
  let h7 := flushDeferred (writeLog h (recNow h 0x0006 0xFFFF 0xFF 0xFF 0
    (getF h aHI_FRZ fHI_FRZ_CAUSE * 2 ^ 5 + dropped.toNat * 2 ^ 4)))
  let h9 := sendVector (if isSet h7 aFR_STAT fFR_STAT_LATE then raiseAlarm h7 0x181 0xFF 0 0 else h7) 20
  if isSet h9 aFR_CTL fFR_CTL_RPROP then applyAll (fun h port => sendOn h port (freezePkt h 0xFD true)) h9 [0, 1] else h9

section
variable (dropped : Bool)

theorem resumeDone_runs {h : Hw} (stands : h.mode = .frozen) (asked : h.frz.resuming = true) (drifts : List (BitVec 8)) :
    resumeDone h dropped drifts = tellResume (applyAll (wakeChan drifts) (freezeOver h dropped) (List.range 4)) dropped :=
  if_neg (by rw [not_or, not_not, not_not]; exact ⟨stands, asked⟩)

theorem waits_freezeOver (h : Hw) : waits (freezeOver h dropped) = (h.slots, h.noc, false) := by
  rw [freezeOver, waits_setMode, resumeNoted, waits_setF, waits_setF, waits_setF, waits_setF]
  rfl

theorem waits_wakeChan (drifts : List (BitVec 8)) (h : Hw) (c : Nat) : waits (wakeChan drifts h c) = waits h := by
  unfold wakeChan
  split
  · rw [waits_pauseEnd, startPause, waits_bump, waits_setDramCh, waits_setDramCh]
  · rfl

theorem waits_tellResume (h : Hw) : waits (tellResume h dropped) = waits h := by
  unfold tellResume
  extract_lets h7 h9
  have raised : waits h7 = waits h := (waits_flushDeferred _).trans (waits_writeLog _ _)
  have told : waits h9 = waits h7 := by
    unfold h9
    rw [waits_sendVector]
    split
    · exact waits_raiseAlarm _ _ _ _ _
    · rfl
  split
  · exact (applyAll_kept (g := waits) (fun h port => waits_sendOn h port _) [0, 1] h9).trans (told.trans raised)
  · exact told.trans raised

theorem waits_resumeDone {h : Hw} (stands : h.mode = .frozen) (asked : h.frz.resuming = true) (drifts : List (BitVec 8)) :
    waits (resumeDone h dropped drifts) = (h.slots, h.noc, false) := by
  rw [resumeDone_runs dropped stands asked, waits_tellResume,
    applyAll_kept (g := waits) (waits_wakeChan drifts), waits_freezeOver]

theorem tellResume_sameRun {h : Hw} (none : h.frz.deferred = []) : SameRun h (tellResume h dropped) := by
  have logged (r : LogRec) : SameRun h (flushDeferred (writeLog h r)) := by
    refine (writeLog_logs h r).sameRun.trans (flushDeferred_none ?_)
    obtain ⟨_, _, _, written⟩ := writeLog_only h r
    rw [written]
    exact none
  unfold tellResume
  extract_lets h7 h9
  have raised : SameRun h h7 := logged _
  have told : SameRun h7 h9 := by
    refine SameRun.trans ?_ (sendVector_logs _ 20).sameRun
    split
    · exact (raiseAlarm_logs rfl (by decide) h7 _ _ _).sameRun
    · exact .same h7
  split
  · exact (raised.trans told).trans
      (applyAll_related SameRun.same SameRun.trans (fun h port _ => sendOn_sameRun h port _) h9)
  · exact raised.trans told

theorem freezeOver_logs (h : Hw) : LogsOnly { resumeNoted h dropped with mode := h.before } (freezeOver h dropped) :=
  setMode_logs _ _

theorem freezeOver_freeze (h : Hw) : reg (freezeOver h dropped) aHI_FRZ = reg (resumeNoted h dropped) aHI_FRZ :=
  (freezeOver_logs dropped h).sameRun.freeze

theorem setMode_deferred (h : Hw) (m : DevState) : (setMode h m).frz.deferred = h.frz.deferred := by
  unfold setMode
  split
  · rfl
  · obtain ⟨_, _, _, sent⟩ := (writeLog_only { h with mode := m } (recNow h 0x0007 0xFFFF 0xFF 0xFF 0 0)).trans
      (sendVector_only _ 19)
    rw [sent]

theorem freezeOver_deferred (h : Hw) : (freezeOver h dropped).frz.deferred = h.frz.deferred := setMode_deferred _ _

/-- The registers of a controller read as before. -/
theorem freezeOver_dram (h : Hw) {a : Nat} (dram : 0x1009080000 ≤ a) (below : a < 0x1009080000 + 0x80000) :
    reg (freezeOver h dropped) a = reg h a := by
  have freeze : a ≠ aHI_FRZ := by unfold aHI_FRZ bar0Base; omega
  have status : a ≠ aFR_STAT := by unfold aFR_STAT; omega
  refine ((freezeOver_logs dropped h).2 a ?_ ?_).trans ?_
  · unfold aAL_STAT; omega
  · unfold aHI_ALSUM bar0Base; omega
  · refine (reg_setF_ne _ _ _ status).trans ((reg_setF_ne _ _ _ freeze).trans ((reg_setF_ne _ _ _ freeze).trans ?_))
    exact reg_setF_ne _ _ _ freeze

theorem freezeOver_unfrozen (h : Hw) : isSet (freezeOver h dropped) aHI_FRZ fHI_FRZ_FROZEN = false := by
  rw [isSet, getF_of_reg (freezeOver_freeze dropped h), resumeNoted, getF_setF_ne _ _ _ _ (by decide),
    getF_setF_beside _ _ _ (by decide) (by decide), getF_setF_beside _ _ _ (by decide) (by decide),
    getF_setF_same _ _ (by decide)]
  rfl

theorem freezeOver_linkrt (h : Hw) : getF (freezeOver h dropped) aHI_FRZ fHI_FRZ_LINKRT = dropped.toNat := by
  rw [getF_of_reg (freezeOver_freeze dropped h), resumeNoted,
    getF_setF_ne _ _ _ _ (by decide), getF_setF_same _ _ (by decide)]
  cases dropped <;> rfl

end

section
variable {h : Hw} {dropped : Bool} {drifts : List (BitVec 8)} (stands : h.mode = .frozen) (asked : h.frz.resuming = true)
  (none : h.frz.deferred = [])
include stands asked none

/-- The freeze register, the state, the array and the timebase are settled before the channels are woken; what is told
afterwards changes none of them. -/
theorem resumeDone_told : ∃ t, t = applyAll (wakeChan drifts) (freezeOver h dropped) (List.range 4) ∧
    OnlyChannels (freezeOver h dropped) t ∧ SameRun t (resumeDone h dropped drifts) := by
  have channels : OnlyChannels (freezeOver h dropped) (applyAll (wakeChan drifts) (freezeOver h dropped) (List.range 4)) :=
    applyAll_related .same .trans (fun h c _ => wakeChan_channels drifts h c) _
  refine ⟨_, rfl, channels, ?_⟩
  rw [resumeDone_runs dropped stands asked]
  refine tellResume_sameRun dropped ?_
  obtain ⟨_, _, _, woken⟩ := channels
  rw [woken]
  exact (freezeOver_deferred dropped h).trans none

theorem resumeDone_freeze {f : Fld} (fits : f.lo + f.w ≤ 64) :
    KeepsField aHI_FRZ f (freezeOver h dropped) (resumeDone h dropped drifts) := by
  obtain ⟨t, rfl, -, told⟩ := resumeDone_told (dropped := dropped) (drifts := drifts) stands asked none
  have woken : KeepsField aHI_FRZ f (freezeOver h dropped)
      (applyAll (wakeChan drifts) (freezeOver h dropped) (List.range 4)) :=
    applyAll_keepsField (fun t w _ => wakeChan_keepsField drifts (freeze_offPauses fits) t w) _
  exact woken.trans (getF_of_reg told.freeze f)

theorem resumeDone_run : (resumeDone h dropped drifts).mode = h.before ∧ (resumeDone h dropped drifts).arr = h.arr ∧
    (resumeDone h dropped drifts).tb = h.tb := by
  obtain ⟨t, -, ⟨r, j, d, rfl⟩, told⟩ := resumeDone_told (dropped := dropped) (drifts := drifts) stands asked none
  have noted := (freezeOver_logs dropped h).sameRun
  exact ⟨told.mode.trans noted.mode, told.arr.trans noted.arr, told.tb.trans noted.tb⟩

theorem resumeDone_awake (c : Fin 4) (runs : chanResumes h c) : (dramCh (resumeDone h dropped drifts) c).selfRefresh = false := by
  obtain ⟨t, rfl, -, told⟩ := resumeDone_told (dropped := dropped) (drifts := drifts) stands asked none
  rw [dramCh, told.dram]
  refine wakeAll_wakes drifts (freezeOver h dropped) c ?_
  have small := c.isLt
  rw [chanResumes, isSet_of_reg (freezeOver_dram dropped h (a := aDC_CFG c) ?_ ?_),
    isSet_of_reg (freezeOver_dram dropped h (a := aDC_STAT c) ?_ ?_)]
  · exact runs
  all_goals
    simp only [aDC_CFG, aDC_STAT]
    omega

end

/-- With nothing waiting at the slots and controllers, a resume leaves what `resumeDone` does. -/
theorem resumeComplete_gives {s : State} (stands : s.hw.mode = .frozen) (asked : s.hw.frz.resuming = true)
    (slots : s.hw.slots = []) (held : s.hw.noc.held = []) (dropped : Bool) (drifts : List (BitVec 8)) :
    GivesHw (.resumeComplete dropped drifts) s (resumeDone s.hw dropped drifts) := by
  have kept := waits_resumeDone dropped stands asked drifts
  have free : (resumeDone s.hw dropped drifts).slots = [] := (congrArg (·.1) kept).trans slots
  have served : (resumeDone s.hw dropped drifts).noc.held = [] := (congrArg (fun w => w.2.1.held) kept).trans held
  have answered : resumeServed s.mem (answerResume (resumeDone s.hw dropped drifts)) = (s.mem, resumeDone s.hw dropped drifts) := by
    rw [answerResume_none free, resumeServed_none s.mem served]
  have gives : GivesMem (.resumeComplete dropped drifts) s (s.mem, resumeDone s.hw dropped drifts) :=
    givesMem_onMem rfl answered
  exact gives

end Sys2Proof.Machine

open Sys2Proof Sys2Proof.Machine

/-- Settles O53: the TAP and the readout case by case; a resume through its three stages, the freeze registers, the channels'
waking and what is told, of which only the first changes the device's state. -/
theorem frozenReadoutAndResume : Obligations.FrozenReadoutAndResume := by
  refine ⟨?address, ?openAddress, ?data, ?hole, ?dram, ?noAddress, ?noData, ?noReadout, ?readout, ?fills, ?lastBack, ?back,
    ?notOut, ?tapResume, ?resume, ?low, ?tapLow, ?notFrozen, ?tapNotFrozen, ?notAsked, ?answers, ?completes, ?leaves⟩
  case address =>
    exact fun a s stands eighth => givesHw_onHw rfl ((if_neg (not_not_intro stands)).trans (if_pos eighth))
  case openAddress =>
    exact fun a s stands odd => givesHw_onHw rfl ((if_neg (not_not_intro stands)).trans (if_neg odd))
  case data => exact fun r bs s stands read served => givesHw_onHw rfl (tapRead_served stands read served)
  case hole =>
    exact fun r s stands read unserved other =>
      givesHw_onHw rfl ((tapRead_unserved stands read unserved).trans (by rw [if_neg other]))
  case dram =>
    exact fun r s stands read unserved dram =>
      givesHw_onHw rfl ((tapRead_unserved stands read unserved).trans (by rw [if_pos dram]))
  case noAddress => exact fun a s runs => givesHw_onHw rfl (if_pos runs)
  case noData => exact fun s runs => givesHw_onHw rfl (if_pos runs)
  case noReadout => exact fun s runs => givesHw_onHw rfl (if_pos runs)
  case readout => exact fun s stands => givesHw_onHw rfl rfl
  case fills => exact fun m h stands => frozenReadout_fills m stands
  case lastBack =>
    rintro c o s stands rfl out
    exact givesHw_onHw rfl (srReturn_last stands out)
  case back => exact fun c s stands out more => givesHw_onHw rfl (srReturn_more stands out more)
  case notOut => exact fun c s idle => givesHw_onHw rfl (srReturn_idle idle)
  case tapResume => exact fun s stands => givesHw_onHw rfl (resumeRequest_taken stands)
  case resume => exact fun s stands => givesHw_onHw rfl (resumeRequest_taken stands)
  case low => exact fun s => givesHw_onHw rfl (if_pos (.inr rfl))
  case tapLow => exact fun s => givesHw_onHw rfl (if_pos (.inr rfl))
  case notFrozen => exact fun s runs => givesHw_onHw rfl (if_pos (.inl runs))
  case tapNotFrozen => exact fun s runs => givesHw_onHw rfl (if_pos (.inl runs))
  case notAsked => exact fun dropped ds s stands idle slots => resumeComplete_idle stands idle slots dropped ds
  case answers => exact fun h sl x runs only taken code here => answerResume_asked runs only taken code here
  case completes => exact fun dropped ds s stands asked slots held => resumeComplete_gives stands asked slots held dropped ds
  case leaves =>
    intro dropped ds s stands asked _ none slots held
    obtain ⟨mode, arr, tb⟩ := resumeDone_run (dropped := dropped) (drifts := ds) stands asked none
    have keeps {f : Fld} (fits : f.lo + f.w ≤ 64) := resumeDone_freeze (dropped := dropped) (drifts := ds) stands asked none fits
    exact ⟨_, resumeComplete_gives stands asked slots held dropped ds, rfl, rfl, mode,
      congrArg (·.2.2) (waits_resumeDone dropped stands asked ds), arr, tb,
      (keeps (by decide)).isSet.trans (freezeOver_unfrozen dropped s.hw), Eq.trans (keeps (f := fHI_FRZ_LINKRT) (by decide)) (freezeOver_linkrt dropped s.hw),
      fun c live free => resumeDone_awake stands asked none c ⟨live, Bool.eq_false_iff.mp free⟩⟩
end

section
/-!
PROOF. The start of firmware with a FATAL alarm that waited for it: the alarm is raised and its recovery is over, so that
no recovery action remains; the statement leaves the action of the alarm running.
-/

namespace Sys2Proof.Machine

/-- Firmware about to start, no recovery action running, and the FATAL alarm `RAIL_FAULT` waiting for it. -/
def startWithAlarm : State :=
  { State.reset with
    hw := { State.reset.hw with clocked := true, locked := true, phase := .firmware, frz.deferred := [(0x008, 0xFF, 0, 0)] } }

/-- The alarm that waited, raised in START-UP, asks for its recovery action. -/
theorem startWithAlarm_flushed : (flushDeferred startWithAlarm.hw).recovering = some 0x008 := by decide +kernel

theorem LogsOnly.recovering {h t : Hw} (logs : LogsOnly h t) : t.recovering = h.recovering := by
  obtain ⟨⟨r, j, o, z, rfl⟩, -⟩ := logs
  rfl

/-! ## The start keeps what recovery action runs -/

/-- Neither slot of the ledger reads the same twice. -/
theorem ledgerRead_recovering (nv : Nv) (h : Hw) : (ledgerRead nv h [0, 1]).recovering = h.recovering :=
  (raiseAlarm_logs rfl (by decide) _ _ _ _).recovering

theorem setDefaultPools_recovering (h : Hw) : (setDefaultPools h).recovering = h.recovering := by
  refine applyAll_kept (g := Hw.recovering) (fun t i => ?_) _ h
  dsimp only
  split <;> rfl

theorem dramConfigCheck_recovering (h : Hw) : (dramConfigCheck h []).recovering = h.recovering := by
  unfold dramConfigCheck
  split
  · rfl
  · rw [if_neg (by decide), (raiseAlarm_logs (code := 0x080) (cls := 1) rfl (by decide) _ _ _ _).recovering]
    exact applyAll_kept (g := Hw.recovering) (fun t c => rfl) (List.range 4) _

theorem started_recovering (h : Hw) : (started h).recovering = h.recovering := rfl
theorem twiddlesStandard_recovering (h : Hw) : (twiddlesStandard h).recovering = h.recovering := rfl

/-- Firmware's reading of the ledger, its pools, its tables and its check of the DRAM, none fitted. -/
def startSteps (nv : Nv) (h : Hw) : Hw :=
  started (dramConfigCheck (twiddlesStandard (setDefaultPools (ledgerRead nv h [0, 1]))) [])

theorem startSteps_recovering (nv : Nv) (h : Hw) : (startSteps nv h).recovering = h.recovering := by
  rw [startSteps, started_recovering, dramConfigCheck_recovering, twiddlesStandard_recovering, setDefaultPools_recovering,
    ledgerRead_recovering]

theorem firmwareStart_starts {s : State} (phase : s.hw.phase = .firmware) (idle : s.hw.recovering = none)
    (runs : frozen s.hw = false) :
    GivesHw (.firmwareStart [] [0, 1]) s (startSteps s.nv { flushDeferred s.hw with recovering := none }) := by
  refine givesHw_onHw rfl ?_
  rw [firmwareStart, if_neg (by simp [phase, idle, runs]), startSteps]
  dsimp only
  generalize setDefaultPools _ = pools
  rfl

theorem givesHw_unique {i : Instr} {s : State} {h t : Hw} (one : GivesHw i s h) (other : GivesHw i s t) : h = t :=
  congrArg State.hw (Host.Outcome.next.inj (one.symm.trans other))

end Sys2Proof.Machine

open Sys2Proof Sys2Proof.Machine

/-- Refutes O54: where a FATAL alarm waited, the start of firmware raises it and leaves no recovery action running, but the
clause of the start leaves the alarm's action running. -/
theorem not_powerOnRunsItsSequence : ¬ Obligations.PowerOnRunsItsSequence := by
  rintro ⟨-, -, -, -, -, -, -, -, -, -, -, -, -, -, -, -, -, -, starts, -⟩
  have stated : GivesHw (.firmwareStart [] [0, 1]) startWithAlarm (startSteps startWithAlarm.nv (flushDeferred startWithAlarm.hw)) :=
    starts [] [0, 1] startWithAlarm rfl rfl (by decide)
  have same := congrArg Hw.recovering (givesHw_unique stated (firmwareStart_starts rfl rfl (by decide)))
  rw [startSteps_recovering, startSteps_recovering, startWithAlarm_flushed] at same
  cases same
end

section
/-!
PROOF. RESET_N, the end of a domain's reset, the reopening of crossings and the end of a recovery action, case by case; a
domain's reset leaves the state of the device as it is (R460 to R468).
-/

namespace Sys2Proof.Machine

/-! ## The reset of a yard leaves the device's state (R463) -/

theorem probeRecord_mode (h : Hw) (k : Nat) (rec : TW × TW) : (probeRecord h k rec).mode = h.mode := by
  unfold probeRecord
  extract_lets
  split
  · rfl
  · exact bump_mode _ _ _ 1

theorem probesSee_mode (h : Hw) (inject : Bool) (router dst src op cnt rb addr : Nat) (ws : List TW) (resent : Bool) :
    (probesSee h inject router dst src op cnt rb addr ws resent).mode = h.mode := by
  unfold probesSee
  refine applyAll_kept (g := Hw.mode) (fun t k => ?_) _ h
  extract_lets c mt sm dm hit h1
  split
  · rfl
  · have counted : h1.mode = t.mode := by
      unfold h1
      split <;> rfl
    split
    · exact (probeRecord_mode h1 k _).trans counted
    · exact counted

theorem respond_mode (h : Hw) (op : Nat) (f : Flit) (status : Nat) (ws : List TW) : (respond h op f status ws).mode = h.mode := by
  have put (t : Hw) (r : NocResp) : (probeResp { t with noc.resp := t.noc.resp ++ [r] } true r).mode = t.mode := by
    unfold probeResp
    split
    · rfl
    · exact probesSee_mode _ _ _ _ _ _ _ _ _ _ _
  unfold respond putResps
  extract_lets s k rb hid parts h1 resps
  exact applyAll_kept (g := Hw.mode) put resps h1

theorem refuseWaiting_mode (h : Hw) (qs : List DmaReq) : (refuseWaiting h qs).mode = h.mode := by
  unfold refuseWaiting
  refine applyAll_kept (g := Hw.mode) (fun t q => ?_) qs h
  exact respond_mode t q.kind q.f 1 _

theorem resetYard_mode (h : Hw) (y : Nat) : (resetYard h y).mode = h.mode := by
  unfold resetYard
  extract_lets pens blank h1 closed h2 arr h3 arr' h4 h5
  have saved (t : Hw) (n : Nat) : (applyAll (fun h c => setSaved h n c 0) t (List.range 16)).mode = t.mode := by
    refine applyAll_kept (g := Hw.mode) (fun t c => ?_) _ t
    exact setF_mode t _ _ 0
  have banks : h1.mode = h.mode := by
    refine applyAll_kept (g := Hw.mode) (fun t n => ?_) pens h
    extract_lets h1 h2
    exact (saved h2 n).trans ((setPen_mode h1 n _).trans (refuseWaiting_mode t _))
  have loft : closed.mode = h1.mode := refuseWaiting_mode h1 _
  clear_value closed h1
  have troughs : h5.mode = h4.mode := by
    refine applyAll_kept (g := Hw.mode) (fun t i => ?_) (List.range 64) h4
    dsimp only
    split <;> rfl
  exact troughs.trans (loft.trans banks)

theorem domainClear_yard_mode (h : Hw) {code : Nat} (yard : code < 16) : (domainClear h code).mode = h.mode := by
  unfold domainClear
  extract_lets h1
  rw [if_pos yard, resetYard_mode]
  refine applyAll_kept (g := Hw.mode) (fun t e => ?_) h.regs h
  split <;> rfl

theorem recoveryAction_mode (h : Hw) (code : Nat) : (recoveryAction h code).mode = h.mode := by
  unfold recoveryAction
  split
  · extract_lets r h1
    have restarted : h1.mode = h.mode := setF_mode h _ _ 1
    split
    · exact (domainClear_yard_mode h1 ‹_›).trans restarted
    · exact restarted
  · rfl

/-! ## RESET_N (R460, Table 19.4) -/

/-- What RESET_N leaves of the device, before the fields that it keeps are put back. -/
def blankByResetN (h : Hw) : Hw :=
  { Hw.reset with
    aclk := h.aclk
    free := h.free
    locked := h.locked
    mcReset := h.mcReset
    tb := { Timebase.reset with sec := h.tb.sec, ns := h.tb.ns, frac := h.tb.frac }
    rstLow := true
    phase := .reset }

theorem resetN_clears {s : State} (started : s.hw.phase ≠ .por) : ∃ r j, getF { blankByResetN s.hw with regs := r, justSet := j }
    aDV_RST fDV_RST_CAUSE = 2 ∧ resetN s = { s with hw := { blankByResetN s.hw with regs := r, justSet := j }, mem := [] } := by
  obtain ⟨r, j, kept⟩ : OnlyRegs (blankByResetN s.hw)
      (setF (applyAll (fun g e => setF g e.1 e.2 (getF s.hw e.1 e.2)) (blankByResetN s.hw) keptByResetN) aDV_RST fDV_RST_CAUSE 2) :=
    (applyAll_only (fun h e => setF_only h _ _ _) _ _).trans (setF_only _ _ _ _)
  refine ⟨r, j, ?_, ?_⟩
  · rw [← kept, getF_setF_same _ _ (by decide)]
    rfl
  · rw [← kept]
    exact if_neg started

theorem exec_resetN (s : State) : exec (.resetNAssert true) s = .next (resetN s) := by
  have taken : execResetNAssert true s = .next (resetN s) := by rw [execResetNAssert, if_pos rfl]
  exact taken

theorem resetN_por {s : State} (por : s.hw.phase = .por) : resetN s = { s with hw := heldLow s.hw } := if_pos por

/-! ## The straps (R451) -/

section
variable (h : Hw) (st : Straps)

theorem sampleStraps_only : OnlyRegs h (sampleStraps h st) := by
  unfold sampleStraps
  extract_lets h1 h2 h3 h4
  have shown : OnlyRegs h h4 :=
    ((((setF_only h _ _ _).trans (setF_only _ _ _ _)).trans ((setF_only h1 _ _ _).trans (setF_only _ _ _ _))).trans
      (setF_only h2 _ _ _)).trans (setF_only h3 _ _ _)
  split
  · exact (shown.trans (setF_only h4 _ _ _)).trans (raiseBit_only _ _ _)
  · exact shown

/-- The boot register shows the three straps. -/
theorem sampleStraps_boot : reg (sampleStraps h st) aDV_BOOT =
    reg (setF (setF (setF h aDV_BOOT fDV_BOOT_BOOTSEL st.bootsel.toNat) aDV_BOOT fDV_BOOT_REFSEL st.refsel.toNat)
      aDV_BOOT fDV_BOOT_HOSTPORT st.hostport.toNat) aDV_BOOT := by
  unfold sampleStraps
  extract_lets h1 h2 h3 h4
  have shown : reg h4 aDV_BOOT = reg (setF h1 aDV_BOOT fDV_BOOT_HOSTPORT st.hostport.toNat) aDV_BOOT :=
    (reg_setF_ne h3 _ _ (by decide)).trans ((reg_setF_ne h2 _ _ (by decide)).trans (reg_setF_ne _ _ _ (by decide)))
  split
  · exact ((reg_raiseBit_ne _ _ (by decide)).trans (reg_setF_ne h4 _ _ (by decide))).trans shown
  · exact shown

theorem sampleStraps_bootsel : getF (sampleStraps h st) aDV_BOOT fDV_BOOT_BOOTSEL = st.bootsel.toNat := by
  rw [getF_of_reg (sampleStraps_boot h st), getF_setF_beside _ _ _ (by decide) (by decide),
    getF_setF_beside _ _ _ (by decide) (by decide), getF_setF_same _ _ (by decide)]
  exact Nat.mod_eq_of_lt st.bootsel.isLt

theorem sampleStraps_refsel : getF (sampleStraps h st) aDV_BOOT fDV_BOOT_REFSEL = st.refsel.toNat := by
  rw [getF_of_reg (sampleStraps_boot h st), getF_setF_beside _ _ _ (by decide) (by decide), getF_setF_same _ _ (by decide)]
  exact Nat.mod_eq_of_lt st.refsel.isLt

theorem isSet_setF_bool (a : Nat) {f : Fld} (fits : f.lo + f.w ≤ 64) (one : f.w = 1) (b : Bool) :
    isSet (setF h a f b.toNat) a f = b := by
  cases b
  · exact isSet_setF_zero h a fits
  · exact isSet_setF_one h a one (by omega)

theorem sampleStraps_hostport : isDev0 (sampleStraps h st) = st.hostport := by
  rw [isDev0, isSet_of_reg (sampleStraps_boot h st), isSet_setF_bool _ _ (by decide) rfl]

theorem sampleStraps_dev0 : isSet (sampleStraps h st) aCH_ID fCH_ID_DEV0 = st.hostport := by
  unfold sampleStraps
  extract_lets h1 h2 h3 h4
  have shown : isSet h4 aCH_ID fCH_ID_DEV0 = st.hostport := isSet_setF_bool h3 _ (by decide) rfl _
  split
  · have addressed : KeepsField aCH_ID fCH_ID_DEV0 h4 (raiseBit (setF h4 aCH_ID fCH_ID_ADDR 0) aCH_ID fCH_ID_AVLD) :=
      (setF_keepsField (by decide) (.inr (by decide)) h4 0).trans (raiseBit_keepsField (by decide) (.inr (by decide)) _)
    exact addressed.isSet.trans shown
  · exact shown

end

/-- RESET_N high again, and the sequence at step 2. -/
abbrev released2 (h : Hw) : Hw := { h with rstLow := false, phase := .rails }

theorem resetNRelease_low {h : Hw} (st : Straps) (low : h.phase = .reset) :
    resetNRelease h st = sampleStraps (released2 h) st := if_pos low

theorem resetNRelease_high {h : Hw} (st : Straps) (high : h.phase ≠ .reset) : resetNRelease h st = letGo h := if_neg high

theorem sampleStraps_released (h : Hw) (st : Straps) : (sampleStraps (released2 h) st).phase = .rails ∧
    (sampleStraps (released2 h) st).rstLow = false ∧ (sampleStraps (released2 h) st).clocked = h.clocked := by
  obtain ⟨r, j, only⟩ := sampleStraps_only (released2 h) st
  rw [only]
  exact ⟨rfl, rfl, rfl⟩

/-! ## Domains and crossings (R463, R466) -/

theorem domainClear_gates (h : Hw) : (domainClear h 0x1B).gates = [] := rfl

theorem domainEnd_idle {h : Hw} (idle : h.inDom = [] ∨ frozen h = true) : domainEnd h = h := by
  unfold domainEnd
  split
  · rfl
  · next code rest domains =>
    exact if_pos (idle.resolve_left (by rw [domains]; nofun))

theorem survivorRuns_device {h : Hw} {code : Nat} (live : frozen h = false) (device : 16 ≤ code) : survivorRuns h code = true := by
  rw [survivorRuns, live, decide_eq_true device]
  rfl

theorem reopen_shut {m : Sparse Byte} {h : Hw} {code : Nat} (shut : h.aclk % 4 ≠ 0 ∨ h.inDom.contains code = true ∨
    h.quarantined.getLsbD code = false ∨ survivorRuns h code = false) (n : Nat) : reopen m h code n = (m, h) := by
  refine if_pos ?_
  rcases shut with off | within | free | still
  · exact .inr (.inr (.inr off))
  · exact .inr (.inl within)
  · exact .inl (Bool.eq_false_iff.mp free)
  · exact .inr (.inr (.inl (Bool.eq_false_iff.mp still)))

section
variable {m : Sparse Byte} {h : Hw} {code : Nat} (quarantined : h.quarantined.getLsbD code = true)
  (ended : h.inDom.contains code = false) (runs : survivorRuns h code = true) (edge : h.aclk % 4 = 0)
include quarantined ended runs edge

theorem reopen_opens (n : Nat) : reopen m h code n =
    if 0x1C ≤ code ∧ code < 0x20 then
      serveHeld m (countQuarantine (outOfQuarantine (if n = 0 then h else bump h aDV_XQ fDV_XQ_XDISC n) code)) (code - 0x1C)
    else (m, countQuarantine (outOfQuarantine (if n = 0 then h else bump h aDV_XQ fDV_XQ_XDISC n) code)) :=
  if_neg (by rw [quarantined, ended, runs, edge]; decide)

theorem reopen_other (n : Nat) (other : code < 0x1C ∨ 0x20 ≤ code) : reopen m h code n =
    (m, countQuarantine (outOfQuarantine (if n = 0 then h else bump h aDV_XQ fDV_XQ_XDISC n) code)) :=
  (reopen_opens quarantined ended runs edge n).trans (if_neg (by omega))

end

theorem crossingReopen_other {s : State} {code : BitVec 8} (quarantined : s.hw.quarantined.getLsbD code.toNat = true)
    (ended : s.hw.inDom.contains code.toNat = false) (runs : survivorRuns s.hw code.toNat = true) (edge : s.hw.aclk % 4 = 0)
    (n : Nat) (other : code.toNat < 0x1C ∨ 0x20 ≤ code.toNat) : GivesHw (.crossingReopen code n) s
      (countQuarantine (outOfQuarantine (if n = 0 then s.hw else bump s.hw aDV_XQ fDV_XQ_XDISC n) code.toNat)) := by
  have gives := givesMem_onMem (i := .crossingReopen code n) rfl (reopen_other quarantined ended runs edge n other)
  exact gives

/-! ## The recovery action (R468) -/

section
variable {m : Sparse Byte} {h : Hw} {code : Nat} (recovers : h.recovering = some code) (live : h.mode ≠ .frozen)
include recovers live

theorem recoveryEnd_present (failed : List Nat) : recoveryEnd m h true failed = (m, recoveryAction h code) := by
  rw [recoveryEnd, recovers]
  exact (if_neg live).trans (if_pos rfl)

theorem recoveryEnd_over (failed : List Nat) : recoveryEnd m h false failed =
    if (recovered (recoveryAction h code)).mode ≠ .recovery ∨ ¬ isSet (recovered (recoveryAction h code)) aDV_CTL fDV_CTL_AUTORUN then
      (m, recovered (recoveryAction h code))
    else restarted m (recoveryAction h code) failed := by
  rw [recoveryEnd, recovers]
  exact (if_neg live).trans (if_neg Bool.false_ne_true)

end

theorem recoveryAction_else {code : Nat} (h : Hw) (other : code ≠ 0x008) : recoveryAction h code = h := if_neg other

section
variable {m : Sparse Byte} {h : Hw} {code : Nat} (recovers : h.recovering = some code) (recovery : h.mode = .recovery)
  (other : code ≠ 0x008)
include recovers recovery other

theorem recoveryEnd_restarts (auto : isSet h aDV_CTL fDV_CTL_AUTORUN = true) (failed : List Nat) :
    recoveryEnd m h false failed = restarted m h failed := by
  rw [recoveryEnd_over recovers (by rw [recovery]; nofun), recoveryAction_else h other]
  refine if_neg ?_
  rw [not_or, not_not, not_not]
  exact ⟨recovery, auto⟩

theorem recoveryEnd_stays (manual : isSet h aDV_CTL fDV_CTL_AUTORUN = false) (failed : List Nat) :
    recoveryEnd m h false failed = (m, recovered h) := by
  rw [recoveryEnd_over recovers (by rw [recovery]; nofun), recoveryAction_else h other]
  exact if_pos (.inr (Bool.eq_false_iff.mp manual))

end

theorem recoveryEnd_idle {m : Sparse Byte} {h : Hw} (idle : h.recovering = none ∨ h.mode = .frozen) (present : Bool)
    (failed : List Nat) : recoveryEnd m h present failed = (m, h) := by
  unfold recoveryEnd
  split
  · rfl
  · next code recovers =>
    exact if_pos (idle.resolve_left (by rw [recovers]; nofun))

/-- With no function recorded nothing is restarted. -/
theorem restarted_none {m : Sparse Byte} {h : Hw} (none : h.recorded = []) (failed : List Nat) :
    restarted m h failed = (m, returnToRun (recovered h)) := by
  have same : { h with recovering := Option.none, recorded := [] } = recovered h := by
    rw [recovered, ← none]
  rw [restarted, same, none]
  rfl

end Sys2Proof.Machine

open Sys2Proof Sys2Proof.Machine

/-- Settles O55: each event by the branch of its definition that its conditions choose. -/
theorem resetsAndRecoveryAct : Obligations.ResetsAndRecoveryAct := by
  refine ⟨?falls, ?notTaken, ?heldLow, ?rises, ?letGo, ?domainEnds, ?noDomain, ?gates, ?reopens, ?discards, ?controller, ?closed,
    ?remains, ?noAction, ?otherAlarm, ?yardRail, ?rail, ?notRecovery, ?restarts, ?stays, ?nothing⟩
  case falls =>
    intro s started
    obtain ⟨r, j, cause, drops⟩ := resetN_clears started
    exact ⟨_, (exec_resetN s).trans (congrArg Host.Outcome.next drops), rfl, rfl, rfl, rfl, rfl, rfl, rfl, rfl, rfl, rfl, cause, rfl⟩
  case notTaken => exact fun s => ⟨s, rfl, rfl⟩
  case heldLow => exact fun s por => ⟨_, (exec_resetN s).trans (congrArg Host.Outcome.next (resetN_por por)), rfl, rfl, rfl, rfl⟩
  case rises =>
    intro st s low
    have gives := givesHw_onHw (i := .resetNRelease st) rfl (resetNRelease_low st low)
    obtain ⟨phase, high, clocked⟩ := sampleStraps_released s.hw st
    exact ⟨_, gives, rfl, phase, high, clocked, sampleStraps_bootsel _ st, sampleStraps_refsel _ st, sampleStraps_hostport _ st,
      sampleStraps_dev0 _ st⟩
  case letGo => exact fun st s high => givesHw_onHw rfl (resetNRelease_high st high)
  case domainEnds =>
    intro c rest s live domains
    refine givesHw_onHw rfl ?_
    rw [domainEnd, domains]
    exact if_neg (Bool.eq_false_iff.mp live)
  case noDomain => exact fun s idle => givesHw_onHw rfl (domainEnd_idle idle)
  case gates => exact domainClear_gates
  case reopens =>
    exact fun code s quarantined ended runs edge other => crossingReopen_other quarantined ended runs edge 0 other
  case discards =>
    intro code n s quarantined ended runs edge some other
    have gives := crossingReopen_other quarantined ended runs edge n other
    rwa [if_neg some] at gives
  case controller =>
    intro code c s quarantined ended live edge controller
    have runs : survivorRuns s.hw code.toNat = true := survivorRuns_device live (by omega)
    refine givesMem_onMem rfl ((reopen_opens quarantined ended runs edge 0).trans ?_)
    rw [if_pos ⟨by omega, by omega⟩, if_pos rfl, controller, Nat.add_sub_cancel_left]
  case closed =>
    intro code n s shut
    have left : reopen s.mem s.hw code.toNat n = (s.mem, s.hw) := reopen_shut shut n
    have gives : GivesMem (.crossingReopen code n) s (s.mem, s.hw) := givesMem_onMem rfl left
    exact gives
  case remains =>
    intro code failed s recovers live
    have gives := givesMem_onMem (i := .recoveryActionEnd true failed) rfl (recoveryEnd_present (m := s.mem) recovers live _)
    exact gives
  case noAction =>
    intro p failed s idle
    have gives := givesMem_onMem (i := .recoveryActionEnd p failed) rfl (recoveryEnd_idle (m := s.mem) idle p _)
    exact gives
  case otherAlarm => exact fun h code other => recoveryAction_else h other
  case yardRail =>
    rintro h r rfl yard
    exact (if_pos rfl).trans (if_pos yard)
  case rail =>
    rintro h r rfl device
    exact (if_pos rfl).trans (if_neg (by omega))
  case notRecovery =>
    intro code failed s recovers other live
    have left := (recoveryEnd_over (m := s.mem) recovers live (failed.map BitVec.toNat)).trans
      (if_pos (.inl (by rw [recovered, recoveryAction_mode]; exact other)))
    have gives := givesMem_onMem (i := .recoveryActionEnd false failed) rfl left
    exact gives
  case restarts =>
    intro code failed s recovers recovery other auto
    refine ⟨_, givesMem_onMem rfl (recoveryEnd_restarts recovers recovery other auto _), rfl⟩
  case stays =>
    intro code failed s recovers recovery other manual
    have gives := givesMem_onMem (i := .recoveryActionEnd false failed) rfl
      (recoveryEnd_stays (m := s.mem) recovers recovery other manual _)
    exact gives
  case nothing =>
    intro code failed s recovers recovery other auto none
    have gives := givesMem_onMem (i := .recoveryActionEnd false failed) rfl
      ((recoveryEnd_restarts (m := s.mem) recovers recovery other auto _).trans (restarted_none none _))
    exact gives
end

section
/-!
PROOF. The gate schedule: a commit by its refusal, a start and a stop by the branch that the occurrence takes, and the end of
an occurrence (R319 to R323).
-/

namespace Sys2Proof.Machine

/-! ## The entries of the gate schedule -/

@[simp] theorem gate_setGate_same (h : Hw) (i : Nat) (g : Gate) : gate (setGate h i g) i = g := getD_setD_same Gate.reset h.gates i g

theorem gate_of_gates {h t : Hw} (same : t.gates = h.gates) (i : Nat) : gate t i = gate h i := by rw [gate, same, gate]

theorem gsCtl_located (i : Fin 64) : locate (aGS_CTL i) = some (Blk.gs, 0, 0x40 * i.val) ∧ aGS_CTL i % 8 = 0 ∧
    inShadow (aGS_CTL i) = false ∧ rclkHole (aGS_CTL i) = false := by decide +revert

theorem findReg_gsCtl (i : Fin 64) : findReg (blkRegs .gs) (0x40 * i.val) = some
    (⟨0x0, 64, 64, fun _ => [fGS_CTL_ARM, fGS_CTL_PINEN, fGS_CTL_EVMODE, fGS_CTL_PAD, fGS_CTL_POL]⟩, i.val) :=
  findReg_array _ i.isLt (by decide) (by dsimp only; omega)

theorem writeReg_gsCtl (m : Sparse Byte) (h : Hw) (i : Fin 64) (v : BitVec 64) :
    writeReg m h (aGS_CTL i) v = (m, writeGsCtl h i v.toNat) := by
  obtain ⟨located, aligned, unshadowed, whole⟩ := gsCtl_located i
  have small := i.isLt
  have counts : clearedBy .gs 0 (0x40 * i.val) = [] := if_neg (by omega)
  rw [writeReg_located v located (findReg_gsCtl i) (by dsimp only; decide) aligned unshadowed whole counts]
  have entry : writeGs h (0x40 * i.val) (aGS_CTL i) v.toNat = writeGsCtl h i v.toNat := by
    rw [writeGs, if_neg (by omega), if_pos (Nat.mul_mod_right _ _), Nat.mul_div_cancel_left _ (by decide)]
  exact congrArg (m, ·) entry

/-! ## Commits (R319, R322) -/

section
variable {h : Hw} {i v : Nat} (runs : frozen h = false)
include runs

theorem writeGsCtl_refused (refused : commitRefused h i v (stagedGate h i).1 (stagedGate h i).2.1 (stagedGate h i).2.2.1 = true) :
    writeGsCtl h i v = raiseBit h (aGS_STAT i) fGS_STAT_INVWR :=
  (if_neg (Bool.eq_false_iff.mp runs)).trans (if_pos refused)

theorem writeGsCtl_commits (fits : commitRefused h i v (stagedGate h i).1 (stagedGate h i).2.1 (stagedGate h i).2.2.1 = false) :
    writeGsCtl h i v = commitGate h i v (stagedGate h i).1 (stagedGate h i).2.1 (stagedGate h i).2.2.1 (stagedGate h i).2.2.2 false :=
  (if_neg (Bool.eq_false_iff.mp runs)).trans (if_neg (Bool.eq_false_iff.mp fits))

end

/-! ## A claim of a pad leaves the gate schedule (R478) -/

theorem raiseEventAll_gates (h : Hw) (e : Nat) : (raiseEventAll h e).gates = h.gates := by
  unfold raiseEventAll
  refine applyAll_kept (g := Hw.gates) (fun t y => ?_) _ h
  obtain ⟨_, _, _, _, raised⟩ := raiseEvent_only t y e
  rw [raised]

theorem jDownErr_gates (h : Hw) (d : Nat) : (jDownErr h d).gates = h.gates := by
  have down : (jSetUp h d false).gates = h.gates := by
    unfold jSetUp
    split
    · rfl
    · rw [raiseEventAll_gates, setF_gates]
  unfold jDownErr jRaise
  split
  · rw [raiseBit_gates, down]
  · rw [raiseEventAll_gates, raiseBit_gates, down]

theorem showLoss_gates (h : Hw) (p code : Nat) : (showLoss h p code).gates = h.gates := by
  unfold showLoss
  split
  · refine applyAll_kept (g := Hw.gates) (fun t d => ?_) _ h
    split
    · rfl
    · exact jDownErr_gates t d
  · exact raiseBit_gates h _ _
  · exact raiseBit_gates h _ _
  · rfl

theorem settlePad_gates (h : Hw) (p : Nat) : (settlePad h p).gates = h.gates := by
  unfold settlePad
  extract_lets best old cands holder sync h1
  have settled : h1.gates = h.gates := setF_gates _ _ _ _
  split
  · exact (showLoss_gates h1 p old).trans settled
  · exact settled

theorem claimPad_gates (h : Hw) (p code : Nat) : (claimPad h p code).gates = h.gates := by
  unfold claimPad
  split
  · rfl
  · split
    · exact showLoss_gates h p code
    · split
      · extract_lets h1
        split
        · exact (showLoss_gates h1 p 3).trans (settlePad_gates h p)
        · exact settlePad_gates h p
      · rfl

/-- The entry of a commit holds the times, the period and the count committed. -/
theorem commitGate_times (h : Hw) (i v start stop per cnt : Nat) (bySet : Bool) :
    (gate (commitGate h i v start stop per cnt bySet) i).start = start ∧
      (gate (commitGate h i v start stop per cnt bySet) i).stop = stop ∧
      (gate (commitGate h i v start stop per cnt bySet) i).per = per ∧
      (gate (commitGate h i v start stop per cnt bySet) i).cnt = cnt := by
  unfold commitGate
  extract_lets word g h1 armed g1 g2 h2
  have times : g2.start = start ∧ g2.stop = stop ∧ g2.per = per ∧ g2.cnt = cnt := by
    unfold g2
    split
    · split <;> exact ⟨rfl, rfl, rfl, rfl⟩
    · split <;> exact ⟨rfl, rfl, rfl, rfl⟩
  have placed : gate h2 i = g2 := gate_setGate_same h1 i g2
  split
  · rw [gate_of_gates (claimPad_gates h2 _ 2), placed]
    exact times
  · rw [placed]
    exact times

/-! ## Starts (R317, R318, R320) -/

section
variable {h : Hw} {i : Nat}

theorem gateDue_iff : gateDue h i = true ↔
    if (gate h i).evLate then (gate h i).armA + 1 ≤ h.aclk else t32 (gate h i).start ≤ now32 h := by
  unfold gateDue
  split <;> exact decide_eq_true_iff

theorem gateStartAt_idle (idle : gArmed h i = false ∨ gOpen h i = true ∨ gateDue h i = false) : gateStartAt h i = h := by
  refine if_pos ?_
  rcases idle with unarmed | opened | early
  · exact .inr (.inl (Bool.eq_false_iff.mp unarmed))
  · exact .inr (.inr (.inl opened))
  · exact .inr (.inr (.inr (mt gateDue_iff.mpr (Bool.eq_false_iff.mp early))))

/-- What a start that is reached does, by how its occurrence stands. -/
def startReached (h : Hw) (i : Nat) : Hw :=
  if emptyOcc h i (gate h i) then endOcc (bump h (aGS_STAT i) fGS_STAT_EMPTYCNT 1) i
  else if ¬ usesStop (reg h (aGS_CTL i)).toNat then endOcc (bump (gateFired h i) (aGS_STAT i) fGS_STAT_FIRECNT 1) i
  else if gateLate h i ∧ (t32 (gate h i).stop : Int) ≤ lateRise h i then
    endOcc (bump (gateFired h i) (aGS_STAT i) fGS_STAT_EMPTYCNT 1) i
  else
    setGate (bump (gateFired h i) (aGS_STAT i) fGS_STAT_FIRECNT 1) i (windowOpened (gate (gateFired h i) i) (riseSlot h i + 1))

theorem gateStartAt_reached (runs : frozen h = false) (armed : gArmed h i = true) (shut : gOpen h i = false)
    (due : gateDue h i = true) : gateStartAt h i = startReached h i := by
  have acts : ¬ (frozen h = true ∨ ¬ gArmed h i = true ∨ gOpen h i = true ∨
      ¬ if (gate h i).evLate then (gate h i).armA + 1 ≤ h.aclk else t32 (gate h i).start ≤ now32 h) := by
    rintro (froze | unarmed | opened | early)
    · exact Bool.false_ne_true (runs.symm.trans froze)
    · exact unarmed armed
    · exact Bool.false_ne_true (shut.symm.trans opened)
    · exact early (gateDue_iff.mp due)
  unfold gateStartAt
  extract_lets g reached a ev late fire lateCount rise rise32 h1 entry
  have fired : lateCount (fire h) = gateFired h i := rfl
  have opened : gate h1 i = gate (gateFired h i) i := by
    rw [gate_of_gates (bump_gates _ _ _ 1), fired]
  have window : windowOpened entry (rise + 1) = windowOpened (gate (gateFired h i) i) (riseSlot h i + 1) := by
    rw [show entry = gate (gateFired h i) i from opened]
    rfl
  rw [if_neg acts, startReached, ← window]
  unfold h1
  rw [fired]
  rfl

end

/-! ## Stops (R321) -/

theorem gateStopAt_idle {h : Hw} {i : Nat} (idle : gOpen h i = false ∨ now32 h < t32 (gate h i).stop) : gateStopAt h i = h :=
  if_pos (.inr (idle.imp_left Bool.eq_false_iff.mp))

theorem gateStopAt_reached {h : Hw} {i : Nat} (runs : frozen h = false) (opened : gOpen h i = true)
    (reached : t32 (gate h i).stop ≤ now32 h) {t : Hw}
    (strobed : t = if 2 ≤ getF h (aGS_CTL i) fGS_CTL_EVMODE then strobe h i else h) : gateStopAt h i = endOcc (setGate t i
      (windowClosed (gate t i) (max (slotOfTime h (t32 (gate h i).stop) + 1) (gate h i).closeAt))) i := by
  subst strobed
  refine (if_neg ?_).trans rfl
  rintro (froze | shut | early)
  · exact Bool.false_ne_true (runs.symm.trans froze)
  · exact shut opened
  · exact absurd reached (Nat.not_le.mpr early)

/-! ## The end of an occurrence (R320, R323) -/

section
variable {h : Hw} {i : Nat}

theorem endOcc_disarms (last : (gate h i).per = 0 ∨ (gate h i).cnt = 1) : gArmed (endOcc h i) i = false := by
  have disarmed (t : Hw) : gArmed (setF t (aGS_CTL i) fGS_CTL_ARM 0) i = false := isSet_setF_zero t _ (by decide)
  unfold endOcc
  extract_lets g disarm g1
  split
  · exact disarmed _
  · rw [if_pos (last.resolve_left ‹_›)]
    exact disarmed _

theorem endOcc_next (period : (gate h i).per ≠ 0) (more : (gate h i).cnt ≠ 1) (noSkip : (gate h i).skip = none) :
    endOcc h i = setGate h i (placeOcc h { gate h i with
      start := (gate h i).start + (gate h i).per, stop := (gate h i).stop + (gate h i).per, cnt := (gate h i).cnt - 1
      skip := none, inForce := none }) := by
  unfold endOcc
  extract_lets g disarm g1 g2
  rw [if_neg period, if_neg more, show g.skip = none from noSkip]

end

end Sys2Proof.Machine

open Sys2Proof Sys2Proof.Machine

/-- Settles O39: a commit by its refusal, a start and a stop by the branch that the occurrence takes, and the end of an
occurrence by its period and count. -/
theorem gateEntriesAct : Obligations.GateEntriesAct := by
  refine ⟨?refused, ?commits, ?times, ?empty, ?strobes, ?late, ?opens, ?noStart, ?stops, ?noStop, ?disarms, ?next⟩
  case refused =>
    exact fun i v s up refused => givesHw_busWrite (v := fun _ => v) up rfl ((writeReg_gsCtl _ _ i v).trans
      (congrArg (s.mem, ·) (writeGsCtl_refused (not_frozen_of_up up) refused)))
  case commits =>
    exact fun i v s up fits => givesHw_busWrite (v := fun _ => v) up rfl ((writeReg_gsCtl _ _ i v).trans
      (congrArg (s.mem, ·) (writeGsCtl_commits (not_frozen_of_up up) fits)))
  case times =>
    rintro h i v a b p c g rfl
    exact commitGate_times h i v a b p c false
  case empty =>
    exact fun i s runs armed shut due empty =>
      givesHw_onHw rfl ((gateStartAt_reached runs armed shut due).trans (if_pos empty))
  case strobes =>
    intro i s runs armed shut due filled stopless
    refine givesHw_onHw rfl ((gateStartAt_reached runs armed shut due).trans ?_)
    rw [startReached, if_neg (Bool.eq_false_iff.mp filled), if_pos (Bool.eq_false_iff.mp stopless)]
  case late =>
    intro i s runs armed shut due filled stop late
    refine givesHw_onHw rfl ((gateStartAt_reached runs armed shut due).trans ?_)
    rw [startReached, if_neg (Bool.eq_false_iff.mp filled), if_neg (not_not_intro stop), if_pos late]
  case opens =>
    intro i s runs armed shut due filled stop inTime
    refine givesHw_onHw rfl ((gateStartAt_reached runs armed shut due).trans ?_)
    rw [startReached, if_neg (Bool.eq_false_iff.mp filled), if_neg (not_not_intro stop), if_neg inTime]
  case noStart => exact fun i s idle => givesHw_onHw rfl (gateStartAt_idle idle)
  case stops => exact fun i h s runs opened reached strobed => givesHw_onHw rfl (gateStopAt_reached runs opened reached strobed)
  case noStop => exact fun i s idle => givesHw_onHw rfl (gateStopAt_idle idle)
  case disarms => exact fun h i last => endOcc_disarms last
  case next =>
    rintro h i g rfl period more noSkip
    rw [endOcc_next period more noSkip, gate_setGate_same]
    exact ⟨rfl, rfl, rfl, rfl⟩
end

section
/-!
PROOF. The timebase: its registers as the bus writes and reads them, the counter of the next cycle, the holdover update, the
capture pad and the PPS pad (R308 to R316).
-/

namespace Sys2Proof.Machine

theorem word_ofNat_toNat (v : BitVec 64) : BitVec.ofNat 64 v.toNat = v := by simp

/-! ## Increment, steps and sets (R310, R311) -/

section
variable {m : Sparse Byte} {h : Hw} (v : BitVec 64)

theorem writeReg_tbInc : writeReg m h aTB_INC v = (m, writeInc h v) := by
  rw [writeReg_located (b := .tb) (i := 0) (o := 8) v rfl rfl (by decide) rfl rfl rfl rfl]
  exact congrArg (fun w => (m, writeInc h w)) (word_ofNat_toNat v)

theorem writeReg_tbStep : writeReg m h aTB_STEP v = (m, writeStep h v) := by
  rw [writeReg_located (b := .tb) (i := 0) (o := 0x18) v rfl rfl (by decide) rfl rfl rfl rfl]
  exact congrArg (fun w => (m, writeStep h w)) (word_ofNat_toNat v)

theorem writeReg_tbSet : writeReg m h aTB_SET1 v = (m, writeSet h v) := by
  rw [writeReg_located (b := .tb) (i := 0) (o := 0x28) v rfl rfl (by decide) rfl rfl rfl rfl]
  exact congrArg (fun w => (m, writeSet h w)) (word_ofNat_toNat v)

end

/-- The bit that a step or a set is asked for with. -/
theorem go_set (v : BitVec 64) : (v ||| BitVec.ofNat 64 (2 ^ 63)).getLsbD 63 = true := by simp

section
variable {h : Hw} (runs : frozen h = false)
include runs

theorem writeInc_owned (v : BitVec 64) (owned : chainOwned h = true) : writeInc h v = raiseBit h aTB_CTL fTB_CTL_CHOWN :=
  (if_neg (Bool.eq_false_iff.mp runs)).trans (if_pos owned)

theorem writeStep_owned (v : BitVec 64) (owned : chainOwned h = true) : writeStep h v = raiseBit h aTB_CTL fTB_CTL_CHOWN :=
  (if_neg (Bool.eq_false_iff.mp runs)).trans (if_pos owned)

theorem writeSet_owned (v : BitVec 64) (owned : chainOwned h = true) : writeSet h v = raiseBit h aTB_CTL fTB_CTL_CHOWN :=
  (if_neg (Bool.eq_false_iff.mp runs)).trans (if_pos owned)

variable (own : chainOwned h = false)
include own

theorem writeInc_own (v : BitVec 64) :
    writeInc h v = if incOk v.toNat then setReg h aTB_INC v else raiseBit h aTB_CTL fTB_CTL_RSVVAL :=
  (if_neg (Bool.eq_false_iff.mp runs)).trans (if_neg (Bool.eq_false_iff.mp own))

theorem writeStep_own {w : BitVec 64} (go : w.getLsbD 63 = true) :
    writeStep h w = if stepOk (setF h aTB_STEP fTB_STEP_OFS w.toNat) (signed 48 (w.toNat % 2 ^ 48)) then
        askTb (setF h aTB_STEP fTB_STEP_OFS w.toNat) (.step (signed 48 (w.toNat % 2 ^ 48)))
      else raiseBit (setF h aTB_STEP fTB_STEP_OFS w.toNat) aTB_CTL fTB_CTL_RSVVAL :=
  ((if_neg (Bool.eq_false_iff.mp runs)).trans (if_neg (Bool.eq_false_iff.mp own))).trans (if_neg (not_not_intro go))

theorem writeSet_own {w : BitVec 64} (go : w.getLsbD 63 = true) :
    writeSet h w = if fieldOf fTB_SET1_NS w.toNat < nsPerSec then
        askTb (setF h aTB_SET1 fTB_SET1_NS (fieldOf fTB_SET1_NS w.toNat))
          (.set (getF (setF h aTB_SET1 fTB_SET1_NS (fieldOf fTB_SET1_NS w.toNat)) aTB_SET0 fTB_SET0_SEC)
            (fieldOf fTB_SET1_NS w.toNat))
      else raiseBit (setF h aTB_SET1 fTB_SET1_NS (fieldOf fTB_SET1_NS w.toNat)) aTB_CTL fTB_CTL_RSVVAL :=
  ((if_neg (Bool.eq_false_iff.mp runs)).trans (if_neg (Bool.eq_false_iff.mp own))).trans (if_neg (not_not_intro go))

end

section
variable {s : State} (up : Up s) (v : BitVec 64) {h : Hw}
include up

theorem givesHw_tbInc (is : writeInc s.hw v = h) : GivesHw (.tbIncWrite v) s h :=
  givesHw_busWrite (v := fun _ => v) up rfl ((writeReg_tbInc v).trans (congrArg (s.mem, ·) is))

theorem givesHw_tbStep (is : writeStep s.hw (v ||| BitVec.ofNat 64 (2 ^ 63)) = h) : GivesHw (.tbStep v) s h :=
  givesHw_busWrite (v := fun _ => v ||| BitVec.ofNat 64 (2 ^ 63)) up rfl ((writeReg_tbStep _).trans (congrArg (s.mem, ·) is))

theorem givesHw_tbSet (is : writeSet s.hw (v ||| BitVec.ofNat 64 (2 ^ 63)) = h) : GivesHw (.tbSet v) s h :=
  givesHw_busWrite (v := fun _ => v ||| BitVec.ofNat 64 (2 ^ 63)) up rfl ((writeReg_tbSet _).trans (congrArg (s.mem, ·) is))

end

/-! ## The counter (R308, R309) -/

theorem readReg_tbTime0 (h : Hw) : readReg h aTB_TIME0 = readTime0 h := by
  unfold readReg
  rw [show locate aTB_TIME0 = some (.tb, 0, 0x30) from rfl]
  exact if_pos rfl

/-- A count of time in 2^-32 ns. -/
def tb32 (t : Timebase) : Nat := (t.sec * nsPerSec + t.ns) * 2 ^ 32 + t.frac

/-- The increment in use lies within its limits. -/
theorem effOf_lt (h : Hw) : (effOf h).1 < 2 ^ 32 := by
  unfold effOf
  dsimp only
  split
  · decide
  · split
    · decide
    · rename_i below above
      dsimp only
      omega

theorem tb32_advanceTb {t : Timebase} {eff : Nat} (small : eff < 2 ^ 32) (frac : t.frac < 2 ^ 32) (ns : t.ns < nsPerSec)
    (sec : t.sec + 1 < 2 ^ 48) : tb32 (advanceTb t eff) = tb32 t + eff := by
  unfold tb32 advanceTb
  simp only [nsPerSec] at *
  split <;> omega

/-- A time moved by whole nanoseconds. -/
theorem moved_by {w f now : Nat} {n k : Int} (whole : (w : Int) = n) (parts : w * 2 ^ 32 + f = now) (low : 0 ≤ n + k) :
    (((n + k).toNat * 2 ^ 32 + f : Nat) : Int) = now + k * 2 ^ 32 := by omega

/-- A step whose result lies within the counter's range sets it to that time. -/
theorem applyTbOp_step {t : Timebase} {k n : Int} (at_ : ((t.sec * nsPerSec + t.ns : Nat) : Int) = n) (low : 0 ≤ n + k)
    (high : n + k < tbEnd) :
    applyTbOp t (.step k) = { t with sec := (n + k).toNat / nsPerSec, ns := (n + k).toNat % nsPerSec } := by
  rw [applyTbOp, at_]
  exact if_neg (by omega)

theorem tb32_atNs (t : Timebase) (x : Nat) : tb32 { t with sec := x / nsPerSec, ns := x % nsPerSec } = x * 2 ^ 32 + t.frac := by
  rw [tb32, Nat.div_add_mod']

theorem setGate_tb (h : Hw) (i : Nat) (g : Gate) : (setGate h i g).tb = h.tb := rfl

theorem gatesStepped_tb (h : Hw) (from32 to32 : Nat) : (gatesStepped h from32 to32).tb = h.tb := by
  unfold gatesStepped
  split
  · rfl
  · refine applyAll_kept (g := Hw.tb) (fun t e => ?_) _ h
    dsimp only
    split
    · rfl
    · split
      · exact setGate_tb t e.1 _
      · exact setGate_tb t e.1 _

/-- The counter of the next cycle is that of the steps and sets asked for. -/
theorem now32_tickTime (h : Hw) : now32 (tickTime h) = tb32 (h.tb.ops.foldl applyTbOp (advanceTb h.tb (effOf h).1)) := by
  unfold tickTime
  extract_lets e t1 t2 from32 h1 h2
  have shown : h1.tb = { t2 with inc := getF h aTB_INC fTB_INC_INC, hUse := h.tb.h, ops := [] } := setF_tb _ _ _ _
  have limited : h2.tb = h1.tb := by
    unfold h2
    split
    · exact raiseBit_tb h1 _ _
    · rfl
  have told : now32 h2 = tb32 t2 := by rw [now32, limited, shown, tb32]
  split
  · exact told
  · rw [now32, gatesStepped_tb]
    exact told

section
variable {h : Hw} (frac : h.tb.frac < 2 ^ 32) (ns : h.tb.ns < nsPerSec) (sec : h.tb.sec + 1 < 2 ^ 48)
include frac ns sec

theorem now32_tickTime_plain (none : h.tb.ops = []) : now32 (tickTime h) = now32 h + (effOf h).1 := by
  rw [now32_tickTime, none]
  exact tb32_advanceTb (effOf_lt h) frac ns sec

theorem now32_tickTime_step {k n : Int} (step : h.tb.ops = [.step k]) (at_ : n = ((now32 h + (effOf h).1) / 2 ^ 32 : Nat))
    (low : 0 ≤ n + k) (high : n + k < tbEnd) : (now32 (tickTime h) : Int) = (now32 h + (effOf h).1 : Nat) + k * 2 ^ 32 := by
  have moved : tb32 (advanceTb h.tb (effOf h).1) = now32 h + (effOf h).1 := tb32_advanceTb (effOf_lt h) frac ns sec
  have part : (advanceTb h.tb (effOf h).1).frac < 2 ^ 32 := Nat.mod_lt _ (by decide)
  rw [now32_tickTime, step]
  generalize advanceTb h.tb (effOf h).1 = t at *
  generalize now32 h + (effOf h).1 = now at *
  have whole : ((t.sec * nsPerSec + t.ns : Nat) : Int) = n := by
    rw [at_, ← moved, tb32]
    omega
  have stepped : tb32 ([TbOp.step k].foldl applyTbOp t) = (n + k).toNat * 2 ^ 32 + t.frac :=
    (congrArg tb32 (applyTbOp_step whole low high)).trans (tb32_atNs t _)
  rw [stepped]
  exact moved_by whole moved low

end

theorem now32_tickTime_set {h : Hw} {sec ns : Nat} (set : h.tb.ops = [.set sec ns]) :
    now32 (tickTime h) = (sec * nsPerSec + ns) * 2 ^ 32 := by
  rw [now32_tickTime, set, List.foldl_cons, List.foldl_nil, applyTbOp, tb32]
  exact Nat.add_zero _

/-! ## Holdover (R312) -/

theorem holdoverStep_idle {h : Hw} (idle : holdoverDue h = false) (die : BitVec 13) : holdoverStep h die = h :=
  if_pos (.inr (Bool.eq_false_iff.mp idle))

theorem tempCorr_of_fields {h t : Hw} (same : ∀ a f, getF t a f = getF h a f) (x : Int) : tempCorr t x = tempCorr h x := by
  simp only [tempCorr, same]

theorem ageSum_temp (h : Hw) (x : Nat) : ageSum (setF h aTB_TEMP fTB_TEMP_DIE x) = ageSum h := by
  rw [ageSum, getF_setF_ne _ _ _ _ (by decide), reg_setF_ne _ _ _ (by decide), ageSum]

theorem holdoverStep_due {h : Hw} (runs : frozen h = false) (due : holdoverDue h = true) (die : BitVec 13) :
    (holdoverStep h die).tb = withHoldover h.tb (holdoverTerm h die) (h.aclk + 1) ∧
      reg (holdoverStep h die) aTB_AGEACC = ageSum h := by
  have acts : ¬ (frozen h = true ∨ ¬ holdoverDue h = true) := by
    rintro (froze | idle)
    · exact Bool.false_ne_true (runs.symm.trans froze)
    · exact idle due
  unfold holdoverStep
  rw [if_neg acts]
  extract_lets base h1 t ag agW hv shown
  have regs : h1.regs = (setF h aTB_TEMP fTB_TEMP_DIE die.toNat).regs := rfl
  have field (a : Nat) (f : Fld) : getF h1 a f = getF (setF h aTB_TEMP fTB_TEMP_DIE die.toNat) a f := by
    rw [getF, reg, regs, getF, reg]
  have sum : agW = ageSum (setF h aTB_TEMP fTB_TEMP_DIE die.toNat) := by
    unfold agW ag
    rw [ageSum, field, reg, regs, ← reg]
  have read : t = if isSet (setF h aTB_TEMP fTB_TEMP_DIE die.toNat) aTB_CTL fTB_CTL_TSRC then
      getF (setF h aTB_TEMP fTB_TEMP_DIE die.toNat) aTB_TEMP fTB_TEMP_TEMP else die.toNat := by
    unfold t
    rw [isSet, field, field, ← isSet]
  have term : hv = holdoverTerm h die := by
    unfold hv
    rw [tempCorr_of_fields field, sum, read, ageSum, holdoverTerm]
  constructor
  · rw [setF_tb, setReg_tb, ← term]
    rfl
  · rw [reg_setF_ne _ _ _ (by decide), reg_setReg_same, sum, ageSum_temp]

/-! ## The capture pad and the PPS pad (R315, R316) -/

section
variable {h : Hw} {fall : Bool}

theorem timeCapture_idle (idle : isSet h aTB_CAPIN fTB_CAPIN_EN = false ∨ isSet h aTB_CAPIN fTB_CAPIN_EDGE ≠ fall) (half : Bool) :
    timeCapture h fall half = h :=
  if_pos (.inr (idle.imp_left Bool.eq_false_iff.mp))

theorem timeCapture_edge (runs : frozen h = false) (on : isSet h aTB_CAPIN fTB_CAPIN_EN = true)
    (edge : isSet h aTB_CAPIN fTB_CAPIN_EDGE = fall) (half : Bool) : timeCapture h fall half =
      captureStored (if isSet h aTB_CAPIN fTB_CAPIN_VALID then raiseBit h aTB_CAPIN fTB_CAPIN_OVR else h)
        (now32 h + (if half then (effOf h).1 / 2 else 0)) := by
  refine if_neg ?_
  rintro (froze | off | other)
  · exact Bool.false_ne_true (runs.symm.trans froze)
  · exact off on
  · exact other edge

end

section
variable {h : Hw}

theorem ppsUp_idle (idle : ppsGranted h = false ∨ h.ppsHigh = true ∨ (effOf h).1 ≤ h.tb.ns * 2 ^ 32 + h.tb.frac) : ppsUp h = h :=
  if_pos (.inr (idle.imp_left Bool.eq_false_iff.mp))

theorem ppsUp_rises (runs : frozen h = false) (granted : ppsGranted h = true) (low : h.ppsHigh = false)
    (into : h.tb.ns * 2 ^ 32 + h.tb.frac < (effOf h).1) :
    ppsUp h = ppsAt h true (slotOfTime h (now32 h - (h.tb.ns * 2 ^ 32 + h.tb.frac)) + 1) := by
  refine if_neg ?_
  rintro (froze | free | high | later)
  · exact Bool.false_ne_true (runs.symm.trans froze)
  · exact free granted
  · exact Bool.false_ne_true (low.symm.trans high)
  · exact absurd into (Nat.not_lt.mpr later)

theorem ppsDown_idle (idle : h.ppsHigh = false ∨ h.tb.ns < getF h aTB_PPS fTB_PPS_WIDTH * 1000) : ppsDown h = h :=
  if_pos (.inr (idle.imp_left Bool.eq_false_iff.mp))

theorem ppsDown_falls (runs : frozen h = false) (high : h.ppsHigh = true) (reached : getF h aTB_PPS fTB_PPS_WIDTH * 1000 ≤ h.tb.ns) :
    ppsDown h = ppsAt h false
      (slotOfTime h ((h.tb.sec * nsPerSec + getF h aTB_PPS fTB_PPS_WIDTH * 1000) * 2 ^ 32) + 1) := by
  refine if_neg ?_
  rintro (froze | low | early)
  · exact Bool.false_ne_true (runs.symm.trans froze)
  · exact low high
  · exact absurd reached (Nat.not_le.mpr early)

end

end Sys2Proof.Machine

open Sys2Proof Sys2Proof.Machine

/-- Settles O38: the writes and the read of the registers by their block, the counter of the next cycle by arithmetic, and
the holdover update, the capture and the PPS pad by their conditions. -/
theorem timebaseActs : Obligations.TimebaseActs := by
  refine ⟨?inc, ?incLimits, ?incOwned, ?stepOwned, ?setOwned, ?step, ?stepLimits, ?set, ?setLimits, ?time0, ?runs, ?stepped, ?wasSet,
    ?holdover, ?noHoldover, ?captures, ?overruns, ?noCapture, ?rises, ?noRise, ?falls, ?noFall⟩
  case inc =>
    intro v s up own low high
    refine givesHw_tbInc up v ((writeInc_own (not_frozen_of_up up) own v).trans (if_pos ?_))
    simp only [incOk, Bool.and_eq_true, decide_eq_true_eq]
    exact ⟨low, high⟩
  case incLimits =>
    intro v s up own beyond
    refine givesHw_tbInc up v ((writeInc_own (not_frozen_of_up up) own v).trans (if_neg ?_))
    simp only [incOk, Bool.and_eq_true, decide_eq_true_eq]
    omega
  case incOwned => exact fun v s up owned => givesHw_tbInc up v (writeInc_owned (not_frozen_of_up up) v owned)
  case stepOwned => exact fun v s up owned => givesHw_tbStep up v (writeStep_owned (not_frozen_of_up up) _ owned)
  case setOwned => exact fun v s up owned => givesHw_tbSet up v (writeSet_owned (not_frozen_of_up up) _ owned)
  case step =>
    rintro v w s up own rfl fits
    exact givesHw_tbStep up v ((writeStep_own (not_frozen_of_up up) own (go_set v)).trans (if_pos fits))
  case stepLimits =>
    rintro v w s up own rfl beyond
    exact givesHw_tbStep up v ((writeStep_own (not_frozen_of_up up) own (go_set v)).trans (if_neg (Bool.eq_false_iff.mp beyond)))
  case set =>
    rintro v w s up own rfl fits
    exact givesHw_tbSet up v ((writeSet_own (not_frozen_of_up up) own (go_set v)).trans (if_pos fits))
  case setLimits =>
    rintro v w s up own rfl beyond
    exact givesHw_tbSet up v ((writeSet_own (not_frozen_of_up up) own (go_set v)).trans (if_neg (Nat.not_lt.mpr beyond)))
  case time0 =>
    rintro s ⟨clocked, running⟩
    refine givesHw_onHw rfl ((busRead_up clocked running aTB_TIME0).trans ?_)
    rw [readReg_tbTime0]
    rfl
  case runs => exact fun s none frac ns sec => now32_tickTime_plain frac ns sec none
  case stepped =>
    intro k n s step frac ns sec at_ low high
    exact (now32_tickTime_step frac ns sec step at_ low high).trans (by push_cast; rfl)
  case wasSet => exact fun sec ns s set => now32_tickTime_set set
  case holdover =>
    intro die s live due
    obtain ⟨tb, sum⟩ := holdoverStep_due live due die
    exact ⟨_, rfl, rfl, tb, sum⟩
  case noHoldover => exact fun die s idle => givesHw_onHw rfl (holdoverStep_idle idle die)
  case captures =>
    intro fall half s live on edge free
    refine givesHw_onHw rfl ((timeCapture_edge live on edge half).trans ?_)
    rw [if_neg (Bool.eq_false_iff.mp free)]
  case overruns =>
    intro fall half s live on edge held
    refine givesHw_onHw rfl ((timeCapture_edge live on edge half).trans ?_)
    rw [if_pos held]
  case noCapture => exact fun fall half s idle => givesHw_onHw rfl (timeCapture_idle idle half)
  case rises => exact fun s live granted low into => givesHw_onHw rfl (ppsUp_rises live granted low into)
  case noRise => exact fun s idle => givesHw_onHw rfl (ppsUp_idle idle)
  case falls => exact fun s live high reached => givesHw_onHw rfl (ppsDown_falls live high reached)
  case noFall => exact fun s idle => givesHw_onHw rfl (ppsDown_idle idle)
end

section
/-!
PROOF. The tack fabric, its pads, its banks and its capture: the edges of its clocks, the event wires, a bank by VIN, a pad's
claim followed through the operations of its owners, and a capture by its mode (R327 to R341, R344, R478, R479).
-/

namespace Sys2Proof.Machine

/-! ## Clock edges (R327, R329, R330) -/

section
variable {m : Sparse Byte} {h : Hw} {pads : List (Nat × BitVec 8)}

theorem fclkEdge_idle {r : Bool} (idle : h.aclk % 4 ≠ (if r = true then 0 else 2) ∨ h.fab.edge = h.aclk + 1) :
    fclkEdge m h r pads = h :=
  if_pos (.inr idle)

variable (runs : frozen h = false)
include runs

theorem fclkEdge_meets {r : Bool} (edge : h.aclk % 4 = (if r = true then 0 else 2)) (first : h.fab.edge ≠ h.aclk + 1) :
    fclkEdge m h r pads = if ¬ r = true then blocksClocked m h r else
      clockInputs (clockEvents m h (clockPads m h (segmentsClocked m h (blocksClocked m h r)))) pads := by
  refine (if_neg ?_).trans rfl
  rintro (froze | other | met)
  · exact Bool.false_ne_true (runs.symm.trans froze)
  · exact other edge
  · exact first met

theorem userEdge_clocks (on : fabOn h = true) (b i : Nat) (r : Bool) :
    userEdge m h b i r = movesNoted h (clockBlock m h (firesUser i r) h b) b := by
  refine (if_neg ?_).trans rfl
  rintro (froze | off)
  · exact Bool.false_ne_true (runs.symm.trans froze)
  · exact off on

end

theorem userEdge_off {h : Hw} (off : fabOn h = false) (m : Sparse Byte) (b i : Nat) (r : Bool) : userEdge m h b i r = h :=
  if_pos (.inr (Bool.eq_false_iff.mp off))

/-- A command of an edge of FCLK or of ACLK/4. -/
theorem givesHw_fabricEdge {c : FabClk} {r : Bool} {pads : List (Nat × BitVec 8)} {s : State} {h : Hw}
    (clock : c = .fclk r ∨ c = .aclk4 r) (is : fclkEdge s.mem s.hw r pads = h) : GivesHw (.fabricClockEdge c pads) s h := by
  rcases clock with rfl | rfl
  · exact givesHw_onHw rfl is
  · exact givesHw_onHw rfl is

/-- A reserved select of a segment is constant 0 (R331, R333). -/
theorem segCode_reserved {m : Sparse Byte} {b k : Nat}
    (reserved : turnsBack k (segRec m b k % 256) = true ∨ selectFits (segRec m b k % 256) = false) : segCode m b k = 0x40 := by
  unfold segCode
  split
  · rfl
  · exact if_neg (Bool.eq_false_iff.mp (reserved.resolve_left ‹_›))

/-! ## Event wires (R335) -/

section
variable {h : Hw} {y k : Nat}

theorem fabEvent_idle (idle : h.fab.evs.contains (16 * y + k) = false) : fabEvent h y k = h :=
  if_pos (.inr (Bool.eq_false_iff.mp idle))

theorem fabEvent_raises (runs : frozen h = false) (up : h.fab.evs.contains (16 * y + k) = true) :
    fabEvent h y k = raiseEvent (wireTaken h (16 * y + k)) y (0xE0 + k) := by
  refine if_neg ?_
  rintro (froze | idle)
  · exact Bool.false_ne_true (runs.symm.trans froze)
  · exact idle up

theorem fabChainEvent_idle (idle : h.fab.chEvs.contains k = false) : fabChainEvent h k = h :=
  if_pos (.inr (Bool.eq_false_iff.mp idle))

theorem fabChainEvent_sends (runs : frozen h = false) (up : h.fab.chEvs.contains k = true) :
    fabChainEvent h k = sendEvent (chainWireTaken h k) k (getF h aCH_EVSEND fCH_EVSEND_TGT)
      (getF h aCH_EVSEND fCH_EVSEND_YARDS) := by
  refine if_neg ?_
  rintro (froze | idle)
  · exact Bool.false_ne_true (runs.symm.trans froze)
  · exact idle up

end

/-! ## Capture (R340, R341) -/

/-- What is armed for the edge of `CAP_EDGE`: one already past is taken at the next edge. -/
def edgeArm (h : Hw) : CapArm :=
  if (reg h aCAP_EDGE).toNat < nextEdge h then ⟨1, some (nextEdge h), true⟩ else ⟨1, some (reg h aCAP_EDGE).toNat, false⟩

/-- What is armed for the capture registers' time: one already past is taken at the next edge. -/
def timeArm (h : Hw) : CapArm := if capTime h ≤ now32 h then ⟨2, some (nextEdge h), true⟩ else ⟨2, none, false⟩

/-- What `CAP_CTL.ARM` arms, by the mode. -/
def armOf (h : Hw) (mode : Nat) : CapArm :=
  match mode with
  | 0 => ⟨0, some (nextEdge h), false⟩
  | 1 => edgeArm h
  | 2 => timeArm h
  | _ => ⟨3, none, false⟩

section
variable {h : Hw} (runs : frozen h = false)
include runs

theorem armCapture_arms (mode : Nat) :
    (armCapture h mode).cap = some (armOf h mode) ∧ isSet (armCapture h mode) aCAP_STAT fCAP_STAT_BUSY = true := by
  unfold armCapture
  rw [if_neg (Bool.eq_false_iff.mp runs)]
  extract_lets e at32 arm
  exact ⟨by rw [setF_cap, setF_cap]; rfl, isSet_setF_one _ _ rfl (by decide)⟩

theorem cancelCapture_ends :
    (cancelCapture h).cap = none ∧ isSet (cancelCapture h) aCAP_STAT fCAP_STAT_BUSY = false := by
  unfold cancelCapture
  rw [if_neg (Bool.eq_false_iff.mp runs)]
  exact ⟨rfl, isSet_setF_zero _ _ (by decide)⟩

end

theorem armOf_edge (h : Hw) {mode : Nat} (edge : mode = 1) : armOf h mode = edgeArm h := by
  unfold armOf
  split
  · exact absurd edge (by decide)
  · rfl
  · exact absurd edge (by decide)
  · rename_i other _
    exact absurd edge other

theorem armOf_time (h : Hw) {mode : Nat} (time : mode = 2) : armOf h mode = timeArm h := by
  unfold armOf
  split
  · exact absurd time (by decide)
  · exact absurd time (by decide)
  · rfl
  · rename_i other
    exact absurd time other

theorem timeArm_past {h : Hw} (past : capTime h ≤ now32 h) : timeArm h = ⟨2, some (nextEdge h), true⟩ := by
  rw [timeArm, if_pos past]

theorem timeArm_ahead {h : Hw} (ahead : now32 h < capTime h) : timeArm h = ⟨2, none, false⟩ := by
  rw [timeArm, if_neg (Nat.not_le.mpr ahead)]

/-- A word put into `CAP_CTL` leaves what a capture is armed with. -/
theorem armOf_setReg (h : Hw) (w : BitVec 64) (mode : Nat) : armOf (setReg h aCAP_CTL w) mode = armOf h mode := by
  have next : nextEdge (setReg h aCAP_CTL w) = nextEdge h := rfl
  have time : now32 (setReg h aCAP_CTL w) = now32 h := rfl
  have at_ : capTime (setReg h aCAP_CTL w) = capTime h := by
    rw [capTime, getF_of_reg (reg_setReg_ne h w (by decide)), getF_of_reg (reg_setReg_ne h w (by decide)), capTime]
  have edge : reg (setReg h aCAP_CTL w) aCAP_EDGE = reg h aCAP_EDGE := reg_setReg_ne h w (by decide)
  have byEdge : edgeArm (setReg h aCAP_CTL w) = edgeArm h := by rw [edgeArm, edge, next, edgeArm]
  have byTime : timeArm (setReg h aCAP_CTL w) = timeArm h := by rw [timeArm, at_, time, next, timeArm]
  unfold armOf
  rw [next, byEdge, byTime]

/-- No value of the fields of `CAP_CTL` is reserved. -/
theorem mergeFields_capCtl (old v : Nat) : (mergeFields [fCAP_CTL_MODE, fCAP_CTL_ARM, fCAP_CTL_CANCEL] old v).2 = false := rfl

theorem fieldsOf_capCtl : fieldsOf aCAP_CTL = [fCAP_CTL_MODE, fCAP_CTL_ARM, fCAP_CTL_CANCEL] :=
  fieldsOf_located (b := .tf) (i := 0) (o := 0x1000) (j := 0) rfl rfl

theorem writeTf_capCtl (h : Hw) (v : Nat) : ∃ w, writeTf h 0x1000 aCAP_CTL v =
    if fieldOf fCAP_CTL_ARM v = 1 then
      armCapture (if fieldOf fCAP_CTL_CANCEL v = 1 then cancelCapture (setReg h aCAP_CTL w) else setReg h aCAP_CTL w)
        (fieldOf fCAP_CTL_MODE v)
    else if fieldOf fCAP_CTL_CANCEL v = 1 then cancelCapture (setReg h aCAP_CTL w) else setReg h aCAP_CTL w := by
  have plain : writePlain h .tf 0 0x1000 aCAP_CTL v = setReg h aCAP_CTL (plainWord h aCAP_CTL v) := by
    rw [writePlain_eq, fieldsOf_capCtl]
    exact if_neg (Bool.eq_false_iff.mp (mergeFields_capCtl _ v))
  refine ⟨plainWord h aCAP_CTL v, ?_⟩
  unfold writeTf
  rw [if_neg (by decide), if_neg (by decide), if_neg (by decide), if_neg (by decide), if_pos rfl, plain]

theorem writeReg_capCtl (m : Sparse Byte) (h : Hw) (v : BitVec 64) :
    writeReg m h aCAP_CTL v = (m, writeTf h 0x1000 aCAP_CTL v.toNat) := by
  rw [writeReg_located (b := .tf) (i := 0) (o := 0x1000) v rfl rfl (by decide) rfl rfl rfl rfl]
  rfl

/-- The value that `CAP_ARM` writes. -/
theorem capArm_fields (mode : BitVec 2) : fieldOf fCAP_CTL_ARM (BitVec.ofNat 64 (mode.toNat + 4)).toNat = 1 ∧
    fieldOf fCAP_CTL_CANCEL (BitVec.ofNat 64 (mode.toNat + 4)).toNat ≠ 1 ∧
    fieldOf fCAP_CTL_MODE (BitVec.ofNat 64 (mode.toNat + 4)).toNat = mode.toNat := by decide +revert

section
variable {s : State} (up : Up s)
include up

theorem completes_capArm {mode : BitVec 2} {x : CapArm} (arms : armOf s.hw mode.toNat = x) :
    Completes (.capArm mode) s fun t => t.hw.cap = some x ∧ isSet t.hw aCAP_STAT fCAP_STAT_BUSY = true := by
  obtain ⟨arm, noCancel, asks⟩ := capArm_fields mode
  obtain ⟨w, written⟩ := writeTf_capCtl s.hw (BitVec.ofNat 64 (mode.toNat + 4)).toNat
  rw [if_pos arm, if_neg noCancel, asks] at written
  obtain ⟨armed, busy⟩ := armCapture_arms (h := setReg s.hw aCAP_CTL w) (not_frozen_of_up up) mode.toNat
  rw [armOf_setReg, arms] at armed
  exact ⟨_, givesHw_busWrite (v := fun _ => BitVec.ofNat 64 (mode.toNat + 4)) up rfl
    ((writeReg_capCtl _ _ _).trans (congrArg (s.mem, ·) written)), armed, busy⟩

theorem completes_capCancel : Completes .capCancel s fun t =>
    t.mem = s.mem ∧ t.hw.cap = none ∧ isSet t.hw aCAP_STAT fCAP_STAT_BUSY = false := by
  have cancel : fieldOf fCAP_CTL_CANCEL (oneField s.hw aCAP_CTL fCAP_CTL_CANCEL 1).toNat = 1 :=
    fieldOf_oneField s.hw aCAP_CTL (by decide) 1
  have noArm : fieldOf fCAP_CTL_ARM (oneField s.hw aCAP_CTL fCAP_CTL_CANCEL 1).toNat ≠ 1 := by
    have kept : keepRw s.hw aCAP_CTL = getF s.hw aCAP_CTL fCAP_CTL_MODE := by
      rw [keepRw, fieldsOf_capCtl]
      exact (Nat.zero_add _).trans (Nat.mul_one _)
    have small : getF s.hw aCAP_CTL fCAP_CTL_MODE < 4 := Nat.mod_lt _ (by decide)
    rw [fieldOf_oneField_beside _ _ (by decide) (by decide), kept]
    have low : getF s.hw aCAP_CTL fCAP_CTL_MODE / 2 ^ 2 = 0 := Nat.div_eq_of_lt small
    rw [fieldOf, show fCAP_CTL_ARM.lo = 2 from rfl, low]
    decide
  obtain ⟨w, written⟩ := writeTf_capCtl s.hw (oneField s.hw aCAP_CTL fCAP_CTL_CANCEL 1).toNat
  rw [if_neg noArm, if_pos cancel] at written
  obtain ⟨ended, idle⟩ := cancelCapture_ends (h := setReg s.hw aCAP_CTL w) (not_frozen_of_up up)
  exact ⟨_, givesHw_busWrite (v := fun h => oneField h aCAP_CTL fCAP_CTL_CANCEL 1) up rfl
    ((writeReg_capCtl _ _ _).trans (congrArg (s.mem, ·) written)), rfl, ended, idle⟩

end

section
variable {m : Sparse Byte} {h : Hw}

theorem takeCapture_idle (idle : h.cap = none ∨ h.aclk % 4 ≠ 0 ∨ h.fab.edge = h.aclk + 1) : takeCapture m h = h := by
  unfold takeCapture
  split
  · rfl
  · rename_i armed
    exact if_pos (.inr (idle.resolve_left (by rw [armed]; exact Option.some_ne_none _)))

/-- A capture taken once the shadow registers are filled. -/
theorem captureTaken_fillShadow (m : Sparse Byte) (h : Hw) (x : CapArm) {c : Nat} (cycle : h.aclk = c) :
    captureTaken (fillShadow m h) x =
      if x.late then raiseBit (setF (setReg { fillShadow m h with cap := none, capEnd := some (c + 4) } aCAP_EDGE
        (BitVec.ofNat 64 (c / 4))) aCAP_STAT fCAP_STAT_BUSY 0) aCAP_STAT fCAP_STAT_LATE
      else setF (setReg { fillShadow m h with cap := none, capEnd := some (c + 4) } aCAP_EDGE (BitVec.ofNat 64 (c / 4)))
        aCAP_STAT fCAP_STAT_BUSY 0 := by
  have same : (fillShadow m h).aclk = c := by
    obtain ⟨k, y, filled⟩ := fillShadow_only m h
    rw [filled, ← cycle]
  subst same
  rfl

theorem takeCapture_armed (runs : frozen h = false) {x : CapArm} (armed : h.cap = some x) (edge : h.aclk % 4 = 0)
    (first : h.fab.edge ≠ h.aclk + 1) : takeCapture m h = if (settle h (captureDue m h x)).1 = true then
      captureTaken (fillShadow m (settle h (captureDue m h x)).2) x else (settle h (captureDue m h x)).2 := by
  have acts : ¬ (frozen h = true ∨ h.aclk % 4 ≠ 0 ∨ h.fab.edge = h.aclk + 1) := by
    rintro (froze | other | met)
    · exact Bool.false_ne_true (runs.symm.trans froze)
    · exact other edge
    · exact first met
  have cycle : (settle h (captureDue m h x)).2.aclk = h.aclk := by
    unfold settle
    split <;> rfl
  rw [captureTaken_fillShadow m _ x cycle]
  unfold takeCapture
  rw [armed]
  dsimp only
  rw [if_neg acts, ite_not]

theorem finishCapture_done {e : Nat} (ends : h.capEnd = some e) (reached : e ≤ h.aclk) : finishCapture h =
    setF (raiseBit (capEnded h) aCAP_STAT fCAP_STAT_DONE) aCAP_STAT fCAP_STAT_SEQ (getF h aCAP_STAT fCAP_STAT_SEQ + 1) := by
  have seq : getF (raiseBit (capEnded h) aCAP_STAT fCAP_STAT_DONE) aCAP_STAT fCAP_STAT_SEQ = getF h aCAP_STAT fCAP_STAT_SEQ :=
    raiseBit_keepsField (by decide) (.inr (by decide)) (capEnded h)
  unfold finishCapture
  rw [ends]
  dsimp only
  rw [if_neg (Nat.not_lt.mpr reached)]
  exact congrArg (fun n => setF (raiseBit (capEnded h) aCAP_STAT fCAP_STAT_DONE) aCAP_STAT fCAP_STAT_SEQ (n + 1)) seq

end

/-! ## Registers of the fabric with a field that a write of 1 clears (R9, R337, R344) -/

/-- A write that carries no 1 for a W1C bit, of a register that clears no counts, is the write of its block. -/
theorem writeReg_kept {m : Sparse Byte} {h : Hw} {a : Nat} {b : Blk} {i o j : Nat} {d : RegDesc} (v : BitVec 64)
    (located : locate a = some (b, i, o)) (found : findReg (blkRegs b) o = some (d, j))
    (kept : ∀ f ∈ d.flds j, f.acc = .w1c → v &&& ~~~(BitVec.ofNat 64 (2 ^ f.lo)) = v)
    (aligned : a % 8 = 0) (unshadowed : inShadow a = false) (whole : rclkHole a = false) (counts : clearedBy b i o = []) :
    writeReg m h a v = writeAt m h b i o a v.toNat := by
  have fields : fieldsAt a = some (d.flds j) := by simp only [fieldsAt, located, found]
  have keeps : keepJustSet h a v = v := keepJustSet_of_clear h fun f hf w1c => by
    rw [fieldsOf_located located found] at hf
    exact kept f hf w1c
  have stands : regExists a = true := by simp [regExists, aligned, fields, whole]
  have clears (t : Hw) : clearCounts t a = t := by
    rw [clearCounts_located located, counts]
    rfl
  unfold writeReg
  rw [keeps, if_neg (by simp [stands, unshadowed]), located]
  dsimp only
  rw [clears, ite_self]

theorem bank_located (b : Fin 4) : locate (aFIO_BANK b) = some (Blk.tf, 0, 0x400 + 8 * b.val) ∧ aFIO_BANK b % 8 = 0 ∧
    inShadow (aFIO_BANK b) = false ∧ rclkHole (aFIO_BANK b) = false := by decide +revert

theorem findReg_bank (b : Fin 4) : findReg (blkRegs .tf) (0x400 + 8 * b.val) = some
    (⟨0x400, 4, 8, fun _ => [fFIO_BANK_V33, fFIO_BANK_ACT33, fFIO_BANK_OFF, fFIO_BANK_VLOW]⟩, b.val) := by
  show findReg regsTF _ = _
  unfold regsTF
  iterate 3 rw [findReg_past _ (by dsimp only; omega)]
  exact findReg_array _ b.isLt (by decide) (by dsimp only; omega)

theorem pad_located (p : Fin 64) : locate (aFIO_PAD p) = some (Blk.tf, 0, 0x800 + 8 * p.val) ∧ aFIO_PAD p % 8 = 0 ∧
    inShadow (aFIO_PAD p) = false ∧ rclkHole (aFIO_PAD p) = false := by decide +revert

/-- The fields of a pad's register. -/
def padFields : List Fld := [fFIO_PAD_DRV, fFIO_PAD_PULL, fFIO_PAD_FCLAIM, fFIO_PAD_OWNER, fFIO_PAD_LOST, fFIO_PAD_IN]

theorem findReg_pad (p : Fin 64) :
    findReg (blkRegs .tf) (0x800 + 8 * p.val) = some (⟨0x800, 64, 8, fun _ => padFields⟩, p.val) := by
  show findReg regsTF _ = _
  unfold regsTF
  iterate 4 rw [findReg_past _ (by dsimp only; omega)]
  exact findReg_array _ p.isLt (by decide) (by dsimp only; omega)

/-! ## Banks (R337) -/

theorem writeTf_bank (h : Hw) (b : Fin 4) (on : Bool) : writeTf h (0x400 + 8 * b.val) (aFIO_BANK b) on.toNat =
    if bankStands h b on = true then h else writeBank h b on (getF h aPW_VIN fPW_VIN_MV) := by
  have small := b.isLt
  have keeps : ([fFIO_BANK_VLOW].filter fun f => fieldOf f on.toNat == 1) = [] := by decide +revert
  have level : (fieldOf fFIO_BANK_V33 on.toNat == 1) = on := by decide +revert
  have number : (0x400 + 8 * b.val - 0x400) / 8 = b.val := by omega
  have stands : (on = isSet h (aFIO_BANK b) fFIO_BANK_V33 ∧ on = isSet h (aFIO_BANK b) fFIO_BANK_ACT33 ∧
      ¬ isSet h (aFIO_BANK b) fFIO_BANK_OFF = true) ↔ bankStands h b on = true := by
    simp [bankStands, and_assoc]
  unfold writeTf
  rw [if_neg (by omega), if_neg (by omega), if_pos (by omega), keeps, level, number]
  dsimp only [clearFields, applyAll, List.foldl_nil]
  exact if_congr stands rfl rfl

theorem writeReg_bank (m : Sparse Byte) (h : Hw) (b : Fin 4) (on : Bool) : writeReg m h (aFIO_BANK b) (BitVec.ofNat 64 on.toNat) =
    (m, if bankStands h b on = true then h else writeBank h b on (getF h aPW_VIN fPW_VIN_MV)) := by
  obtain ⟨located, aligned, unshadowed, whole⟩ := bank_located b
  have small := b.isLt
  have counts : clearedBy .tf 0 (0x400 + 8 * b.val) = [] := rfl
  have kept : ∀ f ∈ [fFIO_BANK_V33, fFIO_BANK_ACT33, fFIO_BANK_OFF, fFIO_BANK_VLOW], f.acc = .w1c →
      BitVec.ofNat 64 on.toNat &&& ~~~(BitVec.ofNat 64 (2 ^ f.lo)) = BitVec.ofNat 64 on.toNat := by decide +revert
  rw [writeReg_kept _ located (findReg_bank b) kept aligned unshadowed whole counts, ← writeTf_bank]
  have word : (BitVec.ofNat 64 on.toNat).toNat = on.toNat := by decide +revert
  rw [word]
  rfl

theorem givesHw_bankLevel {s : State} (up : Up s) (b : Fin 4) (on : Bool) (mv : BitVec 16) {h : Hw}
    (vin : h = setF s.hw aPW_VIN fPW_VIN_MV mv.toNat) : GivesHw (.fioBankLevelChange b on mv) s
      (if bankStands h b on = true then h else writeBank h b on (getF h aPW_VIN fPW_VIN_MV)) := by
  obtain ⟨clocked, running⟩ := up
  have written : GivesMem (.fioBankLevelChange b on mv) s
      (s.mem, if bankStands h b on = true then h else writeBank h b on (getF h aPW_VIN fPW_VIN_MV)) := by
    refine givesMem_onMem rfl ?_
    rw [if_pos clocked, ← vin, busWrite_up (by rw [vin]; exact clocked) (by rw [vin]; exact running)]
    exact writeReg_bank s.mem h b on
  exact written

section
variable {h : Hw} {b mv : Nat} (runs : frozen h = false)
include runs

theorem writeBank_high (enough : 3600 ≤ mv) : writeBank h b true mv =
    setF (setF (setF h (aFIO_BANK b) fFIO_BANK_V33 1) (aFIO_BANK b) fFIO_BANK_ACT33 1) (aFIO_BANK b) fFIO_BANK_OFF 0 := by
  unfold writeBank
  rw [if_neg (Bool.eq_false_iff.mp runs), if_neg (not_not_intro rfl), if_pos enough]
  rfl

theorem writeBank_vlow (short : mv < 3600) : writeBank h b true mv =
    raiseBit (setF h (aFIO_BANK b) fFIO_BANK_V33 1) (aFIO_BANK b) fFIO_BANK_VLOW := by
  unfold writeBank
  rw [if_neg (Bool.eq_false_iff.mp runs), if_neg (not_not_intro rfl), if_neg (Nat.not_le.mpr short)]
  rfl

theorem writeBank_low : writeBank h b false mv =
    setF (setF (setF h (aFIO_BANK b) fFIO_BANK_V33 0) (aFIO_BANK b) fFIO_BANK_ACT33 0) (aFIO_BANK b) fFIO_BANK_OFF 0 := by
  unfold writeBank
  rw [if_neg (Bool.eq_false_iff.mp runs), if_pos Bool.false_ne_true]
  rfl

end

theorem bankLow_idle {h : Hw} {b : Nat} (idle : h.clocked = false ∨ isSet h (aFIO_BANK b) fFIO_BANK_ACT33 = false) :
    bankLow h b = h :=
  if_pos (idle.symm.imp Bool.eq_false_iff.mp Bool.eq_false_iff.mp)

theorem bankLow_off {h : Hw} {b : Nat} (clocked : h.clocked = true) (high : isSet h (aFIO_BANK b) fFIO_BANK_ACT33 = true) :
    bankLow h b = raiseAlarm (syncsHeld (raiseBit (setF h (aFIO_BANK b) fFIO_BANK_ACT33 0) (aFIO_BANK b) fFIO_BANK_OFF) b)
      0x140 0xFF 0 b := by
  refine (if_neg ?_).trans rfl
  rintro (low | stopped)
  · exact low high
  · exact stopped clocked

/-! ## Claims of a pad (R344, R478, R479) -/

/-- The field `FCLAIM` of a pad reads as before. -/
abbrev KeepsClaim (p : Fin 64) (h t : Hw) : Prop := KeepsField (aFIO_PAD p) fFIO_PAD_FCLAIM h t

section
variable (p : Fin 64)

theorem pad_above : AboveYards (aFIO_PAD p) := by
  unfold aFIO_PAD AboveYards
  omega

theorem pad_ne_link (j : Nat) : aFIO_PAD p ≠ aJL_STAT j := by
  have small := p.isLt
  unfold aFIO_PAD aJL_STAT
  omega

theorem pad_ne_ctl : aFIO_PAD p ≠ aTB_CTL ∧ aFIO_PAD p ≠ aTF_CTL ∧ aFIO_PAD p ≠ aCAP_STAT := by decide +revert

theorem jDownErr_claim {d : Nat} (dir : d < 8) (h : Hw) : KeepsClaim p h (jDownErr h d) :=
  (jSetUp_keepsField dir (by decide) (pad_above p) (.inl (pad_ne_link p _)) h false).trans
    (jRaise_keepsField (by omega) (by decide) (pad_above p) (.inl (pad_ne_link p _)) _)

theorem showLoss_claim (h : Hw) (code : Nat) : KeepsClaim p h (showLoss h p code) := by
  unfold showLoss
  split
  · refine applyAll_keepsField (fun t d claims => ?_) h
    split
    · exact rfl
    · exact jDownErr_claim p (List.mem_range.mp (List.mem_of_mem_filter claims)) t
  · exact raiseBit_keepsField (by decide) (.inl (pad_ne_ctl p).1) h
  · exact raiseBit_keepsField (by decide) (.inr (by decide)) h
  · exact rfl

theorem settlePad_claim (h : Hw) : KeepsClaim p h (settlePad h p) := by
  unfold settlePad
  extract_lets best old cands holder sync h1
  have settled : KeepsClaim p h h1 := setF_keepsField (by decide) (.inr (by decide)) _ best
  split
  · exact settled.trans (showLoss_claim p h1 old)
  · exact settled

theorem claimPad_claim (h : Hw) (code : Nat) : KeepsClaim p h (claimPad h p code) := by
  unfold claimPad
  split
  · exact rfl
  · split
    · exact showLoss_claim p h code
    · split
      · extract_lets h1
        split
        · exact (settlePad_claim p h).trans (showLoss_claim p h1 3)
        · exact settlePad_claim p h
      · exact rfl

theorem isSet_writeFclaim {h : Hw} (runs : frozen h = false) (claim : Bool) :
    isSet (writeFclaim h p claim) (aFIO_PAD p) fFIO_PAD_FCLAIM = claim := by
  have written : isSet (setF h (aFIO_PAD p) fFIO_PAD_FCLAIM claim.toNat) (aFIO_PAD p) fFIO_PAD_FCLAIM = claim :=
    isSet_setF_bool _ _ (by decide) rfl claim
  unfold writeFclaim
  rw [if_neg (Bool.eq_false_iff.mp runs)]
  dsimp only
  split
  · exact (claimPad_claim p _ 1).isSet.trans written
  · exact written

/-! ## A pad's register as it is written (R344) -/

theorem fieldOf_mergeField_beside {f g : Fld} (beside : Beside f g) (v : Nat) (acc : Nat × Bool) :
    fieldOf g (mergeField v acc f).1 = fieldOf g acc.1 := by
  unfold mergeField
  dsimp only
  split
  · split
    · exact fieldOf_putField_beside beside _ _
    · rfl
  · exact fieldOf_putField_beside beside _ _
  · rfl

/-- Fields merged into a word leave the fields beside them. -/
theorem fieldOf_merge_beside {fs : List Fld} {g : Fld} (beside : ∀ f ∈ fs, Beside f g) (v : Nat) (acc : Nat × Bool) :
    fieldOf g (fs.foldl (mergeField v) acc).1 = fieldOf g acc.1 := by
  induction fs generalizing acc with
  | nil => rfl
  | cons f fs ih =>
    obtain ⟨first, rest⟩ := List.forall_mem_cons.mp beside
    exact (ih rest _).trans (fieldOf_mergeField_beside first v acc)

theorem fieldsOf_pad : fieldsOf (aFIO_PAD p) = padFields := fieldsOf_located (pad_located p).1 (findReg_pad p)

theorem rsvVal_tf_only (h : Hw) (o : Nat) : OnlyRegs h (rsvVal h .tf 0 o) := by
  show OnlyRegs h (if o < 0x1000 then _ else _)
  split
  · exact raiseBit_only h _ _
  · exact raiseBit_only h _ _

theorem rsvVal_tf_claim (h : Hw) (o : Nat) : KeepsClaim p h (rsvVal h .tf 0 o) := by
  obtain ⟨-, ctl, stat⟩ := pad_ne_ctl p
  show KeepsClaim p h (if o < 0x1000 then _ else _)
  split
  · exact raiseBit_keepsField (by decide) (.inl ctl) h
  · exact raiseBit_keepsField (by decide) (.inl stat) h

/-- A write of a pad's fields beside its claim. -/
def padWritten (h : Hw) (p : Fin 64) (v : Nat) : Hw :=
  writeFree h .tf 0 (0x800 + 8 * p.val) (aFIO_PAD p) v (fun f => f.lo != fFIO_PAD_FCLAIM.lo) id

/-- The word that a write of a pad's fields beside its claim puts into its register. -/
def padWord (h : Hw) (p : Fin 64) (v : Nat) : Nat :=
  (mergeFields (padFields.filter fun f => f.lo != fFIO_PAD_FCLAIM.lo) (reg h (aFIO_PAD p)).toNat v).1

theorem padWritten_eq (h : Hw) (v : Nat) : padWritten h p v = setReg h (aFIO_PAD p) (BitVec.ofNat 64 (padWord h p v)) ∨
    padWritten h p v = rsvVal (setReg h (aFIO_PAD p) (BitVec.ofNat 64 (padWord h p v))) .tf 0 (0x800 + 8 * p.val) := by
  unfold padWritten writeFree
  dsimp only
  rw [fieldsOf_pad, id_eq, ite_self]
  split
  · exact .inr rfl
  · exact .inl rfl

theorem padWritten_only (h : Hw) (v : Nat) : OnlyRegs h (padWritten h p v) := by
  rcases padWritten_eq p h v with written | written
  · rw [written]
    exact setReg_only h _ _
  · rw [written]
    exact (setReg_only h _ _).trans (rsvVal_tf_only _ _)

theorem padWritten_claim (h : Hw) (v : Nat) : KeepsClaim p h (padWritten h p v) := by
  have beside : ∀ f ∈ padFields.filter fun f => f.lo != fFIO_PAD_FCLAIM.lo, Beside f fFIO_PAD_FCLAIM := by decide
  have put : KeepsClaim p h (setReg h (aFIO_PAD p) (BitVec.ofNat 64 (padWord h p v))) := by
    rw [KeepsClaim, KeepsField, getF, reg_setReg_same, BitVec.toNat_ofNat, fieldOf_mod _ (by decide), padWord, mergeFields_eq,
      fieldOf_merge_beside beside, getF]
  rcases padWritten_eq p h v with written | written
  · rw [written]
    exact put
  · rw [written]
    exact put.trans (rsvVal_tf_claim p _ _)

theorem writeTf_pad (h : Hw) (v : Nat) : writeTf h (0x800 + 8 * p.val) (aFIO_PAD p) v =
    if (fieldOf fFIO_PAD_FCLAIM v == 1) = isSet h (aFIO_PAD p) fFIO_PAD_FCLAIM then padWritten h p v
    else writeFclaim (padWritten h p v) p (fieldOf fFIO_PAD_FCLAIM v == 1) := by
  have small := p.isLt
  have number : (0x800 + 8 * p.val - 0x800) / 8 = p.val := by omega
  unfold writeTf
  rw [if_neg (by omega), if_neg (by omega), if_neg (by omega), if_pos (by omega), number]
  rfl

/-- The claim of a pad is the one written. -/
theorem isSet_writeTf_pad {h : Hw} (runs : frozen h = false) (v : Nat) :
    isSet (writeTf h (0x800 + 8 * p.val) (aFIO_PAD p) v) (aFIO_PAD p) fFIO_PAD_FCLAIM = (fieldOf fFIO_PAD_FCLAIM v == 1) := by
  rw [writeTf_pad]
  split
  · rename_i stands
    exact (padWritten_claim p h v).isSet.trans stands.symm
  · refine isSet_writeFclaim p ?_ _
    obtain ⟨r, j, written⟩ := padWritten_only p h v
    rw [written]
    exact runs

/-- A word whose bit is 0 is the word with that bit taken away. -/
theorem and_not_bit_of_clear {v : BitVec 64} {f : Fld} (one : f.w = 1) (clear : fieldOf f v.toNat = 0) :
    v &&& ~~~(BitVec.ofNat 64 (2 ^ f.lo)) = v := by
  have bit : v.getLsbD f.lo = false := by
    rw [fieldOf, one, pow_one, ← Nat.toNat_testBit] at clear
    exact Bool.toNat_eq_zero.mp clear
  refine BitVec.eq_of_getLsbD_eq fun i small => ?_
  rw [BitVec.getLsbD_and, BitVec.getLsbD_not, BitVec.getLsbD_ofNat, Nat.testBit_two_pow]
  by_cases same : f.lo = i
  · rw [← same, bit, Bool.false_and]
  · simp [small, same]

theorem keepRw_pad_lost (h : Hw) : fieldOf fFIO_PAD_LOST (keepRw h (aFIO_PAD p)) = 0 := by
  have kept : keepRw h (aFIO_PAD p) = 0 + getF h (aFIO_PAD p) fFIO_PAD_DRV * 2 ^ 0 +
      getF h (aFIO_PAD p) fFIO_PAD_PULL * 2 ^ 2 + getF h (aFIO_PAD p) fFIO_PAD_FCLAIM * 2 ^ 4 := by
    rw [keepRw, fieldsOf_pad]
    rfl
  have drive : getF h (aFIO_PAD p) fFIO_PAD_DRV < 4 := Nat.mod_lt _ (by decide)
  have pull : getF h (aFIO_PAD p) fFIO_PAD_PULL < 4 := Nat.mod_lt _ (by decide)
  have claim : getF h (aFIO_PAD p) fFIO_PAD_FCLAIM < 2 := Nat.mod_lt _ (by decide)
  have low : keepRw h (aFIO_PAD p) / 2 ^ 8 = 0 := by omega
  rw [fieldOf, show fFIO_PAD_LOST.lo = 8 from rfl, low]
  rfl

theorem writeReg_fclaim (m : Sparse Byte) (h : Hw) (claim : Bool) :
    writeReg m h (aFIO_PAD p) (oneField h (aFIO_PAD p) fFIO_PAD_FCLAIM claim.toNat) =
      (m, writeTf h (0x800 + 8 * p.val) (aFIO_PAD p) (oneField h (aFIO_PAD p) fFIO_PAD_FCLAIM claim.toNat).toNat) := by
  obtain ⟨located, aligned, unshadowed, whole⟩ := pad_located p
  have counts : clearedBy .tf 0 (0x800 + 8 * p.val) = [] := rfl
  have lost : fieldOf fFIO_PAD_LOST (oneField h (aFIO_PAD p) fFIO_PAD_FCLAIM claim.toNat).toNat = 0 :=
    (fieldOf_oneField_beside h _ (by decide) (by decide) _).trans (keepRw_pad_lost p h)
  have single : ∀ f ∈ padFields, f.acc = .w1c → f = fFIO_PAD_LOST := by decide
  rw [writeReg_kept _ located (findReg_pad p) (fun f mem w1c => ?_) aligned unshadowed whole counts]
  · rfl
  · rw [single f mem w1c]
    exact and_not_bit_of_clear rfl lost

theorem completes_fclaim {s : State} (up : Up s) (claim : Bool) :
    Completes (.fclaim p claim) s fun t => isSet t.hw (aFIO_PAD p) fFIO_PAD_FCLAIM = claim := by
  have bit : (fieldOf fFIO_PAD_FCLAIM (oneField s.hw (aFIO_PAD p) fFIO_PAD_FCLAIM claim.toNat).toNat == 1) = claim := by
    rw [fieldOf_oneField _ _ (by decide)]
    cases claim <;> rfl
  exact ⟨_, givesHw_busWrite (v := fun h => oneField h (aFIO_PAD p) fFIO_PAD_FCLAIM claim.toNat) up rfl
    (writeReg_fclaim p s.mem s.hw claim), (isSet_writeTf_pad p (not_frozen_of_up up) _).trans bit⟩

end

theorem releasePad_idle {h : Hw} {p : Nat} (idle : padOwner h p = 0 ∨ padClaimed h p (padOwner h p) = true) :
    releasePad h p = h := by
  refine if_neg ?_
  rintro ⟨-, owned, ended⟩
  exact idle.elim owned ended

theorem releasePad_ended {h : Hw} {p : Nat} (runs : frozen h = false) (owned : padOwner h p ≠ 0)
    (ended : padClaimed h p (padOwner h p) = false) : releasePad h p = padAtEdge h p :=
  if_pos ⟨Bool.eq_false_iff.mp runs, owned, Bool.eq_false_iff.mp ended⟩

end Sys2Proof.Machine

open Sys2Proof Sys2Proof.Machine

/-- Settles O40: the edges, the event wires and the captures by their conditions, a bank's write by VIN, and a pad's claim by
what keeps it through the claims of its other owners. -/
theorem fabricPadsAndCaptureAct : Obligations.FabricPadsAndCaptureAct := by
  refine ⟨?falling, ?rising, ?noEdge, ?clkin, ?reserved, ?clkinOff, ?wire, ?noWire, ?chainWire, ?noChainWire, ?level, ?stands,
    ?high, ?short, ?low, ?bankLow, ?noBankLow, ?fclaim, ?release, ?noRelease, ?passes, ?now, ?edgePast, ?edgeAhead, ?timePast,
    ?timeAhead, ?trigger, ?cancel, ?taken, ?waits, ?opens, ?noCapture, ?ends⟩
  case falling =>
    rintro c r pads s clock runs rfl edge first
    exact givesHw_fabricEdge clock ((fclkEdge_meets (r := false) runs edge first).trans (if_pos Bool.false_ne_true))
  case rising =>
    rintro c r pads s clock runs rfl edge first
    exact givesHw_fabricEdge clock ((fclkEdge_meets (r := true) runs edge first).trans (if_neg (not_not_intro rfl)))
  case noEdge => exact fun c r pads s clock idle => givesHw_fabricEdge clock (fclkEdge_idle idle)
  case clkin => exact fun b i r pads s runs on => givesHw_onHw rfl (userEdge_clocks runs on b i r)
  case reserved => exact fun m b k reserved => segCode_reserved reserved
  case clkinOff => exact fun b i r pads s off => givesHw_onHw rfl (userEdge_off off s.mem b i r)
  case wire => exact fun y k s runs up => givesHw_onHw rfl (fabEvent_raises runs up)
  case noWire => exact fun y k s idle => givesHw_onHw rfl (fabEvent_idle idle)
  case chainWire => exact fun k s runs up => givesHw_onHw rfl (fabChainEvent_sends runs up)
  case noChainWire => exact fun k s idle => givesHw_onHw rfl (fabChainEvent_idle idle)
  case level =>
    intro b v mv h s up vin changes
    have given := givesHw_bankLevel up b v mv vin
    rwa [if_neg (Bool.eq_false_iff.mp changes)] at given
  case stands =>
    intro b v mv h s up vin stands
    have given := givesHw_bankLevel up b v mv vin
    rwa [if_pos stands] at given
  case high => exact fun b mv s runs enough => writeBank_high runs enough
  case short => exact fun b mv s runs short => writeBank_vlow runs short
  case low => exact fun b mv s runs => writeBank_low runs
  case bankLow => exact fun b s clocked high => givesHw_onHw rfl (bankLow_off clocked high)
  case noBankLow => exact fun b s idle => givesHw_onHw rfl (bankLow_idle idle)
  case fclaim => exact fun p c s up => completes_fclaim p up c
  case release => exact fun p s runs owned ended => givesHw_onHw rfl (releasePad_ended runs owned ended)
  case noRelease => exact fun p s idle => givesHw_onHw rfl (releasePad_idle idle)
  case passes => exact fun h edge => if_pos edge
  case now =>
    rintro mode s up rfl
    exact completes_capArm up rfl
  case edgePast =>
    rintro mode s up rfl past
    exact completes_capArm up ((armOf_edge s.hw rfl).trans (if_pos past))
  case edgeAhead =>
    rintro mode s up rfl ahead
    exact completes_capArm up ((armOf_edge s.hw rfl).trans (if_neg (Nat.not_lt.mpr ahead)))
  case timePast =>
    rintro mode s up rfl past
    exact completes_capArm up ((armOf_time s.hw rfl).trans (timeArm_past past))
  case timeAhead =>
    rintro mode s up rfl ahead
    exact completes_capArm up ((armOf_time s.hw rfl).trans (timeArm_ahead ahead))
  case trigger =>
    rintro mode s up rfl
    exact completes_capArm up rfl
  case cancel => exact fun s up => completes_capCancel up
  case taken =>
    intro x s runs armed edge first due
    refine givesHw_onHw rfl ((takeCapture_armed runs armed edge first).trans ?_)
    rw [due]
    exact if_pos rfl
  case waits =>
    intro x s runs armed edge first due
    refine givesHw_onHw rfl ((takeCapture_armed runs armed edge first).trans ?_)
    rw [due]
    exact if_neg Bool.false_ne_true
  case opens =>
    rintro x h s runs armed edge first due rfl
    refine givesHw_onHw rfl ((takeCapture_armed runs armed edge first).trans ?_)
    rw [due]
  case noCapture => exact fun s idle => givesHw_onHw rfl (takeCapture_idle idle)
  case ends => exact fun h e ends reached => finishCapture_done ends reached
end
